-- ==== Sys2Proof/Word.lean ====
section
/-! DEFINITION. Words, unit numbers and the two heads: the plainest types of the model (R1, R10, R15). -/

namespace Sys2Proof

/-- A BAR0 register (R10). -/
abbrev Word := BitVec 32
abbrev Byte := BitVec 8
/-- A Span register, a buffer word (R250, R289). -/
abbrev DWord := BitVec 64
/-- An event sequence number, EPOCH, TICK and ORDER (R27). -/
abbrev Esn := BitVec 48
/-- A read channel slice, CHN0 to CHN19. -/
abbrev Slice := Fin 20
/-- A beam of one head, B0 to B9. -/
abbrev Beam := Fin 10
/-- A Lattice unit. -/
abbrev LatUnit := Fin 3
/-- A decoder of the pool. -/
abbrev DecUnit := Fin 24
/-- A stripe engine. -/
abbrev StrUnit := Fin 2
/-- An Arc engine. -/
abbrev ArcEng := Fin 8
/-- A pair of Arc engines (R171). -/
abbrev ArcPair := Fin 3
/-- A Span processor. -/
abbrev Proc := Fin 12
/-- A hardware context of a Span processor (R249). -/
abbrev Ctx := Fin 8
/-- A Span task (R249). -/
abbrev TaskId := Fin 96
/-- A host queue pair (R313). -/
abbrev QPair := Fin 64
/-- A switched power domain (R440). -/
abbrev Domain := Fin 96

/-- The two optical heads. Head A serves side 0 and head B side 1 (R1). -/
inductive Head where
  | a
  | b
  deriving DecidableEq, Repr

/-- The index h of a head's registers. -/
def Head.ix : Head → Nat
  | .a => 0
  | .b => 1

/-- The head of a side bit. -/
def Head.ofSide (n : Nat) : Head := if n % 2 = 0 then .a else .b

/-- The head that owns a slice: CHN0 to CHN9 belong to head A, CHN10 to CHN19 to head B. -/
def headOfSlice (n : Nat) : Head := if n < 10 then .a else .b

/-- The n low bits of a natural number. -/
def lowBits (n v : Nat) : Nat := v % 2 ^ n

/-- The bits hi down to lo of a natural number. -/
def bitsOf (hi lo v : Nat) : Nat := v / 2 ^ lo % 2 ^ (hi + 1 - lo)

/-- The number that two's complement of n bits gives the value v. -/
def signedOf (n v : Nat) : Int :=
  if v % 2 ^ n < 2 ^ (n - 1) then (v % 2 ^ n : Nat) else ((v % 2 ^ n : Nat) : Int) - (2 ^ n : Nat)

/-- The n-bit two's complement code of an integer. -/
def codeOf (n : Nat) (v : Int) : Nat := (v % (2 ^ n : Nat)).toNat

/-- v held within lo to hi. -/
def clampInt (lo hi v : Int) : Int := if v < lo then lo else if hi < v then hi else v

/-- Nearest integer to num / den, an exact half rounding up (R25); den is positive. -/
def roundDiv (num : Int) (den : Nat) : Int := (2 * num + den) / (2 * den)

/-- n div d rounded toward zero (R66). -/
def truncDiv (num : Int) (den : Nat) : Int := if num < 0 then -((-num) / den) else num / den

/-- ceil(n / d). -/
def ceilDiv (n d : Nat) : Nat := (n + d - 1) / d

/-- The value of a list of bytes, the first byte least significant (R10). -/
def leValue : List Byte → Nat
  | [] => 0
  | b :: bs => b.toNat + 256 * leValue bs

/-- The n low bytes of v, least significant first (R10). -/
def leBytes : Nat → Nat → List Byte
  | 0, _ => []
  | n + 1, v => BitVec.ofNat 8 v :: leBytes n (v / 256)

/-- n bytes of l from byte k, read as zero beyond its end. -/
def bytesAt (l : List Byte) (k n : Nat) : List Byte :=
  ((l.drop k).take n) ++ List.replicate (n - ((l.drop k).take n).length) 0

/-- The little-endian field of n bytes at byte k of a record. -/
def fieldAt (l : List Byte) (k n : Nat) : Nat := leValue (bytesAt l k n)

/-- n copies of the byte 0x00. -/
def zeroBytes (n : Nat) : List Byte := List.replicate n 0

end Sys2Proof
end

