-- ==== Sys2Proof/Syntax.lean ====
section
/-! DEFINITION. The commands: one constructor per row of the opcode table, with the stimuli that the state
does not hold (what a host writes, what a converter or a slice measures, what arrives on a link) as operands. -/

namespace Sys2Proof

/-- Size of a BAR0 access (R11). -/
inductive AccessSize where
  | b8
  | b16
  | b32
  | b64
  deriving DecidableEq, Repr

/-- A BAR0 write as it arrives: offset, size, byte enables and data (R11). -/
structure BusWrite where
  off : BitVec 24
  size : AccessSize
  enables : BitVec 8
  data : DWord
  deriving DecidableEq, Repr

/-- A BAR0 read as it arrives (R11). -/
structure BusRead where
  off : BitVec 24
  size : AccessSize
  deriving DecidableEq, Repr

/-- A BAR0 access of the host (R11). -/
inductive BusAccess where
  | write (w : BusWrite)
  | read (r : BusRead)
  /-- The copies of the host attachment disagree on an access, and `copy` is wrong: the access is run again, as the one that follows (R8). -/
  | disagree (copy : Fin 2)
  deriving DecidableEq, Repr

/-- What an orderable event is (R28, R344). Events whose code the spec gives carry it in the record's code. -/
inductive EventKind where
  | wedgeSource | defectStart | defectEnd | addrMismatch | resyncMiss | beamSuspect | beamMap | zoneDeferred
  | guardInhibit | laserFault | fragment | latticeResult | latticeFault | decoderResult | frameDispatch | decoderFault
  | stripeResult | stripeDispatch | stripeFault | bandAccept | bandResult | writePath | arcRecord | motorRecord
  | receipt | completion | dma | audit | checkpoint | memory | cache | crossbar | rootPll | thermal | spanEvent
  | sparing | stamp | power | host | kd | ring | update | locus
  deriving DecidableEq, Repr

/-- A request for an ESN (R28): what the event is, the unit that raises it (the slice, of a fragment), and the class 1 to 6, as
0 to 5, that a STAMP of a vendor task names. -/
structure EsnRequest where
  kind : EventKind
  source : Nat
  named : Fin 6 := 5
  deriving DecidableEq, Repr

/-- What a beam's monitor input gives at a tick (R145): the codes HI and LO, with the lengths in bits of the longest mark and of the
longest space that ended since the last tick, 0 for none. -/
structure MonSample where
  hi : BitVec 12
  mark : Nat
  lo : BitVec 12
  space : Nat
  deriving DecidableEq, Repr

/-- The conversions of one head at a 2.75 MHz tick (R155): the 32 photodetector codes, the monitor samples of each beam and each
beam's servo-sum reference (R85). -/
structure ServoSamples where
  spd : Vector (BitVec 12) 32
  mon : Vector MonSample 10
  sumRef : Vector Nat 10
  deriving DecidableEq, Repr

/-- What a slice sees over one 32-bit group: the ADC codes (R69), and the mean of the rectified VGA input referred back through
the gain (R85). -/
structure GroupSamples where
  adc : Vector (BitVec 7) 32
  envelope : Nat
  deriving DecidableEq, Repr

/-- What one slice sees of a wedge field: the ADC codes of the servo part, one a channel bit, from 4 bits before the expected place of S0
on (R43, R78); the channel bits counted from the last mark of the timebase to the expected place of this one, in 1/64 bit (R79); and of
the resync field the bits read from 2 before its expected place to 2
past its end and the ADC codes of its eight tone bits (R45). -/
structure SliceWedge where
  servo : List (BitVec 7)
  counted64 : Nat
  resync : Vector Bool 20
  tone : Vector (BitVec 7) 8
  deriving DecidableEq, Repr

/-- A wedge field of a head: its index and the measurements of the head's ten slices in slice order. -/
structure WedgeRecord where
  index : Fin 2048
  slices : Vector SliceWedge 10
  deriving DecidableEq, Repr

/-- What a slice sees of a frame preamble (R66, R73): the ADC codes of its bits from the first on, and the envelope over them. -/
structure PreambleRecord where
  adc : List (BitVec 7)
  envelope : Nat
  deriving DecidableEq, Repr

/-- A fragment leaves a slice (R83, R84): the wedge interval and the frame slot it lies in, and the equalised samples of the 8 bits
of the resync field before the interval and of the 8 bits of the guard after it, which its margins may reach. -/
structure FragmentRecord where
  wedge : Fin 2048
  slot : Fin 64
  before : Vector (BitVec 7) 8
  after : Vector (BitVec 7) 8
  deriving DecidableEq, Repr

/-- A frame group of a head (R94). -/
structure GroupKey where
  layer : Fin 8
  band : Nat
  quad : Fin 4
  slot : Nat
  deriving DecidableEq, Repr

/-- The words of the group store that the SEC-DED code could not correct as a pass read them (R8, R95): position and word, each of
nine samples (log 128). -/
abbrev LostWords := List (Fin 8 × Fin 4326)

/-- A lane edge on which the copies of a write path disagree (R8): the copy that reports an error itself, if one does; the beam, the
mark's table index and length, which edge of the mark it is, and where each copy puts it, in 1/32 bit from the mark's first bit. -/
structure EdgeRecord where
  reports : Option (Fin 2)
  beam : Fin 10
  index : Fin 288
  length : Nat
  edge : Nat
  first : Int
  second : Int
  deriving DecidableEq, Repr

/-- The bytes of copies A and B of a layer's record, none of one with a stripe that does not decode (R56). -/
structure LayerCopies where
  layer : Fin 8
  copyA : Option (List Byte)
  copyB : Option (List Byte)
  deriving DecidableEq, Repr

/-- What the lens meets in a focus capture (R164): qualified crossings of the first and the second sweep, whether the
error is quiet after the close, the layer and track of the first valid address block, and the copies of the layer records that the firmware
reads at load; of a KD medium, the sectors it has and those recorded (R360). -/
structure CaptureRecord where
  first : Nat
  second : Nat
  quiet : Bool
  layer : Fin 8
  track : Nat
  records : List LayerCopies
  kd : Option (Nat × Nat)
  deriving DecidableEq, Repr

/-- The slot of an Arc engine that an instruction issues in, with its predicate field (R179), and the CORE cycle of its period in which its
bundle issues, as the loader's timetable has it (R176, R181). -/
structure ArcIssue where
  eng : ArcEng
  slot : Fin 2
  neg : Bool
  pred : Fin 8
  cycle : Nat := 0
  deriving DecidableEq, Repr

abbrev ArcReg := Fin 32

/-- The twelve-bit motor conversions of one spindle current tick (R209), whether MOT_FLT_N is low then (R229, R459), and the copy of the motor
block that is found to disagree, if one is (R8). -/
structure MotorSamples where
  phase : List (BitVec 12)
  terminal : List (BitVec 12)
  bus : BitVec 12
  chopper : BitVec 12
  sled : List (BitVec 12)
  sledSupply : BitVec 12
  faultLow : Bool := false
  copy : Option (Fin 2) := none
  deriving DecidableEq, Repr

/-- A spindle phase. -/
inductive Phase where
  | u
  | v
  | w
  deriving DecidableEq, Repr

/-- A crossing recorded in MEASURE (R215): its terminal and its CORE time. -/
structure Crossing where
  phase : Phase
  time : Nat
  deriving DecidableEq, Repr

/-- A back-EMF or short-circuit current crossing (R220): inside its window, of the polarity expected, the CORE cycles
since the crossing before it and its known electrical angle in 1/65,536 turn. -/
structure ZeroCross where
  inWindow : Bool
  polarity : Bool
  interval : Nat
  angle : BitVec 16
  deriving DecidableEq, Repr

/-- A Span context that issues an instruction (R249). -/
structure SpanIssue where
  proc : Proc
  ctx : Ctx
  deriving DecidableEq, Repr

abbrev SpanReg := Fin 32

/-- The operation of SPAN_ALU, its FN field (R256). -/
inductive SpanAluOp where
  | add | sub | and | or | xor | sll | srl | sra | slt | sltu | mul | mulhu | divu | remu
  deriving DecidableEq, Repr

/-- The operation of SPAN_SHI (R256). -/
inductive ShiftOp where
  | sll | srl | sra
  deriving DecidableEq, Repr

/-- The operation of SPAN_AMO (R267). -/
inductive AmoOp where
  | swap | add | and | or | maxu | minu | cas
  deriving DecidableEq, Repr

/-- What stops a Span processor (R251). -/
inductive ProcFault where
  | mismatch | parity | tcm
  deriving DecidableEq, Repr

/-- An access that reaches the shared cache (R275 to R279): requester, buffer address, task of a Span store, and the
bytes stored (none for a load of `len` bytes). -/
structure CacheReq where
  req : Fin 16
  addr : BitVec 34
  len : Nat
  store : Option (List Byte)
  task : Option TaskId
  deriving DecidableEq, Repr

/-- A cache frame: bank, set and way (R274). -/
structure FrameRef where
  bank : Fin 8
  set : Fin 128
  way : Fin 16
  deriving DecidableEq, Repr

/-- Storage upsets met at a buffer word: the bits of its data and of its check byte that flipped (R290); and a copy of the channel's
controller that disagrees on the read (R8). -/
structure Upset where
  data : DWord
  check : Byte
  copy : Option (Fin 2)
  deriving DecidableEq, Repr

/-- Whole words for the buffer, and a copy of the channel's controller that disagrees on the write (R8, R292). -/
structure WriteBurst where
  words : List DWord
  copy : Option (Fin 2)
  deriving DecidableEq, Repr

/-- Bytes for a word of the buffer, and a copy of the channel's controller that disagrees on the write (R8, R294). -/
structure NarrowBurst where
  bytes : List Byte
  copy : Option (Fin 2) := none
  deriving DecidableEq, Repr

/-- The readings of the twelve sensors, and a copy of the thermal monitor that disagrees on them (R8, R443). -/
structure ThermalReading where
  temps : Vector (BitVec 16) 12
  copy : Option (Fin 2)
  deriving DecidableEq, Repr

/-- How a write of the audit area ends, and a copy of the security block that disagrees on it (R8, R409). -/
structure NorWrite where
  ok : Bool
  copy : Option (Fin 2)
  deriving DecidableEq, Repr

/-- Bytes that the host has stored in its own memory (R317, R318). -/
structure HostStore where
  addr : BitVec 64
  bytes : List Byte
  deriving DecidableEq, Repr

/-- A command in flight: its queue pair and tag (R317). -/
structure CmdRef where
  qp : QPair
  tag : BitVec 16
  deriving DecidableEq, Repr

/-- How the medium answers a stripe that a READ needs (R330): delivered data frames, and the frames lost after every
retry, as a 24-bit mask. -/
structure StripeAnswer where
  stripe : Nat
  data : List (List Byte)
  failed : BitVec 24
  deriving DecidableEq, Repr

/-- A task of the KD logical unit: its tag and its CDB (R356). -/
structure ScsiTask where
  tag : BitVec 16
  cdb : List Byte
  deriving DecidableEq, Repr

/-- How the KD medium answers a read of blocks: the 2,048-byte sectors, and which of them are unrecovered or needed a
second pass or a re-read (R357, R364); for a raw read the 2,060-byte sectors of the block, header first (R358, R361). -/
structure KdAnswer where
  sectors : List (List Byte)
  failed : List Nat
  recovered : Bool
  deriving DecidableEq, Repr

/-- The guards that may cut a KD block (R151). -/
inductive KdGuard where
  | track | focus | silence | laser
  deriving DecidableEq, Repr

/-- Outcome of a write of KD blocks: for each attempt in order the guard that cuts it, if any (R366), and the row-decode symbol counts and monitor
readings of the sixteen calibration steps, where the write calibrates first (R367). -/
structure KdWritten where
  cut : List (Option KdGuard)
  errs : Vector Nat 16
  mon : Vector (BitVec 12) 16
  deriving DecidableEq, Repr

/-- A frame of the service port as it arrives: SEQ and payload (R411); and the copy of the port that disagrees on it (R8). -/
structure SvcFrame where
  seq : BitVec 16
  payload : List Byte
  copy : Option (Fin 2) := none
  deriving DecidableEq, Repr

/-- What the test of one domain finds: the responses of its 64 chains by capture cycle, the signature that its ROM holds,
and whether its March and analogue results pass (R436, R437). -/
structure FacetResult where
  pd : Domain
  responses : List DWord
  expected : DWord
  march : Bool
  analogue : Bool
  deriving DecidableEq, Repr

/-- The environment of a start-up: levels of the three straps, the power domains that fail BIST, the ROOT cores and
memory channels that come up, the cache frames that fail it (R434), the code less 1 of the
memory fitted and of its speed (R286), the boot slots that verify, and whether the audit chain and the key table check. -/
structure BootEnv where
  recoveryN : Bool
  kdSelN : Bool
  svcClk : Bool
  bistFail : List Domain
  badFrames : List (Fin 16384)
  core0 : Bool
  core1 : Bool
  channel0 : Bool
  channel1 : Bool
  capacity : Fin 5
  speed : Fin 3
  slotOk : List Bool
  auditOk : Bool
  keysOk : Bool
  elapsedMs : BitVec 16
  deriving DecidableEq, Repr

/-- A frame of the Annulus ring as it arrives: bytes 0 to 19 + LEN, and whether its CRC checks (R467). -/
structure RingFrame where
  bytes : List Byte
  crcOk : Bool
  deriving DecidableEq, Repr

/-- A ring frame of TYPE 0, kind 0, or of TYPE 4 + kind (R468). -/
structure UnlistedFrame where
  kind : Fin 252
  frame : RingFrame
  deriving DecidableEq, Repr

/-- The instructions of the TAP (R465). -/
inductive TapInstr where
  | bypass | extest | sample | idcode | highz | clamp
  deriving DecidableEq, Repr

/-- The generations of USB4 that the router trains (R305). -/
inductive UsbGen where
  | gen2 | gen3 | gen4
  deriving DecidableEq, Repr

/-- What drives the boundary-scan TAP (R465). -/
inductive TapOp where
  | reset
  | loadIr (ir : TapInstr)
  | shiftDr (tdi : List Bool)
  deriving DecidableEq, Repr

/-- Who writes a register: the host over BAR0, the service port, or a Span task (R397). -/
inductive Writer where
  | host
  | service
  | task (t : TaskId)
  | hardware
  deriving DecidableEq, Repr

/-- Holder of a role (R396). -/
inductive RoleHolder where
  | pair (q : QPair)
  | bar0
  | service
  deriving DecidableEq, Repr

/-- The steps of the part. Each constructor's docstring names the requirement its row carries. -/
inductive Instr where
  /-- R11 -/ | registerWrite (w : BusAccess)
  /-- R28 -/ | esnGrant (arrivals : List EsnRequest)
  /-- R27 -/ | locusTick
  /-- R31 -/ | locusNowRead
  /-- R469 -/ | ringMarkTimeout
  /-- R34 -/ | rootLockLoss
  /-- R36 -/ | quadrantFail (q : Fin 4)
  /-- R8 -/ | memChannelLoss (ch : Fin 2)
  /-- R155 -/ | servoTick (h : Head) (m : ServoSamples)
  /-- R66 -/ | sliceGroupEnd (n : Slice) (g : GroupSamples)
  /-- R79 -/ | wedgeField (h : Head) (w : WedgeRecord)
  /-- R75 -/ | framePreamble (n : Slice) (p : PreambleRecord)
  /-- R81 -/ | syncMarkSearch (n : Slice) (w : Unit)
  /-- R76 -/ | rejoinEnd (n : Slice)
  /-- R83 -/ | fragment (n : Slice) (f : FragmentRecord)
  /-- R96 -/ | groupComplete (h : Head) (g : GroupKey)
  /-- R96 -/ | groupDeadline (h : Head) (g : GroupKey)
  /-- R100 -/ | latticePassDone (u : LatUnit) (lost : LostWords)
  /-- R104 -/ | latticeFault (u : LatUnit)
  /-- R104 -/ | latticeTakeover (h : Head)
  /-- R117 -/ | decoderJobStart (d : DecUnit)
  /-- R110 -/ | decoderIteration (d : DecUnit)
  /-- R116 -/ | sweepTrial (d : DecUnit)
  /-- R120 -/ | decoderFault (d : DecUnit)
  /-- R126 -/ | stripeRebuildDone (e : StrUnit) (h : Head) (slot : Fin 64)
  /-- R125 -/ | encodeDone (e : StrUnit) (h : Head) (slot : Fin 64)
  /-- R129 -/ | stripeEngineFault (e : StrUnit)
  /-- R65 -/ | sliceSetMode (n : Slice) (mode : BitVec 2)
  /-- R64 -/ | sliceSetBeam (n : Slice) (beam : BitVec 4)
  /-- R75 -/ | sliceCold (n : Slice)
  /-- R93 -/ | sliceCntClr (n : Slice)
  /-- R90 -/ | sliceZoneStage (n : Slice) (v : Word)
  /-- R103 -/ | latticeSetMode (u : LatUnit) (mode : BitVec 2) (head : Head)
  /-- R102 -/ | itiReseed (u : LatUnit)
  /-- R131 -/ | decCntClr
  /-- R132 -/ | strCntClr (e : StrUnit)
  /-- R488 -/ | strEnable (e : StrUnit) (on : Bool)
  /-- R153 -/ | wpCntClr (h : Head)
  /-- R146 -/ | opcGo (h : Head)
  /-- R146 -/ | opcDone (h : Head) (r : Unit)
  /-- R152 -/ | bankSwap
  /-- R148 -/ | guardSilence (h : Head)
  /-- R167 -/ | beamMapWrite (h : Head) (v : Word)
  /-- R173 -/ | srvCntClr (h : Head)
  /-- R164 -/ | focusCapture (h : Head) (layer : Fin 8) (r : CaptureRecord)
  /-- R162 -/ | focusLost (h : Head)
  /-- R165 -/ | layerJump (h : Head) (up : Bool) (landed : Bool)
  /-- R166 -/ | seek (h : Head) (band : Nat) (off : Unit)
  /-- R176 -/ | arcPeriodTick (p : ArcPair) (onSpindle : Bool)
  /-- R182 -/ | arcNop (i : ArcIssue)
  /-- R182 -/ | arcMov (i : ArcIssue) (rd rs1 : ArcReg)
  /-- R182 -/ | arcMovi (i : ArcIssue) (rd : ArcReg) (imm : BitVec 17)
  /-- R182 -/ | arcLui (i : ArcIssue) (rd : ArcReg) (imm : BitVec 16)
  /-- R182 -/ | arcSel (i : ArcIssue) (rd rs1 rs2 : ArcReg) (q : BitVec 4)
  /-- R182 -/ | arcAlu (i : ArcIssue) (fn : Fin 8) (rd rs1 rs2 : ArcReg)
  /-- R182 -/ | arcAddi (i : ArcIssue) (rd : ArcReg) (imm : BitVec 17)
  /-- R182 -/ | arcCmp (i : ArcIssue) (fp : Bool) (fn : Fin 6) (pd : Fin 8) (rs1 rs2 : ArcReg)
  /-- R182 -/ | arcQalu (i : ArcIssue) (fn : Fin 4) (rd rs1 rs2 : ArcReg)
  /-- R183 -/ | arcQmul (i : ArcIssue) (rd rs1 rs2 : ArcReg)
  /-- R183 -/ | arcQmac (i : ArcIssue) (fn : Fin 3) (x : Fin 16) (rs1 rs2 : ArcReg)
  /-- R183 -/ | arcQrnd (i : ArcIssue) (sh : BitVec 2) (rd : ArcReg) (x : Fin 16)
  /-- R182 -/ | arcQscl (i : ArcIssue) (s : BitVec 5) (rd rs1 : ArcReg)
  /-- R184 -/ | arcFalu (i : ArcIssue) (fn : Fin 7) (rd rs1 rs2 : ArcReg)
  /-- R184 -/ | arcFmac (i : ArcIssue) (sub : Bool) (rd rs1 rs2 : ArcReg)
  /-- R182 -/ | arcFrcp (i : ArcIssue) (rd rs1 : ArcReg)
  /-- R182 -/ | arcFcvt (i : ArcIssue) (fn : Fin 4) (rd rs1 : ArcReg)
  /-- R185 -/ | arcBiq (i : ArcIssue) (rd : ArcReg) (cblk sblk : BitVec 8)
  /-- R185 -/ | arcLl (i : ArcIssue) (rd : ArcReg) (cblk sblk : BitVec 8)
  /-- R186 -/ | arcInteg (i : ArcIssue) (c : Fin 8) (rd rs1 rs2 : ArcReg)
  /-- R186 -/ | arcClamp (i : ArcIssue) (int : Bool) (c : Fin 8) (rd rs1 rs2 : ArcReg)
  /-- R187 -/ | arcPreset (i : ArcIssue) (bumpless : Bool) (c : Fin 8) (rd rs1 rs2 : ArcReg)
  /-- R190 -/ | arcFfv (i : ArcIssue) (rd rs1 rs2 : ArcReg)
  /-- R191 -/ | arcFfa (i : ArcIssue) (ch : Fin 8) (rd rs1 : ArcReg)
  /-- R182 -/ | arcLdc (i : ArcIssue) (rd : ArcReg) (w : BitVec 11)
  /-- R182 -/ | arcLds (i : ArcIssue) (rd : ArcReg) (w : BitVec 10)
  /-- R182 -/ | arcSts (i : ArcIssue) (rd : ArcReg) (w : BitVec 10)
  /-- R182 -/ | arcLdcx (i : ArcIssue) (rd rs1 : ArcReg)
  /-- R182 -/ | arcLdsx (i : ArcIssue) (rd rs1 : ArcReg)
  /-- R182 -/ | arcStsx (i : ArcIssue) (rs1 rs2 : ArcReg)
  /-- R176 -/ | arcSample (i : ArcIssue) (rd : ArcReg) (port : BitVec 9)
  /-- R193 -/ | arcEmit (i : ArcIssue) (rd : ArcReg) (port : BitVec 9)
  /-- R205 -/ | arcEvent (i : ArcIssue) (rd : ArcReg) (code : BitVec 11)
  /-- R182 -/ | arcMfs (i : ArcIssue) (rd : ArcReg) (s : Fin 4)
  /-- R188 -/ | arcSwap (i : ArcIssue)
  /-- R177 -/ | arcWaittick (i : ArcIssue)
  /-- R199 -/ | arcMismatch (p : ArcPair) (report : List ArcEng)
  /-- R201 -/ | arcCheckpointLoaded (p : ArcPair)
  /-- R188 -/ | arcSwapReq (e : ArcEng)
  /-- R196 -/ | arcPeriodWrite (e : ArcEng) (v : Word)
  /-- R198 -/ | arcLoad (v : Word)
  /-- R204 -/ | arcHandover (v : Word)
  /-- R195 -/ | arcLoadDone
  /-- R205 -/ | arcEventDrain (p : ArcPair)
  /-- R189 -/ | arcCoefWindowWrite (wr : Writer) (e : ArcEng) (w : BitVec 11) (v : Word)
  /-- R207 -/ | arcCntClr (e : ArcEng)
  /-- R487 -/ | pairFailedRecovery (p : ArcPair) (failed : List ArcEng)
  /-- R209 -/ | spindleCurrentTick (m : MotorSamples)
  /-- R210 -/ | spindleOvercurrent (ph : Phase)
  /-- R214 -/ | spnTargetWrite (v : Word)
  /-- R480 -/ | spnEnWrite (on : Bool)
  /-- R215 -/ | measureEnd (cr : List Crossing)
  /-- R220 -/ | zeroCrossing (z : ZeroCross)
  /-- R221 -/ | zcWindowClose
  /-- R217 -/ | revBrakeQuiet
  /-- R217 -/ | revBrakeTimeout
  /-- R218 -/ | probeDone (currents : List Nat)
  /-- R219 -/ | kickTimeout
  /-- R226 -/ | shortQuietTimeout
  /-- R227 -/ | chopperThreshold (above : Bool)
  /-- R228 -/ | ov1
  /-- R228 -/ | chopCheckTimeout
  /-- R228 -/ | busBelowBrkOff
  /-- R229 -/ | ov2
  /-- R229 -/ | ov2Clear
  /-- R459 -/ | motFlt
  /-- R248 -/ | motCntClr
  /-- R234 -/ | prfGo (c : Fin 6) (start : BitVec 10)
  /-- R234 -/ | prfStop (c : Fin 6)
  /-- R243 -/ | sledHome (h : Head)
  /-- R236 -/ | sledMove (h : Head)
  /-- R236 -/ | sledTable (h : Head)
  /-- R236 -/ | sledTrack (h : Head)
  /-- R236 -/ | sledStop (h : Head)
  /-- R245 -/ | sledPark (h : Head)
  /-- R238 -/ | sledDecWrite (h : Head) (v : Word)
  /-- R242 -/ | limitEdge (h : Head) (far : Bool)
  /-- R239 -/ | sledHoldTimer (h : Head)
  /-- R256 -/ | spanAlu (i : SpanIssue) (op : SpanAluOp) (rd rs1 rs2 : SpanReg)
  /-- R256 -/ | spanAddi (i : SpanIssue) (rd rs1 : SpanReg) (imm : BitVec 16)
  /-- R256 -/ | spanAndi (i : SpanIssue) (rd rs1 : SpanReg) (imm : BitVec 16)
  /-- R256 -/ | spanOri (i : SpanIssue) (rd rs1 : SpanReg) (imm : BitVec 16)
  /-- R256 -/ | spanXori (i : SpanIssue) (rd rs1 : SpanReg) (imm : BitVec 16)
  /-- R256 -/ | spanShi (i : SpanIssue) (op : ShiftOp) (sh : BitVec 6) (rd rs1 : SpanReg)
  /-- R256 -/ | spanLui (i : SpanIssue) (rd : SpanReg) (imm : BitVec 16)
  /-- R256 -/ | spanSlti (i : SpanIssue) (rd rs1 : SpanReg) (imm : BitVec 16)
  /-- R252 -/ | spanLd (i : SpanIssue) (rd rs1 : SpanReg) (imm : BitVec 16)
  /-- R256 -/ | spanLwu (i : SpanIssue) (rd rs1 : SpanReg) (imm : BitVec 16)
  /-- R256 -/ | spanLw (i : SpanIssue) (rd rs1 : SpanReg) (imm : BitVec 16)
  /-- R256 -/ | spanLhu (i : SpanIssue) (rd rs1 : SpanReg) (imm : BitVec 16)
  /-- R256 -/ | spanLbu (i : SpanIssue) (rd rs1 : SpanReg) (imm : BitVec 16)
  /-- R256 -/ | spanSd (i : SpanIssue) (rs2 rs1 : SpanReg) (imm : BitVec 16)
  /-- R256 -/ | spanSw (i : SpanIssue) (rs2 rs1 : SpanReg) (imm : BitVec 16)
  /-- R256 -/ | spanSh (i : SpanIssue) (rs2 rs1 : SpanReg) (imm : BitVec 16)
  /-- R256 -/ | spanSb (i : SpanIssue) (rs2 rs1 : SpanReg) (imm : BitVec 16)
  /-- R256 -/ | spanLq (i : SpanIssue) (rd rs1 : SpanReg) (imm : BitVec 16)
  /-- R256 -/ | spanSq (i : SpanIssue) (rs2 rs1 : SpanReg) (imm : BitVec 16)
  /-- R257 -/ | spanBeq (i : SpanIssue) (rs1 rs2 : SpanReg) (imm : BitVec 16)
  /-- R257 -/ | spanBne (i : SpanIssue) (rs1 rs2 : SpanReg) (imm : BitVec 16)
  /-- R257 -/ | spanBlt (i : SpanIssue) (rs1 rs2 : SpanReg) (imm : BitVec 16)
  /-- R257 -/ | spanBge (i : SpanIssue) (rs1 rs2 : SpanReg) (imm : BitVec 16)
  /-- R257 -/ | spanBltu (i : SpanIssue) (rs1 rs2 : SpanReg) (imm : BitVec 16)
  /-- R257 -/ | spanBgeu (i : SpanIssue) (rs1 rs2 : SpanReg) (imm : BitVec 16)
  /-- R257 -/ | spanJal (i : SpanIssue) (rd : SpanReg) (imm : BitVec 21)
  /-- R256 -/ | spanJalr (i : SpanIssue) (rd rs1 : SpanReg) (imm : BitVec 16)
  /-- R258 -/ | spanFence (i : SpanIssue)
  /-- R256 -/ | spanCsrr (i : SpanIssue) (rd : SpanReg) (c : BitVec 8)
  /-- R256 -/ | spanCsrw (i : SpanIssue) (rs1 : SpanReg) (c : BitVec 8)
  /-- R259 -/ | spanEret (i : SpanIssue)
  /-- R261 -/ | spanPop (i : SpanIssue) (q : Fin 128) (rd rs1 : SpanReg)
  /-- R260 -/ | spanPush (i : SpanIssue) (q : Fin 128) (rd rs1 : SpanReg)
  /-- R265 -/ | dmaCopy (i : SpanIssue) (rd rs1 : SpanReg)
  /-- R265 -/ | dmaFill (i : SpanIssue) (rd rs1 : SpanReg)
  /-- R265 -/ | dmaHostIn (i : SpanIssue) (rd rs1 : SpanReg)
  /-- R265 -/ | dmaHostOut (i : SpanIssue) (rd rs1 : SpanReg)
  /-- R265 -/ | dmaCpl (i : SpanIssue) (rd rs1 : SpanReg)
  /-- R117 -/ | dispFrameJob (i : SpanIssue) (rd rs1 : SpanReg)
  /-- R124 -/ | dispStripeJob (i : SpanIssue) (rd rs1 : SpanReg)
  /-- R135 -/ | dispBandWrite (i : SpanIssue) (rd rs1 : SpanReg)
  /-- R264 -/ | spanStamp (i : SpanIssue) (rd : SpanReg) (c : Fin 8)
  /-- R263 -/ | spanWait (i : SpanIssue) (rd rs1 : SpanReg)
  /-- R267 -/ | spanAmo (i : SpanIssue) (op : AmoOp) (rd rs1 rs2 : SpanReg)
  /-- R271 -/ | spanCkpt (i : SpanIssue) (rd : SpanReg)
  /-- R263 -/ | spanSignal (i : SpanIssue) (rs1 : SpanReg)
  /-- R255 -/ | spanIllegalOpcode (i : SpanIssue) (w : Word)
  /-- R263 -/ | waitWake (t : TaskId)
  /-- R265, R296: `bad` names the 64-bit words of a HOST_IN that arrived in poisoned TLPs -/
  | dmaEnd (t : TaskId) (tag : BitVec 16) (bad : List Nat)
  /-- R311 -/ | hostReadError (t : TaskId) (tag : BitVec 16)
  /-- R268 -/ | autoCheckpoint (t : TaskId)
  /-- R271 -/ | checkpointComplete (t : TaskId)
  /-- R251 -/ | spanProcessorFault (p : Proc) (f : ProcFault)
  /-- R251 -/ | spanWatchdog (p : Proc) (c : Ctx)
  /-- R273 -/ | taskRestartDone (t : TaskId)
  /-- R284 -/ | spnCntClr (p : Proc)
  /-- R275 -/ | cacheAccess (r : CacheReq) (parity : List FrameRef)
  /-- R280 -/ | cachePatrol (f : FrameRef) (bad : List (Fin 4 × Fin 8)) (twinBad : List (Fin 4 × Fin 8))
  /-- R283 -/ | cacheDisable (w : Writer)
  /-- R283 -/ | cacheEnable (w : Writer)
  /-- R283 -/ | cacheDisableDone
  /-- R277 -/ | cacheReserve (p : Fin 8) (v : Word)
  /-- R285 -/ | cacheCntClr
  /-- R290 -/
  | memRead (word : Nat) (u : Upset)
  /-- R292 -/ | memWrite (word : Nat) (data : WriteBurst)
  /-- R294 -/ | memNarrowWrite (word : Nat) (first : Fin 8) (data : NarrowBurst)
  /-- R302 -/ | pageRetireDone (page : Nat)
  /-- R292 -/ | parityWriteback (page : Nat)
  /-- R300 -/ | bucketLeak
  /-- R303 -/ | memPatrol
  /-- R288 -/ | wckRetrack (ch : Fin 2)
  /-- R298 -/ | virginScrub
  /-- R304 -/ | memCntClr
  /-- R307 -/ | usb4LinkUp (gen : UsbGen) (lanes : Bool) (asym : Bool)
  /-- R348 -/ | tunnelLoss (hotReset : Bool)
  /-- R313 -/ | qpEnable (q : QPair) (v : Word)
  /-- R313 -/ | qpDisable (q : QPair) (v : Word)
  /-- R314 -/ | sqTailDoorbell (q : QPair) (v : Word) (placed : List HostStore)
  /-- R314 -/ | cqHeadDoorbell (q : QPair) (v : Word)
  /-- R315 -/ | sqFetch
  /-- R324 -/ | invalidOpcode (c : CmdRef)
  /-- R326 -/ | read (c : CmdRef) (stripes : List StripeAnswer)
  /-- R327 -/ | write (c : CmdRef)
  /-- R331 -/ | flush (c : CmdRef)
  /-- R332 -/ | abort (c : CmdRef)
  /-- R334 -/ | selfTestShort (c : CmdRef)
  /-- R334 -/ | selfTestExtended (c : CmdRef)
  /-- R334 -/ | selfTestStop (c : CmdRef)
  /-- R335 -/ | nsCreate (c : CmdRef)
  /-- R338 -/ | nsDelete (c : CmdRef)
  /-- R340 -/ | powerState (c : CmdRef)
  /-- R342 -/ | loadProgramUser (c : CmdRef)
  /-- R419 -/ | loadProgramXim (c : CmdRef)
  /-- R343 -/ | getLog (c : CmdRef)
  /-- R345 -/ | setFeaturePowerIdle (c : CmdRef)
  /-- R345 -/ | setFeatureIdleRpm (c : CmdRef)
  /-- R345 -/ | setFeatureSparePolicy (c : CmdRef)
  /-- R391 -/ | setFeatureAttention (c : CmdRef)
  /-- R345 -/ | setFeatureAutoConfirm (c : CmdRef)
  /-- R352 -/ | setFeatureModeLock (c : CmdRef)
  /-- R345 -/ | setFeatureReadAhead (c : CmdRef)
  /-- R400 -/ | endorseNonce (c : CmdRef)
  /-- R403 -/ | endorseSubmit (c : CmdRef)
  /-- R410 -/ | endorseQuote (c : CmdRef)
  /-- R420 -/ | endorseActivate (c : CmdRef)
  /-- R425 -/ | endorseConfirm (c : CmdRef)
  /-- R396 -/ | endorseDropRole (c : CmdRef)
  /-- R418 -/ | endorseStageAbort (c : CmdRef)
  /-- R425 -/ | endorseRevert (c : CmdRef)
  /-- R320 -/ | coalesceTimeout (q : QPair)
  /-- R347 -/ | hqFreset
  /-- R347 -/ | hqEnableWrite (on : Bool)
  /-- R347 -/ | functionResetDone
  /-- R347 -/ | completionDropTimeout (q : QPair)
  /-- R350 -/ | hqCntClr
  /-- R340 -/ | d3hotEntry
  /-- R340 -/ | d0Return
  /-- R340 -/ | usb4SidebandWake (env : BootEnv)
  /-- R345 -/ | powerIdleTimeout (deep : Bool)
  /-- R341 -/ | psEntryDone
  /-- R356 -/ | testUnitReady (t : ScsiTask)
  /-- R357 -/ | requestSense (t : ScsiTask)
  /-- R355 -/ | inquiry (t : ScsiTask)
  /-- R356 -/ | reportLuns (t : ScsiTask)
  /-- R369 -/ | startStopUnit (t : ScsiTask)
  /-- R356 -/ | preventAllowMediumRemoval (t : ScsiTask)
  /-- R356 -/ | readCapacity (t : ScsiTask)
  /-- R364 -/ | read10 (t : ScsiTask) (m : KdAnswer)
  /-- R364 -/ | read12 (t : ScsiTask) (m : KdAnswer)
  /-- R366 -/ | write10 (t : ScsiTask) (data : List (List Byte)) (m : KdWritten)
  /-- R366 -/ | write12 (t : ScsiTask) (data : List (List Byte)) (m : KdWritten)
  /-- R356 -/ | seek10 (t : ScsiTask)
  /-- R356 -/ | verify10 (t : ScsiTask) (m : KdAnswer)
  /-- R366 -/ | synchronizeCache (t : ScsiTask) (m : KdWritten)
  /-- R356 -/ | readTocPmaAtip (t : ScsiTask)
  /-- R356 -/ | getConfiguration (t : ScsiTask)
  /-- R356 -/ | getEventStatusNotification (t : ScsiTask)
  /-- R356 -/ | readDiscInformation (t : ScsiTask)
  /-- R356 -/ | readTrackInformation (t : ScsiTask)
  /-- R356 -/ | readBufferCapacity (t : ScsiTask)
  /-- R356 -/ | modeSelect10 (t : ScsiTask) (data : List Byte)
  /-- R356 -/ | modeSense10 (t : ScsiTask)
  /-- R356 -/ | getPerformance (t : ScsiTask)
  /-- R356 -/ | setStreaming (t : ScsiTask)
  /-- R358 -/ | kdReadRaw (t : ScsiTask) (m : KdAnswer) (rows : Vector Byte 240)
  /-- R358 -/ | kdErrCounters (t : ScsiTask)
  /-- R367 -/ | kdCalibrate (t : ScsiTask) (errs : Vector Nat 16) (mon : Vector (BitVec 12) 16)
  /-- R358 -/ | kdDriveInfo (t : ScsiTask)
  /-- R357 -/ | scsiUnsupportedOpcode (t : ScsiTask)
  /-- R359 -/ | abortTask (tag : BitVec 16)
  /-- R359 -/ | abortTaskSet
  /-- R359 -/ | logicalUnitReset
  /-- R359 -/ | usbPortReset
  /-- R369 -/ | usbSuspend
  /-- R362 -/ | kdRunIn (bits : Nat) (p : PreambleRecord)
  /-- R362 -/ | kdFrameSync (dist : Unit) (bits : Unit)
  /-- R363 -/ | kdBlockDecode
  /-- R368 -/ | kdStandbyTakeover (fault : Bool)
  /-- R368 -/ | kdTakeover
  /-- R371 -/ | kdCntClr
  /-- R375 -/ | rotationTimer
  /-- R374 -/ | reserveTestTimer (cls : Fin 16) (unit : Nat)
  /-- R378 -/ | drainDone
  /-- R378 -/ | unitLoadDone (crcOk : Bool)
  /-- R439 -/ | targetedTestDone (pass : Bool)
  /-- R379 -/ | unitReclaim (cls : Fin 16)
  /-- R384 -/ | sliceHandoff (v : Word)
  /-- R386 -/ | latticeHandoff (v : Word)
  /-- R387 -/ | spanHandoff (v : Word)
  /-- R387 -/ | spanHandoffDone
  /-- R376 -/ | sprPolicyWrite (w : Writer) (v : Word)
  /-- R391 -/ | sprThresholdWrite (w : Writer) (cls : Fin 15) (v : Word)
  /-- R394 -/ | sprCntClr
  /-- R390 -/ | vendorTaskMove (t : TaskId)
  /-- R421 -/ | liveActivationDone (ok : Bool)
  /-- R396 -/ | roleGrantExpiry (r : RoleHolder)
  /-- R404 -/ | nonceExpiry (id : Word)
  /-- R404 -/ | modeLockAuthExpiry
  /-- R418 -/ | stagingLockTimeout
  /-- R417 -/ | imageVerifyDone
  /-- R409 -/ | auditNorWrite (w : NorWrite)
  /-- R406 -/ | auditAggregate
  /-- R425 -/ | cleanMinute
  /-- R427 -/ | secCntClr
  /-- R412 -/ | svcHello (f : SvcFrame)
  /-- R412 -/ | svcNonce (f : SvcFrame)
  /-- R412 -/ | svcToken (f : SvcFrame)
  /-- R418 -/ | svcStage (f : SvcFrame)
  /-- R417 -/ | svcStageEnd (f : SvcFrame)
  /-- R420 -/ | svcActivate (f : SvcFrame)
  /-- R425 -/ | svcConfirm (f : SvcFrame)
  /-- R418 -/ | svcStageAbort (f : SvcFrame)
  /-- R425 -/ | svcRevert (f : SvcFrame)
  /-- R412 -/ | svcRegRead (f : SvcFrame)
  /-- R397 -/ | svcRegWrite (f : SvcFrame)
  /-- R412 -/ | svcGetLog (f : SvcFrame)
  /-- R404 -/ | svcModeLock (f : SvcFrame)
  /-- R396 -/ | svcDropRole (f : SvcFrame)
  /-- R429 -/ | svcReset (f : SvcFrame)
  /-- R411 -/ | svcSessionTimeout
  /-- R411 -/ | svcFrameTimeout
  /-- R428 -/ | powerOn (env : BootEnv)
  /-- R428 -/ | resetPin
  /-- R428 -/ | brownOut
  /-- R432 -/ | referenceLoss
  /-- R432 -/ | referenceRestored
  /-- R432 -/ | pllLockTimeout (core : Fin 2)
  /-- R438 -/ | facetExtReq (w : Writer)
  /-- R439 -/ | facetTgtGo (pd : BitVec 7)
  /-- R436 -/ | facetTestDone (results : List FacetResult)
  /-- R448 -/ | pwrCntClr
  /-- R441 -/ | pdRequest (pd : Domain) (on : Bool)
  /-- R441 -/ | pdPowerUpDone (pd : Domain)
  /-- R443 -/ | thermalSample (temps : ThermalReading)
  /-- R444 -/ | governorSample
  /-- R446 -/ | tripClear
  /-- R454 -/ | pwrFailAssert
  /-- R454 -/ | pwrFailResume
  /-- R469 -/ | ringTimeMark (f : RingFrame) (residence : Nat)
  /-- R468 -/ | ringPresence (f : RingFrame)
  /-- R474 -/ | ringWake (f : RingFrame) (env : BootEnv)
  /-- R468 -/ | ringMgmt (f : RingFrame)
  /-- R468 -/ | ringUnknownFrame (f : UnlistedFrame)
  /-- R466 -/ | ringSync
  /-- R466 -/ | ringSyncLoss
  /-- R467 -/ | presenceTimer
  /-- R471 -/ | ringForceBypass (w : Writer) (on : Bool)
  /-- R472 -/ | ringBypassOpen
  /-- R467 -/ | ringTxPush
  /-- R467 -/ | ringRxPop
  /-- R475 -/ | ringCntClr
  /-- R468 -/ | mgmtRetry
  /-- R430 -/ | resetDeassert (env : BootEnv)
  /-- R8 -/ | writePathMismatch (h : Head) (e : EdgeRecord)
  /-- R8 -/ | locusCopyDisagree (copy : Fin 3)
  /-- R382 -/ | sliceSelfCheckFault (n : Slice)
  /-- R119 -/ | jobCancel (h : Head) (esn : Esn)
  /-- R442 -/ | standbyCoreRelock
  /-- R218 -/ | zeroDegreeVectorEnd
  /-- R454 -/ | pwrFailDeassert
  /-- R241 -/ | limitRawTransition (h : Head) (far : Bool) (level : Bool)
  /-- R369 -/ | usbResume
  /-- R354 -/ | usbDeviceRequest (setup : Vector Byte 8)
  /-- R426 -/ | svcUnlistedType (t : Fin 241) (f : SvcFrame)
  /-- R465 -/ | boundaryScan (op : TapOp)
  /-- R367 -/ | kdCalibrationTimer (errs : Vector Nat 16) (mon : Vector (BitVec 12) 16)
  deriving DecidableEq, Repr

end Sys2Proof
end

