-- ==== Sys2Proof/Decode.lean ====
section
/-! DEFINITION. The commands that a word spells. The opcode table gives its rows no bits: the block is commanded over its
buses and pins, not by instruction words. -/

namespace Sys2Proof

/-- The command that a word spells by the opcode table's bits: no row of the table has bits, so no word spells one. -/
def decodeTableWord (_nbits _w : Nat) : Option Instr := none

end Sys2Proof
end

