-- ==== Sys2Proof/Machine/Operands.lean ====
section
/-! DEFINITION. Operand forms of the two instruction sets: immediates, accumulator pairs, Q1.31 numbers and binary32
numbers as exact values (R179, R182, R183, R184, R254). -/

namespace Sys2Proof.Machine

/-! ## Integers -/

/-- An immediate extended by its sign to w bits. -/
def sext {n : Nat} (w : Nat) (v : BitVec n) : BitVec w := v.signExtend w

/-- An immediate extended by zeros to w bits. -/
def zext {n : Nat} (w : Nat) (v : BitVec n) : BitVec w := v.zeroExtend w

/-- A word as a Q1.31 number in units of 2^-31 (R183). -/
def qval (v : Word) : Int := v.toInt

/-- Numbers of the registers of accumulator xk: the low word and the high word (R182). -/
def accPair (k : Nat) : Nat × Nat := (2 * k, 2 * k + 1)

/-- The accumulator held in two words (R183). -/
def accOf (hi lo : Word) : Int := (hi ++ lo : BitVec 64).toInt

/-- Shift right by n with half of the least significant retained unit added first (R183). -/
def roundShift (v : Int) (n : Nat) : Int := if n = 0 then v else (v + 2 ^ (n - 1)) / 2 ^ n

/-! ## Binary32 (R184) -/

/-- A binary32 value: a zero, a finite number (-1)^neg × m × 2^e with m positive, or an infinity. -/
inductive Flt where
  | zero (neg : Bool)
  | fin (neg : Bool) (m : Nat) (e : Int)
  | inf (neg : Bool)
  deriving DecidableEq, Repr

/-- The word holds a NaN. -/
def isNan (w : Word) : Bool := w.toNat / 2 ^ 23 % 256 == 255 && w.toNat % 2 ^ 23 != 0

/-- The value of a word: subnormals are zero of the same sign, and a NaN is +0 (R184). -/
def fltOf (w : Word) : Flt :=
  let neg := w.toNat / 2 ^ 31 == 1
  let e : Nat := w.toNat / 2 ^ 23 % 256
  let f := w.toNat % 2 ^ 23
  if e = 0 then .zero neg
  else if e = 255 then (if f = 0 then .inf neg else .zero false)
  else .fin neg (2 ^ 23 + f) ((e : Int) - 150)

/-- The sign of a value. -/
def Flt.neg : Flt → Bool
  | .zero s => s
  | .fin s _ _ => s
  | .inf s => s

/-- The value with its sign changed. -/
def Flt.flip : Flt → Flt
  | .zero s => .zero (!s)
  | .fin s m e => .fin (!s) m e
  | .inf s => .inf (!s)

/-- The value without its sign. -/
def Flt.mag : Flt → Flt
  | .zero _ => .zero false
  | .fin _ m e => .fin false m e
  | .inf _ => .inf false

/-- The signed mantissa of a finite value. -/
def signedMant (neg : Bool) (m : Nat) : Int := if neg then -(m : Int) else m

/-- m × 2^(e - k) as an integer, for a common exponent k of at most e. -/
def scaled (m : Int) (e k : Int) : Int := m * 2 ^ (e - k).toNat

/-- The exact value of a finite number as mantissa and exponent. -/
def Flt.exact : Flt → Int × Int
  | .zero _ => (0, 0)
  | .fin s m e => (signedMant s m, e)
  | .inf _ => (0, 0)

/-- Order of two values, an infinity beyond every finite one, and the two zeros equal. -/
def Flt.lt (a b : Flt) : Bool :=
  match a, b with
  | .inf s, .inf t => s && !t
  | .inf s, _ => s
  | _, .inf t => !t
  | _, _ =>
    let x := a.exact
    let y := b.exact
    let k := min x.2 y.2
    decide (scaled x.1 x.2 k < scaled y.1 y.2 k)

/-- Equality of values, the two zeros equal. -/
def Flt.eqv (a b : Flt) : Bool := !a.lt b && !b.lt a

end Sys2Proof.Machine
end

