-- ==== Sys2Proof/Machine/Flags.lean ====
section
/-! DEFINITION. Results with the sticky flags they raise: saturation of Q1.31 and accumulator results, and rounded
binary32 arithmetic (R182, R183, R184). -/

namespace Sys2Proof.Machine

/-- The sticky flags that one operation raises (R182). -/
structure Raised where
  sat : Bool := false
  ovf : Bool := false
  nan : Bool := false
  div : Bool := false
  deriving DecidableEq, Repr

/-- The flags of two operations together. -/
def Raised.or (a b : Raised) : Raised := ⟨a.sat || b.sat, a.ovf || b.ovf, a.nan || b.nan, a.div || b.div⟩

/-! ## Saturation (R183) -/

/-- A Q1.31 or 32-bit integer result, saturating. -/
def sat32 (v : Int) : Word × Raised :=
  if v < -2147483648 then (0x80000000, { sat := true })
  else if 2147483647 < v then (0x7fffffff, { sat := true })
  else (BitVec.ofInt 32 v, {})

/-- An accumulator result, saturating to 64 bits. -/
def sat64 (v : Int) : DWord × Raised :=
  if v < -9223372036854775808 then (0x8000000000000000, { sat := true })
  else if 9223372036854775807 < v then (0x7fffffffffffffff, { sat := true })
  else (BitVec.ofInt 64 v, {})

/-! ## Rounding to binary32 (R184) -/

/-- The word of a sign, a biased exponent and a fraction. -/
def fpack (neg : Bool) (e f : Nat) : Word := BitVec.ofNat 32 ((if neg then 2 ^ 31 else 0) + e * 2 ^ 23 + f)

/-- A zero. -/
def fzero (neg : Bool) : Word := fpack neg 0 0

/-- The largest finite value. -/
def fmaxFin (neg : Bool) : Word := fpack neg 254 (2 ^ 23 - 1)

/-- An infinity. -/
def finf (neg : Bool) : Word := fpack neg 255 0

/-- m / 2^n to the nearest integer, ties to even. -/
def shiftEven (m n : Nat) : Nat :=
  let q := m / 2 ^ n
  let r := m % 2 ^ n
  if 2 ^ n < 2 * r ∨ (2 * r = 2 ^ n ∧ q % 2 = 1) then q + 1 else q

/-- (-1)^neg × m × 2^e rounded to nearest even: a result below the normal range is zero of its sign, one beyond it the
largest finite value with OVF (R184). What is below the range is judged after rounding to 24 bits of unbounded range, so a value just below
2^-126 that rounds to it stays: R184 does not say which side of the rounding counts (DESIGN CHOICE, log 148). -/
def fround (neg : Bool) (m : Nat) (e : Int) : Word × Raised :=
  if m = 0 then (fzero neg, {})
  else
    let len := Nat.log2 m + 1
    let s : Int := (len : Int) - 24
    let q := if 0 < s then shiftEven m s.toNat else m * 2 ^ (-s).toNat
    let q' := if q = 2 ^ 24 then 2 ^ 23 else q
    let x := e + s + 150 + (if q = 2 ^ 24 then 1 else 0)
    if x < 1 then (fzero neg, {})
    else if 254 < x then (fmaxFin neg, { ovf := true })
    else (fpack neg x.toNat (q' - 2 ^ 23), {})

/-- An exact sum or product rounded; an exact zero is +0. -/
def froundInt (m e : Int) : Word × Raised := fround (decide (m < 0)) m.natAbs e

/-- An operation that would give a NaN gives +0 with NAN set (R184). -/
def fnan : Word × Raised := (0, { nan := true })

/-- NAN, where an operand is a NaN. -/
def nanOf (l : List Word) : Raised := { nan := l.any isNan }

/-! ## Arithmetic on values -/

/-- The exact product of two values, none for zero times infinity. -/
def Flt.mul (a b : Flt) : Option Flt :=
  let s := a.neg != b.neg
  match a, b with
  | .inf _, .zero _ => none
  | .zero _, .inf _ => none
  | .inf _, _ => some (.inf s)
  | _, .inf _ => some (.inf s)
  | .zero _, _ => some (.zero s)
  | _, .zero _ => some (.zero s)
  | .fin _ m e, .fin _ n f => some (.fin s (m * n) (e + f))

/-- The sum of two values rounded once. -/
def Flt.add (a b : Flt) : Word × Raised :=
  match a, b with
  | .inf s, .inf t => if s = t then (finf s, {}) else fnan
  | .inf s, _ => (finf s, {})
  | _, .inf t => (finf t, {})
  | .zero s, .zero t => (fzero (s && t), {})
  | _, _ =>
    let x := a.exact
    let y := b.exact
    match a, b with
    | .zero _, _ => froundInt y.1 y.2
    | _, .zero _ => froundInt x.1 x.2
    | _, _ =>
      let k := min x.2 y.2
      froundInt (scaled x.1 x.2 k + scaled y.1 y.2 k) k

/-- A value as a word. -/
def Flt.pack : Flt → Word × Raised
  | .zero s => (fzero s, {})
  | .fin s m e => fround s m e
  | .inf s => (finf s, {})

/-- The flags of the operands' NaNs beside those of a result. -/
def withNan (l : List Word) (r : Word × Raised) : Word × Raised := (r.1, r.2.or (nanOf l))

def fadd (a b : Word) : Word × Raised := withNan [a, b] ((fltOf a).add (fltOf b))

def fsub (a b : Word) : Word × Raised := withNan [a, b] ((fltOf a).add (fltOf b).flip)

def fmul (a b : Word) : Word × Raised :=
  withNan [a, b] (match (fltOf a).mul (fltOf b) with
    | some p => p.pack
    | none => fnan)

/-- a × b + c, or c - a × b, with one rounding (R182). -/
def ffma (minus : Bool) (a b c : Word) : Word × Raised :=
  withNan [a, b, c] (match (fltOf a).mul (fltOf b) with
    | some p => (if minus then p.flip else p).add (fltOf c)
    | none => fnan)

/-- A word with a subnormal taken as zero and a NaN as +0. -/
def fclean (w : Word) : Word := (fltOf w).pack.1

/-- The lesser of two values; -0 lies below +0. -/
def fmin (a b : Word) : Word × Raised :=
  withNan [a, b] (fclean (if (fltOf a).lt (fltOf b) || ((fltOf a).eqv (fltOf b) && (fltOf a).neg) then a else b), {})

/-- The greater of two values. -/
def fmax (a b : Word) : Word × Raised :=
  withNan [a, b] (fclean (if (fltOf b).lt (fltOf a) || ((fltOf a).eqv (fltOf b) && !(fltOf a).neg) then a else b), {})

def fabs (a : Word) : Word × Raised := withNan [a] (fltOf a).mag.pack

def fneg (a : Word) : Word × Raised := if isNan a then fnan else (fltOf a).flip.pack

/-- n / d × 2^e rounded once, n and d positive. -/
def froundDiv (neg : Bool) (n d : Nat) (e : Int) : Word × Raised :=
  let k := 64 + Nat.log2 d
  let q := n * 2 ^ k / d
  fround neg (2 * q + (if n * 2 ^ k % d = 0 then 0 else 1)) (e - k - 1)

/-- 1 / v correctly rounded, for a finite v (R182). -/
def frcpNear (w : Word) : Word × Raised :=
  match fltOf w with
  | .zero s => (fmaxFin s, { div := true })
  | .inf s => (fzero s, {})
  | .fin s m e => froundDiv s 1 m (-e)

/-- The word one unit in the last place away from a normal word, toward zero or away from it. -/
def fstep (w : Word) (away : Bool) : Word := if away then w + 1 else w - 1

/-- |r × x - 1| ≤ 2^-23 for normal words r and x: r is 1/x within the stated relative error (R182). -/
def rcpWithin (x r : Word) : Bool :=
  match fltOf x, fltOf r with
  | .fin s m e, .fin t n f =>
    let k : Int := e + f
    s == t && decide (k ≤ 0) && decide (2 ^ 23 * ((m * n : Nat) - (2 ^ (-k).toNat : Nat) : Int).natAbs ≤ 2 ^ (-k).toNat)
  | _, _ => false

/-- FRCP: a value within the stated error, which of them being left open (log 3): pick 0 takes the nearest, 1 the next
one toward zero and 2 the next one away, where they are within the error. -/
def frcp (pick : Nat) (w : Word) : Word × Raised :=
  let r := frcpNear w
  let c := if pick % 3 = 1 then fstep r.1 false else if pick % 3 = 2 then fstep r.1 true else r.1
  withNan [w] (if rcpWithin w c then (c, r.2) else r)

/-- rd × rs2 / rs1, the ratio taken as 4.0 with SAT where rs1 is below rs2 / 4 or not positive; a NaN raises NAN on both paths (R184, R190). -/
def ffv (rd rs1 rs2 : Word) : Word × Raised :=
  let a := fltOf rs1
  let b := fltOf rs2
  let quarter := match b with
    | .fin s m e => Flt.fin s m (e - 2)
    | v => v
  let positive := match a with
    | .zero _ => false
    | v => !v.neg
  if !positive || a.lt quarter then
    let r := withNan [rs1, rs2] (fmul rd 0x40800000)
    (r.1, r.2.or { sat := true })
  else
    withNan [rd, rs1, rs2] (match (fltOf rd).mul b with
      | none => fnan
      | some p =>
        match p, a with
        | .inf _, .inf _ => fnan
        | .inf s, _ => (finf s, {})
        | .zero s, _ => (fzero s, {})
        | .fin s _ _, .inf _ => (fzero s, {})
        | .fin s m e, .fin _ n f => froundDiv s m n (e - f)
        | _, .zero _ => fnan)

/-- A finite value × 2^k rounded to the nearest integer: ties upward (R183) or to even. -/
def toIntAt (even : Bool) (v : Flt) (k : Nat) : Int :=
  let x := v.exact
  let e := x.2 + k
  if 0 ≤ e then x.1 * 2 ^ e.toNat
  else
    let n := (-e).toNat
    if even then (if x.1 < 0 then -(shiftEven x.1.natAbs n : Int) else shiftEven x.1.natAbs n)
    else (x.1 + 2 ^ (n - 1)) / 2 ^ n

/-- A value × 2^k as a saturating 32-bit integer (R182). -/
def fixAt (even : Bool) (w : Word) (k : Nat) : Word × Raised :=
  withNan [w] (match fltOf w with
    | .inf s => ((if s then 0x80000000 else 0x7fffffff), { sat := true })
    | v => sat32 (toIntAt even v k))

/-- A 32-bit integer times 2^-k in binary32. -/
def fltAt (v : Int) (k : Nat) : Word × Raised := froundInt v (-k)

/-- FP32 of an integer. -/
def fltInt (v : Int) : Word := (fltAt v 0).1

/-- FP32 of num / den, den positive. -/
def fltRatio (num : Int) (den : Nat) : Word :=
  if num = 0 then 0 else (froundDiv (decide (num < 0)) num.natAbs den 0).1

/-- The integer nearest to a port value, ties to even, within a range (R193); an infinity goes to its end. -/
def portInt (w : Word) (lo hi : Int) : Int :=
  match fltOf w with
  | .inf s => if s then lo else hi
  | v => clampInt lo hi (toIntAt true v 0)

end Sys2Proof.Machine
end

