-- ==== Sys2Proof/Machine/Geometry.lean ====
section
/-! DEFINITION. The native disc format as arithmetic: zones, wedges, fragments, frames, stripes, addresses, the
scrambler and the two CRCs (R25, R38 to R60). -/

namespace Sys2Proof.Machine

/-- b(z), the first band of zone z (R40). -/
def zoneFirstBand (z : Nat) : Nat := ceilDiv 953440 (80 - z) - 11918

/-- The number of bands of zone z. -/
def zoneBands (z : Nat) : Nat := zoneFirstBand (z + 1) - zoneFirstBand z

/-- The bands of a layer (R40). -/
def layerBands : Nat := 17877

/-- The zone of a band: the last zone that begins at or before it (R40). -/
def zoneOfBand (b : Nat) : Nat := ((List.range 48).filter fun z => zoneFirstBand z ≤ b).length - 1

/-- L_z, the channel bits of a fragment (R46). -/
def fragBits (z : Nat) : Nat := 32 * ((859375 * 61 - 9216 * (80 - z)) / (12288 * (80 - z)))

/-- F_z, the frame slots of a quadrant (R50). -/
def zoneSlots (z : Nat) : Nat := 512 * fragBits z / 39088

/-- S_z, the spare bands of zone z (R55). -/
def spareBands (z : Nat) : Nat := ceilDiv (zoneBands z) 64

/-- A band that host data never occupies (R55). -/
def systemBand (b : Nat) : Bool :=
  let z := zoneOfBand b
  b < 4 || zoneFirstBand (z + 1) - spareBands z ≤ b

/-- CHAN_DIV of zone z at n rpm (R25). -/
def chanDiv (z n : Nat) : Int := roundDiv ((80 - z) * 7200 : Nat) n

/-- F_PRESET of zone z at n rpm, in 2^-20 (R90). -/
def fPresetOf (z n : Nat) : Int :=
  roundDiv (2 ^ 20 * (chanDiv z n * n - (80 - z) * 7200)) ((80 - z) * 7200)

/-- ε / B_z × 2^-WF in units of 2^-20, for ε in 1/64 channel bit (R46, R79). -/
def wedgeFreq (z wf : Nat) (eps64 : Int) : Int :=
  roundDiv (eps64 * 2 ^ 14 * (6 * (80 - z) : Nat)) (859375 * 2 ^ wf)

/-- The side bit of a frame or stripe address (R54). -/
def addrSide (a : Nat) : Nat := bitsOf 31 31 a
def addrLayer (a : Nat) : Nat := bitsOf 30 28 a
def addrZone (a : Nat) : Nat := bitsOf 27 22 a

/-- The band of a stripe address (R54). -/
def stripeBand (a : Nat) : Nat := zoneFirstBand (addrZone a) + bitsOf 21 12 a
def stripeSlot (a : Nat) : Nat := bitsOf 5 0 a

/-- The stripe address of a band and slot (R54). -/
def stripeAddr (side layer band slot : Nat) : Nat :=
  let z := zoneOfBand band
  side * 2 ^ 31 + layer * 2 ^ 28 + z * 2 ^ 22 + (band - zoneFirstBand z) * 2 ^ 12 + slot

/-- The frame address of frame j of the stripe at a band and slot (R52, R54). -/
def frameAddr (side layer band slot j : Nat) : Nat :=
  let z := zoneOfBand band
  side * 2 ^ 31 + layer * 2 ^ 28 + z * 2 ^ 22 + (8 * (band - zoneFirstBand z) + j % 8) * 2 ^ 8
    + (j / 8 * zoneSlots z + slot)

/-- Frame j of the stripe at a stripe address. -/
def frameOfStripe (a j : Nat) : Nat :=
  frameAddr (addrSide a) (addrLayer a) (stripeBand a) (stripeSlot a) j

/-- The band, position, quadrant and slot of a frame address (R54). -/
def frameBand (a : Nat) : Nat := zoneFirstBand (addrZone a) + bitsOf 21 8 a / 8
def framePos (a : Nat) : Nat := bitsOf 21 8 a % 8
def frameQuad (a : Nat) : Nat := bitsOf 7 0 a / zoneSlots (addrZone a)
def frameSlot (a : Nat) : Nat := bitsOf 7 0 a % zoneSlots (addrZone a)

/-- The frame's index j in its stripe (R52). -/
def frameIndex (a : Nat) : Nat := frameQuad a * 8 + framePos a

/-- The stripe address of the stripe that holds a frame (R52, R54). -/
def stripeOfFrame (a : Nat) : Nat := stripeAddr (addrSide a) (addrLayer a) (frameBand a) (frameSlot a)

/-- A stripe address that names a slot of the medium. -/
def stripeValid (a : Nat) : Bool :=
  addrZone a < 48 && stripeBand a < zoneFirstBand (addrZone a + 1) && stripeSlot a < zoneSlots (addrZone a)
    && bitsOf 11 8 a == 0 && bitsOf 7 6 a == 0

/-- The first usable band of zone z (R55). -/
def usableFirst (z : Nat) : Nat := if z = 0 then 4 else zoneFirstBand z

/-- The bands of zone z that host data may occupy (R55). -/
def usableBands (z : Nat) : Nat := zoneFirstBand (z + 1) - spareBands z - usableFirst z

/-- The logical stripes of zone z (R58). -/
def usableStripes (z : Nat) : Nat := usableBands z * zoneSlots z

/-- The logical stripes of a layer. -/
def layerStripes : Nat := ((List.range 48).map usableStripes).foldl (· + ·) 0

/-- Walk of the zones in track order: the zone and the stripe within it. -/
def locateStripe : List Nat → Nat → Option (Nat × Nat)
  | [], _ => none
  | z :: zs, k => if k < usableStripes z then some (z, k) else locateStripe zs (k - usableStripes z)

/-- The home slot of logical stripe k of a layer (R58). -/
def homeOf (side layer k : Nat) : Option Nat :=
  match locateStripe (if layer % 2 = 0 then List.range 48 else (List.range 48).reverse) k with
  | none => none
  | some (z, i) =>
    let r := i / zoneSlots z
    let band := if layer % 2 = 0 then usableFirst z + r else usableFirst z + usableBands z - 1 - r
    some (stripeAddr side layer band (i % zoneSlots z))

/-- The scrambler's seed for a frame (R48). -/
def scramblerSeed (side layer track fit : Nat) : Nat :=
  layer * 2 ^ 28 + 2 ^ 27 + side * 2 ^ 26 + track * 2 ^ 8 + fit

/-- The scrambler's seed of a frame address. -/
def frameSeed (a : Nat) : Nat :=
  scramblerSeed (addrSide a) (addrLayer a) (8 * frameBand a + framePos a) (bitsOf 7 0 a)

/-- n bits of the generator x^31 + x^28 + 1 from a 31-bit seed (R48; log 12). -/
def scramble : Nat → Nat → List Bool
  | 0, _ => []
  | n + 1, s =>
    let b := s.testBit 30 != s.testBit 27
    b :: scramble n ((2 * s + (if b then 1 else 0)) % 2 ^ 31)

/-- One bit of CRC-8, x^8 + x^2 + x + 1 (R44). -/
def crc8Bit (c : Nat) (b : Bool) : Nat :=
  let t := (c.testBit 7) != b
  let s := 2 * c % 256
  if t then s ^^^ 7 else s

/-- CRC-8 over the n bits of v, most significant first, initial value 0 (R44). -/
def crc8 (n v : Nat) : Nat := ((List.range n).reverse.map v.testBit).foldl crc8Bit 0

/-- One byte of the reflected CRC-32 with polynomial 0x04c1_1db7 (R49). -/
def crc32Byte (c : Nat) (b : Byte) : Nat :=
  (List.range 8).foldl (fun c _ => if c.testBit 0 then c / 2 ^^^ 0xedb88320 else c / 2) (c ^^^ b.toNat)

/-- CRC-32: reflected, initial value and final XOR all ones (R49). -/
def crc32 (l : List Byte) : Nat := l.foldl crc32Byte 0xffffffff ^^^ 0xffffffff

/-- The 40-bit address block that eight address bytes spell, the byte of wedge w mod 8 = 0 first (R44). -/
def addressBlock (l : List Byte) : Nat :=
  (List.range l.length).foldl (fun acc i => acc + (l[i]?.getD 0).toNat % 32 * 2 ^ (5 * i)) 0

/-- A block of 40 bits passes its CRC-8 (R44). -/
def addressValid (v : Nat) : Bool := v % 256 == crc8 32 (v / 256)

/-- The sync mark, most significant bit first (R47). -/
def syncMark : List Bool := (List.range 48).reverse.map (0xe2d61b3c8f44).testBit

/-- The end of the band that precedes a band along the track path; none for band 0 of an even layer (R483). -/
def precedingBand (layer b : Nat) : Option Nat :=
  if layer % 2 = 0 then (if b = 0 then none else some (b - 1)) else some (b + 1)

/-- The band that the crossing of wedge 0 carries a head into (R39). -/
def nextBand (layer b : Nat) : Nat := if layer % 2 = 0 then b + 1 else b - 1

end Sys2Proof.Machine
end

