-- ==== Sys2Proof/Config.lean ====
section
/-! DEFINITION. What an implementation fixes and what the spec leaves open: the free values, and the unit counts
of the classes (R372). -/

namespace Sys2Proof

/-- A free value: what the spec leaves open, indexed by the counter of free values drawn so far (log 3). -/
opaque Config.freeValue : Nat → BitVec 64

/-- Which free value a function of a value keeps open, indexed by the operand (log 3). -/
opaque Config.freeOf : Nat → Nat → Nat

/-- UNITS of a unit class by its code (R372); class 0x0d counts the spare stripe slots of the loaded medium. -/
def classUnits : Nat → Nat
  | 1 => 10 | 2 => 10 | 3 => 10 | 4 => 10 | 5 => 3 | 6 => 24 | 7 => 8 | 8 => 12 | 9 => 32 | 10 => 1024 | 11 => 4
  | 12 => 2 | 14 => 2 | 15 => 2 | _ => 0

/-- REQUIRED of a unit class (R372). -/
def classRequired : Nat → Nat
  | 1 => 8 | 2 => 8 | 3 => 8 | 4 => 8 | 5 => 2 | 6 => 20 | 7 => 6 | 8 => 10 | 11 => 3 | 12 => 1 | 14 => 1 | 15 => 1
  | _ => 0

/-- The reset attention threshold of a unit class (R372). -/
def classThreshold : Nat → Nat
  | 1 => 1 | 2 => 1 | 3 => 1 | 4 => 1 | 5 => 0 | 6 => 2 | 7 => 1 | 8 => 1 | 9 => 8 | 10 => 256 | 13 => 64 | _ => 0

end Sys2Proof
end

