-- ==== Sys2Proof/Machine/Regs.lean ====
section
/-! DEFINITION. The BAR0 registers: the address of each, the place of each field, and the table of access codes,
reset values and ranges, as the register maps of the spec give them (R4, R13, R37, R478). -/

namespace Sys2Proof.Machine

/-- A field of a register: the register's BAR0 offset, its lowest bit and its width. -/
structure Field where
  adr : Nat
  lo : Nat
  width : Nat
  deriving DecidableEq, Repr

/-- The access codes of R13; `fw` and `wofw` are read-only and write-only fields that firmware alone writes, and
`arc` is a field that an Arc engine's status writes alone change. -/
inductive Access where
  | ro
  | rw
  | w1c
  | wo
  | rwl
  | rwe
  | fw
  | wofw
  | arc
  deriving DecidableEq, Repr

/-- A field as a register map gives it: place, access code, reset value by instance, and the range of R478. -/
structure FieldDef where
  lo : Nat
  width : Nat
  acc : Access
  reset : Nat → Nat → Nat
  range : Option (Nat × Nat)

/-- A register map: first offset, count and stride of its two indexes, and its fields. -/
structure RegDef where
  base : Nat
  count : Nat
  stride : Nat
  count2 : Nat
  stride2 : Nat
  fields : List FieldDef

/-- The indexes of an offset in a register map, if the map covers it. -/
def RegDef.index (d : RegDef) (off : Nat) : Option (Nat × Nat) :=
  if off < d.base then none
  else
    let o := off - d.base
    let n := o / d.stride
    let k := o % d.stride / d.stride2
    if n < d.count ∧ k < d.count2 ∧ o % d.stride % d.stride2 = 0 then some (n, k) else none

/-- The reset value of a register of a map. -/
def RegDef.resetVal (d : RegDef) (n k : Nat) : Nat :=
  d.fields.foldl (fun acc f => acc + f.reset n k % 2 ^ f.width * 2 ^ f.lo) 0

/-! ## Chapter 00: addresses and fields -/

/-- ID_DEVICE (R4). -/
def Adr.ID_DEVICE : Nat := 0x0
def Fld.ID_DEVICE_PART : Field := ⟨Adr.ID_DEVICE, 16, 16⟩
def Fld.ID_DEVICE_VARIANT : Field := ⟨Adr.ID_DEVICE, 12, 4⟩
def Fld.ID_DEVICE_MODE : Field := ⟨Adr.ID_DEVICE, 10, 2⟩
def Fld.ID_DEVICE_HEADS : Field := ⟨Adr.ID_DEVICE, 8, 2⟩
def Fld.ID_DEVICE_STEPPING : Field := ⟨Adr.ID_DEVICE, 0, 8⟩

/-! ## Chapter 01: addresses and fields -/

/-- LOCUS_CTRL (R31). -/
def Adr.LOCUS_CTRL : Nat := 0x160000
def Fld.LOCUS_CTRL_RING_SYNC_EN : Field := ⟨Adr.LOCUS_CTRL, 0, 1⟩

/-- LOCUS_STATUS (R31). -/
def Adr.LOCUS_STATUS : Nat := 0x160004
def Fld.LOCUS_STATUS_ORDER_CARRY : Field := ⟨Adr.LOCUS_STATUS, 3, 1⟩
def Fld.LOCUS_STATUS_STEPPED : Field := ⟨Adr.LOCUS_STATUS, 2, 1⟩
def Fld.LOCUS_STATUS_SLEWING : Field := ⟨Adr.LOCUS_STATUS, 1, 1⟩
def Fld.LOCUS_STATUS_RING_LOCKED : Field := ⟨Adr.LOCUS_STATUS, 0, 1⟩

/-- LOCUS_NOW_LO (R31). -/
def Adr.LOCUS_NOW_LO : Nat := 0x160008
def Fld.LOCUS_NOW_LO_ESN_LO : Field := ⟨Adr.LOCUS_NOW_LO, 0, 32⟩

/-- LOCUS_NOW_HI (R31). -/
def Adr.LOCUS_NOW_HI : Nat := 0x16000c
def Fld.LOCUS_NOW_HI_ESN_HI : Field := ⟨Adr.LOCUS_NOW_HI, 0, 16⟩

/-- LOCUS_RING_OFFSET (R31). -/
def Adr.LOCUS_RING_OFFSET : Nat := 0x160010
def Fld.LOCUS_RING_OFFSET_OFFSET : Field := ⟨Adr.LOCUS_RING_OFFSET, 0, 32⟩

/-! ## Chapter 03: addresses and fields -/

/-- CHN_CTRL (R92). -/
def Adr.CHN_CTRL (n : Nat) : Nat := 0x20000 + 0x1000 * n
def Fld.CHN_CTRL_CNT_CLR (n : Nat) : Field := ⟨Adr.CHN_CTRL n, 9, 1⟩
def Fld.CHN_CTRL_COLD (n : Nat) : Field := ⟨Adr.CHN_CTRL n, 8, 1⟩
def Fld.CHN_CTRL_BEAM (n : Nat) : Field := ⟨Adr.CHN_CTRL n, 4, 4⟩
def Fld.CHN_CTRL_MODE (n : Nat) : Field := ⟨Adr.CHN_CTRL n, 0, 2⟩

/-- CHN_STATUS (R92). -/
def Adr.CHN_STATUS (n : Nat) : Nat := 0x20004 + 0x1000 * n
def Fld.CHN_STATUS_BLANK (n : Nat) : Field := ⟨Adr.CHN_STATUS n, 11, 1⟩
def Fld.CHN_STATUS_BEAM_SUSPECT (n : Nat) : Field := ⟨Adr.CHN_STATUS n, 10, 1⟩
def Fld.CHN_STATUS_RESYNC_MISS (n : Nat) : Field := ⟨Adr.CHN_STATUS n, 9, 1⟩
def Fld.CHN_STATUS_SYNC_FALLBACK (n : Nat) : Field := ⟨Adr.CHN_STATUS n, 8, 1⟩
def Fld.CHN_STATUS_ADDR_MISMATCH (n : Nat) : Field := ⟨Adr.CHN_STATUS n, 7, 1⟩
def Fld.CHN_STATUS_WEDGE_MISS (n : Nat) : Field := ⟨Adr.CHN_STATUS n, 6, 1⟩
def Fld.CHN_STATUS_FREQ_LIMIT (n : Nat) : Field := ⟨Adr.CHN_STATUS n, 5, 1⟩
def Fld.CHN_STATUS_ACQ_FAIL (n : Nat) : Field := ⟨Adr.CHN_STATUS n, 4, 1⟩
def Fld.CHN_STATUS_INVALID_DIV (n : Nat) : Field := ⟨Adr.CHN_STATUS n, 3, 1⟩
def Fld.CHN_STATUS_ZONE_READY (n : Nat) : Field := ⟨Adr.CHN_STATUS n, 2, 1⟩
def Fld.CHN_STATUS_DEFECT (n : Nat) : Field := ⟨Adr.CHN_STATUS n, 1, 1⟩
def Fld.CHN_STATUS_LOCKED (n : Nat) : Field := ⟨Adr.CHN_STATUS n, 0, 1⟩

/-- CHN_AGC_CFG (R92). -/
def Adr.CHN_AGC_CFG (n : Nat) : Nat := 0x20008 + 0x1000 * n
def Fld.CHN_AGC_CFG_AGC_HOLD (n : Nat) : Field := ⟨Adr.CHN_AGC_CFG n, 15, 1⟩
def Fld.CHN_AGC_CFG_TARGET (n : Nat) : Field := ⟨Adr.CHN_AGC_CFG n, 8, 7⟩
def Fld.CHN_AGC_CFG_AGC_K (n : Nat) : Field := ⟨Adr.CHN_AGC_CFG n, 0, 4⟩

/-- CHN_CTF_CFG (R92). -/
def Adr.CHN_CTF_CFG (n : Nat) : Nat := 0x2000c + 0x1000 * n
def Fld.CHN_CTF_CFG_BOOST (n : Nat) : Field := ⟨Adr.CHN_CTF_CFG n, 8, 5⟩
def Fld.CHN_CTF_CFG_FC (n : Nat) : Field := ⟨Adr.CHN_CTF_CFG n, 0, 6⟩

/-- CHN_FIR_CFG (R92). -/
def Adr.CHN_FIR_CFG (n : Nat) : Nat := 0x20010 + 0x1000 * n
def Fld.CHN_FIR_CFG_TENT_DEPTH (n : Nat) : Field := ⟨Adr.CHN_FIR_CFG n, 16, 4⟩
def Fld.CHN_FIR_CFG_FAST_LEN (n : Nat) : Field := ⟨Adr.CHN_FIR_CFG n, 13, 3⟩
def Fld.CHN_FIR_CFG_ADAPT_EN (n : Nat) : Field := ⟨Adr.CHN_FIR_CFG n, 12, 1⟩
def Fld.CHN_FIR_CFG_MAIN (n : Nat) : Field := ⟨Adr.CHN_FIR_CFG n, 8, 4⟩
def Fld.CHN_FIR_CFG_MU_FAST (n : Nat) : Field := ⟨Adr.CHN_FIR_CFG n, 4, 4⟩
def Fld.CHN_FIR_CFG_MU_TRK (n : Nat) : Field := ⟨Adr.CHN_FIR_CFG n, 0, 4⟩

/-- CHN_TGT_CFG (R92). -/
def Adr.CHN_TGT_CFG (n : Nat) : Nat := 0x20014 + 0x1000 * n
def Fld.CHN_TGT_CFG_G3 (n : Nat) : Field := ⟨Adr.CHN_TGT_CFG n, 24, 8⟩
def Fld.CHN_TGT_CFG_G2 (n : Nat) : Field := ⟨Adr.CHN_TGT_CFG n, 16, 8⟩
def Fld.CHN_TGT_CFG_G1 (n : Nat) : Field := ⟨Adr.CHN_TGT_CFG n, 8, 8⟩
def Fld.CHN_TGT_CFG_G0 (n : Nat) : Field := ⟨Adr.CHN_TGT_CFG n, 0, 8⟩

/-- CHN_ACQ_CFG (R92). -/
def Adr.CHN_ACQ_CFG (n : Nat) : Nat := 0x20018 + 0x1000 * n
def Fld.CHN_ACQ_CFG_RACQ_LEN (n : Nat) : Field := ⟨Adr.CHN_ACQ_CFG n, 25, 7⟩
def Fld.CHN_ACQ_CFG_KI_ACQ (n : Nat) : Field := ⟨Adr.CHN_ACQ_CFG n, 20, 5⟩
def Fld.CHN_ACQ_CFG_KP_ACQ (n : Nat) : Field := ⟨Adr.CHN_ACQ_CFG n, 16, 4⟩
def Fld.CHN_ACQ_CFG_ACQ_LEN8 (n : Nat) : Field := ⟨Adr.CHN_ACQ_CFG n, 8, 5⟩
def Fld.CHN_ACQ_CFG_ZPS_LEN8 (n : Nat) : Field := ⟨Adr.CHN_ACQ_CFG n, 4, 4⟩
def Fld.CHN_ACQ_CFG_AGC_LEN8 (n : Nat) : Field := ⟨Adr.CHN_ACQ_CFG n, 0, 4⟩

/-- CHN_TRK_CFG (R92). -/
def Adr.CHN_TRK_CFG (n : Nat) : Nat := 0x2001c + 0x1000 * n
def Fld.CHN_TRK_CFG_WF (n : Nat) : Field := ⟨Adr.CHN_TRK_CFG n, 9, 3⟩
def Fld.CHN_TRK_CFG_KI_TRK (n : Nat) : Field := ⟨Adr.CHN_TRK_CFG n, 4, 5⟩
def Fld.CHN_TRK_CFG_KP_TRK (n : Nat) : Field := ⟨Adr.CHN_TRK_CFG n, 0, 4⟩

/-- CHN_SYNC_CFG (R92). -/
def Adr.CHN_SYNC_CFG (n : Nat) : Nat := 0x20020 + 0x1000 * n
def Fld.CHN_SYNC_CFG_KD_SYNC_LEN (n : Nat) : Field := ⟨Adr.CHN_SYNC_CFG n, 16, 6⟩
def Fld.CHN_SYNC_CFG_SOFT_EN (n : Nat) : Field := ⟨Adr.CHN_SYNC_CFG n, 12, 1⟩
def Fld.CHN_SYNC_CFG_SOFT_MIN (n : Nat) : Field := ⟨Adr.CHN_SYNC_CFG n, 8, 4⟩
def Fld.CHN_SYNC_CFG_THR (n : Nat) : Field := ⟨Adr.CHN_SYNC_CFG n, 4, 4⟩
def Fld.CHN_SYNC_CFG_WIN (n : Nat) : Field := ⟨Adr.CHN_SYNC_CFG n, 0, 4⟩

/-- CHN_DEF_CFG (R92). -/
def Adr.CHN_DEF_CFG (n : Nat) : Nat := 0x20024 + 0x1000 * n
def Fld.CHN_DEF_CFG_ENV_TC (n : Nat) : Field := ⟨Adr.CHN_DEF_CFG n, 28, 4⟩
def Fld.CHN_DEF_CFG_DEF_OFF (n : Nat) : Field := ⟨Adr.CHN_DEF_CFG n, 24, 4⟩
def Fld.CHN_DEF_CFG_DEF_ON (n : Nat) : Field := ⟨Adr.CHN_DEF_CFG n, 22, 2⟩
def Fld.CHN_DEF_CFG_DEF_POST (n : Nat) : Field := ⟨Adr.CHN_DEF_CFG n, 19, 3⟩
def Fld.CHN_DEF_CFG_DEF_PRE (n : Nat) : Field := ⟨Adr.CHN_DEF_CFG n, 16, 3⟩
def Fld.CHN_DEF_CFG_SSUM_LO (n : Nat) : Field := ⟨Adr.CHN_DEF_CFG n, 11, 5⟩
def Fld.CHN_DEF_CFG_ENV_HI (n : Nat) : Field := ⟨Adr.CHN_DEF_CFG n, 5, 6⟩
def Fld.CHN_DEF_CFG_ENV_LO (n : Nat) : Field := ⟨Adr.CHN_DEF_CFG n, 0, 5⟩

/-- CHN_DEF_CFG2 (R92). -/
def Adr.CHN_DEF_CFG2 (n : Nat) : Nat := 0x20028 + 0x1000 * n
def Fld.CHN_DEF_CFG2_SUSPECT_WEDGES (n : Nat) : Field := ⟨Adr.CHN_DEF_CFG2 n, 24, 8⟩
def Fld.CHN_DEF_CFG2_DEF_REACQ (n : Nat) : Field := ⟨Adr.CHN_DEF_CFG2 n, 16, 8⟩
def Fld.CHN_DEF_CFG2_BLANK_THR (n : Nat) : Field := ⟨Adr.CHN_DEF_CFG2 n, 0, 5⟩

/-- CHN_WEDGE_CFG (R92). -/
def Adr.CHN_WEDGE_CFG (n : Nat) : Nat := 0x2002c + 0x1000 * n
def Fld.CHN_WEDGE_CFG_SKEW (n : Nat) : Field := ⟨Adr.CHN_WEDGE_CFG n, 0, 10⟩

/-- CHN_FREQ_NEXT (R92). -/
def Adr.CHN_FREQ_NEXT (n : Nat) : Nat := 0x20038 + 0x1000 * n
def Fld.CHN_FREQ_NEXT_BOOST (n : Nat) : Field := ⟨Adr.CHN_FREQ_NEXT n, 16, 5⟩
def Fld.CHN_FREQ_NEXT_F_PRESET (n : Nat) : Field := ⟨Adr.CHN_FREQ_NEXT n, 0, 16⟩

/-- CHN_MON (R92). -/
def Adr.CHN_MON (n : Nat) : Nat := 0x20044 + 0x1000 * n
def Fld.CHN_MON_F (n : Nat) : Field := ⟨Adr.CHN_MON n, 16, 16⟩
def Fld.CHN_MON_GAIN (n : Nat) : Field := ⟨Adr.CHN_MON n, 0, 8⟩

/-- CHN_TRACK (R92). -/
def Adr.CHN_TRACK (n : Nat) : Nat := 0x20048 + 0x1000 * n
def Fld.CHN_TRACK_VALID (n : Nat) : Field := ⟨Adr.CHN_TRACK n, 31, 1⟩
def Fld.CHN_TRACK_LAYER (n : Nat) : Field := ⟨Adr.CHN_TRACK n, 18, 3⟩
def Fld.CHN_TRACK_TRACK (n : Nat) : Field := ⟨Adr.CHN_TRACK n, 0, 18⟩

/-- CHN_ZONE_CUR (R92). -/
def Adr.CHN_ZONE_CUR (n : Nat) : Nat := 0x20030 + 0x1000 * n
def Fld.CHN_ZONE_CUR_VALID (n : Nat) : Field := ⟨Adr.CHN_ZONE_CUR n, 31, 1⟩
def Fld.CHN_ZONE_CUR_RESEED (n : Nat) : Field := ⟨Adr.CHN_ZONE_CUR n, 30, 1⟩
def Fld.CHN_ZONE_CUR_ZONE (n : Nat) : Field := ⟨Adr.CHN_ZONE_CUR n, 24, 6⟩
def Fld.CHN_ZONE_CUR_CHAN_DIV (n : Nat) : Field := ⟨Adr.CHN_ZONE_CUR n, 16, 8⟩
def Fld.CHN_ZONE_CUR_FRAG32 (n : Nat) : Field := ⟨Adr.CHN_ZONE_CUR n, 8, 8⟩
def Fld.CHN_ZONE_CUR_SLOTS (n : Nat) : Field := ⟨Adr.CHN_ZONE_CUR n, 0, 8⟩

/-- CHN_ZONE_NEXT (R92). -/
def Adr.CHN_ZONE_NEXT (n : Nat) : Nat := 0x20034 + 0x1000 * n
def Fld.CHN_ZONE_NEXT_VALID (n : Nat) : Field := ⟨Adr.CHN_ZONE_NEXT n, 31, 1⟩
def Fld.CHN_ZONE_NEXT_RESEED (n : Nat) : Field := ⟨Adr.CHN_ZONE_NEXT n, 30, 1⟩
def Fld.CHN_ZONE_NEXT_ZONE (n : Nat) : Field := ⟨Adr.CHN_ZONE_NEXT n, 24, 6⟩
def Fld.CHN_ZONE_NEXT_CHAN_DIV (n : Nat) : Field := ⟨Adr.CHN_ZONE_NEXT n, 16, 8⟩
def Fld.CHN_ZONE_NEXT_FRAG32 (n : Nat) : Field := ⟨Adr.CHN_ZONE_NEXT n, 8, 8⟩
def Fld.CHN_ZONE_NEXT_SLOTS (n : Nat) : Field := ⟨Adr.CHN_ZONE_NEXT n, 0, 8⟩

/-- CHN_SYNC_PAT_LO (R92). -/
def Adr.CHN_SYNC_PAT_LO (n : Nat) : Nat := 0x2003c + 0x1000 * n
def Fld.CHN_SYNC_PAT_LO_PAT_LO (n : Nat) : Field := ⟨Adr.CHN_SYNC_PAT_LO n, 0, 32⟩

/-- CHN_SYNC_PAT_HI (R92). -/
def Adr.CHN_SYNC_PAT_HI (n : Nat) : Nat := 0x20040 + 0x1000 * n
def Fld.CHN_SYNC_PAT_HI_PAT_HI (n : Nat) : Field := ⟨Adr.CHN_SYNC_PAT_HI n, 0, 16⟩

/-- CHN_FIR_TAP (R92). -/
def Adr.CHN_FIR_TAP (n : Nat) (k : Nat) : Nat := 0x20080 + 0x1000 * n + 0x4 * k
def Fld.CHN_FIR_TAP_COEF (n : Nat) (k : Nat) : Field := ⟨Adr.CHN_FIR_TAP n k, 0, 10⟩

/-- CHN_FIR_SEED (R92). -/
def Adr.CHN_FIR_SEED (n : Nat) (k : Nat) : Nat := 0x200c0 + 0x1000 * n + 0x4 * k
def Fld.CHN_FIR_SEED_COEF (n : Nat) (k : Nat) : Field := ⟨Adr.CHN_FIR_SEED n k, 0, 10⟩

/-- CHN_CNT (R93). -/
def Adr.CHN_CNT (n : Nat) (k : Nat) : Nat := 0x20100 + 0x1000 * n + 0x4 * k
def Fld.CHN_CNT_COUNT (n : Nat) (k : Nat) : Field := ⟨Adr.CHN_CNT n k, 0, 32⟩

/-! ## Chapter 04: addresses and fields -/

/-- LAT_CTRL (R130). -/
def Adr.LAT_CTRL (n : Nat) : Nat := 0x40000 + 0x1000 * n
def Fld.LAT_CTRL_ITI_RESEED (n : Nat) : Field := ⟨Adr.LAT_CTRL n, 5, 1⟩
def Fld.LAT_CTRL_HEAD (n : Nat) : Field := ⟨Adr.LAT_CTRL n, 4, 1⟩
def Fld.LAT_CTRL_MODE (n : Nat) : Field := ⟨Adr.LAT_CTRL n, 0, 2⟩

/-- LAT_STATUS (R130). -/
def Adr.LAT_STATUS (n : Nat) : Nat := 0x40004 + 0x1000 * n
def Fld.LAT_STATUS_GROUPS (n : Nat) : Field := ⟨Adr.LAT_STATUS n, 12, 4⟩
def Fld.LAT_STATUS_ITI_LIMIT (n : Nat) : Field := ⟨Adr.LAT_STATUS n, 4, 1⟩
def Fld.LAT_STATUS_SPILL_FULL (n : Nat) : Field := ⟨Adr.LAT_STATUS n, 3, 1⟩
def Fld.LAT_STATUS_SPILLED (n : Nat) : Field := ⟨Adr.LAT_STATUS n, 2, 1⟩
def Fld.LAT_STATUS_FAULT (n : Nat) : Field := ⟨Adr.LAT_STATUS n, 1, 1⟩
def Fld.LAT_STATUS_BUSY (n : Nat) : Field := ⟨Adr.LAT_STATUS n, 0, 1⟩

/-- LAT_CFG (R130). -/
def Adr.LAT_CFG (n : Nat) : Nat := 0x40008 + 0x1000 * n
def Fld.LAT_CFG_LLR_GAIN (n : Nat) : Field := ⟨Adr.LAT_CFG n, 24, 8⟩
def Fld.LAT_CFG_ITI_MU (n : Nat) : Field := ⟨Adr.LAT_CFG n, 20, 4⟩
def Fld.LAT_CFG_SIGMA_TC (n : Nat) : Field := ⟨Adr.LAT_CFG n, 16, 4⟩
def Fld.LAT_CFG_SIGMA_INIT (n : Nat) : Field := ⟨Adr.LAT_CFG n, 8, 8⟩
def Fld.LAT_CFG_SIGMA_FLOOR (n : Nat) : Field := ⟨Adr.LAT_CFG n, 0, 8⟩

/-- LAT_ITI_SEED_I (R130). -/
def Adr.LAT_ITI_SEED_I (n : Nat) (k : Nat) : Nat := 0x40040 + 0x1000 * n + 0x8 * k
def Fld.LAT_ITI_SEED_I_TAP2 (n : Nat) (k : Nat) : Field := ⟨Adr.LAT_ITI_SEED_I n k, 16, 8⟩
def Fld.LAT_ITI_SEED_I_TAP1 (n : Nat) (k : Nat) : Field := ⟨Adr.LAT_ITI_SEED_I n k, 8, 8⟩
def Fld.LAT_ITI_SEED_I_TAP0 (n : Nat) (k : Nat) : Field := ⟨Adr.LAT_ITI_SEED_I n k, 0, 8⟩

/-- LAT_ITI_SEED_O (R130). -/
def Adr.LAT_ITI_SEED_O (n : Nat) (k : Nat) : Nat := 0x40044 + 0x1000 * n + 0x8 * k
def Fld.LAT_ITI_SEED_O_TAP2 (n : Nat) (k : Nat) : Field := ⟨Adr.LAT_ITI_SEED_O n k, 16, 8⟩
def Fld.LAT_ITI_SEED_O_TAP1 (n : Nat) (k : Nat) : Field := ⟨Adr.LAT_ITI_SEED_O n k, 8, 8⟩
def Fld.LAT_ITI_SEED_O_TAP0 (n : Nat) (k : Nat) : Field := ⟨Adr.LAT_ITI_SEED_O n k, 0, 8⟩

/-- LAT_ITI_I (R130). -/
def Adr.LAT_ITI_I (n : Nat) (k : Nat) : Nat := 0x40080 + 0x1000 * n + 0x8 * k
def Fld.LAT_ITI_I_TAP2 (n : Nat) (k : Nat) : Field := ⟨Adr.LAT_ITI_I n k, 16, 8⟩
def Fld.LAT_ITI_I_TAP1 (n : Nat) (k : Nat) : Field := ⟨Adr.LAT_ITI_I n k, 8, 8⟩
def Fld.LAT_ITI_I_TAP0 (n : Nat) (k : Nat) : Field := ⟨Adr.LAT_ITI_I n k, 0, 8⟩

/-- LAT_ITI_O (R130). -/
def Adr.LAT_ITI_O (n : Nat) (k : Nat) : Nat := 0x40084 + 0x1000 * n + 0x8 * k
def Fld.LAT_ITI_O_TAP2 (n : Nat) (k : Nat) : Field := ⟨Adr.LAT_ITI_O n k, 16, 8⟩
def Fld.LAT_ITI_O_TAP1 (n : Nat) (k : Nat) : Field := ⟨Adr.LAT_ITI_O n k, 8, 8⟩
def Fld.LAT_ITI_O_TAP0 (n : Nat) (k : Nat) : Field := ⟨Adr.LAT_ITI_O n k, 0, 8⟩

/-- LAT_SIGMA (R130). -/
def Adr.LAT_SIGMA (n : Nat) (k : Nat) : Nat := 0x400c0 + 0x1000 * n + 0x4 * k
def Fld.LAT_SIGMA_VAR (n : Nat) (k : Nat) : Field := ⟨Adr.LAT_SIGMA n k, 0, 16⟩

/-- LAT_SPILL_BASE (R130). -/
def Adr.LAT_SPILL_BASE (n : Nat) : Nat := 0x48000 + 0x4 * n
def Fld.LAT_SPILL_BASE_PAGE (n : Nat) : Field := ⟨Adr.LAT_SPILL_BASE n, 0, 22⟩

/-- LAT_SPARE (R130). -/
def Adr.LAT_SPARE : Nat := 0x48008
def Fld.LAT_SPARE_AUTO : Field := ⟨Adr.LAT_SPARE, 2, 1⟩
def Fld.LAT_SPARE_UNIT : Field := ⟨Adr.LAT_SPARE, 0, 2⟩

/-- DEC_CAP (R130). -/
def Adr.DEC_CAP : Nat := 0x50000
def Fld.DEC_CAP_ITER_CAP : Field := ⟨Adr.DEC_CAP, 8, 8⟩
def Fld.DEC_CAP_TURBO_CAP : Field := ⟨Adr.DEC_CAP, 0, 4⟩

/-- DEC_INSERVICE (R130). -/
def Adr.DEC_INSERVICE : Nat := 0x50004
def Fld.DEC_INSERVICE_MASK : Field := ⟨Adr.DEC_INSERVICE, 0, 24⟩

/-- DEC_FAULT (R130). -/
def Adr.DEC_FAULT : Nat := 0x50008
def Fld.DEC_FAULT_MASK : Field := ⟨Adr.DEC_FAULT, 0, 24⟩

/-- DEC_CTRL (R130). -/
def Adr.DEC_CTRL : Nat := 0x5000c
def Fld.DEC_CTRL_CNT_CLR : Field := ⟨Adr.DEC_CTRL, 0, 1⟩

/-- DEC_POLICY (R130). -/
def Adr.DEC_POLICY (n : Nat) : Nat := 0x50100 + 0x40 * n
def Fld.DEC_POLICY_ITER_MAX (n : Nat) : Field := ⟨Adr.DEC_POLICY n, 24, 8⟩
def Fld.DEC_POLICY_ITER_T (n : Nat) : Field := ⟨Adr.DEC_POLICY n, 16, 8⟩
def Fld.DEC_POLICY_ITER0 (n : Nat) : Field := ⟨Adr.DEC_POLICY n, 8, 8⟩
def Fld.DEC_POLICY_TURBO_MAX (n : Nat) : Field := ⟨Adr.DEC_POLICY n, 4, 4⟩
def Fld.DEC_POLICY_NORM (n : Nat) : Field := ⟨Adr.DEC_POLICY n, 0, 4⟩

/-- DEC_SWEEP (R130). -/
def Adr.DEC_SWEEP (n : Nat) : Nat := 0x50104 + 0x40 * n
def Fld.DEC_SWEEP_SWEEP_USC (n : Nat) : Field := ⟨Adr.DEC_SWEEP n, 16, 16⟩
def Fld.DEC_SWEEP_SWEEP_ITER (n : Nat) : Field := ⟨Adr.DEC_SWEEP n, 12, 4⟩
def Fld.DEC_SWEEP_ERASE_LIMIT (n : Nat) : Field := ⟨Adr.DEC_SWEEP n, 0, 6⟩

/-- DEC_QSTAT (R130). -/
def Adr.DEC_QSTAT (n : Nat) : Nat := 0x50108 + 0x40 * n
def Fld.DEC_QSTAT_FULL (n : Nat) : Field := ⟨Adr.DEC_QSTAT n, 16, 1⟩
def Fld.DEC_QSTAT_IN_FLIGHT (n : Nat) : Field := ⟨Adr.DEC_QSTAT n, 0, 9⟩

/-- DEC_MASK (R130). -/
def Adr.DEC_MASK (n : Nat) : Nat := 0x5010c + 0x40 * n
def Fld.DEC_MASK_MASK (n : Nat) : Field := ⟨Adr.DEC_MASK n, 0, 24⟩

/-- DEC_CNT (R131). -/
def Adr.DEC_CNT (n : Nat) (k : Nat) : Nat := 0x50120 + 0x40 * n + 0x4 * k
def Fld.DEC_CNT_COUNT (n : Nat) (k : Nat) : Field := ⟨Adr.DEC_CNT n k, 0, 32⟩

/-- DECU_STATUS (R131). -/
def Adr.DECU_STATUS (n : Nat) : Nat := 0x51000 + 0x100 * n
def Fld.DECU_STATUS_ITER (n : Nat) : Field := ⟨Adr.DECU_STATUS n, 8, 8⟩
def Fld.DECU_STATUS_SWEEP (n : Nat) : Field := ⟨Adr.DECU_STATUS n, 3, 1⟩
def Fld.DECU_STATUS_HEAD (n : Nat) : Field := ⟨Adr.DECU_STATUS n, 2, 1⟩
def Fld.DECU_STATUS_FAULT (n : Nat) : Field := ⟨Adr.DECU_STATUS n, 1, 1⟩
def Fld.DECU_STATUS_BUSY (n : Nat) : Field := ⟨Adr.DECU_STATUS n, 0, 1⟩

/-- DECU_JOB (R131). -/
def Adr.DECU_JOB (n : Nat) : Nat := 0x51004 + 0x100 * n
def Fld.DECU_JOB_ESN_LO (n : Nat) : Field := ⟨Adr.DECU_JOB n, 0, 32⟩

/-- STR_CTRL (R131). -/
def Adr.STR_CTRL (n : Nat) : Nat := 0x58000 + 0x400 * n
def Fld.STR_CTRL_CNT_CLR (n : Nat) : Field := ⟨Adr.STR_CTRL n, 3, 1⟩
def Fld.STR_CTRL_ERRORS_EN (n : Nat) : Field := ⟨Adr.STR_CTRL n, 2, 1⟩
def Fld.STR_CTRL_ID_CHECK (n : Nat) : Field := ⟨Adr.STR_CTRL n, 1, 1⟩
def Fld.STR_CTRL_ENABLE (n : Nat) : Field := ⟨Adr.STR_CTRL n, 0, 1⟩

/-- STR_STATUS (R131). -/
def Adr.STR_STATUS (n : Nat) : Nat := 0x58004 + 0x400 * n
def Fld.STR_STATUS_OPEN (n : Nat) : Field := ⟨Adr.STR_STATUS n, 8, 8⟩
def Fld.STR_STATUS_UNRECOVERED (n : Nat) : Field := ⟨Adr.STR_STATUS n, 4, 1⟩
def Fld.STR_STATUS_MIXED_WESN (n : Nat) : Field := ⟨Adr.STR_STATUS n, 3, 1⟩
def Fld.STR_STATUS_MISPLACED (n : Nat) : Field := ⟨Adr.STR_STATUS n, 2, 1⟩
def Fld.STR_STATUS_FAULT (n : Nat) : Field := ⟨Adr.STR_STATUS n, 1, 1⟩
def Fld.STR_STATUS_BUSY (n : Nat) : Field := ⟨Adr.STR_STATUS n, 0, 1⟩

/-- STR_CNT (R132). -/
def Adr.STR_CNT (n : Nat) (k : Nat) : Nat := 0x58010 + 0x400 * n + 0x4 * k
def Fld.STR_CNT_COUNT (n : Nat) (k : Nat) : Field := ⟨Adr.STR_CNT n k, 0, 32⟩

/-! ## Chapter 05: addresses and fields -/

/-- WP_CTRL (R152). -/
def Adr.WP_CTRL (n : Nat) : Nat := 0x60000 + 0x10000 * n
def Fld.WP_CTRL_BANK_SWAP (n : Nat) : Field := ⟨Adr.WP_CTRL n, 4, 1⟩
def Fld.WP_CTRL_CNT_CLR (n : Nat) : Field := ⟨Adr.WP_CTRL n, 3, 1⟩
def Fld.WP_CTRL_OPC_GO (n : Nat) : Field := ⟨Adr.WP_CTRL n, 2, 1⟩
def Fld.WP_CTRL_BANK (n : Nat) : Field := ⟨Adr.WP_CTRL n, 1, 1⟩
def Fld.WP_CTRL_ENABLE (n : Nat) : Field := ⟨Adr.WP_CTRL n, 0, 1⟩

/-- WP_STATUS (R152). -/
def Adr.WP_STATUS (n : Nat) : Nat := 0x60004 + 0x10000 * n
def Fld.WP_STATUS_QUEUED_N (n : Nat) : Field := ⟨Adr.WP_STATUS n, 10, 3⟩
def Fld.WP_STATUS_OPC_REFUSED (n : Nat) : Field := ⟨Adr.WP_STATUS n, 9, 1⟩
def Fld.WP_STATUS_OPC_DONE (n : Nat) : Field := ⟨Adr.WP_STATUS n, 8, 1⟩
def Fld.WP_STATUS_STUCK_ON (n : Nat) : Field := ⟨Adr.WP_STATUS n, 7, 1⟩
def Fld.WP_STATUS_LASER_FAULT (n : Nat) : Field := ⟨Adr.WP_STATUS n, 6, 1⟩
def Fld.WP_STATUS_ADDR_INHIBIT (n : Nat) : Field := ⟨Adr.WP_STATUS n, 5, 1⟩
def Fld.WP_STATUS_OFFTRACK (n : Nat) : Field := ⟨Adr.WP_STATUS n, 4, 1⟩
def Fld.WP_STATUS_TBL_READY (n : Nat) : Field := ⟨Adr.WP_STATUS n, 3, 1⟩
def Fld.WP_STATUS_INHIBIT (n : Nat) : Field := ⟨Adr.WP_STATUS n, 2, 1⟩
def Fld.WP_STATUS_QUEUED (n : Nat) : Field := ⟨Adr.WP_STATUS n, 1, 1⟩
def Fld.WP_STATUS_BUSY (n : Nat) : Field := ⟨Adr.WP_STATUS n, 0, 1⟩

/-- WP_INH_CFG (R152). -/
def Adr.WP_INH_CFG (n : Nat) : Nat := 0x60008 + 0x10000 * n
def Fld.WP_INH_CFG_INHIBIT_TOL (n : Nat) : Field := ⟨Adr.WP_INH_CFG n, 30, 2⟩
def Fld.WP_INH_CFG_ADDR_STALE (n : Nat) : Field := ⟨Adr.WP_INH_CFG n, 27, 3⟩
def Fld.WP_INH_CFG_REG_LIMIT (n : Nat) : Field := ⟨Adr.WP_INH_CFG n, 16, 8⟩
def Fld.WP_INH_CFG_FE_LIMIT (n : Nat) : Field := ⟨Adr.WP_INH_CFG n, 8, 8⟩
def Fld.WP_INH_CFG_OT_LIMIT (n : Nat) : Field := ⟨Adr.WP_INH_CFG n, 0, 8⟩

/-- WP_LMON_CFG (R152). -/
def Adr.WP_LMON_CFG (n : Nat) : Nat := 0x6000c + 0x10000 * n
def Fld.WP_LMON_CFG_LMON_RUN (n : Nat) : Field := ⟨Adr.WP_LMON_CFG n, 12, 4⟩
def Fld.WP_LMON_CFG_STUCK_TOL (n : Nat) : Field := ⟨Adr.WP_LMON_CFG n, 6, 6⟩
def Fld.WP_LMON_CFG_LMON_TOL (n : Nat) : Field := ⟨Adr.WP_LMON_CFG n, 0, 6⟩

/-- WP_OPC_CFG (R152). -/
def Adr.WP_OPC_CFG (n : Nat) : Nat := 0x60010 + 0x10000 * n
def Fld.WP_OPC_CFG_OPC_STEP (n : Nat) : Field := ⟨Adr.WP_OPC_CFG n, 24, 8⟩
def Fld.WP_OPC_CFG_BAND (n : Nat) : Field := ⟨Adr.WP_OPC_CFG n, 22, 1⟩
def Fld.WP_OPC_CFG_STEPS (n : Nat) : Field := ⟨Adr.WP_OPC_CFG n, 16, 6⟩
def Fld.WP_OPC_CFG_START_WEDGE (n : Nat) : Field := ⟨Adr.WP_OPC_CFG n, 0, 11⟩

/-- WP_SKEW (R152). -/
def Adr.WP_SKEW (n : Nat) (k : Nat) : Nat := 0x60040 + 0x10000 * n + 0x4 * k
def Fld.WP_SKEW_WS_SKEW (n : Nat) (k : Nat) : Field := ⟨Adr.WP_SKEW n k, 0, 12⟩

/-- WP_OPC_START (R152). -/
def Adr.WP_OPC_START (n : Nat) (k : Nat) : Nat := 0x600c0 + 0x10000 * n + 0x4 * k
def Fld.WP_OPC_START_P_START (n : Nat) (k : Nat) : Field := ⟨Adr.WP_OPC_START n k, 0, 12⟩

/-- WP_LVL (R152). -/
def Adr.WP_LVL (n : Nat) (k : Nat) : Nat := 0x60080 + 0x10000 * n + 0x4 * k
def Fld.WP_LVL_LEVEL_A (n : Nat) (k : Nat) : Field := ⟨Adr.WP_LVL n k, 16, 12⟩
def Fld.WP_LVL_LEVEL_B (n : Nat) (k : Nat) : Field := ⟨Adr.WP_LVL n k, 0, 12⟩

/-- WP_OPC (R152). -/
def Adr.WP_OPC (n : Nat) (k : Nat) (j : Nat) : Nat := 0x62000 + 0x10000 * n + 0x100 * k + 0x8 * j
def Fld.WP_OPC_INVALID (n : Nat) (k : Nat) (j : Nat) : Field := ⟨Adr.WP_OPC n k j, 31, 1⟩
def Fld.WP_OPC_ASYM (n : Nat) (k : Nat) (j : Nat) : Field := ⟨Adr.WP_OPC n k j, 16, 8⟩
def Fld.WP_OPC_ERR (n : Nat) (k : Nat) (j : Nat) : Field := ⟨Adr.WP_OPC n k j, 0, 16⟩

/-- WP_OPC_MON (R152). -/
def Adr.WP_OPC_MON (n : Nat) (k : Nat) (j : Nat) : Nat := 0x62004 + 0x10000 * n + 0x100 * k + 0x8 * j
def Fld.WP_OPC_MON_MON (n : Nat) (k : Nat) (j : Nat) : Field := ⟨Adr.WP_OPC_MON n k j, 0, 12⟩

/-- WP_CNT (R153). -/
def Adr.WP_CNT (n : Nat) (k : Nat) : Nat := 0x60100 + 0x10000 * n + 0x4 * k
def Fld.WP_CNT_COUNT (n : Nat) (k : Nat) : Field := ⟨Adr.WP_CNT n k, 0, 32⟩

/-! ## Chapter 06: addresses and fields -/

/-- SRV_CTRL (R172). -/
def Adr.SRV_CTRL (n : Nat) : Nat := 0xb8000 + 0x1000 * n
def Fld.SRV_CTRL_FOCUS_SRC (n : Nat) : Field := ⟨Adr.SRV_CTRL n, 3, 2⟩
def Fld.SRV_CTRL_CNT_CLR (n : Nat) : Field := ⟨Adr.SRV_CTRL n, 2, 1⟩
def Fld.SRV_CTRL_FAILOVER_AUTO (n : Nat) : Field := ⟨Adr.SRV_CTRL n, 1, 1⟩
def Fld.SRV_CTRL_AFE_ON (n : Nat) : Field := ⟨Adr.SRV_CTRL n, 0, 1⟩

/-- SRV_STATUS (R172). -/
def Adr.SRV_STATUS (n : Nat) : Nat := 0xb8004 + 0x1000 * n
def Fld.SRV_STATUS_ZONE_DEFERRED (n : Nat) : Field := ⟨Adr.SRV_STATUS n, 6, 1⟩
def Fld.SRV_STATUS_FOCUS_FAIL (n : Nat) : Field := ⟨Adr.SRV_STATUS n, 5, 1⟩
def Fld.SRV_STATUS_FOCUS_ALT (n : Nat) : Field := ⟨Adr.SRV_STATUS n, 4, 1⟩
def Fld.SRV_STATUS_DEGRADED (n : Nat) : Field := ⟨Adr.SRV_STATUS n, 3, 1⟩
def Fld.SRV_STATUS_MAP_REFUSED (n : Nat) : Field := ⟨Adr.SRV_STATUS n, 2, 1⟩
def Fld.SRV_STATUS_FAILOVER (n : Nat) : Field := ⟨Adr.SRV_STATUS n, 1, 1⟩
def Fld.SRV_STATUS_COMMIT_PENDING (n : Nat) : Field := ⟨Adr.SRV_STATUS n, 0, 1⟩

/-- SRV_SHIFT (R172). -/
def Adr.SRV_SHIFT (n : Nat) : Nat := 0xb8010 + 0x1000 * n
def Fld.SRV_SHIFT_SHIFT (n : Nat) : Field := ⟨Adr.SRV_SHIFT n, 0, 20⟩

/-- SRV_DEFECT (R172). -/
def Adr.SRV_DEFECT (n : Nat) : Nat := 0xb8014 + 0x1000 * n
def Fld.SRV_DEFECT_ANY (n : Nat) : Field := ⟨Adr.SRV_DEFECT n, 10, 1⟩
def Fld.SRV_DEFECT_MASK (n : Nat) : Field := ⟨Adr.SRV_DEFECT n, 0, 10⟩

/-- SRV_SA (R172). -/
def Adr.SRV_SA (n : Nat) : Nat := 0xb8018 + 0x1000 * n
def Fld.SRV_SA_LEVEL (n : Nat) : Field := ⟨Adr.SRV_SA n, 0, 12⟩

/-- SRV_FAILCFG (R172). -/
def Adr.SRV_FAILCFG (n : Nat) : Nat := 0xb801c + 0x1000 * n
def Fld.SRV_FAILCFG_DEAD_SAMPLES (n : Nat) : Field := ⟨Adr.SRV_FAILCFG n, 8, 8⟩
def Fld.SRV_FAILCFG_SSUM_DEAD (n : Nat) : Field := ⟨Adr.SRV_FAILCFG n, 0, 5⟩

/-- SRV_BEAM_MAP (R172). -/
def Adr.SRV_BEAM_MAP (n : Nat) : Nat := 0xb8008 + 0x1000 * n
def Fld.SRV_BEAM_MAP_P7 (n : Nat) : Field := ⟨Adr.SRV_BEAM_MAP n, 28, 4⟩
def Fld.SRV_BEAM_MAP_P6 (n : Nat) : Field := ⟨Adr.SRV_BEAM_MAP n, 24, 4⟩
def Fld.SRV_BEAM_MAP_P5 (n : Nat) : Field := ⟨Adr.SRV_BEAM_MAP n, 20, 4⟩
def Fld.SRV_BEAM_MAP_P4 (n : Nat) : Field := ⟨Adr.SRV_BEAM_MAP n, 16, 4⟩
def Fld.SRV_BEAM_MAP_P3 (n : Nat) : Field := ⟨Adr.SRV_BEAM_MAP n, 12, 4⟩
def Fld.SRV_BEAM_MAP_P2 (n : Nat) : Field := ⟨Adr.SRV_BEAM_MAP n, 8, 4⟩
def Fld.SRV_BEAM_MAP_P1 (n : Nat) : Field := ⟨Adr.SRV_BEAM_MAP n, 4, 4⟩
def Fld.SRV_BEAM_MAP_P0 (n : Nat) : Field := ⟨Adr.SRV_BEAM_MAP n, 0, 4⟩

/-- SRV_BEAM_MAP_CUR (R172). -/
def Adr.SRV_BEAM_MAP_CUR (n : Nat) : Nat := 0xb800c + 0x1000 * n
def Fld.SRV_BEAM_MAP_CUR_P7 (n : Nat) : Field := ⟨Adr.SRV_BEAM_MAP_CUR n, 28, 4⟩
def Fld.SRV_BEAM_MAP_CUR_P6 (n : Nat) : Field := ⟨Adr.SRV_BEAM_MAP_CUR n, 24, 4⟩
def Fld.SRV_BEAM_MAP_CUR_P5 (n : Nat) : Field := ⟨Adr.SRV_BEAM_MAP_CUR n, 20, 4⟩
def Fld.SRV_BEAM_MAP_CUR_P4 (n : Nat) : Field := ⟨Adr.SRV_BEAM_MAP_CUR n, 16, 4⟩
def Fld.SRV_BEAM_MAP_CUR_P3 (n : Nat) : Field := ⟨Adr.SRV_BEAM_MAP_CUR n, 12, 4⟩
def Fld.SRV_BEAM_MAP_CUR_P2 (n : Nat) : Field := ⟨Adr.SRV_BEAM_MAP_CUR n, 8, 4⟩
def Fld.SRV_BEAM_MAP_CUR_P1 (n : Nat) : Field := ⟨Adr.SRV_BEAM_MAP_CUR n, 4, 4⟩
def Fld.SRV_BEAM_MAP_CUR_P0 (n : Nat) : Field := ⟨Adr.SRV_BEAM_MAP_CUR n, 0, 4⟩

/-- SRV_REG (R172). -/
def Adr.SRV_REG (n : Nat) (k : Nat) : Nat := 0xb8040 + 0x1000 * n + 0x4 * k
def Fld.SRV_REG_PARITY_ERR (n : Nat) (k : Nat) : Field := ⟨Adr.SRV_REG n k, 31, 1⟩
def Fld.SRV_REG_VALID (n : Nat) (k : Nat) : Field := ⟨Adr.SRV_REG n k, 30, 1⟩
def Fld.SRV_REG_TRIM (n : Nat) (k : Nat) : Field := ⟨Adr.SRV_REG n k, 16, 8⟩
def Fld.SRV_REG_ERR (n : Nat) (k : Nat) : Field := ⟨Adr.SRV_REG n k, 0, 16⟩

/-- SRV_CNT (R173). -/
def Adr.SRV_CNT (n : Nat) (k : Nat) : Nat := 0xb8100 + 0x1000 * n + 0x4 * k
def Fld.SRV_CNT_COUNT (n : Nat) (k : Nat) : Field := ⟨Adr.SRV_CNT n k, 0, 32⟩

/-! ## Chapter 07: addresses and fields -/

/-- ARC_CTRL (R206). -/
def Adr.ARC_CTRL (n : Nat) : Nat := 0x80000 + 0x4000 * n
def Fld.ARC_CTRL_CNT_CLR (n : Nat) : Field := ⟨Adr.ARC_CTRL n, 16, 1⟩
def Fld.ARC_CTRL_ROLE (n : Nat) : Field := ⟨Adr.ARC_CTRL n, 14, 2⟩
def Fld.ARC_CTRL_PAIR (n : Nat) : Field := ⟨Adr.ARC_CTRL n, 10, 2⟩
def Fld.ARC_CTRL_VIEW (n : Nat) : Field := ⟨Adr.ARC_CTRL n, 3, 1⟩
def Fld.ARC_CTRL_ZONE_ARM (n : Nat) : Field := ⟨Adr.ARC_CTRL n, 2, 1⟩
def Fld.ARC_CTRL_SWAP_REQ (n : Nat) : Field := ⟨Adr.ARC_CTRL n, 1, 1⟩
def Fld.ARC_CTRL_RUN (n : Nat) : Field := ⟨Adr.ARC_CTRL n, 0, 1⟩

/-- ARC_STATUS (R206). -/
def Adr.ARC_STATUS (n : Nat) : Nat := 0x80004 + 0x4000 * n
def Fld.ARC_STATUS_PAIR_FAILED (n : Nat) : Field := ⟨Adr.ARC_STATUS n, 19, 1⟩
def Fld.ARC_STATUS_UNCHECKED (n : Nat) : Field := ⟨Adr.ARC_STATUS n, 18, 1⟩
def Fld.ARC_STATUS_DIV (n : Nat) : Field := ⟨Adr.ARC_STATUS n, 17, 1⟩
def Fld.ARC_STATUS_NAN (n : Nat) : Field := ⟨Adr.ARC_STATUS n, 16, 1⟩
def Fld.ARC_STATUS_OVF (n : Nat) : Field := ⟨Adr.ARC_STATUS n, 15, 1⟩
def Fld.ARC_STATUS_SAT (n : Nat) : Field := ⟨Adr.ARC_STATUS n, 14, 1⟩
def Fld.ARC_STATUS_EVT_LOST (n : Nat) : Field := ⟨Adr.ARC_STATUS n, 13, 1⟩
def Fld.ARC_STATUS_WIN_DISCARD (n : Nat) : Field := ⟨Adr.ARC_STATUS n, 12, 1⟩
def Fld.ARC_STATUS_TRANSIENT (n : Nat) : Field := ⟨Adr.ARC_STATUS n, 11, 1⟩
def Fld.ARC_STATUS_TAKEOVER (n : Nat) : Field := ⟨Adr.ARC_STATUS n, 10, 1⟩
def Fld.ARC_STATUS_FAULT (n : Nat) : Field := ⟨Adr.ARC_STATUS n, 9, 1⟩
def Fld.ARC_STATUS_MISMATCH (n : Nat) : Field := ⟨Adr.ARC_STATUS n, 8, 1⟩
def Fld.ARC_STATUS_PERIOD_REFUSED (n : Nat) : Field := ⟨Adr.ARC_STATUS n, 7, 1⟩
def Fld.ARC_STATUS_SWAP_PENDING (n : Nat) : Field := ⟨Adr.ARC_STATUS n, 3, 1⟩
def Fld.ARC_STATUS_BANK (n : Nat) : Field := ⟨Adr.ARC_STATUS n, 2, 1⟩
def Fld.ARC_STATUS_VOTING (n : Nat) : Field := ⟨Adr.ARC_STATUS n, 1, 1⟩
def Fld.ARC_STATUS_RUNNING (n : Nat) : Field := ⟨Adr.ARC_STATUS n, 0, 1⟩

/-- ARC_PERIOD (R206). -/
def Adr.ARC_PERIOD (n : Nat) : Nat := 0x80008 + 0x4000 * n
def Fld.ARC_PERIOD_PHASE_N (n : Nat) : Field := ⟨Adr.ARC_PERIOD n, 16, 8⟩
def Fld.ARC_PERIOD_MULT (n : Nat) : Field := ⟨Adr.ARC_PERIOD n, 8, 7⟩
def Fld.ARC_PERIOD_SRC (n : Nat) : Field := ⟨Adr.ARC_PERIOD n, 0, 2⟩

/-- ARC_BOUND (R206). -/
def Adr.ARC_BOUND (n : Nat) : Nat := 0x8000c + 0x4000 * n
def Fld.ARC_BOUND_PROLOGUE (n : Nat) : Field := ⟨Adr.ARC_BOUND n, 16, 16⟩
def Fld.ARC_BOUND_BOUND (n : Nat) : Field := ⟨Adr.ARC_BOUND n, 0, 16⟩

/-- ARC_PCNT (R206). -/
def Adr.ARC_PCNT (n : Nat) : Nat := 0x80010 + 0x4000 * n
def Fld.ARC_PCNT_VALUE (n : Nat) : Field := ⟨Adr.ARC_PCNT n, 0, 32⟩

/-- ARC_IMAGE (R206). -/
def Adr.ARC_IMAGE (n : Nat) : Nat := 0x80014 + 0x4000 * n
def Fld.ARC_IMAGE_VALUE (n : Nat) : Field := ⟨Adr.ARC_IMAGE n, 0, 32⟩

/-- ARC_CNT (R207). -/
def Adr.ARC_CNT (n : Nat) (k : Nat) : Nat := 0x80100 + 0x4000 * n + 0x4 * k
def Fld.ARC_CNT_COUNT (n : Nat) (k : Nat) : Field := ⟨Adr.ARC_CNT n k, 0, 32⟩

/-- ARC_LDR_CTRL (R207). -/
def Adr.ARC_LDR_CTRL : Nat := 0x80800
def Fld.ARC_LDR_CTRL_OUT : Field := ⟨Adr.ARC_LDR_CTRL, 12, 3⟩
def Fld.ARC_LDR_CTRL_IN : Field := ⟨Adr.ARC_LDR_CTRL, 8, 3⟩
def Fld.ARC_LDR_CTRL_PAIR : Field := ⟨Adr.ARC_LDR_CTRL, 4, 2⟩
def Fld.ARC_LDR_CTRL_OP : Field := ⟨Adr.ARC_LDR_CTRL, 1, 3⟩
def Fld.ARC_LDR_CTRL_GO : Field := ⟨Adr.ARC_LDR_CTRL, 0, 1⟩

/-- ARC_LDR_SRC (R207). -/
def Adr.ARC_LDR_SRC : Nat := 0x80804
def Fld.ARC_LDR_SRC_PAGE : Field := ⟨Adr.ARC_LDR_SRC, 0, 22⟩

/-- ARC_LDR_STATUS (R207). -/
def Adr.ARC_LDR_STATUS : Nat := 0x80808
def Fld.ARC_LDR_STATUS_RESULT : Field := ⟨Adr.ARC_LDR_STATUS, 4, 4⟩
def Fld.ARC_LDR_STATUS_DONE : Field := ⟨Adr.ARC_LDR_STATUS, 1, 1⟩
def Fld.ARC_LDR_STATUS_BUSY : Field := ⟨Adr.ARC_LDR_STATUS, 0, 1⟩

/-- ARC_SPARE (R207). -/
def Adr.ARC_SPARE : Nat := 0x80814
def Fld.ARC_SPARE_SECOND : Field := ⟨Adr.ARC_SPARE, 4, 3⟩
def Fld.ARC_SPARE_FIRST : Field := ⟨Adr.ARC_SPARE, 0, 3⟩

/-- ARC_INSERVICE (R207). -/
def Adr.ARC_INSERVICE : Nat := 0x8080c
def Fld.ARC_INSERVICE_MASK : Field := ⟨Adr.ARC_INSERVICE, 0, 8⟩

/-- ARC_FAULT (R207). -/
def Adr.ARC_FAULT : Nat := 0x80810
def Fld.ARC_FAULT_MASK : Field := ⟨Adr.ARC_FAULT, 0, 8⟩

/-! ## Chapter 08: addresses and fields -/

/-- MOT_CTRL (R247). -/
def Adr.MOT_CTRL : Nat := 0xa0000
def Fld.MOT_CTRL_CNT_CLR : Field := ⟨Adr.MOT_CTRL, 5, 1⟩
def Fld.MOT_CTRL_REGEN_INHIBIT : Field := ⟨Adr.MOT_CTRL, 4, 1⟩
def Fld.MOT_CTRL_SLDB_EN : Field := ⟨Adr.MOT_CTRL, 2, 1⟩
def Fld.MOT_CTRL_SLDA_EN : Field := ⟨Adr.MOT_CTRL, 1, 1⟩
def Fld.MOT_CTRL_SPN_EN : Field := ⟨Adr.MOT_CTRL, 0, 1⟩

/-- MOT_STATUS (R247). -/
def Adr.MOT_STATUS : Nat := 0xa0004
def Fld.MOT_STATUS_SLDB_ILIM : Field := ⟨Adr.MOT_STATUS, 27, 1⟩
def Fld.MOT_STATUS_SLDA_ILIM : Field := ⟨Adr.MOT_STATUS, 26, 1⟩
def Fld.MOT_STATUS_SPN_ILIM : Field := ⟨Adr.MOT_STATUS, 25, 1⟩
def Fld.MOT_STATUS_FW_ACTIVE : Field := ⟨Adr.MOT_STATUS, 24, 1⟩
def Fld.MOT_STATUS_SPN_STATE : Field := ⟨Adr.MOT_STATUS, 8, 4⟩
def Fld.MOT_STATUS_SPEED_REFUSED : Field := ⟨Adr.MOT_STATUS, 7, 1⟩
def Fld.MOT_STATUS_AT_SPEED : Field := ⟨Adr.MOT_STATUS, 6, 1⟩
def Fld.MOT_STATUS_START_FAIL : Field := ⟨Adr.MOT_STATUS, 5, 1⟩
def Fld.MOT_STATUS_SYNC_LOST : Field := ⟨Adr.MOT_STATUS, 4, 1⟩
def Fld.MOT_STATUS_OC : Field := ⟨Adr.MOT_STATUS, 3, 1⟩
def Fld.MOT_STATUS_CHOP_FAULT : Field := ⟨Adr.MOT_STATUS, 2, 1⟩
def Fld.MOT_STATUS_OV2 : Field := ⟨Adr.MOT_STATUS, 1, 1⟩
def Fld.MOT_STATUS_OV1 : Field := ⟨Adr.MOT_STATUS, 0, 1⟩

/-- MOT_BUS_CFG (R247). -/
def Adr.MOT_BUS_CFG : Nat := 0xa0008
def Fld.MOT_BUS_CFG_BRK_OFF : Field := ⟨Adr.MOT_BUS_CFG, 20, 4⟩
def Fld.MOT_BUS_CFG_BRK_ON : Field := ⟨Adr.MOT_BUS_CFG, 16, 4⟩
def Fld.MOT_BUS_CFG_VNOM : Field := ⟨Adr.MOT_BUS_CFG, 0, 16⟩

/-- MOT_PWM_CFG (R247). -/
def Adr.MOT_PWM_CFG : Nat := 0xa000c
def Fld.MOT_PWM_CFG_OC_LIM : Field := ⟨Adr.MOT_PWM_CFG, 16, 12⟩
def Fld.MOT_PWM_CFG_MIN_PULSE : Field := ⟨Adr.MOT_PWM_CFG, 8, 8⟩
def Fld.MOT_PWM_CFG_DEAD : Field := ⟨Adr.MOT_PWM_CFG, 0, 8⟩

/-- MOT_BUS_MON (R247). -/
def Adr.MOT_BUS_MON : Nat := 0xa0010
def Fld.MOT_BUS_MON_CHOP_I : Field := ⟨Adr.MOT_BUS_MON, 16, 12⟩
def Fld.MOT_BUS_MON_VBUS : Field := ⟨Adr.MOT_BUS_MON, 0, 12⟩

/-- MOT_CNT (R248). -/
def Adr.MOT_CNT (n : Nat) : Nat := 0xa0020 + 0x4 * n
def Fld.MOT_CNT_COUNT (n : Nat) : Field := ⟨Adr.MOT_CNT n, 0, 32⟩

/-- SPN_CFG (R248). -/
def Adr.SPN_CFG : Nat := 0xa0100
def Fld.SPN_CFG_FOC_OFF : Field := ⟨Adr.SPN_CFG, 24, 8⟩
def Fld.SPN_CFG_FOC_ON : Field := ⟨Adr.SPN_CFG, 16, 8⟩
def Fld.SPN_CFG_ZC_BLANK : Field := ⟨Adr.SPN_CFG, 11, 5⟩
def Fld.SPN_CFG_ZC_WIN : Field := ⟨Adr.SPN_CFG, 5, 6⟩
def Fld.SPN_CFG_POLE_PAIRS : Field := ⟨Adr.SPN_CFG, 0, 4⟩

/-- SPN_START_CFG (R248). -/
def Adr.SPN_START_CFG : Nat := 0xa0104
def Fld.SPN_START_CFG_KICKS : Field := ⟨Adr.SPN_START_CFG, 24, 4⟩
def Fld.SPN_START_CFG_KICK_DUTY : Field := ⟨Adr.SPN_START_CFG, 16, 8⟩
def Fld.SPN_START_CFG_PROBE_GAP : Field := ⟨Adr.SPN_START_CFG, 8, 8⟩
def Fld.SPN_START_CFG_PROBE_T : Field := ⟨Adr.SPN_START_CFG, 0, 8⟩

/-- SPN_START_CFG2 (R248). -/
def Adr.SPN_START_CFG2 : Nat := 0xa0108
def Fld.SPN_START_CFG2_PROBE_MIN : Field := ⟨Adr.SPN_START_CFG2, 16, 12⟩
def Fld.SPN_START_CFG2_MEAS_MS : Field := ⟨Adr.SPN_START_CFG2, 8, 8⟩
def Fld.SPN_START_CFG2_KICK_MS : Field := ⟨Adr.SPN_START_CFG2, 0, 8⟩

/-- SPN_TARGET (R248). -/
def Adr.SPN_TARGET : Nat := 0xa010c
def Fld.SPN_TARGET_RAMP : Field := ⟨Adr.SPN_TARGET, 16, 16⟩
def Fld.SPN_TARGET_TARGET : Field := ⟨Adr.SPN_TARGET, 0, 16⟩

/-- SPN_SPEED (R248). -/
def Adr.SPN_SPEED : Nat := 0xa0110
def Fld.SPN_SPEED_REVERSE : Field := ⟨Adr.SPN_SPEED, 31, 1⟩
def Fld.SPN_SPEED_SRC : Field := ⟨Adr.SPN_SPEED, 29, 2⟩
def Fld.SPN_SPEED_RPM : Field := ⟨Adr.SPN_SPEED, 0, 16⟩

/-- SPN_LIMIT (R248). -/
def Adr.SPN_LIMIT : Nat := 0xa0114
def Fld.SPN_LIMIT_STOP_RPM : Field := ⟨Adr.SPN_LIMIT, 16, 16⟩
def Fld.SPN_LIMIT_SPN_MAX : Field := ⟨Adr.SPN_LIMIT, 0, 16⟩

/-- SPN_PROBE (R248). -/
def Adr.SPN_PROBE : Nat := 0xa0118
def Fld.SPN_PROBE_DIFF : Field := ⟨Adr.SPN_PROBE, 20, 12⟩
def Fld.SPN_PROBE_PULSES : Field := ⟨Adr.SPN_PROBE, 16, 4⟩
def Fld.SPN_PROBE_ANGLE : Field := ⟨Adr.SPN_PROBE, 0, 9⟩

/-- SLD_CTRL (R248). -/
def Adr.SLD_CTRL (n : Nat) : Nat := 0xa0200 + 0x80 * n
def Fld.SLD_CTRL_CMD (n : Nat) : Field := ⟨Adr.SLD_CTRL n, 0, 3⟩

/-- SLD_STATUS (R248). -/
def Adr.SLD_STATUS (n : Nat) : Nat := 0xa0204 + 0x80 * n
def Fld.SLD_STATUS_LIM_FAR (n : Nat) : Field := ⟨Adr.SLD_STATUS n, 14, 1⟩
def Fld.SLD_STATUS_LIM_HOME (n : Nat) : Field := ⟨Adr.SLD_STATUS n, 13, 1⟩
def Fld.SLD_STATUS_CMD_REFUSED (n : Nat) : Field := ⟨Adr.SLD_STATUS n, 12, 1⟩
def Fld.SLD_STATUS_HOME_FAIL (n : Nat) : Field := ⟨Adr.SLD_STATUS n, 11, 1⟩
def Fld.SLD_STATUS_VLIM_REFUSED (n : Nat) : Field := ⟨Adr.SLD_STATUS n, 10, 1⟩
def Fld.SLD_STATUS_ACC_DEFERRED (n : Nat) : Field := ⟨Adr.SLD_STATUS n, 9, 1⟩
def Fld.SLD_STATUS_LIMIT_FAR (n : Nat) : Field := ⟨Adr.SLD_STATUS n, 8, 1⟩
def Fld.SLD_STATUS_LIMIT_HOME (n : Nat) : Field := ⟨Adr.SLD_STATUS n, 7, 1⟩
def Fld.SLD_STATUS_BUSY (n : Nat) : Field := ⟨Adr.SLD_STATUS n, 6, 1⟩
def Fld.SLD_STATUS_HOMED (n : Nat) : Field := ⟨Adr.SLD_STATUS n, 5, 1⟩
def Fld.SLD_STATUS_MODE (n : Nat) : Field := ⟨Adr.SLD_STATUS n, 0, 4⟩

/-- SLD_POS (R248). -/
def Adr.SLD_POS (n : Nat) : Nat := 0xa0208 + 0x80 * n
def Fld.SLD_POS_POS (n : Nat) : Field := ⟨Adr.SLD_POS n, 0, 32⟩

/-- SLD_TARGET (R248). -/
def Adr.SLD_TARGET (n : Nat) : Nat := 0xa020c + 0x80 * n
def Fld.SLD_TARGET_TARGET (n : Nat) : Field := ⟨Adr.SLD_TARGET n, 0, 32⟩

/-- SLD_VMAX (R248). -/
def Adr.SLD_VMAX (n : Nat) : Nat := 0xa0210 + 0x80 * n
def Fld.SLD_VMAX_VMAX (n : Nat) : Field := ⟨Adr.SLD_VMAX n, 0, 32⟩

/-- SLD_ACC (R248). -/
def Adr.SLD_ACC (n : Nat) : Nat := 0xa0214 + 0x80 * n
def Fld.SLD_ACC_ACC (n : Nat) : Field := ⟨Adr.SLD_ACC n, 0, 32⟩

/-- SLD_DEC (R248). -/
def Adr.SLD_DEC (n : Nat) : Nat := 0xa0218 + 0x80 * n
def Fld.SLD_DEC_DEC (n : Nat) : Field := ⟨Adr.SLD_DEC n, 0, 32⟩

/-- SLD_VLIM_LO (R248). -/
def Adr.SLD_VLIM_LO (n : Nat) : Nat := 0xa021c + 0x80 * n
def Fld.SLD_VLIM_LO_VLIM_LO (n : Nat) : Field := ⟨Adr.SLD_VLIM_LO n, 0, 32⟩

/-- SLD_VLIM_HI (R248). -/
def Adr.SLD_VLIM_HI (n : Nat) : Nat := 0xa0220 + 0x80 * n
def Fld.SLD_VLIM_HI_VLIM_HI (n : Nat) : Field := ⟨Adr.SLD_VLIM_HI n, 0, 32⟩

/-- SLD_HOME_POS (R248). -/
def Adr.SLD_HOME_POS (n : Nat) : Nat := 0xa0224 + 0x80 * n
def Fld.SLD_HOME_POS_HOME_POS (n : Nat) : Field := ⟨Adr.SLD_HOME_POS n, 0, 32⟩

/-- SLD_PARK_POS (R248). -/
def Adr.SLD_PARK_POS (n : Nat) : Nat := 0xa0228 + 0x80 * n
def Fld.SLD_PARK_POS_PARK_POS (n : Nat) : Field := ⟨Adr.SLD_PARK_POS n, 0, 32⟩

/-- SLD_ORIGIN (R248). -/
def Adr.SLD_ORIGIN (n : Nat) : Nat := 0xa022c + 0x80 * n
def Fld.SLD_ORIGIN_ORIGIN (n : Nat) : Field := ⟨Adr.SLD_ORIGIN n, 0, 32⟩

/-- SLD_PITCH (R248). -/
def Adr.SLD_PITCH (n : Nat) : Nat := 0xa0230 + 0x80 * n
def Fld.SLD_PITCH_PITCH (n : Nat) : Field := ⟨Adr.SLD_PITCH n, 0, 32⟩

/-- SLD_LIM_CFG (R248). -/
def Adr.SLD_LIM_CFG (n : Nat) : Nat := 0xa0234 + 0x80 * n
def Fld.SLD_LIM_CFG_BACKOFF (n : Nat) : Field := ⟨Adr.SLD_LIM_CFG n, 16, 16⟩
def Fld.SLD_LIM_CFG_POL_FAR (n : Nat) : Field := ⟨Adr.SLD_LIM_CFG n, 4, 1⟩
def Fld.SLD_LIM_CFG_POL_HOME (n : Nat) : Field := ⟨Adr.SLD_LIM_CFG n, 3, 1⟩
def Fld.SLD_LIM_CFG_DEB (n : Nat) : Field := ⟨Adr.SLD_LIM_CFG n, 0, 3⟩

/-- SLD_CUR (R248). -/
def Adr.SLD_CUR (n : Nat) : Nat := 0xa0238 + 0x80 * n
def Fld.SLD_CUR_HOLD_DELAY (n : Nat) : Field := ⟨Adr.SLD_CUR n, 24, 8⟩
def Fld.SLD_CUR_HOLD (n : Nat) : Field := ⟨Adr.SLD_CUR n, 12, 12⟩
def Fld.SLD_CUR_RUN (n : Nat) : Field := ⟨Adr.SLD_CUR n, 0, 12⟩

/-- PRF_CTRL (R248). -/
def Adr.PRF_CTRL (n : Nat) : Nat := 0xa0400 + 0x10 * n
def Fld.PRF_CTRL_STOP (n : Nat) : Field := ⟨Adr.PRF_CTRL n, 17, 1⟩
def Fld.PRF_CTRL_GO (n : Nat) : Field := ⟨Adr.PRF_CTRL n, 16, 1⟩
def Fld.PRF_CTRL_START (n : Nat) : Field := ⟨Adr.PRF_CTRL n, 0, 10⟩

/-- PRF_STATUS (R248). -/
def Adr.PRF_STATUS (n : Nat) : Nat := 0xa0404 + 0x10 * n
def Fld.PRF_STATUS_SEG (n : Nat) : Field := ⟨Adr.PRF_STATUS n, 6, 10⟩
def Fld.PRF_STATUS_REFUSED (n : Nat) : Field := ⟨Adr.PRF_STATUS n, 2, 1⟩
def Fld.PRF_STATUS_DONE (n : Nat) : Field := ⟨Adr.PRF_STATUS n, 1, 1⟩
def Fld.PRF_STATUS_BUSY (n : Nat) : Field := ⟨Adr.PRF_STATUS n, 0, 1⟩

/-- PRF_POS (R248). -/
def Adr.PRF_POS (n : Nat) : Nat := 0xa0408 + 0x10 * n
def Fld.PRF_POS_POS (n : Nat) : Field := ⟨Adr.PRF_POS n, 0, 32⟩

/-! ## Chapter 09: addresses and fields -/

/-- SPP_CTRL (R283). -/
def Adr.SPP_CTRL (n : Nat) : Nat := 0xc0000 + 0x1000 * n
def Fld.SPP_CTRL_CNT_CLR (n : Nat) : Field := ⟨Adr.SPP_CTRL n, 16, 1⟩
def Fld.SPP_CTRL_ROLE (n : Nat) : Field := ⟨Adr.SPP_CTRL n, 0, 2⟩

/-- SPP_STATUS (R283). -/
def Adr.SPP_STATUS (n : Nat) : Nat := 0xc0004 + 0x1000 * n
def Fld.SPP_STATUS_CTX_LIVE (n : Nat) : Field := ⟨Adr.SPP_STATUS n, 8, 8⟩
def Fld.SPP_STATUS_WATCHDOG (n : Nat) : Field := ⟨Adr.SPP_STATUS n, 4, 1⟩
def Fld.SPP_STATUS_TCM_ERR (n : Nat) : Field := ⟨Adr.SPP_STATUS n, 3, 1⟩
def Fld.SPP_STATUS_PARITY (n : Nat) : Field := ⟨Adr.SPP_STATUS n, 2, 1⟩
def Fld.SPP_STATUS_MISMATCH (n : Nat) : Field := ⟨Adr.SPP_STATUS n, 1, 1⟩
def Fld.SPP_STATUS_FAULT (n : Nat) : Field := ⟨Adr.SPP_STATUS n, 0, 1⟩

/-- SPP_CNT (R284). -/
def Adr.SPP_CNT (n : Nat) (k : Nat) : Nat := 0xc0100 + 0x1000 * n + 0x4 * k
def Fld.SPP_CNT_COUNT (n : Nat) (k : Nat) : Field := ⟨Adr.SPP_CNT n k, 0, 32⟩

/-- SPP_INSERVICE (R284). -/
def Adr.SPP_INSERVICE : Nat := 0xd0000
def Fld.SPP_INSERVICE_MASK : Field := ⟨Adr.SPP_INSERVICE, 0, 12⟩

/-- SPP_FAULT (R284). -/
def Adr.SPP_FAULT : Nat := 0xd0004
def Fld.SPP_FAULT_MASK : Field := ⟨Adr.SPP_FAULT, 0, 12⟩

/-- SPP_SPARE (R284). -/
def Adr.SPP_SPARE : Nat := 0xd0008
def Fld.SPP_SPARE_PAIR_LOST : Field := ⟨Adr.SPP_SPARE, 12, 1⟩
def Fld.SPP_SPARE_SECOND : Field := ⟨Adr.SPP_SPARE, 8, 4⟩
def Fld.SPP_SPARE_FIRST : Field := ⟨Adr.SPP_SPARE, 0, 4⟩

/-- SPP_CKPT_BASE (R284). -/
def Adr.SPP_CKPT_BASE : Nat := 0xd000c
def Fld.SPP_CKPT_BASE_PAGE : Field := ⟨Adr.SPP_CKPT_BASE, 0, 22⟩

/-- SPP_MBOX_BASE (R284). -/
def Adr.SPP_MBOX_BASE : Nat := 0xd0010
def Fld.SPP_MBOX_BASE_PAGE : Field := ⟨Adr.SPP_MBOX_BASE, 0, 22⟩

/-- SPP_USER_WIN_BASE (R284). -/
def Adr.SPP_USER_WIN_BASE : Nat := 0xd0014
def Fld.SPP_USER_WIN_BASE_VALUE : Field := ⟨Adr.SPP_USER_WIN_BASE, 0, 22⟩

/-- SPP_USER_WIN_PAGES (R284). -/
def Adr.SPP_USER_WIN_PAGES : Nat := 0xd0018
def Fld.SPP_USER_WIN_PAGES_VALUE : Field := ⟨Adr.SPP_USER_WIN_PAGES, 0, 22⟩

/-- SPP_CFG (R284). -/
def Adr.SPP_CFG : Nat := 0xd001c
def Fld.SPP_CFG_WDOG_MS : Field := ⟨Adr.SPP_CFG, 8, 8⟩
def Fld.SPP_CFG_CKPT_US : Field := ⟨Adr.SPP_CFG, 0, 8⟩

/-- SPP_TASK (R284). -/
def Adr.SPP_TASK (n : Nat) : Nat := 0xd1000 + 0x8 * n
def Fld.SPP_TASK_LIVE (n : Nat) : Field := ⟨Adr.SPP_TASK n, 31, 1⟩
def Fld.SPP_TASK_USER (n : Nat) : Field := ⟨Adr.SPP_TASK n, 30, 1⟩
def Fld.SPP_TASK_REPLAY_DIVERGED (n : Nat) : Field := ⟨Adr.SPP_TASK n, 29, 1⟩
def Fld.SPP_TASK_STATE (n : Nat) : Field := ⟨Adr.SPP_TASK n, 27, 2⟩
def Fld.SPP_TASK_PROC (n : Nat) : Field := ⟨Adr.SPP_TASK n, 20, 4⟩
def Fld.SPP_TASK_ENTRY (n : Nat) : Field := ⟨Adr.SPP_TASK n, 0, 20⟩

/-- SPP_TASK_GEN (R284). -/
def Adr.SPP_TASK_GEN (n : Nat) : Nat := 0xd1004 + 0x8 * n
def Fld.SPP_TASK_GEN_GEN (n : Nat) : Field := ⟨Adr.SPP_TASK_GEN n, 0, 32⟩

/-- SPP_Q_BASE (R284). -/
def Adr.SPP_Q_BASE (n : Nat) : Nat := 0xd2000 + 0x10 * n
def Fld.SPP_Q_BASE_BASE (n : Nat) : Field := ⟨Adr.SPP_Q_BASE n, 0, 22⟩

/-- SPP_Q_LOG2 (R284). -/
def Adr.SPP_Q_LOG2 (n : Nat) : Nat := 0xd2004 + 0x10 * n
def Fld.SPP_Q_LOG2_LOG2 (n : Nat) : Field := ⟨Adr.SPP_Q_LOG2 n, 0, 4⟩

/-- SPP_Q_PTR (R284). -/
def Adr.SPP_Q_PTR (n : Nat) : Nat := 0xd2008 + 0x10 * n
def Fld.SPP_Q_PTR_TAIL (n : Nat) : Field := ⟨Adr.SPP_Q_PTR n, 16, 13⟩
def Fld.SPP_Q_PTR_HEAD (n : Nat) : Field := ⟨Adr.SPP_Q_PTR n, 0, 13⟩

/-- SPP_Q_HELD (R284). -/
def Adr.SPP_Q_HELD (n : Nat) : Nat := 0xd200c + 0x10 * n
def Fld.SPP_Q_HELD_HELD (n : Nat) : Field := ⟨Adr.SPP_Q_HELD n, 0, 13⟩

/-- CACHE_CTRL (R284). -/
def Adr.CACHE_CTRL : Nat := 0xe0000
def Fld.CACHE_CTRL_CNT_CLR : Field := ⟨Adr.CACHE_CTRL, 1, 1⟩
def Fld.CACHE_CTRL_ENABLE : Field := ⟨Adr.CACHE_CTRL, 0, 1⟩

/-- CACHE_STATUS (R284). -/
def Adr.CACHE_STATUS : Nat := 0xe0004
def Fld.CACHE_STATUS_DIRTY_LINES : Field := ⟨Adr.CACHE_STATUS, 16, 14⟩
def Fld.CACHE_STATUS_RSV_REFUSED : Field := ⟨Adr.CACHE_STATUS, 7, 1⟩
def Fld.CACHE_STATUS_ENABLE_HELD : Field := ⟨Adr.CACHE_STATUS, 6, 1⟩
def Fld.CACHE_STATUS_FRAME_SPARED : Field := ⟨Adr.CACHE_STATUS, 5, 1⟩
def Fld.CACHE_STATUS_TWIN_CORRECTED : Field := ⟨Adr.CACHE_STATUS, 4, 1⟩
def Fld.CACHE_STATUS_CLEAN_REFETCH : Field := ⟨Adr.CACHE_STATUS, 3, 1⟩
def Fld.CACHE_STATUS_DOUBLE_FAIL : Field := ⟨Adr.CACHE_STATUS, 2, 1⟩
def Fld.CACHE_STATUS_DISABLE_PENDING : Field := ⟨Adr.CACHE_STATUS, 1, 1⟩
def Fld.CACHE_STATUS_ENABLED : Field := ⟨Adr.CACHE_STATUS, 0, 1⟩

/-- CACHE_ERR_ADDR (R284). -/
def Adr.CACHE_ERR_ADDR : Nat := 0xe0008
def Fld.CACHE_ERR_ADDR_LINE : Field := ⟨Adr.CACHE_ERR_ADDR, 0, 26⟩

/-- CACHE_MASK (R284). -/
def Adr.CACHE_MASK (n : Nat) : Nat := 0xe0100 + 0x4 * n
def Fld.CACHE_MASK_ALLOC (n : Nat) : Field := ⟨Adr.CACHE_MASK n, 16, 1⟩
def Fld.CACHE_MASK_MASK (n : Nat) : Field := ⟨Adr.CACHE_MASK n, 0, 16⟩

/-- CACHE_RSV (R284). -/
def Adr.CACHE_RSV (n : Nat) : Nat := 0xe0200 + 0x4 * n
def Fld.CACHE_RSV_EN (n : Nat) : Field := ⟨Adr.CACHE_RSV n, 31, 1⟩
def Fld.CACHE_RSV_REQ (n : Nat) : Field := ⟨Adr.CACHE_RSV n, 0, 4⟩

/-- CACHE_SPARE (R284). -/
def Adr.CACHE_SPARE (n : Nat) : Nat := 0xe0300 + 0x4 * n
def Fld.CACHE_SPARE_DISABLED (n : Nat) : Field := ⟨Adr.CACHE_SPARE n, 16, 6⟩
def Fld.CACHE_SPARE_FREE (n : Nat) : Field := ⟨Adr.CACHE_SPARE n, 0, 6⟩

/-- CACHE_CNT (R285). -/
def Adr.CACHE_CNT (n : Nat) : Nat := 0xe0400 + 0x4 * n
def Fld.CACHE_CNT_COUNT (n : Nat) : Field := ⟨Adr.CACHE_CNT n, 0, 32⟩

/-! ## Chapter 10: addresses and fields -/

/-- MEM_CTRL (R303). -/
def Adr.MEM_CTRL : Nat := 0xe1000
def Fld.MEM_CTRL_CNT_CLR : Field := ⟨Adr.MEM_CTRL, 0, 1⟩

/-- MEM_CFG (R303). -/
def Adr.MEM_CFG : Nat := 0xe1004
def Fld.MEM_CFG_SPEED : Field := ⟨Adr.MEM_CFG, 8, 4⟩
def Fld.MEM_CFG_ONE_CHANNEL : Field := ⟨Adr.MEM_CFG, 4, 1⟩
def Fld.MEM_CFG_CAP : Field := ⟨Adr.MEM_CFG, 0, 4⟩

/-- MEM_STATUS (R303). -/
def Adr.MEM_STATUS : Nat := 0xe1008
def Fld.MEM_STATUS_SPARE_EMPTY : Field := ⟨Adr.MEM_STATUS, 11, 1⟩
def Fld.MEM_STATUS_RETIRED : Field := ⟨Adr.MEM_STATUS, 10, 1⟩
def Fld.MEM_STATUS_BUCKET_OVF : Field := ⟨Adr.MEM_STATUS, 9, 1⟩
def Fld.MEM_STATUS_BUCKET_FULL : Field := ⟨Adr.MEM_STATUS, 8, 1⟩
def Fld.MEM_STATUS_WORD_TABLE_FULL : Field := ⟨Adr.MEM_STATUS, 7, 1⟩
def Fld.MEM_STATUS_POISON_WRITTEN : Field := ⟨Adr.MEM_STATUS, 6, 1⟩
def Fld.MEM_STATUS_POISON_READ : Field := ⟨Adr.MEM_STATUS, 5, 1⟩
def Fld.MEM_STATUS_VIRGIN_READ : Field := ⟨Adr.MEM_STATUS, 4, 1⟩
def Fld.MEM_STATUS_PAGE_DECODE : Field := ⟨Adr.MEM_STATUS, 3, 1⟩
def Fld.MEM_STATUS_SCRUB_DONE : Field := ⟨Adr.MEM_STATUS, 2, 1⟩
def Fld.MEM_STATUS_WS_READY : Field := ⟨Adr.MEM_STATUS, 1, 1⟩
def Fld.MEM_STATUS_TRAINED : Field := ⟨Adr.MEM_STATUS, 0, 1⟩

/-- MEM_SIZE (R303). -/
def Adr.MEM_SIZE : Nat := 0xe100c
def Fld.MEM_SIZE_PAGES : Field := ⟨Adr.MEM_SIZE, 0, 22⟩

/-- MEM_PATROL (R303). -/
def Adr.MEM_PATROL : Nat := 0xe1010
def Fld.MEM_PATROL_PERIOD_S : Field := ⟨Adr.MEM_PATROL, 16, 16⟩

/-- MEM_PATROL_POS (R303). -/
def Adr.MEM_PATROL_POS : Nat := 0xe1014
def Fld.MEM_PATROL_POS_PAGE : Field := ⟨Adr.MEM_PATROL_POS, 0, 22⟩

/-- MEM_ERR_ADDR (R303). -/
def Adr.MEM_ERR_ADDR : Nat := 0xe1018
def Fld.MEM_ERR_ADDR_WORD : Field := ⟨Adr.MEM_ERR_ADDR, 0, 31⟩

/-- MEM_ERR_KIND (R303). -/
def Adr.MEM_ERR_KIND : Nat := 0xe101c
def Fld.MEM_ERR_KIND_KIND : Field := ⟨Adr.MEM_ERR_KIND, 0, 4⟩

/-- MEM_SPARE (R303). -/
def Adr.MEM_SPARE : Nat := 0xe1020
def Fld.MEM_SPARE_RETIRED : Field := ⟨Adr.MEM_SPARE, 16, 11⟩
def Fld.MEM_SPARE_FREE : Field := ⟨Adr.MEM_SPARE, 0, 11⟩

/-- MEM_WS (R303). -/
def Adr.MEM_WS : Nat := 0xe1024
def Fld.MEM_WS_PAGES : Field := ⟨Adr.MEM_WS, 0, 22⟩

/-- MEM_CNT (R304). -/
def Adr.MEM_CNT (n : Nat) : Nat := 0xe1100 + 0x4 * n
def Fld.MEM_CNT_COUNT (n : Nat) : Field := ⟨Adr.MEM_CNT n, 0, 32⟩

/-! ## Chapter 11: addresses and fields -/

/-- HQ_CTRL (R349). -/
def Adr.HQ_CTRL : Nat := 0x100000
def Fld.HQ_CTRL_CNT_CLR : Field := ⟨Adr.HQ_CTRL, 2, 1⟩
def Fld.HQ_CTRL_FRESET : Field := ⟨Adr.HQ_CTRL, 1, 1⟩
def Fld.HQ_CTRL_ENABLE : Field := ⟨Adr.HQ_CTRL, 0, 1⟩

/-- HQ_STATUS (R349). -/
def Adr.HQ_STATUS : Nat := 0x100004
def Fld.HQ_STATUS_PS : Field := ⟨Adr.HQ_STATUS, 9, 3⟩
def Fld.HQ_STATUS_PS_ENTRY : Field := ⟨Adr.HQ_STATUS, 8, 1⟩
def Fld.HQ_STATUS_QUIESCED : Field := ⟨Adr.HQ_STATUS, 7, 1⟩
def Fld.HQ_STATUS_DB_ERR : Field := ⟨Adr.HQ_STATUS, 6, 1⟩
def Fld.HQ_STATUS_QP_REFUSED : Field := ⟨Adr.HQ_STATUS, 5, 1⟩
def Fld.HQ_STATUS_DUP_TAG : Field := ⟨Adr.HQ_STATUS, 4, 1⟩
def Fld.HQ_STATUS_RESETTING : Field := ⟨Adr.HQ_STATUS, 1, 1⟩
def Fld.HQ_STATUS_READY : Field := ⟨Adr.HQ_STATUS, 0, 1⟩

/-- HQ_LINK (R349). -/
def Adr.HQ_LINK : Nat := 0x100010
def Fld.HQ_LINK_UP : Field := ⟨Adr.HQ_LINK, 9, 1⟩
def Fld.HQ_LINK_ASYM : Field := ⟨Adr.HQ_LINK, 8, 1⟩
def Fld.HQ_LINK_LANES : Field := ⟨Adr.HQ_LINK, 4, 4⟩
def Fld.HQ_LINK_GEN : Field := ⟨Adr.HQ_LINK, 0, 4⟩

/-- HQ_CAP (R349). -/
def Adr.HQ_CAP : Nat := 0x100008
def Fld.HQ_CAP_MAX_INFLIGHT : Field := ⟨Adr.HQ_CAP, 16, 11⟩
def Fld.HQ_CAP_MAX_QP : Field := ⟨Adr.HQ_CAP, 8, 8⟩
def Fld.HQ_CAP_MAX_LOG2 : Field := ⟨Adr.HQ_CAP, 4, 4⟩
def Fld.HQ_CAP_MIN_LOG2 : Field := ⟨Adr.HQ_CAP, 0, 4⟩

/-- HQ_INFLIGHT (R349). -/
def Adr.HQ_INFLIGHT : Nat := 0x10000c
def Fld.HQ_INFLIGHT_COUNT : Field := ⟨Adr.HQ_INFLIGHT, 0, 11⟩

/-- HQ_QP_SQ_BASE_LO (R349). -/
def Adr.HQ_QP_SQ_BASE_LO (n : Nat) : Nat := 0x101000 + 0x20 * n
def Fld.HQ_QP_SQ_BASE_LO_ADDR (n : Nat) : Field := ⟨Adr.HQ_QP_SQ_BASE_LO n, 12, 20⟩

/-- HQ_QP_CQ_BASE_LO (R349). -/
def Adr.HQ_QP_CQ_BASE_LO (n : Nat) : Nat := 0x101008 + 0x20 * n
def Fld.HQ_QP_CQ_BASE_LO_ADDR (n : Nat) : Field := ⟨Adr.HQ_QP_CQ_BASE_LO n, 12, 20⟩

/-- HQ_QP_SQ_BASE_HI (R349). -/
def Adr.HQ_QP_SQ_BASE_HI (n : Nat) : Nat := 0x101004 + 0x20 * n
def Fld.HQ_QP_SQ_BASE_HI_ADDR (n : Nat) : Field := ⟨Adr.HQ_QP_SQ_BASE_HI n, 0, 32⟩

/-- HQ_QP_CQ_BASE_HI (R349). -/
def Adr.HQ_QP_CQ_BASE_HI (n : Nat) : Nat := 0x10100c + 0x20 * n
def Fld.HQ_QP_CQ_BASE_HI_ADDR (n : Nat) : Field := ⟨Adr.HQ_QP_CQ_BASE_HI n, 0, 32⟩

/-- HQ_QP_CFG (R349). -/
def Adr.HQ_QP_CFG (n : Nat) : Nat := 0x101010 + 0x20 * n
def Fld.HQ_QP_CFG_EN (n : Nat) : Field := ⟨Adr.HQ_QP_CFG n, 31, 1⟩
def Fld.HQ_QP_CFG_ROLE (n : Nat) : Field := ⟨Adr.HQ_QP_CFG n, 26, 2⟩
def Fld.HQ_QP_CFG_WEIGHT (n : Nat) : Field := ⟨Adr.HQ_QP_CFG n, 16, 4⟩
def Fld.HQ_QP_CFG_CQ_LOG2 (n : Nat) : Field := ⟨Adr.HQ_QP_CFG n, 8, 4⟩
def Fld.HQ_QP_CFG_SQ_LOG2 (n : Nat) : Field := ⟨Adr.HQ_QP_CFG n, 0, 4⟩

/-- HQ_QP_COAL (R349). -/
def Adr.HQ_QP_COAL (n : Nat) : Nat := 0x101014 + 0x20 * n
def Fld.HQ_QP_COAL_COAL_US (n : Nat) : Field := ⟨Adr.HQ_QP_COAL n, 16, 16⟩
def Fld.HQ_QP_COAL_COAL_N (n : Nat) : Field := ⟨Adr.HQ_QP_COAL n, 0, 10⟩

/-- HQ_QP_STATUS (R349). -/
def Adr.HQ_QP_STATUS (n : Nat) : Nat := 0x101018 + 0x20 * n
def Fld.HQ_QP_STATUS_CQ_FULL (n : Nat) : Field := ⟨Adr.HQ_QP_STATUS n, 31, 1⟩
def Fld.HQ_QP_STATUS_BUSY (n : Nat) : Field := ⟨Adr.HQ_QP_STATUS n, 30, 1⟩
def Fld.HQ_QP_STATUS_PHASE (n : Nat) : Field := ⟨Adr.HQ_QP_STATUS n, 29, 1⟩
def Fld.HQ_QP_STATUS_SQ_HEAD (n : Nat) : Field := ⟨Adr.HQ_QP_STATUS n, 16, 10⟩
def Fld.HQ_QP_STATUS_CQ_TAIL (n : Nat) : Field := ⟨Adr.HQ_QP_STATUS n, 0, 10⟩

/-- HQ_CNT (R350). -/
def Adr.HQ_CNT (n : Nat) : Nat := 0x100100 + 0x4 * n
def Fld.HQ_CNT_COUNT (n : Nat) : Field := ⟨Adr.HQ_CNT n, 0, 32⟩

/-! ## Chapter 12: addresses and fields -/

/-- KD_CTRL (R370). -/
def Adr.KD_CTRL : Nat := 0x24200
def Fld.KD_CTRL_TAKEOVER : Field := ⟨Adr.KD_CTRL, 1, 1⟩
def Fld.KD_CTRL_CNT_CLR : Field := ⟨Adr.KD_CTRL, 0, 1⟩

/-- KD_STATUS (R370). -/
def Adr.KD_STATUS : Nat := 0x24204
def Fld.KD_STATUS_LOCK_NEXT : Field := ⟨Adr.KD_STATUS, 8, 2⟩
def Fld.KD_STATUS_LOCK : Field := ⟨Adr.KD_STATUS, 6, 2⟩
def Fld.KD_STATUS_LOCK_OVERRIDE : Field := ⟨Adr.KD_STATUS, 5, 1⟩
def Fld.KD_STATUS_STRAP : Field := ⟨Adr.KD_STATUS, 4, 1⟩
def Fld.KD_STATUS_SYNC_LOST : Field := ⟨Adr.KD_STATUS, 3, 1⟩
def Fld.KD_STATUS_STANDBY_READY : Field := ⟨Adr.KD_STATUS, 2, 1⟩
def Fld.KD_STATUS_ON_STANDBY : Field := ⟨Adr.KD_STATUS, 1, 1⟩
def Fld.KD_STATUS_ACTIVE : Field := ⟨Adr.KD_STATUS, 0, 1⟩

/-- KD_CNT (R371). -/
def Adr.KD_CNT (n : Nat) : Nat := 0x24300 + 0x4 * n
def Fld.KD_CNT_COUNT (n : Nat) : Field := ⟨Adr.KD_CNT n, 0, 32⟩

/-! ## Chapter 13: addresses and fields -/

/-- SPR_POLICY (R393). -/
def Adr.SPR_POLICY : Nat := 0xd4000
def Fld.SPR_POLICY_CNT_CLR : Field := ⟨Adr.SPR_POLICY, 16, 1⟩
def Fld.SPR_POLICY_ROT_MIN : Field := ⟨Adr.SPR_POLICY, 8, 8⟩
def Fld.SPR_POLICY_POLICY : Field := ⟨Adr.SPR_POLICY, 0, 1⟩

/-- SPR_STATUS (R393). -/
def Adr.SPR_STATUS : Nat := 0xd4004
def Fld.SPR_STATUS_DEPLETED : Field := ⟨Adr.SPR_STATUS, 16, 16⟩
def Fld.SPR_STATUS_ATTENTION : Field := ⟨Adr.SPR_STATUS, 0, 16⟩

/-- SPR_HANDOFF (R393). -/
def Adr.SPR_HANDOFF : Nat := 0xd4008
def Fld.SPR_HANDOFF_GO : Field := ⟨Adr.SPR_HANDOFF, 31, 1⟩
def Fld.SPR_HANDOFF_BUSY : Field := ⟨Adr.SPR_HANDOFF, 30, 1⟩
def Fld.SPR_HANDOFF_REFUSED : Field := ⟨Adr.SPR_HANDOFF, 29, 1⟩
def Fld.SPR_HANDOFF_DONE : Field := ⟨Adr.SPR_HANDOFF, 28, 1⟩
def Fld.SPR_HANDOFF_OUT : Field := ⟨Adr.SPR_HANDOFF, 16, 8⟩
def Fld.SPR_HANDOFF_IN : Field := ⟨Adr.SPR_HANDOFF, 8, 8⟩
def Fld.SPR_HANDOFF_CLASS : Field := ⟨Adr.SPR_HANDOFF, 0, 4⟩

/-- SPR_EVENTS (R393). -/
def Adr.SPR_EVENTS : Nat := 0xd400c
def Fld.SPR_EVENTS_DEPLETED_NEW : Field := ⟨Adr.SPR_EVENTS, 16, 16⟩
def Fld.SPR_EVENTS_ATTN_NEW : Field := ⟨Adr.SPR_EVENTS, 0, 16⟩

/-- SPR_OUT (R393). -/
def Adr.SPR_OUT : Nat := 0xd4010
def Fld.SPR_OUT_ACTIVE : Field := ⟨Adr.SPR_OUT, 31, 1⟩
def Fld.SPR_OUT_UPDATE : Field := ⟨Adr.SPR_OUT, 30, 1⟩
def Fld.SPR_OUT_STATE : Field := ⟨Adr.SPR_OUT, 16, 4⟩
def Fld.SPR_OUT_UNIT : Field := ⟨Adr.SPR_OUT, 8, 8⟩
def Fld.SPR_OUT_CLASS : Field := ⟨Adr.SPR_OUT, 0, 4⟩

/-- SPR_CLASS_CNT (R393). -/
def Adr.SPR_CLASS_CNT (n : Nat) : Nat := 0xd4048 + 0x8 * n
def Fld.SPR_CLASS_CNT_SPARES (n : Nat) : Field := ⟨Adr.SPR_CLASS_CNT n, 16, 16⟩
def Fld.SPR_CLASS_CNT_IN_SERVICE (n : Nat) : Field := ⟨Adr.SPR_CLASS_CNT n, 0, 16⟩

/-- SPR_CLASS_THR (R393). -/
def Adr.SPR_CLASS_THR (n : Nat) : Nat := 0xd404c + 0x8 * n
def Fld.SPR_CLASS_THR_REQUIRED (n : Nat) : Field := ⟨Adr.SPR_CLASS_THR n, 16, 16⟩
def Fld.SPR_CLASS_THR_THRESHOLD (n : Nat) : Field := ⟨Adr.SPR_CLASS_THR n, 0, 16⟩

/-- SPR_CNT (R394). -/
def Adr.SPR_CNT (n : Nat) : Nat := 0xd4100 + 0x4 * n
def Fld.SPR_CNT_COUNT (n : Nat) : Field := ⟨Adr.SPR_CNT n, 0, 32⟩

/-! ## Chapter 14: addresses and fields -/

/-- SEC_STATUS (R426). -/
def Adr.SEC_STATUS : Nat := 0x120000
def Fld.SEC_STATUS_DENY_REASON : Field := ⟨Adr.SEC_STATUS, 12, 4⟩
def Fld.SEC_STATUS_NONCES : Field := ⟨Adr.SEC_STATUS, 8, 4⟩
def Fld.SEC_STATUS_PENDING : Field := ⟨Adr.SEC_STATUS, 6, 1⟩
def Fld.SEC_STATUS_DENIED : Field := ⟨Adr.SEC_STATUS, 5, 1⟩
def Fld.SEC_STATUS_AUDIT_NEAR_FULL : Field := ⟨Adr.SEC_STATUS, 4, 1⟩
def Fld.SEC_STATUS_AUDIT_GAP : Field := ⟨Adr.SEC_STATUS, 3, 1⟩
def Fld.SEC_STATUS_AUDIT_NOR_FAIL : Field := ⟨Adr.SEC_STATUS, 2, 1⟩
def Fld.SEC_STATUS_AUDIT_OK : Field := ⟨Adr.SEC_STATUS, 1, 1⟩
def Fld.SEC_STATUS_KEYS_OK : Field := ⟨Adr.SEC_STATUS, 0, 1⟩

/-- SEC_CTRL_ROLE (R426). -/
def Adr.SEC_CTRL_ROLE : Nat := 0x120004
def Fld.SEC_CTRL_ROLE_GRANT_S : Field := ⟨Adr.SEC_CTRL_ROLE, 16, 16⟩
def Fld.SEC_CTRL_ROLE_ROLE : Field := ⟨Adr.SEC_CTRL_ROLE, 0, 2⟩

/-- SEC_KEYS (R426). -/
def Adr.SEC_KEYS : Nat := 0x120008
def Fld.SEC_KEYS_SIGNING : Field := ⟨Adr.SEC_KEYS, 12, 4⟩
def Fld.SEC_KEYS_INSTALLER : Field := ⟨Adr.SEC_KEYS, 8, 4⟩
def Fld.SEC_KEYS_MAKER_REVOKED : Field := ⟨Adr.SEC_KEYS, 4, 4⟩
def Fld.SEC_KEYS_MAKER_VALID : Field := ⟨Adr.SEC_KEYS, 0, 4⟩

/-- SEC_AUDIT_SEQ (R426). -/
def Adr.SEC_AUDIT_SEQ : Nat := 0x12000c
def Fld.SEC_AUDIT_SEQ_SEQ : Field := ⟨Adr.SEC_AUDIT_SEQ, 0, 32⟩

/-- SEC_ROLLBACK (R426). -/
def Adr.SEC_ROLLBACK : Nat := 0x120014
def Fld.SEC_ROLLBACK_COUNT : Field := ⟨Adr.SEC_ROLLBACK, 0, 7⟩

/-- SEC_AUDIT_POLICY (R426). -/
def Adr.SEC_AUDIT_POLICY : Nat := 0x120010
def Fld.SEC_AUDIT_POLICY_HOLD : Field := ⟨Adr.SEC_AUDIT_POLICY, 16, 1⟩
def Fld.SEC_AUDIT_POLICY_AGG_S : Field := ⟨Adr.SEC_AUDIT_POLICY, 0, 16⟩

/-- SEC_CNT (R427). -/
def Adr.SEC_CNT (n : Nat) : Nat := 0x120100 + 0x4 * n
def Fld.SEC_CNT_COUNT (n : Nat) : Field := ⟨Adr.SEC_CNT n, 0, 32⟩

/-- UPD_STATUS (R427). -/
def Adr.UPD_STATUS : Nat := 0x150000
def Fld.UPD_STATUS_RUNNING_SLOT : Field := ⟨Adr.UPD_STATUS, 16, 1⟩
def Fld.UPD_STATUS_RESULT : Field := ⟨Adr.UPD_STATUS, 12, 4⟩
def Fld.UPD_STATUS_TRIAL : Field := ⟨Adr.UPD_STATUS, 11, 1⟩
def Fld.UPD_STATUS_ACTIVATING : Field := ⟨Adr.UPD_STATUS, 10, 1⟩
def Fld.UPD_STATUS_VERIFIED : Field := ⟨Adr.UPD_STATUS, 9, 1⟩
def Fld.UPD_STATUS_HOLDER_QP : Field := ⟨Adr.UPD_STATUS, 3, 6⟩
def Fld.UPD_STATUS_HOLDER : Field := ⟨Adr.UPD_STATUS, 1, 2⟩
def Fld.UPD_STATUS_LOCKED : Field := ⟨Adr.UPD_STATUS, 0, 1⟩

/-- UPD_SLOT (R427). -/
def Adr.UPD_SLOT (n : Nat) : Nat := 0x150004 + 0x4 * n
def Fld.UPD_SLOT_GEN (n : Nat) : Field := ⟨Adr.UPD_SLOT n, 16, 16⟩
def Fld.UPD_SLOT_MAJOR (n : Nat) : Field := ⟨Adr.UPD_SLOT n, 8, 8⟩
def Fld.UPD_SLOT_TRIES (n : Nat) : Field := ⟨Adr.UPD_SLOT n, 2, 2⟩
def Fld.UPD_SLOT_STATE (n : Nat) : Field := ⟨Adr.UPD_SLOT n, 0, 2⟩

/-- UPD_CONFIRM (R427). -/
def Adr.UPD_CONFIRM : Nat := 0x15000c
def Fld.UPD_CONFIRM_AUTO : Field := ⟨Adr.UPD_CONFIRM, 16, 1⟩
def Fld.UPD_CONFIRM_CLEAN_MIN : Field := ⟨Adr.UPD_CONFIRM, 0, 11⟩

/-- SVC_CFG (R427). -/
def Adr.SVC_CFG : Nat := 0x150010
def Fld.SVC_CFG_CNT_CLR : Field := ⟨Adr.SVC_CFG, 4, 1⟩
def Fld.SVC_CFG_ROLE : Field := ⟨Adr.SVC_CFG, 2, 2⟩
def Fld.SVC_CFG_SESSION : Field := ⟨Adr.SVC_CFG, 1, 1⟩
def Fld.SVC_CFG_UART : Field := ⟨Adr.SVC_CFG, 0, 1⟩

/-! ## Chapter 15: addresses and fields -/

/-- RST_CAUSE (R447). -/
def Adr.RST_CAUSE : Nat := 0x10000
def Fld.RST_CAUSE_WAKE : Field := ⟨Adr.RST_CAUSE, 6, 1⟩
def Fld.RST_CAUSE_RECOVERY : Field := ⟨Adr.RST_CAUSE, 5, 1⟩
def Fld.RST_CAUSE_SERVICE : Field := ⟨Adr.RST_CAUSE, 4, 1⟩
def Fld.RST_CAUSE_REF_LOSS : Field := ⟨Adr.RST_CAUSE, 3, 1⟩
def Fld.RST_CAUSE_BROWNOUT : Field := ⟨Adr.RST_CAUSE, 2, 1⟩
def Fld.RST_CAUSE_PIN : Field := ⟨Adr.RST_CAUSE, 1, 1⟩
def Fld.RST_CAUSE_POWER_ON : Field := ⟨Adr.RST_CAUSE, 0, 1⟩

/-- BOOT_STATUS (R447). -/
def Adr.BOOT_STATUS : Nat := 0x10004
def Fld.BOOT_STATUS_ELAPSED_MS : Field := ⟨Adr.BOOT_STATUS, 16, 16⟩
def Fld.BOOT_STATUS_STRAP_SVC_CLK : Field := ⟨Adr.BOOT_STATUS, 11, 1⟩
def Fld.BOOT_STATUS_STRAP_KD_SEL : Field := ⟨Adr.BOOT_STATUS, 10, 1⟩
def Fld.BOOT_STATUS_STRAP_RECOVERY : Field := ⟨Adr.BOOT_STATUS, 9, 1⟩
def Fld.BOOT_STATUS_EXT_BIST : Field := ⟨Adr.BOOT_STATUS, 8, 1⟩
def Fld.BOOT_STATUS_SLOT_FALLBACK : Field := ⟨Adr.BOOT_STATUS, 7, 1⟩
def Fld.BOOT_STATUS_RECOVERY_ROM : Field := ⟨Adr.BOOT_STATUS, 6, 1⟩
def Fld.BOOT_STATUS_NO_DRAM : Field := ⟨Adr.BOOT_STATUS, 5, 1⟩
def Fld.BOOT_STATUS_NO_START : Field := ⟨Adr.BOOT_STATUS, 4, 1⟩
def Fld.BOOT_STATUS_STEP : Field := ⟨Adr.BOOT_STATUS, 0, 4⟩

/-- CLK_STATUS (R447). -/
def Adr.CLK_STATUS : Nat := 0x10008
def Fld.CLK_STATUS_SWITCHED : Field := ⟨Adr.CLK_STATUS, 4, 1⟩
def Fld.CLK_STATUS_RETIRED : Field := ⟨Adr.CLK_STATUS, 3, 1⟩
def Fld.CLK_STATUS_LOCK1 : Field := ⟨Adr.CLK_STATUS, 2, 1⟩
def Fld.CLK_STATUS_LOCK0 : Field := ⟨Adr.CLK_STATUS, 1, 1⟩
def Fld.CLK_STATUS_ACTIVE : Field := ⟨Adr.CLK_STATUS, 0, 1⟩

/-- PWR_STATUS (R447). -/
def Adr.PWR_STATUS : Nat := 0x1000c
def Fld.PWR_STATUS_PD_REFUSED : Field := ⟨Adr.PWR_STATUS, 7, 1⟩
def Fld.PWR_STATUS_LAST_REFUSED : Field := ⟨Adr.PWR_STATUS, 0, 7⟩

/-- PWR_ON (R447). -/
def Adr.PWR_ON (n : Nat) : Nat := 0x10010 + 0x4 * n
def Fld.PWR_ON_PD (n : Nat) : Field := ⟨Adr.PWR_ON n, 0, 32⟩

/-- PWR_REQ (R447). -/
def Adr.PWR_REQ (n : Nat) : Nat := 0x10020 + 0x4 * n
def Fld.PWR_REQ_PD (n : Nat) : Field := ⟨Adr.PWR_REQ n, 0, 32⟩

/-- PWR_CNT (R448). -/
def Adr.PWR_CNT (n : Nat) : Nat := 0x10100 + 0x4 * n
def Fld.PWR_CNT_COUNT (n : Nat) : Field := ⟨Adr.PWR_CNT n, 0, 32⟩

/-- FACET_CTRL (R448). -/
def Adr.FACET_CTRL : Nat := 0x130000
def Fld.FACET_CTRL_CNT_CLR : Field := ⟨Adr.FACET_CTRL, 17, 1⟩
def Fld.FACET_CTRL_EXT_AT_BOOT : Field := ⟨Adr.FACET_CTRL, 16, 1⟩
def Fld.FACET_CTRL_EXT_REQ : Field := ⟨Adr.FACET_CTRL, 15, 1⟩
def Fld.FACET_CTRL_PD : Field := ⟨Adr.FACET_CTRL, 8, 7⟩
def Fld.FACET_CTRL_TGT_GO : Field := ⟨Adr.FACET_CTRL, 0, 1⟩

/-- FACET_STATUS (R448). -/
def Adr.FACET_STATUS : Nat := 0x130004
def Fld.FACET_STATUS_ELAPSED_MS : Field := ⟨Adr.FACET_STATUS, 16, 16⟩
def Fld.FACET_STATUS_EXT_REFUSED : Field := ⟨Adr.FACET_STATUS, 5, 1⟩
def Fld.FACET_STATUS_ABANDONED : Field := ⟨Adr.FACET_STATUS, 4, 1⟩
def Fld.FACET_STATUS_FAIL : Field := ⟨Adr.FACET_STATUS, 3, 1⟩
def Fld.FACET_STATUS_PASS : Field := ⟨Adr.FACET_STATUS, 2, 1⟩
def Fld.FACET_STATUS_DONE : Field := ⟨Adr.FACET_STATUS, 1, 1⟩
def Fld.FACET_STATUS_BUSY : Field := ⟨Adr.FACET_STATUS, 0, 1⟩

/-- FACET_MISR_LO (R448). -/
def Adr.FACET_MISR_LO : Nat := 0x130008
def Fld.FACET_MISR_LO_VALUE : Field := ⟨Adr.FACET_MISR_LO, 0, 32⟩

/-- FACET_MISR_HI (R448). -/
def Adr.FACET_MISR_HI : Nat := 0x13000c
def Fld.FACET_MISR_HI_VALUE : Field := ⟨Adr.FACET_MISR_HI, 0, 32⟩

/-- FACET_FAIL (R448). -/
def Adr.FACET_FAIL (n : Nat) : Nat := 0x130010 + 0x4 * n
def Fld.FACET_FAIL_VALUE (n : Nat) : Field := ⟨Adr.FACET_FAIL n, 0, 32⟩

/-- MON_THERM (R448). -/
def Adr.MON_THERM : Nat := 0x161000
def Fld.MON_THERM_TRIP : Field := ⟨Adr.MON_THERM, 31, 1⟩
def Fld.MON_THERM_FLOOR : Field := ⟨Adr.MON_THERM, 30, 1⟩
def Fld.MON_THERM_GOV_STEP : Field := ⟨Adr.MON_THERM, 24, 4⟩
def Fld.MON_THERM_TJ : Field := ⟨Adr.MON_THERM, 0, 16⟩

/-- MON_SENSOR (R448). -/
def Adr.MON_SENSOR (n : Nat) : Nat := 0x161040 + 0x4 * n
def Fld.MON_SENSOR_TEMP (n : Nat) : Field := ⟨Adr.MON_SENSOR n, 0, 16⟩

/-! ## Chapter 16: addresses and fields -/

/-- RING_CTRL (R474). -/
def Adr.RING_CTRL : Nat := 0x140000
def Fld.RING_CTRL_TX_PUSH : Field := ⟨Adr.RING_CTRL, 4, 1⟩
def Fld.RING_CTRL_RX_POP : Field := ⟨Adr.RING_CTRL, 3, 1⟩
def Fld.RING_CTRL_CNT_CLR : Field := ⟨Adr.RING_CTRL, 2, 1⟩
def Fld.RING_CTRL_FORCE_BYPASS : Field := ⟨Adr.RING_CTRL, 0, 1⟩

/-- RING_STATUS (R474). -/
def Adr.RING_STATUS : Nat := 0x140004
def Fld.RING_STATUS_POSITION : Field := ⟨Adr.RING_STATUS, 24, 8⟩
def Fld.RING_STATUS_RX_COUNT : Field := ⟨Adr.RING_STATUS, 8, 5⟩
def Fld.RING_STATUS_TX_FULL : Field := ⟨Adr.RING_STATUS, 7, 1⟩
def Fld.RING_STATUS_RX_LOST : Field := ⟨Adr.RING_STATUS, 6, 1⟩
def Fld.RING_STATUS_CRC_ERR : Field := ⟨Adr.RING_STATUS, 5, 1⟩
def Fld.RING_STATUS_SYNC_LOST : Field := ⟨Adr.RING_STATUS, 4, 1⟩
def Fld.RING_STATUS_MASTER_SEEN : Field := ⟨Adr.RING_STATUS, 3, 1⟩
def Fld.RING_STATUS_SYNC : Field := ⟨Adr.RING_STATUS, 2, 1⟩
def Fld.RING_STATUS_TX_ON : Field := ⟨Adr.RING_STATUS, 1, 1⟩
def Fld.RING_STATUS_BYPASS : Field := ⟨Adr.RING_STATUS, 0, 1⟩

/-- RING_RX_WIN (R474). -/
def Adr.RING_RX_WIN (n : Nat) : Nat := 0x140100 + 0x4 * n
def Fld.RING_RX_WIN_DATA (n : Nat) : Field := ⟨Adr.RING_RX_WIN n, 0, 32⟩

/-- RING_TX_WIN (R474). -/
def Adr.RING_TX_WIN (n : Nat) : Nat := 0x140200 + 0x4 * n
def Fld.RING_TX_WIN_DATA (n : Nat) : Field := ⟨Adr.RING_TX_WIN n, 0, 32⟩

/-- RING_CNT (R475). -/
def Adr.RING_CNT (n : Nat) : Nat := 0x140400 + 0x4 * n
def Fld.RING_CNT_COUNT (n : Nat) : Field := ⟨Adr.RING_CNT n, 0, 32⟩

/-- ID_DEVICE -/
def Def.ID_DEVICE : RegDef :=
  ⟨0x0, 1, 0x4, 1, 0x4,
   [⟨16, 16, .ro, fun _ _ => 0x7216, none⟩, ⟨12, 4, .ro, fun _ _ => 0x1, none⟩, ⟨10, 2, .ro, fun _ _ => 0x0, none⟩, ⟨8, 2, .ro, fun _ _ => 0x3, none⟩, ⟨0, 8, .ro, fun _ _ => 0x10, none⟩]⟩

/-- LOCUS_CTRL -/
def Def.LOCUS_CTRL : RegDef :=
  ⟨0x160000, 1, 0x4, 1, 0x4,
   [⟨0, 1, .rwl, fun _ _ => 0x1, none⟩]⟩

/-- LOCUS_STATUS -/
def Def.LOCUS_STATUS : RegDef :=
  ⟨0x160004, 1, 0x4, 1, 0x4,
   [⟨3, 1, .w1c, fun _ _ => 0x0, none⟩, ⟨2, 1, .w1c, fun _ _ => 0x0, none⟩, ⟨1, 1, .ro, fun _ _ => 0x0, none⟩, ⟨0, 1, .ro, fun _ _ => 0x0, none⟩]⟩

/-- LOCUS_NOW_LO -/
def Def.LOCUS_NOW_LO : RegDef :=
  ⟨0x160008, 1, 0x4, 1, 0x4,
   [⟨0, 32, .ro, fun _ _ => 0x0, none⟩]⟩

/-- LOCUS_NOW_HI -/
def Def.LOCUS_NOW_HI : RegDef :=
  ⟨0x16000c, 1, 0x4, 1, 0x4,
   [⟨0, 16, .ro, fun _ _ => 0x0, none⟩]⟩

/-- LOCUS_RING_OFFSET -/
def Def.LOCUS_RING_OFFSET : RegDef :=
  ⟨0x160010, 1, 0x4, 1, 0x4,
   [⟨0, 32, .ro, fun _ _ => 0x0, none⟩]⟩

/-- CHN_CTRL -/
def Def.CHN_CTRL : RegDef :=
  ⟨0x20000, 20, 0x1000, 1, 0x4,
   [⟨9, 1, .wo, fun _ _ => 0x0, none⟩, ⟨8, 1, .wo, fun _ _ => 0x0, none⟩, ⟨4, 4, .rw, fun n _ => n % 10, none⟩, ⟨0, 2, .rw, fun _ _ => 0x0, none⟩]⟩

/-- CHN_STATUS -/
def Def.CHN_STATUS : RegDef :=
  ⟨0x20004, 20, 0x1000, 1, 0x4,
   [⟨11, 1, .ro, fun _ _ => 0x0, none⟩, ⟨10, 1, .w1c, fun _ _ => 0x0, none⟩, ⟨9, 1, .w1c, fun _ _ => 0x0, none⟩, ⟨8, 1, .w1c, fun _ _ => 0x0, none⟩, ⟨7, 1, .w1c, fun _ _ => 0x0, none⟩, ⟨6, 1, .w1c, fun _ _ => 0x0, none⟩, ⟨5, 1, .w1c, fun _ _ => 0x0, none⟩, ⟨4, 1, .w1c, fun _ _ => 0x0, none⟩, ⟨3, 1, .w1c, fun _ _ => 0x0, none⟩, ⟨2, 1, .ro, fun _ _ => 0x0, none⟩, ⟨1, 1, .ro, fun _ _ => 0x0, none⟩, ⟨0, 1, .ro, fun _ _ => 0x0, none⟩]⟩

/-- CHN_AGC_CFG -/
def Def.CHN_AGC_CFG : RegDef :=
  ⟨0x20008, 20, 0x1000, 1, 0x4,
   [⟨15, 1, .rw, fun _ _ => 0x0, none⟩, ⟨8, 7, .rw, fun _ _ => 0x20, some (8, 56)⟩, ⟨0, 4, .rw, fun _ _ => 0x4, some (2, 7)⟩]⟩

/-- CHN_CTF_CFG -/
def Def.CHN_CTF_CFG : RegDef :=
  ⟨0x2000c, 20, 0x1000, 1, 0x4,
   [⟨8, 5, .rw, fun _ _ => 0xc, some (0, 24)⟩, ⟨0, 6, .rw, fun _ _ => 0x24, some (16, 60)⟩]⟩

/-- CHN_FIR_CFG -/
def Def.CHN_FIR_CFG : RegDef :=
  ⟨0x20010, 20, 0x1000, 1, 0x4,
   [⟨16, 4, .rw, fun _ _ => 0x8, some (4, 15)⟩, ⟨13, 3, .rw, fun _ _ => 0x4, none⟩, ⟨12, 1, .rw, fun _ _ => 0x1, none⟩, ⟨8, 4, .rw, fun _ _ => 0x6, none⟩, ⟨4, 4, .rw, fun _ _ => 0xa, some (8, 15)⟩, ⟨0, 4, .rw, fun _ _ => 0xc, some (8, 15)⟩]⟩

/-- CHN_TGT_CFG -/
def Def.CHN_TGT_CFG : RegDef :=
  ⟨0x20014, 20, 0x1000, 1, 0x4,
   [⟨24, 8, .rw, fun _ _ => 0x0, none⟩, ⟨16, 8, .rw, fun _ _ => 0xc, none⟩, ⟨8, 8, .rw, fun _ _ => 0x18, none⟩, ⟨0, 8, .rw, fun _ _ => 0xc, none⟩]⟩

/-- CHN_ACQ_CFG -/
def Def.CHN_ACQ_CFG : RegDef :=
  ⟨0x20018, 20, 0x1000, 1, 0x4,
   [⟨25, 7, .rw, fun _ _ => 0x8, none⟩, ⟨20, 5, .rw, fun _ _ => 0x7, none⟩, ⟨16, 4, .rw, fun _ _ => 0x2, none⟩, ⟨8, 5, .rw, fun _ _ => 0x8, none⟩, ⟨4, 4, .rw, fun _ _ => 0x2, none⟩, ⟨0, 4, .rw, fun _ _ => 0x2, none⟩]⟩

/-- CHN_TRK_CFG -/
def Def.CHN_TRK_CFG : RegDef :=
  ⟨0x2001c, 20, 0x1000, 1, 0x4,
   [⟨9, 3, .rw, fun _ _ => 0x1, none⟩, ⟨4, 5, .rw, fun _ _ => 0xb, none⟩, ⟨0, 4, .rw, fun _ _ => 0x5, none⟩]⟩

/-- CHN_SYNC_CFG -/
def Def.CHN_SYNC_CFG : RegDef :=
  ⟨0x20020, 20, 0x1000, 1, 0x4,
   [⟨16, 6, .rw, fun _ _ => 0x30, some (8, 48)⟩, ⟨12, 1, .rw, fun _ _ => 0x1, none⟩, ⟨8, 4, .rw, fun _ _ => 0xa, none⟩, ⟨4, 4, .rw, fun _ _ => 0x6, none⟩, ⟨0, 4, .rw, fun _ _ => 0x4, none⟩]⟩

/-- CHN_DEF_CFG -/
def Def.CHN_DEF_CFG : RegDef :=
  ⟨0x20024, 20, 0x1000, 1, 0x4,
   [⟨28, 4, .rw, fun _ _ => 0xa, some (6, 13)⟩, ⟨24, 4, .rw, fun _ _ => 0x4, some (1, 15)⟩, ⟨22, 2, .rw, fun _ _ => 0x1, none⟩, ⟨19, 3, .rw, fun _ _ => 0x2, none⟩, ⟨16, 3, .rw, fun _ _ => 0x2, none⟩, ⟨11, 5, .rw, fun _ _ => 0x14, none⟩, ⟨5, 6, .rw, fun _ _ => 0x30, none⟩, ⟨0, 5, .rw, fun _ _ => 0x10, none⟩]⟩

/-- CHN_DEF_CFG2 -/
def Def.CHN_DEF_CFG2 : RegDef :=
  ⟨0x20028, 20, 0x1000, 1, 0x4,
   [⟨24, 8, .rw, fun _ _ => 0x40, none⟩, ⟨16, 8, .rw, fun _ _ => 0x10, none⟩, ⟨0, 5, .rw, fun _ _ => 0x4, none⟩]⟩

/-- CHN_WEDGE_CFG -/
def Def.CHN_WEDGE_CFG : RegDef :=
  ⟨0x2002c, 20, 0x1000, 1, 0x4,
   [⟨0, 10, .rw, fun _ _ => 0x0, none⟩]⟩

/-- CHN_FREQ_NEXT -/
def Def.CHN_FREQ_NEXT : RegDef :=
  ⟨0x20038, 20, 0x1000, 1, 0x4,
   [⟨16, 5, .rw, fun _ _ => 0xc, some (0, 24)⟩, ⟨0, 16, .rw, fun _ _ => 0x0, none⟩]⟩

/-- CHN_MON -/
def Def.CHN_MON : RegDef :=
  ⟨0x20044, 20, 0x1000, 1, 0x4,
   [⟨16, 16, .ro, fun _ _ => 0x0, none⟩, ⟨0, 8, .ro, fun _ _ => 0x0, none⟩]⟩

/-- CHN_TRACK -/
def Def.CHN_TRACK : RegDef :=
  ⟨0x20048, 20, 0x1000, 1, 0x4,
   [⟨31, 1, .ro, fun _ _ => 0x0, none⟩, ⟨18, 3, .ro, fun _ _ => 0x0, none⟩, ⟨0, 18, .ro, fun _ _ => 0x0, none⟩]⟩

/-- CHN_ZONE_CUR -/
def Def.CHN_ZONE_CUR : RegDef :=
  ⟨0x20030, 20, 0x1000, 1, 0x4,
   [⟨31, 1, .ro, fun _ _ => 0x0, none⟩, ⟨30, 1, .ro, fun _ _ => 0x0, none⟩, ⟨24, 6, .ro, fun _ _ => 0x0, none⟩, ⟨16, 8, .ro, fun _ _ => 0x50, none⟩, ⟨8, 8, .ro, fun _ _ => 0x34, none⟩, ⟨0, 8, .ro, fun _ _ => 0x15, none⟩]⟩

/-- CHN_ZONE_NEXT -/
def Def.CHN_ZONE_NEXT : RegDef :=
  ⟨0x20034, 20, 0x1000, 1, 0x4,
   [⟨31, 1, .rw, fun _ _ => 0x0, none⟩, ⟨30, 1, .rw, fun _ _ => 0x0, none⟩, ⟨24, 6, .rw, fun _ _ => 0x0, some (0, 47)⟩, ⟨16, 8, .rw, fun _ _ => 0x0, none⟩, ⟨8, 8, .rw, fun _ _ => 0x0, none⟩, ⟨0, 8, .rw, fun _ _ => 0x0, none⟩]⟩

/-- CHN_SYNC_PAT_LO -/
def Def.CHN_SYNC_PAT_LO : RegDef :=
  ⟨0x2003c, 20, 0x1000, 1, 0x4,
   [⟨0, 32, .rw, fun _ _ => 0x0, none⟩]⟩

/-- CHN_SYNC_PAT_HI -/
def Def.CHN_SYNC_PAT_HI : RegDef :=
  ⟨0x20040, 20, 0x1000, 1, 0x4,
   [⟨0, 16, .rw, fun _ _ => 0x0, none⟩]⟩

/-- CHN_FIR_TAP -/
def Def.CHN_FIR_TAP : RegDef :=
  ⟨0x20080, 20, 0x1000, 16, 0x4,
   [⟨0, 10, .ro, fun _ k => if k = 6 then 0x100 else 0, none⟩]⟩

/-- CHN_FIR_SEED -/
def Def.CHN_FIR_SEED : RegDef :=
  ⟨0x200c0, 20, 0x1000, 16, 0x4,
   [⟨0, 10, .rw, fun _ k => if k = 6 then 0x100 else 0, none⟩]⟩

/-- CHN_CNT -/
def Def.CHN_CNT : RegDef :=
  ⟨0x20100, 20, 0x1000, 8, 0x4,
   [⟨0, 32, .ro, fun _ _ => 0x0, none⟩]⟩

/-- LAT_CTRL -/
def Def.LAT_CTRL : RegDef :=
  ⟨0x40000, 3, 0x1000, 1, 0x4,
   [⟨5, 1, .wo, fun _ _ => 0x0, none⟩, ⟨4, 1, .rw, fun _ _ => 0x0, none⟩, ⟨0, 2, .rw, fun _ _ => 0x0, none⟩]⟩

/-- LAT_STATUS -/
def Def.LAT_STATUS : RegDef :=
  ⟨0x40004, 3, 0x1000, 1, 0x4,
   [⟨12, 4, .ro, fun _ _ => 0x0, none⟩, ⟨4, 1, .w1c, fun _ _ => 0x0, none⟩, ⟨3, 1, .w1c, fun _ _ => 0x0, none⟩, ⟨2, 1, .w1c, fun _ _ => 0x0, none⟩, ⟨1, 1, .w1c, fun _ _ => 0x0, none⟩, ⟨0, 1, .ro, fun _ _ => 0x0, none⟩]⟩

/-- LAT_CFG -/
def Def.LAT_CFG : RegDef :=
  ⟨0x40008, 3, 0x1000, 1, 0x4,
   [⟨24, 8, .rw, fun _ _ => 0x40, none⟩, ⟨20, 4, .rw, fun _ _ => 0xa, some (6, 15)⟩, ⟨16, 4, .rw, fun _ _ => 0x8, none⟩, ⟨8, 8, .rw, fun _ _ => 0x10, none⟩, ⟨0, 8, .rw, fun _ _ => 0x4, none⟩]⟩

/-- LAT_ITI_SEED_I -/
def Def.LAT_ITI_SEED_I : RegDef :=
  ⟨0x40040, 3, 0x1000, 8, 0x8,
   [⟨16, 8, .rw, fun _ _ => 0x0, none⟩, ⟨8, 8, .rw, fun _ _ => 0x10, none⟩, ⟨0, 8, .rw, fun _ _ => 0x0, none⟩]⟩

/-- LAT_ITI_SEED_O -/
def Def.LAT_ITI_SEED_O : RegDef :=
  ⟨0x40044, 3, 0x1000, 8, 0x8,
   [⟨16, 8, .rw, fun _ _ => 0x0, none⟩, ⟨8, 8, .rw, fun _ _ => 0x10, none⟩, ⟨0, 8, .rw, fun _ _ => 0x0, none⟩]⟩

/-- LAT_ITI_I -/
def Def.LAT_ITI_I : RegDef :=
  ⟨0x40080, 3, 0x1000, 8, 0x8,
   [⟨16, 8, .ro, fun _ _ => 0x0, none⟩, ⟨8, 8, .ro, fun _ _ => 0x0, none⟩, ⟨0, 8, .ro, fun _ _ => 0x0, none⟩]⟩

/-- LAT_ITI_O -/
def Def.LAT_ITI_O : RegDef :=
  ⟨0x40084, 3, 0x1000, 8, 0x8,
   [⟨16, 8, .ro, fun _ _ => 0x0, none⟩, ⟨8, 8, .ro, fun _ _ => 0x0, none⟩, ⟨0, 8, .ro, fun _ _ => 0x0, none⟩]⟩

/-- LAT_SIGMA -/
def Def.LAT_SIGMA : RegDef :=
  ⟨0x400c0, 3, 0x1000, 8, 0x4,
   [⟨0, 16, .ro, fun _ _ => 0x0, none⟩]⟩

/-- LAT_SPILL_BASE -/
def Def.LAT_SPILL_BASE : RegDef :=
  ⟨0x48000, 2, 0x4, 1, 0x4,
   [⟨0, 22, .rw, fun _ _ => 0x0, none⟩]⟩

/-- LAT_SPARE -/
def Def.LAT_SPARE : RegDef :=
  ⟨0x48008, 1, 0x4, 1, 0x4,
   [⟨2, 1, .rw, fun _ _ => 0x1, none⟩, ⟨0, 2, .rw, fun _ _ => 0x2, none⟩]⟩

/-- DEC_CAP -/
def Def.DEC_CAP : RegDef :=
  ⟨0x50000, 1, 0x4, 1, 0x4,
   [⟨8, 8, .fw, fun _ _ => 0x20, none⟩, ⟨0, 4, .fw, fun _ _ => 0x8, none⟩]⟩

/-- DEC_INSERVICE -/
def Def.DEC_INSERVICE : RegDef :=
  ⟨0x50004, 1, 0x4, 1, 0x4,
   [⟨0, 24, .ro, fun _ _ => 0xffffff, none⟩]⟩

/-- DEC_FAULT -/
def Def.DEC_FAULT : RegDef :=
  ⟨0x50008, 1, 0x4, 1, 0x4,
   [⟨0, 24, .w1c, fun _ _ => 0x0, none⟩]⟩

/-- DEC_CTRL -/
def Def.DEC_CTRL : RegDef :=
  ⟨0x5000c, 1, 0x4, 1, 0x4,
   [⟨0, 1, .wo, fun _ _ => 0x0, none⟩]⟩

/-- DEC_POLICY -/
def Def.DEC_POLICY : RegDef :=
  ⟨0x50100, 2, 0x40, 1, 0x4,
   [⟨24, 8, .rw, fun _ _ => 0x18, some (1, 32)⟩, ⟨16, 8, .rw, fun _ _ => 0x4, some (1, 16)⟩, ⟨8, 8, .rw, fun _ _ => 0x8, some (1, 32)⟩, ⟨4, 4, .rw, fun _ _ => 0x4, some (0, 8)⟩, ⟨0, 4, .rw, fun _ _ => 0xc, some (8, 15)⟩]⟩

/-- DEC_SWEEP -/
def Def.DEC_SWEEP : RegDef :=
  ⟨0x50104, 2, 0x40, 1, 0x4,
   [⟨16, 16, .rw, fun _ _ => 0x580, none⟩, ⟨12, 4, .rw, fun _ _ => 0x4, some (1, 15)⟩, ⟨0, 6, .rw, fun _ _ => 0x10, none⟩]⟩

/-- DEC_QSTAT -/
def Def.DEC_QSTAT : RegDef :=
  ⟨0x50108, 2, 0x40, 1, 0x4,
   [⟨16, 1, .ro, fun _ _ => 0x0, none⟩, ⟨0, 9, .ro, fun _ _ => 0x0, none⟩]⟩

/-- DEC_MASK -/
def Def.DEC_MASK : RegDef :=
  ⟨0x5010c, 2, 0x40, 1, 0x4,
   [⟨0, 24, .rw, fun _ _ => 0xffffff, none⟩]⟩

/-- DEC_CNT -/
def Def.DEC_CNT : RegDef :=
  ⟨0x50120, 2, 0x40, 8, 0x4,
   [⟨0, 32, .ro, fun _ _ => 0x0, none⟩]⟩

/-- DECU_STATUS -/
def Def.DECU_STATUS : RegDef :=
  ⟨0x51000, 24, 0x100, 1, 0x4,
   [⟨8, 8, .ro, fun _ _ => 0x0, none⟩, ⟨3, 1, .ro, fun _ _ => 0x0, none⟩, ⟨2, 1, .ro, fun _ _ => 0x0, none⟩, ⟨1, 1, .w1c, fun _ _ => 0x0, none⟩, ⟨0, 1, .ro, fun _ _ => 0x0, none⟩]⟩

/-- DECU_JOB -/
def Def.DECU_JOB : RegDef :=
  ⟨0x51004, 24, 0x100, 1, 0x4,
   [⟨0, 32, .ro, fun _ _ => 0x0, none⟩]⟩

/-- STR_CTRL -/
def Def.STR_CTRL : RegDef :=
  ⟨0x58000, 2, 0x400, 1, 0x4,
   [⟨3, 1, .wo, fun _ _ => 0x0, none⟩, ⟨2, 1, .rw, fun _ _ => 0x1, none⟩, ⟨1, 1, .rw, fun _ _ => 0x1, none⟩, ⟨0, 1, .rw, fun _ _ => 0x1, none⟩]⟩

/-- STR_STATUS -/
def Def.STR_STATUS : RegDef :=
  ⟨0x58004, 2, 0x400, 1, 0x4,
   [⟨8, 8, .ro, fun _ _ => 0x0, none⟩, ⟨4, 1, .w1c, fun _ _ => 0x0, none⟩, ⟨3, 1, .w1c, fun _ _ => 0x0, none⟩, ⟨2, 1, .w1c, fun _ _ => 0x0, none⟩, ⟨1, 1, .w1c, fun _ _ => 0x0, none⟩, ⟨0, 1, .ro, fun _ _ => 0x0, none⟩]⟩

/-- STR_CNT -/
def Def.STR_CNT : RegDef :=
  ⟨0x58010, 2, 0x400, 8, 0x4,
   [⟨0, 32, .ro, fun _ _ => 0x0, none⟩]⟩

/-- WP_CTRL -/
def Def.WP_CTRL : RegDef :=
  ⟨0x60000, 2, 0x10000, 1, 0x4,
   [⟨4, 1, .wofw, fun _ _ => 0x0, none⟩, ⟨3, 1, .wo, fun _ _ => 0x0, none⟩, ⟨2, 1, .wo, fun _ _ => 0x0, none⟩, ⟨1, 1, .ro, fun _ _ => 0x0, none⟩, ⟨0, 1, .rw, fun _ _ => 0x1, none⟩]⟩

/-- WP_STATUS -/
def Def.WP_STATUS : RegDef :=
  ⟨0x60004, 2, 0x10000, 1, 0x4,
   [⟨10, 3, .ro, fun _ _ => 0x0, none⟩, ⟨9, 1, .w1c, fun _ _ => 0x0, none⟩, ⟨8, 1, .w1c, fun _ _ => 0x0, none⟩, ⟨7, 1, .w1c, fun _ _ => 0x0, none⟩, ⟨6, 1, .w1c, fun _ _ => 0x0, none⟩, ⟨5, 1, .w1c, fun _ _ => 0x0, none⟩, ⟨4, 1, .w1c, fun _ _ => 0x0, none⟩, ⟨3, 1, .ro, fun _ _ => 0x0, none⟩, ⟨2, 1, .ro, fun _ _ => 0x0, none⟩, ⟨1, 1, .ro, fun _ _ => 0x0, none⟩, ⟨0, 1, .ro, fun _ _ => 0x0, none⟩]⟩

/-- WP_INH_CFG -/
def Def.WP_INH_CFG : RegDef :=
  ⟨0x60008, 2, 0x10000, 1, 0x4,
   [⟨30, 2, .rw, fun _ _ => 0x0, some (0, 2)⟩, ⟨27, 3, .rw, fun _ _ => 0x4, some (1, 7)⟩, ⟨16, 8, .rw, fun _ _ => 0x1e, none⟩, ⟨8, 8, .rw, fun _ _ => 0x50, none⟩, ⟨0, 8, .rw, fun _ _ => 0x24, none⟩]⟩

/-- WP_LMON_CFG -/
def Def.WP_LMON_CFG : RegDef :=
  ⟨0x6000c, 2, 0x10000, 1, 0x4,
   [⟨12, 4, .rw, fun _ _ => 0x4, some (2, 15)⟩, ⟨6, 6, .rw, fun _ _ => 0x10, none⟩, ⟨0, 6, .rw, fun _ _ => 0x6, none⟩]⟩

/-- WP_OPC_CFG -/
def Def.WP_OPC_CFG : RegDef :=
  ⟨0x60010, 2, 0x10000, 1, 0x4,
   [⟨24, 8, .rw, fun _ _ => 0x14, none⟩, ⟨22, 1, .rw, fun _ _ => 0x0, none⟩, ⟨16, 6, .rw, fun _ _ => 0x10, some (1, 32)⟩, ⟨0, 11, .rw, fun _ _ => 0x0, none⟩]⟩

/-- WP_SKEW -/
def Def.WP_SKEW : RegDef :=
  ⟨0x60040, 2, 0x10000, 10, 0x4,
   [⟨0, 12, .rw, fun _ _ => 0x0, none⟩]⟩

/-- WP_OPC_START -/
def Def.WP_OPC_START : RegDef :=
  ⟨0x600c0, 2, 0x10000, 10, 0x4,
   [⟨0, 12, .rw, fun _ _ => 0x0, none⟩]⟩

/-- WP_LVL -/
def Def.WP_LVL : RegDef :=
  ⟨0x60080, 2, 0x10000, 10, 0x4,
   [⟨16, 12, .ro, fun _ _ => 0x0, none⟩, ⟨0, 12, .ro, fun _ _ => 0x0, none⟩]⟩

/-- WP_OPC -/
def Def.WP_OPC_A : RegDef :=
  ⟨0x62000, 10, 0x100, 32, 0x8,
   [⟨31, 1, .ro, fun _ _ => 0x0, none⟩, ⟨16, 8, .ro, fun _ _ => 0x0, none⟩, ⟨0, 16, .ro, fun _ _ => 0x0, none⟩]⟩

/-- WP_OPC -/
def Def.WP_OPC_B : RegDef :=
  ⟨0x72000, 10, 0x100, 32, 0x8,
   [⟨31, 1, .ro, fun _ _ => 0x0, none⟩, ⟨16, 8, .ro, fun _ _ => 0x0, none⟩, ⟨0, 16, .ro, fun _ _ => 0x0, none⟩]⟩

/-- WP_OPC_MON -/
def Def.WP_OPC_MON_A : RegDef :=
  ⟨0x62004, 10, 0x100, 32, 0x8,
   [⟨0, 12, .ro, fun _ _ => 0x0, none⟩]⟩

/-- WP_OPC_MON -/
def Def.WP_OPC_MON_B : RegDef :=
  ⟨0x72004, 10, 0x100, 32, 0x8,
   [⟨0, 12, .ro, fun _ _ => 0x0, none⟩]⟩

/-- WP_CNT -/
def Def.WP_CNT : RegDef :=
  ⟨0x60100, 2, 0x10000, 8, 0x4,
   [⟨0, 32, .ro, fun _ _ => 0x0, none⟩]⟩

/-- SRV_CTRL -/
def Def.SRV_CTRL : RegDef :=
  ⟨0xb8000, 2, 0x1000, 1, 0x4,
   [⟨3, 2, .rw, fun _ _ => 0x3, some (1, 3)⟩, ⟨2, 1, .wo, fun _ _ => 0x0, none⟩, ⟨1, 1, .rw, fun _ _ => 0x1, none⟩, ⟨0, 1, .rw, fun _ _ => 0x0, none⟩]⟩

/-- SRV_STATUS -/
def Def.SRV_STATUS : RegDef :=
  ⟨0xb8004, 2, 0x1000, 1, 0x4,
   [⟨6, 1, .w1c, fun _ _ => 0x0, none⟩, ⟨5, 1, .w1c, fun _ _ => 0x0, none⟩, ⟨4, 1, .ro, fun _ _ => 0x0, none⟩, ⟨3, 1, .ro, fun _ _ => 0x0, none⟩, ⟨2, 1, .w1c, fun _ _ => 0x0, none⟩, ⟨1, 1, .w1c, fun _ _ => 0x0, none⟩, ⟨0, 1, .ro, fun _ _ => 0x0, none⟩]⟩

/-- SRV_SHIFT -/
def Def.SRV_SHIFT : RegDef :=
  ⟨0xb8010, 2, 0x1000, 1, 0x4,
   [⟨0, 20, .ro, fun _ _ => 0x0, none⟩]⟩

/-- SRV_DEFECT -/
def Def.SRV_DEFECT : RegDef :=
  ⟨0xb8014, 2, 0x1000, 1, 0x4,
   [⟨10, 1, .ro, fun _ _ => 0x0, none⟩, ⟨0, 10, .ro, fun _ _ => 0x0, none⟩]⟩

/-- SRV_SA -/
def Def.SRV_SA : RegDef :=
  ⟨0xb8018, 2, 0x1000, 1, 0x4,
   [⟨0, 12, .rw, fun _ _ => 0x800, none⟩]⟩

/-- SRV_FAILCFG -/
def Def.SRV_FAILCFG : RegDef :=
  ⟨0xb801c, 2, 0x1000, 1, 0x4,
   [⟨8, 8, .rw, fun _ _ => 0x40, some (8, 255)⟩, ⟨0, 5, .rw, fun _ _ => 0x6, none⟩]⟩

/-- SRV_BEAM_MAP -/
def Def.SRV_BEAM_MAP : RegDef :=
  ⟨0xb8008, 2, 0x1000, 1, 0x4,
   [⟨28, 4, .rw, fun _ _ => 0x7, none⟩, ⟨24, 4, .rw, fun _ _ => 0x6, none⟩, ⟨20, 4, .rw, fun _ _ => 0x5, none⟩, ⟨16, 4, .rw, fun _ _ => 0x4, none⟩, ⟨12, 4, .rw, fun _ _ => 0x3, none⟩, ⟨8, 4, .rw, fun _ _ => 0x2, none⟩, ⟨4, 4, .rw, fun _ _ => 0x1, none⟩, ⟨0, 4, .rw, fun _ _ => 0x0, none⟩]⟩

/-- SRV_BEAM_MAP_CUR -/
def Def.SRV_BEAM_MAP_CUR : RegDef :=
  ⟨0xb800c, 2, 0x1000, 1, 0x4,
   [⟨28, 4, .ro, fun _ _ => 0x7, none⟩, ⟨24, 4, .ro, fun _ _ => 0x6, none⟩, ⟨20, 4, .ro, fun _ _ => 0x5, none⟩, ⟨16, 4, .ro, fun _ _ => 0x4, none⟩, ⟨12, 4, .ro, fun _ _ => 0x3, none⟩, ⟨8, 4, .ro, fun _ _ => 0x2, none⟩, ⟨4, 4, .ro, fun _ _ => 0x1, none⟩, ⟨0, 4, .ro, fun _ _ => 0x0, none⟩]⟩

/-- SRV_REG -/
def Def.SRV_REG : RegDef :=
  ⟨0xb8040, 2, 0x1000, 10, 0x4,
   [⟨31, 1, .w1c, fun _ _ => 0x0, none⟩, ⟨30, 1, .ro, fun _ _ => 0x0, none⟩, ⟨16, 8, .ro, fun _ _ => 0x0, none⟩, ⟨0, 16, .ro, fun _ _ => 0x0, none⟩]⟩

/-- SRV_CNT -/
def Def.SRV_CNT : RegDef :=
  ⟨0xb8100, 2, 0x1000, 8, 0x4,
   [⟨0, 32, .ro, fun _ _ => 0x0, none⟩]⟩

/-- ARC_CTRL -/
def Def.ARC_CTRL : RegDef :=
  ⟨0x80000, 8, 0x4000, 1, 0x4,
   [⟨16, 1, .wo, fun _ _ => 0x0, none⟩, ⟨14, 2, .fw, fun _ _ => 0x0, none⟩, ⟨10, 2, .fw, fun n _ => n / 2, none⟩, ⟨3, 1, .rw, fun _ _ => 0x0, none⟩, ⟨2, 1, .fw, fun _ _ => 0x0, none⟩, ⟨1, 1, .wofw, fun _ _ => 0x0, none⟩, ⟨0, 1, .fw, fun _ _ => 0x0, none⟩]⟩

/-- ARC_STATUS -/
def Def.ARC_STATUS : RegDef :=
  ⟨0x80004, 8, 0x4000, 1, 0x4,
   [⟨19, 1, .ro, fun _ _ => 0x0, none⟩, ⟨18, 1, .ro, fun _ _ => 0x0, none⟩, ⟨17, 1, .w1c, fun _ _ => 0x0, none⟩, ⟨16, 1, .w1c, fun _ _ => 0x0, none⟩, ⟨15, 1, .w1c, fun _ _ => 0x0, none⟩, ⟨14, 1, .w1c, fun _ _ => 0x0, none⟩, ⟨13, 1, .w1c, fun _ _ => 0x0, none⟩, ⟨12, 1, .w1c, fun _ _ => 0x0, none⟩, ⟨11, 1, .w1c, fun _ _ => 0x0, none⟩, ⟨10, 1, .w1c, fun _ _ => 0x0, none⟩, ⟨9, 1, .w1c, fun _ _ => 0x0, none⟩, ⟨8, 1, .w1c, fun _ _ => 0x0, none⟩, ⟨7, 1, .w1c, fun _ _ => 0x0, none⟩, ⟨3, 1, .ro, fun _ _ => 0x0, none⟩, ⟨2, 1, .ro, fun _ _ => 0x0, none⟩, ⟨1, 1, .ro, fun _ _ => 0x0, none⟩, ⟨0, 1, .ro, fun _ _ => 0x0, none⟩]⟩

/-- ARC_PERIOD -/
def Def.ARC_PERIOD : RegDef :=
  ⟨0x80008, 8, 0x4000, 1, 0x4,
   [⟨16, 8, .fw, fun _ _ => 0x1, none⟩, ⟨8, 7, .fw, fun _ _ => 0x1, none⟩, ⟨0, 2, .fw, fun _ _ => 0x0, none⟩]⟩

/-- ARC_BOUND -/
def Def.ARC_BOUND : RegDef :=
  ⟨0x8000c, 8, 0x4000, 1, 0x4,
   [⟨16, 16, .ro, fun _ _ => 0x0, none⟩, ⟨0, 16, .ro, fun _ _ => 0x0, none⟩]⟩

/-- ARC_PCNT -/
def Def.ARC_PCNT : RegDef :=
  ⟨0x80010, 8, 0x4000, 1, 0x4,
   [⟨0, 32, .ro, fun _ _ => 0x0, none⟩]⟩

/-- ARC_IMAGE -/
def Def.ARC_IMAGE : RegDef :=
  ⟨0x80014, 8, 0x4000, 1, 0x4,
   [⟨0, 32, .ro, fun _ _ => 0x0, none⟩]⟩

/-- ARC_CNT -/
def Def.ARC_CNT : RegDef :=
  ⟨0x80100, 8, 0x4000, 8, 0x4,
   [⟨0, 32, .ro, fun _ _ => 0x0, none⟩]⟩

/-- ARC_LDR_CTRL -/
def Def.ARC_LDR_CTRL : RegDef :=
  ⟨0x80800, 1, 0x4, 1, 0x4,
   [⟨12, 3, .fw, fun _ _ => 0x0, none⟩, ⟨8, 3, .fw, fun _ _ => 0x0, none⟩, ⟨4, 2, .fw, fun _ _ => 0x0, none⟩, ⟨1, 3, .fw, fun _ _ => 0x0, none⟩, ⟨0, 1, .wofw, fun _ _ => 0x0, none⟩]⟩

/-- ARC_LDR_SRC -/
def Def.ARC_LDR_SRC : RegDef :=
  ⟨0x80804, 1, 0x4, 1, 0x4,
   [⟨0, 22, .fw, fun _ _ => 0x0, none⟩]⟩

/-- ARC_LDR_STATUS -/
def Def.ARC_LDR_STATUS : RegDef :=
  ⟨0x80808, 1, 0x4, 1, 0x4,
   [⟨4, 4, .ro, fun _ _ => 0x0, none⟩, ⟨1, 1, .w1c, fun _ _ => 0x0, none⟩, ⟨0, 1, .ro, fun _ _ => 0x0, none⟩]⟩

/-- ARC_SPARE -/
def Def.ARC_SPARE : RegDef :=
  ⟨0x80814, 1, 0x4, 1, 0x4,
   [⟨4, 3, .fw, fun _ _ => 0x7, none⟩, ⟨0, 3, .fw, fun _ _ => 0x6, none⟩]⟩

/-- ARC_INSERVICE -/
def Def.ARC_INSERVICE : RegDef :=
  ⟨0x8080c, 1, 0x4, 1, 0x4,
   [⟨0, 8, .ro, fun _ _ => 0xff, none⟩]⟩

/-- ARC_FAULT -/
def Def.ARC_FAULT : RegDef :=
  ⟨0x80810, 1, 0x4, 1, 0x4,
   [⟨0, 8, .w1c, fun _ _ => 0x0, none⟩]⟩

/-- MOT_CTRL -/
def Def.MOT_CTRL : RegDef :=
  ⟨0xa0000, 1, 0x4, 1, 0x4,
   [⟨5, 1, .wo, fun _ _ => 0x0, none⟩, ⟨4, 1, .rw, fun _ _ => 0x0, none⟩, ⟨2, 1, .rw, fun _ _ => 0x0, none⟩, ⟨1, 1, .rw, fun _ _ => 0x0, none⟩, ⟨0, 1, .rw, fun _ _ => 0x0, none⟩]⟩

/-- MOT_STATUS -/
def Def.MOT_STATUS : RegDef :=
  ⟨0xa0004, 1, 0x4, 1, 0x4,
   [⟨27, 1, .arc, fun _ _ => 0x0, none⟩, ⟨26, 1, .arc, fun _ _ => 0x0, none⟩, ⟨25, 1, .arc, fun _ _ => 0x0, none⟩, ⟨24, 1, .arc, fun _ _ => 0x0, none⟩, ⟨8, 4, .ro, fun _ _ => 0x0, none⟩, ⟨7, 1, .w1c, fun _ _ => 0x0, none⟩, ⟨6, 1, .ro, fun _ _ => 0x0, none⟩, ⟨5, 1, .w1c, fun _ _ => 0x0, none⟩, ⟨4, 1, .w1c, fun _ _ => 0x0, none⟩, ⟨3, 1, .w1c, fun _ _ => 0x0, none⟩, ⟨2, 1, .w1c, fun _ _ => 0x0, none⟩, ⟨1, 1, .w1c, fun _ _ => 0x0, none⟩, ⟨0, 1, .w1c, fun _ _ => 0x0, none⟩]⟩

/-- MOT_BUS_CFG -/
def Def.MOT_BUS_CFG : RegDef :=
  ⟨0xa0008, 1, 0x4, 1, 0x4,
   [⟨20, 4, .rwl, fun _ _ => 0x5, none⟩, ⟨16, 4, .rwl, fun _ _ => 0x8, none⟩, ⟨0, 16, .rwl, fun _ _ => 0x2ee0, none⟩]⟩

/-- MOT_PWM_CFG -/
def Def.MOT_PWM_CFG : RegDef :=
  ⟨0xa000c, 1, 0x4, 1, 0x4,
   [⟨16, 12, .rwl, fun _ _ => 0xc00, none⟩, ⟨8, 8, .rwl, fun _ _ => 0x1c, none⟩, ⟨0, 8, .rwl, fun _ _ => 0x6e, none⟩]⟩

/-- MOT_BUS_MON -/
def Def.MOT_BUS_MON : RegDef :=
  ⟨0xa0010, 1, 0x4, 1, 0x4,
   [⟨16, 12, .ro, fun _ _ => 0x0, none⟩, ⟨0, 12, .ro, fun _ _ => 0x0, none⟩]⟩

/-- MOT_CNT -/
def Def.MOT_CNT : RegDef :=
  ⟨0xa0020, 8, 0x4, 1, 0x4,
   [⟨0, 32, .ro, fun _ _ => 0x0, none⟩]⟩

/-- SPN_CFG -/
def Def.SPN_CFG : RegDef :=
  ⟨0xa0100, 1, 0x4, 1, 0x4,
   [⟨24, 8, .rw, fun _ _ => 0x3c, none⟩, ⟨16, 8, .rw, fun _ _ => 0x5a, none⟩, ⟨11, 5, .rw, fun _ _ => 0xf, none⟩, ⟨5, 6, .rw, fun _ _ => 0xa, some (2, 30)⟩, ⟨0, 4, .rw, fun _ _ => 0x6, some (1, 15)⟩]⟩

/-- SPN_START_CFG -/
def Def.SPN_START_CFG : RegDef :=
  ⟨0xa0104, 1, 0x4, 1, 0x4,
   [⟨24, 4, .rw, fun _ _ => 0x8, some (1, 15)⟩, ⟨16, 8, .rw, fun _ _ => 0x40, none⟩, ⟨8, 8, .rw, fun _ _ => 0x10, none⟩, ⟨0, 8, .rw, fun _ _ => 0x28, none⟩]⟩

/-- SPN_START_CFG2 -/
def Def.SPN_START_CFG2 : RegDef :=
  ⟨0xa0108, 1, 0x4, 1, 0x4,
   [⟨16, 12, .rw, fun _ _ => 0x28, none⟩, ⟨8, 8, .rw, fun _ _ => 0x14, some (10, 255)⟩, ⟨0, 8, .rw, fun _ _ => 0x14, none⟩]⟩

/-- SPN_TARGET -/
def Def.SPN_TARGET : RegDef :=
  ⟨0xa010c, 1, 0x4, 1, 0x4,
   [⟨16, 16, .rw, fun _ _ => 0x4b0, none⟩, ⟨0, 16, .rw, fun _ _ => 0x0, none⟩]⟩

/-- SPN_SPEED -/
def Def.SPN_SPEED : RegDef :=
  ⟨0xa0110, 1, 0x4, 1, 0x4,
   [⟨31, 1, .ro, fun _ _ => 0x0, none⟩, ⟨29, 2, .ro, fun _ _ => 0x0, none⟩, ⟨0, 16, .ro, fun _ _ => 0x0, none⟩]⟩

/-- SPN_LIMIT -/
def Def.SPN_LIMIT : RegDef :=
  ⟨0xa0114, 1, 0x4, 1, 0x4,
   [⟨16, 16, .ro, fun _ _ => 0x0, none⟩, ⟨0, 16, .ro, fun _ _ => 0x0, none⟩]⟩

/-- SPN_PROBE -/
def Def.SPN_PROBE : RegDef :=
  ⟨0xa0118, 1, 0x4, 1, 0x4,
   [⟨20, 12, .ro, fun _ _ => 0x0, none⟩, ⟨16, 4, .ro, fun _ _ => 0x0, none⟩, ⟨0, 9, .ro, fun _ _ => 0x0, none⟩]⟩

/-- SLD_CTRL -/
def Def.SLD_CTRL : RegDef :=
  ⟨0xa0200, 2, 0x80, 1, 0x4,
   [⟨0, 3, .wo, fun _ _ => 0x0, none⟩]⟩

/-- SLD_STATUS -/
def Def.SLD_STATUS : RegDef :=
  ⟨0xa0204, 2, 0x80, 1, 0x4,
   [⟨14, 1, .ro, fun _ _ => 0x0, none⟩, ⟨13, 1, .ro, fun _ _ => 0x0, none⟩, ⟨12, 1, .w1c, fun _ _ => 0x0, none⟩, ⟨11, 1, .w1c, fun _ _ => 0x0, none⟩, ⟨10, 1, .w1c, fun _ _ => 0x0, none⟩, ⟨9, 1, .w1c, fun _ _ => 0x0, none⟩, ⟨8, 1, .w1c, fun _ _ => 0x0, none⟩, ⟨7, 1, .w1c, fun _ _ => 0x0, none⟩, ⟨6, 1, .ro, fun _ _ => 0x0, none⟩, ⟨5, 1, .ro, fun _ _ => 0x0, none⟩, ⟨0, 4, .ro, fun _ _ => 0x0, none⟩]⟩

/-- SLD_POS -/
def Def.SLD_POS : RegDef :=
  ⟨0xa0208, 2, 0x80, 1, 0x4,
   [⟨0, 32, .ro, fun _ _ => 0x0, none⟩]⟩

/-- SLD_TARGET -/
def Def.SLD_TARGET : RegDef :=
  ⟨0xa020c, 2, 0x80, 1, 0x4,
   [⟨0, 32, .rw, fun _ _ => 0x0, none⟩]⟩

/-- SLD_VMAX -/
def Def.SLD_VMAX : RegDef :=
  ⟨0xa0210, 2, 0x80, 1, 0x4,
   [⟨0, 32, .rw, fun _ _ => 0x0, none⟩]⟩

/-- SLD_ACC -/
def Def.SLD_ACC : RegDef :=
  ⟨0xa0214, 2, 0x80, 1, 0x4,
   [⟨0, 32, .rw, fun _ _ => 0x0, none⟩]⟩

/-- SLD_DEC -/
def Def.SLD_DEC : RegDef :=
  ⟨0xa0218, 2, 0x80, 1, 0x4,
   [⟨0, 32, .rw, fun _ _ => 0x0, none⟩]⟩

/-- SLD_VLIM_LO -/
def Def.SLD_VLIM_LO : RegDef :=
  ⟨0xa021c, 2, 0x80, 1, 0x4,
   [⟨0, 32, .rwl, fun _ _ => 0x0, none⟩]⟩

/-- SLD_VLIM_HI -/
def Def.SLD_VLIM_HI : RegDef :=
  ⟨0xa0220, 2, 0x80, 1, 0x4,
   [⟨0, 32, .rwl, fun _ _ => 0x0, none⟩]⟩

/-- SLD_HOME_POS -/
def Def.SLD_HOME_POS : RegDef :=
  ⟨0xa0224, 2, 0x80, 1, 0x4,
   [⟨0, 32, .rwl, fun _ _ => 0x0, none⟩]⟩

/-- SLD_PARK_POS -/
def Def.SLD_PARK_POS : RegDef :=
  ⟨0xa0228, 2, 0x80, 1, 0x4,
   [⟨0, 32, .rw, fun _ _ => 0x0, none⟩]⟩

/-- SLD_ORIGIN -/
def Def.SLD_ORIGIN : RegDef :=
  ⟨0xa022c, 2, 0x80, 1, 0x4,
   [⟨0, 32, .rwl, fun _ _ => 0x0, none⟩]⟩

/-- SLD_PITCH -/
def Def.SLD_PITCH : RegDef :=
  ⟨0xa0230, 2, 0x80, 1, 0x4,
   [⟨0, 32, .rwl, fun _ _ => 0x43160000, none⟩]⟩

/-- SLD_LIM_CFG -/
def Def.SLD_LIM_CFG : RegDef :=
  ⟨0xa0234, 2, 0x80, 1, 0x4,
   [⟨16, 16, .rw, fun _ _ => 0x40, none⟩, ⟨4, 1, .rw, fun _ _ => 0x0, none⟩, ⟨3, 1, .rw, fun _ _ => 0x0, none⟩, ⟨0, 3, .rw, fun _ _ => 0x3, none⟩]⟩

/-- SLD_CUR -/
def Def.SLD_CUR : RegDef :=
  ⟨0xa0238, 2, 0x80, 1, 0x4,
   [⟨24, 8, .rw, fun _ _ => 0x32, none⟩, ⟨12, 12, .rw, fun _ _ => 0x96, none⟩, ⟨0, 12, .rw, fun _ _ => 0x190, none⟩]⟩

/-- PRF_CTRL -/
def Def.PRF_CTRL : RegDef :=
  ⟨0xa0400, 6, 0x10, 1, 0x4,
   [⟨17, 1, .wo, fun _ _ => 0x0, none⟩, ⟨16, 1, .wo, fun _ _ => 0x0, none⟩, ⟨0, 10, .rw, fun _ _ => 0x0, none⟩]⟩

/-- PRF_STATUS -/
def Def.PRF_STATUS : RegDef :=
  ⟨0xa0404, 6, 0x10, 1, 0x4,
   [⟨6, 10, .ro, fun _ _ => 0x0, none⟩, ⟨2, 1, .w1c, fun _ _ => 0x0, none⟩, ⟨1, 1, .w1c, fun _ _ => 0x0, none⟩, ⟨0, 1, .ro, fun _ _ => 0x0, none⟩]⟩

/-- PRF_POS -/
def Def.PRF_POS : RegDef :=
  ⟨0xa0408, 6, 0x10, 1, 0x4,
   [⟨0, 32, .ro, fun _ _ => 0x0, none⟩]⟩

/-- SPP_CTRL -/
def Def.SPP_CTRL : RegDef :=
  ⟨0xc0000, 12, 0x1000, 1, 0x4,
   [⟨16, 1, .wo, fun _ _ => 0x0, none⟩, ⟨0, 2, .fw, fun _ _ => 0x0, none⟩]⟩

/-- SPP_STATUS -/
def Def.SPP_STATUS : RegDef :=
  ⟨0xc0004, 12, 0x1000, 1, 0x4,
   [⟨8, 8, .ro, fun _ _ => 0x0, none⟩, ⟨4, 1, .w1c, fun _ _ => 0x0, none⟩, ⟨3, 1, .w1c, fun _ _ => 0x0, none⟩, ⟨2, 1, .w1c, fun _ _ => 0x0, none⟩, ⟨1, 1, .w1c, fun _ _ => 0x0, none⟩, ⟨0, 1, .ro, fun _ _ => 0x0, none⟩]⟩

/-- SPP_CNT -/
def Def.SPP_CNT : RegDef :=
  ⟨0xc0100, 12, 0x1000, 8, 0x4,
   [⟨0, 32, .ro, fun _ _ => 0x0, none⟩]⟩

/-- SPP_INSERVICE -/
def Def.SPP_INSERVICE : RegDef :=
  ⟨0xd0000, 1, 0x4, 1, 0x4,
   [⟨0, 12, .ro, fun _ _ => 0xfff, none⟩]⟩

/-- SPP_FAULT -/
def Def.SPP_FAULT : RegDef :=
  ⟨0xd0004, 1, 0x4, 1, 0x4,
   [⟨0, 12, .w1c, fun _ _ => 0x0, none⟩]⟩

/-- SPP_SPARE -/
def Def.SPP_SPARE : RegDef :=
  ⟨0xd0008, 1, 0x4, 1, 0x4,
   [⟨12, 1, .w1c, fun _ _ => 0x0, none⟩, ⟨8, 4, .fw, fun _ _ => 0xb, none⟩, ⟨0, 4, .fw, fun _ _ => 0xa, none⟩]⟩

/-- SPP_CKPT_BASE -/
def Def.SPP_CKPT_BASE : RegDef :=
  ⟨0xd000c, 1, 0x4, 1, 0x4,
   [⟨0, 22, .fw, fun _ _ => 0x0, none⟩]⟩

/-- SPP_MBOX_BASE -/
def Def.SPP_MBOX_BASE : RegDef :=
  ⟨0xd0010, 1, 0x4, 1, 0x4,
   [⟨0, 22, .fw, fun _ _ => 0x0, none⟩]⟩

/-- SPP_USER_WIN_BASE -/
def Def.SPP_USER_WIN_BASE : RegDef :=
  ⟨0xd0014, 1, 0x4, 1, 0x4,
   [⟨0, 22, .rwl, fun _ _ => 0x0, none⟩]⟩

/-- SPP_USER_WIN_PAGES -/
def Def.SPP_USER_WIN_PAGES : RegDef :=
  ⟨0xd0018, 1, 0x4, 1, 0x4,
   [⟨0, 22, .rwl, fun _ _ => 0x0, none⟩]⟩

/-- SPP_CFG -/
def Def.SPP_CFG : RegDef :=
  ⟨0xd001c, 1, 0x4, 1, 0x4,
   [⟨8, 8, .fw, fun _ _ => 0xa, none⟩, ⟨0, 8, .fw, fun _ _ => 0xc8, none⟩]⟩

/-- SPP_TASK -/
def Def.SPP_TASK : RegDef :=
  ⟨0xd1000, 96, 0x8, 1, 0x4,
   [⟨31, 1, .ro, fun _ _ => 0x0, none⟩, ⟨30, 1, .ro, fun _ _ => 0x0, none⟩, ⟨29, 1, .w1c, fun _ _ => 0x0, none⟩, ⟨27, 2, .ro, fun _ _ => 0x0, none⟩, ⟨20, 4, .fw, fun _ _ => 0x0, none⟩, ⟨0, 20, .fw, fun _ _ => 0x0, none⟩]⟩

/-- SPP_TASK_GEN -/
def Def.SPP_TASK_GEN : RegDef :=
  ⟨0xd1004, 96, 0x8, 1, 0x4,
   [⟨0, 32, .ro, fun _ _ => 0x0, none⟩]⟩

/-- SPP_Q_BASE -/
def Def.SPP_Q_BASE : RegDef :=
  ⟨0xd2000, 127, 0x10, 1, 0x4,
   [⟨0, 22, .fw, fun _ _ => 0x0, none⟩]⟩

/-- SPP_Q_LOG2 -/
def Def.SPP_Q_LOG2 : RegDef :=
  ⟨0xd2004, 127, 0x10, 1, 0x4,
   [⟨0, 4, .fw, fun _ _ => 0x0, none⟩]⟩

/-- SPP_Q_PTR -/
def Def.SPP_Q_PTR : RegDef :=
  ⟨0xd2008, 127, 0x10, 1, 0x4,
   [⟨16, 13, .ro, fun _ _ => 0x0, none⟩, ⟨0, 13, .ro, fun _ _ => 0x0, none⟩]⟩

/-- SPP_Q_HELD -/
def Def.SPP_Q_HELD : RegDef :=
  ⟨0xd200c, 127, 0x10, 1, 0x4,
   [⟨0, 13, .ro, fun _ _ => 0x0, none⟩]⟩

/-- CACHE_CTRL -/
def Def.CACHE_CTRL : RegDef :=
  ⟨0xe0000, 1, 0x4, 1, 0x4,
   [⟨1, 1, .wo, fun _ _ => 0x0, none⟩, ⟨0, 1, .rwl, fun _ _ => 0x0, none⟩]⟩

/-- CACHE_STATUS -/
def Def.CACHE_STATUS : RegDef :=
  ⟨0xe0004, 1, 0x4, 1, 0x4,
   [⟨16, 14, .ro, fun _ _ => 0x0, none⟩, ⟨7, 1, .w1c, fun _ _ => 0x0, none⟩, ⟨6, 1, .ro, fun _ _ => 0x0, none⟩, ⟨5, 1, .w1c, fun _ _ => 0x0, none⟩, ⟨4, 1, .w1c, fun _ _ => 0x0, none⟩, ⟨3, 1, .w1c, fun _ _ => 0x0, none⟩, ⟨2, 1, .w1c, fun _ _ => 0x0, none⟩, ⟨1, 1, .ro, fun _ _ => 0x0, none⟩, ⟨0, 1, .ro, fun _ _ => 0x0, none⟩]⟩

/-- CACHE_ERR_ADDR -/
def Def.CACHE_ERR_ADDR : RegDef :=
  ⟨0xe0008, 1, 0x4, 1, 0x4,
   [⟨0, 26, .ro, fun _ _ => 0x0, none⟩]⟩

/-- CACHE_MASK -/
def Def.CACHE_MASK : RegDef :=
  ⟨0xe0100, 16, 0x4, 1, 0x4,
   [⟨16, 1, .fw, fun n _ => if n < 12 then 1 else 0, none⟩, ⟨0, 16, .fw, fun _ _ => 0xffff, none⟩]⟩

/-- CACHE_RSV -/
def Def.CACHE_RSV : RegDef :=
  ⟨0xe0200, 8, 0x4, 1, 0x4,
   [⟨31, 1, .fw, fun _ _ => 0x0, none⟩, ⟨0, 4, .fw, fun _ _ => 0x0, none⟩]⟩

/-- CACHE_SPARE -/
def Def.CACHE_SPARE : RegDef :=
  ⟨0xe0300, 8, 0x4, 1, 0x4,
   [⟨16, 6, .ro, fun _ _ => 0x0, none⟩, ⟨0, 6, .ro, fun _ _ => 0x20, none⟩]⟩

/-- CACHE_CNT -/
def Def.CACHE_CNT : RegDef :=
  ⟨0xe0400, 8, 0x4, 1, 0x4,
   [⟨0, 32, .ro, fun _ _ => 0x0, none⟩]⟩

/-- MEM_CTRL -/
def Def.MEM_CTRL : RegDef :=
  ⟨0xe1000, 1, 0x4, 1, 0x4,
   [⟨0, 1, .wo, fun _ _ => 0x0, none⟩]⟩

/-- MEM_CFG -/
def Def.MEM_CFG : RegDef :=
  ⟨0xe1004, 1, 0x4, 1, 0x4,
   [⟨8, 4, .fw, fun _ _ => 0x0, none⟩, ⟨4, 1, .ro, fun _ _ => 0x0, none⟩, ⟨0, 4, .fw, fun _ _ => 0x0, none⟩]⟩

/-- MEM_STATUS -/
def Def.MEM_STATUS : RegDef :=
  ⟨0xe1008, 1, 0x4, 1, 0x4,
   [⟨11, 1, .w1c, fun _ _ => 0x0, none⟩, ⟨10, 1, .w1c, fun _ _ => 0x0, none⟩, ⟨9, 1, .w1c, fun _ _ => 0x0, none⟩, ⟨8, 1, .w1c, fun _ _ => 0x0, none⟩, ⟨7, 1, .w1c, fun _ _ => 0x0, none⟩, ⟨6, 1, .w1c, fun _ _ => 0x0, none⟩, ⟨5, 1, .w1c, fun _ _ => 0x0, none⟩, ⟨4, 1, .w1c, fun _ _ => 0x0, none⟩, ⟨3, 1, .w1c, fun _ _ => 0x0, none⟩, ⟨2, 1, .ro, fun _ _ => 0x0, none⟩, ⟨1, 1, .ro, fun _ _ => 0x0, none⟩, ⟨0, 1, .ro, fun _ _ => 0x0, none⟩]⟩

/-- MEM_SIZE -/
def Def.MEM_SIZE : RegDef :=
  ⟨0xe100c, 1, 0x4, 1, 0x4,
   [⟨0, 22, .ro, fun _ _ => 0x0, none⟩]⟩

/-- MEM_PATROL -/
def Def.MEM_PATROL : RegDef :=
  ⟨0xe1010, 1, 0x4, 1, 0x4,
   [⟨16, 16, .rwl, fun _ _ => 0x12c, some (60, 65535)⟩]⟩

/-- MEM_PATROL_POS -/
def Def.MEM_PATROL_POS : RegDef :=
  ⟨0xe1014, 1, 0x4, 1, 0x4,
   [⟨0, 22, .ro, fun _ _ => 0x0, none⟩]⟩

/-- MEM_ERR_ADDR -/
def Def.MEM_ERR_ADDR : RegDef :=
  ⟨0xe1018, 1, 0x4, 1, 0x4,
   [⟨0, 31, .ro, fun _ _ => 0x0, none⟩]⟩

/-- MEM_ERR_KIND -/
def Def.MEM_ERR_KIND : RegDef :=
  ⟨0xe101c, 1, 0x4, 1, 0x4,
   [⟨0, 4, .ro, fun _ _ => 0x0, none⟩]⟩

/-- MEM_SPARE -/
def Def.MEM_SPARE : RegDef :=
  ⟨0xe1020, 1, 0x4, 1, 0x4,
   [⟨16, 11, .ro, fun _ _ => 0x0, none⟩, ⟨0, 11, .ro, fun _ _ => 0x400, none⟩]⟩

/-- MEM_WS -/
def Def.MEM_WS : RegDef :=
  ⟨0xe1024, 1, 0x4, 1, 0x4,
   [⟨0, 22, .fw, fun _ _ => 0x10000, none⟩]⟩

/-- MEM_CNT -/
def Def.MEM_CNT : RegDef :=
  ⟨0xe1100, 8, 0x4, 1, 0x4,
   [⟨0, 32, .ro, fun _ _ => 0x0, none⟩]⟩

/-- HQ_CTRL -/
def Def.HQ_CTRL : RegDef :=
  ⟨0x100000, 1, 0x4, 1, 0x4,
   [⟨2, 1, .wo, fun _ _ => 0x0, none⟩, ⟨1, 1, .wo, fun _ _ => 0x0, none⟩, ⟨0, 1, .rw, fun _ _ => 0x0, none⟩]⟩

/-- HQ_STATUS -/
def Def.HQ_STATUS : RegDef :=
  ⟨0x100004, 1, 0x4, 1, 0x4,
   [⟨9, 3, .ro, fun _ _ => 0x0, none⟩, ⟨8, 1, .ro, fun _ _ => 0x0, none⟩, ⟨7, 1, .ro, fun _ _ => 0x0, none⟩, ⟨6, 1, .w1c, fun _ _ => 0x0, none⟩, ⟨5, 1, .w1c, fun _ _ => 0x0, none⟩, ⟨4, 1, .w1c, fun _ _ => 0x0, none⟩, ⟨1, 1, .ro, fun _ _ => 0x0, none⟩, ⟨0, 1, .ro, fun _ _ => 0x0, none⟩]⟩

/-- HQ_LINK -/
def Def.HQ_LINK : RegDef :=
  ⟨0x100010, 1, 0x4, 1, 0x4,
   [⟨9, 1, .ro, fun _ _ => 0x0, none⟩, ⟨8, 1, .ro, fun _ _ => 0x0, none⟩, ⟨4, 4, .ro, fun _ _ => 0x0, none⟩, ⟨0, 4, .ro, fun _ _ => 0x0, none⟩]⟩

/-- HQ_CAP -/
def Def.HQ_CAP : RegDef :=
  ⟨0x100008, 1, 0x4, 1, 0x4,
   [⟨16, 11, .ro, fun _ _ => 0x400, none⟩, ⟨8, 8, .ro, fun _ _ => 0x40, none⟩, ⟨4, 4, .ro, fun _ _ => 0xa, none⟩, ⟨0, 4, .ro, fun _ _ => 0x4, none⟩]⟩

/-- HQ_INFLIGHT -/
def Def.HQ_INFLIGHT : RegDef :=
  ⟨0x10000c, 1, 0x4, 1, 0x4,
   [⟨0, 11, .ro, fun _ _ => 0x0, none⟩]⟩

/-- HQ_QP_SQ_BASE_LO -/
def Def.HQ_QP_SQ_BASE_LO : RegDef :=
  ⟨0x101000, 64, 0x20, 1, 0x4,
   [⟨12, 20, .rw, fun _ _ => 0x0, none⟩]⟩

/-- HQ_QP_CQ_BASE_LO -/
def Def.HQ_QP_CQ_BASE_LO : RegDef :=
  ⟨0x101008, 64, 0x20, 1, 0x4,
   [⟨12, 20, .rw, fun _ _ => 0x0, none⟩]⟩

/-- HQ_QP_SQ_BASE_HI -/
def Def.HQ_QP_SQ_BASE_HI : RegDef :=
  ⟨0x101004, 64, 0x20, 1, 0x4,
   [⟨0, 32, .rw, fun _ _ => 0x0, none⟩]⟩

/-- HQ_QP_CQ_BASE_HI -/
def Def.HQ_QP_CQ_BASE_HI : RegDef :=
  ⟨0x10100c, 64, 0x20, 1, 0x4,
   [⟨0, 32, .rw, fun _ _ => 0x0, none⟩]⟩

/-- HQ_QP_CFG -/
def Def.HQ_QP_CFG : RegDef :=
  ⟨0x101010, 64, 0x20, 1, 0x4,
   [⟨31, 1, .rw, fun _ _ => 0x0, none⟩, ⟨26, 2, .fw, fun _ _ => 0x1, none⟩, ⟨16, 4, .rw, fun _ _ => 0x1, none⟩, ⟨8, 4, .rw, fun _ _ => 0x0, none⟩, ⟨0, 4, .rw, fun _ _ => 0x0, none⟩]⟩

/-- HQ_QP_COAL -/
def Def.HQ_QP_COAL : RegDef :=
  ⟨0x101014, 64, 0x20, 1, 0x4,
   [⟨16, 16, .rw, fun _ _ => 0x0, none⟩, ⟨0, 10, .rw, fun _ _ => 0x0, none⟩]⟩

/-- HQ_QP_STATUS -/
def Def.HQ_QP_STATUS : RegDef :=
  ⟨0x101018, 64, 0x20, 1, 0x4,
   [⟨31, 1, .ro, fun _ _ => 0x0, none⟩, ⟨30, 1, .ro, fun _ _ => 0x0, none⟩, ⟨29, 1, .ro, fun _ _ => 0x1, none⟩, ⟨16, 10, .ro, fun _ _ => 0x0, none⟩, ⟨0, 10, .ro, fun _ _ => 0x0, none⟩]⟩

/-- HQ_CNT -/
def Def.HQ_CNT : RegDef :=
  ⟨0x100100, 8, 0x4, 1, 0x4,
   [⟨0, 32, .ro, fun _ _ => 0x0, none⟩]⟩

/-- KD_CTRL -/
def Def.KD_CTRL : RegDef :=
  ⟨0x24200, 1, 0x4, 1, 0x4,
   [⟨1, 1, .wofw, fun _ _ => 0x0, none⟩, ⟨0, 1, .wo, fun _ _ => 0x0, none⟩]⟩

/-- KD_STATUS -/
def Def.KD_STATUS : RegDef :=
  ⟨0x24204, 1, 0x4, 1, 0x4,
   [⟨8, 2, .ro, fun _ _ => 0x0, none⟩, ⟨6, 2, .ro, fun _ _ => 0x0, none⟩, ⟨5, 1, .ro, fun _ _ => 0x0, none⟩, ⟨4, 1, .ro, fun _ _ => 0x0, none⟩, ⟨3, 1, .w1c, fun _ _ => 0x0, none⟩, ⟨2, 1, .ro, fun _ _ => 0x0, none⟩, ⟨1, 1, .ro, fun _ _ => 0x0, none⟩, ⟨0, 1, .ro, fun _ _ => 0x0, none⟩]⟩

/-- KD_CNT -/
def Def.KD_CNT : RegDef :=
  ⟨0x24300, 8, 0x4, 1, 0x4,
   [⟨0, 32, .ro, fun _ _ => 0x0, none⟩]⟩

/-- SPR_POLICY -/
def Def.SPR_POLICY : RegDef :=
  ⟨0xd4000, 1, 0x4, 1, 0x4,
   [⟨16, 1, .wo, fun _ _ => 0x0, none⟩, ⟨8, 8, .rwl, fun _ _ => 0x1e, some (1, 255)⟩, ⟨0, 1, .rwl, fun _ _ => 0x0, none⟩]⟩

/-- SPR_STATUS -/
def Def.SPR_STATUS : RegDef :=
  ⟨0xd4004, 1, 0x4, 1, 0x4,
   [⟨16, 16, .ro, fun _ _ => 0x0, none⟩, ⟨0, 16, .ro, fun _ _ => 0x0, none⟩]⟩

/-- SPR_HANDOFF -/
def Def.SPR_HANDOFF : RegDef :=
  ⟨0xd4008, 1, 0x4, 1, 0x4,
   [⟨31, 1, .wofw, fun _ _ => 0x0, none⟩, ⟨30, 1, .ro, fun _ _ => 0x0, none⟩, ⟨29, 1, .w1c, fun _ _ => 0x0, none⟩, ⟨28, 1, .w1c, fun _ _ => 0x0, none⟩, ⟨16, 8, .fw, fun _ _ => 0x0, none⟩, ⟨8, 8, .fw, fun _ _ => 0x0, none⟩, ⟨0, 4, .fw, fun _ _ => 0x0, none⟩]⟩

/-- SPR_EVENTS -/
def Def.SPR_EVENTS : RegDef :=
  ⟨0xd400c, 1, 0x4, 1, 0x4,
   [⟨16, 16, .w1c, fun _ _ => 0x0, none⟩, ⟨0, 16, .w1c, fun _ _ => 0x0, none⟩]⟩

/-- SPR_OUT -/
def Def.SPR_OUT : RegDef :=
  ⟨0xd4010, 1, 0x4, 1, 0x4,
   [⟨31, 1, .fw, fun _ _ => 0x0, none⟩, ⟨30, 1, .fw, fun _ _ => 0x0, none⟩, ⟨16, 4, .fw, fun _ _ => 0x0, none⟩, ⟨8, 8, .fw, fun _ _ => 0x0, none⟩, ⟨0, 4, .fw, fun _ _ => 0x0, none⟩]⟩

/-- SPR_CLASS_CNT -/
def Def.SPR_CLASS_CNT : RegDef :=
  ⟨0xd4048, 15, 0x8, 1, 0x4,
   [⟨16, 16, .fw, fun _ _ => 0x0, none⟩, ⟨0, 16, .fw, fun _ _ => 0x0, none⟩]⟩

/-- SPR_CLASS_THR -/
def Def.SPR_CLASS_THR : RegDef :=
  ⟨0xd404c, 15, 0x8, 1, 0x4,
   [⟨16, 16, .ro, fun n _ => classRequired (n + 1), none⟩, ⟨0, 16, .rwl, fun n _ => classThreshold (n + 1), none⟩]⟩

/-- SPR_CNT -/
def Def.SPR_CNT : RegDef :=
  ⟨0xd4100, 8, 0x4, 1, 0x4,
   [⟨0, 32, .ro, fun _ _ => 0x0, none⟩]⟩

/-- SEC_STATUS -/
def Def.SEC_STATUS : RegDef :=
  ⟨0x120000, 1, 0x4, 1, 0x4,
   [⟨12, 4, .ro, fun _ _ => 0x0, none⟩, ⟨8, 4, .ro, fun _ _ => 0x0, none⟩, ⟨6, 1, .ro, fun _ _ => 0x0, none⟩, ⟨5, 1, .w1c, fun _ _ => 0x0, none⟩, ⟨4, 1, .ro, fun _ _ => 0x0, none⟩, ⟨3, 1, .w1c, fun _ _ => 0x0, none⟩, ⟨2, 1, .w1c, fun _ _ => 0x0, none⟩, ⟨1, 1, .ro, fun _ _ => 0x0, none⟩, ⟨0, 1, .ro, fun _ _ => 0x0, none⟩]⟩

/-- SEC_CTRL_ROLE -/
def Def.SEC_CTRL_ROLE : RegDef :=
  ⟨0x120004, 1, 0x4, 1, 0x4,
   [⟨16, 16, .ro, fun _ _ => 0x0, none⟩, ⟨0, 2, .ro, fun _ _ => 0x1, none⟩]⟩

/-- SEC_KEYS -/
def Def.SEC_KEYS : RegDef :=
  ⟨0x120008, 1, 0x4, 1, 0x4,
   [⟨12, 4, .ro, fun _ _ => 0x1, none⟩, ⟨8, 4, .ro, fun _ _ => 0x0, none⟩, ⟨4, 4, .ro, fun _ _ => 0x0, none⟩, ⟨0, 4, .ro, fun _ _ => 0x3, none⟩]⟩

/-- SEC_AUDIT_SEQ -/
def Def.SEC_AUDIT_SEQ : RegDef :=
  ⟨0x12000c, 1, 0x4, 1, 0x4,
   [⟨0, 32, .ro, fun _ _ => 0x0, none⟩]⟩

/-- SEC_ROLLBACK -/
def Def.SEC_ROLLBACK : RegDef :=
  ⟨0x120014, 1, 0x4, 1, 0x4,
   [⟨0, 7, .ro, fun _ _ => 0x0, none⟩]⟩

/-- SEC_AUDIT_POLICY -/
def Def.SEC_AUDIT_POLICY : RegDef :=
  ⟨0x120010, 1, 0x4, 1, 0x4,
   [⟨16, 1, .rwe, fun _ _ => 0x0, none⟩, ⟨0, 16, .rwe, fun _ _ => 0x3c, some (1, 3600)⟩]⟩

/-- SEC_CNT -/
def Def.SEC_CNT : RegDef :=
  ⟨0x120100, 8, 0x4, 1, 0x4,
   [⟨0, 32, .ro, fun _ _ => 0x0, none⟩]⟩

/-- UPD_STATUS -/
def Def.UPD_STATUS : RegDef :=
  ⟨0x150000, 1, 0x4, 1, 0x4,
   [⟨16, 1, .ro, fun _ _ => 0x0, none⟩, ⟨12, 4, .ro, fun _ _ => 0x0, none⟩, ⟨11, 1, .ro, fun _ _ => 0x0, none⟩, ⟨10, 1, .ro, fun _ _ => 0x0, none⟩, ⟨9, 1, .ro, fun _ _ => 0x0, none⟩, ⟨3, 6, .ro, fun _ _ => 0x0, none⟩, ⟨1, 2, .ro, fun _ _ => 0x0, none⟩, ⟨0, 1, .ro, fun _ _ => 0x0, none⟩]⟩

/-- UPD_SLOT -/
def Def.UPD_SLOT : RegDef :=
  ⟨0x150004, 2, 0x4, 1, 0x4,
   [⟨16, 16, .ro, fun _ _ => 0x0, none⟩, ⟨8, 8, .ro, fun _ _ => 0x0, none⟩, ⟨2, 2, .ro, fun _ _ => 0x0, none⟩, ⟨0, 2, .ro, fun n _ => if n = 0 then 2 else 0, none⟩]⟩

/-- UPD_CONFIRM -/
def Def.UPD_CONFIRM : RegDef :=
  ⟨0x15000c, 1, 0x4, 1, 0x4,
   [⟨16, 1, .ro, fun _ _ => 0x0, none⟩, ⟨0, 11, .ro, fun _ _ => 0x0, none⟩]⟩

/-- SVC_CFG -/
def Def.SVC_CFG : RegDef :=
  ⟨0x150010, 1, 0x4, 1, 0x4,
   [⟨4, 1, .wo, fun _ _ => 0x0, none⟩, ⟨2, 2, .ro, fun _ _ => 0x0, none⟩, ⟨1, 1, .ro, fun _ _ => 0x0, none⟩, ⟨0, 1, .ro, fun _ _ => 0x0, none⟩]⟩

/-- RST_CAUSE -/
def Def.RST_CAUSE : RegDef :=
  ⟨0x10000, 1, 0x4, 1, 0x4,
   [⟨6, 1, .w1c, fun _ _ => 0x0, none⟩, ⟨5, 1, .w1c, fun _ _ => 0x0, none⟩, ⟨4, 1, .w1c, fun _ _ => 0x0, none⟩, ⟨3, 1, .w1c, fun _ _ => 0x0, none⟩, ⟨2, 1, .w1c, fun _ _ => 0x0, none⟩, ⟨1, 1, .w1c, fun _ _ => 0x0, none⟩, ⟨0, 1, .w1c, fun _ _ => 0x1, none⟩]⟩

/-- BOOT_STATUS -/
def Def.BOOT_STATUS : RegDef :=
  ⟨0x10004, 1, 0x4, 1, 0x4,
   [⟨16, 16, .ro, fun _ _ => 0x0, none⟩, ⟨11, 1, .ro, fun _ _ => 0x0, none⟩, ⟨10, 1, .ro, fun _ _ => 0x1, none⟩, ⟨9, 1, .ro, fun _ _ => 0x1, none⟩, ⟨8, 1, .ro, fun _ _ => 0x0, none⟩, ⟨7, 1, .ro, fun _ _ => 0x0, none⟩, ⟨6, 1, .ro, fun _ _ => 0x0, none⟩, ⟨5, 1, .ro, fun _ _ => 0x0, none⟩, ⟨4, 1, .ro, fun _ _ => 0x0, none⟩, ⟨0, 4, .ro, fun _ _ => 0x1, none⟩]⟩

/-- CLK_STATUS -/
def Def.CLK_STATUS : RegDef :=
  ⟨0x10008, 1, 0x4, 1, 0x4,
   [⟨4, 1, .w1c, fun _ _ => 0x0, none⟩, ⟨3, 1, .ro, fun _ _ => 0x0, none⟩, ⟨2, 1, .ro, fun _ _ => 0x0, none⟩, ⟨1, 1, .ro, fun _ _ => 0x0, none⟩, ⟨0, 1, .ro, fun _ _ => 0x0, none⟩]⟩

/-- PWR_STATUS -/
def Def.PWR_STATUS : RegDef :=
  ⟨0x1000c, 1, 0x4, 1, 0x4,
   [⟨7, 1, .w1c, fun _ _ => 0x0, none⟩, ⟨0, 7, .ro, fun _ _ => 0x0, none⟩]⟩

/-- PWR_ON -/
def Def.PWR_ON : RegDef :=
  ⟨0x10010, 3, 0x4, 1, 0x4,
   [⟨0, 32, .ro, fun _ _ => 0x0, none⟩]⟩

/-- PWR_REQ -/
def Def.PWR_REQ : RegDef :=
  ⟨0x10020, 3, 0x4, 1, 0x4,
   [⟨0, 32, .fw, fun _ _ => 0x0, none⟩]⟩

/-- PWR_CNT -/
def Def.PWR_CNT : RegDef :=
  ⟨0x10100, 8, 0x4, 1, 0x4,
   [⟨0, 32, .ro, fun _ _ => 0x0, none⟩]⟩

/-- FACET_CTRL -/
def Def.FACET_CTRL : RegDef :=
  ⟨0x130000, 1, 0x4, 1, 0x4,
   [⟨17, 1, .wo, fun _ _ => 0x0, none⟩, ⟨16, 1, .rwl, fun _ _ => 0x0, none⟩, ⟨15, 1, .rwl, fun _ _ => 0x0, none⟩, ⟨8, 7, .fw, fun _ _ => 0x0, none⟩, ⟨0, 1, .wofw, fun _ _ => 0x0, none⟩]⟩

/-- FACET_STATUS -/
def Def.FACET_STATUS : RegDef :=
  ⟨0x130004, 1, 0x4, 1, 0x4,
   [⟨16, 16, .ro, fun _ _ => 0x0, none⟩, ⟨5, 1, .w1c, fun _ _ => 0x0, none⟩, ⟨4, 1, .w1c, fun _ _ => 0x0, none⟩, ⟨3, 1, .w1c, fun _ _ => 0x0, none⟩, ⟨2, 1, .w1c, fun _ _ => 0x0, none⟩, ⟨1, 1, .w1c, fun _ _ => 0x0, none⟩, ⟨0, 1, .ro, fun _ _ => 0x0, none⟩]⟩

/-- FACET_MISR_LO -/
def Def.FACET_MISR_LO : RegDef :=
  ⟨0x130008, 1, 0x4, 1, 0x4,
   [⟨0, 32, .ro, fun _ _ => 0x0, none⟩]⟩

/-- FACET_MISR_HI -/
def Def.FACET_MISR_HI : RegDef :=
  ⟨0x13000c, 1, 0x4, 1, 0x4,
   [⟨0, 32, .ro, fun _ _ => 0x0, none⟩]⟩

/-- FACET_FAIL -/
def Def.FACET_FAIL : RegDef :=
  ⟨0x130010, 3, 0x4, 1, 0x4,
   [⟨0, 32, .ro, fun _ _ => 0x0, none⟩]⟩

/-- MON_THERM -/
def Def.MON_THERM : RegDef :=
  ⟨0x161000, 1, 0x4, 1, 0x4,
   [⟨31, 1, .w1c, fun _ _ => 0x0, none⟩, ⟨30, 1, .ro, fun _ _ => 0x0, none⟩, ⟨24, 4, .fw, fun _ _ => 0x0, none⟩, ⟨0, 16, .ro, fun _ _ => 0x0, none⟩]⟩

/-- MON_SENSOR -/
def Def.MON_SENSOR : RegDef :=
  ⟨0x161040, 12, 0x4, 1, 0x4,
   [⟨0, 16, .ro, fun _ _ => 0x0, none⟩]⟩

/-- RING_CTRL -/
def Def.RING_CTRL : RegDef :=
  ⟨0x140000, 1, 0x4, 1, 0x4,
   [⟨4, 1, .wofw, fun _ _ => 0x0, none⟩, ⟨3, 1, .wofw, fun _ _ => 0x0, none⟩, ⟨2, 1, .wo, fun _ _ => 0x0, none⟩, ⟨0, 1, .rwl, fun _ _ => 0x0, none⟩]⟩

/-- RING_STATUS -/
def Def.RING_STATUS : RegDef :=
  ⟨0x140004, 1, 0x4, 1, 0x4,
   [⟨24, 8, .ro, fun _ _ => 0x0, none⟩, ⟨8, 5, .ro, fun _ _ => 0x0, none⟩, ⟨7, 1, .ro, fun _ _ => 0x0, none⟩, ⟨6, 1, .w1c, fun _ _ => 0x0, none⟩, ⟨5, 1, .w1c, fun _ _ => 0x0, none⟩, ⟨4, 1, .w1c, fun _ _ => 0x0, none⟩, ⟨3, 1, .ro, fun _ _ => 0x0, none⟩, ⟨2, 1, .ro, fun _ _ => 0x0, none⟩, ⟨1, 1, .ro, fun _ _ => 0x0, none⟩, ⟨0, 1, .ro, fun _ _ => 0x1, none⟩]⟩

/-- RING_RX_WIN -/
def Def.RING_RX_WIN : RegDef :=
  ⟨0x140100, 16, 0x4, 1, 0x4,
   [⟨0, 32, .ro, fun _ _ => 0x0, none⟩]⟩

/-- RING_TX_WIN -/
def Def.RING_TX_WIN : RegDef :=
  ⟨0x140200, 16, 0x4, 1, 0x4,
   [⟨0, 32, .fw, fun _ _ => 0x0, none⟩]⟩

/-- RING_CNT -/
def Def.RING_CNT : RegDef :=
  ⟨0x140400, 8, 0x4, 1, 0x4,
   [⟨0, 32, .ro, fun _ _ => 0x0, none⟩]⟩

def regTable00 : List RegDef :=
  [Def.ID_DEVICE]

def regTable01 : List RegDef :=
  [Def.LOCUS_CTRL,
   Def.LOCUS_STATUS,
   Def.LOCUS_NOW_LO,
   Def.LOCUS_NOW_HI,
   Def.LOCUS_RING_OFFSET]

def regTable03 : List RegDef :=
  [Def.CHN_CTRL,
   Def.CHN_STATUS,
   Def.CHN_AGC_CFG,
   Def.CHN_CTF_CFG,
   Def.CHN_FIR_CFG,
   Def.CHN_TGT_CFG,
   Def.CHN_ACQ_CFG,
   Def.CHN_TRK_CFG,
   Def.CHN_SYNC_CFG,
   Def.CHN_DEF_CFG,
   Def.CHN_DEF_CFG2,
   Def.CHN_WEDGE_CFG,
   Def.CHN_FREQ_NEXT,
   Def.CHN_MON,
   Def.CHN_TRACK,
   Def.CHN_ZONE_CUR,
   Def.CHN_ZONE_NEXT,
   Def.CHN_SYNC_PAT_LO,
   Def.CHN_SYNC_PAT_HI,
   Def.CHN_FIR_TAP,
   Def.CHN_FIR_SEED,
   Def.CHN_CNT]

def regTable04 : List RegDef :=
  [Def.LAT_CTRL,
   Def.LAT_STATUS,
   Def.LAT_CFG,
   Def.LAT_ITI_SEED_I,
   Def.LAT_ITI_SEED_O,
   Def.LAT_ITI_I,
   Def.LAT_ITI_O,
   Def.LAT_SIGMA,
   Def.LAT_SPILL_BASE,
   Def.LAT_SPARE,
   Def.DEC_CAP,
   Def.DEC_INSERVICE,
   Def.DEC_FAULT,
   Def.DEC_CTRL,
   Def.DEC_POLICY,
   Def.DEC_SWEEP,
   Def.DEC_QSTAT,
   Def.DEC_MASK,
   Def.DEC_CNT,
   Def.DECU_STATUS,
   Def.DECU_JOB,
   Def.STR_CTRL,
   Def.STR_STATUS,
   Def.STR_CNT]

def regTable05 : List RegDef :=
  [Def.WP_CTRL,
   Def.WP_STATUS,
   Def.WP_INH_CFG,
   Def.WP_LMON_CFG,
   Def.WP_OPC_CFG,
   Def.WP_SKEW,
   Def.WP_OPC_START,
   Def.WP_LVL,
   Def.WP_OPC_A,
   Def.WP_OPC_B,
   Def.WP_OPC_MON_A,
   Def.WP_OPC_MON_B,
   Def.WP_CNT]

def regTable06 : List RegDef :=
  [Def.SRV_CTRL,
   Def.SRV_STATUS,
   Def.SRV_SHIFT,
   Def.SRV_DEFECT,
   Def.SRV_SA,
   Def.SRV_FAILCFG,
   Def.SRV_BEAM_MAP,
   Def.SRV_BEAM_MAP_CUR,
   Def.SRV_REG,
   Def.SRV_CNT]

def regTable07 : List RegDef :=
  [Def.ARC_CTRL,
   Def.ARC_STATUS,
   Def.ARC_PERIOD,
   Def.ARC_BOUND,
   Def.ARC_PCNT,
   Def.ARC_IMAGE,
   Def.ARC_CNT,
   Def.ARC_LDR_CTRL,
   Def.ARC_LDR_SRC,
   Def.ARC_LDR_STATUS,
   Def.ARC_SPARE,
   Def.ARC_INSERVICE,
   Def.ARC_FAULT]

def regTable08 : List RegDef :=
  [Def.MOT_CTRL,
   Def.MOT_STATUS,
   Def.MOT_BUS_CFG,
   Def.MOT_PWM_CFG,
   Def.MOT_BUS_MON,
   Def.MOT_CNT,
   Def.SPN_CFG,
   Def.SPN_START_CFG,
   Def.SPN_START_CFG2,
   Def.SPN_TARGET,
   Def.SPN_SPEED,
   Def.SPN_LIMIT,
   Def.SPN_PROBE,
   Def.SLD_CTRL,
   Def.SLD_STATUS,
   Def.SLD_POS,
   Def.SLD_TARGET,
   Def.SLD_VMAX,
   Def.SLD_ACC,
   Def.SLD_DEC,
   Def.SLD_VLIM_LO,
   Def.SLD_VLIM_HI,
   Def.SLD_HOME_POS,
   Def.SLD_PARK_POS,
   Def.SLD_ORIGIN,
   Def.SLD_PITCH,
   Def.SLD_LIM_CFG,
   Def.SLD_CUR,
   Def.PRF_CTRL,
   Def.PRF_STATUS,
   Def.PRF_POS]

def regTable09 : List RegDef :=
  [Def.SPP_CTRL,
   Def.SPP_STATUS,
   Def.SPP_CNT,
   Def.SPP_INSERVICE,
   Def.SPP_FAULT,
   Def.SPP_SPARE,
   Def.SPP_CKPT_BASE,
   Def.SPP_MBOX_BASE,
   Def.SPP_USER_WIN_BASE,
   Def.SPP_USER_WIN_PAGES,
   Def.SPP_CFG,
   Def.SPP_TASK,
   Def.SPP_TASK_GEN,
   Def.SPP_Q_BASE,
   Def.SPP_Q_LOG2,
   Def.SPP_Q_PTR,
   Def.SPP_Q_HELD,
   Def.CACHE_CTRL,
   Def.CACHE_STATUS,
   Def.CACHE_ERR_ADDR,
   Def.CACHE_MASK,
   Def.CACHE_RSV,
   Def.CACHE_SPARE,
   Def.CACHE_CNT]

def regTable10 : List RegDef :=
  [Def.MEM_CTRL,
   Def.MEM_CFG,
   Def.MEM_STATUS,
   Def.MEM_SIZE,
   Def.MEM_PATROL,
   Def.MEM_PATROL_POS,
   Def.MEM_ERR_ADDR,
   Def.MEM_ERR_KIND,
   Def.MEM_SPARE,
   Def.MEM_WS,
   Def.MEM_CNT]

def regTable11 : List RegDef :=
  [Def.HQ_CTRL,
   Def.HQ_STATUS,
   Def.HQ_LINK,
   Def.HQ_CAP,
   Def.HQ_INFLIGHT,
   Def.HQ_QP_SQ_BASE_LO,
   Def.HQ_QP_CQ_BASE_LO,
   Def.HQ_QP_SQ_BASE_HI,
   Def.HQ_QP_CQ_BASE_HI,
   Def.HQ_QP_CFG,
   Def.HQ_QP_COAL,
   Def.HQ_QP_STATUS,
   Def.HQ_CNT]

def regTable12 : List RegDef :=
  [Def.KD_CTRL,
   Def.KD_STATUS,
   Def.KD_CNT]

def regTable13 : List RegDef :=
  [Def.SPR_POLICY,
   Def.SPR_STATUS,
   Def.SPR_HANDOFF,
   Def.SPR_EVENTS,
   Def.SPR_OUT,
   Def.SPR_CLASS_CNT,
   Def.SPR_CLASS_THR,
   Def.SPR_CNT]

def regTable14 : List RegDef :=
  [Def.SEC_STATUS,
   Def.SEC_CTRL_ROLE,
   Def.SEC_KEYS,
   Def.SEC_AUDIT_SEQ,
   Def.SEC_ROLLBACK,
   Def.SEC_AUDIT_POLICY,
   Def.SEC_CNT,
   Def.UPD_STATUS,
   Def.UPD_SLOT,
   Def.UPD_CONFIRM,
   Def.SVC_CFG]

def regTable15 : List RegDef :=
  [Def.RST_CAUSE,
   Def.BOOT_STATUS,
   Def.CLK_STATUS,
   Def.PWR_STATUS,
   Def.PWR_ON,
   Def.PWR_REQ,
   Def.PWR_CNT,
   Def.FACET_CTRL,
   Def.FACET_STATUS,
   Def.FACET_MISR_LO,
   Def.FACET_MISR_HI,
   Def.FACET_FAIL,
   Def.MON_THERM,
   Def.MON_SENSOR]

def regTable16 : List RegDef :=
  [Def.RING_CTRL,
   Def.RING_STATUS,
   Def.RING_RX_WIN,
   Def.RING_TX_WIN,
   Def.RING_CNT]

/-- Every register map of the spec (R37). -/
def regTable : List RegDef :=
  regTable00 ++ regTable01 ++ regTable03 ++ regTable04 ++ regTable05 ++ regTable06 ++ regTable07 ++ regTable08 ++ regTable09 ++ regTable10 ++ regTable11 ++ regTable12 ++ regTable13 ++ regTable14 ++ regTable15 ++ regTable16

/-- The register map that covers an offset, with its indexes. -/
def findReg : List RegDef → Nat → Option (RegDef × Nat × Nat)
  | [], _ => none
  | d :: ds, off =>
    match d.index off with
    | some (n, k) => some (d, n, k)
    | none => findReg ds off

end Sys2Proof.Machine
end

