-- ==== Sys2Proof/Machine/Tab.lean ====
section
/-! DEFINITION. A table of values by number, in one canonical form: the numbers strictly rise, and no entry holds
what its number reads as when it is not listed. Registers, memories and the arrays of units are such tables. -/

namespace Sys2Proof.Machine

/-- Values by number; a number that is not listed reads as the table's default for it. -/
abbrev Tab (α : Type) := List (Nat × α)

/-- The value at k; `d` says what an unlisted number reads as. -/
def Tab.get {α : Type} (d : Nat → α) : Tab α → Nat → α
  | [], k => d k
  | e :: t, k => if e.1 = k then e.2 else Tab.get d t k

/-- The table without the entries of k. -/
def Tab.erase {α : Type} (k : Nat) : Tab α → Tab α
  | [] => []
  | e :: t => if e.1 = k then Tab.erase k t else e :: Tab.erase k t

/-- The table with an entry put before the first larger number. -/
def Tab.place {α : Type} (k : Nat) (v : α) : Tab α → Tab α
  | [] => [(k, v)]
  | e :: t => if k < e.1 then (k, v) :: e :: t else e :: Tab.place k v t

/-- The table with v at k; a value that k reads as anyway is not listed. -/
def Tab.set {α : Type} [DecidableEq α] (d : Nat → α) (t : Tab α) (k : Nat) (v : α) : Tab α :=
  if v = d k then t.erase k else (t.erase k).place k v

/-- The table with the value at k changed by f. -/
def Tab.upd {α : Type} [DecidableEq α] (d : Nat → α) (t : Tab α) (k : Nat) (f : α → α) : Tab α :=
  Tab.set d t k (f (Tab.get d t k))

/-- The canonical form: the numbers rise from `lo` on, and no entry is what its number reads as. -/
def Tab.wfFrom {α : Type} [DecidableEq α] (d : Nat → α) : Nat → Tab α → Bool
  | _, [] => true
  | lo, e :: t => decide (lo ≤ e.1) && decide (e.2 ≠ d e.1) && Tab.wfFrom d (e.1 + 1) t

/-- The canonical form of a table. -/
def Tab.wf {α : Type} [DecidableEq α] (d : Nat → α) (t : Tab α) : Bool := Tab.wfFrom d 0 t

/-- The n values from number k on. -/
def Tab.range {α : Type} (d : Nat → α) (t : Tab α) (k n : Nat) : List α :=
  (List.range n).map fun i => Tab.get d t (k + i)

/-- The table with the values of a list at k, k + 1 and so on. -/
def Tab.write {α : Type} [DecidableEq α] (d : Nat → α) : Tab α → Nat → List α → Tab α
  | t, _, [] => t
  | t, k, v :: vs => Tab.write d (Tab.set d t k v) (k + 1) vs

end Sys2Proof.Machine
end

