-- ==== Sys2Proof/Machine/State.lean ====
section
/-! DEFINITION. The state of the block: its registers, its internal state chapter by chapter, and the queue of the
commands that wait; and the state after reset. Every table lists only what differs from reset. -/

namespace Sys2Proof.Machine

/-! ## Events and units -/

/-- An event record: its ESN, the receipt ESN of the causing command (0 for background work), its kind, the unit that
raised it, its code and the values of its detail (R26, R344). -/
structure Event where
  esn : Esn
  rcpt : Esn
  kind : EventKind
  unit : Nat
  code : Nat
  detail : List Nat
  deriving DecidableEq, Repr

/-- The states in a unit's life (R377). -/
inductive UnitState where
  | inService | draining | out | loading | testing | spare | retired | absent
  deriving DecidableEq, Repr

/-- The Locus sequencer (R27, R28, R30): the next ESN's fields; while it slews, the time of the mark as it has run on, and
whether the next interval advances TICK; the forward step that the next tick takes; the requests that wait, the last grant, the
microseconds since reset, and how often each copy disagreed (R8). -/
structure LocusSt where
  epoch : BitVec 16 := 0
  tick : BitVec 22 := 0
  order : Nat := 0
  slewTo : Option (BitVec 38) := none
  slewSkip : Bool := false
  stepTo : Option (BitVec 38) := none
  waiting : List EsnRequest := []
  granted : Option (EsnRequest × Esn) := none
  micros : Nat := 0
  disagreed : Tab Nat := []
  deriving DecidableEq, Repr

/-! ## Read channel slices (chapter 03) -/

/-- How a sync mark was accepted (R81, R82). -/
inductive SyncClass where
  | hard | soft | nominal
  deriving DecidableEq, Repr

/-- A sample in a slice's line: its data-space bit in the quadrant, the ADC code, the FIR output, and the tentative decision once
the detector has made it (R70, R71). -/
structure LineSample where
  pos : Int
  x : Int
  z : Int
  bit : Bool := false
  deriving DecidableEq, Repr

/-- What a slice holds beside its registers. Frequency and phase are in 2^-20 channel bit, the envelope reference in 2^-13 of an
envelope unit, the anchor's offset from the head's timebase in 1/8 bit. `line` holds the last samples, newest first; `vit` the path
metric and the survivor of each state of the tentative detector; `erased` and `blanks` the groups of the quadrant that carry an
erasure flag or are blank, `oldErased` and `oldBlanks` those of the quadrant before; `marks` the RESYNC_MISS and RESYNC_SLIP marks by
wedge that no fragment has taken, `syncs` the sync outcomes by slot, `births` the ESNs of fragments born by wedge and slot, each newest
first; `rejoining` the groups that a rejoin has still to run, `rejoinNext` one that is armed only for the wedge after a map commit; `freqHeld` stops fragments after FREQ_LIMIT, until
LOCKED is set with `freqOk`, after a commit or a cold acquisition brought f back; `served` the beam served up to the next wedge
field after a change of BEAM. -/
structure SliceSt where
  f : Int := 0
  phase : Int := 0
  bitMove : Int := 0
  anchor : Int := 0
  fastLeft : Nat := 0
  envRef : Nat := 0
  badRun : Nat := 0
  goodRun : Nat := 0
  servoGood : Nat := 2
  defGroups : Nat := 0
  postLeft : Nat := 0
  erased : List Nat := []
  blanks : List Nat := []
  oldErased : List Nat := []
  oldBlanks : List Nat := []
  rejoinArmed : Bool := false
  rejoinNext : Bool := false
  rejoining : Option Nat := none
  rejoinDone : Bool := false
  coldArmed : Bool := false
  coldRun : Bool := false
  missRun : Nat := 0
  markMiss : Bool := false
  marks : List (Nat × Bool × Bool) := []
  suspectRun : Nat := 0
  okRun : Nat := 0
  defectSeen : Bool := false
  freqHeld : Bool := false
  freqOk : Bool := false
  served : Option (Fin 10) := none
  missErase : Bool := false
  groupNow : Nat := 0
  address : List Byte := []
  line : List LineSample := []
  vit : List (Nat × List Bool) := []
  syncs : List (Nat × SyncClass × Int × Nat) := []
  births : List (Nat × Nat × Esn) := []
  esn : Esn := 0
  deriving DecidableEq, Repr

/-! ## The medium as the block knows it (chapter 02) -/

/-- An entry of a layer's defect map (R57). -/
structure DefectEntry where
  retired : Nat
  repl : Nat
  esn : Esn
  reason : Nat
  deriving DecidableEq, Repr

/-- A layer's record in force: whether a valid copy exists, its generation, the copy that holds it (0 A, 1 B), the
medium's identifier, and its defect map (R56, R57). -/
structure LayerRec where
  valid : Bool := false
  gen : Nat := 0
  copy : Nat := 0
  medium : Nat := 0
  defects : List DefectEntry := []
  deriving DecidableEq, Repr

/-- The medium loaded: layer records keyed 8 × side + layer; the bytes of the copies that the block has written, as 2 × (8 × side + layer) +
copy; by stripe address the WESN last laid down, and the band writes in a row
that left the stripe faulted (R149); and the channel bits that write paths recorded in each fragment, none where nothing was
recorded, keyed ((8 × side + layer) × 2^18 + track) × 2^11 + wedge (R46, R135). -/
structure MediumSt where
  present : Bool := false
  layers : Tab LayerRec := []
  records : Tab (List Byte) := []
  written : Tab Nat := []
  faults : Tab Nat := []
  frags : Tab (List (Option Bool)) := []
  deriving DecidableEq, Repr

/-! ## Detection and codes (chapter 04) -/

/-- Result of a frame job (R121). -/
structure FrameResult where
  esn : Esn
  rcpt : Esn
  status : Nat
  iters : Nat
  rounds : Nat
  shift : Int
  usc : Nat
  flagged : Nat
  flips : Nat
  j : Nat
  deriving DecidableEq, Repr

/-- Where a frame job stands: it waits for a decoder, decodes, waits for a turbo pass of its group, or sweeps. -/
inductive JobStage where
  | waiting | decoding | turbo | sweeping
  deriving DecidableEq, Repr

/-- A frame job in flight (R117) with its decoding state: stage, decoder, iterations and turbo rounds run, sweep trials
run, the policy in force at its round 0, whether it is cancelled, the flagged groups of its codeword, the channel inputs and the
decoder's words. -/
structure JobSt where
  esn : Esn
  rcpt : Esn
  parity : Bool
  noSweep : Bool
  scrub : Bool
  frame : Nat
  stripe : Nat
  j : Nat
  iterLim : Nat
  turboLim : Nat
  stage : JobStage := .waiting
  unit : Option Nat := none
  iters : Nat := 0
  rounds : Nat := 0
  trial : Nat := 0
  policy : Word := 0
  cancelled : Bool := false
  quiet : Bool := false
  capped : Bool := false
  flagged : Nat := 0
  chan0 : List Int := []
  chan : List Int := []
  dec : Option (List (List Int) × List (List (List Int))) := none
  deriving DecidableEq, Repr

/-- A fragment's record in the group store (R83, R84): its ESN and that of the job's receipt; head, beam, slice and position; wedge
index; data-space bit of its first codeword sample, codeword bits lo to hi - 1; on the first fragment sync class, offset and
distance; the RESYNC_MISS and RESYNC_SLIP marks; one erasure flag for each 32-bit data-space group from that of the first sample on;
the BLANK mark; the samples, 8 margins at each end among them. -/
structure FragSt where
  esn : Esn
  rcpt : Esn
  head : Nat
  beam : Nat
  slice : Nat
  pos : Nat
  wedge : Nat
  firstBit : Nat
  lo : Nat
  hi : Nat
  sync : Option (SyncClass × Int × Nat)
  miss : Bool
  slip : Bool
  flags : List Bool
  blank : Bool
  samples : List Int
  deriving DecidableEq, Repr

/-- A frame group held (R94, R95): its fragments, whether it is complete and round 0 has run, the outputs of round 0 for its eight
positions, the channel bits of the frames that have converged with their shift, the store's words lost by position and word, its
spill slot, and whether the head's pass over the band that brought it in is over (R118). -/
structure GroupSt where
  key : GroupKey
  frags : List FragSt := []
  complete : Bool := false
  round0 : Bool := false
  out0 : List (List Int) := []
  decided : List (Nat × Int × List Bool) := []
  lost : List (Nat × Nat) := []
  slot : Option Nat := none
  past : Bool := false
  deriving DecidableEq, Repr

/-- The store and job queue of a head: groups in the store and spilled, oldest first; jobs in dispatch order; passes that
the Active unit has still to run, each with its turbo round; the groups that finished round 0 or were evicted in the
band pass in progress; the failed unit whose takeover is pending; and whether its Shadow role is to be filled (R485). -/
structure DetHead where
  store : List GroupSt := []
  spilled : List GroupSt := []
  jobs : List JobSt := []
  passes : List (GroupKey × Nat) := []
  seen : List GroupKey := []
  failed : Option Nat := none
  taker : Option Nat := none
  handoff : Option (Nat × Nat) := none
  unshadowed : Bool := false
  deriving DecidableEq, Repr

/-- A Lattice unit beside its registers: ITI taps in 2^-11 code, eight inner and eight outer triples, variances in 2^-16
code², a reseed armed for the next group, and whether it has completed a pass in its Shadow role (R97, R101, R102, R386). -/
structure LatSt where
  inner : List (List Int) := List.replicate 8 [0, 0, 0]
  outer : List (List Int) := List.replicate 8 [0, 0, 0]
  sigma : List Nat := List.replicate 8 1048576
  reseed : Bool := false
  shadowed : Bool := false
  deriving DecidableEq, Repr

/-- An open stripe job slot (R124, R125): its descriptor, dispatch ESN, engine, the results in it with their 24-byte records by frame (R121), the frames whose jobs
are in flight, the frames that failed the identity check, whether it rebuilds or encodes, and whether its result waits for a place in the mailbox
(R262). -/
structure StripeJob where
  op : Nat
  verify : Bool
  scrub : Bool
  addr : Nat
  home : Nat
  nsid : Nat
  lba0 : Nat
  buf : Nat
  rcpt : Esn
  esn : Esn
  engine : Nat
  task : Nat
  results : List FrameResult := []
  records : Tab (List Byte) := []
  flying : List Nat := []
  misplaced : List Nat := []
  rebuilding : Bool := false
  ended : Bool := false
  reread : Bool := false
  encoded : Bool := false
  held : Bool := false
  deriving DecidableEq, Repr

/-- The detection part of the block: heads, Lattice units, and the open stripe jobs keyed 64 × head + slot. -/
structure DetectSt where
  heads : Tab DetHead := []
  lats : Tab LatSt := []
  stripes : Tab (Option StripeJob) := []
  deriving DecidableEq, Repr

/-! ## Write paths (chapter 05) -/

/-- An accepted band write (R134): its dispatch ESN, receipt ESN, task, band address and slots. -/
structure BandJob where
  esn : Esn
  rcpt : Esn
  task : Nat
  addr : Nat
  mask : BitVec 64
  deriving DecidableEq, Repr

/-- The band write in progress (R133): frames inhibited as 32 × slot + j; the data-space bit from which the gate is shut over a frame or,
at the slot past the last, over a fill, by the same key; frames left out because their position was uncovered; slots begun, slots
left untouched because their encode job closed, and slots cut by a supply failure. -/
structure BandRun where
  job : BandJob
  inhibited : List Nat := []
  shut : List (Nat × Nat) := []
  uncovered : Nat := 0
  begun : List Nat := []
  lost : List Nat := []
  cut : List Nat := []
  deriving DecidableEq, Repr

/-- Where an OPC run stands (R146): it waits for its band, is on it, writes its steps, has written them, is on the band again to read
them, and has read them. -/
inductive OpcPhase where
  | waiting | entered | writing | written | reading | done
  deriving DecidableEq, Repr

/-- An OPC run (R146): where it stands; and as 32 × beam + step the invalid steps, the sum and count of HI samples, and the bits that
disagree with the sum and count of FIR outputs; by beam the level that DAC A takes back, and the bit of the step's fragment from which its gate
is shut. -/
structure OpcRun where
  phase : OpcPhase := .waiting
  invalid : List Nat := []
  mon : Tab (Nat × Nat) := []
  res : Tab (Nat × Int × Nat) := []
  levels : Tab Nat := []
  shut : Tab Nat := []
  deriving DecidableEq, Repr

/-- A write path beside its registers: its queue and running band write, an OPC run, the guard conditions that stand (head
wide, and by beam), laser sample counts, the wedges since each beam's last valid address block, held monitor samples with
their staleness; the pulses that each beam's lane sent in the last wedge interval, as rise and fall in 1/32 bit from its first bit with
the beam's skew (R137, R142, R144); the write timebase's frequency in 2^-20 (R137); the bits of the wedge interval that have passed under the
head (log 134); beams forced off, a hardware trip that holds the gates closed, a bank swap that waits, and the copies that still run (R8, R135, R145 to R152). -/
structure WpSt where
  queue : List BandJob := []
  run : Option BandRun := none
  opc : Option OpcRun := none
  track : Bool := false
  focus : Bool := false
  silence : Bool := false
  wedge : Bool := false
  regBeams : List Nat := []
  addrBeams : List Nat := []
  addrAge : Tab Nat := []
  hiRun : Tab Nat := []
  loRun : Tab Nat := []
  hi : Tab (Nat × Bool) := []
  lo : Tab (Nat × Bool) := []
  lanes : Tab (List (Int × Int)) := []
  freq : Int := 0
  place : Nat := 0
  stuck : List Nat := []
  trip : Bool := false
  swap : Bool := false
  retiredCopy : Option (Fin 2) := none
  deriving DecidableEq, Repr

/-! ## Heads (chapters 01 and 06) -/

/-- The kinds of seek, by their reach (R166). -/
inductive SeekKind where
  | step | short | long
  deriving DecidableEq, Repr

/-- A seek in progress (R166): its target band, its kind, the consecutive valid address blocks that named the target, and the track
crossings counted with the last push-pull of the position-0 beam. -/
structure SeekSt where
  target : Nat
  kind : SeekKind := .step
  agreed : Nat := 0
  last : Option Nat := none
  crossings : Nat := 0
  pp : Int := 0
  deriving DecidableEq, Repr

/-- A loop law (R158): its integrator, the lead term with the error it last saw, its output, whether a clamp acted, and whether the
loop closes with PRESET at its next period. -/
structure LawSt where
  integ : Int := 0
  lead : Int := 0
  seen : Int := 0
  out : Int := 0
  clamped : Bool := false
  fresh : Bool := false
  deriving DecidableEq, Repr

/-- The optical loops of a head as its vendor programs hold them (R158 to R163, R170), in 2^-16 of a nanometre, millidegree or DAC code:
whether they are closed; focus with its low-pass; lens tracking with its error, the runout table and the output; by beam
the deflector laws, the deflections, and the shaped step under way with its periods left; the SHIFT word that they last saw; the tilt integrator;
the sled's target in 2^-32 µm; by beam TRIM, the registration error and the parity failures in a row; and by level DAC, 2 × beam +
DAC, the laser APC's integrators. -/
structure LoopSt where
  closed : Bool := false
  fe : Int := 0
  focus : LawSt := {}
  low : Int := 0
  lens : LawSt := {}
  lensErr : Int := 0
  rro : Tab Int := []
  track : Int := 0
  defl : Tab LawSt := []
  pos : Tab Int := []
  step : Tab (Nat × Int) := []
  shifts : Nat := 0
  tilt : Int := 0
  sled : Int := 0
  trim : Tab Int := []
  reg : Tab Int := []
  odd : Tab Nat := []
  apc : Tab Int := []
  deriving DecidableEq, Repr

/-- What a head holds beside its registers: the zone in force; captured or not, layer, band and last wedge; the wedge
source (R23); a staged beam map and whether automatic failover wrote it; samples below the dead threshold by beam; the
conversions of the last tick; the ticks counted; a slice hand-off that waits, IN and OUT; the burst
amplitudes as 4 × slice of the head + burst; the optical loops; and whether media transfer pauses for a step of the governor (R214). -/
structure HeadSt where
  zone : Word := 0x00503415
  boost : Nat := 12
  fPreset : Int := 0
  captured : Bool := false
  layer : Nat := 0
  band : Nat := 0
  wedge : Nat := 0
  seek : Option SeekSt := none
  secondary : Bool := false
  diffRun : Nat := 0
  mapNext : Option Word := none
  mapAuto : Bool := false
  deadRun : Tab Nat := []
  spd : List (BitVec 12) := []
  ticks : Nat := 0
  handoff : Option (Nat × Nat) := none
  bursts : Tab Nat := []
  loop : LoopSt := {}
  paused : Bool := false
  deriving DecidableEq, Repr


/-! ## Arc engines (chapter 07) -/

/-- What a checkpoint of an engine holds (R200): registers, predicates p2 to p7, clamp and arm bits, state memory, the
period count, PHASE and the active bank. -/
structure ArcCtx where
  regs : Tab Word := []
  preds : BitVec 8 := 0
  clamp : BitVec 8 := 0
  arm : BitVec 8 := 0
  mem : Tab Word := []
  pcnt : Nat := 0
  phase : Nat := 0
  bank : Fin 2 := 0
  deriving DecidableEq, Repr

/-- What an engine presents to the compare unit (R199). -/
inductive ArcPost where
  | emit (port : BitVec 9) (v : Word)
  | event (code : BitVec 11) (v : Word)
  deriving DecidableEq, Repr

/-- An engine: its state; the state that its bundle reads (R180); the state words of filters that have not completed, oldest first, each with its
completion cycle (R185); both coefficient banks as 2,048 × bank + word; whether the present period follows an exchange; the writes of the
period, which its signature covers; what it presented in the period; whether it idles after WAITTICK; and whether it reported a parity or
memory error in a takeover (R203). -/
structure ArcSt where
  ctx : ArcCtx := {}
  snap : ArcCtx := {}
  due : List (Nat × Nat × Word) := []
  coef : Tab Word := []
  swapped : Bool := false
  sig : List (Nat × Nat × Nat) := []
  posts : List ArcPost := []
  idle : Bool := true
  reported : Bool := false
  deriving DecidableEq, Repr

/-- A program image (R197). -/
structure ArcImage where
  bumpless : Bool
  phaseSync : Bool
  keepState : Bool
  code : List Word
  src : Nat
  mult : Nat
  bound : Nat
  prologue : Nat
  bind : Nat
  zoneHead : Nat
  phaseN : Nat
  crc : Word
  regs : Tab Word
  coef : Tab Word
  mem : Tab Word
  deriving DecidableEq, Repr

/-- A takeover (R201, R203): its spare, whether the checkpoint is loaded, whether the voting period (or the re-run of the pair alone) has begun,
whether it is the voting period of a hand-over (R204), and whether that period has shown a disagreement of its own. -/
structure ArcTakeover where
  spare : Option Nat := none
  loaded : Bool := false
  voting : Bool := false
  handover : Bool := false
  again : Bool := false
  deriving DecidableEq, Repr

/-- A record of the event FIFO (R205). -/
structure ArcRecord where
  esn : Esn
  lead : Nat
  code : Nat
  value : Word
  deriving DecidableEq, Repr

/-- A pair: its program in the image store; an admitted program that starts at the next boundary; the checkpoint; whether
a mismatch has silenced the period; the posts forwarded; an exchange and a period change that wait; the takeover or
hand-over in progress (OUT, IN and step); the input ports and accelerations as the period sees them; the FIFO and a loss to report; the
wedge status per head; and the engines of a takeover that failed, which are to be tested (R487). -/
structure ArcPairSt where
  image : Option ArcImage := none
  next : Option ArcImage := none
  ckpt : ArcCtx := {}
  quiet : Bool := false
  fwd : Nat := 0
  swapDue : Bool := false
  periodNext : Option Word := none
  takeover : Option ArcTakeover := none
  handover : Option (Nat × Nat × Nat) := none
  latched : Tab Word := []
  acc : Tab Word := []
  fifo : List ArcRecord := []
  lost : Bool := false
  wedges : Tab Nat := []
  tested : List Nat := []
  deriving DecidableEq, Repr

/-- The engines, the pairs, the output ports' values, and the loader's operation in progress. -/
structure ArcDev where
  eng : Tab ArcSt := []
  pair : Tab ArcPairSt := []
  ports : Tab Int := []
  loading : Option Nat := none
  deriving DecidableEq, Repr

/-! ## Motors (chapter 08) -/

/-- A segment copied from the segment RAM: its duration in ticks, end position, and end velocity in 1/256 unit per
tick (R232). -/
structure Segment where
  dur : Nat
  pos : Int
  vel : Int
  deriving DecidableEq, Repr

/-- A profiler channel (R231, R233): p in 1/65,536 unit, v in 1/65,536 unit per tick, its acceleration in FP32 units per
s², the segments that remain with the running one first, its tick, its start, and the index of the running segment. -/
structure PrfSt where
  p : Int := 0
  v : Int := 0
  acc : Word := 0
  segs : List Segment := []
  k : Nat := 0
  p0 : Int := 0
  v0 : Int := 0
  seg : Nat := 0
  deriving DecidableEq, Repr

/-- Steps of HOME (R243): moving out to leave the switch, backing off, moving in, coming to rest homed, or failing. -/
inductive HomeStep where
  | leave | backoff | inward | landing | failing
  deriving DecidableEq, Repr

/-- A sled beside its registers: the mode of SLD_STATUS is its motion; the step of HOME; the goal in 1/65,536 fine step;
DEC in force; whether it holds v until it brakes (R238); the speed at which braking began; whether an edge is
latched until rest (R242); the positions at raw transitions that wait for their qualification; whether TRACK's
target lies outside; where the inward travel began; whether the sled is at hold current; the current references; and the current loop of each
phase (R239). -/
structure SledSt where
  home : HomeStep := .inward
  goal : Int := 0
  dec : Nat := 0
  cruise : Bool := false
  brakeFrom : Int := 0
  ignore : Bool := false
  rawHome : Option (Bool × Int) := none
  rawFar : Option (Bool × Int) := none
  outside : Bool := false
  homeFrom : Int := 0
  hold : Bool := true
  refA : Word := 0
  refB : Word := 0
  cur : Tab LawSt := []
  deriving DecidableEq, Repr

/-- The spindle beside its registers (R210 to R230): a held start; HANDOVER for the next period of the program and for
the present one; the estimator (angle in 1/65,536 turn scaled by 2^16, T60 in CORE cycles, the last intervals, SYNCED,
missed windows, wrong crossings, six-step sector); the phase floated in a window; kicks and the doubled probe; the
chopper, the check after OV1, the bus below BRK_OFF; whether a winding short acts; phases cut by the current limit and
the time of its last event; measurements within the band; the anchored wedges of each head with their last intervals;
the speed as FP32; the time of the last OV2, and whether it leaves no restart; the 0° vector drive; whether the further start of R481 is
used; whether medium commands complete NO_MEDIUM after a second OV2; whether the last start failed with its further one, and the ESN then, so
that commands received before it complete NO_MEDIUM (R481); the CORE cycles to the next commutation of STEP6; the current limit's events; the
level of MOT_FLT_N; and the laws of the vendor program: speed, d and q currents, with id_ref and the last voltage squared. -/
structure SpindleSt where
  held : Bool := false
  handoverNext : Bool := false
  handover : Bool := false
  theta : Nat := 0
  t60 : Nat := 0
  intervals : List Nat := []
  synced : Bool := false
  missed : Nat := 0
  wrong : Nat := 0
  sector : Nat := 0
  floated : Nat := 0
  kicks : Nat := 0
  doubled : Bool := false
  chopper : Bool := false
  chopCheck : Bool := false
  busLow : Bool := true
  short : Bool := false
  cut : List Nat := []
  ocLast : Option Nat := none
  atRun : Nat := 0
  anchored : Tab Nat := []
  wedges : Tab (List Nat) := []
  speed : Word := 0
  ov2Last : Option Nat := none
  noRestart : Bool := false
  zeroVector : Bool := false
  further : Bool := false
  noMedium : Bool := false
  failed : Bool := false
  failedAt : Esn := 0
  commute : Option Nat := none
  overcurrents : Nat := 0
  faultLow : Bool := false
  laws : Tab LawSt := []
  idRef : Int := 0
  v2 : Int := 0
  deriving DecidableEq, Repr

/-- The motor block: the spindle, the sleds, the profiler channels, the last conversions by port number, the turning point of the PWM counter
(0 or 10,000), the CORE cycles that the pulse of each half-bridge about its top is high before and after it (R208, R209): U, V, W as 0 to 2, and
3 + 4h + 2q + k half-bridge k of phase q of sled h; and in CORE cycles from the last turning point, where the motor program's period began and
where the instruction that issues now stands. -/
structure MotorSt where
  spn : SpindleSt := {}
  sleds : Tab SledSt := []
  prf : Tab PrfSt := []
  conv : Tab Nat := []
  pwmTop : Bool := false
  pulses : Tab (Nat × Nat) := []
  periodAt : Nat := 0
  now : Nat := 0
  deriving DecidableEq, Repr

/-! ## Span processors (chapter 09) -/

/-- What is complete once a record has its place in a mailbox (R262): nothing more, a DMA of the task, or the stripe job of a slot as
64 × head + slot. -/
inductive MailEnd where
  | nothing
  | dma (tag : Nat)
  | stripe (slot : Nat)
  deriving DecidableEq, Repr

/-- A record that its producer holds while the mailbox is full, with the completion that it holds; without bytes, a completion that
only follows the records before it (R262, R266). -/
structure HeldMail where
  bytes : List Byte
  ends : MailEnd := .nothing
  deriving DecidableEq, Repr

/-- The mailbox of a task (R262): the ring place of its oldest entry not popped, how many it holds, how many before it are
popped and held until a checkpoint (R261), and the records that producers hold back while it is full. -/
structure MailSt where
  head : Nat := 0
  count : Nat := 0
  taken : Nat := 0
  held : List HeldMail := []
  deriving DecidableEq, Repr

/-- A popped entry that the queue manager holds for a task; a restart marks it to be returned (R261). -/
structure HeldEntry where
  queue : Nat
  task : Nat
  bytes : List Byte
  returned : Bool := false
  deriving DecidableEq, Repr

/-- A DMA in flight (R265): one that has ended is in flight until its records have their places in the mailbox (R262), and the ESN of a
CPL is granted with its entry. -/
structure DmaOp where
  task : Nat
  tag : Nat
  kind : Nat
  notify : Bool
  order : Bool
  queue : Nat
  length : Nat
  src : Nat
  dst : Nat
  rcpt : Esn
  start : Nat
  esn : Esn
  entry : List Byte := []
  retried : Bool := false
  ended : Bool := false
  deriving DecidableEq, Repr

/-- An effect in the log of a task: its number, kind, the hash of its operands and its result (R268). -/
structure EffectRec where
  num : Nat
  kind : Nat
  hash : BitVec 16
  result : DWord
  deriving DecidableEq, Repr

/-- A checkpoint that is being written: its generation, slot and bytes (R271). -/
structure CkptRun where
  gen : Nat
  slot : Nat
  bytes : List Byte
  deriving DecidableEq, Repr

/-- A task: its registers, program counter and CSRs; whether its handler runs; its effect log; a checkpoint in progress;
the WAIT that it stands in (rd and mask); the DMA and SIGNAL sources; and the next DMA tag (R249, R259, R263, R268). -/
structure TaskSt where
  regs : Tab DWord := []
  pc : Nat := 0
  timer : Nat := 0
  watch0 : Nat := 0
  watch1 : Nat := 0
  handler : Nat := 0
  epc : Nat := 0
  cause : Nat := 0
  frame : Nat := 0
  frameLen : Nat := 0
  auth : Nat := 0
  effects : Nat := 0
  inHandler : Bool := false
  log : List EffectRec := []
  ckpt : Option CkptRun := none
  waiting : Option (Nat × Nat) := none
  dmaReady : Bool := false
  signal : Bool := false
  tag : Nat := 0
  deriving DecidableEq, Repr

/-- The Span processors: mailboxes, held entries, tasks, DMAs in flight in launch order, each processor's TCM as
65,536 × processor + offset, the code store, and the instructions issued by each processor since it last counted. -/
structure SpanSt where
  mail : Tab MailSt := []
  held : List HeldEntry := []
  tasks : Tab TaskSt := []
  dmas : List DmaOp := []
  tcm : Tab Byte := []
  code : Tab Byte := []
  issued : Tab Nat := []
  deriving DecidableEq, Repr

/-! ## The shared cache (chapter 09) -/

/-- A cached line (R274, R279): its tag, valid and dirty sub-blocks, and the dirty owner: the requester of the last store that dirtied
it, and its task for a Span store (R281). -/
structure CacheLine where
  tag : Nat
  valid : BitVec 4 := 0
  dirty : BitVec 4 := 0
  owner : Nat := 0
  task : Option Nat := none
  deriving DecidableEq, Repr

/-- A frame: its line, whether it holds its partner's twin, its error count, and whether it is disabled (R279, R282). -/
structure CacheFrame where
  line : Option CacheLine := none
  twin : Bool := false
  errors : Nat := 0
  off : Bool := false
  deriving DecidableEq, Repr

/-- The cache: frames as 16 × (128 × bank + set) + way, replacement trees as 128 × bank + set, hits and misses not yet
counted, lines that a snoop took from a reserved pair, with the pair, and the frames whose words fail parity when they are next
read (R275, R277, R280, R285). -/
structure CacheSt where
  frames : Tab CacheFrame := []
  trees : Tab Nat := []
  hits : Nat := 0
  misses : Nat := 0
  snooped : List (Nat × Nat) := []
  struck : List Nat := []
  deriving DecidableEq, Repr

/-! ## Buffer memory (chapter 10) -/

/-- A page's leaky bucket: its level and its overflows (R300). -/
structure BucketSt where
  page : Nat
  level : Nat
  overflows : Nat
  deriving DecidableEq, Repr

/-- An entry of the word table (R301). -/
structure WordSt where
  word : Nat
  count : Nat
  rewritten : Bool
  deriving DecidableEq, Repr

/-- A response of the controller to a read of a word: its data, the poison mark and the VIRGIN status (R290, R295, R299). -/
structure MemResp where
  data : DWord := 0
  poison : Bool := false
  virgin : Bool := false
  deriving DecidableEq, Repr

/-- The buffer as every requester sees it through the cache and both codes: its bytes, and the poison mark of each
64-bit word (R35, R296). Beside it: pages that are no longer virgin (R298); the bits of each word and of its check byte that
stand wrong in storage, as 256 × data + check (R290); pages whose parity block is under update, oldest first (R292);
the bucket and word tables, oldest first; pages that are being copied, and the spare page of each retired page (R302);
how far the background scrub has come; and the last response. -/
structure MemSt where
  bytes : Tab Byte := []
  poison : Tab Bool := []
  touched : Tab Bool := []
  upsets : Tab Nat := []
  parity : List Nat := []
  buckets : List BucketSt := []
  words : List WordSt := []
  retiring : List Nat := []
  spare : Tab Nat := []
  scrubbed : Nat := 0
  resp : MemResp := {}
  deriving DecidableEq, Repr

/-! ## Host attachment (chapter 11) -/

/-- A status with its RESULT0 and RESULT1 (R323). -/
structure HostStatus where
  status : Nat
  result0 : Nat := 0
  result1 : Nat := 0
  deriving DecidableEq, Repr

/-- A command in flight (R316): its pair and tag, its entry, receipt ESN and role at receipt (R396), the status that its
checks gave (R324), and whether its owning task has started it (R347). -/
structure HostCmd where
  qp : Nat
  tag : Nat
  entry : List Byte
  rcpt : Esn
  role : Nat
  verdict : Option HostStatus := none
  started : Bool := false
  deriving DecidableEq, Repr

/-- A completion that its full queue holds back (R321), and the task and tag of the CPL that writes it, if one does (R265). -/
structure HeldCpl where
  qp : Nat
  tag : Nat
  verdict : HostStatus
  dup : Bool
  rcpt : Esn
  dma : Option (Nat × Nat) := none
  deriving DecidableEq, Repr

/-- An extent of a namespace (R335, R336). -/
structure NsExtent where
  nsid : Nat
  index : Nat
  side : Nat
  layer : Nat
  first : Nat
  count : Nat
  pairFirst : Bool
  pairSecond : Bool
  createEsn : Esn
  deriving DecidableEq, Repr

/-- A block as last written: by which WRITE, the page of the buffer that holds it, and whether it is only staged yet (R19, R328). -/
structure BlockSt where
  rcpt : Esn
  page : Nat
  staged : Bool
  deriving DecidableEq, Repr

/-- A record of log 0x02 (R343). -/
structure LostBlock where
  nsid : Nat
  lba : Nat
  rcpt : Esn
  esn : Esn
  deriving DecidableEq, Repr

/-- The self-test (R334): kind of the last one (0 none), whether it runs, whether it was stopped, start and end. -/
structure SelfTestSt where
  kind : Nat := 0
  running : Bool := false
  stopped : Bool := false
  start : Esn := 0
  finish : Esn := 0
  deriving DecidableEq, Repr

/-- A power-state entry in progress (R340, R341): the state, the command that asked for it, and whether a command was
received since its first step. -/
structure PsEntry where
  target : Nat
  cmd : Option CmdRef
  disturbed : Bool := false
  deriving DecidableEq, Repr

/-- A base address register pair of the function (R310): its size in bytes, 64-bit, prefetchable or not. -/
structure PciBar where
  index : Nat
  bytes : Nat
  wide : Bool
  prefetchable : Bool
  deriving DecidableEq, Repr

/-- A capability that the function exposes (R309). -/
inductive PciCap where
  | expressEndpoint | powerManagement | msix (vectors : Nat) | errorReporting | serialNumber | latencyTolerance | aspmL1
  deriving DecidableEq, Repr

/-- The configuration header of the one function, device 0, function 0, but for the revision, which ID_DEVICE.STEPPING gives, with its
capabilities and memory BARs (R308 to R310). The drive maker's fuses give the subsystem IDs: no value of theirs is stated, and reset holds
0 (DESIGN CHOICE, log 111). -/
structure PciSt where
  vendor : BitVec 16 := 0x1d7a
  device : BitVec 16 := 0x7216
  classCode : BitVec 24 := 0x018000
  subVendor : BitVec 16 := 0
  subsystem : BitVec 16 := 0
  headerType : BitVec 8 := 0
  intPin : BitVec 8 := 0
  maxPayload : Nat := 512
  maxRead : Nat := 4096
  caps : List PciCap := [.expressEndpoint, .powerManagement, .msix 65, .errorReporting, .serialNumber, .latencyTolerance, .aspmL1]
  bars : List PciBar := [⟨0, 0x1000000, true, false⟩, ⟨2, 0x1000, true, false⟩]
  deriving DecidableEq, Repr

/-- Host memory as the block sees it (log 43), and the MSI-X table (four words a vector) with its pending bits (R312); SQ tails
and CQ heads by pair as the doorbells leave them (R314); the pair whose turn it is and the entries it took (R315);
commands in flight, oldest first; held completions; entries not yet signalled by pair (R320); D3hot; a function reset whose
completions are not written (R348); the features of R345 without a register; namespaces, written maps keyed
2^32 × (8 × side + layer) + logical stripe, layers whose map is newer than their record, blocks keyed 2^40 × NSID + LBA; log 0x02 newest first; the self-test; a
power-state entry; the TARGET that a return to PS0 restores; and the code range of each user task. -/
structure HostSt where
  pci : PciSt := {}
  mem : Tab Byte := []
  msix : Tab Word := []
  pba : Tab Bool := []
  sqTail : Tab Nat := []
  cqHead : Tab Nat := []
  turn : Nat := 0
  turnUsed : Nat := 0
  cmds : List HostCmd := []
  held : List HeldCpl := []
  unsignalled : Tab Nat := []
  d3hot : Bool := false
  silent : Bool := false
  powerIdle : Nat := 0
  idleRpm : Nat := 1800
  readAhead : Nat := 8
  ns : List NsExtent := []
  written : Tab Bool := []
  mapDirty : List Nat := []
  blocks : Tab BlockSt := []
  lost : List LostBlock := []
  test : SelfTestSt := {}
  entry : Option PsEntry := none
  spinTarget : Nat := 0
  userCode : Tab (Nat × Nat) := []
  deriving DecidableEq, Repr

/-! ## KD compatibility (chapter 12) -/

/-- Sense data: key, ASC and ASCQ, INFORMATION, and the ESN of the status (R357). -/
structure KdSense where
  key : Nat := 0
  asc : Nat := 0
  ascq : Nat := 0
  info : Option Nat := none
  esn : Esn := 0
  deriving DecidableEq, Repr

/-- What the device returns for a command: its tag, its status (0x00 GOOD, 0x02 CHECK CONDITION), data and sense; a task
management response carries no status. -/
structure KdReply where
  tag : Nat
  status : Option Nat
  data : List Byte := []
  sense : Option KdSense := none
  deriving DecidableEq, Repr

/-- The KD identity block of the settings area (R355). -/
structure KdIdent where
  vendor : Nat := 0x3b71
  product : Nat := 0x3100
  version : Nat := 0x0720
  maker : String := "Kyornad"
  name : String := "KD-3100"
  vendorId : String := "KYORNAD "
  productId : String := "KD-3100         "
  revision : String := "0720"
  deriving DecidableEq, Repr

/-- A sector as the product decoder leaves it: its bytes, and whether its EDC and its address agree (R363). -/
structure KdSector where
  bytes : List Byte
  good : Bool
  deriving DecidableEq, Repr

/-- The KD path (R354 to R370): identity; pending unit attention (its ASC); sense held; replies sent, newest first; START
STOP UNIT commands that wait for the end of their entry; removal prevented; PER and the read retry count, and the other mode
pages as MODE SELECT left them; USB alternate setting and configuration; the medium's capacity in sectors, the next
sector to record, the next block to record, the places of staged sectors in the staging area of the buffer, counted from 1 (R366), blocks as
laid down (recorded levels), and the replacement list; whether write power is calibrated; rows of the block being read (none for one lost to sync), misses in
a row, the full search, and the place in CHN4's line of the next sync (R362); the radius in 2^-16 µm for which the spindle was last
commanded (R360); the last block decoded with the symbols corrected in each row; the block that a re-read adds to, and its rows that stand
(R364); whether the host
suspended the device, and the answers to USB device requests, newest first (none for a stall). -/
structure KdSt where
  ident : KdIdent := {}
  attention : Option Nat := none
  sense : KdSense := {}
  replies : List KdReply := []
  starting : List Nat := []
  prevent : Bool := false
  per : Bool := false
  retries : Nat := 4
  pages : Tab (List Byte) := []
  config : Nat := 0
  alternate : Nat := 0
  present : Bool := false
  sectors : Nat := 0
  next : Nat := 0
  phys : Nat := 0
  staged : Tab Nat := []
  laid : Tab (List Bool) := []
  replaced : List (Nat × Nat) := []
  calibrated : Bool := false
  rows : List (Option (List (Byte × Bool))) := []
  inBlock : Bool := false
  missRun : Nat := 0
  searching : Bool := false
  offset : Int := 0
  expect : Int := 0
  radius : Int := 0
  decoded : List KdSector := []
  rowCounts : List Nat := []
  passBlock : Option (Nat × Nat) := none
  passRows : List (Option (List Nat)) := []
  suspended : Bool := false
  usb : List (Option (List Byte)) := []
  deriving DecidableEq, Repr

/-! ## Spares and live service (chapter 13) -/

/-- A service cycle in progress (R378): class, unit, whether it carries an update, and whether its drain waits. -/
structure CycleSt where
  cls : Nat
  unit : Nat
  update : Bool := false
  deriving DecidableEq, Repr

/-- The sparing program's accounts: substitutions and last substitution of each class, the power-on periods in which
each unit was retired (kept in the NOR), units retired in this period, the cycle in progress, the unit last rotated, and
a policy that waits for the end of the cycle. -/
structure SpareSt where
  subst : Tab Nat := []
  lastSubst : Tab Nat := []
  retiredBefore : Tab Nat := []
  cycle : Option CycleSt := none
  lastUnit : Nat := 0
  policyNext : Option Nat := none
  suspectBand : Tab Nat := []
  laserFaults : Tab Nat := []
  faultRun : Tab Nat := []
  excluded : Tab Bool := []
  deriving DecidableEq, Repr

/-! ## Roles, audit and update (chapter 14) -/

/-- The first signature of a change: its REQUEST, its key slot, and whether a change of the same kind and object has
completed since (R403, R404). -/
structure HeldToken where
  request : List Byte
  slot : Nat
  stale : Bool := false
  deriving DecidableEq, Repr

/-- An outstanding nonce with the change held on it (R400, R404). -/
structure NonceSt where
  id : Nat
  esn : Esn
  bytes : List Byte
  held : Option HeldToken := none
  deriving DecidableEq, Repr

/-- The audit log (R406 to R409): the on-chip ring newest first, the records not yet in the NOR oldest first, the NOR's
records by index, the SEQ up to which records were exported, and the counts of data commands of each queue pair. -/
structure AuditSt where
  ring : List (List Byte) := []
  unwritten : List (List Byte) := []
  nor : Tab (List Byte) := []
  exported : Nat := 0
  aggregate : Tab (List Nat) := []
  deriving DecidableEq, Repr

/-- The security block (R395 to R405): the Device Serial Number and fuses, the keys held by slot as x‖y, the hashes of
maker keys, nonces oldest first, an authorised mode lock, and when each grant ends by holder, in microseconds. -/
structure SecSt where
  dsn : Nat := 1
  fuses : Tab Word := []
  keys : Tab (List Byte) := []
  makerHash : Tab (List Byte) := []
  nextNonce : Nat := 0
  nonces : List NonceSt := []
  lockAuth : Option Nat := none
  grants : Tab Nat := []
  audit : AuditSt := {}
  deriving DecidableEq, Repr

/-- A compatibility entry (R414): whether it requires, the interface, MAJOR and MINOR. -/
structure CompatEntry where
  requires : Bool
  iface : Nat
  major : Nat
  minor : Nat
  deriving DecidableEq, Repr

/-- What a verified image holds (R414, R415): its parts by class code. -/
structure XimImage where
  manifest : Bool
  live : Bool
  version : Nat
  rollback : Nat
  vector : List CompatEntry
  parts : List (Nat × List Byte)
  deriving DecidableEq, Repr

/-- A boot slot beside its register (R423). -/
structure SlotSt where
  gen : Nat := 0
  version : Nat := 0
  area : Nat := 0
  image : Option XimImage := none
  deriving DecidableEq, Repr

/-- Who waits for the end of a verification or an activation: a host command, or a service frame by SEQ and TYPE. -/
inductive UpdWait where
  | command (c : CmdRef)
  | frame (seq type : Nat)
  deriving DecidableEq, Repr

/-- Updates (R418 to R426): the slots; the staged bytes, their length once the last piece has come, and whether they are
being verified; the verified image; who waits; the class of a live update or trial; units that changed, and whether one failed its test (R389); whether settings
writes go to both areas; the RWL and RWE settings kept, as 2^24 × area + offset; the halves of the vendor code store: the current one and the tasks that have moved. -/
structure UpdSt where
  slots : Tab SlotSt := []
  stage : Tab Byte := []
  length : Option Nat := none
  verifying : Bool := false
  image : Option XimImage := none
  waiter : Option UpdWait := none
  cls : Option Nat := none
  changed : List Nat := []
  failed : Bool := false
  revert : Bool := false
  both : Bool := false
  half : Fin 2 := 0
  moved : List Nat := []
  settings : Tab Word := []
  deriving DecidableEq, Repr

/-- The service port (R411): the responses sent, newest first; the SEQ of a RESET that waits for the supply (R429, R454). -/
structure SvcSt where
  sent : List (List Byte) := []
  reset : Option Nat := none
  deriving DecidableEq, Repr

/-! ## Start-up, power and thermal (chapter 15) -/

/-- A Facet test in progress: the extended test, a targeted test of a domain or of the unit in its cycle (R436, R438, R439). -/
inductive FacetTest where
  | extended
  | domain (pd : Nat)
  deriving DecidableEq, Repr

/-- Supply, start-up and thermal state: the supply alarm, whether PWR_FAIL_N has risen again, and whether the sleds still have
to park (R454); whether the device is held in reset, and whether the reference is present (R432); the lock retries that
each ROOT core has left; whether start-up stopped in step 2, and whether the island or NO_START holds SVC_ATN_N
low; domains that ramp, and requests that wait for a ramp (R441); domains that the power state has switched off (R440); the hottest readings of
the last 10 ms, newest first, and which sensors read 105 °C at the last sample (R443); samples since the governor's last step
took effect, the speed that it waits to command and the speed step that has not yet taken effect, as its number, event code and counter (R214, R444), and samples in a row at or below 95 °C (R444); the Facet test in progress and the time of its start in
microseconds; and the crossbar ports' failed
quadrants, the quadrant that each port uses, and the transfers that the last move of ports issued again (R36). -/
structure PwrSt where
  failing : Bool := false
  risen : Bool := false
  parkDue : Bool := false
  held : Bool := true
  refOk : Bool := true
  retries : Nat × Nat := (2, 2)
  stuck : Bool := false
  attn : Bool := false
  ramping : List Nat := []
  queue : List Nat := []
  psOff : List Nat := []
  window : List Int := []
  hot : List Bool := []
  sinceStep : Nat := 0
  govTarget : Option Nat := none
  govNext : Option (Nat × Nat × Nat) := none
  cool : Nat := 0
  test : Option FacetTest := none
  testAt : Nat := 0
  quadrants : List Nat := []
  ports : Tab Nat := []
  reissued : List Esn := []
  deriving DecidableEq, Repr

/-! ## The Annulus ring and the TAP (chapter 16) -/

/-- The ring interface: frames that wait in the two FIFOs, oldest first; frames put on RING_OUT, newest first, with their CRC; MGMT
frames that wait for their answers, with the times each was repeated; the time of the last valid mark; the last PRESENCE
payload; and whether an opening is in progress (R466 to R472). -/
structure RingSt where
  tx : List (List Byte) := []
  rx : List (List Byte) := []
  out : List (List Byte) := []
  mgmt : List (List Byte × Nat) := []
  markAt : Nat := 0
  presence : List Byte := []
  opening : Bool := false
  deriving DecidableEq, Repr

/-- The TAP: its instruction, the bits that left TDO in the last shift, and what EXTEST and CLAMP drive (R465). -/
structure TapSt where
  instr : TapInstr := .idcode
  tdo : List Bool := []
  cells : List Bool := []
  deriving DecidableEq, Repr

/-! ## Compared copies (R8) -/

/-- The units that run as two compared copies: the microsecond, plus 1, of the last disagreement of each copy as 2 × unit + copy,
and the copy retired plus 1. -/
structure CopySt where
  last : Tab Nat := []
  retired : Tab Nat := []
  deriving DecidableEq, Repr

/-! ## The block -/

/-- The block, all but its queue of commands; `rdata` is what the host's last BAR0 read returned (R11). -/
structure Dev where
  regs : Tab Word := []
  locus : LocusSt := {}
  log : List Event := []
  free : Nat := 0
  units : Tab UnitState := []
  slices : Tab SliceSt := []
  heads : Tab HeadSt := []
  det : DetectSt := {}
  wp : Tab WpSt := []
  arc : ArcDev := {}
  mot : MotorSt := {}
  span : SpanSt := {}
  cache : CacheSt := {}
  mem : MemSt := {}
  medium : MediumSt := {}
  host : HostSt := {}
  spr : SpareSt := {}
  pwr : PwrSt := {}
  sec : SecSt := {}
  upd : UpdSt := {}
  svc : SvcSt := {}
  kd : KdSt := {}
  ring : RingSt := {}
  tap : TapSt := {}
  rdata : DWord := 0
  copies : CopySt := {}
  deriving DecidableEq, Repr

/-- The state: the block and the commands that wait, first in, first out. -/
structure State where
  dev : Dev := {}
  pending : List Instr := []
  deriving DecidableEq, Repr

/-- Why a step stops without a next state: nothing does, since every command has an effect. -/
inductive Fault where
  deriving DecidableEq, Repr

/-- Why a command has no meaning. -/
inductive Refusal where
  /-- Raised by the dispatcher alone, for a command whose meaning is not written yet; safe. -/
  | notModelled (mnemonic : String)
  deriving DecidableEq, Repr

/-- The state right after reset: every register at its reset value, everything else as its record's defaults say. -/
def State.reset : State := {}

end Sys2Proof.Machine
end

