-- ==== Sys2Proof/Machine/Trig.lean ====
section
/-! DEFINITION. The microstep tables' reset values: sines and cosines in exact fixed point (R240). -/

namespace Sys2Proof.Machine

/-- 2π in 2^-100. -/
def twoPi100 : Nat := 7964883625991394727376702227904

/-- A cosine (even) or sine (odd) series of x in 2^-100, n terms from the k-th on. -/
def trigSeries (x : Int) : Nat → Nat → Int → Int
  | 0, _, _ => 0
  | n + 1, k, term =>
    term + trigSeries x n (k + 2) (-(term * x / 2 ^ 100 * x / 2 ^ 100) / ((k + 1) * (k + 2) : Nat))

/-- cos(2πi/1,024) in 2^-100. -/
def cosFix (i : Nat) : Int :=
  let x : Int := ((twoPi100 * (i % 1024) / 1024 : Nat) : Int) - ((twoPi100 / 2 : Nat) : Int)
  Int.neg (trigSeries x 30 0 (2 ^ 100))

/-- sin(2πi/1,024) in 2^-100. -/
def sinFix (i : Nat) : Int := cosFix (i + 768)

/-- round(32,767 c) of a value c in 2^-100. -/
def fullScale (c : Int) : Int := roundDiv (32767 * c) (2 ^ 100)

/-- Word i of a microstep table after reset: phase A below, phase B above (R239, R240). -/
def microstepReset (i : Nat) : Word :=
  BitVec.ofNat 32 (codeOf 16 (fullScale (cosFix i)) + 2 ^ 16 * codeOf 16 (fullScale (sinFix i)))

end Sys2Proof.Machine
end

