-- ==== Sys2Proof/Machine/Ops.lean ====
section
/-! DEFINITION. The named operations over the block: registers and their fields, counters, ESNs and events, unit
states, free values; and the two ways a meaning answers. -/

namespace Sys2Proof.Machine

/-! ## Answering -/

/-- A command whose effect on the block is f. -/
def State.on (s : State) (f : Dev → Dev) : Host.Outcome State Fault Refusal :=
  .next { s with dev := f s.dev }

/-- f where c holds, else nothing. -/
def Dev.when (d : Dev) (c : Bool) (f : Dev → Dev) : Dev := if c then f d else d

/-- f for every element of a list in turn. -/
def Dev.each {α : Type} (d : Dev) (l : List α) (f : Dev → α → Dev) : Dev := l.foldl f d

/-! ## Registers (R10, R12, R13) -/

/-- What a register reads as after reset: the microstep tables hold their sines (R240), and an offset that names no register
reads 0 (R12, R37). -/
def regReset (off : Nat) : Word :=
  match findReg regTable off with
  | some (r, n, k) => BitVec.ofNat 32 (r.resetVal n k)
  | none => if 0xa1000 ≤ off ∧ off < 0xa3000 then microstepReset (off / 4 % 1024) else 0

/-- The value of a register. -/
def Dev.reg (d : Dev) (adr : Nat) : Word := Tab.get regReset d.regs adr

/-- The block with a register changed. -/
def Dev.setReg (d : Dev) (adr : Nat) (v : Word) : Dev := { d with regs := Tab.set regReset d.regs adr v }

/-- The field at bit lo of w bits of a value. -/
def fieldOf (v : Word) (lo w : Nat) : Nat := v.toNat / 2 ^ lo % 2 ^ w

/-- The value with the field at bit lo of w bits replaced. -/
def withField (v : Word) (lo w x : Nat) : Word :=
  BitVec.ofNat 32 (v.toNat % 2 ^ lo + 2 ^ lo * (x % 2 ^ w + 2 ^ w * (v.toNat / 2 ^ (lo + w))))

/-- The value of a field. -/
def Dev.fld (d : Dev) (f : Field) : Nat := fieldOf (d.reg f.adr) f.lo f.width

/-- A one-bit field. -/
def Dev.bit (d : Dev) (f : Field) : Bool := d.fld f != 0

/-- A field read as two's complement. -/
def Dev.sfld (d : Dev) (f : Field) : Int := signedOf f.width (d.fld f)

/-- The block with a field changed. -/
def Dev.put (d : Dev) (f : Field) (v : Nat) : Dev := d.setReg f.adr (withField (d.reg f.adr) f.lo f.width v)

/-- The block with a one-bit field changed. -/
def Dev.putBit (d : Dev) (f : Field) (b : Bool) : Dev := d.put f (if b then 1 else 0)

/-- The block with bit k of a field set or cleared. -/
def Dev.putMask (d : Dev) (f : Field) (k : Nat) (b : Bool) : Dev :=
  let v := d.fld f
  d.put f (v - v / 2 ^ k % 2 * 2 ^ k + (if b then 2 ^ k else 0))

/-- Bit k of a field. -/
def Dev.maskBit (d : Dev) (f : Field) (k : Nat) : Bool := (d.fld f).testBit k

/-- A 32-bit counter counts n events, saturating at 0xffff_ffff. -/
def Dev.countBy (d : Dev) (adr n : Nat) : Dev :=
  d.setReg adr (BitVec.ofNat 32 (min 0xffffffff ((d.reg adr).toNat + n)))

/-- A counter counts one event. -/
def Dev.count (d : Dev) (adr : Nat) : Dev := d.countBy adr 1

/-- The eight counters of a unit return to 0. -/
def Dev.clearCounters (d : Dev) (adr : Nat → Nat) : Dev := d.each (List.range 8) fun d k => d.setReg (adr k) 0

/-! ## ESNs and events (R26 to R28) -/

/-- The 48 bits of an ESN. -/
def esnOf (epoch tick order : Nat) : Esn := BitVec.ofNat 48 (epoch * 2 ^ 32 + tick * 2 ^ 10 + order)

/-- TICK advances by one and ORDER restarts; a wrap increments EPOCH (R27). -/
def LocusSt.advance (l : LocusSt) : LocusSt :=
  { l with tick := l.tick + 1, order := 0, epoch := if l.tick = 0x3fffff then l.epoch + 1 else l.epoch }

/-- The fields of the next ESN: an ORDER past 1,023 advances TICK at once (R27). -/
def LocusSt.ready (l : LocusSt) : LocusSt := if l.order ≤ 1023 then l else l.advance

/-- The next ESN to issue. -/
def LocusSt.next (l : LocusSt) : Esn := esnOf l.ready.epoch.toNat l.ready.tick.toNat l.ready.order

/-- The Locus sequencer issues one ESN. -/
def Dev.issue (d : Dev) : Dev :=
  (d.when (1023 < d.locus.order) fun d => d.putBit Fld.LOCUS_STATUS_ORDER_CARRY true)
    |> fun d => { d with locus := { d.locus.ready with order := d.locus.ready.order + 1 } }

/-- The ESN that the next event gets. -/
def Dev.esn (d : Dev) : Esn := d.locus.next

/-- An event is born and logged, with the receipt ESN of its cause (R28, R344). -/
def Dev.eventFor (d : Dev) (rcpt : Esn) (kind : EventKind) (unit code : Nat) (detail : List Nat) : Dev :=
  let e : Event := ⟨d.esn, rcpt, kind, unit, code, detail⟩
  { d.issue with log := e :: d.log }

/-- An event of background work. -/
def Dev.event (d : Dev) (kind : EventKind) (unit code : Nat) (detail : List Nat) : Dev :=
  d.eventFor 0 kind unit code detail

/-- A free value of n bits that the spec leaves open (log 3). -/
def Dev.freeBits (d : Dev) (n : Nat) : Nat := (Config.freeValue d.free).toNat % 2 ^ n

/-- The next free value is another one. -/
def Dev.drew (d : Dev) : Dev := { d with free := d.free + 1 }

/-! ## Units (R377, R380) -/

/-- The key of a unit of a class. -/
def unitKey (cls unit : Nat) : Nat := cls * 65536 + unit

/-- The state in which a unit stands after reset: the units beyond those that full load needs are spare (R374). -/
def unitReset (k : Nat) : UnitState :=
  let cls := k / 65536
  let u := k % 65536
  if cls = 9 ∨ cls = 10 ∨ cls = 13 then .spare
  else if u < classRequired cls then .inService else .spare

/-- The state of a unit. -/
def Dev.unit (d : Dev) (cls unit : Nat) : UnitState := Tab.get unitReset d.units (unitKey cls unit)

/-- A unit takes a state. -/
def Dev.setUnit (d : Dev) (cls unit : Nat) (u : UnitState) : Dev :=
  { d with units := Tab.set unitReset d.units (unitKey cls unit) u }

/-- A unit that does no work (R380). -/
def Dev.dead (d : Dev) (cls unit : Nat) : Bool :=
  match d.unit cls unit with
  | .retired | .absent => true
  | _ => false

/-- The variant is the XLM-7216-S (R4). -/
def Dev.variantS (d : Dev) : Bool := d.fld Fld.ID_DEVICE_VARIANT == 2

/-- The running mode: 0 not yet selected, 1 native, 2 KD (R4). -/
def Dev.mode (d : Dev) : Nat := d.fld Fld.ID_DEVICE_MODE

/-- A head that this variant has (R2). -/
def Dev.hasHead (d : Dev) (h : Head) : Bool :=
  match h with
  | .a => true
  | .b => !d.variantS

/-! ## Unit arrays -/

def Dev.slice (d : Dev) (n : Nat) : SliceSt := Tab.get (fun _ => {}) d.slices n

def Dev.setSlice (d : Dev) (n : Nat) (s : SliceSt) : Dev := { d with slices := Tab.set (fun _ => {}) d.slices n s }

/-- A slice's state changed by g. -/
def Dev.onSlice (d : Dev) (n : Nat) (g : SliceSt → SliceSt) : Dev := d.setSlice n (g (d.slice n))

def Dev.head (d : Dev) (h : Nat) : HeadSt := Tab.get (fun _ => {}) d.heads h

def Dev.setHead (d : Dev) (h : Nat) (s : HeadSt) : Dev := { d with heads := Tab.set (fun _ => {}) d.heads h s }

def Dev.wps (d : Dev) (h : Nat) : WpSt := Tab.get (fun _ => {}) d.wp h

/-- A write path's state changed by g. -/
def Dev.onWp (d : Dev) (h : Nat) (g : WpSt → WpSt) : Dev := { d with wp := Tab.set (fun _ => {}) d.wp h (g (d.wps h)) }

/-- A head's state changed by g. -/
def Dev.onHead (d : Dev) (h : Nat) (g : HeadSt → HeadSt) : Dev := d.setHead h (g (d.head h))

/-! ## Buffer memory (R10, R287, R296) -/

/-- What a byte of the buffer reads as while nothing has written it: pages start virgin, with data 0 (R298). -/
def bufDefault (_ : Nat) : Byte := 0

/-- The canonical form of the buffer memory: its bytes, its poison marks, and the pages that are not virgin. -/
def MemSt.wf (m : MemSt) : Bool :=
  Tab.wf bufDefault m.bytes && Tab.wf (fun _ => false) m.poison && Tab.wf (fun _ => false) m.touched

/-- n bytes of the buffer from address a. -/
def Dev.bufRead (d : Dev) (a n : Nat) : List Byte := Tab.range bufDefault d.mem.bytes a n

/-- The poison mark of a 64-bit word of the buffer. -/
def Dev.poisoned (d : Dev) (word : Nat) : Bool := Tab.get (fun _ => false) d.mem.poison word

/-- What a poisoned word holds (R295). -/
def poisonData : DWord := 0xdead0baddead0bad

/-- A word's mark set, with POISON_DATA in the word, or cleared (R295). -/
def Dev.setPoison (d : Dev) (word : Nat) (b : Bool) : Dev :=
  { d with mem := { d.mem with
    poison := Tab.set (fun _ => false) d.mem.poison word b
    bytes := if b then Tab.write bufDefault d.mem.bytes (8 * word) (leBytes 8 poisonData.toNat) else d.mem.bytes } }

/-- The words wholly inside n bytes from address a. -/
def wholeWords (a n : Nat) : List Nat :=
  (List.range ((a + n) / 8 - ceilDiv a 8)).map fun i => ceilDiv a 8 + i

/-- The words that n bytes from address a touch. -/
def touchedWords (a n : Nat) : List Nat := (List.range (ceilDiv (a + n) 8 - a / 8)).map fun i => a / 8 + i

/-- A word among n bytes from address a is marked. -/
def Dev.anyPoison (d : Dev) (a n : Nat) : Bool := (touchedWords a n).any d.poisoned

/-- The pages that n bytes from address a touch. -/
def touchedPages (a n : Nat) : List Nat := (List.range (ceilDiv (a + n) 4096 - a / 4096)).map fun i => a / 4096 + i

/-- Bytes written to the buffer: the marks and stored upsets of the words that they cover whole are cleared (R296), as are all
upsets of a page that was virgin, which is first rewritten (R299); the word
table's entries of the words that they touch are freed (R301), and the pages are no longer virgin (R299). A marked word that
they cover in part discards its bytes (R294, R296). -/
def Dev.bufWrite (d : Dev) (a : Nat) (l : List Byte) : Dev :=
  let whole (w : Nat) : Bool := a ≤ 8 * w && 8 * w + 8 ≤ a + l.length
  let met (w : Nat) : Bool := a < 8 * w + 8 && 8 * w < a + l.length
  let kept := [a / 8, (a + l.length) / 8].filter fun w => d.poisoned w && met w && !whole w
  { d with mem := { d.mem with
    bytes := kept.foldl (fun b w => Tab.write bufDefault b (8 * w) (d.bufRead (8 * w) 8)) (Tab.write bufDefault d.mem.bytes a l)
    poison := d.mem.poison.filter fun e => !whole e.1
    upsets := d.mem.upsets.filter fun e => !(whole e.1 || (!Tab.get (fun _ => false) d.mem.touched (e.1 / 512) &&
      (touchedPages a l.length).contains (e.1 / 512)))
    words := d.mem.words.filter fun e => !met e.word
    touched := (touchedPages a l.length).foldl (fun t p => Tab.set (fun _ => false) t p true) d.mem.touched } }

/-- The words that n bytes from address a touch are marked (R296). -/
def Dev.markBytes (d : Dev) (a n : Nat) : Dev := d.each (touchedWords a n) fun d w => d.setPoison w true

/-- A unit reads n bytes from address a: the last word of a virgin page among them is recorded (R299). -/
def Dev.noteVirgin (d : Dev) (a n : Nat) : Dev :=
  match ((touchedPages a n).filter fun p => !Tab.get (fun _ => false) d.mem.touched p).getLast? with
  | some p =>
    ((d.putBit Fld.MEM_STATUS_VIRGIN_READ true).put Fld.MEM_ERR_ADDR_WORD (min ((a + n - 1) / 8) (512 * p + 511))).put
      Fld.MEM_ERR_KIND_KIND 5
  | none => d

/-- Bytes of one 4 KiB page of the buffer. -/
def pageBytes : Nat := 4096

/-! ## Stripe slots (R124, R128) -/

/-- The stripe job in a slot of a head, open or ended UNRECOVERED. -/
def Dev.stripeJob (d : Dev) (h slot : Nat) : Option StripeJob := Tab.get (fun _ => none) d.det.stripes (64 * h + slot)

def Dev.setStripe (d : Dev) (h slot : Nat) (j : Option StripeJob) : Dev :=
  { d with det := { d.det with stripes := Tab.set (fun _ => none) d.det.stripes (64 * h + slot) j } }

/-- The stripe jobs held, with their keys. -/
def Dev.stripeJobs (d : Dev) : List (Nat × StripeJob) :=
  d.det.stripes.filterMap fun e => e.2.map fun j => (e.1, j)

/-- OPEN and BUSY of both stripe engines: a job whose result is held is open still (R262). -/
def Dev.showStripes (d : Dev) : Dev :=
  d.each (List.range 2) fun d e =>
    let l := (d.stripeJobs.map (·.2)).filter fun j => j.engine == e && (!j.ended || j.held)
    (d.put (Fld.STR_STATUS_OPEN e) l.length).putBit (Fld.STR_STATUS_BUSY e)
      (l.any fun j => !j.held && (j.rebuilding || (j.op == 2 && !j.encoded)))

/-! ## Tasks (R249) -/

def Dev.task (d : Dev) (t : Nat) : TaskSt := Tab.get (fun _ => {}) d.span.tasks t

def Dev.setTask (d : Dev) (t : Nat) (x : TaskSt) : Dev :=
  { d with span := { d.span with tasks := Tab.set (fun _ => {}) d.span.tasks t x } }

/-- A task's state changed by g. -/
def Dev.onTask (d : Dev) (t : Nat) (g : TaskSt → TaskSt) : Dev := d.setTask t (g (d.task t))

/-! ## Mailboxes (R262) -/

def Dev.mail (d : Dev) (t : Nat) : MailSt := Tab.get (fun _ => {}) d.span.mail t

def Dev.setMail (d : Dev) (t : Nat) (m : MailSt) : Dev :=
  { d with span := { d.span with mail := Tab.set (fun _ => {}) d.span.mail t m } }

/-- The address of entry i of the mailbox of task t. -/
def Dev.mailAddr (d : Dev) (t i : Nat) : Nat :=
  d.fld Fld.SPP_MBOX_BASE_PAGE * pageBytes + 2048 * t + 64 * (i % 32)

/-- A mailbox has room: its entries and those held for the task do not fill it (R261). -/
def Dev.mailRoom (d : Dev) (t : Nat) : Bool := (d.mail t).count + (d.mail t).taken < 32

/-- A 32-byte record takes the next place of a mailbox. -/
def Dev.placeMail (d : Dev) (t : Nat) (r : List Byte) : Dev :=
  let m := d.mail t
  (d.bufWrite (d.mailAddr t (m.head + m.count)) (r ++ zeroBytes 32)).setMail t { m with count := m.count + 1 }

/-- A DMA leaves flight: without NOTIFY the DMA source of its task becomes ready (R263). -/
def Dev.dmaLeaves (d : Dev) (t tag : Nat) : Dev :=
  match d.span.dmas.find? fun x => x.task == t && x.tag == tag with
  | some op =>
    let d := { d with span := { d.span with dmas := d.span.dmas.erase op } }
    d.when (!op.notify) fun d => d.onTask t fun x => { x with dmaReady := true }
  | none => d

/-- A completion of a producer whose record has its place. -/
def Dev.mailEnds (d : Dev) (t : Nat) : MailEnd → Dev
  | .nothing => d
  | .dma tag => d.dmaLeaves t tag
  | .stripe slot => (d.setStripe 0 slot none).showStripes

/-- A 32-byte record is placed in a task's mailbox, and its producer's work is complete; while the mailbox is full the producer holds
both (R262). -/
def Dev.postMailWith (d : Dev) (t : Nat) (r : List Byte) (x : MailEnd) : Dev :=
  if d.mailRoom t then (d.placeMail t r).mailEnds t x
  else (d.setMail t { d.mail t with held := (d.mail t).held ++ [⟨r, x⟩] }).count (Adr.SPP_CNT (d.fld (Fld.SPP_TASK_PROC t)) 7)

/-- A record with which nothing more ends. -/
def Dev.postMail (d : Dev) (t : Nat) (r : List Byte) : Dev := d.postMailWith t r .nothing

/-- The records that producers hold for a mailbox take their places, in order, as far as it has room. -/
def Dev.releaseMail (d : Dev) (t : Nat) : List HeldMail → Dev
  | [] => d
  | x :: rest =>
    if x.bytes.isEmpty then (d.mailEnds t x.ends).releaseMail t rest
    else if d.mailRoom t then ((d.placeMail t x.bytes).mailEnds t x.ends).releaseMail t rest
    else d.setMail t { d.mail t with held := x :: rest }

/-! ## Compared copies (R8) -/

/-- The units whose logic runs as two compared copies: the memory controller's channels 0 and 1, the host attachment, the security
block, the motor block, the service port and the thermal monitor. -/
def copiesHost : Nat := 2
def copiesSecurity : Nat := 3
def copiesMotor : Nat := 4
def copiesService : Nat := 5
def copiesThermal : Nat := 6

/-- The copy of a unit that is retired. -/
def Dev.retiredCopy (d : Dev) (unit : Nat) : Option Nat :=
  match Tab.get (fun _ => 0) d.copies.retired unit with
  | 0 => none
  | c + 1 => some c

/-- The copies of a unit disagree on an operation, and one is found to be wrong: the operation is run again with its effect, and a
copy that disagrees twice is retired, in the memory controller twice within 1 ms; a unit with one copy compares nothing
(R8; log 122). -/
def Dev.copyDisagrees (d : Dev) (unit : Nat) : Option (Fin 2) → Dev
  | none => d
  | some c =>
    if (d.retiredCopy unit).isSome then d
    else
      let k := 2 * unit + c.val
      let last := Tab.get (fun _ => 0) d.copies.last k
      let again := last != 0 && (decide (2 ≤ unit) || decide (d.locus.micros + 1 ≤ last + 1000))
      { d with copies := {
          last := Tab.set (fun _ => 0) d.copies.last k (d.locus.micros + 1)
          retired := if again then Tab.set (fun _ => 0) d.copies.retired unit (c.val + 1) else d.copies.retired } }

end Sys2Proof.Machine
end

