-- ==== Sys2Proof/Machine/Channel.lean ====
section
/-! DEFINITION. Read channel slices: chapter 03 (R64 to R93, R482), all that one slice does. What a whole head
does at a wedge field stands in Wedge.lean, and how a fragment enters the group store in Detect.lean. -/

namespace Sys2Proof.Machine

/-- The head writes: a band write, or the write revolution of an OPC run (R20, R137). -/
def Dev.writing (d : Dev) (h : Nat) : Bool :=
  (d.wps h).run.isSome || (match (d.wps h).opc with
    | some o => o.phase == .writing
    | none => false)

/-- The newest sync outcome of a slice: class, offset and distance (R81, R82). -/
def SliceSt.sync (s : SliceSt) : SyncClass := (s.syncs.headD (0, .nominal, 0, 48)).2.1
def SliceSt.syncOff (s : SliceSt) : Int := (s.syncs.headD (0, .nominal, 0, 48)).2.2.1
def SliceSt.syncDist (s : SliceSt) : Nat := (s.syncs.headD (0, .nominal, 0, 48)).2.2.2

/-- The sync outcome of a slot's frame; one that was never searched is nominal. -/
def SliceSt.syncAt (s : SliceSt) (slot : Nat) : SyncClass × Int × Nat :=
  ((s.syncs.find? fun e => e.1 == slot).map (·.2)).getD (.nominal, 0, 48)

/-! ## Modes and beams (R64, R65, R482) -/

/-- The class and unit number of a slice (R372). -/
def sliceClass (n : Nat) : Nat := 3 + n / 10
def sliceUnit (n : Nat) : Nat := n % 10

def Dev.sliceMode (d : Dev) (n : Nat) : Nat := d.fld (Fld.CHN_CTRL_MODE n)

/-- The beam that a slice serves: the one that BEAM names, but after a change of BEAM the old one up to the next wedge field
(R64). -/
def Dev.sliceBeam (d : Dev) (n : Nat) : Nat :=
  match (d.slice n).served with
  | some b => b.val
  | none => d.fld (Fld.CHN_CTRL_BEAM n)

/-- A Data-mode slice of a head that writes: its AGC, adaptation and loop hold (R137). -/
def Dev.heldByWrite (d : Dev) (n : Nat) : Bool := d.sliceMode n == 1 && d.writing (n / 10)

/-- A slice in Data or Shadow mode, which processes its beam. -/
def Dev.sliceLive (d : Dev) (n : Nat) : Bool := d.sliceMode n == 1 || d.sliceMode n == 2

/-- A slice that may take a mode: not ABSENT, fused off or RETIRED (R65). -/
def Dev.sliceUsable (d : Dev) (n : Nat) : Bool :=
  d.hasHead (headOfSlice n) && !d.dead (sliceClass n) (sliceUnit n)

/-- The slices of a head. -/
def headSlices (h : Nat) : List Nat := (List.range 10).map fun i => 10 * h + i

/-- Another Data-mode slice of the head serves beam b, or has BEAM at b and will serve it (R64, R65). -/
def Dev.beamTaken (d : Dev) (n b : Nat) : Bool :=
  (headSlices (n / 10)).any fun m =>
    m != n && d.sliceMode m == 1 && (d.fld (Fld.CHN_CTRL_BEAM m) == b || d.sliceBeam m == b)

/-- The Data-mode slice that serves beam b of head h. -/
def Dev.sliceServing (d : Dev) (h b : Nat) : Option Nat :=
  (headSlices h).find? fun m => d.sliceMode m == 1 && d.sliceBeam m == b

/-- DEFECT of the head as its slices in Data or KD mode raise it: one bit a beam, and ANY while a mapped beam is in defect (R22, R85,
R162). -/
def Dev.showDefect (d : Dev) (h : Nat) : Dev :=
  let mask := ((headSlices h).filter fun m => (d.sliceMode m == 1 || d.sliceMode m == 3) && d.bit (Fld.CHN_STATUS_DEFECT m)).foldl
    (fun acc m => acc ||| 2 ^ d.sliceBeam m) 0
  let mapped := (List.range 8).map fun p => fieldOf (d.reg (Adr.SRV_BEAM_MAP_CUR h)) (4 * p) 4
  (d.put (Fld.SRV_DEFECT_MASK h) mask).putBit (Fld.SRV_DEFECT_ANY h) (mapped.any fun b => mask.testBit b)

/-- f is set, within ±2^-5 (R69); MON shows it. -/
def Dev.setF (d : Dev) (n : Nat) (f : Int) : Dev :=
  let g := clampInt (-32768) 32768 f
  (d.onSlice n fun s => { s with f := g }).put (Fld.CHN_MON_F n) (codeOf 16 (clampInt (-32768) 32767 g))

/-- LOCKED falls, and a cold acquisition is armed (R75). -/
def Dev.loseLock (d : Dev) (n : Nat) : Dev :=
  (d.putBit (Fld.CHN_STATUS_LOCKED n) false).onSlice n fun s => { s with coldArmed := true }

/-- f would pass ±2^-5. -/
def pastLimit (f : Int) : Bool := decide (f < -32768) || decide (32768 < f)

/-- f would have passed ±2^-5: FREQ_LIMIT is set, LOCKED falls and fragments stop (R77). -/
def Dev.freqLimit (d : Dev) (n : Nat) : Dev :=
  ((d.putBit (Fld.CHN_STATUS_FREQ_LIMIT n) true).loseLock n).onSlice n fun s => { s with freqHeld := true, freqOk := false }

/-- f takes a value; past ±2^-5 it saturates with FREQ_LIMIT (R77). -/
def Dev.moveF (d : Dev) (n : Nat) (f : Int) : Dev := (d.setF n f).when (pastLimit f) fun d => d.freqLimit n

/-- LOCKED rises; fragments are delivered again where a commit or a cold acquisition brought f back inside its range (R77). -/
def Dev.gainLock (d : Dev) (n : Nat) : Dev :=
  (d.putBit (Fld.CHN_STATUS_LOCKED n) true).onSlice n fun s => { s with freqHeld := s.freqHeld && !s.freqOk }

/-- A slice takes a zone as at a commit (R91): the staged fields, the boost, the preset, and a cold acquisition. -/
def Dev.sliceTakeZone (d : Dev) (n : Nat) (zone : Word) (boost : Nat) (preset : Int) : Dev :=
  (((d.setReg (Adr.CHN_ZONE_CUR n) (zone &&& 0x3fffffff)).put (Fld.CHN_CTF_CFG_BOOST n) boost).setF n preset).onSlice n
    fun s => { s with coldArmed := true, freqOk := true }

/-- Tap MAIN is held at its seed (R70): the register shows that. -/
def Dev.holdMain (d : Dev) (n : Nat) : Dev :=
  let k := d.fld (Fld.CHN_FIR_CFG_MAIN n)
  d.put (Fld.CHN_FIR_TAP_COEF n k) (d.fld (Fld.CHN_FIR_SEED_COEF n k))

/-- The FIR taps load from the seeds, and the fast adaptation window starts (R91). -/
def Dev.sliceReseed (d : Dev) (n : Nat) : Dev :=
  (d.each (List.range 16) fun d k => d.put (Fld.CHN_FIR_TAP_COEF n k) (d.fld (Fld.CHN_FIR_SEED_COEF n k))).onSlice n
    fun s => { s with fastLeft := 1024 * d.fld (Fld.CHN_FIR_CFG_FAST_LEN n) }

/-- A slice leaves Off: it takes its head's zone in force and arms a cold acquisition (R75, R482). -/
def Dev.sliceLeaveOff (d : Dev) (n : Nat) : Dev :=
  let hd := d.head (n / 10)
  (d.sliceTakeZone n hd.zone hd.boost hd.fPreset).onSlice n fun s => { s with envRef := 0, coldArmed := true }

/-- A slice enters Off: it stops working, so it is neither locked nor in a defect. -/
def Dev.sliceEnterOff (d : Dev) (n : Nat) : Dev :=
  ((d.putBit (Fld.CHN_STATUS_LOCKED n) false).putBit (Fld.CHN_STATUS_DEFECT n) false).onSlice n fun s =>
    { s with rejoining := none, rejoinArmed := false, rejoinNext := false, rejoinDone := false, coldRun := false,
             missErase := false }

/-- A mode that R65 accepts of a slice. -/
def Dev.sliceModeOk (d : Dev) (n mode : Nat) : Bool :=
  if mode = 0 then true
  else
    d.sliceUsable n &&
      (if mode = 1 then d.mode == 1 && !d.beamTaken n (d.fld (Fld.CHN_CTRL_BEAM n)) && !d.beamTaken n (d.sliceBeam n)
       else if mode = 2 then d.mode == 1
       else n == 4 && d.mode == 2)

/-- A write of MODE (R65): taken or discarded. -/
def Dev.sliceSetMode (d : Dev) (n mode : Nat) : Dev :=
  if d.sliceModeOk n mode then
    let was := d.sliceMode n
    let d := d.put (Fld.CHN_CTRL_MODE n) mode
    let d := if was = 0 ∧ mode ≠ 0 then d.sliceLeaveOff n else if mode = 0 then d.sliceEnterOff n else d
    d.showDefect (n / 10)
  else d

/-- A write of BEAM (R64): 10 to 15, and a beam that another Data-mode slice has, are discarded; the slice takes the change up at the
next wedge field of its head. -/
def Dev.sliceSetBeam (d : Dev) (n b : Nat) : Dev :=
  if 10 ≤ b ∨ b = d.fld (Fld.CHN_CTRL_BEAM n) ∨ (d.sliceMode n = 1 ∧ d.beamTaken n b) then d
  else
    let old := Fin.ofNat 10 (d.sliceBeam n)
    (d.put (Fld.CHN_CTRL_BEAM n) b).onSlice n fun s => { s with served := some old }

/-- Whether the staged zone of a slice is complete and its divider in range (R90). -/
def Dev.zoneReady (d : Dev) (n : Nat) : Bool :=
  d.bit (Fld.CHN_ZONE_NEXT_VALID n) && 33 ≤ d.fld (Fld.CHN_ZONE_NEXT_CHAN_DIV n)

/-- A write of ZONE_NEXT (R90, R478): a zone above 47 is discarded; a divider below 33 is stored and flagged. -/
def Dev.sliceStage (d : Dev) (n : Nat) (v : Word) : Dev :=
  if 47 < fieldOf v 24 6 then d
  else
    let d := d.setReg (Adr.CHN_ZONE_NEXT n) v
    let d := d.when (fieldOf v 16 8 < 33) fun d => d.putBit (Fld.CHN_STATUS_INVALID_DIV n) true
    d.putBit (Fld.CHN_STATUS_ZONE_READY n) (d.zoneReady n)

/-- The staged zone of a slice comes into force at its head's commit (R91). -/
def Dev.sliceCommitZone (d : Dev) (n : Nat) (inFrame : Bool) : Dev :=
  let reseed := d.bit (Fld.CHN_ZONE_NEXT_RESEED n)
  let d := d.sliceTakeZone n (d.reg (Adr.CHN_ZONE_NEXT n)) (d.fld (Fld.CHN_FREQ_NEXT_BOOST n))
    (d.sfld (Fld.CHN_FREQ_NEXT_F_PRESET n))
  let d := (d.putBit (Fld.CHN_ZONE_NEXT_VALID n) false).putBit (Fld.CHN_STATUS_ZONE_READY n) false
  let d := d.when reseed fun d => d.sliceReseed n
  d.when inFrame fun d => d.onSlice n fun s => { s with rejoinArmed := true }

/-! ## Places in the data space (R46, R47, R50) -/

/-- Channel bits of a frame slot, of its preamble and mark, and of its codeword (R47). -/
def slotBits : Nat := 39088
def headBits : Nat := 176
def codeBits : Nat := 38912

/-- The frame slots of a quadrant that a slice runs under (R90). -/
def Dev.sliceSlots (d : Dev) (n : Nat) : Nat := d.fld (Fld.CHN_ZONE_CUR_SLOTS n)

/-- The fragment length in groups that a slice runs under (R90). -/
def Dev.sliceFrag (d : Dev) (n : Nat) : Nat := d.fld (Fld.CHN_ZONE_CUR_FRAG32 n)

/-- A data-space bit that holds the preamble pattern: in a slot's preamble, or past the last slot (R47, R50). -/
def patternBit (slots : Nat) (p : Int) : Bool :=
  decide (0 ≤ p) && (decide (slots * slotBits ≤ p.toNat) || decide (p.toNat % slotBits < 128))

/-- The pattern's bit at a place: 0b1100 over again (R47). -/
def patternAt (p : Int) : Bool := p.toNat % slotBits % 4 < 2

/-- A data-space bit of a codeword, neither preamble nor mark (R72). -/
def dataBit (slots : Nat) (p : Int) : Bool :=
  decide (0 ≤ p) && decide (p.toNat < slots * slotBits) && decide (headBits ≤ p.toNat % slotBits)

/-! ## Equaliser, tentative detector and loop over a bit (R70 to R73) -/

/-- One FIR output: S1.8 coefficients, rounded to the nearest integer and held within the sample range (R70). -/
def firOut (taps xs : List Int) : Int :=
  clampInt (-64) 63 (roundDiv ((List.zipWith (· * ·) taps xs).foldl (· + ·) 0) 256)

/-- The ideal output of the target for the newest decision and the three before it (R71). -/
def targetOut (g : List Int) (as : List Bool) : Int :=
  (List.zipWith (fun c b => if b then c else -c) g as).foldl (· + ·) 0

/-- The bits of a detector state, the newest first. -/
def stateBits (s : Nat) : List Bool := [s.testBit 0, s.testBit 1, s.testBit 2]

/-- The better of two survivors with their metrics: the lesser metric, of equals the first (log 123). -/
def lesser (a b : Nat × List Bool) : Nat × List Bool := if b.1 < a.1 then b else a

/-- The detector's states before its first sample: no metric, no survivor. -/
def vitStart (states : Nat) : List (Nat × List Bool) := List.replicate states (0, [])

/-- One sample through the detector of 4 or 8 states (R71): each state keeps the better of its two predecessors, metrics being
squared distances from the target, less the least of them. -/
def vitStep (states keep : Nat) (g : List Int) (vit : List (Nat × List Bool)) (z : Int) : List (Nat × List Bool) :=
  let v := if vit.length = states then vit else vitStart states
  let into (t p : Nat) : Nat × List Bool :=
    let e := v.getD p (0, [])
    let diff := z - targetOut g (t.testBit 0 :: stateBits p)
    (e.1 + (diff * diff).toNat, (t.testBit 0 :: e.2).take keep)
  let next := (List.range states).map fun t => lesser (into t (t / 2)) (into t (t / 2 + states / 2))
  let least := (next.map (·.1)).foldl min (next.headD (0, [])).1
  next.map fun e => (e.1 - least, e.2)

/-- The decision a survivor depth back, on the survivor of the best state. -/
def vitDecision (vit : List (Nat × List Bool)) (depth : Nat) : Bool :=
  match vit with
  | [] => false
  | e :: l => (l.foldl lesser e).2.getD depth false

/-- What runs through the bits of a group: taps, the line of samples, the detector, loop states, whether f met its limit, the data
bits seen and a bit count. -/
structure GroupRun where
  taps : List Int
  line : List LineSample
  vit : List (Nat × List Bool)
  f : Int
  phase : Int
  limit : Bool
  fast : Nat
  bit : Nat

/-- What is fixed over a group: target taps and their energy, the detector's states and depth, the slots of the quadrant (none in
KD mode), the loop exponents KP and KI by place (none where the loop flywheels), the LMS step exponent (none where adaptation is
frozen: MU_FAST for the data bits that are left of the fast window, then MU_TRK), the fixed tap, and the samples that the line keeps. -/
structure GroupGains where
  g : List Int
  norm : Nat
  states : Nat
  depth : Nat
  slots : Option Nat
  flywheel : Bool
  acq : Nat × Nat
  trk : Nat × Nat
  rejoin : Bool
  cold : Option (Nat × Nat)
  mu : Option (Nat × Nat)
  fastLeft : Nat
  main : Nat
  keep : Nat

/-- A saturated 10-bit coefficient. -/
def sat10 (v : Int) : Int := clampInt (-512) 511 v

/-- The LMS step of one coefficient (R72). -/
def lmsTap (mu : Nat) (e x c : Int) : Int :=
  sat10 (c - (if mu ≤ 8 then e * x * 2 ^ (8 - mu) else roundDiv (e * x) (2 ^ (mu - 8))))

/-- The LMS step of all coefficients but the fixed one (R72). -/
def lmsTaps (mu main : Nat) (e : Int) (xs : List Int) : Nat → List Int → List Int
  | _, [] => []
  | k, c :: cs => (if k = main then c else lmsTap mu e (xs[k]?.getD 0) c) :: lmsTaps mu main e xs (k + 1) cs

/-- The loop gains at a place: none in a defect and while a cold acquisition measures gain and phase, those of acquisition in its
third step and in a rejoin, else those of tracking (R73, R76, R87, R137). -/
def GroupGains.gains (q : GroupGains) (p : Int) : Option (Nat × Nat) :=
  if q.flywheel then none
  else if q.rejoin then some q.acq
  else
    match q.cold with
    | some (start, stop) =>
      if p < 0 then some q.trk
      else
        let o := p.toNat % slotBits
        if o < start then none else if o < stop then some q.acq else some q.trk
    | none => some q.trk

/-- The decision that the loop takes for a sample: the pattern's where that is known, else the detector's. -/
def GroupGains.decided (q : GroupGains) (e : LineSample) : Bool :=
  match q.slots with
  | some n => if patternBit n e.pos then patternAt e.pos else e.bit
  | none => e.bit

/-- A place where the adaptation runs. -/
def GroupGains.adapts (q : GroupGains) (p : Int) : Bool :=
  match q.slots with
  | some n => dataBit n p
  | none => true

/-- A sample that the line does not hold. -/
def noSample : LineSample := ⟨-1, 0, 0, false⟩

/-- One channel bit through the FIR, the tentative detector, the timing loop and the adaptation; all users see the decisions a
survivor depth late (R71). -/
def GroupGains.bit (q : GroupGains) (r : GroupRun) (s : Int × Int) : GroupRun :=
  let z := firOut r.taps (s.2 :: r.line.map (·.x))
  let vit := vitStep q.states (q.depth + 1) q.g r.vit z
  let line := (⟨s.1, s.2, z, false⟩ :: r.line).take q.keep
  let line := line.modify q.depth fun e => { e with bit := vitDecision vit q.depth }
  let late := line.drop q.depth
  let m := late.headD noSample
  let a := (late.take 5).map q.decided
  let t := targetOut q.g a
  let t1 := targetOut q.g (a.drop 1)
  let num := m.z * t1 - (late.getD 1 noSample).z * t
  let move (k : Nat) : Int := roundDiv (num * 2 ^ 20) (q.norm * 2 ^ k)
  let gains := q.gains m.pos
  let f := match gains with
    | some k => r.f + move k.2
    | none => r.f
  let kick := match gains with
    | some k => move k.1
    | none => 0
  let adapts := q.adapts m.pos
  let taps := match q.mu with
    | some mu => if adapts ∧ r.bit % 4 = 3 then lmsTaps (if r.fast < q.fastLeft then mu.1 else mu.2) q.main (m.z - t) (late.map (·.x)) 0 r.taps else r.taps
    | none => r.taps
  let g := clampInt (-32768) 32768 f
  ⟨taps, line, vit, g, r.phase + g + kick, r.limit || pastLimit f, r.fast + (if adapts then 1 else 0), r.bit + 1⟩

/-! ## The 32-bit group (R66 to R72, R85 to R89) -/

/-- The sum of the magnitudes of the codes of a group. -/
def sumAbs (l : List Int) : Nat := (l.map Int.natAbs).foldl (· + ·) 0

/-- n codes are blank: their mean magnitude, referred back through the VGA gain of G × 0.125 dB, is below BLANK_THR/32 of the
envelope (R89), compared as 160th powers. -/
def blankCodes (thr env gain : Nat) (codes : List Int) : Bool :=
  (32 * sumAbs codes) ^ 160 < (thr * env * codes.length) ^ 160 * 10 ^ gain

/-- Groups `first` to g of the data space are flagged; those before the quadrant's start belong to the quadrant before (R86). -/
def Dev.flagBack (d : Dev) (n g : Nat) (first : Int) : Dev :=
  let old := (List.range (-first).toNat).map fun i => 512 * d.sliceFrag n - 1 - i
  d.onSlice n fun s => { s with
    erased := ((List.range (g + 1)).filter fun (k : Nat) => decide (first ≤ (k : Int))) ++ s.erased
    oldErased := old ++ s.oldErased }

/-- DEFECT of the slice rises: the status bit, the count, the event, and the head's mask for a Data-mode slice (R85,
R22). -/
def Dev.defectStart (d : Dev) (n : Nat) : Dev :=
  let d := (d.putBit (Fld.CHN_STATUS_DEFECT n) true).count (Adr.CHN_CNT n 5)
  let d := d.showDefect (n / 10)
  (d.event .defectStart n 0 [d.sliceBeam n]).onSlice n fun s =>
    { s with defGroups := 0, goodRun := 0, defectSeen := true }

/-- DEFECT of the slice clears (R85); a long one arms a rejoin (R87). -/
def Dev.defectEnd (d : Dev) (n : Nat) : Dev :=
  let d := d.putBit (Fld.CHN_STATUS_DEFECT n) false
  let d := d.showDefect (n / 10)
  let long := d.fld (Fld.CHN_DEF_CFG2_DEF_REACQ n) < (d.slice n).defGroups
  (d.event .defectEnd n 0 [d.sliceBeam n]).onSlice n fun s =>
    { s with
             postLeft := d.fld (Fld.CHN_DEF_CFG_DEF_POST n) - s.goodRun, badRun := 0,
             rejoinArmed := s.rejoinArmed || long }

/-- The defect detector at the end of a group (R85, R86): the group lies inside both limits or not. A bad group of a defect also flags the
good ones since the last bad one. -/
def Dev.defectGroup (d : Dev) (n g : Nat) (inside : Bool) : Dev :=
  if d.bit (Fld.CHN_STATUS_DEFECT n) then
    let d := d.when (!inside) fun d => d.flagBack n g ((g : Int) - (d.slice n).goodRun)
    let d := d.onSlice n fun s =>
      { s with defGroups := s.defGroups + 1, goodRun := if inside then s.goodRun + 1 else 0, defectSeen := true }
    let s := d.slice n
    d.when (d.fld (Fld.CHN_DEF_CFG_DEF_OFF n) ≤ s.goodRun && 2 ≤ s.servoGood) fun d => d.defectEnd n
  else
    let d := d.onSlice n fun s => { s with badRun := if inside then 0 else s.badRun + 1 }
    let need := d.fld (Fld.CHN_DEF_CFG_DEF_ON n) + 1
    d.when (need ≤ (d.slice n).badRun) fun d =>
      (d.defectStart n).flagBack n g ((g : Int) + 1 - need - d.fld (Fld.CHN_DEF_CFG_DEF_PRE n))

/-- A rejoin runs: its groups are not over (R76). -/
def SliceSt.rejoins (s : SliceSt) : Bool :=
  match s.rejoining with
  | some (_ + 1) => true
  | _ => false

/-- Whether a group ends under an erasure flag: in a rejoin or before one that is armed, after a second miss of the resync field, up
to DEF_POST groups past the last bad one of a defect; `was` says that the defect was active as the group began (R76, R80, R86,
R87). -/
def Dev.groupFlagged (d : Dev) (n : Nat) (was : Bool) : Bool :=
  let s := d.slice n
  let post := d.fld (Fld.CHN_DEF_CFG_DEF_POST n)
  let active := d.bit (Fld.CHN_STATUS_DEFECT n)
  s.rejoins || s.rejoinArmed || s.rejoinNext || s.missErase || (active && !(post < s.goodRun && 2 ≤ s.servoGood))
    || (was && !active && decide (s.goodRun ≤ post)) || (!was && 0 < s.postLeft)

/-- The exponential average of the envelope, frozen in a defect (R85); the first group of a slice that leaves Off starts it at its own
envelope: how the average begins, the spec does not say (DESIGN CHOICE, log 21). -/
def nextEnvRef (ref env tc : Nat) : Nat :=
  if ref = 0 then env * 8192 else (ref * 2 ^ tc + env * 8192 - ref) / 2 ^ tc

/-- The coefficients of a slice, as integers; tap MAIN is its seed (R70). -/
def Dev.taps (d : Dev) (n : Nat) : List Int :=
  let main := d.fld (Fld.CHN_FIR_CFG_MAIN n)
  (List.range 16).map fun k => if k = main then d.sfld (Fld.CHN_FIR_SEED_COEF n k) else d.sfld (Fld.CHN_FIR_TAP_COEF n k)

/-- A slice's equalisation target; tap 3 counts in KD mode alone (R71). -/
def Dev.target (d : Dev) (n : Nat) : List Int :=
  [d.sfld (Fld.CHN_TGT_CFG_G0 n), d.sfld (Fld.CHN_TGT_CFG_G1 n), d.sfld (Fld.CHN_TGT_CFG_G2 n),
   if d.sliceMode n = 3 then d.sfld (Fld.CHN_TGT_CFG_G3 n) else 0]

/-- The survivor depth: TENT_DEPTH, 64 in KD mode (R71, R92). -/
def Dev.tentDepth (d : Dev) (n : Nat) : Nat := if d.sliceMode n = 3 then 64 else d.fld (Fld.CHN_FIR_CFG_TENT_DEPTH n)

/-- The samples that a slice's line keeps: the fragments of a wedge interval with the delay, and in KD mode a recording frame. -/
def Dev.lineKeep (d : Dev) (n : Nat) : Nat := if d.sliceMode n = 3 then 6144 else 4608

/-- The energy of a target, at least 1. -/
def energy (g : List Int) : Nat := max 1 ((g.map fun c => (c * c).toNat).foldl (· + ·) 0)

/-- The bits of a preamble that a cold acquisition takes for gain and phase, and the bit at which its third step ends (R73). -/
def Dev.coldSteps (d : Dev) (n : Nat) : Nat × Nat :=
  let start := 8 * (d.fld (Fld.CHN_ACQ_CFG_AGC_LEN8 n) + d.fld (Fld.CHN_ACQ_CFG_ZPS_LEN8 n))
  (start, start + 8 * d.fld (Fld.CHN_ACQ_CFG_ACQ_LEN8 n))

/-- The settings of a slice for a group; `hold` freezes the adaptation. -/
def Dev.groupGains (d : Dev) (n : Nat) (hold : Bool) : GroupGains :=
  let s := d.slice n
  let tgt := d.target n
  let kd := d.sliceMode n == 3
  { g := tgt, norm := energy tgt, states := if kd then 8 else 4, depth := d.tentDepth n,
    slots := if kd then none else some (d.sliceSlots n), flywheel := d.bit (Fld.CHN_STATUS_DEFECT n) || d.heldByWrite n,
    acq := (d.fld (Fld.CHN_ACQ_CFG_KP_ACQ n), d.fld (Fld.CHN_ACQ_CFG_KI_ACQ n)),
    trk := (d.fld (Fld.CHN_TRK_CFG_KP_TRK n), d.fld (Fld.CHN_TRK_CFG_KI_TRK n)), rejoin := s.rejoins,
    cold := if s.coldRun then some (d.coldSteps n) else none,
    mu := if hold || !d.bit (Fld.CHN_FIR_CFG_ADAPT_EN n) then none
      else some (d.fld (Fld.CHN_FIR_CFG_MU_FAST n), d.fld (Fld.CHN_FIR_CFG_MU_TRK n)),
    fastLeft := s.fastLeft, main := d.fld (Fld.CHN_FIR_CFG_MAIN n), keep := d.lineKeep n }

/-- A slice runs group k of its quadrant through its equaliser, detector, timing loop and adaptation. -/
def Dev.runGroup (d : Dev) (n k : Nat) (adc : List Int) (hold : Bool) : Dev :=
  let s := d.slice n
  let r0 : GroupRun := ⟨d.taps n, s.line, s.vit, s.f, s.phase, false, 0, 0⟩
  let r := (adc.zipIdx.map fun e => ((32 * k + e.2 : Nat), e.1)).foldl (fun r e => (d.groupGains n hold).bit r ((e.1 : Int), e.2)) r0
  let d := d.each (List.zip (List.range 16) r.taps) fun d p => d.put (Fld.CHN_FIR_TAP_COEF n p.1) (codeOf 10 p.2)
  let d := d.onSlice n fun s =>
    { s with phase := r.phase % 2 ^ 20, line := r.line, vit := r.vit, fastLeft := s.fastLeft - r.fast }
  (d.setF n r.f).when r.limit fun d => d.freqLimit n

/-- The tracking AGC (R66): (TARGET - m) / 2^AGC_K codes, truncated toward zero, within 0 to 255. -/
def agcStep (gain target k : Nat) (adc : List Int) : Nat :=
  (clampInt 0 255 (gain + truncDiv ((32 * target : Nat) - (sumAbs adc : Int)) (32 * 2 ^ k))).toNat

/-- The groups of a quadrant with one more. -/
def withGroup (l : List Nat) (k : Nat) (b : Bool) : List Nat := if b && !l.contains k then k :: l else l

/-- A Data-mode slice whose timing is in range, on a head that does not write or pause, delivers fragments (R20, R77, R137). -/
def Dev.delivers (d : Dev) (n : Nat) : Bool :=
  d.sliceMode n == 1 && !(d.slice n).freqHeld && !d.writing (n / 10) && !(d.head (n / 10)).paused

/-- The slots whose fragment of wedge interval w is born in group k: the slot that runs on into the interval at its first group, and one whose
codeword begins in the group (R83; log 153). -/
def bornSlots (slots frag w k : Nat) : List Nat :=
  (List.range 2).filterMap fun i =>
    let slot := 32 * k / slotBits + i
    let code := slot * slotBits + headBits
    let first := max code (32 * (w % 512 * frag))
    if slot < slots && decide (first / 32 = k) && decide (first < code + codeBits) then some slot else none

/-- Fragments are born in group k, each with its ESN (R83). -/
def Dev.bear (d : Dev) (n k : Nat) : Dev :=
  if !d.delivers n then d
  else
    let w := (d.head (n / 10)).wedge
    d.each (bornSlots (d.sliceSlots n) (d.sliceFrag n) w k) fun d slot =>
      let e := d.esn
      d.issue.onSlice n fun s => { s with births := (w, slot, e) :: s.births.take 3 }

/-- SLICE_GROUP_END: the end of a 32-bit group of a slice that works. -/
def Dev.groupEnd (d : Dev) (n : Nat) (g : GroupSamples) : Dev :=
  if d.sliceMode n = 0 then d
  else
    let s := d.slice n
    let k := s.groupNow
    let adc := g.adc.toList.map BitVec.toInt
    let ref := if s.envRef = 0 then g.envelope * 8192 else s.envRef
    let inside := d.fld (Fld.CHN_DEF_CFG_ENV_LO n) * ref ≤ 32 * 8192 * g.envelope &&
      32 * 8192 * g.envelope ≤ d.fld (Fld.CHN_DEF_CFG_ENV_HI n) * ref
    let was := d.bit (Fld.CHN_STATUS_DEFECT n)
    let d := (d.bear n k).defectGroup n k inside
    let flagged := d.groupFlagged n was
    let gain := d.fld (Fld.CHN_MON_GAIN n)
    let blank := blankCodes (d.fld (Fld.CHN_DEF_CFG2_BLANK_THR n)) g.envelope gain adc
    let defect := d.bit (Fld.CHN_STATUS_DEFECT n)
    let frozen := flagged || blank || was || defect || d.heldByWrite n
    let d := d.runGroup n k adc frozen
    let hold := frozen || d.bit (Fld.CHN_AGC_CFG_AGC_HOLD n) || s.coldRun
    let d := d.when (!hold) fun d =>
      d.put (Fld.CHN_MON_GAIN n) (agcStep gain (d.fld (Fld.CHN_AGC_CFG_TARGET n)) (d.fld (Fld.CHN_AGC_CFG_AGC_K n)) adc)
    d.onSlice n fun s =>
      { s with
        envRef := if defect then ref else nextEnvRef ref g.envelope (d.fld (Fld.CHN_DEF_CFG_ENV_TC n))
        erased := withGroup s.erased k flagged
        blanks := withGroup s.blanks k blank
        groupNow := k + 1
        postLeft := if was then s.postLeft else s.postLeft - 1
        rejoining := s.rejoining.map (· - 1) }

/-- One servo sample of the beam of a slice: below SSUM_LO/32 of its reference it starts a defect, and two good ones
help to clear it (R85, R86). -/
def Dev.servoSum (d : Dev) (n : Nat) (sum ref : Nat) : Dev :=
  if d.sliceMode n = 0 then d
  else if 32 * sum < d.fld (Fld.CHN_DEF_CFG_SSUM_LO n) * ref then
    let d := d.onSlice n fun s => { s with servoGood := 0 }
    if d.bit (Fld.CHN_STATUS_DEFECT n) then d
    else
      let g := (d.slice n).groupNow
      (d.defectStart n).flagBack n g ((g : Int) - d.fld (Fld.CHN_DEF_CFG_DEF_PRE n))
  else
    let d := d.onSlice n fun s => { s with servoGood := min 2 (s.servoGood + 1) }
    d.when (d.bit (Fld.CHN_STATUS_DEFECT n) && 2 ≤ (d.slice n).servoGood
      && d.fld (Fld.CHN_DEF_CFG_DEF_OFF n) ≤ (d.slice n).goodRun) fun d => d.defectEnd n

/-! ## The wedge field of one slice (R78 to R80) -/

/-- The tone of a quarter of the bit rate, as its in-phase and quadrature sums over four-bit turns (R45, R73). -/
def toneSums : List Int → Int × Int
  | a :: b :: c :: e :: l =>
    let r := toneSums l
    (a - c + r.1, b - e + r.2)
  | _ => (0, 0)

/-- How far the tone's samples stand from its zero crossings and peaks after a move of k/64 bit: the lesser of the two axes. -/
def toneMiss (iq : Int × Int) (k : Int) : Nat :=
  let i := (4 * k % 1024).toNat
  let c := fullScale (cosFix i)
  let s := fullScale (sinFix i)
  min (iq.1 * c + iq.2 * s).natAbs (iq.2 * c - iq.1 * s).natAbs

/-- The first of a list that has the least miss. -/
def leastMiss (iq : Int × Int) : List Int → Int
  | [] => 0
  | k :: ks => ks.foldl (fun b x => if toneMiss iq x < toneMiss iq b then x else b) k

/-- The phase of the tone against the nearest axis in 1/64 channel bit, from -32 to 32 (R73; log 124). -/
def tonePhase64 (xs : List Int) : Int :=
  leastMiss (toneSums xs) ((List.range 33).flatMap fun j => if j = 0 then [0] else [-(j : Int), (j : Int)])

/-- The one-shot gain change 20·log10(TARGET / m) in 0.125 dB, within ±12 dB, for m = sum / n (R66): the count of half-code
thresholds that (TARGET / m)^320 passes. -/
def coldGain (target n sum : Nat) : Int :=
  let num := (n * target) ^ 320
  let den := sum ^ 320
  ((List.range 192).filter fun i =>
    if 2 * i + 1 < 192 then den ≤ num * 10 ^ (191 - 2 * i) else den * 10 ^ (2 * i - 191) ≤ num).length - 96

/-! ### The servo part (R43, R78) -/

/-- The offsets of a half-width in order of preference: the smaller magnitude first, then the negative (R81). -/
def syncOffsets : Nat → List Int
  | 0 => [0]
  | n + 1 => syncOffsets n ++ [-((n : Int) + 1), (n : Int) + 1]

/-- The running sums of a list, 0 first. -/
def runningSums : Nat → List Nat → List Nat
  | a, [] => [a]
  | a, x :: xs => a :: runningSums (a + x) xs

/-- The codes of a servo part by magnitude, with their running sums. -/
structure ServoPart where
  zone : Nat
  mags : List Nat
  sums : List Nat

def servoPart (zone : Nat) (m : SliceWedge) : ServoPart :=
  let l := m.servo.map fun v => v.toInt.natAbs
  ⟨zone, l, runningSums 0 l⟩

/-- The integral of |x| from the first code to a place in 1/8 bit. -/
def ServoPart.upTo (p : ServoPart) (e : Nat) : Nat := 8 * p.sums.getD (e / 8) 0 + e % 8 * p.mags.getD (e / 8) 0

/-- Where wedge symbol i begins, in 1/8 bit of the codes held, when the wedge stands j/8 bit past its expected place: a symbol is 1/1,024 of
B_z (R42, R46, R79). -/
def ServoPart.at (p : ServoPart) (j : Int) (i : Nat) : Nat := (32 + j + (i * 859375 / (768 * (80 - p.zone)) : Nat)).toNat

/-- The integral of |x| over wedge symbol i. -/
def ServoPart.symbol (p : ServoPart) (j : Int) (i : Nat) : Nat := p.upTo (p.at j (i + 1)) - p.upTo (p.at j i)

/-- The wedge preamble and mark, S0 to S11 (R43). -/
def wedgePattern (w : Nat) : List Bool :=
  [true, false, true, false, true, false] ++ if w = 0 then [true, true, false, false, true, false] else [true, true, true, false, false, false]

/-- How far the marks of the preamble and the wedge mark stand out at a place. -/
def ServoPart.contrast (p : ServoPart) (w : Nat) (j : Int) : Int :=
  ((wedgePattern w).zipIdx.map fun e => if e.1 then (p.symbol j e.2 : Int) else -(p.symbol j e.2 : Int)).foldl (· + ·) 0

/-- The place of the wedge mark against its expected one, to 1/8 bit within 4 bits: where it stands out most, of equals the nearest and then
the earlier (R78; log 125). -/
def ServoPart.place (p : ServoPart) (w : Nat) : Int :=
  (syncOffsets 32).foldl (fun b j => if p.contrast w b < p.contrast w j then j else b) 0

/-- The sum of the amplitudes of the three marks of the wedge preamble, S0, S2 and S4 (R43). -/
def ServoPart.level (p : ServoPart) (j : Int) : Nat := p.symbol j 0 + p.symbol j 2 + p.symbol j 4

/-- A wedge symbol holds marks: its amplitude exceeds half that of the preamble's marks (R78; log 125). -/
def ServoPart.marked (p : ServoPart) (j : Int) (i : Nat) : Bool := p.level j < 6 * p.symbol j i

/-- The biphase-coded address byte, S12 to S27, most significant bit first; none where a pair is no code (R43). -/
def ServoPart.address (p : ServoPart) (j : Int) : Option Byte :=
  let pair (i : Nat) : Bool × Bool := (p.marked j (12 + 2 * i), p.marked j (13 + 2 * i))
  if (List.range 8).all fun i => (pair i).1 != (pair i).2 then
    some (BitVec.ofNat 8 ((List.range 8).foldl (fun v i => 2 * v + if (pair i).1 then 1 else 0) 0))
  else none

/-- The amplitude code that a burst of the preamble's level reads, which the spec leaves open (log 125). -/
def burstScale : Nat := Config.freeOf 4 0

/-- The 12-bit amplitude of burst k, A to D, normalised by the preamble's (R78). -/
def ServoPart.burst (p : ServoPart) (j : Int) (k : Nat) : Nat :=
  let sum := p.upTo (p.at j (32 + 4 * k)) - p.upTo (p.at j (28 + 4 * k))
  if p.level j = 0 then 0 else min 4095 (3 * sum * burstScale / (4 * p.level j))

/-- What a slice makes of a wedge field's servo part: whether the mark was found, the address byte, the bursts, the channel bits counted from
mark to mark in 1/64 bit, and ε against B_z of the zone that it runs under (R46, R78, R79). -/
structure WedgeRead where
  found : Bool
  address : Option Byte
  bursts : List Nat
  counted64 : Int
  eps64 : Int

/-- A slice reads the servo part of wedge w. -/
def Dev.readWedge (d : Dev) (n w : Nat) (m : SliceWedge) : WedgeRead :=
  let p := servoPart (d.fld (Fld.CHN_ZONE_CUR_ZONE n)) m
  let j := p.place w
  let counted : Int := m.counted64 + 8 * j
  ⟨(List.range 6).map (fun i => p.marked j (6 + i)) == (wedgePattern w).drop 6, p.address j, (List.range 4).map (p.burst j), counted,
    counted - roundDiv (64 * 859375) (6 * (80 - p.zone))⟩

/-- The wedge demodulator takes an address byte (R78): a complete valid block loads TRACK and is checked against the
track expected for the beam. -/
def Dev.sliceAddress (d : Dev) (n w : Nat) (b : Option Byte) (expected : Option Nat) : Dev :=
  let d := d.onSlice n fun s => { s with address := match b with
    | some b => if w % 8 = 0 then [b] else s.address ++ [b]
    | none => [] }
  let l := (d.slice n).address
  let v := addressBlock l
  let ok := l.length == 8 && w % 8 == 7 && addressValid v
    && (List.range 8).all (fun i => (l[i]?.getD 0).toNat / 32 == i)
  d.when ok fun d =>
    let track := bitsOf 39 22 v
    let layer := bitsOf 21 19 v
    let d := d.setReg (Adr.CHN_TRACK n) (BitVec.ofNat 32 (2 ^ 31 + layer * 2 ^ 18 + track))
    let bad := match expected with
      | some e => e != track
      | none => false
    d.when bad fun d => (d.putBit (Fld.CHN_STATUS_ADDR_MISMATCH n) true).event .addrMismatch n 0 [layer, track]

/-- The slice begins a rejoin at a resync field (R76). -/
def Dev.startRejoin (d : Dev) (n : Nat) (tone64 : Int) : Dev :=
  d.onSlice n fun s =>
    { s with rejoining := some (d.fld (Fld.CHN_ACQ_CFG_RACQ_LEN n)), rejoinArmed := false, rejoinDone := false,
             phase := (s.phase + tone64 * 2 ^ 14) % 2 ^ 20 }

/-- The resync marker, 0xf0, most significant bit first (R45). -/
def resyncMarker : List Bool := [true, true, true, true, false, false, false, false]

/-- The Hamming distances of the marker at offsets -2 to 2 (R79). -/
def resyncDistances (bits : List Bool) : List Nat :=
  (List.range 5).map fun i => ((List.zip (bits.drop i) resyncMarker).filter fun e => e.1 != e.2).length

/-- A resync offset from -2 to 2 qualifies: Hamming distance at most 1 (R79). -/
def resyncOk (l : List Nat) (i : Nat) : Bool := l[i]?.getD 8 ≤ 1

/-- The bits that the count moves: where offset 0 does not qualify and exactly one other matches exactly (R79). -/
def resyncSlip (l : List Nat) : Option Int :=
  if resyncOk l 2 then none
  else
    match ([0, 1, 3, 4] : List Nat).filter (fun i => l[i]?.getD 8 == 0) with
    | [i] => some ((i : Int) - 2)
    | _ => none

/-- The marks that wedge w leaves for the fragment that follows (R80, R83). -/
def Dev.markWedge (d : Dev) (n w : Nat) (miss slip : Bool) : Dev :=
  d.onSlice n fun s => { s with markMiss := miss, marks := (w, miss, slip) :: (s.marks.filter fun e => e.1 != w).take 2 }

/-- The resync search of a slice at wedge w, steps 4 and 5 (R79, R80). -/
def Dev.resync (d : Dev) (n w : Nat) (m : SliceWedge) : Dev :=
  let dist := resyncDistances m.resync.toList
  let tone64 := tonePhase64 (m.tone.toList.map BitVec.toInt)
  if d.bit (Fld.CHN_STATUS_DEFECT n) then (d.markWedge n w false false).onSlice n fun s => { s with missErase := false }
  else if (List.range 5).any (resyncOk dist) then
    let slip := resyncSlip dist
    let d := d.when slip.isSome fun d => d.count (Adr.CHN_CNT n 3)
    let s := d.slice n
    let d := d.when s.rejoinDone fun d => d.gainLock n
    let d := (d.markWedge n w false slip.isSome).onSlice n fun s =>
      { s with missRun := 0, rejoinDone := false, missErase := false, bitMove := s.bitMove + slip.getD 0 }
    if s.rejoinArmed then d.startRejoin n tone64
    else d.onSlice n fun s => { s with phase := (s.phase + clampInt (-32) 32 tone64 * 2 ^ 14) % 2 ^ 20 }
  else
    let d := ((d.putBit (Fld.CHN_STATUS_RESYNC_MISS n) true).count (Adr.CHN_CNT n 4)).event .resyncMiss n 0 []
    let again := 1 ≤ (d.slice n).missRun
    let d := (d.markWedge n w true false).onSlice n fun s => { s with missRun := s.missRun + 1, missErase := again }
    d.when again fun d => (d.loseLock n).startRejoin n tone64

/-- A slice takes up a new beam at the wedge field, with a rejoin (R64). -/
def Dev.takeBeam (d : Dev) (n : Nat) : Dev :=
  match (d.slice n).served with
  | some _ => d.onSlice n fun s => { s with served := none, rejoinArmed := s.rejoinArmed || d.sliceLive n }
  | none => d

/-- A slice anchors itself on a mark of the head's timebase, offset by its SKEW (R79, steps 1 to 3). The groups and samples that the commands
bring are those of the count so moved (log 15). -/
def Dev.anchorWedge (d : Dev) (n : Nat) (eps64 : Int) : Dev :=
  let d := d.moveF n ((d.slice n).f - wedgeFreq (d.fld (Fld.CHN_ZONE_CUR_ZONE n)) (d.fld (Fld.CHN_TRK_CFG_WF n)) eps64)
  let d := d.onSlice n fun s => { s with bitMove := 0, anchor := d.sfld (Fld.CHN_WEDGE_CFG_SKEW n) }
  d.when (256 < eps64.natAbs) fun d => d.loseLock n

/-- The bit count stands at the first group of wedge interval w; with a quadrant, the flags of the one before its end (R50, R79). -/
def Dev.placeWedge (d : Dev) (n w : Nat) : Dev :=
  let d := d.onSlice n fun s => { s with groupNow := w % 512 * d.sliceFrag n }
  d.when (w % 512 == 0) fun d => d.onSlice n fun s =>
    { s with oldErased := s.erased, oldBlanks := s.blanks, erased := [], blanks := [] }

/-- The servo part of wedge w for a slice (R78, R79): the mark, the address byte, and the anchoring on the head's timebase where that has a
mark. -/
def Dev.sliceServo (d : Dev) (n w : Nat) (r : WedgeRead) (anchored : Bool) (expected : Option Nat) : Dev :=
  let d := d.when (!r.found) fun d => (d.putBit (Fld.CHN_STATUS_WEDGE_MISS n) true).count (Adr.CHN_CNT n 6)
  let d := d.when r.found fun d => d.sliceAddress n w r.address expected
  d.when anchored fun d => d.anchorWedge n r.eps64

/-- The resync field of wedge w for a slice that works; a rejoin that a map commit of this wedge armed is due at the next one (R79, R80,
R168). -/
def Dev.sliceResync (d : Dev) (n w : Nat) (m : SliceWedge) : Dev :=
  d.when (d.sliceLive n) fun d =>
    ((d.placeWedge n w).resync n w m).onSlice n fun s =>
      { s with rejoinArmed := s.rejoinArmed || s.rejoinNext, rejoinNext := false }

/-- BEAM_SUSPECT at the end of a wedge interval (R88): the interval counts where the beam was in a defect and not every
other active beam was; `others` says that every other one was. -/
def Dev.suspectInterval (d : Dev) (n : Nat) (others : Bool) : Dev :=
  if d.sliceLive n then
    let s := d.slice n
    let d := if s.defectSeen && others then d
      else d.onSlice n fun s => { s with suspectRun := if s.defectSeen then s.suspectRun + 1 else 0 }
    let d := d.onSlice n fun s => { s with defectSeen := d.bit (Fld.CHN_STATUS_DEFECT n) }
    d.when (d.fld (Fld.CHN_DEF_CFG2_SUSPECT_WEDGES n) ≤ (d.slice n).suspectRun && 0 < (d.slice n).suspectRun
      && !d.bit (Fld.CHN_STATUS_BEAM_SUSPECT n)) fun d =>
      (d.putBit (Fld.CHN_STATUS_BEAM_SUSPECT n) true).event .beamSuspect n 0 [d.sliceBeam n]
  else d

/-! ## Preamble and sync mark (R73 to R75, R81, R82) -/

/-- A frame preamble: an armed cold acquisition sets gain and phase from its first bits and awaits the sync mark; else a warm pass
(R73, R75). The gain holds under AGC_HOLD, an erasure flag, a defect or blank codes (R67, R87). -/
def Dev.preamble (d : Dev) (n : Nat) (p : PreambleRecord) : Dev :=
  if d.sliceMode n ≠ 0 ∧ (d.slice n).coldArmed ∧ !d.heldByWrite n then
    let len := 8 * d.fld (Fld.CHN_ACQ_CFG_AGC_LEN8 n)
    let xs := p.adc.map BitVec.toInt
    let codes := (List.range len).map fun i => xs.getD i 0
    let gain := d.fld (Fld.CHN_MON_GAIN n)
    let hold := d.bit (Fld.CHN_AGC_CFG_AGC_HOLD n) || d.bit (Fld.CHN_STATUS_DEFECT n) || d.groupFlagged n false || len == 0
      || blankCodes (d.fld (Fld.CHN_DEF_CFG2_BLANK_THR n)) p.envelope gain codes
    let step := if sumAbs codes = 0 then 96 else coldGain (d.fld (Fld.CHN_AGC_CFG_TARGET n)) len (sumAbs codes)
    let d := d.when (!hold) fun d => d.put (Fld.CHN_MON_GAIN n) (clampInt 0 255 (gain + step)).toNat
    let move64 := tonePhase64 ((xs.drop len).take (8 * d.fld (Fld.CHN_ACQ_CFG_ZPS_LEN8 n)))
    d.onSlice n fun s =>
      { s with coldArmed := false, coldRun := true, freqOk := true, phase := (s.phase + move64 * 2 ^ 14) % 2 ^ 20 }
  else d

/-- The samples around an expected sync mark, from 8 bits before it to 8 bits after its end: tentative decisions, erasure flags, FIR
outputs, and whether every group at offset 0 is blank (R81, R82). -/
structure SyncWindow where
  bits : List Bool
  flags : List Bool
  fir : List Int
  allBlank : Bool

/-- The slot whose mark a slice searches: that of the newest decision (R81). -/
def Dev.syncSlot (d : Dev) (n : Nat) : Nat :=
  (((d.slice n).line.drop (d.tentDepth n)).headD noSample).pos.toNat / slotBits

/-- The window of a slot's mark, expected 128 bits past its start, in the slice's line; what the line does not hold counts as
flagged (R81). -/
def Dev.syncWindow (d : Dev) (n slot : Nat) : SyncWindow :=
  let s := d.slice n
  let start : Int := slot * slotBits + 120
  let at' (i : Nat) : Option LineSample := (s.line.drop (d.tentDepth n)).find? fun e => e.pos == start + i
  let l := (List.range 64).map at'
  { bits := l.map fun e => (e.map (·.bit)).getD false
    flags := l.map fun e => match e with
      | some e => s.erased.contains (e.pos.toNat / 32)
      | none => true
    fir := l.map fun e => (e.map (·.z)).getD 0
    allBlank := (List.range 48).all fun i => s.blanks.contains ((slot * slotBits + 128 + i) / 32) }

/-- The Hamming distance of the sync mark at offset k, a flagged decision counting as disagreeing (R81); the window
begins 8 bits before the expected place. -/
def syncDistance (w : SyncWindow) (k : Int) : Nat :=
  let s := (k + 8).toNat
  ((List.range 48).filter fun i =>
    (w.flags[s + i]?.getD true) || (w.bits[s + i]?.getD false) != (syncMark[i]?.getD false)).length

/-- The offset of least distance, the first of equals. -/
def bestHard (w : SyncWindow) : List Int → Option (Int × Nat)
  | [] => none
  | k :: ks =>
    match bestHard w ks with
    | none => some (k, syncDistance w k)
    | some r => if syncDistance w k ≤ r.2 then some (k, syncDistance w k) else some r

/-- The ideal response of the mark after the preamble, whose last bits are 0 (R82). -/
def syncIdeal (g : List Int) : List Int :=
  (List.range 48).map fun i =>
    targetOut g ((List.range 4).map fun j => if j ≤ i then syncMark[i - j]?.getD false else (i + 4 - j) % 4 < 2)

/-- The correlation sum and the energy of the unflagged samples at offset k (R82). -/
def softTerms (w : SyncWindow) (ideal : List Int) (k : Int) : Int × Int :=
  let s := (k + 8).toNat
  ((List.range 48).filter fun i => !(w.flags[s + i]?.getD true)).foldl
    (fun acc i =>
      let y := w.fir[s + i]?.getD 0
      (acc.1 + y * ideal[i]?.getD 0, acc.2 + y * y)) (0, 0)

/-- Correlation a is at least correlation b, both over the same ideal energy: signs, then squares. -/
def corrGe (a b : Int × Int) : Bool :=
  let ea := if a.2 = 0 then 1 else a.2
  let eb := if b.2 = 0 then 1 else b.2
  decide (b.1 * b.1.natAbs * ea ≤ a.1 * a.1.natAbs * eb)

/-- The offset of best correlation, the first of equals. -/
def bestSoft (w : SyncWindow) (ideal : List Int) : List Int → Option (Int × (Int × Int))
  | [] => none
  | k :: ks =>
    let t := softTerms w ideal k
    match bestSoft w ideal ks with
    | none => some (k, t)
    | some r => if corrGe t r.2 then some (k, t) else some r

/-- The correlation reaches SOFT_MIN/16; one over samples without energy is 0 (R82; log 60). -/
def softPasses (ideal : List Int) (min16 : Nat) (t : Int × Int) : Bool :=
  let e1 := (ideal.map fun c => c * c).foldl (· + ·) 0
  if t.2 = 0 then min16 == 0
  else decide (0 ≤ t.1) && decide ((min16 * min16 : Int) * e1 * t.2 ≤ 256 * t.1 * t.1)

/-- The outcome of a search: class, offset and distance (R81, R82). -/
def syncOutcome (thr win softMin : Nat) (softEn : Bool) (g : List Int) (w : SyncWindow) : SyncClass × Int × Nat :=
  let offs := syncOffsets (min win 8)
  let nominal := (SyncClass.nominal, (0 : Int), syncDistance w 0)
  match bestHard w offs with
  | none => nominal
  | some h =>
    if h.2 ≤ thr then (.hard, h.1, h.2)
    else if w.allBlank || !softEn then nominal
    else
      match bestSoft w (syncIdeal g) offs with
      | none => nominal
      | some t => if softPasses (syncIdeal g) softMin t.2 then (.soft, t.1, syncDistance w t.1) else nominal

/-- SYNC_MARK_SEARCH of a slice (R74, R81, R82, R93). -/
def Dev.syncSearch (d : Dev) (n : Nat) : Dev :=
  if d.sliceLive n then
    let r := syncOutcome (d.fld (Fld.CHN_SYNC_CFG_THR n)) (d.fld (Fld.CHN_SYNC_CFG_WIN n))
      (d.fld (Fld.CHN_SYNC_CFG_SOFT_MIN n)) (d.bit (Fld.CHN_SYNC_CFG_SOFT_EN n)) (d.target n) (d.syncWindow n (d.syncSlot n))
    let cold := (d.slice n).coldRun
    let d := match r.1 with
      | .hard => d.count (Adr.CHN_CNT n 0)
      | .soft => (d.count (Adr.CHN_CNT n 1)).putBit (Fld.CHN_STATUS_SYNC_FALLBACK n) true
      | .nominal => (d.count (Adr.CHN_CNT n 2)).putBit (Fld.CHN_STATUS_SYNC_FALLBACK n) true
    let d := d.when cold fun d =>
      if r.1 = .nominal then
        ((d.putBit (Fld.CHN_STATUS_ACQ_FAIL n) true).count (Adr.CHN_CNT n 7)).when (d.bit (Fld.CHN_STATUS_LOCKED n)) fun d =>
          d.loseLock n
      else d.gainLock n
    let slot := d.syncSlot n
    d.onSlice n fun s => { s with syncs := (slot, r) :: (s.syncs.filter fun e => e.1 != slot).take 3, coldRun := false }
  else d

/-- The groups of the quadrant that a frame slot touches. -/
def slotGroups (slot : Nat) : List Nat :=
  let first := slot * slotBits / 32
  (List.range ((slot * slotBits + slotBits - 1) / 32 + 1 - first)).map (first + ·)

/-- The groups of the quadrant of a wedge interval that carry an erasure flag, and those that are blank: of the quadrant before where the
interval lies there. -/
def Dev.quadFlags (d : Dev) (n w : Nat) : List Nat × List Nat :=
  let s := d.slice n
  if w / 512 = (d.head (n / 10)).wedge / 512 then (s.erased, s.blanks) else (s.oldErased, s.oldBlanks)

/-- The blank criterion of a frame at its last fragment, over the groups of its slot as they are flagged by then (R89). -/
def Dev.frameBlank (d : Dev) (n slot w : Nat) : Bool :=
  let q := d.quadFlags n w
  let groups := slotGroups slot
  let clean := groups.filter fun g => !q.1.contains g
  decide (((d.slice n).syncAt slot).1 ≠ .hard) && decide (2 * (groups.length - clean.length) < groups.length)
    && decide (9 * clean.length ≤ 10 * (clean.filter q.2.contains).length)

/-! ## Meanings -/

/-- The effect of a command on a slice; a slice that fuses disable takes none (R2). -/
def State.onSlice (s : State) (n : Nat) (f : Dev → Dev) : Host.Outcome State Fault Refusal :=
  s.on fun d => if d.hasHead (headOfSlice n) then f d else d

def execSliceGroupEnd (n : Slice) (g : GroupSamples) (s : State) : Host.Outcome State Fault Refusal :=
  s.onSlice n fun d => d.groupEnd n g

def execFramePreamble (n : Slice) (p : PreambleRecord) (s : State) : Host.Outcome State Fault Refusal :=
  s.onSlice n fun d => d.preamble n p

/-- SYNC_MARK_SEARCH: what is searched stands in the slice, and the second operand says nothing. -/
def execSyncMarkSearch (n : Slice) (_w : Unit) (s : State) : Host.Outcome State Fault Refusal :=
  s.onSlice n fun d => d.syncSearch n

/-- REJOIN_END: RACQ_LEN × 32 bits are over, tracking gains have returned, and LOCKED rises when the next resync field is found
(R76); a rejoin whose groups are not over goes on. -/
def execRejoinEnd (n : Slice) (s : State) : Host.Outcome State Fault Refusal :=
  s.onSlice n fun d => d.onSlice n fun s => if s.rejoining = some 0 then { s with rejoining := none, rejoinDone := true } else s

def execSliceSetMode (n : Slice) (mode : BitVec 2) (s : State) : Host.Outcome State Fault Refusal :=
  s.onSlice n fun d => d.sliceSetMode n mode.toNat

def execSliceSetBeam (n : Slice) (beam : BitVec 4) (s : State) : Host.Outcome State Fault Refusal :=
  s.onSlice n fun d => d.sliceSetBeam n beam.toNat

/-- SLICE_COLD: a cold acquisition is armed for the next frame preamble (R75). -/
def execSliceCold (n : Slice) (s : State) : Host.Outcome State Fault Refusal :=
  s.onSlice n fun d => d.onSlice n fun s => { s with coldArmed := true }

def execSliceCntClr (n : Slice) (s : State) : Host.Outcome State Fault Refusal :=
  s.onSlice n fun d => d.clearCounters (Adr.CHN_CNT n)

end Sys2Proof.Machine
end

