-- ==== Sys2Proof/Machine/Codes.lean ====
section
/-! DEFINITION. The LDPC code and its min-sum decoder (R105 to R110, R116), arithmetic over binary fields, and the
Reed-Solomon stripe code over GF(2^10) (R122, R123, R126). -/

namespace Sys2Proof.Machine

/-! ## The LDPC code -/

/-- The shift of block (r, c) of the base matrix, where it is not zero (R106). -/
def ldpcShift (r c : Nat) : Option Nat :=
  if c < 65 then
    ((List.range 4).find? fun i => (c + i * (1 + c / 11)) % 11 = r).map fun i => (97 * c + 211 * i + 13 * c * i) % 512
  else if c = 65 then (if r = 0 ∨ r = 10 then some 1 else if r = 5 then some 0 else none)
  else if r + 65 = c ∨ r + 66 = c then some 0 else none

/-- The non-zero blocks of a block row, by rising column. -/
def ldpcRow (r : Nat) : List (Nat × Nat) :=
  (List.range 76).filterMap fun c => (ldpcShift r c).map fun s => (c, s)

/-- rot(x, s)[t] = x[(t + s) mod 512] (R108). -/
def rotBlock {α : Type} (x : List α) (s : Nat) : List α := x.drop s ++ x.take s

/-- A list cut into blocks of n. -/
def chunks {α : Type} (n : Nat) : Nat → List α → List (List α)
  | 0, _ => []
  | k + 1, l => l.take n :: chunks n k (l.drop n)

def xorBits (a b : List Bool) : List Bool := List.zipWith (fun x y => x != y) a b

/-- λ(r), the sum of the rotated information blocks of a row (R108). -/
def ldpcLambda (u : List (List Bool)) (r : Nat) : List Bool :=
  (ldpcRow r).foldl (fun acc b => if b.1 < 65 then xorBits acc (rotBlock (u[b.1]?.getD []) b.2) else acc)
    (List.replicate 512 false)

/-- q(66 + j) for j from 1 on, given q(65) and the parity block before (R108). -/
def ldpcParity (u : List (List Bool)) (q65 : List Bool) : Nat → Nat → List Bool → List (List Bool)
  | 0, _, _ => []
  | n + 1, j, prev =>
    let q := xorBits (xorBits (ldpcLambda u j) prev) (if j = 5 then q65 else List.replicate 512 false)
    q :: ldpcParity u q65 n (j + 1) q

/-- The codeword of 33,280 information bits (R107, R108). -/
def ldpcEncode (info : List Bool) : List Bool :=
  let u := chunks 512 65 info
  let q65 := (List.range 11).foldl (fun acc r => xorBits acc (ldpcLambda u r)) (List.replicate 512 false)
  let q66 := xorBits (ldpcLambda u 0) (rotBlock q65 1)
  info ++ q65 ++ q66 ++ (ldpcParity u q65 9 1 q66).flatten

/-- Unsatisfied checks of hard decisions held in 76 blocks (R110). -/
def ldpcUsc (hard : List (List Bool)) : Nat :=
  ((List.range 11).map fun r =>
    ((ldpcRow r).foldl (fun acc b => xorBits acc (rotBlock (hard[b.1]?.getD []) b.2))
      (List.replicate 512 false)).countP id).foldl (· + ·) 0

/-- What a check knows after some of its bits: least and second least magnitude, the first block holding the least,
and whether the product of the signs is negative. -/
structure CheckMin where
  min1 : Nat
  min2 : Nat
  first : Nat
  neg : Bool

/-- A bit of value t at block b enters a check. -/
def CheckMin.add (m : CheckMin) (b : Nat) (t : Int) : CheckMin :=
  let a := t.natAbs
  let neg := m.neg != decide (t < 0)
  if a < m.min1 then ⟨a, m.min1, b, neg⟩ else if a < m.min2 then ⟨m.min1, a, m.first, neg⟩ else ⟨m.min1, m.min2, m.first, neg⟩

/-- The check-to-variable message to a bit of value t at block b (R109). -/
def CheckMin.message (m : CheckMin) (norm b : Nat) (t : Int) : Int :=
  let mag : Int := min 31 (norm * (if m.first = b then m.min2 else m.min1) / 16 : Nat)
  if m.neg != decide (t < 0) then -mag else mag

/-- The checks of a layer over its variable-to-check values, block after block from block b. -/
def layerMins : Nat → List (List Int) → List CheckMin → List CheckMin
  | _, [], m => m
  | b, t :: ts, m => layerMins (b + 1) ts (List.zipWith (fun x v => x.add b v) m t)

/-- Posteriors L, 76 blocks, and messages R, row by row and block by block (R109). -/
structure LdpcState where
  l : List (List Int) := []
  r : List (List (List Int)) := []
  deriving DecidableEq, Repr

/-- The decoder before its first iteration: the channel inputs as posteriors, and no messages. -/
def LdpcState.start (chan : List Int) : LdpcState :=
  ⟨chunks 512 76 chan, (List.range 11).map fun r => (ldpcRow r).map fun _ => List.replicate 512 0⟩

/-- One layer: new posteriors and the row's new messages. -/
def ldpcLayer (norm : Nat) (l : List (List Int)) (row : List (Nat × Nat)) (msgs : List (List Int)) :
    List (List Int) × List (List Int) :=
  let ts := List.zipWith (fun (b : Nat × Nat) m => List.zipWith (· - ·) (rotBlock (l[b.1]?.getD []) b.2) m) row msgs
  let mins := layerMins 0 ts (List.replicate 512 ⟨1024, 1024, 0, false⟩)
  let out := (List.zip (List.range ts.length) ts).map fun p =>
    List.zipWith (fun m t => CheckMin.message m norm p.1 t) mins p.2
  let post := List.zipWith (fun t m => List.zipWith (fun a b => clampInt (-255) 255 (a + b)) t m) ts out
  let l' := (List.zip row post).foldl (fun acc p => acc.set p.1.1 (rotBlock p.2 (512 - p.1.2))) l
  (l', out)

/-- The layers of an iteration, in order. -/
def ldpcLayers (norm : Nat) : List Nat → List (List Int) → List (List (List Int)) → List (List (List Int)) → LdpcState
  | r :: rs, l, m :: ms, acc =>
    let o := ldpcLayer norm l (ldpcRow r) m
    ldpcLayers norm rs o.1 ms (acc ++ [o.2])
  | _, l, _, acc => ⟨l, acc⟩

/-- One iteration over the 11 layers (R109). -/
def LdpcState.iterate (s : LdpcState) (norm : Nat) : LdpcState := ldpcLayers norm (List.range 11) s.l s.r []

/-- Hard decisions: 1 where the posterior is negative (R109). -/
def LdpcState.hard (s : LdpcState) : List (List Bool) := s.l.map fun b => b.map fun v => decide (v < 0)

/-- The sum of channel inputs and all messages, as posteriors. -/
def ldpcPosteriors (chan : List (List Int)) (r : List (List (List Int))) : List (List Int) :=
  (List.zip (List.range 11) r).foldl (fun l p =>
    (List.zip (ldpcRow p.1) p.2).foldl (fun l b =>
      l.set b.1.1 (List.zipWith (· + ·) (l[b.1.1]?.getD []) (rotBlock b.2 (512 - b.1.2)))) l) chan

/-- New channel inputs with the messages kept (R111; log 23). -/
def LdpcState.rechannel (s : LdpcState) (chan : List Int) : LdpcState :=
  { s with l := (ldpcPosteriors (chunks 512 76 chan) s.r).map fun b => b.map (clampInt (-255) 255) }

/-- Up to n iterations that stop at USC 0: the state and the iterations run. -/
def LdpcState.runUntil (norm : Nat) : Nat → LdpcState → LdpcState × Nat
  | 0, s => (s, 0)
  | n + 1, s =>
    let s' := s.iterate norm
    if ldpcUsc s'.hard = 0 then (s', 1) else
      let o := LdpcState.runUntil norm n s'
      (o.1, o.2 + 1)

/-- Bytes of bits, the least significant bit first (R107). -/
def bytesOfBits (l : List Bool) : List Byte :=
  (chunks 8 (l.length / 8) l).map fun b =>
    BitVec.ofNat 8 (b.foldr (fun x acc => 2 * acc + (if x then 1 else 0)) 0)

/-- The bits of bytes, the least significant first (R107). -/
def bitsOfBytes (l : List Byte) : List Bool := (l.map fun b => (List.range 8).map b.toNat.testBit).flatten

/-- The 4,160 information bytes of hard decisions. -/
def infoBytes (hard : List (List Bool)) : List Byte := bytesOfBits (hard.take 65).flatten

/-- The CRC-32 of a data frame's 4,160 bytes checks (R49). -/
def frameCrcOk (l : List Byte) : Bool := crc32 (l.take 4156) == fieldAt l 4156 4

/-! ## Binary fields -/

/-- Product in GF(2^m) with the polynomial p, over the n low bits of b. -/
def gfMulAux (m p : Nat) (a : Nat) : Nat → Nat → Nat
  | 0, _ => 0
  | n + 1, b =>
    let r := gfMulAux m p a n (b / 2)
    let r2 := if r.testBit (m - 1) then (2 * r) ^^^ p else 2 * r
    if b % 2 = 1 then r2 ^^^ a else r2

/-- Product in GF(2^m); p holds the field polynomial's m + 1 bits. -/
def gfMul (m p a b : Nat) : Nat := gfMulAux m p a m b

/-- a to the power n, by squaring, n below 2^k. -/
def gfPowAux (m p : Nat) : Nat → Nat → Nat → Nat
  | 0, _, _ => 1
  | k + 1, a, n =>
    let h := gfPowAux m p k (gfMul m p a a) (n / 2)
    if n % 2 = 1 then gfMul m p h a else h

def gfPow (m p a n : Nat) : Nat := gfPowAux m p (m + 1) a n

/-- The inverse in GF(2^m). -/
def gfInv (m p a : Nat) : Nat := gfPow m p a (2 ^ m - 2)

/-- Polynomial product, lowest coefficient first. -/
def gfPolyMul (m p : Nat) (a : List Nat) (x : Nat) : List Nat :=
  List.zipWith (· ^^^ ·) (0 :: a) ((a.map fun c => gfMul m p c x) ++ [0])

/-- The magnitude at locator x, given all locators and the syndromes S_0, S_1, …: the Lagrange polynomial that is 1 at x
and 0 at the others, applied to the syndromes. -/
def gfMagnitude (m p : Nat) (xs : List Nat) (x : Nat) (syn : List Nat) : Nat :=
  let others := xs.filter (· != x)
  let num := others.foldl (fun poly y => gfPolyMul m p poly y) [1]
  let den := others.foldl (fun acc y => gfMul m p acc (x ^^^ y)) 1
  gfMul m p ((List.zipWith (gfMul m p) num syn).foldl (· ^^^ ·) 0) (gfInv m p den)

/-- The errors at locators xs with magnitudes ys explain every syndrome. -/
def gfExplains (m p : Nat) (xs ys syn : List Nat) : Bool :=
  (List.zip (List.range syn.length) syn).all fun e =>
    (List.zipWith (fun x y => gfMul m p y (gfPow m p x e.1)) xs ys).foldl (· ^^^ ·) 0 == e.2

/-- The magnitudes of errors at locators xs, where the syndromes bear them out. -/
def gfSolve (m p : Nat) (xs syn : List Nat) : Option (List Nat) :=
  let ys := xs.map fun x => gfMagnitude m p xs x syn
  if gfExplains m p xs ys syn then some ys else none

/-- The subsets of k elements of a list, in order. -/
def subsets {α : Type} : Nat → List α → List (List α)
  | 0, _ => [[]]
  | _ + 1, [] => []
  | k + 1, x :: xs => (subsets k xs).map (x :: ·) ++ subsets (k + 1) xs

/-- The smallest set of at most v further positions, beside the erasures, that explains the syndromes, with the
magnitudes of both together. -/
def gfLocate {α : Type} (solve : List α → Option (List Nat)) (era rest : List α) (v : Nat) : Option (List α × List Nat) :=
  (List.range (v + 1)).findSome? fun k =>
    (subsets k rest).findSome? fun u => (solve (era ++ u)).map fun ys => (era ++ u, ys)

/-! ## The stripe code (R122, R123) -/

/-- Product in GF(2^10) over x^10 + x^3 + 1. -/
def gf10 (a b : Nat) : Nat := gfMul 10 0x409 a b

/-- g(x), highest coefficient last left out: the eight low coefficients, lowest first (R122). -/
def stripeGen : List Nat :=
  ((List.range 8).foldl (fun poly i => gfPolyMul 10 0x409 poly (gfPow 10 0x409 2 i)) [1]).take 8

/-- One step of the remainder modulo g: the register, lowest coefficient first, takes the next coefficient. -/
def stripeStep (reg : List Nat) (s : Nat) : List Nat :=
  let fb := (reg.getLast?.getD 0) ^^^ s
  List.zipWith (· ^^^ ·) (0 :: reg.dropLast) (stripeGen.map (gf10 fb))

/-- The eight parity symbols of 24 data symbols, frame 24 first (R123). -/
def stripeParity (l : List Nat) : List Nat := (l.foldl stripeStep (List.replicate 8 0)).reverse

/-- The 3,328 symbols of a frame's bytes: ten bits each, bit 10t first (R123). -/
def frameSymbols (l : List Byte) : List Nat :=
  (chunks 10 3328 (bitsOfBytes l)).map fun b => b.foldr (fun x acc => 2 * acc + (if x then 1 else 0)) 0

/-- The bytes of 3,328 symbols. -/
def symbolBytes (l : List Nat) : List Byte :=
  bytesOfBits ((l.map fun s => (List.range 10).map s.testBit).flatten)

/-- The columns of a list of equally long rows. -/
def columns {α : Type} : Nat → List (List α) → List (List α)
  | 0, _ => []
  | n + 1, rows => rows.filterMap List.head? :: columns n (rows.map List.tail)

/-- The eight parity frames of 24 data frames (R123, R125). -/
def stripeEncode (frames : List (List Byte)) : List (List Byte) :=
  let cols := (columns 3328 (frames.map frameSymbols)).map stripeParity
  (columns 8 cols).map symbolBytes

/-- The syndromes c_t(α^i), i = 0 to 7, of one codeword, frame 0 the coefficient of x^31 (R123). -/
def stripeSyndromes (c : List Nat) : List Nat :=
  (List.range 8).map fun i => c.foldl (fun acc s => gf10 acc (gfPow 10 0x409 2 i) ^^^ s) 0

/-- The locator of frame j. -/
def frameLocator (j : Nat) : Nat := gfPow 10 0x409 2 (31 - j)

/-- A codeword with its frames `js` solved for. -/
def stripeSolve (js : List Nat) (syn : List Nat) : Option (List Nat) :=
  gfSolve 10 0x409 (js.map frameLocator) syn

/-- Frames located as errors in one codeword beside the erasures e (R126). -/
def stripeErrors (e : List Nat) (syn : List Nat) : List Nat :=
  match gfLocate (fun js => stripeSolve js syn) e ((List.range 32).filter fun j => !e.contains j) ((8 - e.length) / 2) with
  | some (js, ys) => ((List.zip js ys).filter fun p => p.2 != 0 && !e.contains p.1).map fun p => p.1
  | none => []

/-- A codeword rebuilt in the frames e: the first |e| syndromes give the magnitudes; `ok` says whether all eight agree. -/
def stripeRebuild (e : List Nat) (c : List Nat) : List Nat × Bool :=
  let syn := stripeSyndromes c
  let xs := e.map frameLocator
  let ys := xs.map fun x => gfMagnitude 10 0x409 xs x syn
  let c' := (List.zip e ys).foldl (fun acc p => acc.set p.1 ((acc[p.1]?.getD 0) ^^^ p.2)) c
  (c', gfExplains 10 0x409 xs ys syn)

end Sys2Proof.Machine
end

