-- ==== Sys2Proof/Machine/Lattice.lean ====
section
/-! DEFINITION. The Lattice detector: its model of the equalised samples, the joint trellis of a position, soft outputs, and the
estimation of noise and inter-track interference (R97 to R102). Taps are in 2^-11 code, variances in 2^-16 code², a priori values in
2^-16 nat and metrics in 2^-17 nat (log 127). -/

namespace Sys2Proof.Machine

/-! ## What the detector is given -/

/-- One data-space bit of a position: the equalised sample, none where it is erased or missing, and the a priori value. -/
structure LatBit where
  y : Option Int
  a : Int
  deriving DecidableEq, Repr

/-- The model of a position (R97): target taps in codes, interference taps of the inner and the outer neighbour, variance. -/
structure LatModel where
  g : List Int
  hi : List Int
  ho : List Int
  var : Nat
  deriving DecidableEq, Repr

/-- The tracks that the trellis of position p covers (R98). -/
def latTracks (p : Nat) : List Nat := (List.range 8).filter fun t => p ≤ t + 1 && t ≤ p + 1

/-! ## Soft means (R99) -/

/-- e^(-x) for x in 2^-16, in 2^-60: a series at x / 1,024, squared ten times. -/
def expNeg (x : Nat) : Nat :=
  let z : Int := (x * 2 ^ 34 : Nat)
  let s := (List.range 16).foldl (fun (acc : Int × Int) k => (acc.1 + acc.2, -(acc.2 * z / 2 ^ 60) / ((k + 1 : Nat) : Int))) ((0 : Int), (2 ^ 60 : Int))
  (List.range 10).foldl (fun e _ => e * e / 2 ^ 60) s.1.toNat

/-- tanh(a / 2) of a in 2^-16, in 2^-16. -/
def tanhHalf (a : Int) : Int :=
  let e : Int := expNeg a.natAbs
  let t := (2 ^ 60 - e) * 2 ^ 16 / (2 ^ 60 + e)
  if a < 0 then -t else t

/-- The values of a list at n, n - 1 and n - 2, for every n; before the first there is `z`. -/
def lagged {α : Type} (z : α) (l : List α) : List (List α) :=
  (List.zip l (List.zip (z :: l) (z :: z :: l))).map fun e => [e.1, e.2.1, e.2.2]

/-- The mean and the residual power of the terms of a track that the trellis does not cover, tanh(A/2) as R99 writes it (R99; log
127). -/
def softTrack (h : List Int) (a3 : List Int) : Int × Nat :=
  let m := a3.map tanhHalf
  (roundDiv ((List.zipWith (· * ·) h m).foldl (· + ·) 0) (2 ^ 16),
    ((List.zipWith (fun c v => (c * c * (2 ^ 32 - v * v)).toNat) h m).foldl (· + ·) 0) / 2 ^ 38)

/-! ## Observations and branch metrics (R98, R99) -/

/-- An observation of a position, in 2^-11 code: its sample less the soft means, the variance with their residual power; none where
the sample is erased. -/
structure LatObs where
  pos : Nat
  seen : Option Int
  var : Nat
  deriving DecidableEq, Repr

/-- One bit of a trellis: the observations and the a priori values of the covered tracks. -/
structure LatCol where
  obs : List LatObs
  prior : List Int
  deriving DecidableEq, Repr

/-- The interference taps of position m from track t. -/
def LatModel.toward (mod : LatModel) (m t : Nat) : List Int :=
  if t + 1 = m then mod.hi else if t = m + 1 then mod.ho else []

/-- The observations of position m for the trellis of position p. -/
def latObs (models : List LatModel) (rows : List (List LatBit)) (p m : Nat) : List LatObs :=
  let mod := models.getD m ⟨[], [], [], 0⟩
  let outside := (latTracks m).filter fun t => !(latTracks p).contains t
  let soft := match outside with
    | t :: _ => (lagged 0 ((rows.getD t []).map (·.a))).map (softTrack (mod.toward m t))
    | [] => (rows.getD m []).map fun _ => (0, 0)
  List.zipWith (fun b s => ⟨m, b.y.map fun y => 2 ^ 11 * y - s.1, mod.var + s.2⟩) (rows.getD m []) soft

/-- The bits of the trellis of position p. -/
def latCols (models : List LatModel) (rows : List (List LatBit)) (p : Nat) : List LatCol :=
  let tracks := latTracks p
  let n := (rows.getD p []).length
  List.zipWith LatCol.mk (columns n (tracks.map (latObs models rows p)))
    (columns n (tracks.map fun t => (rows.getD t []).map (·.a)))

/-- +1 or -1. -/
def signBit (b : Bool) : Int := if b then 1 else -1

/-- The bits n, n - 1 and n - 2 of covered track i on a branch: the new bits, and the state's two of each track. -/
def branchBits (old new i : Nat) : List Int := [signBit (new.testBit i), signBit (old.testBit (2 * i)), signBit (old.testBit (2 * i + 1))]

/-- The part of the modelled sample of position m that the covered tracks give on a branch, in 2^-11 code. -/
def latModelled (models : List LatModel) (tracks : List Nat) (old new m : Nat) : Int :=
  let mod := models.getD m ⟨[], [], [], 0⟩
  (tracks.zipIdx.map fun e =>
    let taps := if e.1 = m then mod.g.map (2 ^ 11 * ·) else mod.toward m e.1
    (List.zipWith (· * ·) taps (branchBits old new e.2)).foldl (· + ·) 0).foldl (· + ·) 0

/-- The branch metric in 2^-17 nat (R99); a variance of 0 counts as the least one. -/
def branchMetric (models : List LatModel) (tracks : List Nat) (c : LatCol) (old new : Nat) : Int :=
  let seen := c.obs.map fun o => match o.seen with
    | some v =>
      let e := v - latModelled models tracks old new o.pos
      roundDiv (2 ^ 10 * (e * e)) (max 1 o.var)
    | none => 0
  let prior := c.prior.zipIdx.map fun e => signBit (new.testBit e.2) * e.1
  (seen ++ prior).foldl (· + ·) 0

/-! ## The trellis (R98) -/

/-- The state after a branch of t tracks. -/
def latNext (t old new : Nat) : Nat :=
  ((List.range t).map fun i => 4 ^ i * ((new.testBit i).toNat + 2 * (old.testBit (2 * i)).toNat)).foldl (· + ·) 0

/-- The state before a branch into state s, `c` being the bits that it drops. -/
def latPrev (t s c : Nat) : Nat :=
  ((List.range t).map fun i => 4 ^ i * ((s.testBit (2 * i + 1)).toNat + 2 * (c.testBit i).toNat)).foldl (· + ·) 0

/-- The newest bits of a state. -/
def latNewest (t s : Nat) : Nat := ((List.range t).map fun i => 2 ^ i * (s.testBit (2 * i)).toNat).foldl (· + ·) 0

/-- The least of a list. -/
def least (l : List Int) : Int := l.foldl min (l.headD 0)

/-- State metrics less the least of them (R98). -/
def normalised (l : List Int) : List Int := l.map (· - least l)

/-- One bit of the forward pass over t tracks. -/
def latForward (t : Nat) (metric : LatCol → Nat → Nat → Int) (al : List Int) (c : LatCol) : List Int :=
  (List.range (4 ^ t)).map fun s =>
    least ((List.range (2 ^ t)).map fun k => al.getD (latPrev t s k) 0 + metric c (latPrev t s k) (latNewest t s))

/-- One bit of the backward pass. -/
def latBackward (t : Nat) (metric : LatCol → Nat → Nat → Int) (c : LatCol) (be : List Int) : List Int :=
  (List.range (4 ^ t)).map fun s => least ((List.range (2 ^ t)).map fun u => metric c s u + be.getD (latNext t s u) 0)

/-- Λ of covered track i at a bit, between the metrics before and after it (R100). -/
def latLambda (t i : Nat) (metric : LatCol → Nat → Nat → Int) (al : List Int) (c : LatCol) (be : List Int) : Int :=
  let side (b : Bool) : Int := least ((List.range (4 ^ t)).flatMap fun s =>
    ((List.range (2 ^ t)).filter fun u => u.testBit i == b).map fun u => al.getD s 0 + metric c s u + be.getD (latNext t s u) 0)
  side true - side false

/-- The forward metrics before each bit of a window. -/
def alphas (t : Nat) (metric : LatCol → Nat → Nat → Int) : List Int → List LatCol → List (List Int)
  | _, [] => []
  | al, c :: cs => al :: alphas t metric (latForward t metric al c) cs

/-- The backward metrics after each bit of a window, and those before its first. -/
def betas (t : Nat) (metric : LatCol → Nat → Nat → Int) (last : List Int) : List LatCol → List Int × List (List Int)
  | [] => (last, [])
  | c :: cs =>
    let r := betas t metric last cs
    (latBackward t metric c r.1, r.1 :: r.2)

/-- The outputs of a window of bits, warmed up over the bits before and after it. -/
def latWindow (t i : Nat) (metric : LatCol → Nat → Nat → Int) (before mid after : List LatCol) : List Int :=
  let flat := List.replicate (4 ^ t) (0 : Int)
  let al := alphas t metric (normalised (before.foldl (latForward t metric) flat)) mid
  let be := betas t metric (normalised (after.foldr (latBackward t metric) flat)) mid
  List.zipWith (fun (e : LatCol × List Int) b => latLambda t i metric e.2 e.1 b) (List.zip mid al) be.2

/-- The soft output of position p over all its bits: windows of 64 with a warm-up of 32 on each side, in 2^-17 nat (R98). -/
def latSoft (models : List LatModel) (rows : List (List LatBit)) (p : Nat) : List Int :=
  let tracks := latTracks p
  let cols := latCols models rows p
  let metric := branchMetric models tracks
  (List.range (ceilDiv cols.length 64)).flatMap fun w =>
    let n := min 32 (64 * w)
    latWindow tracks.length (p - tracks.headD 0) metric ((cols.drop (64 * w - n)).take n) ((cols.drop (64 * w)).take 64)
      ((cols.drop (64 * w + 64)).take 32)

/-- The 6-bit code of an output (R100): extrinsic, scaled, exactly 0 where the bit's own sample is erased. -/
def latCode (gain : Nat) (b : LatBit) (soft : Int) : Int :=
  match b.y with
  | some _ => clampInt (-31) 31 (roundDiv ((soft - 2 * b.a) * gain) (32 * 2 ^ 17))
  | none => 0

/-- The outputs of position p (R100). -/
def latPosition (gain : Nat) (models : List LatModel) (rows : List (List LatBit)) (p : Nat) : List Int :=
  List.zipWith (latCode gain) (rows.getD p []) (latSoft models rows p)

/-- A priori values in code units of LLR_GAIN, in 2^-16 nat (R111). -/
def priorOf (gain : Nat) (code : Int) : Int := if gain = 0 then 0 else roundDiv (code * 32 * 2 ^ 16) gain

/-! ## Estimation (R101, R102) -/

/-- The range of a tap, S4.3, in 2^-11 code (R97). -/
def satTap (v : Int) : Int := clampInt (-32768) 32512 v

/-- What runs through the bits of a position: its model, whether a tap met its range, and the squared errors of the group so far. -/
structure LatRun where
  model : LatModel
  limit : Bool := false
  sum : Nat := 0
  bits : Nat := 0
  deriving DecidableEq, Repr

/-- What the estimation sees of a bit: its data-space place, the sample, and the decided bits n, n - 1, n - 2 of the position, of its
inner and of its outer neighbour (0 where there is none). -/
structure LatSeen where
  place : Nat
  y : Option Int
  own : List Int
  inner : List Int
  outer : List Int
  deriving DecidableEq, Repr

/-- The LMS step of three taps (R102), and whether one was carried outside its range. -/
def adaptTaps (mu : Nat) (e : Int) (h a : List Int) : List Int × Bool :=
  let l := List.zipWith (fun c b => c + roundDiv (e * b) (2 ^ mu)) h a
  (l.map satTap, l.any fun v => v != satTap v)

/-- The variance at the end of a 32-bit group that is unflagged as a whole (R101). -/
def nextVar (tc floor var sum : Nat) : Nat :=
  max floor ((var : Int) + roundDiv ((sum / 2048 : Nat) - (var : Int)) (2 ^ tc)).toNat

/-- One bit of the estimation; `mu` is none on a turbo pass, which freezes the taps. -/
def LatRun.bit (mu : Option Nat) (tc floor : Nat) (r : LatRun) (b : LatSeen) : LatRun :=
  let m := r.model
  let r := match b.y with
    | none => r
    | some y =>
      let term (h a : List Int) : Int := (List.zipWith (· * ·) h a).foldl (· + ·) 0
      let e := 2 ^ 11 * y - (term (m.g.map (2 ^ 11 * ·)) b.own + term m.hi b.inner + term m.ho b.outer)
      let r := { r with sum := r.sum + (e * e).toNat, bits := r.bits + 1 }
      match mu with
      | none => r
      | some k =>
        let i := adaptTaps k e m.hi b.inner
        let o := adaptTaps k e m.ho b.outer
        { r with model := { m with hi := i.1, ho := o.1 }, limit := r.limit || i.2 || o.2 }
  if b.place % 32 = 31 then
    { r with sum := 0, bits := 0, model := { r.model with
      var := if r.bits = 32 then nextVar tc floor r.model.var r.sum else r.model.var } }
  else r

/-- The decided bits of a position as +1 and -1; 0 for a neighbour outside the band (R97). -/
def latNeighbour (decided : List (List Int)) (p : Nat) (off : Int) : List (List Int) :=
  let t := (p : Int) + off
  let own := decided.getD p []
  lagged 0 (if decide (0 ≤ t) && decide (t < 8) then decided.getD t.toNat [] else own.map fun _ => 0)

/-- The estimation of position p over a pass whose first bit stands at a place (R101, R102). -/
def latEstimate (mu : Option Nat) (tc floor place : Nat) (model : LatModel) (row : List LatBit) (decided : List (List Int))
    (p : Nat) : LatRun :=
  let side (k : Int) := latNeighbour decided p k
  let seen := List.zipWith (fun (e : LatBit × Nat) (a : List Int × List Int × List Int) =>
    (⟨place + e.2, e.1.y, a.1, a.2.1, a.2.2⟩ : LatSeen)) row.zipIdx (List.zip (side 0) (List.zip (side (-1)) (side 1)))
  seen.foldl (LatRun.bit mu tc floor) { model := model }

end Sys2Proof.Machine
end

