-- ==== Sys2Proof/Machine/Spares.lean ====
section
/-! DEFINITION. The spare accounts every family uses: interrupt vectors (R312), classes, spare counts, attention and
depletion, retirements, cycles and substitutions (R372 to R393). -/

namespace Sys2Proof.Machine

/-! ## Vectors (R312) -/

/-- A word of the MSI-X table after reset: vectors start masked (log 31). -/
def msixReset (k : Nat) : Word := if k % 4 = 3 then 1 else 0

def Dev.msixWord (d : Dev) (k : Nat) : Word := Tab.get msixReset d.host.msix k

/-- Bytes written to host memory by the block. -/
def Dev.hostWrite (d : Dev) (a : Nat) (l : List Byte) : Dev :=
  { d with host := { d.host with mem := Tab.write (fun _ => 0) d.host.mem a l } }

/-- n bytes of host memory. -/
def Dev.hostRead (d : Dev) (a n : Nat) : List Byte := Tab.range (fun _ => 0) d.host.mem a n

/-- A vector is raised: its message is written, or its pending bit set while it is masked. -/
def Dev.raise (d : Dev) (v : Nat) : Dev :=
  if (d.msixWord (4 * v + 3)).toNat % 2 = 1 then
    { d with host := { d.host with pba := Tab.set (fun _ => false) d.host.pba v true } }
  else
    (d.hostWrite ((d.msixWord (4 * v)).toNat + 2 ^ 32 * (d.msixWord (4 * v + 1)).toNat)
      (leBytes 4 (d.msixWord (4 * v + 2)).toNat))
      |> fun d => { d with host := { d.host with pba := Tab.set (fun _ => false) d.host.pba v false } }

/-! ## Classes (R372, R373) -/

/-- The layer record of a layer of a side. -/
def Dev.layer (d : Dev) (side layer : Nat) : LayerRec := Tab.get (fun _ => {}) d.medium.layers (8 * side + layer)

def Dev.setLayer (d : Dev) (side layer : Nat) (r : LayerRec) : Dev :=
  { d with medium := { d.medium with layers := Tab.set (fun _ => {}) d.medium.layers (8 * side + layer) r } }

/-- The slots of the spare bands of zone z (R55). -/
def spareSlots (z : Nat) : Nat := spareBands z * zoneSlots z

/-- The spare slots of a layer. -/
def layerSpareSlots : Nat := ((List.range 48).map spareSlots).foldl (· + ·) 0

/-- A stripe address lies in a spare band. -/
def inSpareBand (a : Nat) : Bool := zoneFirstBand (addrZone a + 1) - spareBands (addrZone a) ≤ stripeBand a

/-- Spare slots used: replacements, and spare slots retired themselves (R373). -/
def LayerRec.usedSlots (r : LayerRec) : Nat :=
  ((r.defects.map (·.repl) ++ r.defects.map (·.retired)).filter inSpareBand).eraseDups.length

/-- The free spare slots of a layer. -/
def LayerRec.freeSlots (r : LayerRec) : Nat := layerSpareSlots - r.usedSlots

/-- The layers that take part in class 0x0d: those of the enabled sides with a valid record (R373). -/
def Dev.validLayers (d : Dev) : List LayerRec :=
  ((List.range 16).filter fun k => k < 8 || !d.variantS).map (fun k => d.layer (k / 8) (k % 8)) |>.filter (·.valid)

/-- The least of a list, 0 for none. -/
def leastOf : List Nat → Nat
  | [] => 0
  | x :: xs => xs.foldl min x

/-- A class is present in the running mode and variant (R372, R373). -/
def Dev.classPresent (d : Dev) (c : Nat) : Bool :=
  if c = 1 ∨ c = 3 ∨ c = 5 ∨ c = 6 ∨ c = 15 then d.mode == 1
  else if c = 2 ∨ c = 4 then d.mode == 1 && !d.variantS
  else if 7 ≤ c ∧ c ≤ 12 then true
  else if c = 13 then d.mode == 1 && d.medium.present && !d.validLayers.isEmpty
  else c == 14 && d.mode == 2

/-- UNITS of a class as reported (R372, R392). -/
def Dev.units? (d : Dev) (c : Nat) : Nat := if c = 13 then (if d.validLayers.isEmpty then 0 else layerSpareSlots) else classUnits c

/-- IN_SERVICE of a class (R373). -/
def Dev.inService (d : Dev) (c : Nat) : Nat :=
  if c = 9 then leastOf ((List.range 8).map fun b => d.fld (Fld.CACHE_SPARE_FREE b))
  else if c = 10 then d.fld Fld.MEM_SPARE_FREE
  else if c = 13 then leastOf (d.validLayers.map (·.freeSlots))
  else ((List.range (classUnits c)).filter fun u => !d.dead c u).length

/-- The spare count of a class (R373). -/
def Dev.spares (d : Dev) (c : Nat) : Nat := d.inService c - classRequired c

/-- A class in attention, and one that is depleted (R383, R391). -/
def Dev.classAttention (d : Dev) (c : Nat) : Bool :=
  d.classPresent c && d.spares c ≤ d.fld (Fld.SPR_CLASS_THR_THRESHOLD (c - 1))

def Dev.classDepleted (d : Dev) (c : Nat) : Bool :=
  d.classPresent c && (if c = 9 ∨ c = 10 ∨ c = 13 then d.inService c == 0 else d.inService c < classRequired c)

/-- Code of a unit state (R377). -/
def unitCode : UnitState → Nat
  | .inService => 0 | .draining => 1 | .out => 2 | .loading => 3 | .testing => 4 | .spare => 5 | .retired => 6
  | .absent => 7

/-- A sparing event: code, class, the unit that left, the one that entered, the cause's ESN, the new state (R393). -/
def Dev.sparingEvent (d : Dev) (code c left entered : Nat) (cause : Esn) (st : Nat) : Dev :=
  d.event .sparing c code [left, entered, cause.toNat, st]

/-- A class is judged anew: its counts are shown, and entering or leaving attention and depletion is posted (R383,
R391). -/
def Dev.judge (d : Dev) (c : Nat) : Dev :=
  let d := (d.put (Fld.SPR_CLASS_CNT_SPARES (c - 1)) (d.spares c)).put (Fld.SPR_CLASS_CNT_IN_SERVICE (c - 1)) (d.inService c)
  let was := d.maskBit Fld.SPR_STATUS_ATTENTION c
  let now := d.classAttention c
  let d := d.putMask Fld.SPR_STATUS_ATTENTION c now
  let d := d.when (now && !was) fun d =>
    ((d.putMask Fld.SPR_EVENTS_ATTN_NEW c true).count (Adr.SPR_CNT 7)).sparingEvent 0x0c06 c 0 0xffff 0 0 |>.raise 64
  let d := d.when (was && !now) fun d => d.sparingEvent 0x0c07 c 0 0xffff 0 0
  let wasD := d.maskBit Fld.SPR_STATUS_DEPLETED c
  let nowD := d.classDepleted c
  let d := d.putMask Fld.SPR_STATUS_DEPLETED c nowD
  d.when (nowD && !wasD) fun d =>
    (d.putMask Fld.SPR_EVENTS_DEPLETED_NEW c true).sparingEvent 0x0c08 c 0 0xffff 0 0 |>.raise 64

/-- Every class is judged. -/
def Dev.judgeAll (d : Dev) : Dev := d.each ((List.range 15).map (· + 1)) fun d c => d.judge c

/-! ## Settings kept in the SPI NOR (R376, R397, R423, R424) -/

def Dev.bootSlot (d : Dev) (x : Nat) : SlotSt := Tab.get (fun _ => {}) d.upd.slots x

def Dev.setBootSlot (d : Dev) (x : Nat) (s : SlotSt) : Dev :=
  { d with upd := { d.upd with slots := Tab.set (fun _ => {}) d.upd.slots x s } }

/-- The slot that runs. -/
def Dev.runningSlot (d : Dev) : Nat := d.fld Fld.UPD_STATUS_RUNNING_SLOT

/-- The settings area that the running slot uses. -/
def Dev.settingArea (d : Dev) : Nat := (d.bootSlot d.runningSlot).area % 2

/-- The place of a register's setting in an area. -/
def settingKey (area off : Nat) : Nat := 2 ^ 24 * area + off

/-- What an area holds for a register that nothing has set: its reset value. -/
def settingReset (k : Nat) : Word := regReset (k % 2 ^ 24)

/-- The value of a register is kept in the settings area, or in both areas during a trial of another settings format. -/
def Dev.keepSetting (d : Dev) (off : Nat) : Dev :=
  let areas := if d.upd.both then [0, 1] else [d.settingArea]
  let keep (t : Tab Word) (a : Nat) : Tab Word := Tab.set settingReset t (settingKey a off) (d.reg off)
  { d with upd := { d.upd with settings := areas.foldl keep d.upd.settings } }

/-- The setting of a register in an area. -/
def Dev.setting (d : Dev) (area off : Nat) : Word := Tab.get settingReset d.upd.settings (settingKey area off)

/-! ## The clean minutes of a trial (R425) -/

/-- A class that the running trial changed: every one under a manifest. -/
def Dev.trialChanged (d : Dev) (c : Nat) : Bool :=
  d.bit Fld.UPD_STATUS_TRIAL && match d.upd.cls with
    | none => true
    | some p => match p % 16 with
      | 1 => c == 8
      | 2 => c == 7
      | 3 => c == 3 || c == 4 || c == 14
      | 4 => c == 6
      | _ => false

/-- The count of clean minutes restarts. -/
def Dev.cleanRestart (d : Dev) : Dev := d.put Fld.UPD_CONFIRM_CLEAN_MIN 0

/-! ## Policies and thresholds (R374, R376, R391) -/

/-- The in-service decoders, lowest first. -/
def Dev.goodDecoders (d : Dev) : List Nat := (List.range 24).filter fun u => !d.dead 6 u

/-- A policy takes effect: under RESERVE the decoders beyond the 20 lowest-numbered leave both masks, under ROTATE every one
in service is set in both. -/
def Dev.takePolicy (d : Dev) (p : Nat) : Dev :=
  let d := (d.put Fld.SPR_POLICY_POLICY p).keepSetting Adr.SPR_POLICY
  let work := if p = 0 then d.goodDecoders.take 20 else d.goodDecoders
  let mask := (work.map fun u => 2 ^ u).foldl (· + ·) 0
  let d := (d.put (Fld.DEC_MASK_MASK 0) mask).put (Fld.DEC_MASK_MASK 1) mask
  d.each d.goodDecoders fun d u =>
    match d.unit 6 u with
    | .inService => if work.contains u then d else d.setUnit 6 u .spare
    | .spare => if work.contains u then d.setUnit 6 u .inService else d
    | _ => d

/-! ## Domains and cycles (R378 to R380, R440) -/

/-- The switched power domain of a unit of a role class. -/
def unitDomain (c u : Nat) : Option Nat :=
  if c = 3 then some u else if c = 4 then some (10 + u) else if c = 5 then some (20 + u) else if c = 6 then some (23 + u)
  else if c = 7 then some (47 + u) else if c = 8 then some (55 + u) else if c = 11 then some (84 + u)
  else if c = 14 then some (4 + u) else if c = 15 then some (94 + u) else none

/-- The unit that a domain holds, by class, where the class is a role class. -/
def domainUnit (pd : Nat) : Option (Nat × Nat) :=
  if pd < 10 then some (3, pd) else if pd < 20 then some (4, pd - 10) else if pd < 23 then some (5, pd - 20)
  else if pd < 47 then some (6, pd - 23) else if pd < 55 then some (7, pd - 47) else if pd < 67 then some (8, pd - 55)
  else if 84 ≤ pd ∧ pd < 88 then some (11, pd - 84) else if pd = 94 ∨ pd = 95 then some (15, pd - 94) else none

/-- A domain is shown on or off. -/
def Dev.showDomain (d : Dev) (pd : Nat) (on : Bool) : Dev := d.putMask (Fld.PWR_ON_PD (pd / 32)) (pd % 32) on

/-- Domains that are off whenever their unit has no mode, role or work (the second column of R440). -/
def modalDomain (pd : Nat) : Bool := pd < 75 || (79 ≤ pd && pd < 84) || pd == 89 || pd == 94 || pd == 95

/-- A head is at work: it is captured, or its write path writes. -/
def Dev.headWorks (d : Dev) (h : Nat) : Bool := (d.head h).captured || d.bit (Fld.WP_STATUS_BUSY h)

/-- The unit of a domain asks for it by its mode, its role or its work (R440, R441; log 174). -/
def Dev.domainAsked (d : Dev) (pd : Nat) : Bool :=
  if pd < 20 then d.fld (Fld.CHN_CTRL_MODE pd) != 0 || (pd == 5 && d.mode == 2)
  else if pd < 23 then d.fld (Fld.LAT_CTRL_MODE (pd - 20)) != 0
  else if pd < 47 then d.mode != 2 && d.maskBit Fld.DEC_INSERVICE_MASK (pd - 23)
  else if pd < 55 then d.fld (Fld.ARC_CTRL_ROLE (pd - 47)) != 0
  else if pd < 67 then d.fld (Fld.SPP_CTRL_ROLE (pd - 55)) != 0
  else if pd < 75 then d.bit Fld.CACHE_STATUS_ENABLED
  else if pd < 79 then false
  else if pd < 81 then d.headWorks (pd - 79) && !(pd == 80 && d.mode == 2)
  else if pd < 83 then d.bit (Fld.SRV_CTRL_AFE_ON (pd - 81))
  else if pd = 83 then d.bit Fld.MOT_CTRL_SPN_EN || d.bit Fld.MOT_CTRL_SLDA_EN || d.bit Fld.MOT_CTRL_SLDB_EN
  else if pd < 88 then d.fld Fld.HQ_STATUS_PS < 3 || pd == 84
  else if pd = 89 then d.bit Fld.FACET_STATUS_BUSY
  else if pd = 94 then d.mode != 2 && d.headWorks 0
  else if pd = 95 then d.mode != 2 && (if d.variantS then d.dead 15 0 && d.headWorks 0 else d.headWorks 1)
  else false

/-- The firmware's request, or that of the unit. -/
def Dev.domainWanted (d : Dev) (pd : Nat) : Bool := d.maskBit (Fld.PWR_REQ_PD (pd / 32)) (pd % 32) || d.domainAsked pd

/-- A domain is on: it is up, and one that follows its unit while the firmware or the unit asks for it (R441). -/
def Dev.domainOn (d : Dev) (pd : Nat) : Bool :=
  d.maskBit (Fld.PWR_ON_PD (pd / 32)) (pd % 32) && (!modalDomain pd || d.domainWanted pd)

/-- PWR_ONw as it reads. -/
def Dev.onWord (d : Dev) (w : Nat) : Word :=
  BitVec.ofNat 32 (((List.range 32).map fun i => if d.domainOn (32 * w + i) then 2 ^ i else 0).foldl (· + ·) 0)

def Dev.onPwr (d : Dev) (f : PwrSt → PwrSt) : Dev := { d with pwr := f d.pwr }

/-- A request joins those that wait, in domain order. -/
def insertSorted : List Nat → Nat → List Nat
  | [], x => [x]
  | y :: ys, x => if x ≤ y then x :: y :: ys else y :: insertSorted ys x

/-- A power-up begins, or waits while four domains ramp. -/
def Dev.domainUp (d : Dev) (pd : Nat) : Dev :=
  if d.domainOn pd || d.pwr.ramping.contains pd || d.pwr.queue.contains pd then d
  else if d.pwr.ramping.length < 4 then d.onPwr fun p => { p with ramping := p.ramping ++ [pd] }
  else (d.onPwr fun p => { p with queue := insertSorted p.queue pd }).count (Adr.PWR_CNT 1)

/-- A power state holds a domain off (R440); in PS2 the two engines of pair 2 stay on. -/
def Dev.psHoldsOff (d : Dev) (ps pd : Nat) : Bool :=
  let pair2 := d.fld (Fld.ARC_CTRL_PAIR (pd - 47)) == 2 && [1, 2].contains (d.fld (Fld.ARC_CTRL_ROLE (pd - 47)))
  let ps1 := pd < 47 || pd == 89 || pd == 94 || pd == 95
  let ps2 := ps1 || (47 ≤ pd && pd < 55 && !pair2) || (79 ≤ pd && pd < 83)
  let ps3 := ps2 || (47 ≤ pd && pd < 75) || pd == 83 || (85 ≤ pd && pd < 88)
  match ps with
  | 0 => false
  | 1 => ps1
  | 2 => ps2
  | 3 => ps3
  | _ => true

/-- A power state is entered: the domains that it holds off are shown off, and those that it no longer holds are requested again
where they are still wanted (R440, R441; log 151). -/
def Dev.takePs (d : Dev) (ps : Nat) : Dev :=
  let d := d.put Fld.HQ_STATUS_PS ps
  let off := (List.range 96).filter fun pd => d.psHoldsOff ps pd && d.domainOn pd
  let back := d.pwr.psOff.filter fun pd => !d.psHoldsOff ps pd && (!modalDomain pd || d.domainWanted pd)
  let d := (d.each off fun d pd => d.showDomain pd false).onPwr fun p => { p with psOff := (p.psOff ++ off).filter (d.psHoldsOff ps) }
  d.each back Dev.domainUp

/-- The unit in its cycle takes a state, which SPR_OUT shows (R377). -/
def Dev.cycleState (d : Dev) (y : CycleSt) (st : UnitState) : Dev :=
  let d := (d.setUnit y.cls y.unit st).put Fld.SPR_OUT_STATE (unitCode st)
  let d := (d.put Fld.SPR_OUT_CLASS y.cls).put Fld.SPR_OUT_UNIT y.unit
  (d.putBit Fld.SPR_OUT_UPDATE y.update).putBit Fld.SPR_OUT_ACTIVE true

/-- The cycle ends, and a policy that waited for its end takes effect (R376). -/
def Dev.cycleEnds (d : Dev) : Dev :=
  let d := ((d.putBit Fld.SPR_OUT_ACTIVE false).put Fld.SPR_OUT_STATE 0).putBit Fld.SPR_OUT_UPDATE false
  let next := d.spr.policyNext
  let d := { d with spr := { d.spr with cycle := none, policyNext := none } }
  match next with
  | some p => d.takePolicy p
  | none => d

/-- The unit in its cycle is reclaimed: it abandons its test, and serves as a spare, or goes on with the work that it still holds
(R379). -/
def Dev.reclaim (d : Dev) (y : CycleSt) (works : Bool) (back : Dev → Dev) : Dev :=
  let d := d.when (d.unit y.cls y.unit == .testing) fun d =>
    { (d.putBit Fld.FACET_STATUS_BUSY false).putBit Fld.FACET_STATUS_ABANDONED true with pwr := { d.pwr with test := none } }
  let d := if works then d.setUnit y.cls y.unit .inService else (back d).setUnit y.cls y.unit .spare
  ((d.sparingEvent 0x0c05 y.cls 0xffff y.unit 0 (unitCode (d.unit y.cls y.unit))).count (Adr.SPR_CNT 5)).cycleEnds

/-- The unit is the one in its cycle. -/
def Dev.inCycle (d : Dev) (c u : Nat) : Bool :=
  match d.spr.cycle with
  | some y => y.cls == c && y.unit == u
  | none => false

/-- A unit is retired until the next start-up: its domain goes off, its cycle ends, and the retirement is kept in the NOR
(R379, R380). -/
def Dev.retireUnit (d : Dev) (c u : Nat) (cause : Esn) : Dev :=
  if d.dead c u then d
  else
    let d := d.setUnit c u .retired
    let d := d.when (d.inCycle c u) fun d => d.cycleEnds
    let d := match unitDomain c u with
      | some pd => d.showDomain pd false
      | none => d
    let d := { d with spr := { d.spr with
      retiredBefore := Tab.upd (fun _ => 0) d.spr.retiredBefore (unitKey c u) (· + 1) } }
    (((d.count (Adr.SPR_CNT 1)).sparingEvent 0x0c04 c u 0xffff cause 6)).judge c

/-! ## Ports of the crossbar (R36) -/

/-- The quadrant that a port, by its requester ID, has as its primary, and its alternate (log 52). -/
def portPrimary (r : Nat) : Nat := r % 4
def portAlternate (r : Nat) : Nat := (r + 1) % 4

/-- The quadrant that a port uses. -/
def Dev.portQuadrant (d : Dev) (r : Nat) : Nat := Tab.get portPrimary d.pwr.ports r

/-- The ports of a quadrant that is out of service move to the other one that each attaches to, and the transfers in flight
through them are issued again, in the order of their ESNs (R36). -/
def Dev.movePorts (d : Dev) (q : Nat) : Dev :=
  let moved := (List.range 16).filter fun r => d.portQuadrant r == q
  let flying := if moved.contains 12 then (d.span.dmas.filter fun x => !x.ended && x.kind != 5).map (·.esn) else []
  let ports := moved.foldl (fun t r =>
    Tab.set portPrimary t r (if portPrimary r = q then portAlternate r else portPrimary r)) d.pwr.ports
  { d with pwr := { d.pwr with ports := ports, reissued := flying } }

/-! ## Substitution (R381) -/

/-- A unit takes over from another on a fault (R381, R393). -/
def Dev.substitute (d : Dev) (c left entered : Nat) (cause : Esn) : Dev :=
  let e := d.esn
  let d := d.when (d.trialChanged c) fun d => d.cleanRestart
  let d := (d.setUnit c entered .inService).sparingEvent 0x0c01 c left entered cause 0
  let d := d.count (Adr.SPR_CNT 0)
  { d with spr := { d.spr with
      subst := Tab.upd (fun _ => 0) d.spr.subst c (· + 1)
      lastSubst := Tab.set (fun _ => 0) d.spr.lastSubst c e.toNat } }

/-- The lowest spare unit of a class. -/
def Dev.spareOf (d : Dev) (c : Nat) : Option Nat := (List.range (classUnits c)).find? fun u => d.unit c u == .spare

/-- A quadrant leaves service: its ports move to their alternates, and transfers are issued again by their ESNs (R36, R381). -/
def Dev.quadrantFails (d : Dev) (q : Nat) : Dev :=
  if d.dead 11 q then d
  else
    let e := d.esn
    let spare := d.spareOf 11
    let d := (d.event .crossbar q 0 []).onPwr fun p => { p with quadrants := p.quadrants ++ [q] }
    let d := d.movePorts q
    let d := match spare with
      | some v => if v = q then d else d.substitute 11 q v e
      | none => d
    d.retireUnit 11 q e

/-- A spare of a pool takes the place of a frame or page: its substitution is posted and counted, and the class judged. -/
def Dev.substitutePool (d : Dev) (c left entered : Nat) (cause : Esn) : Dev :=
  let e := d.esn
  let d := d.when (d.trialChanged c) fun d => d.cleanRestart
  let d := (d.sparingEvent 0x0c01 c left entered cause 0).count (Adr.SPR_CNT 0)
  { d with spr := { d.spr with
      subst := Tab.upd (fun _ => 0) d.spr.subst c (· + 1)
      lastSubst := Tab.set (fun _ => 0) d.spr.lastSubst c e.toNat } } |>.judge c

/-! ## Changes of policy and threshold (R376, R391) -/

/-- A change of policy: at the end of the cycle in progress, or at once. -/
def Dev.setPolicy (d : Dev) (p : Nat) : Dev :=
  if d.spr.cycle.isSome then { d with spr := { d.spr with policyNext := some p } } else d.takePolicy p

/-- A threshold takes effect at once, and attention is judged anew. -/
def Dev.setThreshold (d : Dev) (c v : Nat) : Dev := ((d.put (Fld.SPR_CLASS_THR_THRESHOLD (c - 1)) v).keepSetting (Adr.SPR_CLASS_THR (c - 1))).judge c

/-! ## The end of a planned hand-off (R384 to R388) -/

/-- The unit that entered holds the role, and the one that left the spare role, unless it is in its cycle (R375). -/
def Dev.swapUnits (d : Dev) (c out inn : Nat) : Dev :=
  let d := if d.unit c inn = .spare then d.setUnit c inn .inService else d
  if d.unit c out = .inService then d.setUnit c out .spare else d

/-- A hand-off of SPR_HANDOFF is refused, with nothing else changed. -/
def Dev.handoffRefused (d : Dev) : Dev := (d.putBit Fld.SPR_HANDOFF_REFUSED true).count (Adr.SPR_CNT 3)

/-- A hand-off in progress ends refused. -/
def Dev.handoffFails (d : Dev) : Dev := (d.putBit Fld.SPR_HANDOFF_BUSY false).handoffRefused

/-- A hand-off completes: it is counted and posted; the code of its event is open (R388). -/
def Dev.handoffDone (d : Dev) (c out inn : Nat) : Dev :=
  let d := (d.putBit Fld.SPR_HANDOFF_BUSY false).putBit Fld.SPR_HANDOFF_DONE true
  let d := (d.count (Adr.SPR_CNT 2)).swapUnits c out inn
  (d.sparingEvent (d.freeBits 16) c out inn 0 (unitCode (d.unit c out))).drew

end Sys2Proof.Machine
end

