-- ==== Sys2Proof/Machine/Detect.lean ====
section
/-! DEFINITION. Group stores, Lattice units, the decoder pool and the stripe engines (R94 to R132, R485, R488). -/

namespace Sys2Proof.Machine

/-! ## Access to the detection state -/

def Dev.dh (d : Dev) (h : Nat) : DetHead := Tab.get (fun _ => {}) d.det.heads h

def Dev.onDh (d : Dev) (h : Nat) (g : DetHead → DetHead) : Dev :=
  { d with det := { d.det with heads := Tab.set (fun _ => {}) d.det.heads h (g (d.dh h)) } }

def Dev.lat (d : Dev) (u : Nat) : LatSt := Tab.get (fun _ => {}) d.det.lats u

def Dev.onLat (d : Dev) (u : Nat) (g : LatSt → LatSt) : Dev :=
  { d with det := { d.det with lats := Tab.set (fun _ => {}) d.det.lats u (g (d.lat u)) } }

/-- A group of a list, by its key. -/
def findGroup (l : List GroupSt) (k : GroupKey) : Option GroupSt := l.find? fun g => g.key == k

/-- The list with one group changed. -/
def onGroup (l : List GroupSt) (k : GroupKey) (f : GroupSt → GroupSt) : List GroupSt :=
  l.map fun g => if g.key = k then f g else g

/-- The frame group of a frame address (R94). -/
def groupOfFrame (a : Nat) : GroupKey := ⟨Fin.ofNat 8 (addrLayer a), frameBand a, Fin.ofNat 4 (frameQuad a), frameSlot a⟩

/-- The jobs of a group. -/
def jobsOf (l : List JobSt) (k : GroupKey) : List JobSt := l.filter fun j => groupOfFrame j.frame == k

/-- The list with the job of an ESN changed. -/
def onJob (l : List JobSt) (e : Esn) (f : JobSt → JobSt) : List JobSt := l.map fun j => if j.esn = e then f j else j

/-! ## What the registers show -/

/-- The Lattice unit that is Active on a head (R103). -/
def Dev.activeLat (d : Dev) (h : Nat) : Option Nat :=
  (List.range 3).find? fun u => d.fld (Fld.LAT_CTRL_MODE u) == 1 && d.fld (Fld.LAT_CTRL_HEAD u) == h

/-- GROUPS and BUSY of the units that serve a head. -/
def Dev.showLat (d : Dev) (h : Nat) : Dev :=
  let st := d.dh h
  d.each (List.range 3) fun d u =>
    if d.fld (Fld.LAT_CTRL_HEAD u) = h then
      let m := d.fld (Fld.LAT_CTRL_MODE u)
      let busy := if m = 1 then !st.passes.isEmpty else m == 2 && st.passes.any fun p => p.2 == 0
      (d.put (Fld.LAT_STATUS_GROUPS u) (if m = 0 then 0 else st.store.length)).putBit (Fld.LAT_STATUS_BUSY u) busy
    else d

/-- IN_FLIGHT and FULL of a head's job queue (R117). -/
def Dev.showQueue (d : Dev) (h : Nat) : Dev :=
  let n := (d.dh h).jobs.length
  (d.put (Fld.DEC_QSTAT_IN_FLIGHT h) n).putBit (Fld.DEC_QSTAT_FULL h) (256 ≤ n)

/-- The ITI taps and variances of a unit in its registers (R97). -/
def Dev.showTaps (d : Dev) (u : Nat) : Dev :=
  let s := d.lat u
  let code (l : List Int) (k : Nat) : Nat := codeOf 8 (clampInt (-128) 127 (roundDiv (l.getD k 0) 256))
  let word (l : List Int) : Word := BitVec.ofNat 32 (code l 0 + 256 * code l 1 + 65536 * code l 2)
  d.each (List.range 8) fun d p =>
    ((d.setReg (Adr.LAT_ITI_I u p) (word (s.inner[p]?.getD []))).setReg (Adr.LAT_ITI_O u p)
      (word (s.outer[p]?.getD []))).put (Fld.LAT_SIGMA_VAR u p) (min 65535 (s.sigma[p]?.getD 0 / 4096))

/-- Taps and variances of a unit are set and shown. -/
def Dev.setTaps (d : Dev) (u : Nat) (i o : List (List Int)) (sigma : List Nat) : Dev :=
  (d.onLat u fun s => { s with inner := i, outer := o, sigma := sigma }).showTaps u

/-- An armed reseed loads the seeds and SIGMA_INIT as a group begins (R101, R102). -/
def Dev.beginGroup (d : Dev) (u : Nat) : Dev :=
  if (d.lat u).reseed then
    let seed (f : Nat → Nat → Field) (p : Nat) : Int := 256 * d.sfld (f u p)
    let rows (a b c : Nat → Nat → Field) := (List.range 8).map fun p => [seed a p, seed b p, seed c p]
    (d.setTaps u (rows Fld.LAT_ITI_SEED_I_TAP0 Fld.LAT_ITI_SEED_I_TAP1 Fld.LAT_ITI_SEED_I_TAP2)
      (rows Fld.LAT_ITI_SEED_O_TAP0 Fld.LAT_ITI_SEED_O_TAP1 Fld.LAT_ITI_SEED_O_TAP2)
      (List.replicate 8 (2 ^ 16 * d.fld (Fld.LAT_CFG_SIGMA_INIT u)))).onLat u fun s => { s with reseed := false }
  else d

/-! ## Stripe results (R128) -/

/-- Bit mask of a list of frame numbers. -/
def maskOf (l : List Nat) : Nat := l.foldl (fun acc j => acc ||| 2 ^ j) 0

/-- The 24-byte stripe result record (R128). -/
def stripeRecord (esn rcpt : Esn) (status : Nat) (erased : List Nat) (fail : Nat) : List Byte :=
  leBytes 6 esn.toNat ++ leBytes 6 rcpt.toNat ++ leBytes 1 status ++ leBytes 1 erased.length ++ zeroBytes 2
    ++ leBytes 4 (maskOf erased) ++ leBytes 4 fail

/-- A stripe job ends: its result is born, logged unless CLEAN, posted to its task, and its slot freed with that record's place in the
mailbox (R262); an UNRECOVERED one keeps its slot for re-reads (R127), an ENCODED one stays open for its band write (R128, R135;
log 25). -/
def Dev.stripeEnd (d : Dev) (h slot : Nat) (j : StripeJob) (status : Nat) (erased : List Nat) (fail : Nat) : Dev :=
  let e := d.esn
  let d := if status = 0 then d.issue else d.eventFor j.rcpt .stripeResult j.engine status [erased.length, maskOf erased, fail]
  let stays : Bool := status == 3 || status == 4
  let kept : StripeJob := if status = 4 then { j with encoded := true } else { j with ended := true, rebuilding := false, held := !stays }
  ((d.setStripe h slot (some kept)).postMailWith j.task ([0x02] ++ zeroBytes 7 ++ stripeRecord e j.rcpt status erased fail)
    (if stays then .nothing else .stripe (64 * h + slot))).showStripes

/-! ## Frame contents in a stripe buffer (R124) -/

/-- The 4,160 information bytes of frame j of a stripe buffer. -/
def Dev.frameBytes (d : Dev) (buf j : Nat) : List Byte :=
  let a := buf * pageBytes
  if j < 24 then d.bufRead (a + j * pageBytes) 4096 ++ d.bufRead (a + 24 * pageBytes + 64 * j) 64
  else d.bufRead (a + 25 * pageBytes + 4160 * (j - 24)) 4160

/-- Frame j of a stripe buffer is written. -/
def Dev.setFrameBytes (d : Dev) (buf j : Nat) (l : List Byte) : Dev :=
  let a := buf * pageBytes
  if j < 24 then (d.bufWrite (a + j * pageBytes) (l.take 4096)).bufWrite (a + 24 * pageBytes + 64 * j) (bytesAt l 4096 64)
  else d.bufWrite (a + 25 * pageBytes + 4160 * (j - 24)) (bytesAt l 0 4160)

/-- The WESN of a data frame (R49). -/
def frameWesn (l : List Byte) : Nat := fieldAt l (4096 + 12) 6

/-- The identity check of data frame j (R125). -/
def StripeJob.identity (s : StripeJob) (j : Nat) (l : List Byte) : Bool :=
  fieldAt l 4096 4 == s.nsid && fieldAt l (4096 + 4) 8 == (s.lba0 + j) % 2 ^ 64 && fieldAt l (4096 + 18) 1 == j
    && fieldAt l (4096 + 20) 4 == s.home

/-- The result held for a frame. -/
def StripeJob.result (s : StripeJob) (j : Nat) : Option FrameResult := s.results.find? fun r => r.j == j

/-- A frame whose job converged and whose identity passed. -/
def StripeJob.good (s : StripeJob) (j : Nat) : Bool :=
  match s.result j with
  | some r => r.status ≤ 1 && !s.misplaced.contains j
  | none => false

/-- A frame whose job ended BLANK. -/
def StripeJob.blank (s : StripeJob) (j : Nat) : Bool :=
  match s.result j with
  | some r => r.status == 4
  | none => false

/-- The frames of a job that have not decoded (R126). -/
def StripeJob.failed (s : StripeJob) : List Nat := (List.range 32).filter fun j => !s.good j

/-- Every codeword of 32 frames passes the Reed-Solomon check (R123). -/
def stripeCheck (frames : List (List Byte)) : Bool :=
  (columns 3328 (frames.map frameSymbols)).all fun c => (stripeSyndromes c).all (· == 0)

/-! ## Ending a frame job (R110, R121, R125) -/

/-- The decoder of a job is free again. -/
def Dev.freeDecoder (d : Dev) (u : Option Nat) : Dev :=
  match u with
  | none => d
  | some n => ((d.putBit (Fld.DECU_STATUS_BUSY n) false).putBit (Fld.DECU_STATUS_SWEEP n) false).put (Fld.DECU_STATUS_ITER n) 0

/-- A group whose jobs have all ended leaves the store or its spill slot (R95, R114). -/
def Dev.releaseGroup (d : Dev) (h : Nat) (k : GroupKey) : Dev :=
  d.when ((jobsOf (d.dh h).jobs k).isEmpty) fun d =>
    d.onDh h fun s => { s with store := s.store.filter (fun g => g.key != k), spilled := s.spilled.filter (fun g => g.key != k),
                               passes := s.passes.filter (fun p => p.1 != k || p.2 == 0) }

/-- Every unconverged frame of the group has ended its stage, so its turbo pass may run (R111). -/
def Dev.askTurbo (d : Dev) (h : Nat) (k : GroupKey) : Dev :=
  let l := jobsOf (d.dh h).jobs k
  let ready := l.any (fun j => j.stage == .turbo) && l.all (fun j => j.stage == .turbo || j.stage == .sweeping)
  let asked := (d.dh h).passes.any fun p => p.1 == k
  d.when (ready && !asked) fun d =>
    d.onDh h fun s =>
      { s with passes := s.passes ++ [(k, 1 + ((l.filter fun j => j.stage == .turbo).map (·.rounds)).foldl max 0)] }

/-- A job's counter by its status and rounds (R131). -/
def statusCounter (status rounds : Nat) : Nat :=
  match status with
  | 0 => if rounds = 0 then 0 else 1
  | 1 => 2 | 2 => 3 | 3 => 4 | 5 => 5 | 6 => 6 | _ => 8

/-- The stripe engine cancels a stripe's parity frame jobs: waiting ones go at once, running ones at their next iteration
(R119, R125). -/
def Dev.cancelParity (d : Dev) (h slot : Nat) : Dev :=
  let mine (j : JobSt) := j.stripe == slot && j.parity
  let idle := ((d.dh h).jobs.filter fun j => mine j && (j.stage == .waiting || j.stage == .turbo))
  let d := d.each idle fun d j => ((d.freeDecoder j.unit).issue).count (Adr.DEC_CNT h 6)
  let cut (l : List JobSt) : List JobSt :=
    (l.filter fun j => !(mine j && (j.stage == .waiting || j.stage == .turbo))).map fun j =>
      { j with cancelled := j.cancelled || mine j, quiet := j.quiet || mine j }
  let d := d.onDh h fun s => { s with jobs := cut s.jobs }
  (d.each idle fun d j => d.releaseGroup h (groupOfFrame j.frame)).showQueue h

/-- The judgement of a read stripe as its results come in (R63, R125, R126); of a stripe re-read, once all its jobs have
ended (R127). -/
def Dev.stripeEvaluate (d : Dev) (h slot : Nat) : Dev :=
  match d.stripeJob h slot with
  | none => d
  | some s =>
    if s.op ≠ 1 ∨ s.ended ∨ s.rebuilding ∨ (s.reread ∧ !s.flying.isEmpty) then d
    else
      let wesns := ((List.range 24).map fun j => frameWesn (d.frameBytes s.buf j)).eraseDups
      let dataOk := (List.range 24).all s.good && wesns.length == 1
      let clean := (d.count (Adr.STR_CNT s.engine 0)).stripeEnd h slot s 0 [] 0
      if dataOk && !s.verify then clean.cancelParity h slot
      else if dataOk && s.flying.isEmpty && s.failed.isEmpty
        && stripeCheck ((List.range 32).map fun j => d.frameBytes s.buf j) then clean
      else if (List.range 32).all s.blank then d.stripeEnd h slot s 2 [] 0
      else if s.flying.isEmpty then (d.setStripe h slot (some { s with rebuilding := true })).showStripes
      else d

/-- The 24-byte record of a result (R121). -/
def FrameResult.bytes (r : FrameResult) : List Byte :=
  leBytes 6 r.esn.toNat ++ leBytes 6 r.rcpt.toNat ++ leBytes 1 r.status ++ leBytes 1 r.iters ++ leBytes 1 r.rounds
    ++ leBytes 1 (codeOf 8 r.shift) ++ leBytes 2 r.usc ++ leBytes 2 r.flagged ++ leBytes 2 r.flips ++ leBytes 1 r.j ++ zeroBytes 1

/-- A result is written into its stripe slot: a re-read replaces an earlier result only when it converges (R121, R125,
R127). -/
def Dev.stripeResult (d : Dev) (h slot : Nat) (r : FrameResult) (info : List Byte) : Dev :=
  match d.stripeJob h slot with
  | none => d
  | some s =>
    let s := { s with flying := s.flying.filter (· != r.j) }
    let keep := s.good r.j || (!(r.status ≤ 1) && (s.result r.j).isSome)
    let bad := !keep && r.status ≤ 1 && r.j < 24 && d.bit (Fld.STR_CTRL_ID_CHECK s.engine) && !s.identity r.j info
    let s := if keep then s else
      { s with results := (s.results.filter fun x => x.j != r.j) ++ [r],
               misplaced := (s.misplaced.filter (· != r.j)) ++ (if bad then [r.j] else []),
               records := Tab.set (fun _ => []) s.records r.j r.bytes }
    let d := d.when (!keep && r.status ≤ 1) fun d => d.setFrameBytes s.buf r.j info
    let d := d.when bad fun d => (d.putBit (Fld.STR_STATUS_MISPLACED s.engine) true).count (Adr.STR_CNT s.engine 6)
    (d.setStripe h slot (some s)).stripeEvaluate h slot

/-! ## What a group holds of a position (R83, R84, R94 to R96) -/

/-- The fragments of a position. -/
def GroupSt.fragsOf (g : GroupSt) (p : Nat) : List FragSt := g.frags.filter fun f => f.pos == p

/-- The accepted sync offset of a position's frame (R81): none, 0, while its first fragment is missing. -/
def GroupSt.offset (g : GroupSt) (p : Nat) : Int := ((g.fragsOf p).findSome? fun f => f.sync.map (·.2.1)).getD 0

/-- The data-space bit at which a position's codeword begins (R47, R50, R81). -/
def GroupSt.codeStart (g : GroupSt) (p : Nat) : Int := (g.key.slot * slotBits + headBits : Nat) + g.offset p

/-- A sample of a fragment at a data-space bit: inside its codeword bits, or in the margin of an end of the codeword (R84, R95); none
under an erasure flag (R17). -/
def FragSt.sampleAt (f : FragSt) (q : Int) : Option Int :=
  let i := q - f.firstBit + 8
  let first : Int := if f.lo = 0 then 0 else 8
  let stop : Int := (f.hi - f.lo : Nat) + (if f.hi = codeBits then 16 else 8)
  if decide (first ≤ i) && decide (i < stop) && !f.flags.getD ((q.toNat / 32) - (f.firstBit - 8) / 32) true then f.samples[i.toNat]? else none

/-- A position's sample at a data-space bit as the store holds it; a word that the code could not correct is erased (R8, R95). -/
def GroupSt.sample (g : GroupSt) (p : Nat) (q : Int) : Option Int :=
  if g.lost.contains (p, (q - g.codeStart p + 8).toNat / 9) then none else (g.fragsOf p).findSome? fun f => f.sampleAt q

/-- Positions whose last fragment carries BLANK (R89). -/
def GroupSt.blanks (g : GroupSt) : List Nat := (g.frags.filter (·.blank)).map (·.pos)

/-- Flagged 32-bit groups of a position's codeword, those with no fragment among them (R96, R121). -/
def flaggedGroups (g : GroupSt) (p : Nat) : Nat :=
  let start := (g.codeStart p).toNat
  let flagged (k : Nat) : Bool := !(g.fragsOf p).any fun f =>
    f.firstBit / 32 ≤ k && 32 * k < f.firstBit + (f.hi - f.lo) && !f.flags.getD (k - (f.firstBit - 8) / 32) true
  ((List.range ((start + codeBits - 1) / 32 + 1 - start / 32)).filter fun i => flagged (start / 32 + i)).length

/-- The group of a job, in the store or spilled. -/
def Dev.jobGroup (d : Dev) (h : Nat) (j : JobSt) : Option GroupSt :=
  let k := groupOfFrame j.frame
  (findGroup (d.dh h).store k).orElse fun _ => findGroup (d.dh h).spilled k

/-- Flagged groups of a job's codeword; those noted at round 0 once the group is gone (R113, R121). -/
def Dev.jobFlagged (d : Dev) (h : Nat) (j : JobSt) : Nat :=
  match d.jobGroup h j with
  | some g => flaggedGroups g (framePos j.frame)
  | none => j.flagged

/-- The descrambled channel inputs of a job at a shift from the accepted start (R48, R116): outputs with eight margin
bits at each end. -/
def jobCut (frame : Nat) (out : List Int) (shift : Int) : List Int :=
  List.zipWith (fun v b => if b then -v else v) ((out.drop (8 + shift).toNat).take 38912) (scramble 38912 (frameSeed frame))

/-- Decided bits that differ from the round 0 signs (R121). -/
def jobFlips (frame : Nat) (out0 : List Int) (shift : Int) (hard : List Bool) : Nat :=
  min 65535 ((List.zip (jobCut frame out0 shift) hard).countP fun p => decide (p.1 < 0) != p.2)

/-- A group changed wherever it is held. -/
def Dev.onGroupOf (d : Dev) (h : Nat) (k : GroupKey) (f : GroupSt → GroupSt) : Dev :=
  d.onDh h fun s => { s with store := onGroup s.store k f, spilled := onGroup s.spilled k f }

/-- The channel bits of a frame that converged are kept with its group, for the a priori values of turbo passes and the estimation
(R101, R111). -/
def Dev.noteConverged (d : Dev) (h : Nat) (j : JobSt) (shift : Int) (hard : List Bool) : Dev :=
  let p := framePos j.frame
  d.onGroupOf h (groupOfFrame j.frame) fun g => { g with
    decided := g.decided.filter (fun e => e.1 != p) ++ [(p, shift, xorBits hard (scramble codeBits (frameSeed j.frame)))] }

/-- A job ends with decisions cut at a shift: its decoder is freed, its result born, counted, logged where R344 says, and
forwarded (R119, R121); a result shows the shift of a frame that a sweep brought in. -/
def Dev.endJob (d : Dev) (h : Nat) (j : JobSt) (status : Nat) (shift : Int) (hard : List Bool) : Dev :=
  let d := d.when (status ≤ 1) fun d => d.noteConverged h j shift hard
  let info := if status ≤ 1 then bytesOfBits (hard.take 33280) else []
  let usc := if hard.isEmpty then 0 else ldpcUsc (chunks 512 76 hard)
  let flips := if hard.isEmpty then 0 else jobFlips j.frame j.chan0 shift hard
  let shown := if status = 1 then shift else 0
  let r : FrameResult := ⟨d.esn, j.rcpt, status, j.iters, j.rounds, shown, usc, d.jobFlagged h j, flips, j.j⟩
  let d := if (status = 0 ∧ j.rounds = 0) ∨ j.quiet then d.issue
    else d.eventFor j.rcpt .decoderResult (j.unit.getD 0) status [j.iters, j.rounds, codeOf 8 shown, usc, r.flagged, flips, j.j]
  let d := (d.freeDecoder j.unit).when (statusCounter status j.rounds < 8) fun d => d.count (Adr.DEC_CNT h (statusCounter status j.rounds))
  let d := d.onDh h fun s => { s with jobs := s.jobs.filter (fun x => x.esn != j.esn) }
  let d := d.stripeResult h j.stripe r info
  let k := groupOfFrame j.frame
  (((d.askTurbo h k).releaseGroup h k).showQueue h).showLat h

/-- A job cancelled by the stripe engine ends quietly (R119, R344). -/
def Dev.endCancelled (d : Dev) (h : Nat) (j : JobSt) : Dev := d.endJob h j 6 0 []

/-! ## Group store (R95, R96, R114, R118) -/

/-- The oldest group without frame jobs, else the oldest (R95). -/
def evictChoice (s : DetHead) : Option GroupSt :=
  (s.store.find? fun g => (jobsOf s.jobs g.key).isEmpty).orElse fun _ => s.store.head?

/-- The lowest free spill slot of a head (R114). -/
def freeSpill (s : DetHead) : Option Nat :=
  (List.range 32).find? fun n => s.spilled.all fun g => g.slot != some n

/-- A status bit of the head's Active unit is set. -/
def Dev.latFlag (d : Dev) (h : Nat) (f : Nat → Field) : Dev :=
  match d.activeLat h with
  | some u => d.putBit (f u) true
  | none => d

/-- The place of position p in a spill slot of a head (R114; log 129). -/
def Dev.spillAddr (d : Dev) (h slot p : Nat) : Nat :=
  (d.fld (Fld.LAT_SPILL_BASE_PAGE h) + 128 * slot) * pageBytes + 65536 * p

/-- Codes of n bits each, the first in the lowest bits. -/
def packCodes (n : Nat) (l : List Int) : List Byte :=
  bytesOfBits (let b := (l.map fun v => (List.range n).map (codeOf n v).testBit).flatten
    b ++ List.replicate ((8 - b.length % 8) % 8) false)

/-- Code i of n bits in packed bytes. -/
def packedCode (n : Nat) (l : List Byte) (i : Nat) : Int := signedOf n (leValue (bytesAt l (n * i / 8) 2) / 2 ^ (n * i % 8) % 2 ^ n)

/-- Samples and outputs of a position: its codeword and the eight margins at each end. -/
def heldBits : Nat := codeBits + 16

/-- The number of a sync class in a spilled record. -/
def SyncClass.code : SyncClass → Nat
  | .hard => 0
  | .soft => 1
  | .nominal => 2

/-- A fragment's record in a spill slot, 34 bytes (R83, R114; log 129). -/
def FragSt.bytes (f : FragSt) : List Byte :=
  let sync := match f.sync with
    | some s => [BitVec.ofNat 8 s.1.code, BitVec.ofInt 8 s.2.1, BitVec.ofNat 8 s.2.2]
    | none => [0xff, 0, 0]
  leBytes 6 f.esn.toNat ++ leBytes 6 f.rcpt.toNat ++ leBytes 1 f.head ++ leBytes 1 f.beam ++ leBytes 1 f.slice ++ leBytes 1 f.pos
    ++ leBytes 2 f.wedge ++ leBytes 4 f.firstBit ++ leBytes 4 f.lo ++ leBytes 4 f.hi ++ sync
    ++ leBytes 1 ((if f.miss then 1 else 0) + (if f.slip then 2 else 0) + (if f.blank then 4 else 0))

/-- The bytes that a spill slot holds of position p: samples, round 0 outputs, one erasure flag a group, and its fragments' records; the
head keeps the records too (R114). -/
def GroupSt.spillBytes (g : GroupSt) (p : Nat) : List (List Byte) :=
  let start := g.codeStart p - 8
  let samples := (List.range heldBits).map fun i => g.sample p (start + i)
  let first := start.toNat / 32
  let flags := (List.range 1218).map fun k => (List.range 32).any fun i =>
    let q : Int := 32 * (first + k) + i
    decide (start ≤ q) && decide (q < start + heldBits) && (g.sample p q).isNone
  [packCodes 7 (samples.map fun v => v.getD 0), packCodes 6 ((g.out0.getD p []).take heldBits),
    packCodes 1 (flags.map fun b => if b then 1 else 0), ((g.fragsOf p).map FragSt.bytes).flatten]

/-- A group is written to a spill slot (R114). -/
def Dev.spillGroup (d : Dev) (h slot : Nat) (g : GroupSt) : Dev :=
  d.each (List.range 8) fun d p =>
    let a := d.spillAddr h slot p
    d.each (List.zip [0, 34062, 63258, 63412] (g.spillBytes p)) fun d e => d.bufWrite (a + e.1) e.2

/-- A position's sample at a data-space bit, read from the spill slot where the group was spilled (R114). -/
def Dev.groupSample (d : Dev) (h : Nat) (g : GroupSt) (p : Nat) (q : Int) : Option Int :=
  match g.slot with
  | none => g.sample p q
  | some slot =>
    let a := d.spillAddr h slot p
    let i := q - g.codeStart p + 8
    let k := q.toNat / 32 - (g.codeStart p - 8).toNat / 32
    if i < 0 ∨ heldBits ≤ i then none
    else if packedCode 1 (d.bufRead (a + 63258) 154) k = 0 then some (packedCode 7 (d.bufRead a 34064) i.toNat) else none

/-- A position's round 0 output at a data-space bit. -/
def Dev.groupOut0 (d : Dev) (h : Nat) (g : GroupSt) (p : Nat) (q : Int) : Int :=
  let i := q - g.codeStart p + 8
  if i < 0 ∨ heldBits ≤ i then 0
  else
    match g.slot with
    | none => (g.out0.getD p []).getD i.toNat 0
    | some slot => packedCode 6 (d.bufRead (d.spillAddr h slot p + 34062) 29198) i.toNat

/-- A group has finished round 0 or was evicted: that counts while the head's pass that brought it in goes on (R118). -/
def DetHead.saw (s : DetHead) (g : GroupSt) : DetHead :=
  if g.past || s.seen.contains g.key then s else { s with seen := g.key :: s.seen }

/-- A job of a group that found no spill slot: it counts as at its limits and goes on to its sweep; one that round 0 had not reached sweeps
outputs of nothing (R114). -/
def JobSt.cap (j : JobSt) (g : GroupSt) : JobSt :=
  let blank := List.replicate heldBits (0 : Int)
  let j := { j with capped := true, stage := if j.stage = .turbo then .sweeping else j.stage }
  if g.round0 then j else { j with chan0 := blank, chan := blank, flagged := flaggedGroups g (framePos j.frame) }

/-- The decoders whose jobs sweep show it (R131). -/
def Dev.showSweeps (d : Dev) (h : Nat) : Dev :=
  d.each ((d.dh h).jobs.filter fun j => j.stage == .sweeping) fun d j => match j.unit with
    | some u => d.putBit (Fld.DECU_STATUS_SWEEP u) true
    | none => d

/-- A group leaves the store: its unconverged frames spill, or count as at their limits (R114). A group not yet complete is dropped, and its
jobs wait for its next pass (R117, R118); one whose round 0 has not run spills without outputs, and its pass reads the slot (log 129). -/
def Dev.evictGroup (d : Dev) (h : Nat) (g : GroupSt) : Dev :=
  let s := d.dh h
  let d := d.onDh h fun s => { s with store := s.store.filter (fun x => x.key != g.key) }.saw g
  let noPass (d : Dev) : Dev := d.onDh h fun s => { s with passes := s.passes.filter (fun p => p.1 != g.key) }
  if (jobsOf s.jobs g.key).isEmpty || !g.complete then noPass d
  else
    match freeSpill s with
    | some n =>
      let kept := { g with slot := some n, out0 := [], lost := [], frags := g.frags.map fun f => { f with samples := [] } }
      (d.spillGroup h n g).onDh h fun s => { s with spilled := s.spilled ++ [kept] }
    | none =>
      let cap (j : JobSt) : JobSt := if groupOfFrame j.frame = g.key then j.cap g else j
      ((noPass (d.onDh h fun s => { s with jobs := s.jobs.map cap })).showSweeps h).latFlag h Fld.LAT_STATUS_SPILL_FULL

/-- The oldest group leaves the store (R95). -/
def Dev.evict (d : Dev) (h : Nat) : Dev :=
  match evictChoice (d.dh h) with
  | some g => d.evictGroup h g
  | none => d

/-- The pass of a head over its band is over: nothing that it saw counts any more (R118). -/
def Dev.passEnds (d : Dev) (h : Nat) : Dev :=
  let old (g : GroupSt) : GroupSt := { g with past := true }
  d.onDh h fun s => { s with seen := [], store := s.store.map old, spilled := s.spilled.map old }

/-- The first fragment of a group enters it into the store (R95). A group of an earlier pass with the same key gives way, unless frame jobs
are at work on it (log 154). -/
def Dev.enterGroup (d : Dev) (h : Nat) (k : GroupKey) : Dev :=
  let d := match findGroup (d.dh h).store k with
    | some g => d.when (g.past && (jobsOf (d.dh h).jobs k).all fun j => j.stage == .waiting && j.chan.isEmpty) fun d => d.evictGroup h g
    | none => d
  if (findGroup (d.dh h).store k).isSome then d
  else
    let d := d.when (8 ≤ (d.dh h).store.length) fun d => d.evict h
    d.onDh h fun s => { s with store := s.store ++ [{ key := k }] }

/-- Waiting jobs of blank frames end BLANK (R118). -/
def Dev.endBlank (d : Dev) (h : Nat) (k : GroupKey) : Dev :=
  match findGroup (d.dh h).store k with
  | none => d
  | some g =>
    d.each ((jobsOf (d.dh h).jobs k).filter fun j => j.stage == .waiting && g.blanks.contains (framePos j.frame)) fun d j =>
      d.endJob h j 4 0 []

/-- The position of the beam map in force that a beam holds (R94, R167). -/
def Dev.positionOf (d : Dev) (h b : Nat) : Option Nat :=
  (List.range 8).find? fun p => fieldOf (d.reg (Adr.SRV_BEAM_MAP_CUR h)) (4 * p) 4 == b

/-- The frame that a slice's fragment belongs to, at position p. -/
def Dev.fragmentFrame (d : Dev) (h p : Nat) (f : FragmentRecord) : Nat :=
  let hd := d.head h
  frameAddr h hd.layer hd.band f.slot (8 * (f.wedge / 512) + p)

/-- A slot that the defect map retires (R57). -/
def Dev.retiredSlot (d : Dev) (a : Nat) : Bool :=
  (d.layer (addrSide a) (addrLayer a)).defects.any fun e => e.retired == a

/-- The frame formatter reads a slot of a head's band for data: no retired one, and none of a layer without a valid record, but for the system
bands, which hold the record itself (R55 to R57). -/
def Dev.formatterReads (d : Dev) (h slot : Nat) : Bool :=
  let hd := d.head h
  hd.band < 4 || ((d.layer h hd.layer).valid && !d.retiredSlot (stripeAddr h hd.layer hd.band slot))

/-- The record of a fragment that slice n delivers at position p: the codeword bits of its slot that lie in its wedge interval, with
the samples of the delay line and, past the interval's ends, those of the resync field and the guard; none where the interval holds
no codeword bit of the slot (R46, R50, R83, R84). A margin past an end carries the flag of the interval's group beside it. -/
def Dev.fragmentOf (d : Dev) (n p : Nat) (f : FragmentRecord) : Option FragSt :=
  let h := n / 10
  let s := d.slice n
  let start := f.wedge % 512 * (32 * d.sliceFrag n)
  let stop := start + 32 * d.sliceFrag n
  let sync := s.syncAt f.slot
  let code := ((f.slot.val * slotBits + headBits : Nat) + sync.2.1).toNat
  let lo := start - code
  let hi := min codeBits (stop - code)
  let first := code + lo
  if hi ≤ lo then none
  else
    let len := hi - lo
    let place (i : Nat) : Int := if first + i < start + 8 then (f.before.toList.getD (first + i - start) 0).toInt
      else if stop + 8 ≤ first + i then (f.after.toList.getD (first + i - 8 - stop) 0).toInt
      else ((s.line.find? fun e => e.pos == ((first + i - 8 : Nat) : Int)).map (·.z)).getD 0
    let group (k : Nat) : Nat := max (start / 32) (min (stop / 32 - 1) ((first - 8) / 32 + k))
    let frame := d.fragmentFrame h p f
    let mark := ((s.marks.find? fun e => e.1 == f.wedge.val).map (·.2)).getD (false, false)
    let esn := ((s.births.find? fun e => e.1 == f.wedge.val && e.2.1 == f.slot.val).map (·.2.2)).getD d.esn
    some { esn := esn, rcpt := (((d.dh h).jobs.find? fun j => j.frame == frame).map (·.rcpt)).getD 0, head := h
           beam := d.sliceBeam n, slice := n, pos := p, wedge := f.wedge, firstBit := first, lo := lo, hi := hi
           sync := if lo = 0 then some sync else none, miss := mark.1, slip := mark.2
           flags := (List.range ((first + len + 7) / 32 + 1 - (first - 8) / 32)).map fun k => (d.quadFlags n f.wedge).1.contains (group k)
           blank := hi = codeBits && d.frameBlank n f.slot f.wedge, samples := (List.range (len + 16)).map place }

/-- FRAGMENT leaves slice n: its wedge's marks go with it, and its ESN is the one of its birth, or the next where no group showed the birth
(R80, R83). -/
def Dev.fragmentLeaves (d : Dev) (n : Nat) (f : FragmentRecord) (r : FragSt) : Dev :=
  let born := (d.slice n).births.any fun e => e.1 == f.wedge.val && e.2.1 == f.slot.val
  (if born then d else d.issue).onSlice n fun s => { s with
    markMiss := if s.marks.head?.any (fun e => e.1 == f.wedge.val) then false else s.markMiss
    marks := s.marks.filter fun e => e.1 != f.wedge.val
    births := s.births.filter fun e => e.1 != f.wedge.val || e.2.1 != f.slot.val
    esn := r.esn }

/-- FRAGMENT: a Data-mode slice that delivers hands a fragment to its head's store; one of a beam outside the map, or of a slot that the frame
formatter does not read, is born and reaches no group, and neither does one that came after its group was complete (R20, R57, R77, R83, R95, R137). A Shadow slice delivers nothing; its BLANK
status follows its frames (R65). -/
def Dev.deliver (d : Dev) (n : Nat) (f : FragmentRecord) : Dev :=
  let h := n / 10
  if !d.delivers n && d.sliceMode n != 2 then d
  else
    let p := d.positionOf h (d.sliceBeam n)
    match d.fragmentOf n (p.getD 0) f with
    | none => d
    | some r =>
      let d := d.when (r.hi == codeBits) fun d => d.putBit (Fld.CHN_STATUS_BLANK n) r.blank
      if d.sliceMode n = 2 then d
      else
        let k := groupOfFrame (d.fragmentFrame h (p.getD 0) f)
        let d := d.fragmentLeaves n f r
        if p.isNone || !d.formatterReads h f.slot then d
        else
          let d := d.enterGroup h k
          let add (g : GroupSt) : GroupSt := if g.complete || g.past || g.frags.any (fun x => x.pos == r.pos && x.wedge == r.wedge) then g
            else { g with frags := g.frags ++ [r] }
          let d := d.onDh h fun s => { s with store := onGroup s.store k add }
          (d.when r.blank fun d => d.endBlank h k).showLat h

/-- The end of the codeword bits that a position's fragments hold from bit 0 on, taken by wedge index (R16, R96). -/
def GroupSt.heldTo (g : GroupSt) (p : Nat) : Nat :=
  let l := g.fragsOf p
  let first := l.foldl (fun w f => min w f.wedge) 2048
  (List.range l.length).foldl (fun r i => match l.find? fun f => f.wedge == first + i with
    | some f => if f.lo = r then f.hi else r
    | none => r) 0

/-- The store holds the codeword ranges of all eight positions, margins included (R96). -/
def groupWhole (g : GroupSt) : Bool := (List.range 8).all fun p => g.heldTo p == codeBits

/-- A group is complete: its round 0 pass waits for the Active unit (R96). -/
def Dev.completeGroup (d : Dev) (h : Nat) (k : GroupKey) : Dev :=
  let first := (d.dh h).passes.isEmpty
  let d := d.onDh h fun s => { s with store := onGroup s.store k fun g => { g with complete := true },
                                      passes := s.passes ++ [(k, 0)] }
  let d := d.when first fun d => match d.activeLat h with
    | some u => d.beginGroup u
    | none => d
  d.showLat h

/-- A group not yet complete in the store. -/
def Dev.openGroup (d : Dev) (h : Nat) (k : GroupKey) : Option GroupSt :=
  (findGroup (d.dh h).store k).filter fun g => !g.complete

def execFragment (n : Slice) (f : FragmentRecord) (s : State) : Host.Outcome State Fault Refusal :=
  s.onSlice n fun d => d.deliver n f

/-- GROUP_COMPLETE: the last margin sample of the last position is stored (R96). -/
def execGroupComplete (h : Head) (g : GroupKey) (s : State) : Host.Outcome State Fault Refusal :=
  s.on fun d => match d.openGroup h.ix g with
    | some x => if groupWhole x then d.completeGroup h.ix g else d
    | none => d

/-- GROUP_DEADLINE: missing parts are erased, and the group is complete (R96). -/
def execGroupDeadline (h : Head) (g : GroupKey) (s : State) : Host.Outcome State Fault Refusal :=
  s.on fun d => match d.openGroup h.ix g with
    | some _ => d.completeGroup h.ix g
    | none => d

/-! ## Lattice units (R97 to R104) -/

/-- The data-space bits over which a pass runs: from 16 before the nominal start of the codeword to 16 past its end, so that every
accepted offset's margins lie inside (R84, R94). -/
def passStart (g : GroupSt) : Nat := g.key.slot * slotBits + headBits - 16
def passBits : Nat := codeBits + 32

/-- The a priori codes of a position in a turbo pass, from the codeword's first bit on, with the shift of a converged frame: ±31 for a
converged frame, the decoder's extrinsic for one in a turbo round, else nothing (R111; log 127). -/
def Dev.priorCodes (d : Dev) (h : Nat) (g : GroupSt) (p : Nat) : Int × List Int :=
  match g.decided.find? fun e => e.1 == p with
  | some e => (e.2.1, e.2.2.map fun b => if b then -31 else 31)
  | none =>
    match (jobsOf (d.dh h).jobs g.key).find? fun j => framePos j.frame == p && j.stage == .turbo with
    | some j =>
      let post := (j.dec.map fun w => w.1.flatten).getD []
      let ext := List.zipWith (fun l c => clampInt (-31) 31 (l - c)) post (jobCut j.frame j.chan 0)
      (0, List.zipWith (fun v b => if b then -v else v) ext (scramble codeBits (frameSeed j.frame)))
    | none => (0, [])

/-- What a pass sees of a position, bit by bit of the data space (R94, R99). -/
def Dev.passRow (d : Dev) (h gain : Nat) (g : GroupSt) (turbo : Bool) (p : Nat) : List LatBit :=
  let prior := if turbo then d.priorCodes h g p else (0, [])
  let start := g.codeStart p + prior.1
  (List.range passBits).map fun n =>
    let q : Int := passStart g + n
    let i := q - start
    ⟨d.groupSample h g p q, if 0 ≤ i then priorOf gain (prior.2.getD i.toNat 0) else 0⟩

/-- The models of a unit on a head: the targets of the slices that serve the positions, its taps and variances (R97). -/
def Dev.passModels (d : Dev) (u h : Nat) : List LatModel :=
  let s := d.lat u
  (List.range 8).map fun p =>
    let g := match d.sliceServing h (fieldOf (d.reg (Adr.SRV_BEAM_MAP_CUR h)) (4 * p) 4) with
      | some n => (d.target n).take 3
      | none => []
    ⟨g, s.inner.getD p [], s.outer.getD p [], s.sigma.getD p 0⟩

/-- The outputs of a pass for a position: its codeword and the eight margins at each end (R100). -/
def passOutputs (gain : Nat) (models : List LatModel) (rows : List (List LatBit)) (g : GroupSt) (p : Nat) : List Int :=
  ((latPosition gain models rows p).drop (g.codeStart p - 8 - passStart g).toNat).take heldBits

/-- The decided bits of a position over a pass: those of a converged frame, else the signs of the round 0 outputs (R101). -/
def Dev.passDecided (d : Dev) (h : Nat) (g : GroupSt) (p : Nat) : List Int :=
  let done := g.decided.find? fun e => e.1 == p
  (List.range passBits).map fun n =>
    let q : Int := passStart g + n
    let sign := signBit (decide (d.groupOut0 h g p q < 0))
    match done with
    | some e =>
      let i := q - g.codeStart p - e.2.1
      if 0 ≤ i then ((e.2.2[i.toNat]?).map signBit).getD sign else sign
    | none => sign

/-- A unit adapts over a pass of a group: taps on round 0 alone, variances on every pass; a tap that met its range sets ITI_LIMIT
(R97, R101, R102). -/
def Dev.adaptLat (d : Dev) (u place : Nat) (turbo : Bool) (models : List LatModel) (rows : List (List LatBit))
    (decided : List (List Int)) : Dev :=
  let mu := if turbo then none else some (d.fld (Fld.LAT_CFG_ITI_MU u))
  let runs := (List.range 8).map fun p =>
    latEstimate mu (d.fld (Fld.LAT_CFG_SIGMA_TC u)) (2 ^ 16 * d.fld (Fld.LAT_CFG_SIGMA_FLOOR u)) place
      (models.getD p ⟨[], [], [], 0⟩) (rows.getD p []) decided p
  let d := d.when (runs.any (·.limit)) fun d => d.putBit (Fld.LAT_STATUS_ITI_LIMIT u) true
  d.setTaps u (runs.map (·.model.hi)) (runs.map (·.model.ho)) (runs.map (·.model.var))

/-- A group that a pass runs over, in the store or spilled. -/
def Dev.heldGroup (d : Dev) (h : Nat) (k : GroupKey) : Option GroupSt :=
  (findGroup (d.dh h).store k).orElse fun _ => findGroup (d.dh h).spilled k

/-- The outputs of round 0 are kept with the group, in its spill slot where it has one. -/
def Dev.keepOut0 (d : Dev) (h : Nat) (g : GroupSt) (out : List (List Int)) : Dev :=
  match g.slot with
  | none => d.onGroupOf h g.key fun g => { g with round0 := true, out0 := out }
  | some n =>
    (d.each (List.range 8) fun d p => d.bufWrite (d.spillAddr h n p + 34062) (packCodes 6 (out.getD p []))).onGroupOf h g.key fun g =>
      { g with round0 := true }

/-- Round 0 outputs reach the group and its waiting jobs (R100, R117). -/
def Dev.deliverRound0 (d : Dev) (h : Nat) (g : GroupSt) (out : List (List Int)) : Dev :=
  let give (j : JobSt) : JobSt := if groupOfFrame j.frame = g.key ∧ j.stage = .waiting then
    let o := out.getD (framePos j.frame) []
    { j with chan0 := o, chan := o, flagged := flaggedGroups g (framePos j.frame) } else j
  (d.keepOut0 h g out).onDh h fun s => { s with jobs := s.jobs.map give }.saw g

/-- A turbo pass gives its group's waiting frames new channel inputs, each in its own next round; their messages stay (R111). -/
def Dev.deliverTurbo (d : Dev) (h : Nat) (k : GroupKey) (out : List (List Int)) : Dev :=
  let give (j : JobSt) : JobSt := if groupOfFrame j.frame = k ∧ j.stage = .turbo then
    let o := out.getD (framePos j.frame) []
    let dec := j.dec.map fun p => ((LdpcState.mk p.1 p.2).rechannel (jobCut j.frame o 0))
    { j with stage := .decoding, rounds := j.rounds + 1, chan := o, dec := dec.map fun s => (s.l, s.r) } else j
  d.onDh h fun s => { s with jobs := s.jobs.map give }

/-- One pass of a unit over a group: the words that the store's code could not correct are erased, the detector runs, its outputs are
delivered where `active`, and the unit adapts (R95, R98 to R102, R111). A turbo pass over a spilled group sets SPILLED (R114). -/
def Dev.runPass (d : Dev) (u h : Nat) (k : GroupKey) (round : Nat) (active : Bool) (lost : LostWords) : Dev :=
  let d := d.onDh h fun s => { s with store := onGroup s.store k fun g =>
    { g with lost := g.lost ++ lost.map fun e => (e.1.val, e.2.val) } }
  match d.heldGroup h k with
  | none => d
  | some g =>
    let turbo := round != 0
    let gain := d.fld (Fld.LAT_CFG_LLR_GAIN u)
    let models := d.passModels u h
    let rows := (List.range 8).map (d.passRow h gain g turbo)
    let out := (List.range 8).map (passOutputs gain models rows g)
    let d := d.when (turbo && g.slot.isSome) fun d => d.putBit (Fld.LAT_STATUS_SPILLED u) true
    let d := d.when active fun d => if turbo then d.deliverTurbo h k out else d.deliverRound0 h g out
    d.adaptLat u (passStart g) turbo models rows ((List.range 8).map (d.passDecided h (if turbo then g else { g with out0 := out, slot := none })))

/-- A hand-off of Lattice units takes place at the group boundary after GO (R386), where OUT still is the Active unit and IN the Shadow unit of
the head. -/
def Dev.latticeHandoff (d : Dev) (h : Nat) : Dev :=
  match (d.dh h).handoff with
  | none => d
  | some (inn, out) =>
    let d := d.onDh h fun s => { s with handoff := none }
    if d.activeLat h == some out && d.fld (Fld.LAT_CTRL_MODE inn) == 2 && d.fld (Fld.LAT_CTRL_HEAD inn) == h && !d.dead 5 inn then
      let d := (d.put (Fld.LAT_CTRL_MODE out) 2).put (Fld.LAT_CTRL_MODE inn) 1
      (d.handoffDone 5 out inn).showLat h
    else d.handoffFails

/-- The group whose round 0 a Shadow unit runs: the one in front of the Active unit, else the latest that had its round 0 (R103;
log 130). -/
def shadowGroup (s : DetHead) : Option GroupKey :=
  ((s.passes.find? fun p => p.2 == 0).map (·.1)).orElse fun _ => ((s.store.reverse.find? (·.round0)).map (·.key))

/-- LATTICE_PASS_DONE of a unit (R97 to R103, R111): an Active unit delivers the pass in front and adapts; a Shadow unit
adapts alone. -/
def Dev.passDone (d : Dev) (u : Nat) (lost : LostWords) : Dev :=
  let h := d.fld (Fld.LAT_CTRL_HEAD u)
  let mode := d.fld (Fld.LAT_CTRL_MODE u)
  if mode = 2 then
    match shadowGroup (d.dh h) with
    | none => d
    | some k => ((d.beginGroup u).runPass u h k 0 false lost).onLat u fun s => { s with shadowed := true }
  else if mode = 1 then
    match (d.dh h).passes with
    | [] => d
    | (k, round) :: rest =>
      let d := d.event .latticeResult u 0 [k.band, k.quad, k.slot, round]
      let d := d.runPass u h k round true lost
      let d := d.onDh h fun s => { s with passes := rest }
      let d := (d.endBlank h k).when (match rest with | (_, 0) :: _ => true | _ => false) fun d => d.beginGroup u
      (d.latticeHandoff h).showLat h
  else d

def execLatticePassDone (u : LatUnit) (lost : LostWords) (s : State) : Host.Outcome State Fault Refusal :=
  s.on fun d => d.passDone u lost

/-- A unit fault of a Lattice unit (R104, R380): it goes Off and is retired; an Active one with AUTO set is to be taken
over. -/
def Dev.latticeFault (d : Dev) (u : Nat) : Dev :=
  if d.dead 5 u then d
  else
    let h := d.fld (Fld.LAT_CTRL_HEAD u)
    let active := d.fld (Fld.LAT_CTRL_MODE u) == 1
    let e := d.esn
    let d := (d.putBit (Fld.LAT_STATUS_FAULT u) true).event .latticeFault u 0 []
    let d := (d.put (Fld.LAT_CTRL_MODE u) 0).putBit (Fld.LAT_STATUS_BUSY u) false
    let d := d.retireUnit 5 u e
    let taker := match (d.dh h).handoff with
      | some (inn, out) => if out = u then some inn else none
      | none => none
    let named (k : Nat) : Bool := match (d.dh k).handoff with
      | some p => p.1 == u || p.2 == u
      | none => false
    let d := d.each ([0, 1].filter named) fun d k => d.handoffFails.onDh k fun s => { s with handoff := none }
    let d := d.onDh h fun s => { s with taker := taker }
    d.when (active && (d.bit Fld.LAT_SPARE_AUTO || taker.isSome)) fun d => d.onDh h fun s => { s with failed := some u }

def execLatticeFault (u : LatUnit) (s : State) : Host.Outcome State Fault Refusal :=
  s.on fun d => d.latticeFault u

/-- An in-service unit without a role takes the Shadow role of a head and is named in LAT_SPARE; while there is none, the role stays to
be filled (R485). -/
def Dev.refillShadow (d : Dev) (h : Nat) : Dev :=
  match (List.range 3).find? fun u => d.fld (Fld.LAT_CTRL_MODE u) == 0 && (d.unit 5 u == .inService || d.unit 5 u == .spare) with
  | some u =>
    (((d.put (Fld.LAT_CTRL_MODE u) 2).put (Fld.LAT_CTRL_HEAD u) h).put Fld.LAT_SPARE_UNIT u).onDh h fun s => { s with unshadowed := false }
  | none => d.onDh h fun s => { s with unshadowed := true }

/-- The Shadow roles that stay to be filled are, where a unit has come free (R485). -/
def Dev.refillShadows (d : Dev) : Dev := d.each (List.range 2) fun d h => d.when (d.dh h).unshadowed fun d => d.refillShadow h

/-- LATTICE_TAKEOVER: the unit that LAT_SPARE names becomes Active on the head with the faulty unit's taps and
variances, and re-runs every pass not delivered (R104). A head to which a write has given an Active unit meanwhile needs none (R103). -/
def Dev.takeover (d : Dev) (h : Nat) : Dev :=
  match (d.dh h).failed with
  | none => d
  | some u =>
    let v := ((d.dh h).taker).getD (d.fld Fld.LAT_SPARE_UNIT)
    if (d.activeLat h).isSome then d.onDh h fun s => { s with failed := none, taker := none }
    else if d.dead 5 v ∨ v = u ∨ d.fld (Fld.LAT_CTRL_MODE v) = 1 then d
    else
      let t := d.lat u
      let d := (d.put (Fld.LAT_CTRL_MODE v) 1).put (Fld.LAT_CTRL_HEAD v) h
      let d := (d.setTaps v t.inner t.outer t.sigma).substitute 5 u v 0
      let d := d.onDh h fun s => { s with failed := none, taker := none }
      ((d.refillShadow h).judge 5).showLat h

def execLatticeTakeover (h : Head) (s : State) : Host.Outcome State Fault Refusal :=
  s.on fun d => d.takeover h.ix

/-- A write of LATn_CTRL that R103 and R104 accept. -/
def Dev.latModeOk (d : Dev) (u mode h : Nat) : Bool :=
  mode != 3 && !(h == 1 && d.variantS)
    && !(mode != 0 && (d.dead 5 u || d.mode == 2))
    && !(mode == 1 && ((List.range 3).any fun v =>
          v != u && d.fld (Fld.LAT_CTRL_MODE v) == 1 && d.fld (Fld.LAT_CTRL_HEAD v) == h))

/-- LATTICE_SET_MODE: MODE and HEAD of a unit, or a discarded write (R103). -/
def Dev.latSetMode (d : Dev) (u mode h : Nat) : Dev :=
  if d.latModeOk u mode h then
    let was := d.fld (Fld.LAT_CTRL_HEAD u)
    let d := d.when (d.fld (Fld.LAT_CTRL_MODE u) != mode || was != h) fun d => d.onLat u fun s => { s with shadowed := false }
    (((d.put (Fld.LAT_CTRL_MODE u) mode).put (Fld.LAT_CTRL_HEAD u) h).showLat was).showLat h
  else d

def execLatticeSetMode (u : LatUnit) (mode : BitVec 2) (head : Head) (s : State) : Host.Outcome State Fault Refusal :=
  s.on fun d => d.latSetMode u mode.toNat head.ix

/-- ITI_RESEED: the seeds load at the start of the next group (R102). -/
def execItiReseed (u : LatUnit) (s : State) : Host.Outcome State Fault Refusal :=
  s.on fun d => d.onLat u fun s => { s with reseed := true }

/-! ## Decoders (R109 to R121) -/

/-- A decoder that may take jobs of a head (R117, R120). -/
def Dev.decoderFree (d : Dev) (u : Nat) : Bool :=
  d.maskBit Fld.DEC_INSERVICE_MASK u && (d.unit 6 u == .inService || d.unit 6 u == .spare) && !d.bit (Fld.DECU_STATUS_BUSY u)

/-- The oldest ready job of a head. -/
def Dev.readyJob (d : Dev) (h : Nat) : Option JobSt :=
  (d.dh h).jobs.find? fun j => j.stage == .waiting && !j.chan.isEmpty

/-- The head whose oldest ready job a decoder takes: the older of two (log 24). -/
def Dev.decoderHead (d : Dev) (u : Nat) : Option Nat :=
  let may (h : Nat) := if d.maskBit (Fld.DEC_MASK_MASK h) u then d.readyJob h else none
  match may 0, may 1 with
  | some a, some b => some (if b.esn.toNat < a.esn.toNat then 1 else 0)
  | some _, none => some 0
  | none, some _ => some 1
  | none, none => none

/-- A decoder starts a job from round 0 (R117); a capped one goes to its sweep. -/
def Dev.jobStart (d : Dev) (u : Nat) : Dev :=
  if d.decoderFree u then
    match d.decoderHead u with
    | none => d
    | some h =>
      match d.readyJob h with
      | none => d
      | some j =>
        let st := LdpcState.start (jobCut j.frame j.chan 0)
        let d := d.onDh h fun s => { s with jobs := onJob s.jobs j.esn fun j =>
          { j with stage := if j.capped then .sweeping else .decoding, unit := some u,
                   policy := d.reg (Adr.DEC_POLICY h), dec := some (st.l, st.r) } }
        let d := ((d.putBit (Fld.DECU_STATUS_BUSY u) true).put (Fld.DECU_STATUS_HEAD u) h).put (Fld.DECU_STATUS_ITER u) 0
        (d.putBit (Fld.DECU_STATUS_SWEEP u) j.capped).setReg (Adr.DECU_JOB u) (BitVec.ofNat 32 j.esn.toNat)
  else d

def execDecoderJobStart (u : DecUnit) (s : State) : Host.Outcome State Fault Refusal :=
  s.on fun d => d.jobStart u

/-- The job that a decoder runs, with its head. -/
def Dev.jobOf (d : Dev) (u : Nat) : Option (Nat × JobSt) :=
  (([0, 1] : List Nat).findSome? fun h => ((d.dh h).jobs.find? fun j => j.unit == some u).map fun j => (h, j))

/-- ITER_MAX, ITER_T, ITER0, TURBO_MAX and NORM of a policy word. -/
def polIterMax (p : Word) : Nat := fieldOf p 24 8
def polIterT (p : Word) : Nat := fieldOf p 16 8
def polIter0 (p : Word) : Nat := fieldOf p 8 8
def polTurboMax (p : Word) : Nat := fieldOf p 4 4
def polNorm (p : Word) : Nat := fieldOf p 0 4

/-- The effective iteration limit (R112). -/
def Dev.iterLimit (d : Dev) (j : JobSt) : Nat :=
  let m := min (polIterMax j.policy) (d.fld Fld.DEC_CAP_ITER_CAP)
  if j.iterLim = 0 then m else min m j.iterLim

/-- The effective turbo limit (R112); with the decoders depleted it is at most 1 (R383). -/
def Dev.turboLimit (d : Dev) (j : JobSt) : Nat :=
  let m := min (polTurboMax j.policy) (d.fld Fld.DEC_CAP_TURBO_CAP)
  let m := if d.maskBit Fld.SPR_STATUS_DEPLETED 6 then min 1 m else m
  if j.turboLim = 0xff then m else min m j.turboLim

/-- A running stage goes on: its iterations are not spent, and no limit that came down since cuts it short (R111, R112,
R114). -/
def JobSt.withinLimits (j : JobSt) (d : Dev) : Bool :=
  j.iters < min (polIter0 j.policy + j.rounds * polIterT j.policy) (d.iterLimit j) && j.rounds ≤ d.turboLimit j && !j.capped

/-- More than ERASE_LIMIT/64 of the codeword's groups are flagged (R113). -/
def Dev.heavyErased (d : Dev) (h : Nat) (j : JobSt) : Bool :=
  d.fld (Fld.DEC_SWEEP_ERASE_LIMIT h) * 1216 < 64 * d.jobFlagged h j

/-- What follows a stage that ended without convergence: a turbo round, a sweep, or the end (R111, R113, R115). -/
inductive NextStage where
  | turbo | sweep | fail
  deriving DecidableEq, Repr

/-- The next stage of a job after a stage that ended with USC unsatisfied checks. -/
def Dev.nextStage (d : Dev) (h : Nat) (j : JobSt) (usc : Nat) : NextStage :=
  let heavy := d.heavyErased h j
  let r := j.rounds + 1
  let early := j.rounds == 0 && d.fld (Fld.DEC_SWEEP_SWEEP_USC h) ≤ usc && !heavy
  let turbo := !early && !heavy && !j.capped && (d.jobGroup h j).isSome && r ≤ d.turboLimit j
    && polIter0 j.policy + r * polIterT j.policy ≤ d.iterLimit j
  if turbo then .turbo else if j.noSweep && j.scrub then .fail else .sweep

/-- One decoder iteration and what it decides (R109 to R115, R119). -/
def Dev.iteration (d : Dev) (u : Nat) : Dev :=
  match d.jobOf u with
  | none => d
  | some (h, j) =>
    if j.stage ≠ .decoding then d
    else
      match j.dec with
      | none => d
      | some w =>
        let st := (LdpcState.mk w.1 w.2).iterate (polNorm j.policy)
        let hard := st.hard
        let j := { j with iters := j.iters + 1, dec := some (st.l, st.r) }
        let d := (d.onDh h fun s => { s with jobs := onJob s.jobs j.esn fun _ => j }).put (Fld.DECU_STATUS_ITER u) j.iters
        let usc := ldpcUsc hard
        if j.cancelled then d.endCancelled h j
        else if usc = 0 then
          if j.parity || frameCrcOk (infoBytes hard) then d.endJob h j 0 0 hard.flatten else d.endJob h j 3 0 hard.flatten
        else if j.withinLimits d then d
        else
          match d.nextStage h j usc with
          | .turbo =>
            ((d.onDh h fun s => { s with jobs := onJob s.jobs j.esn fun j => { j with stage := .turbo } }).askTurbo h
              (groupOfFrame j.frame)).showLat h
          | .sweep =>
            ((d.onDh h fun s => { s with jobs := onJob s.jobs j.esn fun j => { j with stage := .sweeping } }).putBit
              (Fld.DECU_STATUS_SWEEP u) true).askTurbo h (groupOfFrame j.frame)
          | .fail => d.endJob h j 2 0 hard.flatten

def execDecoderIteration (u : DecUnit) (s : State) : Host.Outcome State Fault Refusal :=
  s.on fun d => d.iteration u

/-- The sweep's shifts in order (R116). -/
def sweepShifts : List Int := [1, -1, 2, -2, 3, -3, 4, -4]

/-- One sweep trial: re-cut, descramble, reset the messages, run (R116); a scrub job without a sweep ends instead (R117). -/
def Dev.sweep (d : Dev) (u : Nat) : Dev :=
  match d.jobOf u with
  | none => d
  | some (h, j) =>
    if j.stage ≠ .sweeping then d
    else if j.cancelled then d.endCancelled h j
    else if j.noSweep && j.scrub then
      d.endJob h j 2 0 (match j.dec with
        | some w => (LdpcState.mk w.1 w.2).hard.flatten
        | none => [])
    else
      match sweepShifts[j.trial]? with
      | none => d.endJob h j 2 0 []
      | some k =>
        let n := if d.heavyErased h j then 1 else d.fld (Fld.DEC_SWEEP_SWEEP_ITER h)
        let o := LdpcState.runUntil (polNorm j.policy) n (LdpcState.start (jobCut j.frame j.chan k))
        let hard := o.1.hard
        if ldpcUsc hard = 0 then
          if j.parity || frameCrcOk (infoBytes hard) then d.endJob h j 1 k hard.flatten else d.endJob h j 3 k hard.flatten
        else if j.trial = 7 then d.endJob h j 2 k hard.flatten
        else d.onDh h fun s => { s with jobs := onJob s.jobs j.esn fun j => { j with trial := j.trial + 1 } }

def execSweepTrial (u : DecUnit) (s : State) : Host.Outcome State Fault Refusal :=
  s.on fun d => d.sweep u

/-- A job returns to the head of its queue, to restart from round 0 (R120). -/
def requeue (l : List JobSt) (e : Esn) : List JobSt :=
  (l.filter fun j => j.esn == e).map (fun j =>
    { j with stage := .waiting, unit := none, iters := 0, rounds := 0, trial := 0, chan := j.chan0, dec := none })
    ++ l.filter fun j => j.esn != e

/-- A decoder fault: the engine leaves service, its job is re-issued, and a spare takes its place (R120, R374, R381). -/
def Dev.decoderFault (d : Dev) (u : Nat) : Dev :=
  if d.dead 6 u then d
  else
    let e := d.esn
    let d := (d.putBit (Fld.DECU_STATUS_FAULT u) true).event .decoderFault u 0 []
    let d := (d.putMask Fld.DEC_FAULT_MASK u true).putMask Fld.DEC_INSERVICE_MASK u false
    let d := match d.jobOf u with
      | some (h, j) => (d.onDh h fun s => { s with jobs := requeue s.jobs j.esn }).count (Adr.DEC_CNT h 7)
      | none => d
    let wasSpare := d.unit 6 u == .spare
    let d := (d.freeDecoder (some u)).retireUnit 6 u e
    match (if wasSpare then none else d.spareOf 6) with
    | some v => ((d.substitute 6 u v e).putMask (Fld.DEC_MASK_MASK 0) v true).putMask (Fld.DEC_MASK_MASK 1) v true
    | none => d

def execDecoderFault (u : DecUnit) (s : State) : Host.Outcome State Fault Refusal :=
  s.on fun d => d.decoderFault u

def execDecCntClr (s : State) : Host.Outcome State Fault Refusal :=
  s.on fun d => (d.clearCounters (Adr.DEC_CNT 0)).clearCounters (Adr.DEC_CNT 1)

/-- JOB_CANCEL: a job that has not started, or waits between stages, ends at once; a running one at its next iteration
(R119). -/
def execJobCancel (h : Head) (esn : Esn) (s : State) : Host.Outcome State Fault Refusal :=
  s.on fun d =>
    match (d.dh h.ix).jobs.find? fun j => j.esn == esn with
    | none => d
    | some j =>
      if j.stage = .waiting ∨ j.stage = .turbo then d.endJob h.ix j 6 0 []
      else d.onDh h.ix fun s => { s with jobs := onJob s.jobs esn fun j => { j with cancelled := true } }

/-! ## Dispatch (R117, R118, R124, R264, R488) -/

/-- The refusal that DISP, DMA and AMO return in rd (R264). -/
def refuse (reason : Nat) : Nat := 2 ^ 63 + reason

/-- The refusals of R264, by name. -/
def reasonFull : Nat := 1
def reasonDenied : Nat := 2
def reasonBadDesc : Nat := 3
def reasonHeadOff : Nat := 4

/-- Every byte of a list is zero. -/
def allZero (l : List Byte) : Bool := l.all (· == 0)

/-- A frame job descriptor that R117 allows. -/
def frameDescOk (l : List Byte) : Bool :=
  fieldAt l 6 2 < 8 && fieldAt l 12 1 < 64 && fieldAt l 13 1 < 32 && fieldAt l 14 1 ≤ 32
    && (fieldAt l 15 1 == 0xff || fieldAt l 15 1 ≤ 8) && allZero (bytesAt l 16 16)

/-- The medium of a head can be served (R2, R130). -/
def Dev.headServed (d : Dev) (h : Nat) : Bool := d.mode != 2 && !(h == 1 && d.variantS)

/-- A frame job is dispatched: what DISP returns in rd, and the block (R117, R118). -/
def Dev.dispFrame (d : Dev) (l : List Byte) : Nat × Dev :=
  let a := fieldAt l 8 4
  let h := addrSide a
  if !frameDescOk l then (refuse reasonBadDesc, d)
  else if !d.headServed h then (refuse reasonHeadOff, d)
  else if 256 ≤ (d.dh h).jobs.length then (refuse reasonFull, d)
  else
    let e := d.esn
    let fl := fieldAt l 6 2
    let j : JobSt := { esn := e, rcpt := BitVec.ofNat 48 (fieldAt l 0 6), parity := fl.testBit 0, noSweep := fl.testBit 1,
                       scrub := fl.testBit 2, frame := a, stripe := fieldAt l 12 1, j := fieldAt l 13 1,
                       iterLim := fieldAt l 14 1, turboLim := fieldAt l 15 1 }
    let d := d.eventFor j.rcpt .frameDispatch h 0 [a, j.j]
    let d := match (d.stripeJob h j.stripe).filter fun s => !s.held with
      | some s => d.setStripe h j.stripe (some
        { s with ended := false, reread := s.reread || s.ended, flying := s.flying ++ [j.j] })
      | none => d
    let k := groupOfFrame a
    let d := d.onDh h fun s => { s with jobs := s.jobs ++ [j] }
    let d := if (d.dh h).seen.contains k then d.endJob h j 5 0 []
      else match findGroup (d.dh h).store k with
        | some g => if !g.past && g.blanks.contains (framePos a) then d.endJob h j 4 0 [] else d
        | none => d
    (e.toNat, (d.showQueue h).showStripes)

/-- A stripe job descriptor that R124 allows. -/
def stripeDescOk (l : List Byte) : Bool := (fieldAt l 6 1 == 1 || fieldAt l 6 1 == 2) && fieldAt l 7 1 < 4

/-- A stripe engine that takes new jobs (R129, R488). -/
def Dev.engineTakes (d : Dev) (e : Nat) : Bool := !d.dead 15 e && d.bit (Fld.STR_CTRL_ENABLE e)

/-- The engine that takes a stripe job of a head: its own, else the other one (R129, R488). STR1 of an XLM-7216-S takes jobs only in place of
a STR0 that faulted (R128, R129; log 132). -/
def Dev.engineFor (d : Dev) (h : Nat) : Option Nat :=
  if d.engineTakes h then some h else if d.engineTakes (1 - h) && (!d.variantS || d.dead 15 h) then some (1 - h) else none

/-- The lowest slot of a head that holds no stripe job; where every one does, the lowest whose job ended UNRECOVERED and has no re-read
under way (R127; log 131). -/
def Dev.freeStripe (d : Dev) (h : Nat) : Option Nat :=
  ((List.range 64).find? fun n => (d.stripeJob h n).isNone).orElse fun _ =>
    (List.range 64).find? fun n => match d.stripeJob h n with
      | some s => s.ended && !s.held
      | none => true

/-- A stripe job is dispatched: ESN and slot in rd (R124, R264). -/
def Dev.dispStripe (d : Dev) (task : Nat) (l : List Byte) : Nat × Dev :=
  let a := fieldAt l 8 4
  let h := addrSide a
  if !stripeDescOk l then (refuse reasonBadDesc, d)
  else if !d.headServed h then (refuse reasonHeadOff, d)
  else
    match d.engineFor h with
    | none => (refuse reasonHeadOff, d)
    | some eng =>
      match d.freeStripe h with
      | none => (refuse reasonFull, d)
      | some slot =>
        let e := d.esn
        let rcpt := BitVec.ofNat 48 (fieldAt l 0 6)
        let j : StripeJob := { op := fieldAt l 6 1, verify := (fieldAt l 7 1).testBit 0, scrub := (fieldAt l 7 1).testBit 1,
                               addr := a, home := fieldAt l 12 4, nsid := fieldAt l 16 4, lba0 := fieldAt l 20 8,
                               buf := fieldAt l 28 4, rcpt := rcpt, esn := e, engine := eng, task := task }
        (e.toNat + slot * 2 ^ 48,
          ((d.eventFor rcpt .stripeDispatch eng j.op [a, slot]).setStripe h slot (some j)).showStripes)

/-! ## Stripe engines (R62, R122 to R129) -/

/-- The metadata of data frame j, bytes 0 to 59 (R49, R125). -/
def encodeMeta (s : StripeJob) (j : Nat) : List Byte :=
  leBytes 4 s.nsid ++ leBytes 8 (s.lba0 + j) ++ leBytes 6 s.esn.toNat ++ leBytes 1 j ++ zeroBytes 1 ++ leBytes 4 s.home
    ++ zeroBytes 36

/-- Data frame j as encoded: user data, metadata and CRC, complemented where the user data is poisoned (R125, R297). -/
def Dev.encodeFrame (d : Dev) (s : StripeJob) (j : Nat) : List Byte :=
  let a := s.buf * pageBytes + j * pageBytes
  let body := d.bufRead a 4096 ++ encodeMeta s j
  let c := crc32 body
  body ++ leBytes 4 (if d.anyPoison a 4096 then c ^^^ 0xffffffff else c)

/-- ENCODE_DONE: metadata, CRCs and parity of an encode job are written, and it ends ENCODED (R125). -/
def Dev.encodeDone (d : Dev) (e h slot : Nat) : Dev :=
  match d.stripeJob h slot with
  | none => d
  | some s =>
    if s.op ≠ 2 ∨ s.encoded ∨ s.engine ≠ e then d
    else
      let frames := (List.range 24).map (d.encodeFrame s)
      let d := d.noteVirgin (s.buf * pageBytes) (24 * pageBytes)
      let d := d.each (List.zip (List.range 24) frames) fun d p =>
        d.bufWrite (s.buf * pageBytes + 24 * pageBytes + 64 * p.1) (bytesAt p.2 4096 64)
      let d := d.each (List.zip (List.range 8) (stripeEncode frames)) fun d p => d.setFrameBytes s.buf (24 + p.1) p.2
      (d.count (Adr.STR_CNT e 7)).stripeEnd h slot s 4 [] 0

def execEncodeDone (e : StrUnit) (h : Head) (slot : Fin 64) (s : State) : Host.Outcome State Fault Refusal :=
  s.on fun d => d.encodeDone e h.ix slot

/-- How a recovery ended: recovered or not, the frames in e with those located, the undeclared ones, the 32 frames. -/
structure Recovery where
  ok : Bool
  erased : List Nat
  located : List Nat
  frames : List (List Byte)

/-- The recovery of a stripe whose frames e are lost (R126): a search for undeclared errors where there is reach for it,
then the erasure rebuild and the check of what the syndromes still decide. -/
def recoverStripe (errorsEn : Bool) (e : List Nat) (frames : List (List Byte)) : Recovery :=
  let cs := columns 3328 (frames.map frameSymbols)
  if 8 < e.length then ⟨false, e, [], frames⟩
  else
    let u := if errorsEn && e.length ≤ 6 then (cs.map fun c => stripeErrors e (stripeSyndromes c)).flatten.eraseDups else []
    let e' := if (e ++ u).length ≤ 8 then e ++ u else e
    let out := cs.map (stripeRebuild e')
    let rows := columns 32 (out.map (·.1))
    let frames' := (List.range 32).map fun j => if e'.contains j then symbolBytes (rows[j]?.getD []) else frames[j]?.getD []
    ⟨e'.length == 8 || out.all (·.2), e', e'.drop e.length, frames'⟩

/-- The generations among the decoded data frames, greatest WESN first (R62). -/
def generations (s : StripeJob) (frames : List (List Byte)) : List Nat :=
  ((((List.range 24).filter s.good).map fun j => frameWesn (frames[j]?.getD [])).eraseDups).mergeSort fun a b => b ≤ a

/-- The frames lost to generation w: data frames of another WESN or not decoded, and parity frames not decoded. -/
def lostTo (s : StripeJob) (frames : List (List Byte)) (w : Nat) : List Nat :=
  (List.range 32).filter fun j => !s.good j || (j < 24 && frameWesn (frames[j]?.getD []) != w)

/-- STRIPE_REBUILD_DONE: the recovery of a stripe that is not clean, and its result (R62, R126, R128). Undeclared frames count as they
join e, whatever follows; "Frames rebuilt" counts the frames of e where the rebuild passes the check, those that then fail their CRC or
identity among them: which it counts, R132 does not say (DESIGN CHOICE, log 133). -/
def Dev.rebuildDone (d : Dev) (e h slot : Nat) : Dev :=
  match d.stripeJob h slot with
  | none => d
  | some s =>
    if !s.rebuilding ∨ s.engine ≠ e then d
    else
      let frames := (List.range 32).map (d.frameBytes s.buf)
      let gens := generations s frames
      let mixed := 2 ≤ gens.length
      let d := d.when mixed fun d => (d.putBit (Fld.STR_STATUS_MIXED_WESN e) true).count (Adr.STR_CNT e 5)
      let en := d.bit (Fld.STR_CTRL_ERRORS_EN e)
      let tries := if mixed then gens.map fun w => recoverStripe en (lostTo s frames w) frames
        else [recoverStripe en s.failed frames]
      let run := match tries.findIdx? (·.ok) with
        | some i => tries.take (i + 1)
        | none => tries
      let d := d.countBy (Adr.STR_CNT e 3) ((run.map fun r => r.located.length).foldl (· + ·) 0)
      match tries.find? (·.ok) with
      | some r =>
        let bad := (r.erased.filter (· < 24)).filter fun j =>
          let l := r.frames[j]?.getD []
          !frameCrcOk l || (d.bit (Fld.STR_CTRL_ID_CHECK e) && !s.identity j l)
        let d := d.each (r.erased.filter fun j => !bad.contains j) fun d j => d.setFrameBytes s.buf j (r.frames[j]?.getD [])
        let d := d.countBy (Adr.STR_CNT e 2) r.erased.length
        if bad.isEmpty then (d.count (Adr.STR_CNT e 1)).stripeEnd h slot s 1 r.erased 0
        else ((d.count (Adr.STR_CNT e 4)).putBit (Fld.STR_STATUS_UNRECOVERED e) true).stripeEnd h slot s 3 r.erased (maskOf bad)
      | none =>
        let era := if mixed then lostTo s frames (gens.headD 0) else ((tries.map (·.erased)).headD [])
        let fail := if mixed then 0xffffff else maskOf (era.filter (· < 24))
        ((d.count (Adr.STR_CNT e 4)).putBit (Fld.STR_STATUS_UNRECOVERED e) true).stripeEnd h slot s 3 era fail

def execStripeRebuildDone (e : StrUnit) (h : Head) (slot : Fin 64) (s : State) : Host.Outcome State Fault Refusal :=
  s.on fun d => d.rebuildDone e h.ix slot

/-- STRIPE_ENGINE_FAULT: the engine takes no more jobs and its open ones move to the other (R129). -/
def Dev.stripeFault (d : Dev) (e : Nat) : Dev :=
  if d.dead 15 e then d
  else
    let cause := d.esn
    let d := (d.putBit (Fld.STR_STATUS_FAULT e) true).event .stripeFault e 0 []
    let d := d.retireUnit 15 e cause
    let d := d.each d.stripeJobs fun d p =>
      if p.2.engine = e then d.setStripe (p.1 / 64) (p.1 % 64) (some { p.2 with engine := 1 - e }) else d
    (if d.dead 15 (1 - e) then d else d.substitute 15 e (1 - e) cause).showStripes

def execStripeEngineFault (e : StrUnit) (s : State) : Host.Outcome State Fault Refusal :=
  s.on fun d => d.stripeFault e

def execStrCntClr (e : StrUnit) (s : State) : Host.Outcome State Fault Refusal :=
  s.on fun d => d.clearCounters (Adr.STR_CNT e)

/-- STR_ENABLE: the engine takes new jobs or not; open ones run on (R488). -/
def execStrEnable (e : StrUnit) (on : Bool) (s : State) : Host.Outcome State Fault Refusal :=
  s.on fun d => d.putBit (Fld.STR_CTRL_ENABLE e) on

end Sys2Proof.Machine
end

