-- ==== Sys2Proof/Machine/WritePath.lean ====
section
/-! DEFINITION. Write paths: band writes, the write strategy, the laser monitors, OPC and the guards (R133 to R153);
the lockstep copies of R8. -/

namespace Sys2Proof.Machine

/-! ## Beams and positions -/

/-- The beam at position p of the map in force; 15 where the position is uncovered (R167). -/
def Dev.beamAt (d : Dev) (h p : Nat) : Nat := fieldOf (d.reg (Adr.SRV_BEAM_MAP_CUR h)) (4 * p) 4

/-- The beams of the map in force, positions 0 to 7. -/
def Dev.mapBeams (d : Dev) (h : Nat) : List Nat := ((List.range 8).map (d.beamAt h)).filter (· != 15)

/-- The positions that a list of beams holds. -/
def Dev.positionsOf (d : Dev) (h : Nat) (beams : List Nat) : List Nat := (List.range 8).filter fun p => beams.contains (d.beamAt h p)

/-- The spindle speed in rpm. -/
def Dev.rpm (d : Dev) : Nat := d.fld Fld.SPN_SPEED_RPM

/-! ## Write strategy (R140 to R142) -/

/-- The table index of a mark: its length, the spaces before and after, the marked neighbours (R140). -/
def strategyIndex (m before after x : Nat) : Nat :=
  48 * (min m 6 - 1) + 12 * (min before 4 - 1) + 3 * (min after 4 - 1) + x

/-- The pulses of a mark at bit n of m bits, as rise and fall times in 1/32 bit (R142). -/
def strategyPulses (entry : Word) (n m : Nat) : List (Int × Int) :=
  let ls := signedOf 6 (fieldOf entry 0 6)
  let ts := signedOf 6 (fieldOf entry 6 6)
  let fp := fieldOf entry 12 6
  let mp : Int := max 12 (fieldOf entry 18 5)
  let last : Int := 32 * (n + m) + ts
  if fp = 0 ∨ m = 1 then [(32 * n + ls, last)]
  else (List.range m).map fun k =>
    let r : Int := if k = 0 then 32 * n + ls else 32 * (n + k)
    (r, if k + 1 = m then last else if k = 0 then r + fp else r + mp)

/-- A low time below 12/32 bit between two pulses is removed, and they merge (R142). -/
def mergePulses : List (Int × Int) → List (Int × Int)
  | [] => []
  | p :: ps =>
    match mergePulses ps with
    | [] => [p]
    | q :: qs => if q.1 - p.2 < 12 then (p.1, q.2) :: qs else p :: q :: qs

/-- Low times below 12/32 bit are removed, then high times below 12/32 bit lengthened at their fall (R142). A low time that only such a
lengthening makes too short stays: whether it merges too, the spec does not say (DESIGN CHOICE, log 155). -/
def shapePulses (l : List (Int × Int)) : List (Int × Int) := (mergePulses l).map fun p => (p.1, max p.2 (p.1 + 12))

/-- A pulse under an open gate from lo to hi: its edges are moved to the boundary, and one outside is not sent (R136). One that spans the open
gate, an edge outside at either end, is sent over all of it: the spec's words fit that pulse both ways (DESIGN CHOICE, log 155). -/
def gatePulse (lo hi : Int) (p : Int × Int) : Option (Int × Int) :=
  if p.2 ≤ lo ∨ hi ≤ p.1 then none else some (max lo p.1, min hi p.2)

/-- A mark in open gate: its place, its length, and the spaces before and after it (R140). -/
structure Mark where
  start : Nat
  len : Nat
  before : Nat
  after : Nat
  deriving DecidableEq, Repr

/-- The runs of equal bits of a list. -/
def bitRuns : List Bool → List (Bool × Nat)
  | [] => []
  | b :: l =>
    match bitRuns l with
    | (c, n) :: r => if b = c then (c, n + 1) :: r else (b, 1) :: (c, n) :: r
    | [] => [(b, 1)]

/-- The marks of runs from a place on, after a space; one that runs into a closed gate counts as 4 or longer (R140). -/
def marksOf : Nat → Nat → List (Bool × Nat) → List Mark
  | _, _, [] => []
  | n, space, (false, k) :: l => marksOf (n + k) (max space k) l
  | n, space, (true, m) :: l =>
    let after := match l with
      | (_, k) :: _ :: _ => k
      | (_, k) :: [] => max 4 k
      | [] => 4
    ⟨n, m, space, after⟩ :: marksOf (n + m) 0 l

/-- The stretches of open gate in an interval's bits, each with its first place (R136). -/
def openRuns : Nat → List (Option Bool) → List (Nat × List Bool)
  | _, [] => []
  | n, none :: l => openRuns (n + 1) l
  | n, some b :: l =>
    match openRuns (n + 1) l with
    | (m, bs) :: r => if m = n + 1 then (n, b :: bs) :: r else (n, [b]) :: (m, bs) :: r
    | [] => [(n, [b])]

/-- The pulses that a beam's lane sends over an interval's bits: each mark's edges from its table entry, `side` counting the
neighbouring positions whose bit is 1, shaped and held inside the open gate, and delayed by the beam's skew (R136, R137, R140 to
R142). -/
def lanePulses (entry : Nat → Word) (side : Nat → Nat) (skew : Int) (bits : List (Option Bool)) : List (Int × Int) :=
  (openRuns 0 bits).flatMap fun e =>
    let marks := marksOf e.1 4 (bitRuns e.2)
    let raw := marks.flatMap fun m => strategyPulses (entry (strategyIndex m.len m.before m.after (side m.start))) m.start m.len
    ((shapePulses raw).filterMap (gatePulse (32 * e.1) (32 * (e.1 + e.2.length)))).map fun p => (p.1 + skew, p.2 + skew)

/-- The channel bits of a frame: preamble, sync mark, scrambled codeword (R47, R48, R108). -/
def frameChannelBits (addr : Nat) (info : List Byte) : List Bool :=
  ((List.range 128).map fun i => decide (i % 4 < 2)) ++ syncMark
    ++ List.zipWith (fun a b => a != b) (ldpcEncode (bitsOfBytes info)) (scramble 38912 (frameSeed addr))

/-! ## Table banks (R143, R152) -/

/-- A header word of beam b's table in a bank. -/
def tableHeader (h bank b k : Nat) : Nat := 0x68000 + 0x10000 * h + 0x4000 * bank + 0x500 * b + 4 * k

/-- An entry of beam b's table. -/
def tableEntry (h bank b i : Nat) : Nat := 0x68010 + 0x10000 * h + 0x4000 * bank + 0x500 * b + 4 * i

/-- The active bank of a write path. -/
def Dev.bank (d : Dev) (h : Nat) : Nat := d.fld (Fld.WP_CTRL_BANK h)

/-- Monitor targets of a beam in the active table: write power, read power (R143). -/
def Dev.pwTgt (d : Dev) (h b : Nat) : Nat := fieldOf (d.reg (tableHeader h (d.bank h) b 1)) 16 12
def Dev.prTgt (d : Dev) (h b : Nat) : Nat := fieldOf (d.reg (tableHeader h (d.bank h) b 1)) 0 12

/-- The zone that a head's slices have staged, if any. -/
def Dev.stagedZone (d : Dev) (h : Nat) : Option Nat :=
  ((headSlices h).find? fun n => d.sliceLive n && d.bit (Fld.CHN_ZONE_NEXT_VALID n)).map fun n =>
    d.fld (Fld.CHN_ZONE_NEXT_ZONE n)

/-- Whether the next bank is complete for every beam it must serve (R143, R152). -/
def Dev.tableReady (d : Dev) (h : Nat) : Bool :=
  let w (b : Nat) := d.reg (tableHeader h (1 - d.bank h) b 0)
  if d.mode = 2 then h == 0 && fieldOf (w 4) 31 1 == 1
  else
    match d.stagedZone h with
    | none => false
    | some z => (d.mapBeams h).all fun b => fieldOf (w b) 31 1 == 1 && fieldOf (w b) 24 6 == z

def Dev.showTable (d : Dev) (h : Nat) : Dev := d.putBit (Fld.WP_STATUS_TBL_READY h) (d.tableReady h)

/-- SLICE_ZONE_STAGE: a zone is staged, and TBL_READY is judged anew (R90, R143). -/
def execSliceZoneStage (n : Slice) (v : Word) (s : State) : Host.Outcome State Fault Refusal :=
  s.onSlice n fun d => (d.sliceStage n v).showTable (n / 10)

/-- The next bank becomes active, and VALID is cleared in the bank that it leaves (R143, R152). -/
def Dev.takeBank (d : Dev) (h : Nat) : Dev :=
  let old := d.bank h
  let d := d.put (Fld.WP_CTRL_BANK h) (1 - old)
  (d.each (List.range 10) fun d b =>
    let a := tableHeader h old b 0
    d.setReg a (withField (d.reg a) 31 1 0)).showTable h

/-! ## Status -/

/-- A band write or an OPC run is in progress. -/
def Dev.wpBusy (d : Dev) (h : Nat) : Bool := (d.wps h).run.isSome || (d.wps h).opc.isSome

/-- Every beam's gate of the head is held closed. -/
def WpSt.headClosed (w : WpSt) : Bool := w.track || w.focus || w.silence || w.wedge || w.trip

/-- Beams whose gate a guard holds closed. -/
def WpSt.closedBeams (w : WpSt) : List Nat := w.regBeams ++ w.addrBeams ++ w.stuck

def Dev.showWp (d : Dev) (h : Nat) : Dev :=
  let w := d.wps h
  let d := (d.put (Fld.WP_STATUS_QUEUED_N h) w.queue.length).putBit (Fld.WP_STATUS_QUEUED h) (!w.queue.isEmpty)
  (d.putBit (Fld.WP_STATUS_BUSY h) (d.wpBusy h)).putBit (Fld.WP_STATUS_INHIBIT h) (w.headClosed || !w.closedBeams.isEmpty)

/-! ## The frames under the gate (R136, R148; log 26) -/

/-- The slots that the fragment of wedge interval w touches in zone z, the fill counting as the slot past the last (R50). -/
def slotsAt (z w : Nat) : List Nat :=
  let lo := w % 512 * fragBits z
  let a := min (zoneSlots z) (lo / slotBits)
  let b := min (zoneSlots z) ((lo + fragBits z - 1) / slotBits)
  if a = b then [a] else [a, b]

/-- The slots, and the fill, that begin in the fragment of wedge interval w. -/
def slotsBegun (z w : Nat) : List Nat :=
  (slotsAt z w).filter fun s => w % 512 * fragBits z ≤ s * slotBits

/-- A frame, or with the slot past the last a fill, of position p in wedge interval w, as a band write's lists hold it. -/
def bandKey (w p slot : Nat) : Nat := 32 * slot + 8 * (w / 512) + p

/-- A band write writes a slot: it is named, and neither lost nor cut. -/
def BandRun.writes (r : BandRun) (slot : Nat) : Bool := r.job.mask.getLsbD slot && !r.lost.contains slot && !r.cut.contains slot

/-- The gate of position p is open at a data-space bit of interval w: over slots being written and fill, up to where a guard shut it
(R136, R148). -/
def BandRun.gate (r : BandRun) (z w p bit : Nat) : Bool :=
  let s := min (zoneSlots z) (bit / slotBits)
  (s == zoneSlots z || r.writes s) && (match r.shut.find? fun e => e.1 == bandKey w p s with
    | some e => decide (bit < e.2)
    | none => true)

/-- The zone of a head's band. -/
def Dev.headZone (d : Dev) (h : Nat) : Nat := zoneOfBand (d.head h).band

/-- The first data-space bit of the wedge interval under a head. -/
def Dev.intervalStart (d : Dev) (h : Nat) : Nat := (d.head h).wedge % 512 * fragBits (d.headZone h)

/-- The OPC step that the current wedge interval writes (R146). -/
def Dev.opcStep (d : Dev) (h : Nat) : Option Nat :=
  let s := d.fld (Fld.WP_OPC_CFG_START_WEDGE h)
  let w := (d.head h).wedge
  if s ≤ w ∧ w < s + d.fld (Fld.WP_OPC_CFG_STEPS h) then some (w - s) else none

/-- The gates of some positions are shut over the frame or fill at a data-space bit of the current interval, from that bit on to its end, and
no frame is inhibited. -/
def Dev.holdShut (d : Dev) (h : Nat) (ps : List Nat) (bit : Nat) : Dev :=
  match (d.wps h).run with
  | none => d
  | some r =>
    let s := min (zoneSlots (d.headZone h)) (bit / slotBits)
    let keys := (ps.map fun p => bandKey (d.head h).wedge p s).filter fun k => r.shut.all fun e => e.1 != k
    d.onWp h fun s => { s with run := some { r with shut := r.shut ++ keys.map fun k => (k, bit) } }

/-- The gates of some beams are shut from a bit on to the end of the OPC step's fragment, which stands for the frame slot there (R146, R148;
log 156). -/
def Dev.opcShut (d : Dev) (h : Nat) (beams : List Nat) (bit : Nat) : Dev :=
  d.onWp h fun s => { s with opc := s.opc.map fun o =>
    { o with shut := o.shut ++ (beams.filter fun b => o.shut.all fun e => e.1 != b).map fun b => (b, bit) } }

/-- The gates of some positions are shut from a data-space bit of the current interval on to the end of the frame, fill or OPC step there; a
frame being written is inhibited (R148). -/
def Dev.shutFrom (d : Dev) (h : Nat) (ps : List Nat) (bit : Nat) : Dev :=
  let ps := ps.filter fun p => d.beamAt h p != 15
  match (d.wps h).run with
  | none => d.opcShut h (ps.map (d.beamAt h)) (bit - d.intervalStart h)
  | some r =>
    let s := min (zoneSlots (d.headZone h)) (bit / slotBits)
    let keys := (ps.map fun p => bandKey (d.head h).wedge p s).filter fun k => r.shut.all fun e => e.1 != k
    let fresh := if s < zoneSlots (d.headZone h) && r.writes s then keys.filter fun k => !r.inhibited.contains k else []
    let d := d.holdShut h ps bit
    (d.onWp h fun s => { s with run := s.run.map fun r => { r with inhibited := r.inhibited ++ fresh } }).countBy (Adr.WP_CNT h 2) fresh.length

/-- A guard marks the OPC step under way invalid for some beams (R146). -/
def Dev.opcInvalid (d : Dev) (h : Nat) (beams : List Nat) : Dev :=
  match (d.wps h).opc, d.opcStep h with
  | some o, some k => if o.phase = .writing then
      d.onWp h fun s => { s with opc := some { o with invalid := o.invalid ++ beams.map fun b => 32 * b + k } } else d
  | _, _ => d

/-- The next data-space bit under a head, at which a guard acts (R148). -/
def Dev.guardBit (d : Dev) (h : Nat) : Nat := d.intervalStart h + min (d.wps h).place (fragBits (d.headZone h) - 1)

/-- An inhibit of some beams is posted and counted, and marks the OPC step under way (R146, R148). -/
def Dev.inhibitPost (d : Dev) (h code : Nat) (beams : List Nat) (counter : Option Nat) : Dev :=
  let d := d.event .guardInhibit h code beams
  (match counter with
    | some c => d.count (Adr.WP_CNT h c)
    | none => d).opcInvalid h beams

/-- A guard closes the gates of some beams while the head writes: posted, counted, and the frame it cuts inhibited (R148). -/
def Dev.inhibit (d : Dev) (h code : Nat) (beams : List Nat) (counter : Option Nat) : Dev :=
  d.when (d.writing h) fun d => (d.inhibitPost h code beams counter).shutFrom h (d.positionsOf h beams) (d.guardBit h)

/-- A guard of a wedge closes the gates of some beams from that wedge on: over what runs into the interval, and over what has begun in it; what
begins with it is shut as it begins (R148). -/
def Dev.inhibitWedge (d : Dev) (h code : Nat) (beams : List Nat) (counter : Option Nat) : Dev :=
  d.when (d.writing h) fun d =>
    let lo := d.intervalStart h
    let place := (d.wps h).place
    let starts := (slotsBegun (d.headZone h) (d.head h).wedge).map (· * slotBits)
    let ps := d.positionsOf h beams
    let d := (d.inhibitPost h code beams counter).when (place != 0 || !starts.contains lo) fun d => d.shutFrom h ps lo
    d.each (starts.filter fun b => lo < b && b < lo + place) fun d b => d.shutFrom h ps b

/-- Codes of inhibit events, by their row in R148's table. -/
def inhTrack : Nat := 0
def inhFocus : Nat := 1
def inhSilence : Nat := 2
def inhWedge : Nat := 3
def inhReg : Nat := 4
def inhAddr : Nat := 5
def inhLaser : Nat := 6
def inhCopy : Nat := 7

/-- OFFTRACK, where a tracking, focus or silence condition closes gates. -/
def Dev.offtrack (d : Dev) (h : Nat) : Dev := d.when (d.writing h) fun d => d.putBit (Fld.WP_STATUS_OFFTRACK h) true

/-- A tracking guard sample in nm (R147, R148). -/
def Dev.guardTrack (d : Dev) (h : Nat) (v : Int) : Dev :=
  let bad := d.fld (Fld.WP_INH_CFG_OT_LIMIT h) < v.natAbs
  let rise := bad && !(d.wps h).track
  let d := d.onWp h fun s => { s with track := bad, silence := false }
  (d.when rise fun d => (d.inhibit h inhTrack (d.mapBeams h) (some 3)).offtrack h).showWp h

/-- A focus guard sample in nm. -/
def Dev.guardFocus (d : Dev) (h : Nat) (v : Int) : Dev :=
  let bad := d.fld (Fld.WP_INH_CFG_FE_LIMIT h) < v.natAbs
  let rise := bad && !(d.wps h).focus
  let d := d.onWp h fun s => { s with focus := bad, silence := false }
  (d.when rise fun d => (d.inhibit h inhFocus (d.mapBeams h) (some 3)).offtrack h).showWp h

/-- A list with a member present or not. -/
def setMember (l : List Nat) (b : Nat) (on : Bool) : List Nat :=
  if on then (if l.contains b then l else l ++ [b]) else l.filter (· != b)

/-- The registration error of a beam in nm (R147, R148). -/
def Dev.guardReg (d : Dev) (h b : Nat) (v : Int) : Dev :=
  if d.mode = 2 then d
  else
    let bad := d.fld (Fld.WP_INH_CFG_REG_LIMIT h) < v.natAbs
    let rise := bad && !(d.wps h).regBeams.contains b
    let d := d.onWp h fun s => { s with regBeams := setMember s.regBeams b bad }
    (d.when rise fun d => d.inhibitWedge h inhReg [b] (some 4)).showWp h

/-- The address condition of a beam (R148). -/
def Dev.guardAddr (d : Dev) (h b : Nat) (bad : Bool) : Dev :=
  let rise := bad && !(d.wps h).addrBeams.contains b
  let d := d.onWp h fun s => { s with addrBeams := setMember s.addrBeams b bad }
  (d.when rise fun d =>
    (d.inhibitWedge h inhAddr [b] (some 4)).when (d.writing h) fun d => d.putBit (Fld.WP_STATUS_ADDR_INHIBIT h) true).showWp h

/-- The wedge condition of the head: a mark missed by the timebase, or an interval off by more than 4 bits (R148). -/
def Dev.guardWedge (d : Dev) (h : Nat) (bad : Bool) : Dev :=
  let rise := bad && !(d.wps h).wedge
  let d := d.onWp h fun s => { s with wedge := bad }
  (d.when rise fun d => d.inhibitWedge h inhWedge (d.mapBeams h) (some 3)).showWp h

/-- GUARD_SILENCE: no guard sample at two consecutive ticks (R148). -/
def execGuardSilence (h : Head) (s : State) : Host.Outcome State Fault Refusal :=
  s.on fun d => if !d.hasHead h then d else
    let rise := !(d.wps h.ix).silence
    let d := d.onWp h.ix fun s => { s with silence := true }
    (d.when rise fun d => (d.inhibit h.ix inhSilence (d.mapBeams h.ix) (some 3)).offtrack h.ix).showWp h.ix

/-- The guard conditions that stand as a head begins to write: each is posted, and its gates stay shut (R148). -/
def Dev.standing (d : Dev) (h : Nat) : Dev :=
  let w := d.wps h
  let all := d.mapBeams h
  let d := d.when w.track fun d => (d.inhibitPost h inhTrack all (some 3)).offtrack h
  let d := d.when w.focus fun d => (d.inhibitPost h inhFocus all (some 3)).offtrack h
  let d := d.when w.silence fun d => (d.inhibitPost h inhSilence all (some 3)).offtrack h
  let d := d.when w.wedge fun d => d.inhibitPost h inhWedge all (some 3)
  let d := d.each w.regBeams fun d b => d.inhibitPost h inhReg [b] (some 4)
  let d := d.each w.addrBeams fun d b => (d.inhibitPost h inhAddr [b] (some 4)).putBit (Fld.WP_STATUS_ADDR_INHIBIT h) true
  d.each w.stuck fun d b => d.inhibitPost h inhLaser [b] none

/-! ## Laser monitors (R145, R150) -/

/-- The gate of a beam is open at the head's place, that of the newest tick (R136, R145, R148). -/
def Dev.gateOpen (d : Dev) (h b : Nat) : Bool :=
  let w := d.wps h
  let at_ := w.place - 1
  !w.headClosed && !w.closedBeams.contains b && (d.mapBeams h).contains b &&
    (match w.run with
     | some r => (d.positionsOf h [b]).any fun p => r.gate (d.headZone h) (d.head h).wedge p (d.intervalStart h + at_)
     | none => match w.opc with
       | some o => o.phase == .writing && (d.opcStep h).isSome && o.shut.all fun e => e.1 != b || decide (at_ < e.2)
       | none => false)

/-- A write power out of tolerance is shown, posted and counted (R150, R381). -/
def Dev.laserPost (d : Dev) (h b : Nat) : Dev :=
  let d := ((d.putBit (Fld.WP_STATUS_LASER_FAULT h) true).event .laserFault h 0 [b]).count (Adr.WP_CNT h 5)
  { d with spr := { d.spr with laserFaults := Tab.upd (fun _ => 0) d.spr.laserFaults (16 * h + b) (· + 1) } }

/-- A beam's write power is out of tolerance: posted, counted, and its gate closed for the slot (R148, R150). -/
def Dev.laserFault (d : Dev) (h b : Nat) : Dev := (d.laserPost h b).inhibit h inhLaser [b] none

/-- A beam stuck on: both level DACs to 0, and its gate closed (R150). -/
def Dev.stuckOn (d : Dev) (h b : Nat) : Dev :=
  let d := ((d.putBit (Fld.WP_STATUS_STUCK_ON h) true).event .laserFault h 1 [b]).count (Adr.WP_CNT h 5)
  let d := d.setReg (Adr.WP_LVL h b) 0
  let d := d.onWp h fun s => { s with stuck := setMember s.stuck b true }
  (d.inhibit h inhLaser [b] none).showWp h

/-- A held monitor value takes a conversion, or goes stale (R145). -/
def keepMon (t : Tab (Nat × Bool)) (b : Nat) (fresh : Bool) (v : BitVec 12) : Tab (Nat × Bool) :=
  let old := Tab.get (fun _ => (0, true)) t b
  Tab.set (fun _ => (0, true)) t b (if fresh then (v.toNat, false) else (old.1, true))

/-- A HI sample of an OPC step counts toward its mean (R146). -/
def Dev.opcSample (d : Dev) (h b : Nat) (v : BitVec 12) : Dev :=
  match (d.wps h).opc, d.opcStep h with
  | some o, some k => if o.phase = .writing then
      d.onWp h fun s => { s with opc := some { o with
        mon := Tab.upd (fun _ => (0, 0)) o.mon (32 * b + k) fun e => (e.1 + v.toNat, e.2 + 1) } } else d
  | _, _ => d

/-- One monitor conversion of a beam (R145, R150): HI is fresh after a mark of at least LMON_RUN bits, LO after such a space or while
the gate is closed; what is found beside the block. -/
def Dev.monitor (d : Dev) (h b : Nat) (m : MonSample) : Dev :=
  let w := d.wps h
  let pw := d.pwTgt h b
  let pr := d.prTgt h b
  let open_ := d.gateOpen h b
  let run := d.fld (Fld.WP_LMON_CFG_LMON_RUN h)
  let hi := 0 < m.mark && run ≤ m.mark
  let lo := !open_ || (0 < m.space && run ≤ m.space)
  let hiBad := decide (d.fld (Fld.WP_LMON_CFG_LMON_TOL h) * pw < 64 * ((m.hi.toNat : Int) - pw).natAbs)
  let loBad := decide ((64 + d.fld (Fld.WP_LMON_CFG_STUCK_TOL h)) * pr < 64 * m.lo.toNat)
  let hiRun := if hi && open_ then (if hiBad then Tab.get (fun _ => 0) w.hiRun b + 1 else 0)
    else Tab.get (fun _ => 0) w.hiRun b
  let loRun := if lo then (if loBad then Tab.get (fun _ => 0) w.loRun b + 1 else 0) else 0
  let d := d.onWp h fun s => { s with hi := keepMon s.hi b hi m.hi, lo := keepMon s.lo b lo m.lo,
                                      hiRun := Tab.set (fun _ => 0) s.hiRun b (if 2 ≤ hiRun then 0 else hiRun),
                                      loRun := Tab.set (fun _ => 0) s.loRun b loRun }
  let d := d.when hi fun d => d.opcSample h b m.hi
  if w.stuck.contains b then d
  else if (hi && !open_) || 2 ≤ loRun then d.stuckOn h b
  else d.when (2 ≤ hiRun) fun d => d.laserFault h b

/-! ## Band writes (R133 to R139) -/

/-- The supply has failed and not yet recovered (R61). -/
def Dev.supplyFailed (d : Dev) : Bool := d.pwr.failing

/-- A band write descriptor without set reserved fields (R134, R135). -/
def bandDescOk (l : List Byte) : Bool :=
  fieldAt l 6 2 == 0 && allZero (bytesAt l 20 12) && fieldAt l 8 4 % 4096 == 0

/-- The open encode job, ended ENCODED, of a slot of a band (R135). -/
def Dev.encodedFor (d : Dev) (h a : Nat) : Option (Nat × StripeJob) :=
  d.stripeJobs.find? fun p => p.1 / 64 == h && p.2.encoded && p.2.addr == a

/-- The slots that a mask names. -/
def maskSlots (m : BitVec 64) : List Nat := (List.range 64).filter m.getLsbD

/-- The free spare slots of a zone, in order (R55, R57). -/
def Dev.freeSpares (d : Dev) (side layer z : Nat) : List Nat :=
  let defects := (d.layer side layer).defects
  let first := zoneFirstBand (z + 1) - spareBands z
  ((List.range (spareSlots z)).map fun i => stripeAddr side layer (first + i / zoneSlots z) (i % zoneSlots z)).filter fun a =>
    defects.all fun e => e.repl != a && e.retired != a

/-- The zones in the order in which a replacement for a slot of zone z is sought: by distance, of two equally near the inner one first
(R57). -/
def zonesFrom (z : Nat) : List Nat :=
  ((List.range 48).flatMap fun k => if k = 0 then [z] else (if k ≤ z then [z - k] else []) ++ [z + k]).filter (· < 48)

/-! ### Layer records (R56, R57, R336) -/

/-- A stored record with the CRC over it, its own field taken as 0 (R56). -/
def recordSum (l : List Byte) : Nat :=
  let n := fieldAt l 40 4
  crc32 (bytesAt l 0 44 ++ zeroBytes 4 ++ bytesAt l 48 (n - 48))

/-- A copy is valid: MAGIC and SIDE_LAYER match and CRC checks (R56). -/
def recordOk (side layer : Nat) (l : List Byte) : Bool :=
  bytesAt l 0 4 == [0x58, 0x4c, 0x4d, 0x52] && fieldAt l 12 1 == 2 * layer + side && fieldAt l 44 4 == recordSum l

def recordGen (l : List Byte) : Nat := fieldAt l 4 8

/-- What a valid copy says of its layer: generation, medium and defect map (R56, R57). -/
def recordLayer (l : List Byte) (copy : Nat) : LayerRec :=
  { valid := true, gen := recordGen l, copy := copy, medium := fieldAt l 16 16
    defects := (List.range (fieldAt l 32 4)).map fun i =>
      let e := 48 + 16 * i
      ⟨fieldAt l e 4, fieldAt l (e + 4) 4, BitVec.ofNat 48 (fieldAt l (e + 8) 6), fieldAt l (e + 14) 2⟩ }

/-- The places of a copy's extent entries, which follow its defect map. -/
def recordEntries (l : List Byte) : List Nat :=
  (List.range (fieldAt l 36 4)).map fun i => 48 + 16 * fieldAt l 32 4 + 32 * i

/-- The extents that a copy holds (R336). -/
def recordExtents (side layer : Nat) (l : List Byte) : List NsExtent :=
  (recordEntries l).map fun e =>
    let flags := fieldAt l (e + 6) 1
    ⟨fieldAt l e 4, fieldAt l (e + 4) 1, side, layer, fieldAt l (e + 8) 4, fieldAt l (e + 12) 4, flags.testBit 0, flags.testBit 1,
      BitVec.ofNat 48 (fieldAt l (e + 16) 6)⟩

/-- The logical stripes that the written maps of a copy mark (R336). -/
def recordMarks (l : List Byte) : List Nat :=
  (recordEntries l).flatMap fun e =>
    let at_ := fieldAt l (e + 24) 4
    ((List.range (fieldAt l (e + 12) 4)).filter fun k => (fieldAt l (at_ + k / 8) 1).testBit (k % 8)).map (fieldAt l (e + 8) 4 + ·)

/-- An extent goes before the first later one of its namespace. -/
def placeExtent (x : NsExtent) : List NsExtent → List NsExtent
  | [] => [x]
  | e :: l => if e.nsid = x.nsid ∧ x.index < e.index then x :: e :: l else e :: placeExtent x l

/-- Extents with those of each namespace in the order of their indices (R59). -/
def orderExtents (l : List NsExtent) : List NsExtent := l.foldl (fun a x => placeExtent x a) []

/-- A written map's bytes (R336). -/
def mapBytes (bits : Nat → Bool) (count : Nat) : List Byte :=
  (List.range (8 * ceilDiv (ceilDiv count 8) 8)).map fun i =>
    BitVec.ofNat 8 ((List.range 8).foldl (fun a k => if 8 * i + k < count && bits (8 * i + k) then a + 2 ^ k else a) 0)

/-- The length of an extent's written map in bytes. -/
def mapLength (e : NsExtent) : Nat := 8 * ceilDiv (ceilDiv e.count 8) 8

/-- An entry of the extent table, with its map at byte `at_` of the record (R336). -/
def extentEntry (e : NsExtent) (at_ : Nat) : List Byte :=
  leBytes 4 e.nsid ++ leBytes 1 e.index ++ leBytes 1 (2 * e.layer + e.side) ++ leBytes 1 (e.pairFirst.toNat + 2 * e.pairSecond.toNat)
    ++ zeroBytes 1 ++ leBytes 4 e.first ++ leBytes 4 e.count ++ leBytes 6 e.createEsn.toNat ++ zeroBytes 2 ++ leBytes 4 at_ ++ zeroBytes 4

/-- The extents of a layer, and the byte of its record at which their maps begin. -/
def Dev.layerExtents (d : Dev) (side layer : Nat) : List NsExtent := d.host.ns.filter fun e => e.side == side && e.layer == layer

def Dev.mapsStart (d : Dev) (side layer : Nat) : Nat :=
  48 + 16 * (d.layer side layer).defects.length + 32 * (d.layerExtents side layer).length

/-- The byte of its layer's record at which an extent's map stands. -/
def Dev.mapOffset (d : Dev) (e : NsExtent) : Nat :=
  ((d.layerExtents e.side e.layer).takeWhile (· != e)).foldl (fun n x => n + mapLength x) (d.mapsStart e.side e.layer)

/-- Entries of a layer's extents and their maps, the first map at byte `at_`. -/
def Dev.recordTail (d : Dev) : Nat → List NsExtent → List Byte × List Byte
  | _, [] => ([], [])
  | at_, e :: l =>
    let m := mapBytes (fun k => Tab.get (fun _ => false) d.host.written (2 ^ 32 * (8 * e.side + e.layer) + e.first + k)) e.count
    let r := d.recordTail (at_ + m.length) l
    (extentEntry e at_ ++ r.1, m ++ r.2)

/-- The bytes of a layer's record (R56, R57, R336). -/
def Dev.recordBytes (d : Dev) (side layer : Nat) : List Byte :=
  let r := d.layer side layer
  let es := d.layerExtents side layer
  let first := d.mapsStart side layer
  let t := d.recordTail first es
  let defects := r.defects.flatMap fun e => leBytes 4 e.retired ++ leBytes 4 e.repl ++ leBytes 6 e.esn.toNat ++ leBytes 2 e.reason
  let n := first + t.2.length
  let head := [0x58, 0x4c, 0x4d, 0x52] ++ leBytes 8 r.gen ++ leBytes 1 (2 * layer + side) ++ [0x01] ++ zeroBytes 2 ++ leBytes 16 r.medium
    ++ leBytes 4 r.defects.length ++ leBytes 4 es.length ++ leBytes 4 n
  let tail := defects ++ t.1 ++ t.2
  head ++ leBytes 4 (crc32 (head ++ zeroBytes 4 ++ tail)) ++ tail

/-- A stripe was written to standard: its faults are over. -/
def Dev.slotDone (d : Dev) (a : Nat) : Dev :=
  { d with medium := { d.medium with faults := Tab.set (fun _ => 0) d.medium.faults a 0 } }

/-! ### Whole stripes to the medium (R49, R50, R56, R60) -/

/-- The key of a fragment on the medium. -/
def fragKey (side layer track wedge : Nat) : Nat := ((8 * side + layer) * 2 ^ 18 + track) * 2 ^ 11 + wedge

/-- Bits recorded over those that a fragment held; where the gate was closed, what it held stays. -/
def overRecorded : List (Option Bool) → List (Option Bool) → List (Option Bool)
  | [], old => old
  | b :: l, old => (b.or (old.headD none)) :: overRecorded l old.tail

/-- Bits of the quadrant and position of frame j of a slot's band are on the medium from a data-space bit on, fragment by fragment (R46, R50). -/
def layBits (t : Tab (List (Option Bool))) (a j first : Nat) (bits : List Bool) : Tab (List (Option Bool)) :=
  let n := fragBits (addrZone a)
  (List.range (ceilDiv (first % n + bits.length) n)).foldl (fun t i =>
    let w := first / n + i
    let skip := first - w * n
    let row := List.replicate skip none ++ ((bits.drop (w * n - first)).take (n - skip)).map some
    Tab.upd (fun _ => []) t (fragKey (addrSide a) (addrLayer a) (8 * stripeBand a + j % 8) (512 * (j / 8) + w)) (overRecorded row)) t

/-- The 32 frames of a slot are on the medium, at the positions given, with the fill of every quadrant of its band (R50, R60, R133). -/
def layStripe (t : Tab (List (Option Bool))) (a : Nat) (ps : List Nat) (frames : List (List Byte)) : Tab (List (Option Bool)) :=
  let z := addrZone a
  let fill := zoneSlots z * slotBits
  (frames.zipIdx.filter fun f => ps.contains (f.2 % 8)).foldl (fun t f =>
    layBits (layBits t a f.2 (stripeSlot a * slotBits) (frameChannelBits (frameOfStripe a f.2) f.1)) a f.2 fill
      ((List.range (512 * fragBits z - fill)).map fun i => (fill + i) % 4 < 2)) t

/-- The information bytes of frame j of a slot as the medium holds them, where they are whole and their CRC checks (R48, R49). -/
def Dev.frameLaid (d : Dev) (a j : Nat) : Option (List Byte) :=
  let n := fragBits (addrZone a)
  let first := stripeSlot a * slotBits
  let bits := (List.range (ceilDiv (first % n + slotBits) n)).flatMap fun i =>
    let row := Tab.get (fun _ => []) d.medium.frags
      (fragKey (addrSide a) (addrLayer a) (8 * stripeBand a + j % 8) (512 * (j / 8) + first / n + i))
    (List.range n).map fun k => row.getD k none
  let code := ((bits.drop (first % n)).take slotBits).drop headBits
  if code.all (·.isSome) then
    let l := infoBytes (chunks 512 65 (List.zipWith (fun a b => (a.getD false) != b) code (scramble 33280 (frameSeed (frameOfStripe a j)))))
    if frameCrcOk l then some l else none
  else none

/-- A data frame: its user bytes, its metadata and the CRC, complemented where the data are poisoned (R49, R297). -/
def dataFrame (body : List Byte) (poisoned : Bool) : List Byte :=
  let crc := crc32 body
  body ++ leBytes 4 (if poisoned then 2 ^ 32 - 1 - crc else crc)

/-- A stripe write of a slot: its 24 data frames with their parity, under an ESN of its own, which every frame carries; positions that the
beam map leaves uncovered are not written (R60, R138). -/
def Dev.stripeWrite (d : Dev) (a : Nat) (frames : List (List Byte)) : Dev :=
  let e := d.esn
  let ps := (List.range 8).filter fun p => d.beamAt (addrSide a) p != 15
  let d := (d.issue).slotDone a
  { d with medium := { d.medium with
    frags := layStripe d.medium.frags a ps (frames ++ stripeEncode frames)
    written := Tab.set (fun _ => 0) d.medium.written a e.toNat } }

/-- The stripe of a layer record whose bytes begin at 98,304 k: its blocks with the metadata of no namespace, which the spec leaves open
(DESIGN CHOICE, log 157). -/
def Dev.recordFrames (d : Dev) (home k : Nat) (l : List Byte) : List (List Byte) :=
  let s : StripeJob := { op := 2, verify := false, scrub := false, addr := home, home := home, nsid := 0, lba0 := 24 * k, buf := 0,
                         rcpt := d.esn, esn := d.esn, engine := addrSide home, task := 0 }
  (List.range 24).map fun j => dataFrame (bytesAt l (4096 * (24 * k + j)) 4096 ++ encodeMeta s j) false

/-- A layer's record is written over its other copy, with the next generation, in whole stripes through the stripe code (R55, R56). -/
def Dev.writeRecord (d : Dev) (side layer : Nat) : Dev :=
  let r := d.layer side layer
  let copy := 1 - r.copy
  let d := d.setLayer side layer { r with gen := r.gen + 1, copy := copy, valid := true }
  let l := d.recordBytes side layer
  let d := { d with medium := { d.medium with records := Tab.set (fun _ => []) d.medium.records (2 * (8 * side + layer) + copy) l } }
  d.each (List.range (ceilDiv l.length (24 * 4096))) fun d k =>
    let a := stripeAddr side layer (2 + copy) k
    d.stripeWrite a (d.recordFrames a k l)

/-- A slot is retired: it enters its layer's defect map with its replacement, or does not where no spare is free (R57). -/
def Dev.retireSlot (d : Dev) (a reason : Nat) : Dev :=
  let side := addrSide a
  let layer := addrLayer a
  let r := d.layer side layer
  match (zonesFrom (addrZone a)).findSome? fun z => (d.freeSpares side layer z).head? with
  | none => d
  | some repl =>
    if d.retiredSlot a then d
    else
      let e := d.esn
      let d := d.event .sparing 13 reason [a, repl]
      ((d.setLayer side layer { r with defects := r.defects ++ [⟨a, repl, e, reason⟩] }).writeRecord side layer).judge 13

/-- The slot that serves a home slot: its replacement where the defect map retires it, and that one's in turn (R57). -/
def Dev.servingSlot (d : Dev) (a : Nat) : Nat :=
  let defects := (d.layer (addrSide a) (addrLayer a)).defects
  defects.foldl (fun a _ => match defects.find? fun e => e.retired == a with
    | some e => e.repl
    | none => a) a

/-- The reasons for status REFUSED (R135), and a layer without a valid record, whose stripes are not written (R56): that it is REFUSED
is log 135's. -/
def Dev.bandRefused (d : Dev) (h addr : Nat) (mask : BitVec 64) : Bool :=
  let z := addrZone addr
  let b := stripeBand addr
  z ≥ 48 || zoneFirstBand (z + 1) ≤ b || b < 4
    || (maskSlots mask).any fun s => zoneSlots z ≤ s || d.retiredSlot (addr + s) || (d.encodedFor h (addr + s)).isNone
    || !(d.layer h (addrLayer addr)).valid

/-- Accepted less than 200 µs before the wedge 0 of its band (R135). -/
def Dev.bandLate (d : Dev) (h addr : Nat) : Bool :=
  let hd := d.head h
  hd.captured && hd.layer == addrLayer addr && nextBand hd.layer hd.band == stripeBand addr
    && (2048 - hd.wedge) * 60000000 < 200 * 2048 * d.rpm

/-- A band write's result: born, and posted to its task (R138). -/
def Dev.bandResult (d : Dev) (h : Nat) (j : BandJob) (status inhibited uncovered : Nat) (fault : Nat) : Dev :=
  let e := d.esn
  let d := d.eventFor j.rcpt .bandResult h status [inhibited, uncovered, fault]
  d.postMail j.task ([0x03] ++ zeroBytes 7 ++ leBytes 6 e.toNat ++ leBytes 6 j.rcpt.toNat ++ leBytes 1 status
    ++ leBytes 1 (min 255 inhibited) ++ leBytes 1 (min 255 uncovered) ++ zeroBytes 1 ++ leBytes 8 fault)

/-- A band write is dispatched (R134, R135, R264): what DISP returns, and the block. One that is refused or late ends with a record; it
counts in no counter, "band writes ended" being taken as those that ran: which it means, R153 does not say (DESIGN CHOICE, log 135). -/
def Dev.dispBand (d : Dev) (task : Nat) (l : List Byte) : Nat × Dev :=
  let a := fieldAt l 8 4
  let h := addrSide a
  if !bandDescOk l then (refuse reasonBadDesc, d)
  else if !d.headServed h || !d.bit (Fld.WP_CTRL_ENABLE h) then (refuse reasonHeadOff, d)
  else if 4 ≤ (d.wps h).queue.length then (refuse reasonFull, d)
  else
    let e := d.esn
    let j : BandJob := ⟨e, BitVec.ofNat 48 (fieldAt l 0 6), task, a, BitVec.ofNat 64 (fieldAt l 12 8)⟩
    let d := d.eventFor j.rcpt .bandAccept h 0 [a, j.mask.toNat]
    if d.bandRefused h a j.mask then (e.toNat, d.bandResult h j 2 0 0 0)
    else if d.bandLate h a then (e.toNat, d.bandResult h j 3 0 0 0)
    else (e.toNat, (d.onWp h fun s => { s with queue := s.queue ++ [j] }).showWp h)

/-- The oldest accepted band write starts at the wedge 0 that carries the head into its band (R133). -/
def Dev.bandStart (d : Dev) (h : Nat) : Dev :=
  match (d.wps h).run, (d.wps h).queue with
  | none, j :: rest =>
    let hd := d.head h
    if hd.captured && hd.seek.isNone && stripeBand j.addr == hd.band && addrLayer j.addr == hd.layer && !d.supplyFailed
      && (d.wps h).opc.isNone then
      let d := { d with spr := { d.spr with laserFaults := d.spr.laserFaults.filter fun e => e.1 / 16 != h } }
      ((d.onWp h fun s => { s with queue := rest, run := some { job := j } }).standing h).showWp h
    else d
  | _, _ => d

/-- A parity frame whose buffer holds poison is cut (R297). -/
def Dev.poisonedFrame (d : Dev) (h a j : Nat) : Bool :=
  match d.encodedFor h a with
  | some p => 24 ≤ j && d.anyPoison (p.2.buf * pageBytes + 25 * pageBytes + 4160 * (j - 24)) 4160
  | none => false

/-- The formatter reads data frames of a slot (R299). -/
def Dev.readFrames (d : Dev) (h a : Nat) (js : List Nat) : Dev :=
  match d.encodedFor h a with
  | some p => d.each (js.filter (· < 24)) fun d j => d.noteVirgin ((p.2.buf + j) * pageBytes) 4096
  | none => d

/-- A slot, or the fill as the slot past the last, begins in the current interval of a running band write: a named one is begun, or is left
untouched because its encode job has closed or the defect map has retired it; frames of uncovered positions are counted, and gates that a standing
condition or a poisoned parity frame holds stay shut over it (R57, R135, R138, R148, R297). -/
def Dev.beginSlot (d : Dev) (h s : Nat) : Dev :=
  match (d.wps h).run with
  | none => d
  | some r =>
    let w := (d.head h).wedge
    let a := r.job.addr + s
    let named := r.job.mask.getLsbD s && !r.cut.contains s
    let gone := (d.encodedFor h a).isNone || d.retiredSlot a
    let d := d.when (named && decide (w < 512)) fun d => d.onWp h fun t => { t with run := some { r with
      begun := r.begun ++ [s], lost := if gone then r.lost ++ [s] else r.lost } }
    let bare := ((List.range 8).filter fun p => d.beamAt h p == 15).length
    let d := d.onWp h fun t => { t with run := t.run.map fun r =>
      { r with uncovered := if named && r.writes s then r.uncovered + bare else r.uncovered } }
    let st := d.wps h
    let d := d.shutFrom h (d.positionsOf h (if st.headClosed then d.mapBeams h else st.closedBeams)) (s * slotBits)
    d.when named fun d =>
      (d.readFrames h a ((List.range 8).map fun p => 8 * (w / 512) + p)).shutFrom h
        ((List.range 8).filter fun p => d.poisonedFrame h a (8 * (w / 512) + p)) (s * slotBits)

/-- The bits of the current interval before place k have passed under the head, and the slots that begin there have begun. -/
def Dev.passTo (d : Dev) (h k : Nat) : Dev :=
  let place := (d.wps h).place
  let lo := d.intervalStart h
  let due := (slotsBegun (d.headZone h) (d.head h).wedge).filter fun s => lo + place ≤ s * slotBits && s * slotBits < lo + k
  (d.each due fun d s => d.beginSlot h s).onWp h fun s => { s with place := max place (min k (fragBits (d.headZone h))) }

/-- A wedge interval of a head that writes begins: what begins with its first bit begins. -/
def Dev.bandWedge (d : Dev) (h : Nat) : Dev := d.when (d.writing h) fun d => d.passTo h 1

/-- A tick of a head that writes falls somewhere in what is left of the wedge interval; no command tells where (a free value, log 134). -/
def Dev.tickPlace (d : Dev) (h : Nat) : Dev :=
  d.when (d.writing h) fun d =>
    let place := (d.wps h).place
    (d.passTo h (place + 1 + d.freeBits 32 % (fragBits (d.headZone h) - place))).drew

/-! ### The formatter (R47, R50, R135, R136) -/

/-- The channel bits of a frame of a slot being written, as its stripe buffer gives them. -/
def Dev.formatFrame (d : Dev) (h addr j : Nat) : List Bool :=
  match d.encodedFor h addr with
  | some p => frameChannelBits (frameOfStripe addr j) (d.frameBytes p.2.buf j)
  | none => []

/-- What position p records in wedge interval w: the frames of the slots being written at s × 39,088, the fill as the preamble pattern,
none where the gate is closed. -/
def Dev.formatBits (d : Dev) (h w p : Nat) (r : BandRun) : List (Option Bool) :=
  let z := d.headZone h
  if d.beamAt h p = 15 then []
  else
    let frames := ((slotsAt z w).filter fun s => s < zoneSlots z && r.writes s).map fun s =>
      (s, d.formatFrame h (r.job.addr + s) (8 * (w / 512) + p))
    (List.range (fragBits z)).map fun i =>
      let q := w % 512 * fragBits z + i
      let s := q / slotBits
      if r.gate z w p q then
        if s < zoneSlots z then ((frames.find? fun e => e.1 == s).bind fun e => e.2[q % slotBits]?) else some (q % 4 < 2)
      else none

/-- The pattern of an OPC step on a track: 128 bits of the preamble, then the scrambler's output for frame-in-track 0xff (R146). -/
def opcPattern (side layer track n : Nat) : List Bool :=
  (List.range 128).map (fun i => decide (i % 4 < 2)) ++ scramble (n - 128) (scramblerSeed side layer track 0xff)

/-- What the positions of a head record in the interval that ends: of a band write, or of an OPC step. -/
def Dev.intervalBits (d : Dev) (h : Nat) : List (List (Option Bool)) :=
  let hd := d.head h
  (List.range 8).map fun p =>
    match (d.wps h).run, (d.wps h).opc, d.opcStep h with
    | some r, _, _ => d.formatBits h hd.wedge p r
    | none, some o, some _ => if o.phase = .writing ∧ d.beamAt h p ≠ 15 then
        (opcPattern h hd.layer (8 * hd.band + p) (fragBits (d.headZone h))).zipIdx.map fun e =>
          if o.shut.any fun x => x.1 == d.beamAt h p && decide (x.2 ≤ e.2) then none else some e.1
      else []
    | _, _, _ => []

/-- What a head has recorded of the current wedge interval is on the medium, and the lanes sent its pulses; the other lanes are low (R133, R142,
R144). -/
def Dev.layRows (d : Dev) (h : Nat) : Dev :=
  let hd := d.head h
  let rows := d.intervalBits h
  let bank := d.bank h
  let d := d.onWp h fun s => { s with lanes := [] }
  d.each (List.range 8) fun d p =>
    let bits := rows.getD p []
    let b := d.beamAt h p
    let mark (k n : Nat) : Nat := if ((rows.getD k []).getD n none).getD false then 1 else 0
    let side (n : Nat) : Nat := (if p = 0 then 0 else mark (p - 1) n) + (if p = 7 then 0 else mark (p + 1) n)
    if bits.isEmpty then d
    else
      let pulses := lanePulses (fun i => d.reg (tableEntry h bank b i)) side (d.sfld (Fld.WP_SKEW_WS_SKEW h b)) bits
      let d := d.onWp h fun s => { s with lanes := Tab.set (fun _ => []) s.lanes b pulses }
      { d with medium := { d.medium with
        frags := Tab.upd (fun _ => []) d.medium.frags (fragKey h hd.layer (8 * hd.band + p) hd.wedge) (overRecorded bits) } }

/-- The wedge interval of a head that writes has ended. -/
def Dev.layInterval (d : Dev) (h : Nat) : Dev := d.when (d.writing h) fun d => (d.passTo h (fragBits (d.headZone h))).layRows h

/-- A stripe was not written to standard: after two further faults the firmware retires its slot with reason 0x0002 (R149), once stripe writes
may start (R61). -/
def Dev.slotFault (d : Dev) (a : Nat) : Dev :=
  let n := Tab.get (fun _ => 0) d.medium.faults a + 1
  let d := { d with medium := { d.medium with faults := Tab.set (fun _ => 0) d.medium.faults a n } }
  d.when (3 ≤ n && !d.supplyFailed) fun d => (d.slotDone a).retireSlot a 2

/-- A running band write ends (R138): standard or not by slot, counters, the result record; the encode jobs of slots
written to standard close. -/
def Dev.bandEnd (d : Dev) (h : Nat) : Dev :=
  match (d.wps h).run with
  | none => d
  | some r =>
    let named := maskSlots r.job.mask
    let tol := d.fld (Fld.WP_INH_CFG_INHIBIT_TOL h)
    let inh (s : Nat) := (r.inhibited.filter fun k => k / 32 == s).length
    let bad := named.filter fun s => r.lost.contains s || r.cut.contains s || tol < inh s
    let laid := named.filter fun s => !(r.lost.contains s || r.cut.contains s)
    let fault := maskOf bad
    let status := if !r.cut.isEmpty then 4 else if fault ≠ 0 then 1 else 0
    let d := (d.countBy (Adr.WP_CNT h 0) (named.length - bad.length)).countBy (Adr.WP_CNT h 6) bad.length
    let d := d.each laid fun d s =>
      match d.encodedFor h (r.job.addr + s) with
      | none => d
      | some p =>
        let d := { d with medium := { d.medium with
          written := Tab.set (fun _ => 0) d.medium.written (r.job.addr + s) p.2.esn.toNat } }
        if bad.contains s then d.slotFault (r.job.addr + s) else (d.slotDone (r.job.addr + s)).setStripe h (p.1 % 64) none
    let d := (d.onWp h fun s => { s with run := none, lanes := [] }).count (Adr.WP_CNT h 1)
    ((d.bandResult h r.job status r.inhibited.length r.uncovered fault).showStripes).showWp h

/-- The frames of a band write that its head has not come to: of the slots it writes, at the positions that the map covers. -/
def Dev.framesAhead (d : Dev) (h : Nat) (r : BandRun) : List Nat :=
  let q := (d.head h).wedge / 512
  ((maskSlots r.job.mask).filter r.writes).flatMap fun s => (List.range 32).filterMap fun j =>
    if (q < j / 8 || q == j / 8 && decide (d.guardBit h ≤ s * slotBits)) && d.beamAt h (j % 8) != 15 then some (32 * s + j) else none

/-- A head leaves its band in mid-write: the gates close at once, every frame that it has not come to counts as inhibited, and the band write
ends (R133, R138; log 158). -/
def Dev.bandBreak (d : Dev) (h : Nat) : Dev :=
  d.when (d.wps h).run.isSome fun d =>
    let bit := d.guardBit h
    let d := d.shutFrom h (List.range 8) bit
    let later := (slotsBegun (d.headZone h) (d.head h).wedge).map (· * slotBits) |>.filter (bit < ·)
    let d := d.each later fun d b => d.holdShut h (List.range 8) b
    let d := match (d.wps h).run with
      | none => d
      | some r =>
        let ahead := (d.framesAhead h r).filter fun k => !r.inhibited.contains k
        (d.onWp h fun s => { s with run := some { r with inhibited := r.inhibited ++ ahead } }).countBy (Adr.WP_CNT h 2) ahead.length
    (d.layRows h).bandEnd h

/-- The supply fails during a band write: slots not begun stay closed, whatever failed before (R61, R139). -/
def Dev.bandSupplyFail (d : Dev) (h : Nat) : Dev :=
  d.onWp h fun s => { s with run := s.run.map fun r =>
    { r with cut := (maskSlots r.job.mask).filter fun k => r.cut.contains k || !r.begun.contains k } }

def execWpCntClr (h : Head) (s : State) : Host.Outcome State Fault Refusal :=
  s.on fun d => if d.hasHead h then d.clearCounters (Adr.WP_CNT h.ix) else d

/-! ## OPC (R146) -/

/-- A run that OPC refuses: a level past 4,095, or a start outside a PCA band; and one asked of a head that is not captured, or of a write path
that is at work, for which the spec names no answer (DESIGN CHOICE, log 155). -/
def Dev.opcRefused (d : Dev) (h : Nat) : Bool :=
  let last := (d.fld (Fld.WP_OPC_CFG_STEPS h) - 1) * d.fld (Fld.WP_OPC_CFG_OPC_STEP h)
  d.wpBusy h || !(d.head h).captured || 1 < (d.head h).band
    || (d.mapBeams h).any fun b => 4095 < d.fld (Fld.WP_OPC_START_P_START h b) + last

/-- OPC_GO starts a run, which counts as one band write for the laser faults of R381, or is refused (R146, R150). -/
def Dev.opcGo (d : Dev) (h : Nat) : Dev :=
  if d.opcRefused h then d.putBit (Fld.WP_STATUS_OPC_REFUSED h) true
  else
    let d := { d with spr := { d.spr with laserFaults := d.spr.laserFaults.filter fun e => e.1 / 16 != h } }
    (d.onWp h fun s => { s with opc := some {} }).showWp h

def execOpcGo (h : Head) (s : State) : Host.Outcome State Fault Refusal :=
  s.on fun d => d.when (d.hasHead h) fun d => d.opcGo h.ix

/-- Where the OPC run of a write path stands. -/
def WpSt.opcAt (w : WpSt) : Option OpcPhase := w.opc.map fun o => o.phase

/-- An OPC run takes another phase. -/
def Dev.opcPhase (d : Dev) (h : Nat) (p : OpcPhase) : Dev :=
  d.onWp h fun s => { s with opc := s.opc.map fun o => { o with phase := p } }

/-- The steps are over: DAC A of each beam takes back the level that the APC set, but for a beam that a laser fault or a trip has turned off
(R150), and the lanes fall silent (R144, R146). -/
def Dev.opcRelease (d : Dev) (h : Nat) : Dev :=
  match (d.wps h).opc with
  | none => d
  | some o =>
    let kept := o.levels.filter fun e => !(d.wps h).trip && !(d.wps h).stuck.contains e.1
    let d := d.each kept fun d e => d.put (Fld.WP_LVL_LEVEL_A h e.1) e.2
    d.onWp h fun s => { s with lanes := [], opc := some { o with phase := .written, levels := [] } }

/-- The steps that lie on the revolution; what becomes of those past wedge 2,047, the spec does not say: the model neither writes nor reads them,
and marks them invalid (DESIGN CHOICE, log 156). -/
def Dev.opcSteps (d : Dev) (h : Nat) : Nat := min (d.fld (Fld.WP_OPC_CFG_STEPS h)) (2048 - d.fld (Fld.WP_OPC_CFG_START_WEDGE h))

/-- A head crosses wedge 0 with the last step still to be read. -/
def Dev.opcTail (d : Dev) (h : Nat) : Bool :=
  (d.head h).wedge == 0 && d.fld (Fld.WP_OPC_CFG_START_WEDGE h) + d.opcSteps h == 2048

/-- A head comes onto a band, or leaves it, for an OPC run (R146, R483). -/
def Dev.opcBand (d : Dev) (h band : Nat) : Dev :=
  let on := band == d.fld (Fld.WP_OPC_CFG_BAND h)
  match (d.wps h).opcAt with
  | some .waiting => d.when on fun d => d.opcPhase h .entered
  | some .entered => d.when (!on) fun d => d.opcPhase h .waiting
  | some .writing => d.when (!on) fun d => d.opcRelease h
  | some .written => d.when on fun d => d.opcPhase h .reading
  | some .reading => d.when (!on && !d.opcTail h) fun d => d.opcPhase h .written
  | _ => d

/-- Step k drives DAC A of every beam in the map, in place of the APC's level (R146). -/
def Dev.opcDrive (d : Dev) (h k : Nat) : Dev :=
  d.each (d.mapBeams h) fun d b =>
    let level := d.fld (Fld.WP_OPC_START_P_START h b) + k * d.fld (Fld.WP_OPC_CFG_OPC_STEP h)
    let now := d.fld (Fld.WP_LVL_LEVEL_A h b)
    let d := d.onWp h fun s => { s with opc := s.opc.map fun o =>
      { o with levels := if o.levels.any fun e => e.1 == b then o.levels else Tab.set (fun _ => 4096) o.levels b now } }
    if (d.wps h).stuck.contains b || (d.wps h).trip then d else d.put (Fld.WP_LVL_LEVEL_A h b) level

/-- The tentative decisions of a step's interval on beam b against the known pattern, past its first 128 bits and outside erased groups:
bits that disagree, and the sum and the count of the FIR outputs (R146). -/
def Dev.opcCompare (d : Dev) (h b w track : Nat) : Nat × Int × Nat :=
  match d.sliceServing h b with
  | none => (0, 0, 0)
  | some n =>
    let len := fragBits 0
    let start := w % 512 * len
    let erased := (d.quadFlags n w).1
    let pattern := opcPattern h (d.head h).layer track len
    (((d.slice n).line.drop (d.tentDepth n)).filter fun e =>
      decide (((start + 128 : Nat) : Int) ≤ e.pos) && decide (e.pos < ((start + len : Nat) : Int)) && !erased.contains (e.pos.toNat / 32)).foldl
      (fun acc e => (acc.1 + (if e.bit == pattern.getD (e.pos.toNat - start) false then 0 else 1), acc.2.1 + e.z, acc.2.2 + 1)) (0, 0, 0)

/-- Step k is read back, once the decisions of all its bits have come (R71, R146). -/
def Dev.opcRead (d : Dev) (h k : Nat) : Dev :=
  let w := d.fld (Fld.WP_OPC_CFG_START_WEDGE h) + k
  d.each (List.range 8) fun d p =>
    let b := d.beamAt h p
    if b = 15 then d
    else
      let r := d.opcCompare h b w (8 * d.fld (Fld.WP_OPC_CFG_BAND h) + p)
      d.onWp h fun s => { s with opc := s.opc.map fun o => { o with res := Tab.set (fun _ => (0, 0, 0)) o.res (32 * b + k) r } }

/-- A wedge interval of an OPC run ends: the step before it is read back, and the last one ends the reading (R146). -/
def Dev.opcEnd (d : Dev) (h : Nat) : Dev :=
  let past := ((d.head h).wedge + 2048 - d.fld (Fld.WP_OPC_CFG_START_WEDGE h)) % 2048
  d.when ((d.wps h).opcAt == some .reading && decide (1 ≤ past) && decide (past ≤ d.opcSteps h)) fun d =>
    (d.opcRead h (past - 1)).when (past == d.opcSteps h) fun d => d.opcPhase h .done

/-- The beams whose gates standing conditions close at an OPC step: shut over it, which is then invalid (R146, R148). -/
def Dev.opcStands (d : Dev) (h : Nat) : Dev :=
  let w := d.wps h
  let beams := (d.mapBeams h).filter fun b => w.headClosed || w.closedBeams.contains b
  ((d.onWp h fun s => { s with opc := s.opc.map fun o => { o with shut := [] } }).opcShut h beams 0).opcInvalid h beams

/-- The wedge interval of an OPC run that begins: the first step starts the write, each drives its level, and past the last the write is
over (R146). -/
def Dev.opcWedge (d : Dev) (h : Nat) : Dev :=
  match (d.wps h).opcAt, d.opcStep h with
  | some .entered, some 0 => (((d.opcPhase h .writing).standing h).opcStands h).opcDrive h 0
  | some .writing, some k => (d.opcStands h).opcDrive h k
  | some .writing, none => d.opcRelease h
  | _, _ => d

/-- The result of a beam's step reaches the registers; the mean of no sample is left open (R146; log 136). -/
def Dev.opcResult (d : Dev) (h b k : Nat) (o : OpcRun) : Dev :=
  let r := Tab.get (fun _ => (0, 0, 0)) o.res (32 * b + k)
  let m := Tab.get (fun _ => (0, 0)) o.mon (32 * b + k)
  let asym := if r.2.2 = 0 then d.freeBits 8 else codeOf 8 (clampInt (-128) 127 (roundDiv r.2.1 r.2.2))
  let d := d.when (r.2.2 == 0) fun d => d.drew
  let mon := if m.2 = 0 then d.freeBits 12 else (roundDiv m.1 m.2).toNat
  let d := d.when (m.2 == 0) fun d => d.drew
  let bad := o.invalid.contains (32 * b + k) || d.opcSteps h ≤ k
  let v := min 65535 r.1 + asym * 2 ^ 16 + (if bad then 2 ^ 31 else 0)
  (d.setReg (Adr.WP_OPC h b k) (BitVec.ofNat 32 v)).setReg (Adr.WP_OPC_MON h b k) (BitVec.ofNat 32 mon)

/-- OPC_DONE: the steps have been read back, and their results, which stand in the run, are recorded (R146); the second operand says
nothing. -/
def execOpcDone (h : Head) (_r : Unit) (s : State) : Host.Outcome State Fault Refusal :=
  s.on fun d =>
    match (d.wps h.ix).opc with
    | none => d
    | some o =>
      if o.phase ≠ .done then d
      else
        let d := d.each (d.mapBeams h.ix) fun d b => d.each (List.range (d.fld (Fld.WP_OPC_CFG_STEPS h.ix))) fun d k => d.opcResult h.ix b k o
        let d := (d.onWp h.ix fun s => { s with opc := none }).count (Adr.WP_CNT h.ix 7)
        (d.putBit (Fld.WP_STATUS_OPC_DONE h.ix) true).showWp h.ix

/-- BANK_SWAP: in KD mode with the next bank ready and no ECC block being written, the swap waits for the next recording
frame boundary; otherwise the write is discarded (R152). -/
def Dev.bankSwap (d : Dev) : Dev :=
  d.when (d.mode == 2 && d.tableReady 0 && (d.wps 0).run.isNone) fun d => d.onWp 0 fun s => { s with swap := true }

def execBankSwap (s : State) : Host.Outcome State Fault Refusal := s.on fun d => d.bankSwap

/-- Where a third computation puts an edge of a mark from the beam's table, in 1/32 bit from the mark's first bit (R8, R142). -/
def Dev.thirdEdge (d : Dev) (h : Nat) (e : EdgeRecord) : Option Int :=
  ((shapePulses (strategyPulses (d.reg (tableEntry h (d.bank h) e.beam e.index)) 0 e.length)).flatMap fun p => [p.1, p.2])[e.edge]?

/-- WRITE_PATH_MISMATCH: the two copies disagree, every gate closes, and the copy at fault is retired: the one that reports an error,
else the one whose edge differs from a third computation (R8; log 27). -/
def execWritePathMismatch (h : Head) (e : EdgeRecord) (s : State) : Host.Outcome State Fault Refusal :=
  s.on fun d =>
    if !d.hasHead h || (d.wps h.ix).retiredCopy.isSome then d
    else
      let c : Fin 2 := match e.reports with
        | some c => c
        | none => if d.thirdEdge h.ix e = some e.first then 1 else 0
      let d := (d.onWp h.ix fun s => { s with retiredCopy := some c }).inhibit h.ix inhCopy (d.mapBeams h.ix) (some 3)
      d.event .writePath h.ix 0 [c.val]

end Sys2Proof.Machine
end

