-- ==== Sys2Proof/Machine/Servo.lean ====
section
/-! DEFINITION. The servo front end and the head: beam maps and failover, samples, and what captures, jumps and seeks
leave (R154 to R157, R167 to R169, R173, R381, R382, R384, R482, R483). -/

namespace Sys2Proof.Machine

/-! ## Beams (R157, R381) -/

/-- The class of a head's beams (R372). -/
def beamClass (h : Nat) : Nat := 1 + h

/-- A beam in service. -/
def Dev.beamGood (d : Dev) (h b : Nat) : Bool := !d.dead (beamClass h) b

/-- A beam left out of the map because its slice failed alone (R382). -/
def Dev.beamExcluded (d : Dev) (h b : Nat) : Bool := Tab.get (fun _ => false) d.spr.excluded (16 * h + b)

def Dev.setExcluded (d : Dev) (h b : Nat) (v : Bool) : Dev :=
  { d with spr := { d.spr with excluded := Tab.set (fun _ => false) d.spr.excluded (16 * h + b) v } }

/-- The detector inputs of a beam: four quadrants for B4 and B5, two halves for the others (R154). -/
def beamInputs (b : Nat) : List Nat :=
  if b = 4 then [0, 1, 2, 3] else if b = 5 then [4, 5, 6, 7]
  else
    let k := if b < 4 then b else b - 2
    [8 + 2 * k, 9 + 2 * k]

/-- The servo sum of a beam (R157). -/
def servoSumOf (spd : List (BitVec 12)) (b : Nat) : Nat :=
  ((beamInputs b).map fun i => (spd[i]?.getD 0).toNat).foldl (· + ·) 0

/-- The track that a beam is to follow: 8b + p at position p; for an unmapped one the track outward of the highest mapped
beam below it (R163). -/
def Dev.targetTrack (d : Dev) (h b : Nat) : Option Nat :=
  let hd := d.head h
  if !hd.captured || hd.seek.isSome then none
  else
    match (List.range 8).find? fun p => d.beamAt h p == b with
    | some p => some (8 * hd.band + p)
    | none =>
      ((List.range 8).reverse.find? fun p => d.beamAt h p < b).map fun p => 8 * hd.band + p + 1

/-! ## Beam maps (R167 to R169) -/

/-- A map word of eight beams, position 0 lowest. -/
def mapWord (l : List Nat) : Word :=
  BitVec.ofNat 32 ((List.zip (List.range 8) l).foldl (fun acc p => acc + p.2 % 16 * 2 ^ (4 * p.1)) 0)

/-- The beams of a map word. -/
def mapList (w : Word) : List Nat := (List.range 8).map fun p => fieldOf w (4 * p) 4

/-- Named beams rise strictly. -/
def rising : List Nat → Bool
  | a :: b :: l => a < b && rising (b :: l)
  | _ => true

/-- A map that R167 accepts. -/
def mapOk (w : Word) : Bool :=
  rising ((mapList w).filter (· != 15)) &&
    (List.zip (List.range 8) (mapList w)).all fun p => p.2 == 15 || (p.1 ≤ p.2 && p.2 ≤ p.1 + 2 && p.2 ≤ 9)

/-- A map is staged for the next wedge field. -/
def Dev.stageMap (d : Dev) (h : Nat) (w : Word) (auto : Bool) : Dev :=
  let d := (d.setReg (Adr.SRV_BEAM_MAP h) w).putBit (Fld.SRV_STATUS_COMMIT_PENDING h) true
  d.onHead h fun s => { s with mapNext := some w, mapAuto := auto }

/-- The map without a beam: the eight lowest in-service beams where there are eight, else the beam's position uncovered (R169); the sparing
program's maps also leave out the beams whose slice failed alone (R382). -/
def Dev.mapWithout (d : Dev) (h b : Nat) (auto : Bool) : Word :=
  let good := (List.range 10).filter fun x => x != b && d.beamGood h x && (auto || !d.beamExcluded h x)
  if 8 ≤ good.length then mapWord (good.take 8)
  else
    let cur := match (d.head h).mapNext with
      | some w => mapList w
      | none => (List.range 8).map (d.beamAt h)
    mapWord (cur.map fun x => if x = b then 15 else x)

/-- A write of SRVh_BEAM_MAP: a map is staged, or refused; in KD mode the write is discarded (R167, R172). -/
def Dev.beamMapWrite (d : Dev) (h : Nat) (v : Word) : Dev :=
  if d.mode == 2 then d
  else if mapOk v then d.stageMap h v false else d.putBit (Fld.SRV_STATUS_MAP_REFUSED h) true

/-- BEAM_MAP_WRITE. -/
def execBeamMapWrite (h : Head) (v : Word) (s : State) : Host.Outcome State Fault Refusal :=
  s.on fun d => d.when (d.hasHead h) fun d => d.beamMapWrite h.ix v

/-- A beam is lost: retired, and the map written without it (R169, R381). -/
def Dev.beamLost (d : Dev) (h b : Nat) (auto : Bool) : Dev :=
  if !d.beamGood h b then d
  else
    let e := d.esn
    let mapped := (d.mapBeams h).contains b
    let w := d.mapWithout h b auto
    let d := d.retireUnit (beamClass h) b e
    if mapped then
      let enter := ((mapList w).filter fun x => !(d.mapBeams h).contains x && x != 15).headD 0xffff
      let d := if enter = 0xffff then d else d.substitute (beamClass h) b enter e
      d.stageMap h w auto
    else d

/-- The slice that a commit points at a newly mapped beam that no slice serves: one that leaves Data mode, else the
lowest Shadow-mode slice of an unmapped beam, else the lowest usable Off slice (R168). -/
def Dev.sliceForBeam (d : Dev) (h : Nat) (leaving newMap : List Nat) : Option Nat :=
  (leaving.find? fun n => d.sliceUsable n && d.sliceMode n == 2).orElse fun _ =>
    ((headSlices h).find? fun n => d.sliceMode n == 2 && !newMap.contains (d.sliceBeam n)).orElse fun _ =>
      (headSlices h).find? fun n => d.sliceMode n == 0 && d.sliceUsable n

/-- A slice enters Data mode at a commit, and erases until the end of its rejoin, which runs at the next resync field (R168). -/
def Dev.sliceToData (d : Dev) (n : Nat) : Dev :=
  let off := d.sliceMode n == 0
  let d := d.put (Fld.CHN_CTRL_MODE n) 1
  (d.when off fun d => d.sliceLeaveOff n).onSlice n fun s => { s with rejoinNext := true, served := none }

/-- The slices of a head follow a new map; the positions that no slice can serve (R168). -/
def Dev.mapSlices (d : Dev) (h : Nat) (old new : List Nat) : Dev × List Nat :=
  let left := old.filter fun b => b != 15 && !new.contains b
  let leaving := (headSlices h).filter fun n => d.sliceMode n == 1 && left.contains (d.sliceBeam n)
  let d := d.each leaving fun d n => d.put (Fld.CHN_CTRL_MODE n) 2
  (new.filter fun b => b != 15 && !old.contains b).foldl (fun acc b =>
    let d := acc.1
    match (headSlices h).find? fun n => d.sliceMode n == 2 && d.sliceBeam n == b with
    | some n => (d.sliceToData n, acc.2)
    | none =>
      match d.sliceForBeam h leaving new with
      | some n => ((d.put (Fld.CHN_CTRL_BEAM n) b).sliceToData n, acc.2)
      | none => (d, b :: acc.2)) (d, [])

/-- The shift code of a beam under a map: p - b, or that of the nearest mapped beam below (R168). -/
def shiftOf (new : List Nat) (b : Nat) : Nat :=
  match (List.zip (List.range 8) new).reverse.find? fun p => p.2 != 15 && p.2 ≤ b with
  | some p => codeOf 2 ((p.1 : Int) - p.2)
  | none => 0

/-- A slice returns from its cycle to the spare role: it takes the lowest good beam that no slice serves, in Shadow mode (R375, R378). -/
def Dev.returnSlice (d : Dev) (n : Nat) : Dev :=
  let h := n / 10
  let held (b : Nat) : Bool := (headSlices h).any fun m => d.sliceMode m != 0 && d.sliceBeam m == b
  match (List.range 10).find? fun b => !held b && d.beamGood h b with
  | some b => (d.put (Fld.CHN_CTRL_BEAM n) b).sliceSetMode n 2
  | none => d

/-- A map that brings in B9 ends the cycle that its slice was lent to (R385). -/
def Dev.reclaimFor9 (d : Dev) (h : Nat) (old new : List Nat) : Dev :=
  match d.spr.cycle with
  | some y =>
    let n := 10 * h + y.unit
    let due := y.cls = 3 + h ∧ new.contains 9 ∧ !old.contains 9
    if due then d.reclaim y (d.unit y.cls y.unit == .draining && d.sliceMode n == 1) fun d => (d.setUnit y.cls y.unit .spare).returnSlice n
    else d
  | none => d

/-- All shifts of a map (R168). -/
def shiftWord (new : List Nat) : Nat := (List.range 10).foldl (fun acc b => acc + shiftOf new b * 4 ^ b) 0

/-- A staged map commits at a wedge field (R167, R168, R169). -/
def Dev.commitMap (d : Dev) (h : Nat) : Dev :=
  match (d.head h).mapNext with
  | none => d
  | some w =>
    let auto := (d.head h).mapAuto
    let old := (List.range 8).map (d.beamAt h)
    let d := d.reclaimFor9 h old (mapList w)
    let r := d.mapSlices h old (mapList w)
    let new := (mapList w).map fun b => if r.2.contains b then 15 else b
    let d := r.1
    let oldShift := d.fld (Fld.SRV_SHIFT_SHIFT h)
    let newShift := shiftWord new
    let moved := (headSlices h).filter fun n => d.sliceLive n &&
      oldShift / 4 ^ d.sliceBeam n % 4 != newShift / 4 ^ d.sliceBeam n % 4
    let d := d.each moved fun d n => d.onSlice n fun s => { s with rejoinNext := true }
    let ps := (List.range 8).filter fun p => old[p]? != new[p]?
    let first := d.intervalStart h
    let mid := (d.head h).wedge % 512 != 0 && first % slotBits != 0
    let d := d.when mid fun d => (d.shutFrom h ps first).holdShut h ps first
    let d := (d.setReg (Adr.SRV_BEAM_MAP_CUR h) (mapWord new)).put (Fld.SRV_SHIFT_SHIFT h) newShift
    let d := (d.putBit (Fld.SRV_STATUS_COMMIT_PENDING h) false).putBit (Fld.SRV_STATUS_DEGRADED h) (new.contains 15)
    let d := d.when auto fun d => (d.putBit (Fld.SRV_STATUS_FAILOVER h) true).count (Adr.SRV_CNT h 0)
    let d := d.each (List.range 10) fun d b => d.putBit (Fld.SRV_REG_VALID h b) false
    let d := (d.count (Adr.SRV_CNT h 1)).event .beamMap h 0 [(mapWord new).toNat]
    ((d.onHead h fun s => { s with mapNext := none, mapAuto := false }).showDefect h).showTable h

/-! ## Slice faults (R382) -/

/-- A slice of the head free to serve a beam whose slice failed: Off, else in Shadow mode on an unmapped beam. -/
def Dev.sliceToLend (d : Dev) (h : Nat) : Option Nat :=
  ((headSlices h).find? fun n => d.sliceMode n == 0 && d.sliceUsable n).orElse fun _ =>
    (headSlices h).find? fun n => d.sliceMode n == 2 && !(d.mapBeams h).contains (d.sliceBeam n) && d.sliceUsable n

/-- The sparing program declares a slice faulted: retired and Off, the map written without its beam, and a spare slice
pointed at the beam in Shadow mode (R380, R382). -/
def Dev.sliceFaulted (d : Dev) (n : Nat) : Dev :=
  let c := sliceClass n
  if d.dead c (sliceUnit n) then d
  else
    let h := n / 10
    let b := d.sliceBeam n
    let e := d.esn
    let serving := d.sliceMode n == 1
    let d := d.retireUnit c (sliceUnit n) e
    let d := ((d.put (Fld.CHN_CTRL_MODE n) 0).sliceEnterOff n).showDefect h
    if serving then
      let d := (d.setExcluded h b true).stageMap h (d.mapWithout h b false) false
      match d.sliceToLend h with
      | some m =>
        let off := d.sliceMode m == 0
        let d := (d.sliceSetBeam m b).put (Fld.CHN_CTRL_MODE m) 2
        ((d.when off fun d => d.sliceLeaveOff m).onSlice m fun s => { s with okRun := 0 }).substitute c
          (sliceUnit n) (sliceUnit m) e
      | none => d
    else d

/-- SLICE_SELF_CHECK_FAULT: the slice's own check reports a fault (R382). -/
def execSliceSelfCheckFault (n : Slice) (s : State) : Host.Outcome State Fault Refusal :=
  s.onSlice n fun d => if d.mode = 2 then d else d.sliceFaulted n

/-- The restoring map: an excluded beam whose new slice has held through 16 wedge fields comes back, at a moment when the
head moves no data (R382). -/
def Dev.restoreBeams (d : Dev) (h : Nat) : Dev :=
  let back := (List.range 10).filter fun b => d.beamExcluded h b && d.beamGood h b &&
    (headSlices h).any fun n => d.sliceMode n == 2 && d.sliceBeam n == b && 16 ≤ (d.slice n).okRun
  if back.isEmpty then d
  else
    let d := d.each back fun d b => d.setExcluded h b false
    let good := (List.range 10).filter fun x => d.beamGood h x && !d.beamExcluded h x
    d.when (8 ≤ good.length) fun d => d.stageMap h (mapWord (good.take 8)) false

/-! ## The servo tick (R155, R85, R145, R150, R169) -/

/-- The conversions of a tick reach the slices' servo sums. -/
def Dev.tickSums (d : Dev) (h : Nat) (m : ServoSamples) : Dev :=
  d.each ((headSlices h).filter fun n => d.sliceMode n != 0) fun d n =>
    d.servoSum n (servoSumOf m.spd.toList (d.sliceBeam n)) (m.sumRef.toList.getD (d.sliceBeam n) 0)

/-- A mapped beam whose sum stays below SSUM_DEAD/32 of its reference for DEAD_SAMPLES consecutive conversions, while fewer than four other
mapped beams are in defect, is dead (R169); a conversion at which the front end does not test it restarts its count. -/
def Dev.tickDead (d : Dev) (h : Nat) (m : ServoSamples) : Dev :=
  let tested := d.mode != 2 && d.bit (Fld.SRV_CTRL_FAILOVER_AUTO h)
  d.each (List.range 10) fun d b =>
    let low := 32 * servoSumOf m.spd.toList b < d.fld (Fld.SRV_FAILCFG_SSUM_DEAD h) * m.sumRef.toList.getD b 0
    let others := ((d.mapBeams h).filter fun x => x != b && d.maskBit (Fld.SRV_DEFECT_MASK h) x).length
    let run := if tested && (d.mapBeams h).contains b && low && others < 4 then Tab.get (fun _ => 0) (d.head h).deadRun b + 1 else 0
    let dead := tested && d.fld (Fld.SRV_FAILCFG_DEAD_SAMPLES h) ≤ run && 0 < run
    let d := d.onHead h fun s => { s with deadRun := Tab.set (fun _ => 0) s.deadRun b (if dead then 0 else run) }
    d.when (dead && d.beamGood h b) fun d => d.beamLost h b true

/-- The monitor samples of a tick: laser faults and stuck beams, and in native mode the failover or retirement that follows (R145, R150,
R169, R172, R381). -/
def Dev.tickMonitors (d : Dev) (h : Nat) (m : ServoSamples) : Dev :=
  d.each (m.mon.toList.zipIdx.filter fun e => d.mode != 2 || e.2 == 4) fun d e =>
    let b := e.2
    let was := (d.wps h).stuck.contains b
    let d := d.monitor h b e.1
    let stuck := (d.wps h).stuck.contains b
    d.when (d.mode != 2) fun d =>
      let d := d.when (stuck && !was) fun d =>
        d.beamLost h b (d.bit (Fld.SRV_CTRL_FAILOVER_AUTO h) && (d.mapBeams h).contains b)
      d.when (2 ≤ Tab.get (fun _ => 0) d.spr.laserFaults (16 * h + b) && d.beamGood h b) fun d => d.beamLost h b false

/-- SERVO_TICK: every servo input and monitor of a head that converts is sampled (R155); in KD mode only head A's servo runs (R172). -/
def execServoTick (h : Head) (m : ServoSamples) (s : State) : Host.Outcome State Fault Refusal :=
  s.on fun d =>
    if !d.hasHead h || !d.bit (Fld.SRV_CTRL_AFE_ON h.ix) || (d.mode == 2 && h.ix != 0) then d
    else
      let d := d.onHead h.ix fun s => { s with spd := m.spd.toList, ticks := s.ticks + 1 }
      (((d.tickPlace h.ix).tickSums h.ix m).tickDead h.ix m).tickMonitors h.ix m

def execSrvCntClr (h : Head) (s : State) : Host.Outcome State Fault Refusal :=
  s.on fun d => if d.hasHead h then d.clearCounters (Adr.SRV_CNT h.ix) else d

/-! ## Capture, jumps and seeks (R164 to R166, R482, R483) -/

/-- The slices that serve a list of beams: each beam the lowest usable slice that BEAM points at it, the others the usable slices left
over, in order (R482). -/
def Dev.sliceShare (d : Dev) (h : Nat) (beams : List Nat) : List (Nat × Nat) :=
  let usable := (headSlices h).filter d.sliceUsable
  let own := beams.filterMap fun b => (usable.find? fun n => d.fld (Fld.CHN_CTRL_BEAM n) == b).map fun n => (b, n)
  own ++ List.zip (beams.filter fun b => own.all fun e => e.1 != b) (usable.filter fun n => own.all fun e => e.2 != n)

/-- The slices of a head take the modes of its service: a Data slice for each of the map's beams, one Shadow slice for each other beam
in service, and each is pointed at its beam by BEAM (R482). -/
def Dev.serveSlices (d : Dev) (h : Nat) : Dev :=
  let mapped := d.mapBeams h
  let others := (List.range 10).filter fun b => d.beamGood h b && !mapped.contains b
  d.each (d.sliceShare h (mapped ++ others)) fun d e =>
    let mode := if mapped.contains e.1 then 1 else 2
    (d.sliceSetBeam e.2 e.1).when (d.sliceMode e.2 != mode) fun d => d.sliceSetMode e.2 mode

/-- The firmware writes Off to every slice of a head that leaves service (R482). -/
def Dev.releaseSlices (d : Dev) (h : Nat) : Dev := d.each (headSlices h) fun d n => d.sliceSetMode n 0

/-- Every slice of the head that works arms a cold acquisition (R75). -/
def Dev.coldSlices (d : Dev) (h : Nat) : Dev :=
  d.each ((headSlices h).filter d.sliceLive) fun d n => d.onSlice n fun s => { s with coldArmed := true }

/-- SA takes a layer's level, which the spec leaves to calibration (R156, R164; log 28). -/
def Dev.setSa (d : Dev) (h : Nat) : Dev := (d.put (Fld.SRV_SA_LEVEL h) (d.freeBits 12)).drew

/-- A head lies on another band from here on: nothing of an earlier pass counts (R118). -/
def Dev.onBand (d : Dev) (h band : Nat) : Dev :=
  (((d.bandBreak h).onHead h fun s => { s with band := band }).passEnds h).opcBand h band

/-- The record of a layer is loaded: the valid copy with the greater GEN, its defect map, and its namespace extents, in the order of their
indices, with their written maps (R56, R59, R336). Of two valid copies with one GEN, which the spec does not choose between, the model takes copy A
(DESIGN CHOICE, log 160). -/
def Dev.loadLayer (d : Dev) (side layer : Nat) (a b : Option (List Byte)) : Dev :=
  if (d.layer side layer).valid then d
  else
    let copies := ([a, b].zipIdx.filterMap fun e => e.1.map fun l => (l, e.2)).filter fun e => recordOk side layer e.1
    let best := copies.foldl (fun m e => match m with
      | some x => if recordGen x.1 < recordGen e.1 then some e else some x
      | none => some e) (none : Option (List Byte × Nat))
    match best with
    | none => d
    | some (l, copy) =>
      let d := d.setLayer side layer (recordLayer l copy)
      let key := 2 ^ 32 * (8 * side + layer)
      { d with host := { d.host with
          ns := orderExtents (d.host.ns ++ recordExtents side layer l)
          written := (recordMarks l).foldl (fun t k => Tab.set (fun _ => false) t (key + k) true) d.host.written } }

/-- At load the firmware reads the records of a side's layers. When the load of a side happens, and through which reads, the spec does not say:
the model takes the records with a capture of the side's head, each layer's once (DESIGN CHOICE, log 160). -/
def Dev.loadSide (d : Dev) (side : Nat) (l : List LayerCopies) : Dev :=
  { d with medium := { d.medium with present := true } }.each l fun d c => d.loadLayer side c.layer.val c.copyA c.copyB

/-- A KD medium is loaded: its capacity and what is recorded on it, and the host is told of the change (R357, R360). -/
def Dev.loadKd (d : Dev) (sectors recorded : Nat) : Dev :=
  if d.kd.present then d
  else
    { d with kd := { d.kd with present := true, sectors := sectors, next := recorded, phys := recorded / 21
                               calibrated := false, attention := some 0x28 } }

/-- A head without focus or without its servo front end: its loops are open, its timebase stops, its count of anchored wedges restarts
(R224), and its pass over the band is over (R118). -/
def Dev.headOff (d : Dev) (h : Nat) : Dev :=
  let d := (d.bandBreak h).onHead h fun s => { s with captured := false, seek := none, paused := false, loop := { s.loop with closed := false } }
  let d := d.passEnds h
  { d with mot := { d.mot with spn := { d.mot.spn with anchored := Tab.set (fun _ => 0) d.mot.spn.anchored h 0 } } }

/-- Every mapped beam of a head is in defect. -/
def Dev.allDefect (d : Dev) (h : Nat) : Bool := (d.mapBeams h).all fun b => d.maskBit (Fld.SRV_DEFECT_MASK h) b

/-- The head loses focus (R162). -/
def Dev.loseFocus (d : Dev) (h : Nat) : Dev := (d.headOff h).count (Adr.SRV_CNT h 3)

/-- The slice whose bursts and address blocks a beam's programs read: the Data-mode one that serves it, else the lowest in Shadow mode (R168;
log 141). -/
def Dev.sliceOfBeam (d : Dev) (h b : Nat) : Option Nat :=
  (d.sliceServing h b).orElse fun _ => (headSlices h).find? fun n => d.sliceMode n == 2 && d.sliceBeam n == b

/-- The last band of a layer and the lead band of odd layers (R483). -/
def leadBand : Nat := 17877

end Sys2Proof.Machine
end

