-- ==== Sys2Proof/Machine/ArcIsa.lean ====
section
/-! DEFINITION. The Arc instruction set: state access, the instructions R182 lists but EMIT, EVENT and WAITTICK, which
pass the pair's compare unit, and the input ports (R174 to R192). -/

namespace Sys2Proof.Machine

/-! ## Engines and pairs -/

def zeroWord (_ : Nat) : Word := 0

def Dev.arcEng (d : Dev) (e : Nat) : ArcSt := Tab.get (fun _ => {}) d.arc.eng e

/-- An engine's state changed by g. -/
def Dev.onEng (d : Dev) (e : Nat) (g : ArcSt → ArcSt) : Dev :=
  { d with arc := { d.arc with eng := Tab.set (fun _ => {}) d.arc.eng e (g (d.arcEng e)) } }

def Dev.arcPair (d : Dev) (p : Nat) : ArcPairSt := Tab.get (fun _ => {}) d.arc.pair p

/-- A pair's state changed by g. -/
def Dev.onPair (d : Dev) (p : Nat) (g : ArcPairSt → ArcPairSt) : Dev :=
  { d with arc := { d.arc with pair := Tab.set (fun _ => {}) d.arc.pair p (g (d.arcPair p)) } }

/-- The pair that an engine serves. -/
def Dev.pairOf (d : Dev) (e : Nat) : Nat := d.fld (Fld.ARC_CTRL_PAIR e)

/-- The engine is the spare of a pair's takeover, or the third voter of its hand-over. -/
def Dev.arcSpareFor (d : Dev) (p e : Nat) : Bool :=
  match (d.arcPair p).takeover with
  | some t => t.spare == some e
  | none => false

/-- The pair whose program an engine runs: that of its takeover, while it is the spare there, else the one it serves (R201, R204). -/
def Dev.runsFor (d : Dev) (e : Nat) : Nat := ((List.range 3).find? fun p => d.arcSpareFor p e).getD (d.pairOf e)

/-- The filter states whose completion cycle is at or before cycle t are written (R185). -/
def ArcSt.settle (a : ArcSt) (t : Nat) : ArcSt :=
  { a with
    ctx := { a.ctx with mem := (a.due.filter fun x => x.1 ≤ t).foldl (fun m x => Tab.set zeroWord m x.2.1 x.2.2) a.ctx.mem }
    due := a.due.filter fun x => t < x.1 }

/-- Every filter of the period completes (R177, R185). -/
def ArcSt.settled (a : ArcSt) : ArcSt :=
  { a with ctx := { a.ctx with mem := a.due.foldl (fun m x => Tab.set zeroWord m x.2.1 x.2.2) a.ctx.mem }, due := [] }

/-- A general register. -/
def ArcCtx.reg (c : ArcCtx) (r : ArcReg) : Word := Tab.get zeroWord c.regs r

/-- A predicate: p0 is 1 and p1 is bit 0 of the period count (R182). -/
def ArcCtx.pred (c : ArcCtx) (p : Nat) : Bool :=
  if p = 0 then true else if p = 1 then c.pcnt % 2 == 1 else c.preds.getLsbD p

/-- A state word. -/
def ArcCtx.word (c : ArcCtx) (w : Nat) : Word := Tab.get zeroWord c.mem w

/-- The accumulator xk (R182). -/
def ArcCtx.acc (c : ArcCtx) (x : Fin 16) : Int :=
  accOf (Tab.get zeroWord c.regs (accPair x).2) (Tab.get zeroWord c.regs (accPair x).1)

/-- A byte with bit k set or cleared. -/
def setBit8 (v : BitVec 8) (k : Nat) (b : Bool) : BitVec 8 :=
  if b then v ||| BitVec.ofNat 8 (2 ^ k) else v &&& ~~~(BitVec.ofNat 8 (2 ^ k))

/-- A register written; the write enters the period's signature (R199). -/
def Dev.arcPut (d : Dev) (e : Nat) (r : Nat) (v : Word) : Dev :=
  d.onEng e fun a => { a with
    ctx := { a.ctx with regs := Tab.set zeroWord a.ctx.regs r v }
    sig := (0, r, v.toNat) :: a.sig }

/-- A predicate p2 to p7 written; p0 and p1 hold no written value. -/
def Dev.arcPutPred (d : Dev) (e p : Nat) (b : Bool) : Dev :=
  if p < 2 then d
  else d.onEng e fun a => { a with
    ctx := { a.ctx with preds := setBit8 a.ctx.preds p b }
    sig := (1, p, b.toNat) :: a.sig }

/-- A clamp bit written. -/
def Dev.arcPutClamp (d : Dev) (e c : Nat) (b : Bool) : Dev :=
  d.onEng e fun a => { a with
    ctx := { a.ctx with clamp := setBit8 a.ctx.clamp c b }
    sig := (2, c, b.toNat) :: a.sig }

/-- A state word that a filter writes in its completion cycle t (R185, R199). -/
def Dev.arcPutLater (d : Dev) (e t w : Nat) (v : Word) : Dev :=
  d.onEng e fun a => { a with due := a.due ++ [(t, w, v)], sig := (3, w, v.toNat) :: a.sig }

/-- A state word written. -/
def Dev.arcPutWord (d : Dev) (e w : Nat) (v : Word) : Dev :=
  d.onEng e fun a => { a with
    ctx := { a.ctx with mem := Tab.set zeroWord a.ctx.mem w v }
    sig := (3, w, v.toNat) :: a.sig }

/-- Sticky flags of an engine (R182, R184). -/
def Dev.arcRaise (d : Dev) (e : Nat) (r : Raised) : Dev :=
  let d := d.when r.sat fun d => d.putBit (Fld.ARC_STATUS_SAT e) true
  let d := d.when r.ovf fun d => d.putBit (Fld.ARC_STATUS_OVF e) true
  let d := d.when r.nan fun d => d.putBit (Fld.ARC_STATUS_NAN e) true
  d.when r.div fun d => d.putBit (Fld.ARC_STATUS_DIV e) true

/-- A result with its flags written to a register. -/
def Dev.arcRes (d : Dev) (e : Nat) (r : ArcReg) (v : Word × Raised) : Dev := (d.arcPut e r v.1).arcRaise e v.2

/-- A word of the active bank of an engine (R182). -/
def Dev.arcCoef (d : Dev) (e : Nat) (c : ArcCtx) (w : Nat) : Word :=
  Tab.get zeroWord (d.arcEng e).coef (2048 * c.bank.val + w)

/-- An instruction issues in its slot: slot 0 fixes the operands of its bundle, with the filters that have completed by its cycle, both slots
read them, and the effect takes place only where the predicate allows (R179, R180, R185). -/
def Dev.arcIssue (d : Dev) (i : ArcIssue) (f : ArcCtx → Dev → Dev) : Dev :=
  let d := d.when (i.slot == 0) fun d => d.onEng i.eng fun a => let a := a.settle i.cycle
    { a with snap := a.ctx }
  let c := (d.arcEng i.eng).snap
  d.when (c.pred i.pred != i.neg) (f c)

/-! ## Moves and integers (R182) -/

def execArcNop (i : ArcIssue) (s : State) : Host.Outcome State Fault Refusal :=
  s.on fun d => d.arcIssue i fun _ d => d

def execArcMov (i : ArcIssue) (rd rs1 : ArcReg) (s : State) : Host.Outcome State Fault Refusal :=
  s.on fun d => d.arcIssue i fun c d => d.arcPut i.eng rd (c.reg rs1)

def execArcMovi (i : ArcIssue) (rd : ArcReg) (imm : BitVec 17) (s : State) : Host.Outcome State Fault Refusal :=
  s.on fun d => d.arcIssue i fun _ d => d.arcPut i.eng rd (sext 32 imm)

def execArcLui (i : ArcIssue) (rd : ArcReg) (imm : BitVec 16) (s : State) : Host.Outcome State Fault Refusal :=
  s.on fun d => d.arcIssue i fun _ d => d.arcPut i.eng rd (zext 32 imm <<< 16)

/-- SEL: rs1 where predicate q[2:0] XOR q[3] is 1, else rs2. -/
def execArcSel (i : ArcIssue) (rd rs1 rs2 : ArcReg) (q : BitVec 4) (s : State) : Host.Outcome State Fault Refusal :=
  s.on fun d => d.arcIssue i fun c d =>
    d.arcPut i.eng rd (if c.pred (q.toNat % 8) != q.getLsbD 3 then c.reg rs1 else c.reg rs2)

/-- The integer operation of a function code. -/
def arcAlu (fn : Fin 8) (a b : Word) : Word :=
  match fn with
  | 0 => a + b
  | 1 => a - b
  | 2 => a &&& b
  | 3 => a ||| b
  | 4 => a ^^^ b
  | 5 => a <<< (b.toNat % 32)
  | 6 => a >>> (b.toNat % 32)
  | 7 => a.sshiftRight (b.toNat % 32)

def execArcAlu (i : ArcIssue) (fn : Fin 8) (rd rs1 rs2 : ArcReg) (s : State) : Host.Outcome State Fault Refusal :=
  s.on fun d => d.arcIssue i fun c d => d.arcPut i.eng rd (arcAlu fn (c.reg rs1) (c.reg rs2))

def execArcAddi (i : ArcIssue) (rd : ArcReg) (imm : BitVec 17) (s : State) : Host.Outcome State Fault Refusal :=
  s.on fun d => d.arcIssue i fun c d => d.arcPut i.eng rd (c.reg rd + sext 32 imm)

/-- A comparison from its less-than and equality. -/
def arcCompare (fn : Fin 6) (lt eq gt : Bool) : Bool :=
  match fn with
  | 0 => eq
  | 1 => !eq
  | 2 => lt
  | 3 => lt || eq
  | 4 => gt
  | 5 => gt || eq

/-- CMP of signed integers or FP32 values; a NaN compares as +0 with NAN set (R184). -/
def execArcCmp (i : ArcIssue) (fp : Bool) (fn : Fin 6) (pd : Fin 8) (rs1 rs2 : ArcReg) (s : State) :
    Host.Outcome State Fault Refusal :=
  s.on fun d => d.arcIssue i fun c d =>
    let a := c.reg rs1
    let b := c.reg rs2
    if fp then
      let x := fltOf a
      let y := fltOf b
      (d.arcPutPred i.eng pd (arcCompare fn (x.lt y) (x.eqv y) (y.lt x))).arcRaise i.eng (nanOf [a, b])
    else d.arcPutPred i.eng pd (arcCompare fn (a.slt b) (a == b) (b.slt a))

/-! ## Q1.31 (R183) -/

def arcQalu (fn : Fin 4) (a b : Word) : Word × Raised :=
  match fn with
  | 0 => sat32 (qval a + qval b)
  | 1 => sat32 (qval a - qval b)
  | 2 => sat32 (-qval a)
  | 3 => sat32 (qval a).natAbs

def execArcQalu (i : ArcIssue) (fn : Fin 4) (rd rs1 rs2 : ArcReg) (s : State) : Host.Outcome State Fault Refusal :=
  s.on fun d => d.arcIssue i fun c d => d.arcRes i.eng rd (arcQalu fn (c.reg rs1) (c.reg rs2))

def execArcQmul (i : ArcIssue) (rd rs1 rs2 : ArcReg) (s : State) : Host.Outcome State Fault Refusal :=
  s.on fun d => d.arcIssue i fun c d =>
    d.arcRes i.eng rd (sat32 (roundShift (qval (c.reg rs1) * qval (c.reg rs2)) 31))

/-- The new value of an accumulator: the product, rounded to 2^-60, added, subtracted or stored (R182). -/
def arcQmac (fn : Fin 3) (x : Int) (a b : Word) : DWord × Raised :=
  let p := roundShift (qval a * qval b) 2
  match fn with
  | 0 => sat64 (x + p)
  | 1 => sat64 (x - p)
  | 2 => sat64 p

def execArcQmac (i : ArcIssue) (fn : Fin 3) (x : Fin 16) (rs1 rs2 : ArcReg) (s : State) :
    Host.Outcome State Fault Refusal :=
  s.on fun d => d.arcIssue i fun c d =>
    let r := arcQmac fn (c.acc x) (c.reg rs1) (c.reg rs2)
    ((d.arcPut i.eng (accPair x).1 (r.1.setWidth 32)).arcPut i.eng (accPair x).2 ((r.1 >>> 32).setWidth 32)).arcRaise i.eng r.2

def execArcQrnd (i : ArcIssue) (sh : BitVec 2) (rd : ArcReg) (x : Fin 16) (s : State) : Host.Outcome State Fault Refusal :=
  s.on fun d => d.arcIssue i fun c d => d.arcRes i.eng rd (sat32 (roundShift (c.acc x * 2 ^ sh.toNat) 29))

/-- QSCL by 2^s for a signed s; a right shift rounds (R183). -/
def arcQscl (s : BitVec 5) (a : Word) : Word × Raised :=
  if s.toInt < 0 then sat32 (roundShift (qval a) (-s.toInt).toNat) else sat32 (qval a * 2 ^ s.toInt.toNat)

def execArcQscl (i : ArcIssue) (sc : BitVec 5) (rd rs1 : ArcReg) (s : State) : Host.Outcome State Fault Refusal :=
  s.on fun d => d.arcIssue i fun c d => d.arcRes i.eng rd (arcQscl sc (c.reg rs1))

/-! ## FP32 (R184) -/

def arcFalu (fn : Fin 7) (a b : Word) : Word × Raised :=
  match fn with
  | 0 => fadd a b
  | 1 => fsub a b
  | 2 => fmul a b
  | 3 => fmin a b
  | 4 => fmax a b
  | 5 => fabs a
  | 6 => fneg a

def execArcFalu (i : ArcIssue) (fn : Fin 7) (rd rs1 rs2 : ArcReg) (s : State) : Host.Outcome State Fault Refusal :=
  s.on fun d => d.arcIssue i fun c d => d.arcRes i.eng rd (arcFalu fn (c.reg rs1) (c.reg rs2))

def execArcFmac (i : ArcIssue) (sub : Bool) (rd rs1 rs2 : ArcReg) (s : State) : Host.Outcome State Fault Refusal :=
  s.on fun d => d.arcIssue i fun c d => d.arcRes i.eng rd (ffma sub (c.reg rs1) (c.reg rs2) (c.reg rd))

/-- FRCP: which value within the stated error an engine gives is left open, one value for each operand (log 3). -/
def execArcFrcp (i : ArcIssue) (rd rs1 : ArcReg) (s : State) : Host.Outcome State Fault Refusal :=
  s.on fun d => d.arcIssue i fun c d =>
    d.arcRes i.eng rd (frcp (Config.freeOf 0 (c.reg rs1).toNat) (c.reg rs1))

def arcFcvt (fn : Fin 4) (a : Word) : Word × Raised :=
  match fn with
  | 0 => fltAt (qval a) 31
  | 1 => fixAt false a 31
  | 2 => fltAt a.toInt 0
  | 3 => fixAt true a 0

def execArcFcvt (i : ArcIssue) (fn : Fin 4) (rd rs1 : ArcReg) (s : State) : Host.Outcome State Fault Refusal :=
  s.on fun d => d.arcIssue i fun c d => d.arcRes i.eng rd (arcFcvt fn (c.reg rs1))

/-! ## Filters and control (R185 to R191) -/

/-- BIQ, its terms taken in the written order and each product with the sum before it rounded once (DESIGN CHOICE, log 32): y, s1, s2 and
the flags. -/
def biquad (b0 b1 b2 a1 a2 s1 s2 x : Word) : (Word × Word × Word) × Raised :=
  let y := ffma false b0 x s1
  let t := fmul b1 x
  let v := ffma true a1 y.1 t.1
  let n1 := fadd v.1 s2
  let u := fmul b2 x
  let n2 := ffma true a2 y.1 u.1
  ((y.1, n1.1, n2.1), (y.2.or (t.2.or v.2)).or ((n1.2.or u.2).or n2.2))

/-- BIQ: rd by its equation, and both states in the completion cycle, 8 cycles on (R182, R185). -/
def execArcBiq (i : ArcIssue) (rd : ArcReg) (cblk sblk : BitVec 8) (s : State) : Host.Outcome State Fault Refusal :=
  s.on fun d => d.arcIssue i fun c d =>
    let k (j : Nat) : Word := d.arcCoef i.eng c (8 * cblk.toNat + j)
    let q := 4 * sblk.toNat
    let r := biquad (k 0) (k 1) (k 2) (k 3) (k 4) (c.word q) (c.word (q + 1)) (c.reg rd)
    let t := i.cycle + 8
    (((d.arcPutLater i.eng t q r.1.2.1).arcPutLater i.eng t (q + 1) r.1.2.2).arcPut i.eng rd r.1.1).arcRaise i.eng r.2

/-- LL: y and the new state (R185). -/
def leadLag (k0 k1 p st x : Word) : (Word × Word) × Raised :=
  let y := ffma false k0 x st
  let t := fmul k1 x
  let n := ffma true p y.1 t.1
  ((y.1, n.1), (y.2.or t.2).or n.2)

/-- LL: rd by its equation, and the state in the completion cycle, 6 cycles on (R182, R185). -/
def execArcLl (i : ArcIssue) (rd : ArcReg) (cblk sblk : BitVec 8) (s : State) : Host.Outcome State Fault Refusal :=
  s.on fun d => d.arcIssue i fun c d =>
    let k (j : Nat) : Word := d.arcCoef i.eng c (8 * cblk.toNat + j)
    let q := 4 * sblk.toNat
    let r := leadLag (k 0) (k 1) (k 2) (c.word q) (c.reg rd)
    ((d.arcPutLater i.eng (i.cycle + 6) q r.1.2).arcPut i.eng rd r.1.1).arcRaise i.eng r.2

/-- INTEG: rd + rs1 × rs2, or rd as it was while its clamp bit is 1 (R186). -/
def execArcInteg (i : ArcIssue) (cl : Fin 8) (rd rs1 rs2 : ArcReg) (s : State) : Host.Outcome State Fault Refusal :=
  s.on fun d => d.arcIssue i fun c d =>
    if c.clamp.getLsbD cl then d else d.arcRes i.eng rd (ffma false (c.reg rs1) (c.reg rs2) (c.reg rd))

/-- CLAMP: max(min(rd, rs2), rs1), and whether a limit acted (R182); a NaN counts as +0 with NAN set (R184; log 20). -/
def arcClamp (int : Bool) (x lo hi : Word) : Word × Bool :=
  if int then
    let m := if hi.slt x then hi else x
    let r := if m.slt lo then lo else m
    (r, hi.slt x || m.slt lo)
  else
    let m := if (fltOf hi).lt (fltOf x) then hi else x
    let r := if (fltOf m).lt (fltOf lo) then lo else m
    (fclean r, (fltOf hi).lt (fltOf x) || (fltOf m).lt (fltOf lo))

def execArcClamp (i : ArcIssue) (int : Bool) (cl : Fin 8) (rd rs1 rs2 : ArcReg) (s : State) :
    Host.Outcome State Fault Refusal :=
  s.on fun d => d.arcIssue i fun c d =>
    let r := arcClamp int (c.reg rd) (c.reg rs1) (c.reg rs2)
    let d := (d.arcPut i.eng rd r.1).arcPutClamp i.eng cl r.2
    d.when (!int) fun d => d.arcRaise i.eng (nanOf [c.reg rd, c.reg rs1, c.reg rs2])

/-- PRESET: rs1 - rs2; the bumpless form acts only while its arm bit is 1 and its clamp bit 0, and clears the arm bit
(R187). -/
def execArcPreset (i : ArcIssue) (bumpless : Bool) (cl : Fin 8) (rd rs1 rs2 : ArcReg) (s : State) :
    Host.Outcome State Fault Refusal :=
  s.on fun d => d.arcIssue i fun c d =>
    let r := fsub (c.reg rs1) (c.reg rs2)
    if !bumpless then d.arcRes i.eng rd r
    else if c.arm.getLsbD cl && !c.clamp.getLsbD cl then
      (d.arcRes i.eng rd r).onEng i.eng fun a => { a with ctx := { a.ctx with arm := setBit8 a.ctx.arm cl false } }
    else d

def execArcFfv (i : ArcIssue) (rd rs1 rs2 : ArcReg) (s : State) : Host.Outcome State Fault Refusal :=
  s.on fun d => d.arcIssue i fun c d => d.arcRes i.eng rd (ffv (c.reg rd) (c.reg rs1) (c.reg rs2))

/-- FFA: rd + rs1 × the acceleration of a profiler channel, latched at the tick of the period; channel 7 reads 0
(R191). -/
def execArcFfa (i : ArcIssue) (ch : Fin 8) (rd rs1 : ArcReg) (s : State) : Host.Outcome State Fault Refusal :=
  s.on fun d => d.arcIssue i fun c d =>
    let a := Tab.get zeroWord (d.arcPair (d.runsFor i.eng)).acc ch
    d.arcRes i.eng rd (ffma false (c.reg rs1) a (c.reg rd))

/-! ## Memories (R182) -/

def execArcLdc (i : ArcIssue) (rd : ArcReg) (w : BitVec 11) (s : State) : Host.Outcome State Fault Refusal :=
  s.on fun d => d.arcIssue i fun c d => d.arcPut i.eng rd (d.arcCoef i.eng c w.toNat)

def execArcLds (i : ArcIssue) (rd : ArcReg) (w : BitVec 10) (s : State) : Host.Outcome State Fault Refusal :=
  s.on fun d => d.arcIssue i fun c d => d.arcPut i.eng rd (c.word w.toNat)

def execArcSts (i : ArcIssue) (rd : ArcReg) (w : BitVec 10) (s : State) : Host.Outcome State Fault Refusal :=
  s.on fun d => d.arcIssue i fun c d => d.arcPutWord i.eng w.toNat (c.reg rd)

def execArcLdcx (i : ArcIssue) (rd rs1 : ArcReg) (s : State) : Host.Outcome State Fault Refusal :=
  s.on fun d => d.arcIssue i fun c d => d.arcPut i.eng rd (d.arcCoef i.eng c ((c.reg rs1).toNat % 2048))

def execArcLdsx (i : ArcIssue) (rd rs1 : ArcReg) (s : State) : Host.Outcome State Fault Refusal :=
  s.on fun d => d.arcIssue i fun c d => d.arcPut i.eng rd (c.word ((c.reg rs1).toNat % 1024))

def execArcStsx (i : ArcIssue) (rs1 rs2 : ArcReg) (s : State) : Host.Outcome State Fault Refusal :=
  s.on fun d => d.arcIssue i fun c d => d.arcPutWord i.eng ((c.reg rs1).toNat % 1024) (c.reg rs2)

/-! ## Input ports (R192, R212) -/

/-- FP32 of a raw code. -/
def rawCode (n : Nat) : Word := fltInt n

/-- The stale mask of a head's monitors: HI in bits 9 to 0, LO in bits 25 to 16. -/
def Dev.staleMask (d : Dev) (h : Nat) : Nat :=
  (List.range 10).foldl (fun acc b =>
    acc + (if (Tab.get (fun _ => (0, true)) (d.wps h).hi b).2 then 2 ^ b else 0)
      + (if (Tab.get (fun _ => (0, true)) (d.wps h).lo b).2 then 2 ^ (16 + b) else 0)) 0

/-- A converter port, none for a port of the latched class. -/
def Dev.converterPort (d : Dev) (port : Nat) : Option Word :=
  if port < 0x100 then
    let h := port / 0x80
    let q := port % 0x80
    if q < 0x20 then some (rawCode (((d.head h).spd[q]?.getD 0).toNat))
    else if 0x20 ≤ q ∧ q < 0x2a then some (rawCode (Tab.get (fun _ => (0, true)) (d.wps h).hi (q - 0x20)).1)
    else if 0x30 ≤ q ∧ q < 0x3a then some (rawCode (Tab.get (fun _ => (0, true)) (d.wps h).lo (q - 0x30)).1)
    else if q = 0x3a then some (BitVec.ofNat 32 (d.staleMask h))
    else none
  else if port ≤ 0x10c then some (rawCode (Tab.get (fun _ => 0) d.mot.conv port))
  else none

/-- What a port of the latched class holds at a tick: head ports for both heads, and the motor ports; a beam's bursts are those of the
slice that serves it. -/
def Dev.latchedPort (d : Dev) (p port : Nat) : Word :=
  if port < 0x100 then
    let h := port / 0x80
    let q := port % 0x80
    if q = 0x3b then d.reg (Adr.SRV_DEFECT h)
    else if q = 0x3c then d.reg (Adr.SRV_SHIFT h)
    else if q = 0x3d then BitVec.ofNat 32 (Tab.get (fun _ => 0) (d.arcPair p).wedges h)
    else if 0x40 ≤ q ∧ q ≤ 0x67 then 
      match d.sliceOfBeam h ((q - 0x40) / 4) with
      | some n => rawCode (Tab.get (fun _ => 0) (d.head h).bursts (4 * (n % 10) + q % 4))
      | none => 0
    else 0
  else if port = 0x110 then BitVec.ofNat 32 (d.mot.spn.theta / 65536 % 65536)
  else if port = 0x111 then d.mot.spn.speed
  else if port = 0x112 then
    BitVec.ofNat 32 (d.fld Fld.MOT_STATUS_SPN_STATE + 16 * d.mot.spn.synced.toNat
      + 32 * d.fld Fld.MOT_CTRL_REGEN_INHIBIT + 64 * (d.mot.spn.floated % 4) + 256 * d.mot.spn.handover.toNat)
  else if 0x118 ≤ port ∧ port ≤ 0x11b then
    let s := Tab.get (fun _ => {}) d.mot.sleds ((port - 0x118) / 2)
    if port % 2 = 0 then s.refA else s.refB
  else if port = 0x11c then
    let sl (h : Nat) : SledSt := Tab.get (fun _ => {}) d.mot.sleds h
    BitVec.ofNat 32 (d.fld (Fld.SLD_STATUS_MODE 0) + 16 * d.fld (Fld.SLD_STATUS_MODE 1)
      + 256 * (sl 0).hold.toNat + 512 * (sl 1).hold.toNat)
  else if 0x120 ≤ port ∧ port ≤ 0x126 then
    fltRatio (Tab.get (fun _ => {}) d.mot.prf (port - 0x120) : PrfSt).p 65536
  else 0

/-- The numbers of the latched ports. -/
def latchedPorts : List Nat :=
  (([0, 0x80].map fun o => [o + 0x3b, o + 0x3c, o + 0x3d] ++ (List.range 40).map (o + 0x40 + ·)).flatten)
    ++ [0x110, 0x111, 0x112, 0x118, 0x119, 0x11a, 0x11b, 0x11c] ++ (List.range 7).map (0x120 + ·)

/-- The numbers of the converter ports. -/
def converterPorts : List Nat :=
  (([0, 0x80].map fun o => ((List.range 32) ++ (List.range 10).map (0x20 + ·) ++ (List.range 10).map (0x30 + ·) ++ [0x3a]).map (o + ·)).flatten)
    ++ (List.range 13).map (0x100 + ·)

/-- The input ports and the accelerations take their values for the period: the converter ports those of the conversions on the tick at
which it begins (R155, R176, R191; log 137). -/
def Dev.latchPorts (d : Dev) (p : Nat) : Dev :=
  let ports := latchedPorts.foldl (fun t q => Tab.set zeroWord t q (d.latchedPort p q)) []
  let ports := converterPorts.foldl (fun t q => Tab.set zeroWord t q ((d.converterPort q).getD 0)) ports
  let acc := (List.range 7).foldl (fun t c => Tab.set zeroWord t c (Tab.get (fun _ => {}) d.mot.prf c : PrfSt).acc) []
  d.onPair p fun s => { s with latched := ports, acc := acc, wedges := [] }

/-- SAMPLE: every port gives what it holds for the period (R176, R192). -/
def execArcSample (i : ArcIssue) (rd : ArcReg) (port : BitVec 9) (s : State) : Host.Outcome State Fault Refusal :=
  s.on fun d => d.arcIssue i fun _ d =>
    d.arcPut i.eng rd (Tab.get zeroWord (d.arcPair (d.runsFor i.eng)).latched port.toNat)

/-- MFS: the period count, PHASE, the active bank, or SWAPPED (R182). -/
def execArcMfs (i : ArcIssue) (rd : ArcReg) (k : Fin 4) (s : State) : Host.Outcome State Fault Refusal :=
  s.on fun d => d.arcIssue i fun c d =>
    d.arcPut i.eng rd (BitVec.ofNat 32 (match k with
      | 0 => c.pcnt
      | 1 => c.phase
      | 2 => c.bank.val
      | 3 => (d.arcEng i.eng).swapped.toNat))

end Sys2Proof.Machine
end

