-- ==== Sys2Proof/Machine/ArcPair.lean ====
section
/-! DEFINITION. Pairs of Arc engines: the compare unit, output ports, events, period boundaries, takeovers and
hand-overs (R175 to R178, R188, R189, R193, R196, R199 to R207, R487). -/

namespace Sys2Proof.Machine

/-! ## Spindle outputs that a pair drives (R211, R213) -/

/-- States of the spindle (MOT_STATUS.SPN_STATE). -/
def spnOff : Nat := 0
def spnMeasure : Nat := 1
def spnRevBrake : Nat := 2
def spnProbe : Nat := 3
def spnKick : Nat := 4
def spnStep6 : Nat := 5
def spnFoc : Nat := 6
def spnShort : Nat := 7
def spnCoast : Nat := 8
def spnStopping : Nat := 9

def Dev.spnState (d : Dev) : Nat := d.fld Fld.MOT_STATUS_SPN_STATE

def Dev.setSpn (d : Dev) (st : Nat) : Dev := d.put Fld.MOT_STATUS_SPN_STATE st

/-- The spindle's state changed by g. -/
def Dev.onSpn (d : Dev) (g : SpindleSt → SpindleSt) : Dev := { d with mot := { d.mot with spn := g d.mot.spn } }

/-- The program governs the spindle outputs (R211). -/
def Dev.programGoverns (d : Dev) : Bool :=
  (d.spnState == spnStep6 || d.spnState == spnFoc || d.spnState == spnStopping) && !d.mot.spn.short
    && d.bit Fld.MOT_CTRL_SPN_EN

/-- Every spindle switch off: the duties and the drive mode are 0, and no high pulse goes on (R211, R480). -/
def Dev.spnSwitchesOff (d : Dev) : Dev :=
  let d := { d with mot := { d.mot with pulses := d.mot.pulses.filter fun e => 3 ≤ e.1 } }
  let d := { d with arc := { d.arc with
    ports := [0x100, 0x101, 0x102, 0x103].foldl (fun t q => Tab.set (fun _ => 0) t q 0) d.arc.ports } }
  d.onSpn fun s => { s with
    short := false, synced := false, floated := 0, handover := false, handoverNext := false, commute := none }

/-- The spindle coasts (R229, R480). -/
def Dev.spnCoasts (d : Dev) : Dev := d.spnSwitchesOff.setSpn spnCoast

/-! ## Output ports (R193, R213) -/

/-- The value at an output port. -/
def Dev.outPort (d : Dev) (q : Nat) : Int := Tab.get (fun _ => 0) d.arc.ports q

def Dev.setPort (d : Dev) (q : Nat) (v : Int) : Dev :=
  { d with arc := { d.arc with ports := Tab.set (fun _ => 0) d.arc.ports q v } }

/-! ## Pulse-width modulation (R208, R209, R211, R213) -/

/-- What drives a spindle half-bridge: no switch, the low side, the low side for a part of the period, or a duty; in 1/10,000. -/
inductive PhaseDrive where
  | off | low
  | brake (d : Nat)
  | duty (d : Nat)
  deriving DecidableEq, Repr

/-- Six-step state n, whose vector lies at 30° + 60° n: the phase driven, U, V, W as 0, 1, 2, with the other at its low side (R219). -/
def stepPhases (n : Nat) : Nat × Nat :=
  match n % 6 with
  | 0 => (0, 2)
  | 1 => (1, 2)
  | 2 => (1, 0)
  | 3 => (2, 0)
  | 4 => (2, 1)
  | _ => (0, 1)

/-- A phase in a six-step state at a duty. -/
def stepDrive (n k d : Nat) : PhaseDrive := if (stepPhases n).1 = k then .duty d else if (stepPhases n).2 = k then .low else .off

/-- The six-step state whose torque angle to an estimate in degrees lies closest to 90° (R219). -/
def kickState (deg : Nat) : Nat := (deg + 90) / 60 % 6

/-- KICK_DUTY in 1/10,000. -/
def Dev.kickDuty (d : Dev) : Nat := d.fld Fld.SPN_START_CFG_KICK_DUTY * 10000 / 256

/-- A phase as its sources drive it, the highest of them first (R211): a stage that is off or an OV2 trip, a winding short, the current limit, the
sequencer, the program; the phase floated in a window of FOC is off whatever the program asks for (R221). Between its pulses the probe holds
every low side on (R218); that sector n of STEP6 is six-step state n is a choice (DESIGN CHOICE, log 150). -/
def Dev.phaseDrive (d : Dev) (k : Nat) : PhaseDrive :=
  let s := d.mot.spn
  let st := d.spnState
  let port (q : Nat) : Nat := (d.outPort q).toNat
  if !d.bit Fld.MOT_CTRL_SPN_EN ∨ (st = spnCoast ∧ d.bit Fld.MOT_STATUS_OV2) then .off
  else if s.short then .low
  else if st = spnCoast ∨ st = spnOff then .off
  else if s.cut.contains k then .low
  else if st = spnMeasure then .off
  else if st = spnProbe then (if s.zeroVector ∧ k = 0 then .duty d.kickDuty else .low)
  else if st = spnKick then stepDrive (kickState (d.fld Fld.SPN_PROBE_ANGLE)) k d.kickDuty
  else if st = spnFoc ∧ s.floated = k + 1 then .off
  else if port 0x103 = 0 then .off
  else if port 0x103 = 2 then .brake (port 0x100)
  else if st = spnStep6 then stepDrive s.sector k (port 0x100)
  else .duty (port (0x100 + k))

/-- The high pulse of n CORE cycles about a top, before and after it: DEAD cycles with both switches off precede it, and one shorter than MIN_PULSE
× 8 is not sent (R208; log 150). -/
def Dev.pulseParts (d : Dev) (n : Nat) : Nat × Nat :=
  if 20000 ≤ n then (10000, 10000)
  else
    let up := (n - n / 2) - d.fld Fld.MOT_PWM_CFG_DEAD
    if up + n / 2 < 8 * d.fld Fld.MOT_PWM_CFG_MIN_PULSE then (0, 0) else (up, n / 2)

/-- The pulse of half-bridge k: twice its duty, or for a sled's signed duty s twice (1 ± s)/2 (R208, R209). -/
def Dev.pulseOf (d : Dev) (k : Nat) : Nat × Nat :=
  if k < 3 then
    match d.phaseDrive k with
    | .duty n => d.pulseParts (2 * n)
    | _ => (0, 0)
  else
    let h := (k - 3) / 4
    let v := d.outPort (0x104 + (k - 3) / 2)
    if d.bit (if h = 0 then Fld.MOT_CTRL_SLDA_EN else Fld.MOT_CTRL_SLDB_EN) then
      d.pulseParts (10000 + (if (k - 3) % 2 = 0 then v else -v)).toNat
    else (0, 0)

def noPulse (_ : Nat) : Nat × Nat := (0, 0)

/-- A duty loaded now shapes the edges of half-bridge k that the counter has yet to reach: before the top the whole pulse where it has not begun,
else its end; after the top its end. A compare point that is passed is not revisited (R208). -/
def Dev.reshape (d : Dev) (k : Nat) : Dev :=
  let old := Tab.get noPulse d.mot.pulses k
  let new := d.pulseOf k
  let c := d.mot.now
  let p : Nat × Nat :=
    if d.mot.pwmTop then (if old.2 ≤ c then old else (old.1, if new.2 ≤ c then 10000 else new.2))
    else if 0 < old.1 ∧ 10000 ≤ old.1 + c then (old.1, new.2)
    else if 10000 ≤ new.1 + c then (0, 0)
    else new
  { d with mot := { d.mot with pulses := Tab.set noPulse d.mot.pulses k p } }

/-- The half-bridges that an output port shapes. -/
def portBridges (port : Nat) : List Nat :=
  if 0x100 ≤ port ∧ port ≤ 0x103 then [0, 1, 2]
  else if 0x104 ≤ port ∧ port ≤ 0x107 then [3 + 2 * (port - 0x104), 4 + 2 * (port - 0x104)] else []

/-- A motor port takes a value, which its half-bridges load (R208, R213). -/
def Dev.setDrive (d : Dev) (q : Nat) (v : Int) : Dev := (d.setPort q v).each (portBridges q) fun d k => d.reshape k

/-- A level DAC of a beam; one of a beam that is stuck on, or during a hardware trip, keeps 0; in KD mode only those of B4 of WPA are
driven (R150, R151, R193, R446). While OPC drives DAC A, the level is kept for its end (R146). -/
def Dev.setLevel (d : Dev) (h b : Nat) (second : Bool) (v : Int) : Dev :=
  if (d.wps h).stuck.contains b || (d.wps h).trip || (d.mode == 2 && (h != 0 || b != 4)) then d
  else if second then d.put (Fld.WP_LVL_LEVEL_B h b) v.toNat
  else
    match (d.wps h).opc with
    | some o => if o.levels.any fun e => e.1 == b then
        d.onWp h fun s => { s with opc := some { o with levels := Tab.set (fun _ => 4096) o.levels b v.toNat } }
      else d.put (Fld.WP_LVL_LEVEL_A h b) v.toNat
    | none => d.put (Fld.WP_LVL_LEVEL_A h b) v.toNat

/-- A forwarded EMIT reaches its port: rounded to nearest even and saturated to the port's range (R193, R213); in KD mode every deflector is held
at 0 (R172). -/
def Dev.portWrite (d : Dev) (port : Nat) (w : Word) : Dev :=
  if port < 0x100 then
    let h := port / 0x80
    let q := port % 0x80
    if q ≤ 1 then d.setPort port (portInt w (-32767) 32767)
    else if q = 2 then d.setPort port (portInt w (-2047) 2047)
    else if 0x10 ≤ q ∧ q < 0x1a then d.when (d.mode != 2) fun d => d.setPort port (portInt w (-8192) 8191)
    else if 0x20 ≤ q ∧ q < 0x2a then
      let v := portInt w 0 4095
      (d.setPort port v).setLevel h (q - 0x20) false v
    else if 0x30 ≤ q ∧ q < 0x3a then
      let v := portInt w 0 4095
      (d.setPort port v).setLevel h (q - 0x30) true v
    else if q = 0x40 then
      let v := portInt w (-32768) 32767
      (d.setPort port v).guardTrack h v
    else if q = 0x41 then
      let v := portInt w (-32768) 32767
      (d.setPort port v).guardFocus h v
    else if 0x50 ≤ q ∧ q < 0x5a then
      let v := portInt w (-32768) 32767
      (((d.setPort port v).put (Fld.SRV_REG_ERR h (q - 0x50)) (codeOf 16 v)).putBit (Fld.SRV_REG_VALID h (q - 0x50)) true).guardReg
        h (q - 0x50) v
    else if 0x60 ≤ q ∧ q < 0x6a then
      let v := portInt w (-128) 127
      (d.setPort port v).put (Fld.SRV_REG_TRIM h (q - 0x60)) (codeOf 8 v)
    else if q = 0x6f then d.setPort port w.toNat
    else d
  else if port ≤ 0x102 then d.when d.programGoverns fun d => d.setDrive port (portInt (fmul w (fltInt 10000)).1 0 10000)
  else if port = 0x103 then
    d.when d.programGoverns fun d =>
      let v := portInt w (-2147483648) 2147483647
      d.setDrive port (if v = 1 ∨ v = 2 then v else 0)
  else if port ≤ 0x105 then
    d.when (d.bit Fld.MOT_CTRL_SLDA_EN) fun d => d.setDrive port (portInt (fmul w (fltInt 10000)).1 (-10000) 10000)
  else if port ≤ 0x107 then
    d.when (d.bit Fld.MOT_CTRL_SLDB_EN) fun d => d.setDrive port (portInt (fmul w (fltInt 10000)).1 (-10000) 10000)
  else d

/-! ## Engines of a pair -/

/-- Roles of an engine (ARCn_CTRL.ROLE). -/
def roleOff : Nat := 0
def roleLead : Nat := 1
def roleCheck : Nat := 2
def roleSpare : Nat := 3

/-- An engine in service. -/
def Dev.arcUp (d : Dev) (e : Nat) : Bool := d.maskBit Fld.ARC_INSERVICE_MASK e

/-- The engines that hold a role in a pair, lead first. -/
def Dev.pairEngines (d : Dev) (p : Nat) : List Nat :=
  let l := (List.range 8).filter fun e => d.pairOf e == p
  l.filter (fun e => d.fld (Fld.ARC_CTRL_ROLE e) == roleLead) ++ l.filter fun e => d.fld (Fld.ARC_CTRL_ROLE e) == roleCheck

/-- The engines whose outputs the compare unit compares: the pair, and the third voter of a voting period. -/
def Dev.voters (d : Dev) (p : Nat) : List Nat :=
  d.pairEngines p ++ (match (d.arcPair p).takeover with
    | some t => if t.voting then t.spare.toList else []
    | none => [])

/-- The pair runs a program. -/
def Dev.pairRuns (d : Dev) (p : Nat) : Bool := (d.pairEngines p).any fun e => d.bit (Fld.ARC_STATUS_RUNNING e)

/-- The pair has failed (R487). -/
def Dev.pairFailed (d : Dev) (p : Nat) : Bool := (d.pairEngines p).any fun e => d.bit (Fld.ARC_STATUS_PAIR_FAILED e)

/-- A one-bit field of every engine of a pair. -/
def Dev.eachEngine (d : Dev) (p : Nat) (f : Nat → Field) (b : Bool) : Dev :=
  d.each (d.pairEngines p) fun d e => d.putBit (f e) b

/-- A counter of every engine of a pair. -/
def Dev.countEngines (d : Dev) (p k : Nat) : Dev := d.each (d.pairEngines p) fun d e => d.count (Adr.ARC_CNT e k)

/-! ## Events (R205, R206) -/

/-- Entries of a pair's event FIFO. -/
def arcFifoDepth : Nat := 32

/-- A record enters the FIFO with its ESN, or is lost; CNT6 and CNT7 of the lead engine count it: R207 does not say which engine of the pair
(R205, R207; DESIGN CHOICE, log 163). -/
def Dev.arcRecord (d : Dev) (p code : Nat) (v : Word) : Dev :=
  let lead := (d.pairEngines p).headD 0
  if (d.arcPair p).fifo.length < arcFifoDepth then
    let r : ArcRecord := ⟨d.esn, lead, code, v⟩
    ((d.event .arcRecord p code [lead, v.toNat]).onPair p fun s => { s with fifo := s.fifo ++ [r] }).count (Adr.ARC_CNT lead 6)
  else
    (((d.eachEngine p Fld.ARC_STATUS_EVT_LOST true).onPair p fun s => { s with lost := true })).count (Adr.ARC_CNT lead 7)

/-- The field that a status write may change, none for a bit that its target does not open (R206). -/
def statusField (target bit : Nat) : Option Field :=
  if target = 0 ∧ bit = 4 then some (Fld.SRV_STATUS_FOCUS_ALT 0)
  else if target = 1 ∧ bit = 4 then some (Fld.SRV_STATUS_FOCUS_ALT 1)
  else if target = 2 ∧ bit < 10 then some (Fld.SRV_REG_PARITY_ERR 0 bit)
  else if target = 3 ∧ bit < 10 then some (Fld.SRV_REG_PARITY_ERR 1 bit)
  else if target = 4 ∧ 24 ≤ bit ∧ bit ≤ 27 then some ⟨Adr.MOT_STATUS, bit, 1⟩
  else none

/-- A forwarded EVENT: a record, or a status write, which posts its record only when its bit changes; a registration parity error that it sets is
counted (R173, R205, R206). -/
def Dev.arcEvent (d : Dev) (p code : Nat) (v : Word) : Dev :=
  if code < 0x600 then d.arcRecord p code v
  else
    match statusField (code / 32 % 8) (code % 32) with
    | none => d
    | some f =>
      let b := code / 256 % 2 == 1
      let t := code / 32 % 8
      if d.bit f == b then d
      else ((d.putBit f b).when (b && (t == 2 || t == 3)) fun d => d.count (Adr.SRV_CNT (t - 2) 7)).arcRecord p code v

/-! ## Takeovers (R199 to R203) -/

/-- An engine is at work as a spare: in a takeover, or as the IN of a hand-over. -/
def Dev.spareBusy (d : Dev) (e : Nat) : Bool := (List.range 3).any fun p =>
  d.arcSpareFor p e || (match (d.arcPair p).handover with
    | some (_, inn, _) => inn == e
    | none => false)

/-- An engine in service that is a spare and at no work. -/
def Dev.spareFree (d : Dev) (e : Nat) : Bool :=
  d.arcUp e && (d.fld (Fld.ARC_CTRL_ROLE e) == roleSpare || d.fld (Fld.ARC_CTRL_ROLE e) == roleOff) && !d.spareBusy e

/-- The first in-service spare of ARC_SPARE that no other takeover uses (R201). -/
def Dev.arcSpare (d : Dev) : Option Nat := [d.fld Fld.ARC_SPARE_FIRST, d.fld Fld.ARC_SPARE_SECOND].find? d.spareFree

/-- MISMATCH is set, counted and reported by 0x5f0; its value word is 0, as the spec gives a number for 0x5f3 only (R202, R207; DESIGN CHOICE,
log 163). -/
def Dev.mismatchFound (d : Dev) (p : Nat) : Dev :=
  ((d.eachEngine p Fld.ARC_STATUS_MISMATCH true).countEngines p 2).arcRecord p 0x5f0 0

/-- A disagreement in a voting period: it belongs to the takeover in progress, and is a hand-over's first detection; the majority still goes out,
but in the re-run of a pair alone nothing more does (R199, R202 to R204). -/
def Dev.furtherMismatch (d : Dev) (p : Nat) (t : ArcTakeover) : Dev :=
  if !t.voting then d
  else
    let d := d.when (t.handover && !t.again) fun d => d.mismatchFound p
    d.onPair p fun s => { s with takeover := some { t with again := true }, quiet := s.quiet || t.spare.isNone }

/-- A mismatch of a pair: nothing more is forwarded in the period, and a takeover begins; within a takeover it is part of that takeover (R199,
R201, R202, R203). Engines of the pair, and its spare, that report an error are noted for the time of the takeover. -/
def Dev.arcMismatch (d : Dev) (p : Nat) (report : List Nat) : Dev :=
  if !d.pairRuns p || d.pairFailed p || (d.pairEngines p).length < 2 then d
  else
    let mine := report.filter fun e => (d.pairEngines p).contains e || d.arcSpareFor p e
    let d := d.each mine fun d e => d.onEng e fun a => { a with reported := true }
    match (d.arcPair p).takeover with
    | some t => d.furtherMismatch p t
    | none =>
      let spare := d.arcSpare
      (d.mismatchFound p).onPair p fun s => { s with quiet := true, takeover := some { spare := spare } }

/-- ARC_MISMATCH: the compare unit finds a disagreement; the engines that report a parity or memory error are named
(R199, R203). -/
def execArcMismatch (p : ArcPair) (report : List ArcEng) (s : State) : Host.Outcome State Fault Refusal :=
  s.on fun d => d.arcMismatch p (report.map (·.val))

/-- The checkpoint enters an engine; its program and banks are the pair's (R201). -/
def Dev.loadCheckpoint (d : Dev) (p e : Nat) : Dev :=
  let ps := d.arcPair p
  let coef := match ps.image with
    | some im => im.coef
    | none => []
  let swapped := (d.arcEng ((d.pairEngines p).headD e)).swapped
  d.onEng e fun a => { a with ctx := ps.ckpt, snap := ps.ckpt, due := [], coef := coef, sig := [], posts := [], idle := true,
                              swapped := swapped }

/-- ARC_CHECKPOINT_LOADED: the image copy and the checkpoint load end (R200, R201). -/
def execArcCheckpointLoaded (p : ArcPair) (s : State) : Host.Outcome State Fault Refusal :=
  s.on fun d =>
    match (d.arcPair p).takeover with
    | none => d
    | some t =>
      if t.loaded then d
      else
        let d := d.each (d.pairEngines p ++ t.spare.toList) fun d e => d.loadCheckpoint p e
        d.onPair p fun s => { s with takeover := some { t with loaded := true } }

/-- The level DACs that a program drives, as EMIT ports of its code (R193, R487). -/
def ArcImage.levelPorts (im : ArcImage) : List Nat :=
  ((im.code.filter fun w => w.toNat / 2 ^ 26 == 0x29).map fun w => w.toNat % 512).filter fun q =>
    q < 0x100 && ((0x20 ≤ q % 0x80 && q % 0x80 < 0x2a) || (0x30 ≤ q % 0x80 && q % 0x80 < 0x3a))

/-- The loader's operation has ended. -/
def Dev.loaderDone (d : Dev) : Dev := (d.putBit Fld.ARC_LDR_STATUS_DONE true).putBit Fld.ARC_LDR_STATUS_BUSY false

/-- The loader's operation ends with a result. -/
def Dev.loaderEnds (d : Dev) (result : Nat) : Dev :=
  let d := { d with arc := { d.arc with loading := none } }
  (d.put Fld.ARC_LDR_STATUS_RESULT result).loaderDone

/-- PAIR_FAILED: the pair runs and forwards nothing, the motors that it drives go off and its level DACs to 0 (R202,
R203, R487). -/
def Dev.failPair (d : Dev) (p : Nat) : Dev :=
  let d := ((d.eachEngine p Fld.ARC_STATUS_PAIR_FAILED true).arcRecord p 0x5f4 0).cleanRestart
  let d := ((d.eachEngine p Fld.ARC_STATUS_RUNNING false).eachEngine p Fld.ARC_STATUS_VOTING false)
  let spare := ((d.arcPair p).takeover.bind fun t => t.spare).toList
  let d := d.each (d.pairEngines p ++ spare) fun d e => d.onEng e fun a => { a with reported := false }
  let d := d.each spare fun d e => d.putBit (Fld.ARC_STATUS_VOTING e) false
  let d := d.when (d.arcPair p).handover.isSome Dev.loaderDone
  let d := d.onPair p fun s => { s with
    takeover := none, handover := none, quiet := true, tested := (d.pairEngines p ++ spare).eraseDups }
  match (d.arcPair p).image with
  | none => d
  | some im =>
    let d := d.when (im.bind / 4 % 2 == 1) fun d =>
      let d := d.when (d.spnState != spnOff) Dev.spnCoasts
      d.each [0x104, 0x105, 0x106, 0x107] fun d q => d.setDrive q 0
    d.each im.levelPorts fun d q =>
      (d.setPort q 0).put (if q % 0x80 < 0x30 then Fld.WP_LVL_LEVEL_A (q / 0x80) (q % 0x10)
        else Fld.WP_LVL_LEVEL_B (q / 0x80) (q % 0x10)) 0

/-- The class of the Arc engines (R372). -/
def arcClass : Nat := 7

/-- An engine retires (R202). -/
def Dev.arcRetire (d : Dev) (e : Nat) : Dev :=
  let cause := d.esn
  let d := (d.putMask Fld.ARC_INSERVICE_MASK e false).putMask Fld.ARC_FAULT_MASK e true
  let d := (d.putBit (Fld.ARC_STATUS_FAULT e) true).putBit (Fld.ARC_STATUS_RUNNING e) false
  let d := (d.put (Fld.ARC_CTRL_ROLE e) roleOff).putBit (Fld.ARC_CTRL_RUN e) false
  d.retireUnit arcClass e cause

/-- A spare takes the role of an engine of a pair, with its pending exchange, ZONE_ARM and the pair's registers (R202, R204). -/
def Dev.takeRole (d : Dev) (p out inn : Nat) : Dev :=
  let r := d.fld (Fld.ARC_CTRL_ROLE out)
  let copy (d : Dev) (a : Nat → Nat) : Dev := d.setReg (a inn) (d.reg (a out))
  let d := (copy (copy (copy d Adr.ARC_PERIOD) Adr.ARC_BOUND) Adr.ARC_IMAGE)
  let d := (d.put (Fld.ARC_CTRL_ROLE inn) r).put (Fld.ARC_CTRL_PAIR inn) p
  let d := (d.putBit (Fld.ARC_CTRL_RUN inn) true).putBit (Fld.ARC_STATUS_RUNNING inn) true
  let d := d.put (Fld.ARC_STATUS_BANK inn) (d.arcEng inn).ctx.bank
  let d := d.putBit (Fld.ARC_STATUS_SWAP_PENDING inn) (d.bit (Fld.ARC_STATUS_SWAP_PENDING out))
  let d := d.putBit (Fld.ARC_CTRL_ZONE_ARM inn) (d.bit (Fld.ARC_CTRL_ZONE_ARM out))
  let d := (d.putBit (Fld.ARC_STATUS_SWAP_PENDING out) false).putBit (Fld.ARC_CTRL_ZONE_ARM out) false
  (d.put (Fld.ARC_CTRL_ROLE out) roleSpare).putBit (Fld.ARC_STATUS_RUNNING out) false

/-- The values that the voters show at one place. -/
inductive Verdict where
  | agree
  | odd (e : Nat)
  | split
  deriving DecidableEq, Repr

/-- Verdict over the values of three voters at one place (R202). -/
def verdict3 {α : Type} [DecidableEq α] : List (Nat × α) → Verdict
  | [(a, x), (b, y), (c, z)] =>
    if x = y ∧ y = z then .agree else if x = y then .odd c else if x = z then .odd b else if y = z then .odd a else .split
  | [(_, x), (_, y)] => if x = y then .agree else .split
  | _ => .agree

/-- Two verdicts together: no single engine is in the minority when different ones are at different places. -/
def Verdict.and (a b : Verdict) : Verdict :=
  match a, b with
  | .agree, v => v
  | v, .agree => v
  | .odd x, .odd y => if x = y then .odd x else .split
  | _, _ => .split

/-- The verdict over every port, event and signature of the period; an engine that has not ended its period agrees with none (R199, R202). -/
def Dev.periodVerdict (d : Dev) (p : Nat) : Verdict :=
  let vs := (d.voters p).map fun e => (e, d.arcEng e)
  let n := (vs.map fun v => v.2.posts.length).foldl max 0
  let places := (List.range n).map fun i => verdict3 (vs.map fun v => (v.1, v.2.posts[i]?))
  places.foldl Verdict.and (verdict3 (vs.map fun v => (v.1, if v.2.idle then (v.2.sig, 8) else ([], v.1))))

/-- The takeover ends, and with it the reports of its engines; a hand-over ends with its own voting period (R202 to R204). -/
def Dev.endTakeover (d : Dev) (p : Nat) : Dev :=
  let spare := ((d.arcPair p).takeover.bind fun t => t.spare).toList
  let d := d.each (d.pairEngines p ++ spare) fun d e =>
    (d.onEng e fun a => { a with reported := false }).putBit (Fld.ARC_STATUS_VOTING e) false
  d.onPair p fun s => { s with takeover := none, handover := if s.takeover.any (·.handover) then none else s.handover }

/-- Counting of a takeover that ended with its spare; the value word of 0x5f1 is 0 (R202, R207; DESIGN CHOICE, log 163). -/
def Dev.takeoverDone (d : Dev) (p : Nat) : Dev :=
  ((d.eachEngine p Fld.ARC_STATUS_TAKEOVER true).countEngines p 3).arcRecord p 0x5f1 0

/-- A mismatch whose period, run again, agrees was a transient (R202, R203, R207). -/
def Dev.wasTransient (d : Dev) (p : Nat) : Dev := (d.eachEngine p Fld.ARC_STATUS_TRANSIENT true).countEngines p 4

/-- An engine in the minority of a voting period: retired, and the spare in its role (R202). -/
def Dev.voteOut (d : Dev) (p m spare : Nat) : Dev :=
  let e := d.esn
  let d := if spare = m then d else (d.takeRole p m spare).substitute arcClass m spare e
  (d.arcRetire m).arcRecord p 0x5f3 (BitVec.ofNat 32 m)

/-- The voting period with a spare, or with the IN of a hand-over, ends; the value words of 0x5f2 and 0x5f4 are 0 (R202, R204; DESIGN CHOICE, log
163). -/
def Dev.threeVoted (d : Dev) (p : Nat) (t : ArcTakeover) (k : Nat) : Dev :=
  let v := d.periodVerdict p
  let d := d.when (v != .agree) fun d => d.furtherMismatch p t
  let out := (d.arcPair p).handover.map (·.1)
  let d := d.when t.handover Dev.loaderDone
  match v with
  | .agree =>
    match t.handover, out with
    | true, some o => ((d.endTakeover p).takeRole p o k).swapUnits arcClass o k
    | _, _ => (((d.endTakeover p).wasTransient p).arcRecord p 0x5f2 0).takeoverDone p
  | .odd m => ((d.endTakeover p).voteOut p m k).takeoverDone p
  | .split => (d.failPair p).arcRecord p 0x5f1 0

/-- The re-run of a pair without a spare ends: where it mismatches again and one engine has reported an error, the other goes on alone, with 0x5f4
of value 0 (R203, R207; DESIGN CHOICE, log 163). -/
def Dev.rerunEnds (d : Dev) (p : Nat) (t : ArcTakeover) : Dev :=
  if d.periodVerdict p = .agree ∧ !t.again then (d.endTakeover p).wasTransient p
  else
    match (d.pairEngines p).filter fun e => (d.arcEng e).reported with
    | [m] => (((d.endTakeover p).arcRetire m).eachEngine p Fld.ARC_STATUS_UNCHECKED true).arcRecord p 0x5f4 0
    | _ => d.failPair p

/-- A voting period, or the re-run of a pair without a spare, ends (R202, R203). -/
def Dev.votingEnds (d : Dev) (p : Nat) (t : ArcTakeover) : Dev :=
  match t.spare with
  | some k => d.threeVoted p t k
  | none => d.rerunEnds p t

/-! ## The compare unit (R199) -/

/-- The matched post at place i of the period goes out. -/
def Dev.forward (d : Dev) (p i : Nat) (x : ArcPost) : Dev :=
  let d := d.onPair p fun s => { s with fwd := i + 1 }
  match x with
  | .emit port v => d.portWrite port.toNat v
  | .event code v => d.arcEvent p code.toNat v

/-- An engine presents a post: it is forwarded with its match from another voter, or alone where the pair runs unchecked; a different post of
another engine is a mismatch, in a voting period one of that takeover (R199, R201 to R204). -/
def Dev.present (d : Dev) (e : Nat) (x : ArcPost) : Dev :=
  let p := d.runsFor e
  let i := (d.arcEng e).posts.length
  let d := d.onEng e fun a => { a with posts := a.posts ++ [x] }
  let vs := d.voters p
  let ps := d.arcPair p
  let at_ (o : Nat) : Option ArcPost := (d.arcEng o).posts[i]?
  if ps.quiet || d.pairFailed p || !vs.contains e then d
  else if vs.length = 1 then d.forward p i x
  else
    let d := d.when (vs.any fun o => o != e && (at_ o).isSome && at_ o != some x) fun d => d.arcMismatch p []
    d.when (!(d.arcPair p).quiet && ps.fwd ≤ i && (vs.any fun o => o != e && at_ o == some x)) fun d => d.forward p i x

/-- The pair's program has the motor ports (R197). -/
def Dev.drivesMotor (d : Dev) (p : Nat) : Bool := (d.arcPair p).image.any fun im => im.bind / 4 % 2 == 1

/-- EMIT: the value goes to the compare unit, and 2 cycles after issue to its port (R182, R193, R199, R208). -/
def execArcEmit (i : ArcIssue) (rd : ArcReg) (port : BitVec 9) (s : State) : Host.Outcome State Fault Refusal :=
  s.on fun d => d.arcIssue i fun c d =>
    let d := d.when (d.drivesMotor (d.runsFor i.eng)) fun d => { d with mot := { d.mot with now := d.mot.periodAt + i.cycle + 2 } }
    d.present i.eng (.emit port (c.reg rd))

/-- EVENT: the code and value go to the compare unit (R182, R202, R205). -/
def execArcEvent (i : ArcIssue) (rd : ArcReg) (code : BitVec 11) (s : State) : Host.Outcome State Fault Refusal :=
  s.on fun d => d.arcIssue i fun c d => d.present i.eng (.event code (c.reg rd))

/-- An exchange is requested for the next boundary (R188). -/
def Dev.requestSwap (d : Dev) (p : Nat) : Dev :=
  (d.onPair p fun s => { s with swapDue := true }).eachEngine p Fld.ARC_STATUS_SWAP_PENDING true

/-- SWAP: a request, lost after a mismatch of its period (R188, R200). One executed before the mismatch keeps its request, so that the exchange
comes at the next boundary: R200 speaks of one after it only (DESIGN CHOICE, log 163). -/
def execArcSwap (i : ArcIssue) (s : State) : Host.Outcome State Fault Refusal :=
  s.on fun d => d.arcIssue i fun _ d =>
    let p := d.runsFor i.eng
    if (d.arcPair p).quiet || !(d.voters p).contains i.eng then d else d.requestSwap p

/-- WAITTICK: the engine idles, its filters complete before the next period, and when both engines have ended theirs the pair compares posts and
signatures (R177, R185, R199). -/
def execArcWaittick (i : ArcIssue) (s : State) : Host.Outcome State Fault Refusal :=
  s.on fun d => d.arcIssue i fun _ d =>
    let p := d.runsFor i.eng
    let d := d.onEng i.eng fun a => { a.settled with idle := true }
    let vs := d.voters p
    d.when (vs.length == 2 && vs.contains i.eng && !(d.arcPair p).quiet && (d.arcPair p).takeover.isNone
        && (vs.all fun e => (d.arcEng e).idle) && d.periodVerdict p != .agree) fun d => d.arcMismatch p []

/-! ## Period boundaries (R176 to R178, R188, R196) -/

/-- CORE cycles of a tick source (R175). -/
def arcBase (src : Nat) : Nat := if src = 0 then 800 else if src = 1 then 400 else 10000

/-- The budget of a period register (R175). -/
def arcBudget (v : Word) : Nat := arcBase (fieldOf v 0 2) * fieldOf v 8 7

/-- A bound that a budget admits (R194). -/
def boundFits (bound budget : Nat) : Bool := bound ≤ 95 * budget / 100

/-- The banks exchanged: a BUMPLESS image then has an arm bit for every clamp bit that is 1 (R188). -/
def ArcCtx.exchanged (c : ArcCtx) (bumpless : Bool) : ArcCtx :=
  { c with bank := c.bank + 1, arm := if bumpless then c.arm ||| c.clamp else c.arm }

/-- The exchange of an engine: the arm bits of a BUMPLESS image, ZONE_ARM and the counter (R188, R189, R207). -/
def Dev.exchange (d : Dev) (e : Nat) (bumpless : Bool) : Dev :=
  let d := d.onEng e fun a => { a with
    swapped := true
    ctx := a.ctx.exchanged bumpless }
  let d := (d.put (Fld.ARC_STATUS_BANK e) (d.arcEng e).ctx.bank).putBit (Fld.ARC_STATUS_SWAP_PENDING e) false
  (d.putBit (Fld.ARC_CTRL_ZONE_ARM e) false).count (Adr.ARC_CNT e 1)

/-- The engines that hold the pair's program at a boundary: the pair, and a spare that the checkpoint has reached. -/
def Dev.loadedEngines (d : Dev) (p : Nat) : List Nat :=
  d.pairEngines p ++ (match (d.arcPair p).takeover with
    | some t => if t.loaded then t.spare.toList else []
    | none => [])

/-- An exchange that is due takes place in every engine of the pair, and in the checkpoint of a takeover (R188, R200). -/
def Dev.boundaryExchange (d : Dev) (p : Nat) : Dev :=
  let es := d.loadedEngines p
  let d := d.each es fun d e => d.onEng e fun a => { a with swapped := false }
  if (d.arcPair p).swapDue then
    let b := match (d.arcPair p).image with
      | some im => im.bumpless
      | none => false
    let d := d.each es fun d e => d.exchange e b
    d.onPair p fun s => { s with swapDue := false, ckpt := s.ckpt.exchanged b }
  else d

/-- The engines on which a load of a pair can run: those in service that serve it, in their roles where it has them. -/
def Dev.loadEngines (d : Dev) (p : Nat) : List Nat :=
  let held := (d.pairEngines p).filter d.arcUp
  let more := (List.range 8).filter fun e =>
    d.pairOf e == p && d.arcUp e && d.fld (Fld.ARC_CTRL_ROLE e) == roleOff && !held.contains e
  (held ++ more).take 2

/-- Roles of a pair's two engines. -/
def Dev.fillPair (d : Dev) (p a b : Nat) : Dev :=
  let d := (d.put (Fld.ARC_CTRL_PAIR a) p).put (Fld.ARC_CTRL_ROLE a) roleLead
  (d.put (Fld.ARC_CTRL_PAIR b) p).put (Fld.ARC_CTRL_ROLE b) roleCheck

/-- An admitted program starts on two engines of its pair, which take their roles now. With KEEP_STATE both go on from the state of the old
program; what is due at the boundary of the old program, an exchange, comes first (R188, R198; log 162). -/
def Dev.startProgram (d : Dev) (p : Nat) (im : ArcImage) : Dev :=
  let old := ((d.pairEngines p).find? fun e => d.bit (Fld.ARC_STATUS_RUNNING e)).map fun e => (d.arcEng e).settled.ctx
  let d := match d.loadEngines p with
    | a :: b :: _ => d.fillPair p a b
    | _ => d
  let d := d.each (d.pairEngines p) fun d e =>
    let fresh : ArcCtx := { regs := im.regs, mem := im.mem }
    let ctx := match im.keepState, old with
      | true, some c => { c with pcnt := 0, phase := 0, bank := 0 }
      | _, _ => fresh
    let d := d.onEng e fun a => { a with ctx := ctx, due := [], coef := im.coef, reported := false }
    let d := (d.put (Fld.ARC_PERIOD_PHASE_N e) im.phaseN).put (Fld.ARC_PERIOD_MULT e) im.mult
    let d := (d.put (Fld.ARC_PERIOD_SRC e) im.src).put (Fld.ARC_BOUND_BOUND e) im.bound
    let d := (d.put (Fld.ARC_BOUND_PROLOGUE e) im.prologue).setReg (Adr.ARC_IMAGE e) im.crc
    let d := (d.putBit (Fld.ARC_STATUS_RUNNING e) true).putBit (Fld.ARC_CTRL_RUN e) true
    let d := ((d.put (Fld.ARC_STATUS_BANK e) 0).setReg (Adr.ARC_PCNT e) 0).putBit (Fld.ARC_CTRL_ZONE_ARM e) false
    (d.putBit (Fld.ARC_STATUS_PAIR_FAILED e) false).putBit (Fld.ARC_STATUS_UNCHECKED e) false
  d.onPair p fun s => { s with image := some im, next := none, quiet := false, periodNext := none }

/-- The period change that waits takes force on both engines (R196). -/
def Dev.boundaryPeriod (d : Dev) (p : Nat) : Dev :=
  match (d.arcPair p).periodNext with
  | none => d
  | some v => (d.each (d.pairEngines p) fun d e => d.setReg (Adr.ARC_PERIOD e) v).onPair p fun s => { s with periodNext := none }

/-- The period count and PHASE advance; in the first period, or one that is run again, they stand, but that PHASE follows the spindle tick
(R178). -/
def Dev.advancePeriod (d : Dev) (p : Nat) (first onSpindle : Bool) : Dev :=
  let sync := match (d.arcPair p).image with
    | some im => im.phaseSync
    | none => false
  d.each (d.loadedEngines p) fun d e =>
    let n := max 1 (d.fld (Fld.ARC_PERIOD_PHASE_N e))
    let d := d.onEng e fun a => { a with ctx := { a.ctx with
      pcnt := if first then a.ctx.pcnt else (a.ctx.pcnt + 1) % 2 ^ 32
      phase := if sync && onSpindle then 0 else if first then a.ctx.phase else (a.ctx.phase + 1) % n } }
    d.setReg (Adr.ARC_PCNT e) (BitVec.ofNat 32 (d.arcEng e).ctx.pcnt)

/-- The sector of STEP6 that an angle lies in (R222; log 150). -/
def sectorAt (theta : Nat) : Nat := kickState (theta * 360 / 2 ^ 32 % 360)

/-- STEP6 and FOC hand over to each other at FOC_ON and FOC_OFF, at a period boundary of the program (R222). -/
def Dev.driveBoundary (d : Dev) : Dev :=
  let st := d.spnState
  if st = spnStep6 ∧ 10 * d.fld Fld.SPN_CFG_FOC_ON ≤ d.rpm then
    (d.setSpn spnFoc).onSpn fun s => { s with handoverNext := true, commute := none }
  else if st = spnFoc ∧ d.rpm ≤ 10 * d.fld Fld.SPN_CFG_FOC_OFF then
    (d.setSpn spnStep6).onSpn fun s => { s with handoverNext := true, floated := 0, sector := sectorAt s.theta }
  else d

/-- HANDOVER is 1 in the first period in which the program's outputs govern (R212). -/
def Dev.handoverBoundary (d : Dev) : Dev :=
  let on := d.programGoverns
  d.onSpn fun s => { s with handover := on && s.handoverNext, handoverNext := !on && s.handoverNext }

/-- Where a period of the motor program begins, in CORE cycles from the last turning point of the PWM counter (R175, R208). -/
def Dev.periodPlace (d : Dev) (p : Nat) (onSpindle : Bool) : Dev :=
  let step := arcBudget (d.reg (Adr.ARC_PERIOD ((d.pairEngines p).headD 0)))
  let c := if onSpindle then 0 else (d.mot.periodAt + step) % 10000
  d.when (d.drivesMotor p) fun d => { d with mot := { d.mot with periodAt := c, now := c } }

/-- The engines of a period start at bundle 0 with fresh posts and signatures (R176, R199). -/
def Dev.beginPeriod (d : Dev) (p : Nat) : Dev :=
  let d := d.each (d.voters p) fun d e =>
    (d.onEng e fun a => { a with sig := [], posts := [], idle := false }).count (Adr.ARC_CNT e 0)
  let d := d.onPair p fun s => { s with quiet := false, fwd := 0 }
  let d := d.when (d.drivesMotor p) fun d => d.driveBoundary.handoverBoundary
  d.latchPorts p

/-- The hand-over's next step: IN receives the image and checkpoint, then votes; one whose OUT or IN a takeover has taken away ends with
NO_ENGINES (R204; log 162). -/
def Dev.handoverStep (d : Dev) (p : Nat) : Dev :=
  match (d.arcPair p).handover with
  | some (out, inn, 0) => if !(d.pairEngines p).contains out || !d.arcUp inn then (d.onPair p fun s => { s with handover := none }).loaderEnds 10 else d.onPair p fun s => { s with handover := some (out, inn, 1) }
  | some (out, inn, 1) => if !(d.pairEngines p).contains out || !d.arcUp inn then (d.onPair p fun s => { s with handover := none }).loaderEnds 10 else
    let d := d.loadCheckpoint p inn
    let d := d.onPair p fun s => { s with
      handover := some (out, inn, 2), takeover := some { spare := some inn, loaded := true, voting := true, handover := true } }
    d.each (d.voters p) fun d e => d.putBit (Fld.ARC_STATUS_VOTING e) true
  | _ => d

/-- The checkpoint of the period that begins (R200; log 33). -/
def Dev.takeCheckpoint (d : Dev) (p : Nat) : Dev :=
  match (d.pairEngines p).head? with
  | some l => d.onPair p fun s => { s with ckpt := (d.arcEng l).ctx }
  | none => d

/-- A normal period boundary. -/
def Dev.boundary (d : Dev) (p : Nat) (onSpindle : Bool) : Dev :=
  let next := (d.arcPair p).next
  let d := (d.boundaryPeriod p).boundaryExchange p
  let d := match next with
    | some im => d.startProgram p im
    | none => d
  let d := d.advancePeriod p next.isSome onSpindle
  ((d.takeCheckpoint p).handoverStep p).beginPeriod p

/-! ## Requests (R188, R189, R196, R204, R207) -/

def execArcSwapReq (e : ArcEng) (s : State) : Host.Outcome State Fault Refusal :=
  s.on fun d => d.requestSwap (d.pairOf e)

/-- A period change is accepted where the running bound fits, refused otherwise; a value out of range is discarded (R175,
R196, R478). -/
def Dev.periodWrite (d : Dev) (e : Nat) (v : Word) : Dev :=
  let p := d.pairOf e
  let v := v &&& 0x00ff7f03
  if fieldOf v 0 2 = 3 ∨ fieldOf v 8 7 = 0 ∨ 64 < fieldOf v 8 7 ∨ fieldOf v 16 8 = 0 then d
  else if !d.pairRuns p then d.setReg (Adr.ARC_PERIOD e) v
  else if boundFits (d.fld (Fld.ARC_BOUND_BOUND e)) (arcBudget v) then d.onPair p fun s => { s with periodNext := some v }
  else ((d.eachEngine p Fld.ARC_STATUS_PERIOD_REFUSED true).countEngines p 5).arcRecord p 0x5f5 0

def execArcPeriodWrite (e : ArcEng) (v : Word) (s : State) : Host.Outcome State Fault Refusal :=
  s.on fun d => d.periodWrite e v

/-- A write through the coefficient window: discarded while an exchange is pending or while the window shows the active
bank, else it lands in the shadow bank of both engines and in the image store (R189, R206). -/
def Dev.coefWrite (d : Dev) (e w : Nat) (v : Word) : Dev :=
  let p := d.pairOf e
  if d.bit (Fld.ARC_CTRL_VIEW e) then d
  else if d.bit (Fld.ARC_STATUS_SWAP_PENDING e) then d.putBit (Fld.ARC_STATUS_WIN_DISCARD e) true
  else
    let es := if (d.pairEngines p).contains e then d.pairEngines p else [e]
    let at_ (a : ArcSt) : Nat := 2048 * (a.ctx.bank + 1 : Fin 2).val + w
    let k := at_ (d.arcEng e)
    let d := d.when ((d.pairEngines p).contains e) fun d => d.onPair p fun s =>
      { s with image := s.image.map fun im => { im with coef := Tab.set zeroWord im.coef k v } }
    d.each es fun d o =>
      (d.onEng o fun a => { a with coef := Tab.set zeroWord a.coef (at_ a) v }).putBit (Fld.ARC_CTRL_ZONE_ARM o) false

/-- What the coefficient window of an engine shows (VIEW). -/
def Dev.coefRead (d : Dev) (e w : Nat) : Word :=
  let a := d.arcEng e
  let b : Fin 2 := if d.bit (Fld.ARC_CTRL_VIEW e) then a.ctx.bank else a.ctx.bank + 1
  Tab.get zeroWord a.coef (2048 * b.val + w)

def execArcCntClr (e : ArcEng) (s : State) : Host.Outcome State Fault Refusal :=
  s.on fun d => d.clearCounters (Adr.ARC_CNT e)

/-! ## Filling the pairs (R486) -/

/-- A pair that is not full takes its own engine and those left over, by the order of ARC_SPARE and then by number; the
engines that are left over stay (R486). -/
def Dev.completePair (d : Dev) (acc : List Nat) (p : Nat) (avoid : List Nat) : Dev × List Nat :=
  let own := acc.filter fun e => e / 2 == p
  let order := own ++ ([d.fld Fld.ARC_SPARE_FIRST, d.fld Fld.ARC_SPARE_SECOND] ++
    ((List.range 8).filter fun e => !avoid.contains e) ++ avoid).filter fun e => acc.contains e && !own.contains e
  match order.eraseDups with
  | a :: b :: _ => (d.fillPair p a b, acc.filter fun e => e != a && e != b)
  | _ => (d, acc)

/-- The vendor firmware fills the pairs at manifest activation, and names the spares (R486). -/
def Dev.fillPairs (d : Dev) : Dev :=
  let up := (List.range 8).filter d.arcUp
  let heads := if d.variantS then [0, 2] else [0, 1, 2]
  let full := heads.filter fun p => up.contains (2 * p) && up.contains (2 * p + 1)
  let d := d.each (List.range 8) fun d e => d.put (Fld.ARC_CTRL_ROLE e) roleOff
  let d := d.each full fun d p => d.fillPair p (2 * p) (2 * p + 1)
  let left := up.filter fun e => !(full.contains (e / 2))
  let avoid := if d.variantS then [2, 3] else []
  let todo := ([2, 0, 1].filter heads.contains).filter fun p => !full.contains p
  let r := todo.foldl (fun acc p => acc.1.completePair acc.2 p avoid) (d, left)
  let spares := if d.variantS then r.2.filter fun e => e != 2 && e != 3 else r.2
  let d := r.1.each spares fun d e => d.put (Fld.ARC_CTRL_ROLE e) roleSpare
  match spares with
  | a :: b :: _ => (d.put Fld.ARC_SPARE_FIRST a).put Fld.ARC_SPARE_SECOND b
  | [a] => d.put Fld.ARC_SPARE_FIRST a
  | [] => d

/-! ## Loss of focus (R162, R164) -/

/-- The pairs whose program takes part in a head's zone transactions: the head's bundle (R189). -/
def Dev.headPairs (d : Dev) (h : Nat) : List Nat :=
  (List.range 3).filter fun p => match (d.arcPair p).image with
    | some im => im.zoneHead == h + 1
    | none => false

end Sys2Proof.Machine
end

