-- ==== Sys2Proof/Machine/ArcLoad.lean ====
section
/-! DEFINITION. The Arc loader: the image format, the structural checks, the timetable and the admission of a program
(R178 to R182, R194 to R198, R204). -/

namespace Sys2Proof.Machine

/-! ## Words (R179, R182) -/

/-- The fields of an instruction word. -/
structure ArcWord where
  op : Nat
  neg : Bool
  pred : Nat
  rd : Nat
  rs1 : Nat
  rs2 : Nat
  fn : Nat
  imm : Nat
  deriving DecidableEq, Repr

/-- The fields of a word, all three formats side by side. -/
def arcFields (w : Word) : ArcWord :=
  { op := fieldOf w 26 6, neg := fieldOf w 25 1 == 1, pred := fieldOf w 22 3, rd := fieldOf w 17 5, rs1 := fieldOf w 12 5,
    rs2 := fieldOf w 7 5, fn := fieldOf w 0 7, imm := fieldOf w 0 17 }

/-- The word of fields of format R. -/
def arcWordR (op : Nat) (neg : Bool) (pred rd rs1 rs2 fn : Nat) : Word :=
  BitVec.ofNat 32 (op * 2 ^ 26 + neg.toNat * 2 ^ 25 + pred * 2 ^ 22 + rd * 2 ^ 17 + rs1 * 2 ^ 12 + rs2 * 2 ^ 7 + fn)

/-- The word of fields of format K. -/
def arcWordK (op : Nat) (neg : Bool) (pred rd imm : Nat) : Word :=
  BitVec.ofNat 32 (op * 2 ^ 26 + neg.toNat * 2 ^ 25 + pred * 2 ^ 22 + rd * 2 ^ 17 + imm)

/-- A listed opcode with no set unused field and no odd accumulator register (R182, R195). -/
def ArcWord.valid (i : ArcWord) : Bool :=
  match i.op with
  | 0x00 => i.rd == 0 && i.imm == 0
  | 0x01 => i.rs2 == 0 && i.fn == 0
  | 0x02 | 0x06 => true
  | 0x03 => i.imm < 2 ^ 16
  | 0x04 => i.fn < 16
  | 0x05 => i.fn < 8
  | 0x07 => 2 ≤ i.rd && i.rd < 8 && i.fn < 16 && i.fn % 8 < 6
  | 0x08 => i.fn < 4 && (i.fn < 2 || i.rs2 == 0)
  | 0x09 => i.fn == 0
  | 0x0a => i.rd % 2 == 0 && i.fn < 3
  | 0x0b => i.rs1 % 2 == 0 && i.rs2 == 0 && i.fn < 4
  | 0x0c => i.rs2 == 0 && i.fn < 32
  | 0x10 => i.fn < 7 && (i.fn < 5 || i.rs2 == 0)
  | 0x11 => i.fn < 2
  | 0x12 => i.rs2 == 0 && i.fn == 0
  | 0x13 => i.rs2 == 0 && i.fn < 4
  | 0x18 | 0x19 => i.imm % 2 == 0
  | 0x1a => i.fn < 8
  | 0x1b | 0x1c => i.fn < 16
  | 0x1d => i.fn == 0
  | 0x1e => i.rs2 == 0 && i.fn < 8
  | 0x20 => i.imm < 2048
  | 0x21 | 0x22 => i.imm < 1024
  | 0x23 | 0x24 => i.rs2 == 0 && i.fn == 0
  | 0x25 => i.rd == 0 && i.fn == 0
  | 0x28 | 0x29 => i.imm < 512
  | 0x2a => i.imm < 2048
  | 0x2b => i.imm < 4
  | 0x2c | 0x2f => i.rd == 0 && i.imm == 0
  | _ => false

/-! ## Resources (R180, R181) -/

/-- What an instruction reads or writes: registers 0 to 31, predicates from 32, clamp bits from 40. -/
def regKey (r : Nat) : Nat := r
def predKey (p : Nat) : Nat := 32 + p
def clampKey (c : Nat) : Nat := 40 + c

/-- The registers, predicates and clamp bits that an instruction reads. -/
def ArcWord.reads (i : ArcWord) : List Nat :=
  predKey i.pred :: (match i.op with
    | 0x01 | 0x0c | 0x12 | 0x13 | 0x23 | 0x24 => [i.rs1]
    | 0x04 => [i.rs1, i.rs2, predKey (i.fn % 8)]
    | 0x05 | 0x07 | 0x09 => [i.rs1, i.rs2]
    | 0x08 => if i.fn < 2 then [i.rs1, i.rs2] else [i.rs1]
    | 0x06 => [i.rd]
    | 0x0a => if i.fn = 2 then [i.rs1, i.rs2] else [i.rs1, i.rs2, i.rd, i.rd + 1]
    | 0x0b => [i.rs1, i.rs1 + 1]
    | 0x10 => if i.fn < 5 then [i.rs1, i.rs2] else [i.rs1]
    | 0x11 | 0x1b | 0x1d => [i.rd, i.rs1, i.rs2]
    | 0x18 | 0x19 => [i.rd]
    | 0x1a => [i.rd, i.rs1, i.rs2, clampKey (i.fn % 8)]
    | 0x1c => if i.fn < 8 then [i.rs1, i.rs2] else [i.rs1, i.rs2, clampKey (i.fn % 8)]
    | 0x1e => [i.rd, i.rs1]
    | 0x22 | 0x29 | 0x2a => [i.rd]
    | 0x25 => [i.rs1, i.rs2]
    | _ => [])

/-- What an instruction writes. -/
def ArcWord.writes (i : ArcWord) : List Nat :=
  match i.op with
  | 0x00 | 0x22 | 0x25 | 0x29 | 0x2a | 0x2c | 0x2f => []
  | 0x07 => [predKey i.rd]
  | 0x0a => [i.rd, i.rd + 1]
  | 0x1b => [i.rd, clampKey (i.fn % 8)]
  | _ => [i.rd]

/-- Cycles from issue until the result is ready (R182). -/
def ArcWord.cycles (i : ArcWord) : Nat :=
  match i.op with
  | 0x09 | 0x0a => 3
  | 0x0b | 0x13 | 0x20 | 0x21 | 0x23 | 0x24 => 2
  | 0x10 => if i.fn < 3 then 4 else 1
  | 0x11 | 0x1a | 0x1c | 0x1e => 4
  | 0x12 | 0x18 | 0x1d => 8
  | 0x19 => 6
  | 0x1b => if i.fn < 8 then 2 else 1
  | _ => 1

def ArcWord.isFilter (i : ArcWord) : Bool := i.op == 0x18 || i.op == 0x19
def ArcWord.coefPort (i : ArcWord) : Bool := i.isFilter || i.op == 0x20 || i.op == 0x23
def ArcWord.statePort (i : ArcWord) : Bool :=
  i.isFilter || i.op == 0x21 || i.op == 0x24 || i.op == 0x22 || i.op == 0x25
def ArcWord.divides (i : ArcWord) : Bool := i.op == 0x12 || i.op == 0x1d
/-- The instructions that R180 counts as I/O: the rule does not list them; those that use a port or post an event are taken, so not MFS,
SWAP and WAITTICK (DESIGN CHOICE, log 147). -/
def ArcWord.isIo (i : ArcWord) : Bool := i.op == 0x28 || i.op == 0x29 || i.op == 0x2a

/-- A port of the converter class (R192, R212). -/
def converterClass (port : Nat) : Bool :=
  if port < 0x100 then
    let q := port % 0x80
    q < 0x2a || (0x30 ≤ q && q ≤ 0x3a)
  else port ≤ 0x10c

/-- An EMIT to a port of the actuator or the guard class (R193, R213). -/
def criticalPort (port : Nat) : Bool :=
  if port < 0x100 then port % 0x80 < 0x50 else true

/-- A bundle that R180 refuses; two uses of the one divide unit can never issue together (log 34). -/
def bundleBad (a b : ArcWord) : Bool :=
  (a.writes.any fun w => b.writes.contains w) || (a.coefPort && b.coefPort) || (a.statePort && b.statePort)
    || (a.isIo && b.isIo && !(a.op == 0x28 && b.op == 0x28)) || (a.divides && b.divides)

/-! ## The timetable (R181, R194) -/

/-- Where the timetable stands: the earliest cycle of the next bundle, the ready cycles of what is in flight, when the
divide and the filter unit are free, the state-port cycles taken by completions, the greatest ready cycle, the
greatest arrival of a critical EMIT, the last issue cycle, and whether a register was written while in flight. -/
structure Timetable where
  t : Nat := 0
  ready : Tab Nat := []
  divFree : Nat := 0
  filterFree : Nat := 0
  ports : List Nat := []
  last : Nat := 0
  bound : Nat := 0
  critical : Nat := 0
  disorder : Bool := false
  deriving DecidableEq, Repr

/-- The completion cycle's use of the state port (R181). -/
def ArcWord.completion (i : ArcWord) (t : Nat) : List Nat := if i.isFilter then [t + i.cycles] else []

/-- A bundle can issue at cycle t. -/
def Timetable.canIssue (s : Timetable) (l : List ArcWord) (t : Nat) : Bool :=
  (l.all fun i => i.reads.all fun r => Tab.get (fun _ => 0) s.ready r ≤ t)
    && (!(l.any ArcWord.divides) || s.divFree ≤ t)
    && (!(l.any ArcWord.isFilter) || s.filterFree ≤ t)
    && (l.all fun i => !i.statePort || !(s.ports.contains t))
    && (l.all fun i => (i.completion t).all fun c => !s.ports.contains c)
    && (!(l.any fun i => i.op == 0x28 && converterClass i.imm) || 55 ≤ t)

/-- The earliest issue cycle at or after t, within n cycles. -/
def Timetable.earliest (s : Timetable) (l : List ArcWord) : Nat → Nat → Nat
  | 0, t => t
  | n + 1, t => if s.canIssue l t then t else s.earliest l n (t + 1)

/-- A bundle enters the timetable. -/
def Timetable.issue (s : Timetable) (l : List ArcWord) : Timetable :=
  let c := s.earliest l 4096 s.t
  let writes := (l.map fun i => i.writes.map fun w => (w, c + i.cycles)).flatten
  let disorder := writes.any fun w => w.1 < 32 && c < Tab.get (fun _ => 0) s.ready w.1
  let crit := (l.filter fun i => i.op == 0x29 && criticalPort i.imm).length
  { t := c + 1
    ready := writes.foldl (fun r w => Tab.set (fun _ => 0) r w.1 w.2) s.ready
    divFree := if l.any ArcWord.divides then c + 8 else s.divFree
    filterFree := if l.any ArcWord.isFilter then c + 2 else s.filterFree
    ports := (l.map fun i => i.completion c).flatten ++ s.ports.filter (c < ·)
    last := c
    bound := writes.foldl (fun b w => max b w.2) s.bound
    critical := if 0 < crit then max s.critical (c + 2) else s.critical
    disorder := s.disorder || disorder }

/-- The timetable of a program. -/
def timetable (bundles : List (ArcWord × ArcWord)) : Timetable :=
  bundles.foldl (fun s b => s.issue [b.1, b.2]) {}

/-- P of a timetable (R194); where the last critical EMIT reaches its port before cycle 55, 0, which the rule does not say (DESIGN CHOICE,
log 149). -/
def Timetable.prologue (s : Timetable) : Nat := if s.critical = 0 then 0 else s.critical - 55

/-- B of a timetable (R194). -/
def Timetable.total (s : Timetable) : Nat := max (s.last + 1) s.bound

/-! ## Images (R197) -/

/-- Words of 32 bits from a byte on. -/
def wordsAt (l : List Byte) (k n : Nat) : List Word :=
  (List.range n).map fun i => BitVec.ofNat 32 (fieldAt l (k + 4 * i) 4)

/-- Words by number; zeros are not listed. -/
def wordTab (l : List Word) (base : Nat) : Tab Word := Tab.write zeroWord [] base l

/-- A part of a bank's words put behind those of another. -/
def bankTab (b0 b1 : List Word) : Tab Word := Tab.write zeroWord (Tab.write zeroWord [] 0 b0) 2048 b1

/-- Length of the image whose header stands at the start of the bytes. -/
def imageLength (l : List Byte) : Nat := 192 + 8 * fieldAt l 8 2 + 8 * fieldAt l 18 2 + 4 * fieldAt l 20 2

/-- The header's fixed parts, lengths and ranges, and the CRC with its field taken as 0 (R195, R197). A field outside the range of R197's table, or
a reserved byte that is not 0, is BAD_IMAGE, which R195 gives for the magic, the format, a length and the CRC only (DESIGN CHOICE, log 163). -/
def imageFormOk (l : List Byte) : Bool :=
  let n := imageLength l
  bytesAt l 0 4 == [0x58, 0x41, 0x52, 0x43] && fieldAt l 4 2 == 1 && fieldAt l 6 2 < 8
    && 1 ≤ fieldAt l 8 2 && fieldAt l 8 2 ≤ 2048 && fieldAt l 10 1 < 3 && 1 ≤ fieldAt l 11 1 && fieldAt l 11 1 ≤ 64
    && fieldAt l 18 2 ≤ 2048 && fieldAt l 20 2 ≤ 1024 && fieldAt l 22 1 < 8 && fieldAt l 23 1 ≤ 2 && 1 ≤ fieldAt l 24 1
    && allZero (bytesAt l 25 3) && allZero (bytesAt l 48 16)
    && crc32 (bytesAt l 0 28 ++ zeroBytes 4 ++ bytesAt l 32 (n - 32)) == fieldAt l 28 4

/-- The image in the bytes. -/
def parseImage (l : List Byte) : ArcImage :=
  let nb := fieldAt l 8 2
  let nc := fieldAt l 18 2
  let flags := fieldAt l 6 2
  let code := 192 + 8 * nb
  { bumpless := flags % 2 == 1, phaseSync := flags / 2 % 2 == 1, keepState := flags / 4 % 2 == 1
    code := wordsAt l 192 (2 * nb)
    src := fieldAt l 10 1, mult := fieldAt l 11 1, bound := fieldAt l 12 2, prologue := fieldAt l 14 2
    bind := fieldAt l 22 1, zoneHead := fieldAt l 23 1, phaseN := fieldAt l 24 1
    crc := BitVec.ofNat 32 (fieldAt l 28 4)
    regs := wordTab (wordsAt l 64 32) 0
    coef := bankTab (wordsAt l code nc) (wordsAt l (code + 4 * nc) nc)
    mem := wordTab (wordsAt l (code + 8 * nc) (fieldAt l 20 2)) 0 }

/-- The bundles of a program. -/
def bundlesOf : List Word → List (ArcWord × ArcWord)
  | a :: b :: l => (arcFields a, arcFields b) :: bundlesOf l
  | _ => []

/-- A port within what BIND names (R194). -/
def portBound (bind port : Nat) : Bool :=
  if port < 0x80 then bind % 2 == 1
  else if port < 0x100 then bind / 2 % 2 == 1
  else if port < 0x140 then bind / 4 % 2 == 1 else false

/-- A port or an event code that the image may not use (R194). -/
def ArcWord.denied (i : ArcWord) (bind : Nat) : Bool :=
  ((i.op == 0x28 || i.op == 0x29) && !portBound bind i.imm) || (i.op == 0x2a && 0x5f0 ≤ i.imm && i.imm ≤ 0x5ff)

/-- The result of the checks of an image, in the order of R195's table; 0 is ADMITTED. -/
def admission (variantS : Bool) (im : ArcImage) (prologueEnd : Nat) : Nat :=
  let bs := bundlesOf im.code
  let ws := (bs.map fun b => [b.1, b.2]).flatten
  let waits := (List.zip (List.range bs.length) bs).filter fun b => b.2.1.op == 0x2f || b.2.2.op == 0x2f
  let both := bs.any fun b => b.1.op == 0x2f && b.2.op == 0x2f
  let tt := timetable bs
  let late := (bs.drop (prologueEnd + 1)).any fun b =>
    [b.1, b.2].any fun i => i.op == 0x29 && criticalPort i.imm
  let budget := arcBase im.src * im.mult
  if ws.any fun i => !i.valid then 2
  else if (bs.any fun b => bundleBad b.1 b.2) || tt.disorder then 3
  else if waits.map (·.1) != [bs.length - 1] || both then 4
  else if 110 < tt.prologue || late then 5
  else if !boundFits tt.total budget then 6
  else if im.bound != tt.total || im.prologue != tt.prologue then 7
  else if (ws.any fun i => i.denied im.bind) || (variantS && im.bind / 2 % 2 == 1) then 8
  else if im.phaseSync && 10000 % budget != 0 then 9
  else 0

/-! ## The loader (R195, R198, R204) -/

/-- The bytes that the loader reads from the buffer, header first (R198). -/
def Dev.imageBytes (d : Dev) : List Byte :=
  let a := d.fld Fld.ARC_LDR_SRC_PAGE * pageBytes
  d.bufRead a (imageLength (d.bufRead a 192))

/-- The result of a load of the bytes on a pair (R195). -/
def Dev.loadResult (d : Dev) (p : Nat) (l : List Byte) : Nat :=
  if !imageFormOk l then 1
  else
    let r := admission d.variantS (parseImage l) (fieldAt l 16 2)
    if r != 0 then r else if 3 ≤ p ∨ (d.loadEngines p).length < 2 then 10 else 0

/-- An admitted program waits for its pair's boundary; a pair that runs nothing starts it at its first tick (R198). -/
def Dev.takeIn (d : Dev) (p : Nat) (im : ArcImage) : Dev :=
  d.onPair p fun s => { s with next := some im }

/-- GO of the loader: the fields are stored and the operation starts, unless one is in progress (R195, R198, R204). -/
def Dev.loaderGo (d : Dev) (op : Nat) (v : Word) : Dev :=
  if d.bit Fld.ARC_LDR_STATUS_BUSY then d
  else
    let d := (d.put Fld.ARC_LDR_CTRL_OUT (fieldOf v 12 3)).put Fld.ARC_LDR_CTRL_IN (fieldOf v 8 3)
    let d := (d.put Fld.ARC_LDR_CTRL_PAIR (fieldOf v 4 2)).put Fld.ARC_LDR_CTRL_OP op
    let d := { d with arc := { d.arc with loading := some op } }
    d.putBit Fld.ARC_LDR_STATUS_BUSY true

def execArcLoad (v : Word) (s : State) : Host.Outcome State Fault Refusal := s.on fun d => d.loaderGo 0 v

/-- A hand-over is possible: OUT holds a role in the pair, which runs undisturbed, and IN is an in-service spare at no other work. -/
def Dev.handoverOk (d : Dev) (p out inn : Nat) : Bool :=
  (d.pairEngines p).contains out && d.pairRuns p && (d.arcPair p).takeover.isNone
    && (d.arcPair p).handover.isNone && d.spareFree inn

/-- A role begins to move from OUT to IN (R204); one that cannot ends at once with NO_ENGINES. -/
def Dev.startHandover (d : Dev) (out inn : Nat) : Dev :=
  let p := d.pairOf out
  if d.handoverOk p out inn then d.onPair p fun s => { s with handover := some (out, inn, 0) } else d.loaderEnds 10

/-- ARC_HANDOVER (R204). -/
def execArcHandover (v : Word) (s : State) : Host.Outcome State Fault Refusal :=
  s.on fun d => if d.bit Fld.ARC_LDR_STATUS_BUSY then d else (d.loaderGo 1 v).startHandover (fieldOf v 12 3) (fieldOf v 8 3)

/-- ARC_LOAD_DONE: the loader ends with admission or a refusal, which changes nothing of the pair (R195, R198). -/
def execArcLoadDone (s : State) : Host.Outcome State Fault Refusal :=
  s.on fun d =>
    if d.arc.loading != some 0 then d
    else
      let p := d.fld Fld.ARC_LDR_CTRL_PAIR
      let l := d.imageBytes
      let r := d.loadResult p l
      let d := d.noteVirgin (d.fld Fld.ARC_LDR_SRC_PAGE * pageBytes) (max 192 l.length)
      (d.when (r == 0) fun d => d.takeIn p (parseImage l)).loaderEnds r

end Sys2Proof.Machine
end

