-- ==== Sys2Proof/Machine/Crypto.lean ====
section
/-! DEFINITION. The cryptographic functions that the spec names by their standards: SHA-384 and the verification of ECDSA
signatures on P-384 (R398, R401, R407, R410, R414). -/

namespace Sys2Proof.Machine

/-! ## SHA-384 -/

/-- n is prime, by trial division. -/
def isPrime (n : Nat) : Bool := 2 ≤ n && (List.range n).all fun k => k < 2 || n % k != 0

/-- The first 80 primes. -/
def primes80 : List Nat := (List.range 410).filter isPrime

/-- The greatest r with r³ ≤ n, bit by bit from bit k - 1 down. -/
def cubeRoot (n : Nat) : Nat → Nat → Nat
  | 0, r => r
  | k + 1, r => cubeRoot n k (if (r + 2 ^ k) ^ 3 ≤ n then r + 2 ^ k else r)

/-- The round constants: 64 bits of the fraction of each prime's cube root. -/
def shaK : List DWord := primes80.map fun p => BitVec.ofNat 64 (cubeRoot (p * 2 ^ 192) 70 0)

/-- The initial words: 64 bits of the fraction of the square roots of the ninth to the sixteenth prime. -/
def shaInit : List DWord := ((primes80.drop 8).take 8).map fun p => BitVec.ofNat 64 (Nat.sqrt (p * 2 ^ 128))

/-- The value of a list of bytes, most significant first. -/
def beValue (l : List Byte) : Nat := l.foldl (fun a b => a * 256 + b.toNat) 0

/-- n bytes of a value, most significant first. -/
def beBytes (n v : Nat) : List Byte := (leBytes n v).reverse

/-- The message with its padding and its length in bits. -/
def shaPad (l : List Byte) : List Byte :=
  l ++ [0x80] ++ zeroBytes ((239 - l.length % 128) % 128) ++ beBytes 16 (8 * l.length)

/-- The message schedule from its first sixteen words, newest first. -/
def shaSchedule : Nat → List DWord → List DWord
  | 0, w => w
  | n + 1, w =>
    let g (i : Nat) : DWord := w[i]?.getD 0
    let s0 := (g 14).rotateRight 1 ^^^ (g 14).rotateRight 8 ^^^ (g 14) >>> 7
    let s1 := (g 1).rotateRight 19 ^^^ (g 1).rotateRight 61 ^^^ (g 1) >>> 6
    shaSchedule n ((g 15 + s0 + g 6 + s1) :: w)

/-- One round on the eight working words. -/
def shaRound (s : List DWord) (kw : DWord × DWord) : List DWord :=
  match s with
  | [a, b, c, d, e, f, g, h] =>
    let s1 := e.rotateRight 14 ^^^ e.rotateRight 18 ^^^ e.rotateRight 41
    let t1 := h + s1 + ((e &&& f) ^^^ (~~~e &&& g)) + kw.1 + kw.2
    let s0 := a.rotateRight 28 ^^^ a.rotateRight 34 ^^^ a.rotateRight 39
    let t2 := s0 + ((a &&& b) ^^^ (a &&& c) ^^^ (b &&& c))
    [t1 + t2, a, b, c, d + t1, e, f, g]
  | l => l

/-- One block of 128 bytes. -/
def shaBlock (h : List DWord) (block : List Byte) : List DWord :=
  let w0 := (List.range 16).map fun i => BitVec.ofNat 64 (beValue (bytesAt block (8 * i) 8))
  let w := (shaSchedule 64 w0.reverse).reverse
  List.zipWith (· + ·) h ((List.zip shaK w).foldl shaRound h)

/-- SHA-384 of a list of bytes: 48 bytes. -/
def sha384 (l : List Byte) : List Byte :=
  let m := shaPad l
  let h := (List.range (m.length / 128)).foldl (fun h i => shaBlock h (bytesAt m (128 * i) 128)) shaInit
  ((h.take 6).map fun w => beBytes 8 w.toNat).flatten

/-! ## ECDSA on P-384 -/

/-- The field's prime. -/
def p384 : Nat := 2 ^ 384 - 2 ^ 128 - 2 ^ 96 + 2 ^ 32 - 1

/-- The coefficient b of y² = x³ - 3x + b. -/
def p384b : Nat := 0xb3312fa7e23ee7e4988e056be3f82d19181d9c6efe8141120314088f5013875ac656398d8a2ed19d2a85c8edd3ec2aef

/-- The order of the base point. -/
def p384n : Nat := 0xffffffffffffffffffffffffffffffffffffffffffffffffc7634d81f4372ddf581a0db248b0a77aecec196accc52973

/-- The base point. -/
def p384g : Nat × Nat :=
  (0xaa87ca22be8b05378eb1c71ef320ad746e1d3b628ba79b9859f741e082542a385502f25dbf55296c3a545e3872760ab7,
   0x3617de4a96262c6f5d9e98bf9292dc29f8f41dbd289a147ce9da3113b5f0b8c00a60b1ce1d7e819d7a431d7c90ea0e5f)

/-- b^e modulo m, the exponent taken bit by bit from bit k - 1 down. -/
def powMod (b e m : Nat) : Nat → Nat → Nat
  | 0, acc => acc
  | k + 1, acc => powMod b e m k (let sq := acc * acc % m; if e.testBit k then sq * b % m else sq)

/-- The inverse modulo a prime. -/
def invMod (a m : Nat) : Nat := powMod (a % m) (m - 2) m 384 1

/-- The sum of two points; none is the point at infinity. -/
def ecAdd (a b : Option (Nat × Nat)) : Option (Nat × Nat) :=
  match a, b with
  | none, q => q
  | q, none => q
  | some (x1, y1), some (x2, y2) =>
    if x1 = x2 ∧ (y1 + y2) % p384 = 0 then none
    else
      let s := if x1 = x2 then (3 * x1 * x1 + p384 - 3) * invMod (2 * y1) p384 % p384
        else (y2 + p384 - y1) * invMod (x2 + p384 - x1) p384 % p384
      let x := (s * s + 2 * p384 - x1 - x2) % p384
      some (x, (s * (x1 + p384 - x) + p384 - y1) % p384)

/-- k × P, bit by bit from bit n - 1 down. -/
def ecMul (k : Nat) (pt : Option (Nat × Nat)) : Nat → Option (Nat × Nat) → Option (Nat × Nat)
  | 0, acc => acc
  | n + 1, acc =>
    let d := ecAdd acc acc
    ecMul k pt n (if k.testBit n then ecAdd d pt else d)

/-- A signature r, s over a digest verifies under a public key x‖y. -/
def ecdsaVerify (key digest r s : List Byte) : Bool :=
  let x := beValue (bytesAt key 0 48)
  let y := beValue (bytesAt key 48 48)
  let r := beValue r
  let s := beValue s
  let onCurve := x < p384 && y < p384 && y * y % p384 == (x * x * x + p384b + (p384 - 3) * x) % p384
  if !onCurve || r = 0 || s = 0 || p384n ≤ r || p384n ≤ s then false
  else
    let w := invMod s p384n
    let u1 := beValue digest * w % p384n
    let u2 := r * w % p384n
    match ecAdd (ecMul u1 (some p384g) 384 none) (ecMul u2 (some (x, y)) 384 none) with
    | some q => q.1 % p384n == r
    | none => false

end Sys2Proof.Machine
end

