-- ==== Sys2Proof/Machine/Audit.lean ====
section
/-! DEFINITION. Role holders and the audit log (R395, R396, R406 to R409). -/

namespace Sys2Proof.Machine

/-! ## Role holders (R396) -/

def roleOperator : Nat := 1
def roleInstaller : Nat := 2
def roleMaker : Nat := 3

/-- The key of a holder's grant: its TARGET code of R402. -/
def holderCode : RoleHolder → Nat
  | .pair q => q.val
  | .bar0 => 0x40
  | .service => 0x41

/-- SOURCE of an audit record for a holder (R407). -/
def holderSource : RoleHolder → Nat
  | .pair _ => 1
  | .bar0 => 2
  | .service => 3

/-- The field that shows a holder's role. -/
def holderField : RoleHolder → Field
  | .pair q => Fld.HQ_QP_CFG_ROLE q.val
  | .bar0 => Fld.SEC_CTRL_ROLE_ROLE
  | .service => Fld.SVC_CFG_ROLE

/-- The role that a holder has. -/
def Dev.roleOf (d : Dev) (h : RoleHolder) : Nat := d.fld (holderField h)

/-- A holder takes a role. -/
def Dev.setRole (d : Dev) (h : RoleHolder) (r : Nat) : Dev := d.put (holderField h) r

/-- Time in microseconds at which a holder's grant ends, 0 for none. -/
def Dev.grantEnd (d : Dev) (h : RoleHolder) : Nat := Tab.get (fun _ => 0) d.sec.grants (holderCode h)

def Dev.setGrantEnd (d : Dev) (h : RoleHolder) (t : Nat) : Dev :=
  { d with sec := { d.sec with grants := Tab.set (fun _ => 0) d.sec.grants (holderCode h) t } }

/-! ## The log (R406 to R409) -/

/-- Records of the audit area, and of the on-chip ring. -/
def auditCapacity : Nat := 106496
def ringCapacity : Nat := 4096

/-- The hash of the newest record on chip or in the NOR, or of the Device Serial Number while the log is empty (R408). -/
def Dev.auditHead (d : Dev) : List Byte :=
  match d.sec.audit.ring with
  | r :: _ => sha384 r
  | [] =>
    match Tab.get (fun _ => []) d.sec.audit.nor (d.fld Fld.SEC_AUDIT_SEQ_SEQ % auditCapacity) with
    | [] => sha384 (leBytes 8 d.sec.dsn)
    | r => sha384 r

/-- The records that are not yet exported. -/
def Dev.unexported (d : Dev) : Nat := d.fld Fld.SEC_AUDIT_SEQ_SEQ - d.sec.audit.exported

/-- AUDIT_NEAR_FULL is judged: 90 % of the area holds records that are not exported (R409). -/
def Dev.judgeAudit (d : Dev) : Dev :=
  d.putBit Fld.SEC_STATUS_AUDIT_NEAR_FULL (9 * auditCapacity ≤ 10 * d.unexported)

/-- Under HOLD the log is full, so that an action which needs a record of its own is refused (R409). -/
def Dev.auditHeld (d : Dev) : Bool :=
  d.bit Fld.SEC_AUDIT_POLICY_HOLD && (auditCapacity ≤ d.unexported || ringCapacity ≤ d.sec.audit.unwritten.length)

/-- The 128 bytes of a record (R407). -/
def auditRecord (e : Esn) (source role action outcome keys seq : Nat) (detail prev : List Byte) : List Byte :=
  leBytes 6 e.toNat ++ leBytes 1 source ++ leBytes 1 role ++ leBytes 2 action ++ leBytes 1 outcome ++ leBytes 1 keys
    ++ leBytes 4 seq ++ bytesAt detail 0 48 ++ prev ++ zeroBytes 16

/-- A record is appended: it gets a class 6 ESN, enters the ring and waits for the NOR; a record that the ring would
overwrite before it is in the NOR is lost (R407, R409). -/
def Dev.auditLinked (d : Dev) (prev : List Byte) (source role action outcome keys : Nat) (detail : List Byte) : Dev :=
  let seq := (d.fld Fld.SEC_AUDIT_SEQ_SEQ + 1) % 2 ^ 32
  let r := auditRecord d.esn source role action outcome keys seq detail prev
  let d := (d.event .audit source action [role, outcome, keys]).put Fld.SEC_AUDIT_SEQ_SEQ seq
  let lost : Bool := ringCapacity ≤ d.sec.audit.unwritten.length
  let d := { d with sec := { d.sec with audit := { d.sec.audit with
    ring := (r :: d.sec.audit.ring).take ringCapacity
    unwritten := (if lost then d.sec.audit.unwritten.drop 1 else d.sec.audit.unwritten) ++ [r] } } }
  ((d.when lost fun d => d.putBit Fld.SEC_STATUS_AUDIT_GAP true).count (Adr.SEC_CNT 6)).judgeAudit

/-- A record linked to the newest one. -/
def Dev.auditWith (d : Dev) (source role action outcome keys : Nat) (detail : List Byte) : Dev :=
  d.auditLinked d.auditHead source role action outcome keys detail

/-- A record without key slots. -/
def Dev.audit (d : Dev) (source role action outcome : Nat) (detail : List Byte) : Dev :=
  d.auditWith source role action outcome 0xff detail

/-- A record of an action of a holder. -/
def Dev.auditBy (d : Dev) (h : RoleHolder) (action outcome : Nat) (detail : List Byte) : Dev :=
  d.audit (holderSource h) (d.roleOf h) action outcome detail

/-- A record of the device itself. -/
def Dev.auditEvent (d : Dev) (detail : List Byte) : Dev := d.audit 0 0 0x0800 0 detail

/-- Outcomes of R407. -/
def taken : Nat := 0
def denied : Nat := 1
def failed : Nat := 2

/-! ## Rows -/

/-- Records move from the ring to the NOR; a write that fails leaves them on chip (R409). -/
def execAuditNorWrite (w : NorWrite) (s : State) : Host.Outcome State Fault Refusal :=
  s.on fun d =>
    d.when (!d.sec.audit.unwritten.isEmpty) fun d =>
    let d := d.copyDisagrees copiesSecurity w.copy
    if w.ok then
      { d with sec := { d.sec with audit := { d.sec.audit with
        nor := d.sec.audit.unwritten.foldl (fun t r => Tab.set (fun _ => []) t (fieldAt r 12 4 % auditCapacity) r)
          d.sec.audit.nor
        unwritten := [] } } }
    else d.putBit Fld.SEC_STATUS_AUDIT_NOR_FAIL true

/-- AGG_S passes: each queue pair that carried data commands gets one record of their counts (R406). -/
def execAuditAggregate (s : State) : Host.Outcome State Fault Refusal :=
  s.on fun d =>
    let d := d.each d.sec.audit.aggregate fun d e =>
      d.audit 1 (d.fld (Fld.HQ_QP_CFG_ROLE e.1)) 0x0700 taken (leBytes 4 e.1 ++ (e.2.map (leBytes 4)).flatten)
    { d with sec := { d.sec with audit := { d.sec.audit with aggregate := [] } } }

/-- A data command is counted for its queue pair's record (R406): 0 READ, 1 WRITE, 2 FLUSH, 3 ABORT, with its blocks. -/
def Dev.aggregate (d : Dev) (q kind blocks : Nat) : Dev :=
  let inc (l : List Nat) (k n : Nat) : List Nat := l.set k (l.getD k 0 + n)
  let l := Tab.get (fun _ => [0, 0, 0, 0, 0, 0]) d.sec.audit.aggregate q
  let l := inc l kind 1
  let l := if kind = 0 then inc l 4 blocks else if kind = 1 then inc l 5 blocks else l
  { d with sec := { d.sec with audit := { d.sec.audit with
    aggregate := Tab.set (fun _ => [0, 0, 0, 0, 0, 0]) d.sec.audit.aggregate q l } } }

end Sys2Proof.Machine
end

