-- ==== Sys2Proof/Machine/Loops.lean ====
section
/-! DEFINITION. The optical loops that the vendor programs of a head run in a period, the laser APC, period ticks, and the
sequences that close the loops: capture, jumps and seeks (R145, R157 to R166, R170, R172, R365, R482, R483). -/

namespace Sys2Proof.Machine

/-! ## Numbers and gains (R157, R158; log 138) -/

/-- Signed numbers in 2^-16 of their unit. -/
def fix16 (v : Int) : Int := 65536 * v

/-- The product of two numbers in 2^-16. -/
def mul16 (a b : Int) : Int := roundDiv (a * b) 65536

/-- A ratio in 2^-16; what one with a zero denominator gives is left open (log 138). -/
def ratio16 (num : Int) (den : Nat) : Int :=
  if den = 0 then signedOf 32 (Config.freeOf 6 (codeOf 64 num)) else roundDiv (fix16 num) den

/-- A binary32 word in 2^-16, rounded. -/
def fixOf (w : Word) : Int :=
  let x := (fltOf w).exact
  if 0 ≤ x.2 + 16 then x.1 * 2 ^ (x.2 + 16).toNat else roundDiv x.1 (2 ^ (-(x.2 + 16)).toNat)

/-- A coefficient of a head's programs, written to its banks at calibration for the layer and zone: a free value (R157; log 138). -/
def Dev.loopGain (d : Dev) (h k : Nat) : Int :=
  signedOf 32 (Config.freeOf 5 (k + 128 * ((d.head h).layer + 8 * d.headZone h)))

/-- Places of the coefficients. -/
def gainFe : Nat := 0
def gainTilt : Nat := 1
def gainLens : Nat := 2
def gainReg : Nat := 3
def gainKdpp : Nat := 4
def gainTiltLaw : Nat := 5
def gainTiltLayer : Nat := 6
def gainTiltHold : Nat := 7
def gainSweep : Nat := 8
def gainJump : Nat := 10
def gainSeek : Nat := 11
def gainKick : Nat := 12
def gainApc : Nat := 13
def gainPp : Nat := 16
def gainFocusLaw : Nat := 32
def gainLensLaw : Nat := 36
def gainDeflLaw : Nat := 40
def gainStep : Nat := 44

/-! ## Signals (R154, R157, R365) -/

/-- A servo input of the last conversion. -/
def Dev.spdIn (d : Dev) (h i : Nat) : Int := (((d.head h).spd.getD i 0).toNat : Int)

/-- The servo sum of a beam (R157). -/
def Dev.beamSum (d : Dev) (h b : Nat) : Nat := servoSumOf (d.head h).spd b

/-- The focus error of B4 or B5 in nm (R157). -/
def Dev.focusError (d : Dev) (h b : Nat) : Int :=
  let q (i : Nat) : Int := d.spdIn h ((beamInputs b).getD i 0)
  mul16 (d.loopGain h gainFe) (ratio16 ((q 0 + q 2) - (q 1 + q 3)) (d.beamSum h b))

/-- The push-pull of a beam before its gain: outer less inner side. -/
def Dev.pushPullRaw (d : Dev) (h b : Nat) : Int :=
  let q (i : Nat) : Int := d.spdIn h ((beamInputs b).getD i 0)
  if b = 4 ∨ b = 5 then (q 0 + q 1) - (q 2 + q 3) else q 1 - q 0

/-- PP_b in nm, positive outward (R157). -/
def Dev.pushPull (d : Dev) (h b : Nat) : Int :=
  mul16 (d.loopGain h (gainPp + b)) (ratio16 (d.pushPullRaw h b) (d.beamSum h b))

/-- A normalised difference of two inputs. -/
def Dev.pairRatio (d : Dev) (h i j : Nat) : Int := ratio16 (d.spdIn h i - d.spdIn h j) (d.spdIn h i + d.spdIn h j).toNat

/-- TE_T in millidegrees (R157). -/
def Dev.tiltError (d : Dev) (h : Nat) : Int := mul16 (d.loopGain h gainTilt) (d.pairRatio h 24 25)

/-- LO in µm, positive outward (R157). -/
def Dev.lensOffset (d : Dev) (h : Nat) : Int := mul16 (d.loopGain h gainLens) (d.pairRatio h 27 26)

/-- The KD tracking error: the differential push-pull of the main spot and the side spots (R365). -/
def Dev.kdTrack (d : Dev) : Int :=
  let s (i : Nat) : Int := d.spdIn 0 i
  fix16 ((s 0 + s 1) - (s 2 + s 3)) - d.loopGain 0 gainKdpp * ((s 28 - s 29) + (s 30 - s 31))

/-- Beam b of the head is in defect (R162). -/
def Dev.inDefect (d : Dev) (h b : Nat) : Bool := d.maskBit (Fld.SRV_DEFECT_MASK h) b

/-! ## Laws (R158, R159, R186, R187) -/

/-- The focus law's low-pass at 90 kHz, of one pole, discretised by the bilinear transform at 1.375 MHz, in 2^-16: the part of the sum of the
input and the one before, and of the output before (R158; its order is log 138's). -/
def lowPass (x x1 y1 : Int) : Int := mul16 11178 (x + x1) + mul16 43180 y1

/-- PI plus lead with the gains from place k on: the proportional, the integral, the lead's gain and its pole. While it is frozen, or a
clamp acted, the integrator stands; a loop that closes with PRESET keeps its output of before. -/
def Dev.law (d : Dev) (h k : Nat) (s : LawSt) (e : Int) (frozen : Bool) : LawSt :=
  let p := mul16 (d.loopGain h k) e
  if s.fresh then { s with integ := s.out - p, lead := 0, seen := e, fresh := false }
  else
    let integ := if frozen || s.clamped then s.integ else s.integ + mul16 (d.loopGain h (k + 1)) e
    let lead := mul16 (d.loopGain h (k + 2)) (e - s.seen) + mul16 (d.loopGain h (k + 3)) s.lead
    { s with integ := integ, lead := lead, seen := e, out := p + integ + lead }

/-- A head's loops changed by g. -/
def Dev.onLoop (d : Dev) (h : Nat) (g : LoopSt → LoopSt) : Dev := d.onHead h fun s => { s with loop := g s.loop }

def Dev.loops (d : Dev) (h : Nat) : LoopSt := (d.head h).loop

def lawRest (_ : Nat) : LawSt := {}

/-- An output port of a head takes a number in 2^-16 as its program's EMIT brings it. -/
def Dev.loopOut (d : Dev) (h q : Nat) (v : Int) : Dev := d.portWrite (0x80 * h + q) (fltAt v 16).1

/-- The acceleration of a profiler channel through its feed-forward gain (R191). -/
def Dev.feedForward (d : Dev) (h p ch k : Nat) : Int :=
  mul16 (d.loopGain h k) (fixOf (Tab.get zeroWord (d.arcPair p).acc ch))

/-! ## Deflectors (R159, R170) -/

/-- The shift of a beam in pitches, as SHIFT codes it (R168). -/
def shiftIn (word b : Nat) : Int := signedOf 2 (word / 4 ^ b)

/-- Periods of the shaped step: 2.5 µs of the 2.75 MHz period, rounded up (R170). -/
def stepPeriods : Nat := 7

/-- The shape of a step: the part of the change still to come with n periods left, which the spec does not give (R170; log 138). -/
def Dev.stepShape (d : Dev) (h n : Nat) (change : Int) : Int :=
  if n = 0 then 0 else mul16 (d.loopGain h (gainStep + n)) change

/-- A change of SHIFT starts the shaped step of each beam that it moves (R170). -/
def Dev.startSteps (d : Dev) (h : Nat) : Dev :=
  let new := d.fld (Fld.SRV_SHIFT_SHIFT h)
  let old := (d.loops h).shifts
  let moved := (List.range 10).filter fun b => shiftIn old b != shiftIn new b
  d.onLoop h fun s => { s with
    shifts := new
    step := moved.foldl (fun t b => Tab.set (fun _ => (0, 0)) t b (stepPeriods, fix16 240 * (shiftIn old b - shiftIn new b))) s.step }

/-- The newest address block of a seek named its target, upon which the deflectors close (R166). -/
def SeekSt.closing (k : SeekSt) : Bool := k.last == some (8 * k.target)

/-- The deflector of a beam in a period: its law on PP_b - TRIM_b, held with its integrator while the beam is in defect, masked during
a shaped step; plus the shift, clamped to ±500 nm (R159, R162, R170). A seek holds every deflector until an address block names the target: R166
says that of the band step only, and of the other kinds it is the model's choice (DESIGN CHOICE, log 159). -/
def Dev.deflPeriod (d : Dev) (h b : Nat) : Dev :=
  let s := d.loops h
  let l := Tab.get lawRest s.defl b
  let st := Tab.get (fun _ => (0, 0)) s.step b
  let e := d.pushPull h b - Tab.get (fun _ => 0) s.trim b
  let held := d.inDefect h b || 0 < st.1 || (d.head h).seek.any fun k => !k.closing
  let l := if held then l else d.law h gainDeflLaw l e false
  let want := l.out + fix16 240 * shiftIn s.shifts b + d.stepShape h (st.1 - 1) st.2
  let x := clampInt (-(fix16 500)) (fix16 500) want
  let d := d.onLoop h fun s => { s with
    defl := Tab.set lawRest s.defl b { l with clamped := x != want }
    pos := Tab.set (fun _ => 0) s.pos b x
    step := Tab.set (fun _ => (0, 0)) s.step b (if st.1 ≤ 1 then (0, 0) else (st.1 - 1, st.2)) }
  d.portWrite (0x80 * h + 0x10 + b) (fltRatio (x * 8192) (500 * 65536))

/-! ## Registration (R163) -/

/-- The registration of a beam on its new bursts: r(b), the parity of bursts C and D, TRIM_b, and the second parity failure in a row;
reg_k is 3. -/
def Dev.regBeam (d : Dev) (h b n t : Nat) : Dev :=
  let u (k : Nat) : Nat := Tab.get (fun _ => 0) (d.head h).bursts (4 * (n % 10) + k)
  let r := mul16 (d.loopGain h gainReg) (ratio16 ((u 0 : Int) - u 1) (u 0 + u 1))
  let ok := if t % 2 = 0 then u 3 < u 2 else u 2 < u 3
  let s := d.loops h
  let old := Tab.get (fun _ => 0) s.trim b
  let trim := if ok && !d.inDefect h b then clampInt (-(fix16 100)) (fix16 100) (old - roundDiv r 8) else old
  let odd := if ok then 0 else Tab.get (fun _ => 0) s.odd b + 1
  let d := d.onLoop h fun s => { s with
    trim := Tab.set (fun _ => 0) s.trim b trim, reg := Tab.set (fun _ => 0) s.reg b r, odd := Tab.set (fun _ => 0) s.odd b odd }
  (d.loopOut h (0x50 + b) r).loopOut h (0x60 + b) trim

/-- The registration section: every beam with new bursts since the last period. -/
def Dev.regPeriod (d : Dev) (h p : Nat) : Dev :=
  let status := (Tab.get zeroWord (d.arcPair p).latched (0x80 * h + 0x3d)).toNat
  d.each ((List.range 10).filter status.testBit) fun d b =>
    match d.targetTrack h b, d.sliceOfBeam h b with
    | some t, some n =>
      let d := d.regBeam h b n t
      d.when (2 ≤ Tab.get (fun _ => 0) (d.loops h).odd b) fun d => d.arcEvent p (0x700 + 32 * (2 + h) + b) 0
    | _, _ => d

/-! ## Focus, lens, tilt and sled (R159 to R162) -/

/-- The beams that FE is taken from, and whether the one selected gave way to the other (R160). With FOCUS_SRC at 0b11 the spec speaks of a beam in
defect only: the model lets a beam out of service leave the mean too, and sets no FOCUS_ALT, since none is selected (DESIGN CHOICE, log 159). -/
def Dev.focusSource (d : Dev) (h : Nat) : List Nat × Bool :=
  let bad (b : Nat) (other : Nat) : Bool := !d.beamGood h b || (d.inDefect h b && !d.inDefect h other)
  match d.fld (Fld.SRV_CTRL_FOCUS_SRC h) with
  | 1 => if bad 4 5 then ([5], true) else ([4], false)
  | 2 => if bad 5 4 then ([4], true) else ([5], false)
  | _ => if bad 4 5 then ([5], false) else if bad 5 4 then ([4], false) else ([4, 5], false)

/-- FE over the beams that give it. -/
def Dev.focusMean (d : Dev) (h : Nat) : List Nat → Int
  | [b] => d.focusError h b
  | l => roundDiv ((l.map (d.focusError h)).foldl (· + ·) 0) (max 1 l.length)

/-- The focus section: the law through the low-pass at 90 kHz, with the jump profile's feed-forward; held while every source is in
defect (R158, R160, R162). -/
def Dev.focusPeriod (d : Dev) (h p : Nat) : Dev :=
  let src : List Nat × Bool := if d.mode = 2 then ([4], false) else d.focusSource h
  let s := d.loops h
  let coast := src.1.all (d.inDefect h)
  let fe := if coast then s.fe else d.focusMean h src.1
  let l := if coast then s.focus else d.law h gainFocusLaw s.focus fe false
  let low := if coast then s.low else lowPass l.out s.focus.out s.low
  let d := d.onLoop h fun s => { s with fe := fe, focus := l, low := low }
  let d := d.when (src.2 != d.bit (Fld.SRV_STATUS_FOCUS_ALT h)) fun d =>
    d.arcEvent p (0x600 + (if src.2 then 0x100 else 0) + 32 * h + 4) 0
  (d.loopOut h 0x00 (low + d.feedForward h p (2 + h) gainJump)).loopOut h 0x41 fe

/-- Half the sum of the greatest and the least of a list, none of an empty one (R159). -/
def midrange : List Int → Option Int
  | [] => none
  | a :: l => some (roundDiv (l.foldl max a + l.foldl min a) 2)

/-- The runout of a wedge: 64 values a revolution, by wedge div 32, between them linear (R159). -/
def runoutAt (rro : Tab Int) (w : Nat) : Int :=
  let v (i : Nat) : Int := Tab.get (fun _ => 0) rro (i % 64)
  v (w / 32) + roundDiv ((v (w / 32 + 1) - v (w / 32)) * (w % 32 : Nat)) 32

/-- The lens section: the midrange of the deflections of mapped beams outside defects, held while four or more mapped beams are in
defect; on a long seek the lens is centred on LO, on a nearer one it follows the profile alone; runout and feed-forward are added (R159,
R162, R166). In KD mode it tracks by itself (R172). -/
def Dev.lensPeriod (d : Dev) (h p : Nat) : Dev :=
  let s := d.loops h
  let hd := d.head h
  let good := (d.mapBeams h).filter fun b => !d.inDefect h b
  let lost := (d.mapBeams h).length - good.length
  let err : Option Int :=
    if d.mode = 2 then (if d.inDefect h 4 then none else some d.kdTrack)
    else match hd.seek with
      | some k => if k.kind = .long then some (d.lensOffset h) else none
      | none => if 4 ≤ lost then none else midrange (good.map fun b => Tab.get (fun _ => 0) s.pos b)
  let e := err.getD s.lensErr
  let l := if err.isSome then d.law h gainLensLaw s.lens e false else s.lens
  let rro := if d.mode = 2 then 0 else runoutAt s.rro hd.wedge
  let out := l.out + rro + d.feedForward h p (4 + h) gainSeek
  let d := d.onLoop h fun s => { s with lensErr := e, lens := l, track := out }
  (d.loopOut h 0x01 out).loopOut h 0x40 e

/-- The tilt section: an integrator of TE_T plus the layer's offset, held while ANY is set (R160 to R162). -/
def Dev.tiltPeriod (d : Dev) (h : Nat) : Dev :=
  let s := d.loops h
  let t := if d.bit (Fld.SRV_DEFECT_ANY h) then s.tilt else s.tilt + mul16 (d.loopGain h gainTiltLaw) (d.tiltError h)
  (d.onLoop h fun s => { s with tilt := t }).loopOut h 0x02 (t + d.loopGain h gainTiltLayer)

/-- The spiral's advance in a 1.375 MHz period in 2^-32 µm, of pitch hundredths of a micrometre per revolution: outward on even layers,
inward on odd ones (R39, R161, R172). -/
def spiralStep (pitch rpm layer : Nat) : Int :=
  let v := roundDiv (pitch * rpm * 2 ^ 32 : Nat) (100 * 82500000)
  if layer % 2 = 0 then v else -v

/-- The sled coupling section: still within 2 µm, else by what exceeds it × 2^-12, plus the spiral's advance; only the advance with
ANY set (R161, R162). -/
def Dev.sledPeriod (d : Dev) (h : Nat) : Dev :=
  let lo := d.lensOffset h
  let past := if fix16 2 < lo then lo - fix16 2 else if lo < -(fix16 2) then lo + fix16 2 else 0
  let move := if d.bit (Fld.SRV_DEFECT_ANY h) then 0 else past * 2 ^ 4
  let t := (d.loops h).sled + move + spiralStep (if d.mode = 2 then 32 else 192) d.rpm (d.head h).layer
  let d := d.onLoop h fun s => { s with sled := t }
  d.portWrite (0x80 * h + 0x6f) (fltAt t 32).1

/-- Crossings of tracks that a short seek counts: negative-going zeros of the position-0 beam's push-pull (R166). -/
def Dev.seekCrossings (d : Dev) (h : Nat) : Dev :=
  match (d.head h).seek with
  | none => d
  | some k =>
    let v := d.pushPullRaw h (d.beamAt h 0)
    d.onHead h fun s => { s with seek := some { k with pp := v, crossings :=
      if k.kind = .short ∧ 0 ≤ k.pp ∧ v < 0 then k.crossings + 1 else k.crossings } }

/-! ## The laser APC (R145) -/

/-- One integrator of the APC: it moves the level toward its target, and stands while its sample is stale. -/
def Dev.apcStep (d : Dev) (h b : Nat) (second : Bool) (sample : Nat × Bool) (target : Nat) : Dev :=
  if sample.2 then d
  else
    let k := 2 * b + second.toNat
    let old := Tab.get (fun _ => 0) (d.loops h).apc k
    let v := clampInt 0 (fix16 4095) (old + d.loopGain h (gainApc + second.toNat) * ((target : Int) - sample.1))
    (d.onLoop h fun s => { s with apc := Tab.set (fun _ => 0) s.apc k v }).loopOut h ((if second then 0x30 else 0x20) + b) v

/-- The APC of a head in a period: HI toward PW_TGT by DAC A, LO toward PR_TGT by DAC B (R145). -/
def Dev.apcPeriod (d : Dev) (h : Nat) : Dev :=
  let w := d.wps h
  d.each (if d.mode = 2 then [4] else List.range 10) fun d b =>
    (d.apcStep h b false (Tab.get (fun _ => (0, true)) w.hi b) (d.pwTgt h b)).apcStep h b true
      (Tab.get (fun _ => (0, true)) w.lo b) (d.prTgt h b)

/-- At a zone commit the program presets DAC A to its old code × PW_TGT(new) / PW_TGT(old), whose value with an old target of 0 is
left open (R145). -/
def Dev.apcPreset (d : Dev) (h : Nat) (old : Nat → Nat) : Dev :=
  d.each (List.range 10) fun d b =>
    let code := d.fld (Fld.WP_LVL_LEVEL_A h b)
    let v := clampInt 0 (fix16 4095) (ratio16 (code * d.pwTgt h b : Nat) (old b))
    (d.onLoop h fun s => { s with apc := Tab.set (fun _ => 0) s.apc (2 * b) v }).loopOut h (0x20 + b) v

/-! ## The motor sections of pair 2 (R213, R223, R239; log 168) -/

/-- A coefficient of the motor sections, written to the banks at calibration: a free value. -/
def motorGain (k : Nat) : Int := signedOf 32 (Config.freeOf 10 k)

/-- A proportional and integral law within limits; its integrator freezes at its clamp, and a loop that closes goes on from the output it held
(R186, R187). -/
def piLaw (kp ki : Int) (s : LawSt) (e lo hi : Int) : LawSt :=
  let p := mul16 kp e
  let integ := if s.fresh then s.out - p else if s.clamped then s.integ else s.integ + mul16 ki e
  let out := clampInt lo hi (p + integ)
  { integ := integ, seen := e, out := out, clamped := out != p + integ }

/-- An input port of a pair in 2^-16, as the period holds it. -/
def Dev.portFix (d : Dev) (p q : Nat) : Int := fixOf (Tab.get zeroWord (d.arcPair p).latched q)

/-- A current sense, whose zero lies at half its range (R459), through its calibrated scale. -/
def Dev.senseFix (d : Dev) (p q k : Nat) : Int := mul16 (motorGain k) (d.portFix p q - fix16 2048)

/-- The nominal voltage's code: 0.600 V of 1.000 V in 4,095 (R459). -/
def nominalCode : Word := fltInt 2457

/-- The sled section: a current loop for each phase of a sled, its duty fed forward against VM_SLED (R190, R239). -/
def Dev.sledLoop (d : Dev) (h p : Nat) : Dev :=
  d.each [0, 1] fun d q =>
    let s : SledSt := Tab.get (fun _ => {}) d.mot.sleds h
    let e := d.portFix p (0x118 + 2 * h + q) - d.senseFix p (0x108 + 2 * h + q) (2 * h + q)
    let l := piLaw (motorGain 4) (motorGain 5) (Tab.get lawRest s.cur q) e (-(fix16 1)) (fix16 1)
    let d := { d with mot := { d.mot with sleds := Tab.set (fun _ => {}) d.mot.sleds h { s with cur := Tab.set lawRest s.cur q l } } }
    d.portWrite (0x104 + 2 * h + q) (ffv (fltAt l.out 16).1 (Tab.get zeroWord (d.arcPair p).latched 0x10c) nominalCode).1

/-- The centred duties of two axes by min-max injection, in 2^-16 (R223). -/
def svm (va vb : Int) : List Int :=
  let v := mul16 56756 vb
  let l := [va, roundDiv (-va) 2 + v, roundDiv (-va) 2 - v]
  let off := roundDiv (l.foldl max va + l.foldl min va) 2
  l.map fun x => 32768 + mul16 (motorGain 20) (x - off)

/-- A law of the spindle section renewed. -/
def Dev.spinLaw (d : Dev) (k : Nat) (e lo hi : Int) : Dev × Int :=
  let s := d.mot.spn
  let l := Tab.get lawRest s.laws k
  let l := piLaw (motorGain (6 + 2 * k)) (motorGain (7 + 2 * k)) { l with fresh := l.fresh || s.handover } e lo hi
  (d.onSpn fun s => { s with laws := Tab.set lawRest s.laws k l }, l.out)

/-- Field weakening: id_ref from the squares of the bus voltage and of the last drive voltage; FW_ACTIVE follows it (R224). -/
def Dev.fieldWeakening (d : Dev) (p : Nat) : Dev :=
  let vbus := mul16 (motorGain 12) (d.portFix p 0x106)
  let m := mul16 62259 vbus
  let vlim2 := roundDiv (mul16 m m) 3
  let s := d.mot.spn
  let idRef := clampInt (-(motorGain 13).natAbs) 0 (s.idRef + mul16 (motorGain 14) (ratio16 (vlim2 - s.v2) vlim2.toNat))
  let d := d.onSpn fun s => { s with idRef := idRef }
  let on := decide (idRef < 0)
  d.when (on != d.bit Fld.MOT_STATUS_FW_ACTIVE) fun d => d.arcEvent p (0x600 + (if on then 0x100 else 0) + 32 * 4 + 24) 0

/-- The spindle section in FOC: Clarke and Park, the speed and current laws, feed-forward against the bus, and the centred duties; under
REGEN_INHIBIT no negative torque is asked for, and a spindle above its ramp is braked by its short (R213, R223, R230). -/
def Dev.focLoop (d : Dev) (p : Nat) : Dev :=
  let i := (Tab.get zeroWord (d.arcPair p).latched 0x110).toNat / 64
  let c := cosFix i / 2 ^ 84
  let s := sinFix i / 2 ^ 84
  let ia := d.senseFix p 0x100 15
  let ib := mul16 (ia + 2 * d.senseFix p 0x101 15) 37837
  let id := mul16 ia c + mul16 ib s
  let iq := mul16 ib c - mul16 ia s
  let w := d.portFix p 0x111
  let ramp := d.portFix p 0x126
  let we := mul16 (motorGain 16) w
  let d := d.fieldWeakening p
  let idRef := d.mot.spn.idRef
  let most : Int := (signedOf 32 (Config.freeOf 11 (codeOf 64 idRef))).natAbs
  let regen := d.bit Fld.MOT_CTRL_REGEN_INHIBIT
  let a := d.spinLaw 0 (ramp - w + mul16 (motorGain 17) (fixOf (Tab.get zeroWord (d.arcPair p).acc 6))) (if regen then 0 else -most) most
  let lim := fix16 32767
  let b := a.1.spinLaw 1 (idRef - id) (-lim) lim
  let q := b.1.spinLaw 2 (a.2 - iq) (-lim) lim
  let vd := b.2 - mul16 we (mul16 (motorGain 18) iq)
  let vq := q.2 + mul16 we (mul16 (motorGain 18) id + motorGain 19)
  let d := q.1.onSpn fun s => { s with v2 := mul16 vd vd + mul16 vq vq }
  let bus := Tab.get zeroWord (d.arcPair p).latched 0x106
  let fed (v : Int) : Int := fixOf (ffv (fltAt v 16).1 bus nominalCode).1
  if regen && decide (ramp < w) then
    (d.portWrite 0x103 (fltInt 2)).portWrite 0x100 (fltAt (mul16 (motorGain 21) (w - ramp)) 16).1
  else
    let l := svm (mul16 (fed vd) c - mul16 (fed vq) s) (mul16 (fed vd) s + mul16 (fed vq) c)
    (d.portWrite 0x103 (fltInt 1)).each (l.zipIdx) fun d e => d.portWrite (0x100 + e.2) (fltAt e.1 16).1

/-- The spindle section in STEP6: the amplitude from the speed law (R213, R222). -/
def Dev.stepLoop (d : Dev) (p : Nat) : Dev :=
  let a := d.spinLaw 3 (d.portFix p 0x126 - d.portFix p 0x111) 0 (fix16 1)
  (a.1.portWrite 0x103 (fltInt 1)).portWrite 0x100 (fltAt a.2 16).1

/-- The motor sections of a period with PHASE 0 (R178, R223). -/
def Dev.motorPeriod (d : Dev) (p : Nat) : Dev :=
  let d := d.when (d.bit Fld.MOT_CTRL_SLDA_EN) fun d => d.sledLoop 0 p
  let d := d.when (d.bit Fld.MOT_CTRL_SLDB_EN) fun d => d.sledLoop 1 p
  d.when d.programGoverns fun d => if d.spnState = spnStep6 then d.stepLoop p else d.focLoop p

/-! ## The period (R158, R171) -/

/-- A 1.375 MHz period of a pair: every one, or in a 2.75 MHz program every other, by the parity of the period count (R158, R171). -/
def Dev.slowPeriod (d : Dev) (p : Nat) : Bool :=
  let lead := (d.pairEngines p).headD 0
  d.fld (Fld.ARC_PERIOD_SRC lead) != 1 || (d.arcEng lead).ctx.pcnt % 2 == 0

/-- The head's sections of a period: deflectors and registration in each, the others on alternate periods of a 2.75 MHz bundle, by the
parity of the period count. -/
def Dev.bundlePeriod (d : Dev) (h p : Nat) : Dev :=
  if !(d.loops h).closed then d
  else
    let d := d.when (d.mode != 2) fun d =>
      ((((d.startSteps h).seekCrossings h).each (List.range 10) fun d b => d.deflPeriod h b).regPeriod h p)
    d.when (d.slowPeriod p) fun d =>
      let d := (d.focusPeriod h p).lensPeriod h p
      (d.when (d.mode != 2) fun d => d.tiltPeriod h).sledPeriod h

/-- The vendor programs of a pair in the period that begins: a head's bundle where the image takes part in the head's zones, and on pair 2 the motor
sections with PHASE 0 and the APC of both heads at 1.375 MHz (R145, R158, R171, R178). -/
def Dev.vendorPeriod (d : Dev) (p : Nat) : Dev :=
  let d := d.each [0, 1] fun d h => d.when ((d.headPairs h).contains p) fun d => d.bundlePeriod h p
  let d := d.when (p == 2 && d.drivesMotor p && (d.arcEng ((d.pairEngines p).headD 0)).ctx.phase == 0) fun d => d.motorPeriod p
  d.when (p == 2 && d.slowPeriod p) fun d => d.each [0, 1] fun d h => d.when (d.bit (Fld.SRV_CTRL_AFE_ON h) && (d.mode != 2 || h == 0)) fun d => d.apcPeriod h

/-- ARC_PERIOD_TICK: a period begins, and with it the vendor program's own work of the period; a WAITTICK that is missing is a mismatch;
a voting period that ends is judged; in a held period nothing runs, but what waits for a boundary takes force, and an admitted program ends the
takeover (R158, R176, R178, R188, R196, R198 to R204; log 162). -/
def execArcPeriodTick (p : ArcPair) (onSpindle : Bool) (s : State) : Host.Outcome State Fault Refusal :=
  s.on fun d =>
    let d := d.periodPlace p onSpindle
    if !d.pairRuns p then (if (d.arcPair p).next.isSome then (d.boundary p onSpindle).vendorPeriod p else d)
    else
      let late := (d.voters p).length == 2 && (d.arcPair p).takeover.isNone && !(d.voters p).all fun e => (d.arcEng e).idle
      let d := d.when late fun d => d.arcMismatch p []
      match (d.arcPair p).takeover with
      | none => (d.boundary p onSpindle).vendorPeriod p
      | some t =>
        if t.voting then
          let d := d.votingEnds p t
          if d.pairFailed p then d else (d.boundary p onSpindle).vendorPeriod p
        else if (d.arcPair p).next.isSome then ((d.endTakeover p).boundary p onSpindle).vendorPeriod p
        else
          let d := (d.boundaryPeriod p).boundaryExchange p
          if t.loaded then
            let d := d.onPair p fun s => { s with takeover := some { t with voting := true } }
            let d := d.each (d.voters p) fun d e => d.putBit (Fld.ARC_STATUS_VOTING e) true
            ((d.advancePeriod p true onSpindle).beginPeriod p).vendorPeriod p
          else d

/-- The runout table learns from the lens loop's integrator at the rate 2^-8 a revolution, each of its 64 values once (R159). -/
def Dev.learnRunout (d : Dev) (h : Nat) : Dev :=
  let w := (d.head h).wedge
  d.when ((d.loops h).closed && w % 32 == 0 && d.mode != 2 && (d.head h).seek.isNone) fun d => d.onLoop h fun s =>
    { s with rro := Tab.upd (fun _ => 0) s.rro (w / 32) (· + roundDiv s.lens.integ 256) }

/-! ## Closing the loops (R164 to R166) -/

/-- An exchange of banks that the command's own time takes past its boundary (R164, R188; log 139). -/
def Dev.swapNow (d : Dev) (h : Nat) : Dev := d.each (d.headPairs h) fun d p => (d.requestSwap p).boundaryExchange p

/-- The sled's position in 2^-32 µm, where its coupling target begins (R161, R235; log 138). -/
def Dev.sledAt (d : Dev) (h : Nat) : Int :=
  ((d.reg (Adr.SLD_POS h)).toInt - (d.reg (Adr.SLD_ORIGIN h)).toInt) * fixOf (d.reg (Adr.SLD_PITCH h))

/-- The cascade closes with PRESET in every loop: each goes on from the output it held (R164, R165, R187). -/
def Dev.presetLoops (d : Dev) (h : Nat) : Dev :=
  d.onLoop h fun s => { s with
    closed := true
    lens := { s.lens with fresh := true }
    defl := (List.range 10).foldl (fun t b => Tab.upd lawRest t b fun l => { l with fresh := true }) s.defl }

/-- Track capture: the deflectors held at their shifts, the lens from where it closed, which the spec leaves to the moment; then the cascade
closes with PRESET (R164, R165; log 138). -/
def Dev.trackCapture (d : Dev) (h : Nat) : Dev :=
  (d.onLoop h fun s => { s with
    lens := { out := d.loopGain h gainKick, fresh := true }, defl := [], step := [], shifts := d.fld (Fld.SRV_SHIFT_SHIFT h) }).presetLoops h

/-- A capture closes the loops: focus from the sweep's output, which the spec leaves to calibration, then the track (R164; log 138). -/
def Dev.closeLoops (d : Dev) (h : Nat) : Dev :=
  let sweep := d.loopGain h gainSweep
  let sled := d.sledAt h
  (d.onLoop h fun s => { s with focus := { out := sweep, fresh := true }, low := sweep, tilt := 0, sled := sled, odd := [] }).trackCapture h

/-- FOCUS_CAPTURE at or below 1,800 rpm: two sweeps at most; a failed one leaves FOCUS_FAIL (R164). The RMS check of its step 4 is part of
`quiet`; what follows when it fails the spec does not say, and the model takes the capture as failed (DESIGN CHOICE, log 140). -/
def execFocusCapture (h : Head) (layer : Fin 8) (r : CaptureRecord) (s : State) : Host.Outcome State Fault Refusal :=
  s.on fun d =>
    if !d.hasHead h || 1800 < d.rpm then d
    else if d.mode = 2 then
      match h, r.kd with
      | .a, some m =>
        let d := (((d.loadKd m.1 m.2).headOff 0).loopOut 0 0x02 (d.loopGain 0 gainTiltHold)).swapNow 0
        d.when r.quiet fun d =>
          let d := (d.onHead 0 fun s => { s with captured := true, layer := r.layer.val }).closeLoops 0
          ((d.swapNow 0).coldSlices 0).count (Adr.SRV_CNT 0 2)
      | _, _ => d
    else if d.mode ≠ 1 then d
    else
      let d := (((d.serveSlices h.ix).setSa h.ix).loopOut h.ix 0x02 (d.loopGain h.ix gainTiltHold)).swapNow h.ix
      let found := (8 - layer.val ≤ r.first || 8 - layer.val ≤ r.second) && r.quiet
      if found then
        let d := (d.loadSide h.ix r.records).onHead h.ix fun s =>
          { s with captured := true, layer := r.layer.val, seek := none }
        let d := d.when (d.fld Fld.BOOT_STATUS_STEP == 9) fun d => d.put Fld.BOOT_STATUS_STEP 10
        let d := ((d.onBand h.ix (r.track / 8)).coldSlices h.ix).count (Adr.SRV_CNT h.ix 2)
        (((d.closeLoops h.ix).swapNow h.ix).each (d.headPairs h.ix) fun d p => d.requestSwap p)
      else
        let d := d.headOff h.ix
        (d.putBit (Fld.SRV_STATUS_FOCUS_FAIL h.ix) true).event .host h.ix 0 [layer.val]

/-- FOCUS_LOST: every mapped beam has been in defect for 1 ms, so focus is lost and the head's program goes to its
capture bank (R162). -/
def execFocusLost (h : Head) (s : State) : Host.Outcome State Fault Refusal :=
  s.on fun d =>
    if !d.hasHead h || !d.allDefect h.ix then d
    else (d.loseFocus h.ix).each (d.headPairs h.ix) fun d p => d.requestSwap p

/-- LAYER_JUMP of a captured head to the adjacent layer: the gates close, SA moves, lens and deflectors hold while focus is kicked and
closes with PRESET, and the slices cold-acquire; at the outer edge the head lands on the lead band (R165, R483). What a jump that
does not land leaves the spec does not say: the model takes focus as lost (DESIGN CHOICE, log 140). -/
def execLayerJump (h : Head) (up landed : Bool) (s : State) : Host.Outcome State Fault Refusal :=
  s.on fun d =>
    let hd := d.head h.ix
    if !d.hasHead h || !hd.captured || (up && hd.layer == 7) || (!up && hd.layer == 0) then d
    else
      let d := (d.restoreBeams h.ix).setSa h.ix
      let rise := !(d.wps h.ix).focus
      let d := d.when rise fun d => (d.inhibit h.ix inhFocus (d.mapBeams h.ix) (some 3)).offtrack h.ix
      let dest := if up then hd.layer + 1 else hd.layer - 1
      let d := d.count (Adr.SRV_CNT h.ix 4)
      if landed then
        let band := if 17876 ≤ hd.band then (if dest % 2 = 1 then leadBand else 17876) else hd.band
        let d := ((d.onHead h.ix fun s => { s with layer := dest, seek := none }).onBand h.ix band).coldSlices h.ix
        (d.onLoop h.ix fun s => { s with focus := { s.focus with fresh := true } }).trackCapture h.ix
      else d.loseFocus h.ix

/-- The kind of a seek (R166). -/
def seekKind (from_ target : Nat) : SeekKind :=
  let n := ((from_ : Int) - target).natAbs
  if n ≤ 1 then .step else if n ≤ 256 then .short else .long

/-- The seek lands (R166). -/
def Dev.seekLands (d : Dev) (h : Nat) (k : SeekSt) : Dev :=
  (((d.onHead h fun s => { s with seek := none }).onBand h k.target).coldSlices h).count (Adr.SRV_CNT h 5)

/-- Every deflector is closed: each mapped beam outside a defect tracks by its law (R166). -/
def Dev.deflClosed (d : Dev) (h : Nat) : Bool :=
  let s := d.loops h
  s.closed && ((d.mapBeams h).filter fun b => !d.inDefect h b).all fun b =>
    !(Tab.get lawRest s.defl b).fresh && (Tab.get (fun _ => (0, 0)) s.step b).1 == 0

/-- The firmware corrects a landing that is k tracks off: by band steps where k is a multiple of 8, else by a lens jump, counted the same way; each
correction counts (R166). -/
def Dev.seekCorrects (d : Dev) (h : Nat) (k : SeekSt) (off : Int) : Dev :=
  let k := { k with kind := if off % 8 = 0 then .step else .short, agreed := 0, last := none, crossings := 0 }
  (d.onHead h fun s => { s with seek := some k }).count (Adr.SRV_CNT h 6)

/-- A valid address block of the position-0 beam during a seek. A short seek finishes a long one within its reach. The first block that names the
target closes the deflectors with PRESET; the second in a row, all being closed, lands; two in a row that name another track of the layer, but
on a long seek, have the landing corrected (R166). -/
def Dev.seekAddress (d : Dev) (h track layer : Nat) : Dev :=
  match (d.head h).seek with
  | none => d
  | some k =>
    if layer ≠ (d.head h).layer then d.onHead h fun s => { s with seek := some { k with agreed := 0, last := none } }
    else
      let near := decide ((((track / 8 : Nat) : Int) - k.target).natAbs ≤ 256)
      let k := { k with kind := if k.kind = .long ∧ near then .short else k.kind
                        agreed := if k.last = some track then k.agreed + 1 else 1, last := some track }
      let d := d.onHead h fun s => { s with seek := some k }
      let off : Int := (track : Int) - (8 * k.target : Nat)
      if k.agreed < 2 then d.when (off == 0 && (d.loops h).closed) fun d => d.presetLoops h
      else if off = 0 then d.when (d.deflClosed h) fun d => d.seekLands h k
      else d.when (k.kind != .long) fun d => d.seekCorrects h k off

end Sys2Proof.Machine
end

