-- ==== Sys2Proof/Machine/Queues.lean ====
section
/-! DEFINITION. The queues of the queue manager (R260, R261). -/

namespace Sys2Proof.Machine

/-- Entries that a queue can hold; 0 where it is disabled. -/
def Dev.queueSize (d : Dev) (q : Nat) : Nat :=
  if d.fld (Fld.SPP_Q_LOG2_LOG2 q) = 0 then 0 else 2 ^ d.fld (Fld.SPP_Q_LOG2_LOG2 q)

/-- Entries of a queue that nobody has popped. -/
def Dev.queueCount (d : Dev) (q : Nat) : Nat :=
  let m := 2 * d.queueSize q
  if m = 0 then 0 else (d.fld (Fld.SPP_Q_PTR_TAIL q) + m - d.fld (Fld.SPP_Q_PTR_HEAD q)) % m

/-- A queue without room: its entries and those held for tasks fill it (R261). -/
def Dev.queueFull (d : Dev) (q : Nat) : Bool := d.queueSize q ≤ d.queueCount q + d.fld (Fld.SPP_Q_HELD_HELD q)

/-- The buffer address of the entry at a pointer. -/
def Dev.queueAddr (d : Dev) (q ptr : Nat) : Nat :=
  d.fld (Fld.SPP_Q_BASE_BASE q) * pageBytes + 64 * (ptr % d.queueSize q)

/-- An entry of 64 bytes is appended to a queue that has room. -/
def Dev.queuePush (d : Dev) (q : Nat) (l : List Byte) : Dev :=
  let t := d.fld (Fld.SPP_Q_PTR_TAIL q)
  (d.bufWrite (d.queueAddr q t) (bytesAt l 0 64)).put (Fld.SPP_Q_PTR_TAIL q) ((t + 1) % (2 * d.queueSize q))

/-- The next entry of a queue for a task, held for it: one returned after a restart comes ahead of every other (R261). -/
def Dev.queuePop (d : Dev) (q t : Nat) : Option (List Byte × Dev) :=
  match d.span.held.find? fun e => e.queue == q && e.task == t && e.returned with
  | some e =>
    let mark (l : List HeldEntry) : List HeldEntry :=
      match l.findIdx? fun x => x == e with
      | some i => l.set i { e with returned := false }
      | none => l
    some (e.bytes, { d with span := { d.span with held := mark d.span.held } })
  | none =>
    if d.queueCount q = 0 then none
    else
      let h := d.fld (Fld.SPP_Q_PTR_HEAD q)
      let l := d.bufRead (d.queueAddr q h) 64
      let d := d.put (Fld.SPP_Q_PTR_HEAD q) ((h + 1) % (2 * d.queueSize q))
      let d := { d with span := { d.span with held := d.span.held ++ [(⟨q, t, l, false⟩ : HeldEntry)] } }
      some (l, d.put (Fld.SPP_Q_HELD_HELD q) (d.fld (Fld.SPP_Q_HELD_HELD q) + 1))

/-- The entries held for a task are freed (R261, R271); those that were returned to it and wait for its next POP stay
(log 112). -/
def Dev.freeHeld (d : Dev) (t : Nat) : Dev :=
  let d := d.each (d.span.held.filter fun e => e.task == t && !e.returned) fun d e =>
    if e.queue < 127 then d.put (Fld.SPP_Q_HELD_HELD e.queue) (d.fld (Fld.SPP_Q_HELD_HELD e.queue) - 1) else d
  { d with span := { d.span with held := d.span.held.filter fun e => e.task != t || e.returned } }

/-- The entries held for a task wait to be returned to it; the counter takes their number (R261, R284). -/
def Dev.returnHeld (d : Dev) (t : Nat) : Nat × Dev :=
  let n := (d.span.held.filter fun e => e.task == t && !e.returned).length
  (n, { d with span := { d.span with
    held := d.span.held.map fun e => if e.task = t then { e with returned := true } else e } })

/-- The servo event stream. -/
def servoQueue : Nat := 96

/-- A 16-byte servo record (R205, R247): byte 6 names its source. -/
def servoRecord (e : Esn) (source code : Nat) (v : Word) : List Byte :=
  leBytes 6 e.toNat ++ leBytes 1 source ++ [0] ++ leBytes 2 code ++ [0, 0] ++ leBytes 4 v.toNat

end Sys2Proof.Machine
end

