-- ==== Sys2Proof/Machine/Motor.lean ====
section
/-! DEFINITION. The motor block: the spindle's sequencer, estimator and protection, the profiler, the sleds and their limits
(R208 to R248, R459, R479 to R481). -/

namespace Sys2Proof.Machine

/-! ## Events (R247) -/

/-- A motor event: born, and placed in the servo event stream where that has room (R247, R260; log 36). -/
def Dev.motorEvent (d : Dev) (code : Nat) (v : Word) : Dev :=
  let e := d.esn
  let d := d.event .motorRecord 0x80 code [v.toNat]
  d.when (!d.queueFull servoQueue) fun d => d.queuePush servoQueue (servoRecord e 0x80 code v)

/-- A spindle event carries the speed in rpm. -/
def Dev.spnEvent (d : Dev) (code : Nat) : Dev := d.motorEvent code (BitVec.ofNat 32 d.rpm)

/-! ## The spindle's speed (R220, R224) -/

/-- The speed that means T60 = t CORE cycles, as a ratio in rpm. -/
def Dev.speedOfT60 (d : Dev) (t : Nat) : Nat × Nat := (66000000000, 6 * d.fld Fld.SPN_CFG_POLE_PAIRS * t)

/-- The source that the speed is taken from: head A's wedges, head B's, or the crossings (R224). -/
def Dev.speedSource (d : Dev) : Nat :=
  let n (h : Nat) : Nat := Tab.get (fun _ => 0) d.mot.spn.anchored h
  if 64 ≤ n 0 then 1 else if 64 ≤ n 1 then 2 else 0

/-- AT_SPEED after 16 consecutive measurements within 0.1 % of TARGET; it clears on one outside 0.5 % (R224). -/
def Dev.judgeSpeed (d : Dev) (num den : Nat) : Dev :=
  let t := d.fld Fld.SPN_TARGET_TARGET
  let off := ((num : Int) - (t * den : Nat)).natAbs
  let within := t != 0 && 1000 * off ≤ t * den
  let run := if within then d.mot.spn.atRun + 1 else 0
  let d := d.onSpn fun s => { s with atRun := run }
  if 16 ≤ run && !d.bit Fld.MOT_STATUS_AT_SPEED then (d.putBit Fld.MOT_STATUS_AT_SPEED true).spnEvent 0x586
  else d.when (t * den < 200 * off) fun d => d.putBit Fld.MOT_STATUS_AT_SPEED false

/-- A measurement num / den rpm of a source, shown where that source governs (R224). -/
def Dev.measureSpeed (d : Dev) (src num den : Nat) (reverse : Bool) : Dev :=
  if src != d.speedSource || den = 0 then d
  else
    let d := (d.put Fld.SPN_SPEED_RPM (min 65535 (roundDiv num den).toNat)).put Fld.SPN_SPEED_SRC src
    let d := d.putBit Fld.SPN_SPEED_REVERSE reverse
    let d := d.onSpn fun s => { s with speed := fltRatio (if reverse then -(num : Int) else num) den }
    d.judgeSpeed num den

/-- Mean of a list, 0 where it is empty. -/
def meanOf (l : List Nat) : Nat := if l.isEmpty then 0 else l.foldl (· + ·) 0 / l.length

/-! ## The start sequencer (R214 to R219, R480, R481) -/

/-- Channel 6 takes a speed as its output (R216). -/
def Dev.presetRamp (d : Dev) (rpm : Nat) : Dev :=
  { d with mot := { d.mot with prf := Tab.set (fun _ => {}) d.mot.prf 6 { p := rpm * 65536 } } }

/-- The sequencer enters MEASURE. -/
def Dev.enterMeasure (d : Dev) : Dev :=
  (d.spnSwitchesOff.setSpn spnMeasure).onSpn fun s => { s with
    held := false, kicks := 0, doubled := false, zeroVector := false, missed := 0, wrong := 0, noMedium := false, failed := false }

/-- A start command: begun, or held while the stage is disabled (R214, R480). -/
def Dev.startSpindle (d : Dev) : Dev :=
  if d.bit Fld.MOT_CTRL_SPN_EN then d.enterMeasure else d.onSpn fun s => { s with held := true }

/-- A held start begins when the spindle is in OFF with its stage enabled (R214, R480). -/
def Dev.heldStart (d : Dev) : Dev :=
  d.when (d.mot.spn.held && d.spnState == spnOff && d.bit Fld.MOT_CTRL_SPN_EN) Dev.enterMeasure

/-- The spindle enters OFF, and a held start follows. -/
def Dev.enterOff (d : Dev) : Dev := (d.spnSwitchesOff.setSpn spnOff).heldStart

/-- No motion is seen: the measured speed is 0. -/
def Dev.atRest (d : Dev) : Dev :=
  ((d.put Fld.SPN_SPEED_RPM 0).putBit Fld.SPN_SPEED_REVERSE false).onSpn fun s => { s with speed := 0 }

/-- The winding short (R226, R228). -/
def Dev.windingShort (d : Dev) : Dev := d.onSpn fun s => { s with short := true }

/-- START_FAIL, and the vendor firmware's one further start; where that fails too, the medium commands received so far complete NO_MEDIUM (R217,
R219, R481). -/
def Dev.startFail (d : Dev) : Dev :=
  let d := ((d.putBit Fld.MOT_STATUS_START_FAIL true).spnEvent 0x585).spnSwitchesOff.setSpn spnOff
  if d.mot.spn.further then d.onSpn fun s => { s with further := false, failed := true, failedAt := d.esn }
  else
    let d := d.onSpn fun s => { s with further := true }
    d.when (d.fld Fld.SPN_TARGET_TARGET != 0) Dev.startSpindle

/-- FOC at or above a speed in 10 rpm, else STEP6. -/
def Dev.driveState (d : Dev) (rpm : Nat) : Nat := if 10 * d.fld Fld.SPN_CFG_FOC_ON ≤ rpm then spnFoc else spnStep6

/-- The program takes the outputs at a measured speed (R216, R219); with a TARGET of 0 they go on with the stop (R226, log
117). -/
def Dev.startDone (d : Dev) (st rpm : Nat) : Dev :=
  let d := (d.setSpn (if d.fld Fld.SPN_TARGET_TARGET = 0 then spnStopping else st)).count (Adr.MOT_CNT 0)
  (d.onSpn fun s => { s with synced := true, handoverNext := true, short := false, further := false, missed := 0,
                             wrong := 0, sector := sectorAt s.theta }).presetRamp rpm

/-- STOP_RPM is reached in STOPPING (R226). -/
def Dev.stopCheck (d : Dev) : Dev :=
  d.when (d.spnState == spnStopping && !d.mot.spn.short && d.rpm ≤ d.fld Fld.SPN_LIMIT_STOP_RPM) fun d =>
    (d.spnSwitchesOff.windingShort).onSpn fun s => { s with synced := false }

/-- A TARGET of 0 (R214, R226, R480). -/
def Dev.stopSpindle (d : Dev) : Dev :=
  let d := d.onSpn fun s => { s with held := false }
  let st := d.spnState
  if st = spnCoast then
    if d.bit Fld.MOT_CTRL_SPN_EN && !d.bit Fld.MOT_STATUS_OV2 then d.enterOff else d
  else if st = spnStep6 ∨ st = spnFoc then (d.setSpn spnStopping).stopCheck
  else if st = spnMeasure ∨ st = spnRevBrake ∨ st = spnProbe ∨ st = spnKick then
    (d.spnSwitchesOff.setSpn spnStopping).windingShort
  else d

/-- A non-zero TARGET (R214, R480). -/
def Dev.runSpindle (d : Dev) : Dev :=
  let st := d.spnState
  if st = spnOff then d.startSpindle
  else if st = spnCoast then (if d.bit Fld.MOT_STATUS_OV2 then d else d.startSpindle)
  else if st = spnShort then d.onSpn fun s => { s with held := true }
  else if st = spnStopping then
    if d.mot.spn.short then d.onSpn fun s => { s with held := true }
    else (d.setSpn (d.driveState d.rpm)).presetRamp d.rpm
  else d

/-- The TARGET in force acts (R214, R480). -/
def Dev.applyTarget (d : Dev) : Dev := if d.fld Fld.SPN_TARGET_TARGET = 0 then d.stopSpindle else d.runSpindle

/-- SPN_MAX of the running mode, and STOP_RPM, a twentieth of it (R6, R215, R246). -/
def Dev.spindleLimits (d : Dev) : Dev :=
  let max := if d.mode = 1 then 7200 else if d.mode = 2 then 5000 else 0
  d.setReg Adr.SPN_LIMIT (BitVec.ofNat 32 (max + 2 ^ 16 * (max / 20)))

/-- A write of SPN_TARGET (R214). -/
def Dev.targetWrite (d : Dev) (v : Word) : Dev :=
  if d.fld Fld.SPN_LIMIT_SPN_MAX < fieldOf v 0 16 then d.putBit Fld.MOT_STATUS_SPEED_REFUSED true
  else
    let changed := fieldOf v 0 16 != d.fld Fld.SPN_TARGET_TARGET
    let d := d.setReg Adr.SPN_TARGET v
    let d := d.when changed fun d => (d.putBit Fld.MOT_STATUS_AT_SPEED false).onSpn fun s => { s with atRun := 0 }
    d.applyTarget

def execSpnTargetWrite (v : Word) (s : State) : Host.Outcome State Fault Refusal := s.on fun d => d.targetWrite v

/-- A write of SPN_EN (R480). -/
def Dev.spnEnable (d : Dev) (on : Bool) : Dev :=
  let d := d.putBit Fld.MOT_CTRL_SPN_EN on
  if on then
    if d.spnState = spnCoast then (if d.bit Fld.MOT_STATUS_OV2 then d else d.applyTarget) else d.heldStart
  else if d.spnState = spnOff then d.spnSwitchesOff else d.spnCoasts

def execSpnEnWrite (on : Bool) (s : State) : Host.Outcome State Fault Refusal := s.on fun d => d.spnEnable on

/-- The vendor firmware sets TARGET, with the stage enabled for a start (R214, R480). -/
def Dev.spinTo (d : Dev) (rpm : Nat) : Dev :=
  let d := d.when (rpm != 0 && !d.bit Fld.MOT_CTRL_SPN_EN) fun d => d.spnEnable true
  d.targetWrite (withField (d.reg Adr.SPN_TARGET) 0 16 rpm)

/-- A start goes on, or is held (R214, R215). -/
def Dev.spinStarting (d : Dev) : Bool :=
  let st := d.spnState
  st == spnMeasure || st == spnRevBrake || st == spnProbe || st == spnKick || d.mot.spn.held

/-- The vendor firmware starts a spindle that stands still for a medium command: at the TARGET in force, at that of before the power state, or at
1,800 rpm, the greatest at which focus is captured (R164, R428, R446, R481; that speed DESIGN CHOICE, log 167). -/
def Dev.startFor (d : Dev) : Dev :=
  let t := d.fld Fld.SPN_TARGET_TARGET
  d.when (d.spnState == spnOff && !d.mot.spn.held && !d.bit Fld.MON_THERM_TRIP) fun d =>
    d.spinTo (if t ≠ 0 then t else if d.host.spinTarget ≠ 0 then d.host.spinTarget else 1800)

/-- The device returns to PS0, with the spindle at the speed of before (R339, R340). -/
def Dev.toPs0 (d : Dev) : Dev :=
  let was := d.fld Fld.HQ_STATUS_PS
  (d.takePs 0).when (was != 0) fun d => d.spinTo d.host.spinTarget

/-- A medium command leaves PS1 and PS2 (R340). -/
def Dev.wake (d : Dev) : Dev :=
  d.when (d.fld Fld.HQ_STATUS_PS == 1 || d.fld Fld.HQ_STATUS_PS == 2) fun d => (d.toPs0).startFor

/-- A medium command that is received brings the device to PS0, and starts a spindle that stands still (R340, R428, R481). -/
def Dev.readyFor (d : Dev) : Dev := if d.fld Fld.HQ_STATUS_PS = 0 then d.startFor else d.wake

/-- The vendor firmware clears SPN_EN in PS3 and PS4, once the spindle is off (R480). -/
def Dev.stageOff (d : Dev) : Dev := d.when (3 ≤ d.fld Fld.HQ_STATUS_PS && d.spnState == spnOff) fun d => d.spnEnable false

/-- The phase that follows in forward order. -/
def nextPhase : Phase → Phase
  | .u => .v
  | .v => .w
  | .w => .u

/-- Recorded crossings in one order of the phases. -/
def ordered (next : Phase → Phase → Bool) : List Crossing → Bool
  | a :: b :: l => next a.phase b.phase && ordered next (b :: l)
  | _ => true

/-- The angle that the recorded crossings give the estimator, in 2^-32 turn; how, the spec does not say: a free value of the record (R216; log 67). -/
def crossedAngle (cr : List Crossing) : Nat :=
  Config.freeOf 12 (cr.foldl (fun n c => 2 ^ 66 * n + 4 * c.time + (match c.phase with | .u => 1 | .v => 2 | .w => 3)) 0) % 2 ^ 32

/-- MEASURE_END: the motion is classified (R215, R216, R217). -/
def execMeasureEnd (cr : List Crossing) (s : State) : Host.Outcome State Fault Refusal :=
  s.on fun d =>
    if d.spnState != spnMeasure then d
    else
      let span := (cr.getLast?.map (·.time)).getD 0 - (cr.head?.map (·.time)).getD 0
      let t60 := if cr.length ≤ 1 then 0 else span / (cr.length - 1)
      let r := d.speedOfT60 t60
      let fast := 4 ≤ cr.length && t60 != 0 && d.fld Fld.SPN_LIMIT_STOP_RPM * r.2 < r.1
      let rpm := if r.2 = 0 then 0 else r.1 / r.2
      if fast && ordered (fun a b => b == nextPhase a) cr then
        let d := d.onSpn fun s => { s with theta := crossedAngle cr, t60 := t60, intervals := [t60] }
        let d := d.measureSpeed 0 r.1 r.2 false
        ((d.startDone (d.driveState rpm) rpm).count (Adr.MOT_CNT 1)).spnEvent 0x58c
      else if fast && ordered (fun a b => a == nextPhase b) cr then
        let d := d.measureSpeed 0 r.1 r.2 true
        ((d.setSpn spnRevBrake).windingShort.count (Adr.MOT_CNT 2)).spnEvent 0x58d
      else (d.when (cr.length < 4) Dev.atRest).setSpn spnProbe

/-- REV_BRAKE ends and the probe begins (R217). -/
def Dev.enterProbe (d : Dev) : Dev := (d.setSpn spnProbe).onSpn fun s => { s with short := false, doubled := false }

def execRevBrakeQuiet (s : State) : Host.Outcome State Fault Refusal :=
  s.on fun d => if d.spnState = spnRevBrake then d.enterProbe else d

def execRevBrakeTimeout (s : State) : Host.Outcome State Fault Refusal :=
  s.on fun d => if d.spnState = spnRevBrake then d.startFail else d

/-- The kick (R219). -/
def Dev.enterKick (d : Dev) (degrees : Nat) : Dev :=
  let d := (d.put Fld.SPN_PROBE_ANGLE degrees).setSpn spnKick
  d.onSpn fun s => { s with kicks := s.kicks + 1, zeroVector := false, doubled := false,
                            theta := degrees * 2 ^ 32 / 360 }

/-- The three differences of stage 1, from the currents in pulse order (R218). -/
def probeDiffs (l : List Nat) : List Int :=
  (List.range 3).map fun j =>
    let i : Nat := 2 * j
    ((l[i]?.getD 0 : Nat) : Int) - ((l[i + 1]?.getD 0 : Nat) : Int)

/-- The place of the greatest magnitude, the first among equals. -/
def greatestAt (l : List Int) : Nat × Int :=
  (List.zip (List.range l.length) l).foldl (fun best p => if best.2.natAbs < p.2.natAbs then p else best) (0, l.headD 0)

/-- PROBE_DONE: a rotor angle, a repeat with PROBE_T doubled, or the 0° vector (R218). -/
def execProbeDone (currents : List Nat) (s : State) : Host.Outcome State Fault Refusal :=
  s.on fun d =>
    if d.spnState != spnProbe || d.mot.spn.zeroVector then d
    else
      let g := greatestAt (probeDiffs currents)
      let d := (d.put Fld.SPN_PROBE_DIFF (min 4095 g.2.natAbs)).put Fld.SPN_PROBE_PULSES (min 15 currents.length)
      if g.2.natAbs < d.fld Fld.SPN_START_CFG2_PROBE_MIN then
        if d.mot.spn.doubled then d.onSpn fun s => { s with zeroVector := true } else d.onSpn fun s => { s with doubled := true }
      else
        let theta0 := if 0 < g.2 then 60 * g.1 else 60 * g.1 + 180
        let ahead := (currents[7]?.getD 0) < (currents[6]?.getD 0)
        d.enterKick ((theta0 + (if ahead then 15 else 345)) % 360)

def execZeroDegreeVectorEnd (s : State) : Host.Outcome State Fault Refusal :=
  s.on fun d => if d.spnState = spnProbe && d.mot.spn.zeroVector then d.enterKick 0 else d

/-- KICK_TIMEOUT: probe and kick again, or START_FAIL after KICKS kicks (R219). -/
def execKickTimeout (s : State) : Host.Outcome State Fault Refusal :=
  s.on fun d =>
    if d.spnState != spnKick then d
    else if d.fld Fld.SPN_START_CFG_KICKS ≤ d.mot.spn.kicks then d.startFail else d.enterProbe

/-! ## Crossings (R220 to R223) -/

/-- Synchronisation is lost, and the sequencer starts again from MEASURE (R223). -/
def Dev.syncLost (d : Dev) : Dev :=
  let d := ((d.putBit Fld.MOT_STATUS_SYNC_LOST true).count (Adr.MOT_CNT 6)).spnEvent 0x584
  d.enterMeasure

/-- θ corrected by half the difference to a crossing's known angle, both in 1/65,536 turn at the crossing (R220). -/
def correctedAngle (theta : Nat) (z : ZeroCross) : Nat :=
  let diff := signedOf 16 ((z.angle.toNat + 65536 - theta / 65536 % 65536) % 65536)
  (((theta : Int) + diff * 32768) % 2 ^ 32).toNat

/-- A crossing of STEP6 within ZC_BLANK degrees of the commutation, which followed T60/2 after the crossing before (R222). -/
def Dev.blanked (d : Dev) (z : ZeroCross) : Bool :=
  d.spnState == spnStep6 && decide (60 * (2 * z.interval - d.mot.spn.t60) < 2 * d.fld Fld.SPN_CFG_ZC_BLANK * d.mot.spn.t60)

/-- A qualified crossing corrects θ by half the difference and renews T60; in STEP6 the next commutation follows T60/2 later (R220, R222). -/
def Dev.qualified (d : Dev) (z : ZeroCross) : Dev :=
  let keep := 6 * d.fld Fld.SPN_CFG_POLE_PAIRS
  let l := (z.interval :: d.mot.spn.intervals).take keep
  let next := if d.spnState = spnStep6 then some (meanOf l / 2) else none
  let d := d.onSpn fun s => { s with intervals := l, t60 := meanOf l, theta := correctedAngle s.theta z, missed := 0, wrong := 0, commute := next }
  let r := d.speedOfT60 (meanOf l)
  d.measureSpeed 0 r.1 r.2 false

/-- ZERO_CROSSING (R217, R219, R220, R223). -/
def execZeroCrossing (z : ZeroCross) (s : State) : Host.Outcome State Fault Refusal :=
  s.on fun d =>
    let st := d.spnState
    let r := d.speedOfT60 z.interval
    if d.programGoverns then
      if !z.inWindow || d.blanked z then d
      else if z.polarity then (d.qualified z).stopCheck
      else
        let d := d.onSpn fun s => { s with wrong := s.wrong + 1 }
        d.when (2 ≤ d.mot.spn.wrong) Dev.syncLost
    else if st = spnKick then
      if z.inWindow && z.polarity && z.interval != 0 then
        let d := d.onSpn fun s => { s with intervals := [z.interval], t60 := z.interval, theta := correctedAngle s.theta z }
        let d := (d.measureSpeed 0 r.1 r.2 false).startDone spnStep6 (r.1 / r.2)
        d.onSpn fun s => { s with sector := kickState (d.fld Fld.SPN_PROBE_ANGLE), commute := some (z.interval / 2) }
      else d
    else if st = spnRevBrake then
      let d := d.measureSpeed 0 r.1 r.2 true
      d.when (r.1 < d.fld Fld.SPN_LIMIT_STOP_RPM * r.2) Dev.enterProbe
    else d.when d.mot.spn.short fun d => d.measureSpeed 0 r.1 r.2 false

/-- ZC_WINDOW_CLOSE: a missed window; the sixth in a row costs synchronisation (R221, R223). -/
def execZcWindowClose (s : State) : Host.Outcome State Fault Refusal :=
  s.on fun d =>
    if !d.programGoverns then d
    else
      let d := d.onSpn fun s => { s with missed := s.missed + 1, floated := 0 }
      d.when (6 ≤ d.mot.spn.missed) Dev.syncLost

/-! ## Stopping and bus protection (R210, R226 to R230, R459) -/

def execShortQuietTimeout (s : State) : Host.Outcome State Fault Refusal :=
  s.on fun d => if d.spnState = spnStopping && d.mot.spn.short then d.atRest.enterOff.stageOff else d

/-- The number of a phase. -/
def phaseIx : Phase → Nat
  | .u => 0
  | .v => 1
  | .w => 2

/-- The high pulse of a phase ends at once and for the rest of the half-period; how far it went is left open (R210). -/
def Dev.cutPulse (d : Dev) (k : Nat) : Dev :=
  let p := Tab.get noPulse d.mot.pulses k
  let r := d.freeBits 14
  let q := if d.mot.pwmTop then (p.1, r % (p.2 + 1)) else (r % (p.1 + 1), p.2)
  { d.drew with mot := { d.mot with pulses := Tab.set noPulse d.mot.pulses k q } }

/-- SPINDLE_OVERCURRENT: the high pulse of a phase ends for the half-period; every event counts, which no register shows (log 166), and is posted
once in 1 ms (R210, R247). -/
def execSpindleOvercurrent (ph : Phase) (s : State) : Host.Outcome State Fault Refusal :=
  s.on fun d =>
    let d := d.putBit Fld.MOT_STATUS_OC true
    let first := match d.mot.spn.ocLast with
      | some t => t + 1000 ≤ d.locus.micros
      | none => true
    let d := (d.cutPulse (phaseIx ph)).onSpn fun s => { s with
      cut := setMember s.cut (phaseIx ph) true, overcurrents := s.overcurrents + 1 }
    d.when first fun d => (d.onSpn fun s => { s with ocLast := some d.locus.micros }).spnEvent 0x583

/-- CHOPPER_THRESHOLD: the chopper follows the BRK_ON and BRK_OFF levels (R227). -/
def execChopperThreshold (above : Bool) (s : State) : Host.Outcome State Fault Refusal :=
  s.on fun d => d.onSpn fun s => { s with chopper := above, busLow := !above }

def execOv1 (s : State) : Host.Outcome State Fault Refusal :=
  s.on fun d =>
    let d := ((d.putBit Fld.MOT_STATUS_OV1 true).count (Adr.MOT_CNT 3)).spnEvent 0x580
    d.onSpn fun s => { s with chopCheck := true, busLow := false, chopper := true }

/-- CHOP_CHECK_TIMEOUT: the chopper did not fire, so the winding is shorted, but in an OV2 trip and with the stage disabled, where no switch may be on
(R211, R228, R480). -/
def execChopCheckTimeout (s : State) : Host.Outcome State Fault Refusal :=
  s.on fun d =>
    if !d.mot.spn.chopCheck then d
    else
      let d := d.onSpn fun s => { s with chopCheck := false }
      let d := (d.putBit Fld.MOT_STATUS_CHOP_FAULT true).putBit Fld.MOT_CTRL_REGEN_INHIBIT true
      let d := (d.count (Adr.MOT_CNT 4)).spnEvent 0x581
      if !d.bit Fld.MOT_CTRL_SPN_EN || (d.bit Fld.MOT_STATUS_OV2 && d.spnState == spnCoast) then d
      else (d.spnSwitchesOff.setSpn spnShort).windingShort

/-- The vendor firmware's restart after OV2: with the bus below BRK_OFF and MOT_FLT_N high, it clears OV2 and writes the TARGET in force again
(R229). -/
def Dev.restartAfterOv2 (d : Dev) : Dev :=
  d.when (d.bit Fld.MOT_STATUS_OV2 && !d.mot.spn.noRestart && d.spnState == spnCoast && d.mot.spn.busLow && !d.mot.spn.faultLow) fun d =>
    (d.putBit Fld.MOT_STATUS_OV2 false).applyTarget

/-- BUS_BELOW_BRK_OFF: the chopper is off (R227), SHORT ends (R228), and the restart after OV2 follows (R229). -/
def execBusBelowBrkOff (s : State) : Host.Outcome State Fault Refusal :=
  s.on fun d =>
    let d := d.onSpn fun s => { s with busLow := true, chopper := false }
    if d.spnState = spnShort then
      if d.fld Fld.SPN_TARGET_TARGET = 0 then d.setSpn spnStopping
      else if d.bit Fld.MOT_CTRL_SPN_EN then d.enterMeasure else d.spnCoasts
    else d.restartAfterOv2

/-! ## The profiler (R231 to R234) -/

def Dev.prf (d : Dev) (c : Nat) : PrfSt := Tab.get (fun _ => {}) d.mot.prf c

def Dev.setPrf (d : Dev) (c : Nat) (x : PrfSt) : Dev :=
  { d with mot := { d.mot with prf := Tab.set (fun _ => {}) d.mot.prf c x } }

def Dev.sled (d : Dev) (h : Nat) : SledSt := Tab.get (fun _ => {}) d.mot.sleds h

/-- A sled's state changed by g. -/
def Dev.onSled (d : Dev) (h : Nat) (g : SledSt → SledSt) : Dev :=
  { d with mot := { d.mot with sleds := Tab.set (fun _ => {}) d.mot.sleds h (g (d.sled h)) } }

/-- The ticks of the spindle current tick in a second. -/
def tickRate : Nat := 110000

/-- Position, velocity (1/65,536 unit and per tick) and acceleration (units per tick² as a ratio) of a segment at tick k
(R233). -/
def hermite (p0 v0 p1 v1 : Int) (t k : Nat) : Int × Int × (Int × Nat) :=
  let T : Int := t
  let K : Int := k
  let c00 := 2 * K ^ 3 - 3 * K ^ 2 * T + T ^ 3
  let c10 := K ^ 3 - 2 * K ^ 2 * T + K * T ^ 2
  let c01 := 3 * K ^ 2 * T - 2 * K ^ 3
  let c11 := K ^ 3 - K ^ 2 * T
  let p := c00 * p0 + c10 * T * v0 + c01 * p1 + c11 * T * v1
  let dv := (6 * K ^ 2 - 6 * K * T) * (p0 - p1) + (3 * K ^ 2 - 4 * K * T + T ^ 2) * T * v0 + (3 * K ^ 2 - 2 * K * T) * T * v1
  let a := (12 * K - 6 * T) * (p0 - p1) + (6 * K - 4 * T) * T * v0 + (6 * K - 2 * T) * T * v1
  (roundDiv p (t ^ 3), roundDiv dv (t ^ 3), (a, t ^ 3))

/-- An acceleration num / den in 1/65,536 unit per tick² as FP32 units per s². -/
def accWord (num : Int) (den : Nat) : Word := fltRatio (num * tickRate ^ 2) (den * 65536)

/-- The segment at an index of the segment RAM, and its LAST flag (R232). -/
def Dev.segmentAt (d : Dev) (i : Nat) : Segment × Bool :=
  let w (k : Nat) : Word := d.reg (0xa4000 + 16 * i + 4 * k)
  (⟨fieldOf (w 0) 0 24, (w 1).toInt, (w 2).toInt⟩, fieldOf (w 0) 24 1 == 1)

/-- The segments of a table from an index on, none where no LAST flag falls within n segments or the table runs past
segment 1,023 (R234). -/
def Dev.tableFrom (d : Dev) : Nat → Nat → Option (List Segment)
  | 0, _ => none
  | n + 1, i =>
    if 1023 < i then none
    else
      let s := d.segmentAt i
      if s.2 then some [s.1] else (d.tableFrom n (i + 1)).map (s.1 :: ·)

/-- Bits of a square root from the greatest that may be set on. -/
def sqrtBits (n : Nat) : Nat → Nat → Nat
  | 0, r => r
  | k + 1, r => sqrtBits n k (if (r + 2 ^ k) * (r + 2 ^ k) ≤ n then r + 2 ^ k else r)

/-- The square root of a natural number, rounded down. -/
def isqrt (n : Nat) : Nat := sqrtBits n (Nat.log2 n / 2 + 1) 0

/-- The places s in (0, 1), in 2^-40, at the roots of p′; the root of its discriminant is taken to 2^-40 (R234). -/
def slopeRoots (p0 v0 p1 v1 : Int) (t : Nat) : List Int :=
  let A := 6 * (p0 - p1) + 3 * t * v0 + 3 * t * v1
  let B := -6 * (p0 - p1) - 4 * t * v0 - 2 * t * v1
  let C := t * v0
  let raw := if A = 0 then (if B = 0 then [] else [-C * 2 ^ 40 / B])
    else
      let D := B ^ 2 - 4 * A * C
      if D < 0 then []
      else
        let q : Int := isqrt (D.toNat * 2 ^ 80)
        [(-B * 2 ^ 40 + q) / (2 * A), (-B * 2 ^ 40 - q) / (2 * A)]
  raw.filter fun s => 0 < s && s < 2 ^ 40

/-- Extremes of a segment's p, in 1/65,536 unit (R234). -/
def segmentExtremes (p0 v0 p1 v1 : Int) (t : Nat) : List Int :=
  [p0, p1] ++ (slopeRoots p0 v0 p1 v1 t).map fun s =>
    let one : Int := 2 ^ 40
    let p := (2 * s ^ 3 - 3 * s ^ 2 * one + one ^ 3) * p0 + (s ^ 3 - 2 * s ^ 2 * one + s * one ^ 2) * (t * v0)
      + (3 * s ^ 2 * one - 2 * s ^ 3) * p1 + (s ^ 3 - s ^ 2 * one) * (t * v1)
    p / one ^ 3

/-- Extremes of a table from a state on. -/
def tableExtremes : Int → Int → List Segment → List Int
  | _, _, [] => []
  | p, v, s :: l => segmentExtremes p v (s.pos * 65536) (s.vel * 256) s.dur ++ tableExtremes (s.pos * 65536) (s.vel * 256) l

/-- The virtual limits of a sled in 1/65,536 fine step. -/
def Dev.vlim (d : Dev) (h : Nat) : Int × Int :=
  ((d.reg (Adr.SLD_VLIM_LO h)).toInt * 65536, (d.reg (Adr.SLD_VLIM_HI h)).toInt * 65536)

/-- The table that GO or TABLE names, none where it is refused (R234). -/
def Dev.checkTable (d : Dev) (c : Nat) : Option (List Segment) :=
  match d.tableFrom 256 (d.fld (Fld.PRF_CTRL_START c)) with
  | none => none
  | some l => if l.any fun s => s.dur == 0 then none else some l

/-- A table starts on a channel. -/
def Dev.startTable (d : Dev) (c : Nat) (l : List Segment) : Dev :=
  let x := d.prf c
  let d := d.setPrf c { x with segs := l, k := 0, p0 := x.p, v0 := x.v, seg := d.fld (Fld.PRF_CTRL_START c) }
  (d.putBit (Fld.PRF_STATUS_BUSY c) true).put (Fld.PRF_STATUS_SEG c) (d.fld (Fld.PRF_CTRL_START c))

/-- A channel that this variant has (R246). -/
def Dev.hasChannel (d : Dev) (c : Nat) : Bool := c % 2 == 0 || !d.variantS

/-- Sled B and the channels of odd number take no commands in KD mode (R246). -/
def Dev.profileTakes (d : Dev) (c : Nat) : Bool := c % 2 == 0 || d.mode != 2

/-- PRF_GO (R234, R246). -/
def Dev.profileGo (d : Dev) (c start : Nat) : Dev :=
  if !d.hasChannel c then d
  else
    let d := d.put (Fld.PRF_CTRL_START c) start
    if c < 2 || !d.profileTakes c then d
    else
      match (if d.bit (Fld.PRF_STATUS_BUSY c) then none else d.checkTable c) with
      | some l => d.startTable c l
      | none => (d.putBit (Fld.PRF_STATUS_REFUSED c) true).motorEvent 0x58a (BitVec.ofInt 32 ((d.prf c).p / 65536))

def execPrfGo (c : Fin 6) (start : BitVec 10) (s : State) : Host.Outcome State Fault Refusal :=
  s.on fun d => d.profileGo c start.toNat

/-- A table ends on a channel. -/
def Dev.endTable (d : Dev) (c : Nat) : Dev :=
  let d := d.setPrf c { d.prf c with segs := [], k := 0, acc := 0 }
  (d.putBit (Fld.PRF_STATUS_BUSY c) false).putBit (Fld.PRF_STATUS_DONE c) true

/-- PRF_STOP: a table ends at once with p held and v = 0; discarded on channels 0 and 1 (R234). -/
def Dev.profileStop (d : Dev) (c : Nat) : Dev :=
  if c < 2 || !d.profileTakes c || !d.bit (Fld.PRF_STATUS_BUSY c) then d
  else
    let d := d.endTable c
    d.setPrf c { d.prf c with v := 0 }

def execPrfStop (c : Fin 6) (s : State) : Host.Outcome State Fault Refusal := s.on fun d => d.profileStop c

/-- A running table advances by one tick (R231, R233). -/
def Dev.tableTick (d : Dev) (c : Nat) : Dev :=
  let x := d.prf c
  match x.segs with
  | [] => d
  | g :: rest =>
    let k := x.k + 1
    let p1 := g.pos * 65536
    let v1 := g.vel * 256
    let r := hermite x.p0 x.v0 p1 v1 g.dur k
    let acc := accWord r.2.2.1 r.2.2.2
    if k < g.dur then d.setPrf c { x with p := r.1, v := r.2.1, acc := acc, k := k }
    else
      let d := d.setPrf c { x with p := p1, v := v1, acc := acc, k := 0, p0 := p1, v0 := v1, segs := rest, seg := x.seg + 1 }
      if rest.isEmpty then d.endTable c else d.put (Fld.PRF_STATUS_SEG c) (x.seg + 1)

/-- Channel 6 moves its output toward TARGET at RAMP while the program governs (R214, R231). -/
def Dev.rampTick (d : Dev) : Dev :=
  let x := d.prf 6
  let t : Int := d.fld Fld.SPN_TARGET_TARGET * 65536
  if !d.programGoverns || x.p == t then d.when (x.acc != 0 || x.v != 0) fun d => d.setPrf 6 { x with acc := 0, v := 0 }
  else
    let ramp := 10 * d.fld Fld.SPN_TARGET_RAMP
    let step := roundDiv (ramp * 65536 : Nat) tickRate
    let p := if x.p < t then min t (x.p + step) else max t (x.p - step)
    d.setPrf 6 { x with p := p, v := p - x.p, acc := fltInt (if x.p < t then ramp else -(ramp : Int)) }

/-! ## Sled motion (R236 to R239) -/

/-- Modes of a sled (SLDh_STATUS.MODE). -/
def sledIdle : Nat := 0
def sledHome : Nat := 1
def sledMove : Nat := 2
def sledTable : Nat := 3
def sledTrack : Nat := 4
def sledStop : Nat := 5
def sledPark : Nat := 6

def Dev.sledMode (d : Dev) (h : Nat) : Nat := d.fld (Fld.SLD_STATUS_MODE h)

/-- A sled that this variant has (R246). -/
def Dev.hasSled (d : Dev) (h : Nat) : Bool := h == 0 || !d.variantS

/-- A sled that takes commands in this variant and mode (R246). -/
def Dev.sledTakes (d : Dev) (h : Nat) : Bool := d.hasSled h && d.profileTakes h

/-- v one step toward a speed. -/
def toward (v goal : Int) (step : Nat) : Int := if v < goal then min goal (v + step) else max goal (v - step)

/-- The greatest speed toward a goal at the end of a tick that begins at speed u at distance dist, from which DEC still brakes onto the goal: x with
x² + DEC x ≤ 2 DEC dist - DEC u (R236). -/
def brakeCap (u : Int) (dist dec : Nat) : Int :=
  let m : Int := 2 * (dec * dist : Nat) - dec * u
  if m < 0 then 0 else ((isqrt (dec ^ 2 + 4 * m.toNat) : Nat) - (dec : Int)) / 2

/-- The place where a speed v is braked away by DEC, from p on; a brake that ends within the tick goes no further (R236). -/
def brakePlace (p v v' : Int) (dec : Nat) : Int := if v' = 0 ∧ dec ≠ 0 then p + v * v.natAbs / (2 * dec) else p + (v + v') / 2

/-- One tick of a self-planned move: p, v, the speed at which braking began, and whether the goal is reached. The sled accelerates toward VMAX
while it can still brake onto the goal, and brakes where it cannot; a sled that cruises holds its speed until it must brake. A brake that ends
within one tick's travel of the goal ends on the goal (R236, R238; log 37). -/
def moveTick (p v goal : Int) (vmax acc dec : Nat) (cruise : Bool) (brake : Int) : Int × Int × Int × Bool :=
  let dist := goal - p
  let sgn : Int := if 0 ≤ dist then 1 else -1
  let u := sgn * v
  let onset (v' : Int) : Int := if v' = 0 then 0 else if brake = 0 then v else brake
  if v = 0 ∧ dist = 0 then (p, 0, 0, true)
  else if v ≠ 0 ∧ (u < 0 ∨ dist = 0) then
    let v' := toward v 0 dec
    (brakePlace p v v' dec, v', onset v', false)
  else
    let cap := brakeCap u dist.natAbs dec
    let want := if cruise then u else toward u vmax acc
    if want ≤ cap then (p + sgn * ((u + want) / 2), sgn * want, 0, false)
    else
      let x := max (u - dec) cap
      let v' := sgn * x
      let p' := brakePlace p v v' dec
      if x = 0 ∧ ((goal - p').natAbs : Int) ≤ u then (goal, 0, 0, true)
      else (p', v', if x < u then onset v' else 0, false)

/-- A sled's motion ends in a mode. -/
def Dev.sledRest (d : Dev) (h : Nat) : Dev :=
  let d := (d.put (Fld.SLD_STATUS_MODE h) sledIdle).putBit (Fld.SLD_STATUS_BUSY h) false
  (d.onSled h fun s => { s with ignore := false, cruise := false, brakeFrom := 0, dec := d.fld (Fld.SLD_DEC_DEC h) }).setPrf h
    { d.prf h with v := 0, acc := 0, segs := [] }

/-- A sled takes a mode and moves. -/
def Dev.sledGo (d : Dev) (h mode : Nat) (goal : Int) : Dev :=
  let d := (d.put (Fld.SLD_STATUS_MODE h) mode).putBit (Fld.SLD_STATUS_BUSY h) true
  d.onSled h fun s => { s with goal := goal, cruise := false, brakeFrom := 0, dec := d.fld (Fld.SLD_DEC_DEC h) }

/-- A refused sled command (R236). -/
def Dev.sledRefused (d : Dev) (h : Nat) : Dev :=
  (d.putBit (Fld.SLD_STATUS_CMD_REFUSED h) true).motorEvent 0x58a (d.reg (Adr.SLD_POS h))

/-- A command that cannot be taken now: HOME or TABLE runs (R236). -/
def Dev.sledBusy (d : Dev) (h : Nat) : Bool := d.sledMode h == sledHome || d.sledMode h == sledTable

/-- A motion from p toward a place runs toward an input that is qualified active (R242). -/
def Dev.towardLimit (d : Dev) (h : Nat) (lo hi : Int) : Bool :=
  let p := (d.prf h).p
  (lo < p && d.bit (Fld.SLD_STATUS_LIM_HOME h)) || (p < hi && d.bit (Fld.SLD_STATUS_LIM_FAR h))

/-- STOP: the sled decelerates at DEC to rest (R236). -/
def Dev.stopSled (d : Dev) (h : Nat) : Dev :=
  let d := d.when (d.sledMode h == sledTable) fun d =>
    (d.setPrf h { d.prf h with segs := [] }).putBit (Fld.PRF_STATUS_BUSY h) false
  if (d.prf h).v = 0 then d.sledRest h else d.sledGo h sledStop (d.prf h).p

/-- A move to a place within the limits, of a homed sled (R236, R242). Where the place lies outside them VLIM_REFUSED is set beside CMD_REFUSED, which
R236 says of TRACK only (DESIGN CHOICE, log 165). -/
def Dev.moveSled (d : Dev) (h mode : Nat) (goal : Int) : Dev :=
  let l := d.vlim h
  if d.sledBusy h || !d.bit (Fld.SLD_STATUS_HOMED h) then d.sledRefused h
  else if goal < l.1 ∨ l.2 < goal then (d.putBit (Fld.SLD_STATUS_VLIM_REFUSED h) true).sledRefused h
  else if d.towardLimit h goal goal then d.sledRefused h else d.sledGo h mode goal

/-- PARK; a sled that is not homed stops (R236, R245). -/
def Dev.parkSled (d : Dev) (h : Nat) : Dev :=
  if d.bit (Fld.SLD_STATUS_HOMED h) then d.moveSled h sledPark ((d.reg (Adr.SLD_PARK_POS h)).toInt * 65536)
  else d.stopSled h

/-- Goal of the coupling target: (µm × 65,536 / PITCH) + ORIGIN, in 1/65,536 fine step (R235, R236). -/
def Dev.trackGoal (d : Dev) (h : Nat) : Int :=
  let um := fltOf (BitVec.ofInt 32 (d.outPort (0x80 * h + 0x6f)))
  let pitch := fltOf (d.reg (Adr.SLD_PITCH h))
  let origin := (d.reg (Adr.SLD_ORIGIN h)).toInt * 65536
  match um, pitch with
  | .zero _, .fin _ _ _ => origin
  | .fin s m e, .fin t n f =>
    let k := e - f + 32
    let neg := s != t
    let q := if 0 ≤ k then roundDiv (m * 2 ^ k.toNat : Nat) n else roundDiv (m : Nat) (n * 2 ^ (-k).toNat)
    origin + (if neg then -q else q)
  | _, _ => Config.freeOf 1 (d.outPort (0x80 * h + 0x6f)).toNat

/-- The radius of a head's position-0 spot in 2^-16 µm (R235). -/
def Dev.radius16 (d : Dev) (h : Nat) : Int :=
  roundDiv (((d.reg (Adr.SLD_POS h)).toInt - (d.reg (Adr.SLD_ORIGIN h)).toInt) * fixOf (d.reg (Adr.SLD_PITCH h))) 65536

/-- The vendor firmware of KD mode sets SPN_TARGET to 60 × 12.02 m/s / (2π r) (R360); a stopped spindle stays so. -/
def Dev.kdSpin (d : Dev) : Dev :=
  let r := d.radius16 0
  if d.mode ≠ 2 ∨ r ≤ 0 ∨ d.fld Fld.SPN_TARGET_TARGET = 0 then d
  else
    let rpm := (roundDiv (721200000 * 2 ^ 116 : Nat) (twoPi100 * r.toNat)).toNat
    { d with kd := { d.kd with radius := r } }.targetWrite (withField (d.reg Adr.SPN_TARGET) 0 16 rpm)

/-- It does so again after every 1 mm of sled travel. -/
def Dev.kdFollow (d : Dev) : Dev := d.when (d.mode == 2 && decide (65536 * 1000 ≤ (d.radius16 0 - d.kd.radius).natAbs)) Dev.kdSpin

/-- TRACK renews its goal, held within the virtual limits; VLIM_REFUSED once per excursion (R236). -/
def Dev.trackTick (d : Dev) (h : Nat) : Dev :=
  let l := d.vlim h
  let g := d.trackGoal h
  let out := decide (g < l.1) || decide (l.2 < g)
  let d := d.when (out && !(d.sled h).outside) fun d => d.putBit (Fld.SLD_STATUS_VLIM_REFUSED h) true
  d.onSled h fun s => { s with goal := clampInt l.1 l.2 g, outside := out }

/-- The step of HOME decides where the sled is to go: goal and top speed (R243). -/
def Dev.homeGoal (d : Dev) (h : Nat) : Int :=
  match (d.sled h).home with
  | .leave => (d.prf h).p + 2 ^ 60
  | .inward => (d.prf h).p - 2 ^ 60
  | .backoff => (d.sled h).goal
  | .landing | .failing => (d.prf h).p

/-- A homing that has ended in a step comes to rest (R243). -/
def Dev.homeRest (d : Dev) (h : Nat) : Dev :=
  match (d.sled h).home with
  | .landing =>
    let d := (d.sledRest h).putBit (Fld.SLD_STATUS_HOMED h) true
    d.motorEvent 0x58b (BitVec.ofInt 32 ((d.prf h).p / 65536))
  | .failing => d.sledRest h
  | .backoff => d.onSled h fun s => { s with home := .inward, homeFrom := (d.prf h).p, ignore := false }
  | _ => d

/-- HOME fails and the sled stops at DEC (R243). -/
def Dev.homeFails (d : Dev) (h : Nat) : Dev :=
  (d.putBit (Fld.SLD_STATUS_HOME_FAIL h) true).onSled h fun s => { s with home := .failing }

/-- BACKOFF in 1/65,536 fine step. -/
def Dev.backoff (d : Dev) (h : Nat) : Int := (d.fld (Fld.SLD_LIM_CFG_BACKOFF h) * 4096 * 65536 : Nat)

/-- While HOMED is 1 no motion carries the reference of a sled from a place p outside the virtual limits, or further out where a change of the limits
has left it outside (R237). -/
def Dev.limited (d : Dev) (h : Nat) (p q : Int) : Int :=
  let l := d.vlim h
  if d.bit (Fld.SLD_STATUS_HOMED h) then clampInt (min l.1 p) (max l.2 p) q else q

/-- A sled's tick: its motion, its limits, its current references and its registers (R236, R237, R239). -/
def Dev.sledTick (d : Dev) (h : Nat) : Dev :=
  let mode := d.sledMode h
  let d := d.when (mode == sledTrack) fun d => (d.trackTick h).kdFollow
  let s := d.sled h
  let x := d.prf h
  let d :=
    if mode = sledIdle then d
    else if mode = sledTable then
      let d := d.tableTick h
      let d := d.setPrf h { d.prf h with p := d.limited h x.p (d.prf h).p }
      d.when (d.prf h).segs.isEmpty fun d => d.sledRest h
    else
      let homing := mode = sledHome
      let stopping := mode = sledStop ∨ (homing ∧ (s.home = .landing ∨ s.home = .failing))
      let vmax := d.fld (Fld.SLD_VMAX_VMAX h) * 256
      let r := if stopping then
          let v' := toward x.v 0 s.dec
          (x.p + (x.v + v') / 2, v', (0 : Int), decide (v' = 0))
        else moveTick x.p x.v (if homing then d.homeGoal h else d.limited h x.p s.goal) vmax (d.fld (Fld.SLD_ACC_ACC h)) s.dec s.cruise s.brakeFrom
      let l := d.vlim h
      let p := d.limited h x.p r.1
      let v := if p = r.1 then r.2.1 else 0
      let d := d.setPrf h { x with p := p, v := v, acc := accWord (v - x.v) 1 }
      let d := d.onSled h fun s => { s with brakeFrom := r.2.2.1, cruise := s.cruise && r.2.2.1 == 0 && r.2.1 == x.v }
      let far := homing && s.home == .inward && decide (l.2 - l.1 + 2 * d.backoff h < s.homeFrom - p)
      let d := d.when far fun d => d.homeFails h
      if !r.2.2.2 || far then d
      else if homing then d.homeRest h
      else if mode = sledTrack then d.onSled h fun s => { s with ignore := false, cruise := false, brakeFrom := 0 }
      else d.sledRest h
  let x := d.prf h
  let d := d.when (x.v != 0) fun d => d.onSled h fun s => { s with hold := false }
  let pos := x.p / 65536
  let d := d.setReg (Adr.SLD_POS h) (BitVec.ofInt 32 pos)
  let i := (pos / 256 % 1024).toNat
  let frac := pos % 256
  let w (j : Nat) : Word := d.reg (0xa1000 + 0x1000 * h + 4 * (j % 1024))
  let mA := d.fld (if (d.sled h).hold then Fld.SLD_CUR_HOLD h else Fld.SLD_CUR_RUN h)
  let ref (lo : Nat) : Word :=
    let a := signedOf 16 (fieldOf (w i) lo 16)
    let b := signedOf 16 (fieldOf (w (i + 1)) lo 16)
    fltRatio ((a * 256 + (b - a) * frac) * mA) (256 * 32767 * 1000)
  d.onSled h fun s => { s with refA := ref 0, refB := ref 16 }

/-! ## The tick (R209, R220, R221, R222, R231) -/

/-- The window's floated phase: which phase crosses at each sixth of a turn is left open (R221, log 38). -/
def Dev.floatPhase (d : Dev) : Nat :=
  let s := d.mot.spn
  let win := d.fld Fld.SPN_CFG_ZC_WIN * 2 ^ 32 / 360
  let sixth := 2 ^ 32 / 6
  let near := (s.theta + sixth / 2) / sixth
  let dist := ((s.theta : Int) - (near * sixth : Nat)).natAbs
  if d.spnState = spnFoc ∧ 2 * dist ≤ win then 1 + Config.freeOf 2 (near % 6) % 3 else 0

/-- The estimator's angle advances by one tick (R220). -/
def Dev.thetaTick (d : Dev) : Dev :=
  if d.mot.spn.synced && d.mot.spn.t60 != 0 then
    d.onSpn fun s => { s with theta := (s.theta + 2 ^ 32 * 10000 / (6 * s.t60)) % 2 ^ 32 }
  else d

/-- The commutation of STEP6 takes place when its T60/2 has passed, at the tick that reaches it (R222; log 150). -/
def Dev.commutate (d : Dev) : Dev :=
  match d.mot.spn.commute with
  | some n => if n ≤ 10000 then d.onSpn fun s => { s with commute := none, sector := (s.sector + 1) % 6 }
    else d.onSpn fun s => { s with commute := some (n - 10000) }
  | none => d

/-- A chopper current that the comparator sees: above 50 mV (R228, R459). -/
def chopperFired (code : Nat) : Bool := 50 * 4095 < 1000 * code

/-- The converters' codes by port number (R209, R212). -/
def convTab (m : MotorSamples) : Tab Nat :=
  let l := (m.phase ++ List.replicate 3 0).take 3 ++ (m.terminal ++ List.replicate 3 0).take 3 ++ [m.bus, m.chopper]
    ++ (m.sled ++ List.replicate 4 0).take 4 ++ [m.sledSupply]
  Tab.write (fun _ => 0) [] 0x100 (l.map (·.toNat))

/-! ### Pulse-width modulation (R208) -/

/-- The PWM counter turns: at 0 the compare registers, which hold the ports' values, shape the pulses about the next top, and what the ports take
from then on reshapes them (R208). -/
def Dev.pwmTick (d : Dev) : Dev :=
  let top := !d.mot.pwmTop
  let d := { d with mot := { d.mot with pwmTop := top, periodAt := 0, now := 0 } }
  if top then d
  else { d with mot := { d.mot with pulses := (List.range 11).foldl (fun t k => Tab.set noPulse t k (d.pulseOf k)) [] } }

/-- SPINDLE_CURRENT_TICK (R209, R231): conversions, the profiler, the sleds and the spindle. -/
def execSpindleCurrentTick (m : MotorSamples) (s : State) : Host.Outcome State Fault Refusal :=
  s.on fun d =>
    let d := d.copyDisagrees copiesMotor m.copy
    let d := { d with mot := { d.mot with conv := convTab m } }
    let d := (d.put Fld.MOT_BUS_MON_VBUS m.bus.toNat).put Fld.MOT_BUS_MON_CHOP_I m.chopper.toNat
    let d := d.onSpn fun s => { s with
      cut := [], chopCheck := s.chopCheck && !chopperFired m.chopper.toNat, faultLow := m.faultLow }
    let d := d.each [0, 1] fun d h => d.when (d.hasSled h) fun d => d.sledTick h
    let d := d.each [2, 3, 4, 5] fun d c => d.tableTick c
    let d := d.each [0, 1, 2, 3, 4, 5] fun d c => d.setReg (Adr.PRF_POS c) (fltRatio (d.prf c).p 65536)
    let d := (((d.rampTick.thetaTick).commutate).stopCheck).restartAfterOv2
    (d.onSpn fun s => { s with floated := d.floatPhase }).pwmTick

/-! ## Sled commands (R236, R243, R245, R246) -/

/-- A command of a sled that takes commands (R246). -/
def Dev.sledCommand (d : Dev) (h : Head) (f : Dev → Dev) : Dev := d.when (d.sledTakes h.ix) f

/-- What happens at a sled that is there, be it commanded or not. -/
def Dev.atSled (d : Dev) (h : Head) (f : Dev → Dev) : Dev := d.when (d.hasSled h.ix) f

/-- HOME (R236, R243). -/
def Dev.homeSled (d : Dev) (h : Nat) : Dev :=
  if d.sledBusy h then d.sledRefused h
  else if d.bit (Fld.SLD_STATUS_LIM_FAR h) then d.putBit (Fld.SLD_STATUS_HOME_FAIL h) true
  else
    let d := (d.sledGo h sledHome 0).putBit (Fld.SLD_STATUS_HOMED h) false
    let out := d.bit (Fld.SLD_STATUS_LIM_HOME h)
    d.onSled h fun s => { s with home := if out then .leave else .inward, homeFrom := (d.prf h).p, ignore := false }

def execSledHome (h : Head) (s : State) : Host.Outcome State Fault Refusal :=
  s.on fun d => d.sledCommand h fun d => d.homeSled h.ix

def execSledMove (h : Head) (s : State) : Host.Outcome State Fault Refusal :=
  s.on fun d => d.sledCommand h fun d => d.moveSled h.ix sledMove ((d.reg (Adr.SLD_TARGET h.ix)).toInt * 65536)

/-- TABLE (R234, R236, R242). -/
def Dev.tableSled (d : Dev) (h : Nat) : Dev :=
  let x := d.prf h
  let l := d.vlim h
  if d.sledBusy h || !d.bit (Fld.SLD_STATUS_HOMED h) then d.sledRefused h
  else
    match d.checkTable h with
    | none => (d.putBit (Fld.PRF_STATUS_REFUSED h) true).sledRefused h
    | some t =>
      let ex := tableExtremes x.p x.v t
      if ex.any fun p => decide (p < l.1) || decide (l.2 < p) then
        ((d.putBit (Fld.PRF_STATUS_REFUSED h) true).putBit (Fld.SLD_STATUS_VLIM_REFUSED h) true).sledRefused h
      else if d.towardLimit h (ex.foldl min x.p) (ex.foldl max x.p) then d.sledRefused h
      else (d.sledGo h sledTable x.p).startTable h t

def execSledTable (h : Head) (s : State) : Host.Outcome State Fault Refusal :=
  s.on fun d => d.sledCommand h fun d => d.tableSled h.ix

/-- TRACK (R236, R242). -/
def Dev.trackSled (d : Dev) (h : Nat) : Dev :=
  let l := d.vlim h
  let g := clampInt l.1 l.2 (d.trackGoal h)
  if d.sledBusy h || !d.bit (Fld.SLD_STATUS_HOMED h) || d.towardLimit h g g then d.sledRefused h
  else (d.sledGo h sledTrack g).onSled h fun s => { s with outside := false }

def execSledTrack (h : Head) (s : State) : Host.Outcome State Fault Refusal :=
  s.on fun d => d.sledCommand h fun d => d.trackSled h.ix

def execSledStop (h : Head) (s : State) : Host.Outcome State Fault Refusal :=
  s.on fun d => d.sledCommand h fun d => d.stopSled h.ix

def execSledPark (h : Head) (s : State) : Host.Outcome State Fault Refusal :=
  s.on fun d => d.sledCommand h fun d => d.parkSled h.ix

/-- SLED_DEC_WRITE: a write of DEC, applied at once or, where the stop that it implies while braking lies outside the
limits, deferred to the next move (R238); the limits are those of a homed sled (R237). -/
def Dev.decWrite (d : Dev) (h : Nat) (v : Word) : Dev :=
  let x := d.prf h
  let s := d.sled h
  let d := d.setReg (Adr.SLD_DEC h) v
  let planned := d.sledMode h == sledMove || d.sledMode h == sledPark || d.sledMode h == sledTrack
  let brakes := (planned && s.brakeFrom != 0) || (d.sledMode h == sledStop && x.v != 0)
  if !brakes || !d.bit (Fld.SLD_STATUS_HOMED h) then d.onSled h fun s => { s with dec := v.toNat }
  else
    let reach : Int := if v.toNat = 0 then 2 ^ 62 else x.v ^ 2 / (2 * v.toNat)
    let stop := if x.v < 0 then x.p - reach else x.p + reach
    let l := d.vlim h
    if l.1 ≤ stop ∧ stop ≤ l.2 then
      let short := planned && (if x.v < 0 then decide (s.goal < stop) else decide (stop < s.goal))
      d.onSled h fun s => { s with dec := v.toNat, cruise := short, brakeFrom := if short then 0 else s.brakeFrom }
    else (d.putBit (Fld.SLD_STATUS_ACC_DEFERRED h) true).motorEvent 0x589 (d.reg (Adr.SLD_POS h))

def execSledDecWrite (h : Head) (v : Word) (s : State) : Host.Outcome State Fault Refusal :=
  s.on fun d => d.atSled h fun d => d.decWrite h.ix v

/-- SLED_HOLD_TIMER: a sled at rest for HOLD_DELAY drops to hold current (R239). -/
def execSledHoldTimer (h : Head) (s : State) : Host.Outcome State Fault Refusal :=
  s.on fun d => d.atSled h fun d => d.when ((d.prf h.ix).v == 0) fun d => d.onSled h.ix fun s => { s with hold := true }

/-! ## Limit switches (R241 to R243) -/

/-- LIMIT_RAW_TRANSITION: the profiler records the position, and the debounce begins (R241). -/
def execLimitRawTransition (h : Head) (far level : Bool) (s : State) : Host.Outcome State Fault Refusal :=
  s.on fun d => d.atSled h fun d =>
    let pol := d.bit (if far then Fld.SLD_LIM_CFG_POL_FAR h.ix else Fld.SLD_LIM_CFG_POL_HOME h.ix)
    let act := level == pol
    let now := d.bit (if far then Fld.SLD_STATUS_LIM_FAR h.ix else Fld.SLD_STATUS_LIM_HOME h.ix)
    let r := if act == now then none else some (act, (d.prf h.ix).p)
    d.onSled h.ix fun s => if far then { s with rawFar := r } else { s with rawHome := r }

/-- The first activating edge of a motion: latched, and the end of homing, a failure of it, or a stop (R242, R243). -/
def Dev.limitActs (d : Dev) (h : Nat) (far : Bool) (pos : Int) : Dev :=
  let d := d.putBit (if far then Fld.SLD_STATUS_LIMIT_FAR h else Fld.SLD_STATUS_LIMIT_HOME h) true
  let d := d.onSled h fun s => { s with ignore := true }
  let homing := d.sledMode h == sledHome
  if homing && !far then
    if (d.sled h).home == .inward then
      let delta := (d.reg (Adr.SLD_HOME_POS h)).toInt * 65536 - pos
      let d := d.setPrf h { d.prf h with p := (d.prf h).p + delta }
      d.onSled h fun s => { s with home := .landing, rawFar := s.rawFar.map fun r => (r.1, r.2 + delta) }
    else d
  else
    let d := (d.putBit (Fld.SLD_STATUS_HOMED h) false).motorEvent (if far then 0x588 else 0x587) (d.reg (Adr.SLD_POS h))
    if homing then d.homeFails h else (d.count (Adr.MOT_CNT 7)).stopSled h

/-- LIMIT_EDGE: an edge is qualified (R241, R242, R243). -/
def execLimitEdge (h : Head) (far : Bool) (s : State) : Host.Outcome State Fault Refusal :=
  s.on fun d => d.atSled h fun d =>
    match (if far then (d.sled h.ix).rawFar else (d.sled h.ix).rawHome) with
    | none => d
    | some (act, pos) =>
      let d := d.onSled h.ix fun s => if far then { s with rawFar := none } else { s with rawHome := none }
      let d := d.putBit (if far then Fld.SLD_STATUS_LIM_FAR h.ix else Fld.SLD_STATUS_LIM_HOME h.ix) act
      if d.sledMode h.ix = sledIdle then d
      else if act then (if (d.sled h.ix).ignore then d else d.limitActs h.ix far pos)
      else d.when (!far && d.sledMode h.ix == sledHome && (d.sled h.ix).home == .leave) fun d =>
        d.onSled h.ix fun s => { s with home := .backoff, goal := (d.prf h.ix).p + d.backoff h.ix }

/-! ## OV2 and its like (R229, R459) -/

/-- The sleds that move or track park on VM_SLED (R229, R245). -/
def Dev.parkSleds (d : Dev) : Dev :=
  d.each [0, 1] fun d h =>
    d.when (d.sledTakes h && d.bit (Fld.SLD_STATUS_BUSY h)) fun d =>
      let d := d.when (d.sledMode h == sledTable) fun d => d.stopSled h
      d.when (d.sledMode h != sledHome || !d.bit (Fld.SLD_STATUS_HOMED h)) fun d => d.parkSled h

/-- Both sleds are commanded to PARK (R245). -/
def Dev.parkBoth (d : Dev) : Dev := d.each [0, 1] fun d h => d.when (d.sledTakes h) fun d => d.parkSled h

/-- The sleds park once the last started stripe is written after a supply alarm (R454). -/
def Dev.parkWhenWritten (d : Dev) : Dev :=
  d.when (d.pwr.parkDue && !d.writing 0 && !d.writing 1) fun d =>
    { d with pwr := { d.pwr with parkDue := false } }.parkBoth

/-- An OV2 trip (R211, R229); a second one within 60 s leaves the spindle in COAST. -/
def Dev.ov2Trip (d : Dev) : Dev :=
  let again := match d.mot.spn.ov2Last with
    | some t => d.locus.micros < t + 60000000
    | none => false
  let d := d.spnCoasts.putBit Fld.MOT_STATUS_OV2 true
  let d := (d.count (Adr.MOT_CNT 5)).spnEvent 0x582
  (d.onSpn fun s => { s with ov2Last := some d.locus.micros, noRestart := again, noMedium := s.noMedium || again,
                             held := false }).parkSleds

def execOv2 (s : State) : Host.Outcome State Fault Refusal :=
  s.on fun d => (d.onSpn fun s => { s with busLow := false, chopper := true }).ov2Trip

/-- OV2_CLEAR: only while the bus is below BRK_OFF (R229). -/
def Dev.ov2Clear (d : Dev) : Dev := d.when d.mot.spn.busLow fun d => d.putBit Fld.MOT_STATUS_OV2 false

def execOv2Clear (s : State) : Host.Outcome State Fault Refusal := s.on fun d => d.ov2Clear

/-- MOT_FLT: as an OV2 trip; the input stays low until a spindle current tick finds it high (R229, R459). -/
def execMotFlt (s : State) : Host.Outcome State Fault Refusal :=
  s.on fun d => (d.onSpn fun s => { s with faultLow := true }).ov2Trip

def execMotCntClr (s : State) : Host.Outcome State Fault Refusal := s.on fun d => d.clearCounters Adr.MOT_CNT

/-! ## Recovery of a failed pair (R487) -/

/-- The heads whose ports a program drives (R197). -/
def ArcImage.heads (im : ArcImage) : List Nat := [0, 1].filter fun h => im.bind / 2 ^ h % 2 == 1

/-- The firmware starts again what a failed pair served: a head's focus capture, of which the head's being open now is the part in this step and
FOCUS_CAPTURE the rest, the spindle, and HOME (R164, R214, R487; log 164). -/
def Dev.serveAgain (d : Dev) (im : ArcImage) : Dev :=
  let d := d.each im.heads fun d h => d.when ((d.head h).captured && im.zoneHead == h + 1) fun d => d.loseFocus h
  d.when (im.bind / 4 % 2 == 1) fun d =>
    let d := d.when (d.fld Fld.SPN_TARGET_TARGET != 0 && d.spnState == spnCoast) Dev.applyTarget
    d.each [0, 1] fun d h => d.when (d.sledTakes h) fun d => d.homeSled h

/-- PAIR_FAILED_RECOVERY: the engines of the failed takeover, its spare among them, that failed their test retire; the pair's program is loaded on
two engines in service, and what the pair served starts again; with fewer than two engines the pair stays empty (R486, R487). -/
def execPairFailedRecovery (p : ArcPair) (failed : List ArcEng) (s : State) : Host.Outcome State Fault Refusal :=
  s.on fun d =>
    if !d.pairFailed p then d
    else
      let bad := (failed.map (·.val)).filter fun e => (d.pairEngines p).contains e || (d.arcPair p).tested.contains e
      let im := (d.arcPair p).image
      let d := d.each (d.pairEngines p) fun d e => d.putBit (Fld.ARC_STATUS_PAIR_FAILED e) false
      let d := d.each bad fun d e => d.arcRetire e
      let kept := (d.pairEngines p).filter d.arcUp
      let free := (List.range 8).filter fun e => !kept.contains e && d.spareFree e
      let order := [d.fld Fld.ARC_SPARE_FIRST, d.fld Fld.ARC_SPARE_SECOND].filter free.contains
      let d := d.onPair p fun s => { s with tested := [] }
      match (kept ++ order ++ free).eraseDups, im with
      | a :: b :: _, some im =>
        (((d.fillPair p a b).onPair p fun s => { s with next := some { im with keepState := false }, quiet := false })).serveAgain im
      | _, _ =>
        let d := d.each kept fun d e => d.put (Fld.ARC_CTRL_ROLE e) roleOff
        d.onPair p fun s => { s with image := none, next := none }

end Sys2Proof.Machine
end

