-- ==== Sys2Proof/Machine/Span.lean ====
section
/-! DEFINITION. Span tasks: registers and CSRs, tightly coupled memory, exceptions, effects, checkpoints, and the restart of
tasks on a spare processor (R249 to R254, R258 to R263, R268 to R273). -/

namespace Sys2Proof.Machine

/-! ## Tasks (R249) -/

def taskStopped : Nat := 0
def taskRunning : Nat := 1
def taskWaiting : Nat := 2
def taskRestarting : Nat := 3

/-- The processor and the state of a task. -/
def Dev.taskProc (d : Dev) (t : Nat) : Nat := d.fld (Fld.SPP_TASK_PROC t)
def Dev.taskState (d : Dev) (t : Nat) : Nat := d.fld (Fld.SPP_TASK_STATE t)
def Dev.setTaskState (d : Dev) (t st : Nat) : Dev := d.put (Fld.SPP_TASK_STATE t) st

/-- The task exists. -/
def Dev.taskLive (d : Dev) (t : Nat) : Bool := d.bit (Fld.SPP_TASK_LIVE t)

/-- The task is a user task (R253). -/
def Dev.taskUser (d : Dev) (t : Nat) : Bool := d.bit (Fld.SPP_TASK_USER t)

/-- The live tasks of a processor. -/
def Dev.tasksOf (d : Dev) (p : Nat) : List Nat := (List.range 96).filter fun t => d.taskLive t && d.taskProc t == p

/-- The task in a context: the one with its number modulo 8 on its processor (R249). -/
def Dev.taskIn (d : Dev) (p c : Nat) : Option Nat := (d.tasksOf p).find? fun t => t % 8 == c

/-- The task that issues: its context holds it, it runs, takes no checkpoint, and its processor issues. -/
def Dev.issuer (d : Dev) (i : SpanIssue) : Option Nat :=
  (d.taskIn i.proc.val i.ctx.val).filter fun t =>
    d.taskState t == taskRunning && (d.task t).ckpt.isNone && !d.bit (Fld.SPP_STATUS_FAULT i.proc.val)

/-- CTX_LIVE of a processor shows its tasks. -/
def Dev.showContexts (d : Dev) (p : Nat) : Dev :=
  d.put (Fld.SPP_STATUS_CTX_LIVE p) (((d.tasksOf p).map fun t => 2 ^ (t % 8)).foldl (· + ·) 0)

/-! ## Registers and TCM (R249, R250) -/

/-- A register of a task: s0 reads as 0. -/
def Dev.sreg (d : Dev) (t r : Nat) : DWord := if r = 0 then 0 else Tab.get (fun _ => 0) (d.task t).regs r

/-- A register is written; writes to s0 are discarded. -/
def Dev.setSreg (d : Dev) (t r : Nat) (v : DWord) : Dev :=
  if r = 0 then d else d.onTask t fun x => { x with regs := Tab.set (fun _ => 0) x.regs r v }

/-- n bytes of a processor's TCM from offset a. -/
def Dev.tcmRead (d : Dev) (p a n : Nat) : List Byte :=
  (List.range n).map fun i => Tab.get (fun _ => 0) d.span.tcm (65536 * p + (a + i) % 65536)

/-- Bytes written to a processor's TCM from offset a. -/
def Dev.tcmWrite (d : Dev) (p a : Nat) (l : List Byte) : Dev :=
  { d with span := { d.span with tcm := (l.zipIdx).foldl (fun t e =>
      Tab.set (fun _ => 0) t (65536 * p + (a + e.2) % 65536) e.1) d.span.tcm } }

/-- CORE time in cycles. -/
def Dev.coreTime (d : Dev) : Nat := 1100 * d.locus.micros

/-! ## Exceptions (R259) -/

def causeIllegal : Nat := 1
def causeFetch : Nat := 2
def causeAddr : Nat := 3
def causeAlign : Nat := 4
def causeDenied : Nat := 5
def causePoison : Nat := 6
def causeParity : Nat := 7

/-- The region of a task: user programs stand from 0xc_0000 on (R253). -/
def Dev.inRegion (d : Dev) (t pc : Nat) : Bool :=
  if d.taskUser t then 0xc0000 ≤ pc && pc < 0x100000 else pc < 0xc0000

/-- A task stops on an exception, with an audit record; a vendor task's stop restarts the clean minutes (R259, R425). -/
def Dev.stopTask (d : Dev) (t cause : Nat) : Dev :=
  let d := (d.setTaskState t taskStopped).auditEvent (leBytes 2 t ++ leBytes 2 cause ++ leBytes 4 (d.task t).epc)
  d.when (t < 88) fun d => d.put Fld.UPD_CONFIRM_CLEAN_MIN 0

/-- EPC, CAUSE and the event of an exception. -/
def Dev.recordException (d : Dev) (t cause epc : Nat) : Dev :=
  ((d.onTask t fun x => { x with epc := epc, cause := cause }).count (Adr.SPP_CNT (d.taskProc t) 3)).event
    .spanEvent t cause [epc]

/-- An exception at address epc: the handler takes over, or the task stops without a handler and inside one; a handler
outside the region raises FETCH_DENIED inside itself. -/
def Dev.exception (d : Dev) (t cause epc : Nat) : Dev :=
  let x := d.task t
  let d := d.recordException t cause epc
  if x.handler = 0 || x.inHandler then d.stopTask t cause
  else if d.inRegion t x.handler then d.onTask t fun x => { x with inHandler := true, pc := x.handler }
  else (d.recordException t causeFetch x.handler).stopTask t causeFetch

/-- An exception of the instruction that issues. -/
def Dev.trap (d : Dev) (t cause : Nat) : Dev := d.exception t cause (d.task t).pc

/-- The program counter moves to an address; outside the task's region FETCH_DENIED is raised there (R253, R257). -/
def Dev.jump (d : Dev) (t pc : Nat) : Dev :=
  if d.inRegion t pc then d.onTask t fun x => { x with pc := pc } else d.exception t causeFetch pc

/-- The next instruction follows. -/
def Dev.next4 (d : Dev) (t : Nat) : Dev := d.jump t ((d.task t).pc + 4)

/-- An instruction that writes a register and goes on. -/
def Dev.retire (d : Dev) (t r : Nat) (v : DWord) : Dev := (d.setSreg t r v).next4 t

/-- An issue is counted, in units of 1,024 (R284). -/
def Dev.countIssue (d : Dev) (p : Nat) : Dev :=
  let n := Tab.get (fun _ => 0) d.span.issued p + 1
  let d := { d with span := { d.span with issued := Tab.set (fun _ => 0) d.span.issued p (n % 1024) } }
  d.when (n = 1024) fun d => d.count (Adr.SPP_CNT p 0)

/-- An instruction issued by a context: it acts on the task that stands in it, if that task can issue. -/
def Dev.span1 (d : Dev) (i : SpanIssue) (f : Dev → Nat → Dev) : Dev :=
  match d.issuer i with
  | some t => f (d.countIssue i.proc.val) t
  | none => d

/-! ## Control and status registers (R256; numbers: log 40) -/

def csrTimer : Nat := 0
def csrWatch0 : Nat := 1
def csrWatch1 : Nat := 2
def csrHandler : Nat := 3
def csrEpc : Nat := 4
def csrCause : Nat := 5
def csrEffects : Nat := 6
def csrFrame : Nat := 7
def csrFrameLen : Nat := 8
def csrAuth : Nat := 9

/-- The value of a CSR of a task; a number that names none reads a free value. -/
def Dev.csrValue (d : Dev) (t c : Nat) : Nat :=
  let x := d.task t
  if c = csrTimer then x.timer else if c = csrWatch0 then x.watch0 else if c = csrWatch1 then x.watch1
  else if c = csrHandler then x.handler else if c = csrEpc then x.epc else if c = csrCause then x.cause
  else if c = csrEffects then x.effects else if c = csrFrame then x.frame else if c = csrFrameLen then x.frameLen
  else if c = csrAuth then x.auth else d.freeBits 64

/-- A CSR is written: FRAME keeps a 64-byte aligned offset in the context region, FRAME_LEN at most 32, AUTH an ESN; EFFECTS is
the filter's own. -/
def TaskSt.setCsr (x : TaskSt) (c v : Nat) : TaskSt :=
  if c = csrTimer then { x with timer := v } else if c = csrWatch0 then { x with watch0 := v }
  else if c = csrWatch1 then { x with watch1 := v } else if c = csrHandler then { x with handler := v % 2 ^ 32 }
  else if c = csrEpc then { x with epc := v % 2 ^ 32 } else if c = csrCause then { x with cause := v % 256 }
  else if c = csrFrame then { x with frame := v % 8192 / 64 * 64 } else if c = csrFrameLen then { x with frameLen := min 32 v }
  else if c = csrAuth then { x with auth := v % 2 ^ 48 } else x

/-! ## Waiting (R263) -/

/-- A watched queue holds an entry that is not held for another task. -/
def Dev.queueReady (d : Dev) (t q : Nat) : Bool :=
  (d.span.held.any fun e => e.queue == q && e.task == t && e.returned) ||
    (if q = 127 then 0 < (d.mail t).count else 0 < d.queueCount q)

/-- The sources that are ready for a task. -/
def Dev.waitSources (d : Dev) (t : Nat) : Nat :=
  let x := d.task t
  let b (c : Bool) (v : Nat) : Nat := if c then v else 0
  b (d.queueReady t 127) 1 + b x.dmaReady 2 + b (decide (x.timer ≤ d.coreTime)) 4
    + b ((List.range 128).any fun q =>
        (if q < 64 then x.watch0.testBit q else x.watch1.testBit (q - 64)) && d.queueReady t q) 8
    + b x.signal 16

/-- A WAIT reports the ready sources of its mask; DMA and SIGNAL are cleared by their report. -/
def Dev.endWait (d : Dev) (t rd ready : Nat) : Dev :=
  ((d.onTask t fun x => { x with
    dmaReady := x.dmaReady && !ready.testBit 1, signal := x.signal && !ready.testBit 4, waiting := none }).setTaskState t
      taskRunning).retire t rd (BitVec.ofNat 64 ready)

/-- WAIT under a mask: it returns at once, or the context waits. -/
def Dev.startWait (d : Dev) (t rd mask : Nat) : Dev :=
  let ready := d.waitSources t &&& mask
  if ready = 0 then (d.onTask t fun x => { x with waiting := some (rd, mask) }).setTaskState t taskWaiting
  else d.endWait t rd ready

/-! ## Checkpoints (R268, R271, R272) -/

/-- The address of a task's checkpoint slot. -/
def Dev.slotAddr (d : Dev) (t slot : Nat) : Nat := d.fld Fld.SPP_CKPT_BASE_PAGE * pageBytes + 8192 * t + 4096 * slot

/-- The bytes of a slot with its frame. -/
def Dev.slotBytes (d : Dev) (t slot : Nat) : List Byte :=
  let a := d.slotAddr t slot
  d.bufRead a (320 + 64 * fieldAt (d.bufRead a 320) 22 2)

/-- The CRC of a checkpoint: over bytes 0 to 311 and the frame. -/
def ckptCrc (l : List Byte) : Nat := crc32 (l.take 312 ++ l.drop 320)

/-- A slot is valid when its MAGIC, TASK and CRC check. -/
def Dev.slotValid (d : Dev) (t slot : Nat) : Bool :=
  let l := d.slotBytes t slot
  l.take 4 == [0x53, 0x50, 0x43, 0x4b] && fieldAt l 4 2 == t && fieldAt l 312 4 == ckptCrc l &&
    !d.anyPoison (d.slotAddr t slot) l.length

/-- GEN of a slot, 0 where it is not valid. -/
def Dev.slotGen (d : Dev) (t slot : Nat) : Nat := if d.slotValid t slot then fieldAt (d.slotBytes t slot) 8 8 else 0

/-- The bytes of a checkpoint of the state a task is in. -/
def Dev.ckptBytes (d : Dev) (t gen : Nat) (e : Esn) : List Byte :=
  let x := d.task t
  let head := [0x53, 0x50, 0x43, 0x4b] ++ leBytes 2 t ++ leBytes 2 (if d.taskUser t then 1 else 0) ++ leBytes 8 gen
    ++ leBytes 6 e.toNat ++ leBytes 2 x.frameLen ++ leBytes 4 x.pc ++ leBytes 4 x.effects ++ leBytes 8 x.watch0
    ++ leBytes 8 x.watch1 ++ leBytes 8 x.timer ++ leBytes 4 x.handler ++ leBytes 4 x.frame
    ++ ((List.range 31).map fun r => leBytes 8 (d.sreg t (r + 1)).toNat).flatten
  let frame := d.tcmRead (d.taskProc t) (8192 * (t % 8) + x.frame) (64 * x.frameLen)
  head ++ leBytes 4 (crc32 (head ++ frame)) ++ zeroBytes 4 ++ frame

/-- The generation of the next checkpoint. -/
def Dev.nextGen (d : Dev) (t : Nat) : Nat := max (d.slotGen t 0) (d.slotGen t 1) + 1

/-- A checkpoint of the present state begins: it goes to the slot with the lower GEN. -/
def Dev.startCkpt (d : Dev) (t : Nat) : Dev :=
  let gen := d.nextGen t
  let slot := if d.slotGen t 0 ≤ d.slotGen t 1 then 0 else 1
  let l := d.ckptBytes t gen d.esn
  (d.event .checkpoint t 0 [gen]).onTask t fun x => { x with ckpt := some ⟨gen, slot, l⟩ }

/-- The mailbox places held for a task are freed, and the records that producers hold take them (R262); those that wait to be popped
again stay held. -/
def Dev.freeMail (d : Dev) (t : Nat) : Dev :=
  let kept := (d.span.held.filter fun e => e.queue == 127 && e.task == t).length
  (d.setMail t { d.mail t with taken := kept, held := [] }).releaseMail t (d.mail t).held

/-! ## Effects (R268, R269) -/

/-- The command of a receipt ESN has started: its owning task has issued a DMA or a DISP for it (R347). -/
def Dev.markStarted (d : Dev) (rcpt : Esn) : Dev :=
  { d with host := { d.host with cmds := d.host.cmds.map fun c => if c.rcpt = rcpt then { c with started := true } else c } }

/-- Kinds of effect. -/
def effPush : Nat := 1
def effDma : Nat := 2
def effDisp : Nat := 3
def effStamp : Nat := 4
def effAmo : Nat := 5
def effSignal : Nat := 6
def effControl : Nat := 7

/-- The log of a task is full and the next effect is a new one, so that a checkpoint comes first. -/
def Dev.effectsFull (d : Dev) (t : Nat) : Bool :=
  let x := d.task t
  64 ≤ x.log.length && !x.log.any fun r => r.num == x.effects

/-- The 16-bit hash of the operands of an effect, which the spec leaves open (log 41). -/
def effectHash (ops : List Nat) : BitVec 16 := BitVec.ofNat 16 (Config.freeOf 14 (ops.foldl (fun n x => 2 ^ 64 * n + x) 1))

/-- The filter sees an effect: one already in the log with the same kind and hash answers its logged result; one that differs
discards the log from there on; a new one is performed and logged. -/
def Dev.filterEffect (d : Dev) (t kind : Nat) (ops : List Nat) (perform : Dev → DWord × Dev) : DWord × Dev :=
  let x := d.task t
  let num := x.effects
  let fresh (d : Dev) : DWord × Dev :=
    let (v, d) := perform d
    (v, d.onTask t fun x => { x with effects := (num + 1) % 2 ^ 32, log := x.log ++ [⟨num, kind, effectHash ops, v⟩] })
  match x.log.find? fun r => r.num == num with
  | none => fresh d
  | some r =>
    if r.kind = kind ∧ r.hash = effectHash ops then
      (r.result, (d.onTask t fun x => { x with effects := (num + 1) % 2 ^ 32 }).count (Adr.SPP_CNT (d.taskProc t) 5))
    else
      let d := d.onTask t fun x => { x with log := x.log.takeWhile fun r => r.num != num }
      let d := (d.putBit (Fld.SPP_TASK_REPLAY_DIVERGED t) true).count (Adr.SPP_CNT (d.taskProc t) 6)
      fresh ((d.put Fld.UPD_CONFIRM_CLEAN_MIN 0).auditEvent (leBytes 2 t ++ leBytes 2 0x100 ++ leBytes 4 num))

/-- An effect that writes its result to a register: a full log takes a checkpoint first, and the instruction issues after
it. -/
def Dev.effect (d : Dev) (t kind rd : Nat) (ops : List Nat) (perform : Dev → DWord × Dev) : Dev :=
  if d.effectsFull t then d.startCkpt t
  else
    let r := d.filterEffect t kind ops perform
    r.2.retire t rd r.1

/-! ## Restart (R251, R272, R273) -/

/-- The values of a restarted task: those of its valid slot with the greater GEN, else its entry point with registers 0. -/
def Dev.loadCkpt (d : Dev) (t : Nat) : Dev :=
  let keep := d.task t
  let base : TaskSt :=
    { log := keep.log, dmaReady := keep.dmaReady, signal := keep.signal, tag := keep.tag, cause := keep.cause }
  let slot := if d.slotGen t 1 ≤ d.slotGen t 0 then 0 else 1
  if d.slotGen t slot = 0 then d.setTask t { base with pc := d.fld (Fld.SPP_TASK_ENTRY t) }
  else
    let l := d.slotBytes t slot
    let regs := (List.range 31).foldl (fun r k => Tab.set (fun _ => 0) r (k + 1) (BitVec.ofNat 64 (fieldAt l (64 + 8 * k) 8)))
      ([] : Tab DWord)
    let x := { base with
      regs := regs, pc := fieldAt l 24 4, effects := fieldAt l 28 4, watch0 := fieldAt l 32 8, watch1 := fieldAt l 40 8
      timer := fieldAt l 48 8, handler := fieldAt l 56 4, frame := fieldAt l 60 4, frameLen := fieldAt l 22 2 }
    let x := { x with epc := d.freeBits 32, auth := d.drew.freeBits 48 }
    (d.drew.drew.setTask t x).tcmWrite (d.taskProc t) (8192 * (t % 8) + x.frame) (l.drop 320)

/-- A processor named as spare can take tasks: it is in service, and the contexts that they need are empty (log 42). -/
def Dev.canTake (d : Dev) (s from_ : Nat) (ts : List Nat) : Bool :=
  s < 12 && s != from_ && d.maskBit Fld.SPP_INSERVICE_MASK s && !d.bit (Fld.SPP_STATUS_FAULT s) && !d.dead 8 s &&
    ts.all fun t => (d.taskIn s (t % 8)).isNone

/-- The spare that takes tasks of a processor: IN of a hand-off in progress, else the first that SPN_SPARE names. -/
def Dev.spareFor (d : Dev) (p : Nat) (ts : List Nat) : Option Nat :=
  let named := [d.fld Fld.SPP_SPARE_FIRST, d.fld Fld.SPP_SPARE_SECOND]
  let handing : Bool := d.bit Fld.SPR_HANDOFF_BUSY && d.fld Fld.SPR_HANDOFF_CLASS == 8 && d.fld Fld.SPR_HANDOFF_OUT == p
  if handing then some (d.fld Fld.SPR_HANDOFF_IN) else named.find? fun s => d.canTake s p ts

/-- A task of a processor begins its restart on a spare, its entries held waiting to be returned; without a spare it
stops. -/
def Dev.beginRestart (d : Dev) (t : Nat) (spare : Option Nat) : Dev :=
  let d := d.onTask t fun x => { x with ckpt := none, waiting := none }
  match spare with
  | none => d.setTaskState t taskStopped
  | some s =>
    let (n, d) := d.returnHeld t
    let d := d.onTask t fun x => { x with inHandler := false }
    ((d.put (Fld.SPP_TASK_PROC t) s).setTaskState t taskRestarting).countBy (Adr.SPP_CNT s 4) n

/-- Tasks of a processor restart on a spare; with none in service they stop and PAIR_LOST is set (R273). -/
def Dev.restartTasks (d : Dev) (p : Nat) (ts : List Nat) : Dev :=
  if ts.isEmpty then d
  else
    let s := d.spareFor p ts
    let d := d.each ts fun d t => d.beginRestart t s
    match s with
    | some s => (d.showContexts p).showContexts s
    | none => d.putBit Fld.SPP_SPARE_PAIR_LOST true

/-- A processor stops issuing, leaves service and is retired; its tasks restart (R251, R273, R380, R381). -/
def Dev.procFault (d : Dev) (p : Nat) (flag : Field) : Dev :=
  if d.bit (Fld.SPP_STATUS_FAULT p) || d.dead 8 p then d
  else
    let ts := d.tasksOf p
    let spare := d.spareFor p ts
    let e := d.esn
    let d := ((d.putBit flag true).putBit (Fld.SPP_STATUS_FAULT p) true).event .spanEvent p 0x100 [flag.lo]
    let d := (d.putMask Fld.SPP_INSERVICE_MASK p false).putMask Fld.SPP_FAULT_MASK p true
    let d := (d.restartTasks p ts).when (!ts.isEmpty && spare.isSome) fun d => d.substitute 8 p (spare.getD 0) e
    d.retireUnit 8 p e

/-- A task alone restarts on a spare processor (R273, R281). -/
def Dev.restartAlone (d : Dev) (t : Nat) : Dev :=
  if d.taskLive t then d.restartTasks (d.taskProc t) [t] else d

/-! ## Rows -/

/-- A source of a waiting task becomes ready. -/
def execWaitWake (t : TaskId) (s : State) : Host.Outcome State Fault Refusal :=
  s.on fun d =>
    match (d.task t.val).waiting with
    | some (rd, mask) =>
      let ready := d.waitSources t.val &&& mask
      if ready = 0 || d.taskState t.val != taskWaiting then d else d.endWait t.val rd ready
    | none => d

/-- CKPT_US of issuing without a checkpoint have passed: one is taken at the instruction boundary. -/
def execAutoCheckpoint (t : TaskId) (s : State) : Host.Outcome State Fault Refusal :=
  s.on fun d =>
    d.when (d.taskLive t.val && d.taskState t.val == taskRunning && (d.task t.val).ckpt.isNone) fun d => d.startCkpt t.val

/-- A task's checkpoint is in the shared cache; during the hand-off of its processor the task then resumes on the processor
that enters (R271, R387). -/
def Dev.moveTask (d : Dev) (t out in_ : Nat) : Dev :=
  let x := d.task t
  let l := d.tcmRead out (8192 * (t % 8) + x.frame) (64 * x.frameLen)
  (((d.put (Fld.SPP_TASK_PROC t) in_).tcmWrite in_ (8192 * (t % 8) + x.frame) l).showContexts out).showContexts in_

def Dev.handingOff (d : Dev) (p : Nat) : Bool :=
  d.bit Fld.SPR_HANDOFF_BUSY && d.fld Fld.SPR_HANDOFF_CLASS == 8 && d.fld Fld.SPR_HANDOFF_OUT == p

/-- A processor faults: its copies disagree, a register or a TCM word fails. -/
def execSpanProcessorFault (p : Proc) (f : ProcFault) (s : State) : Host.Outcome State Fault Refusal :=
  s.on fun d => d.procFault p.val (match f with
    | .mismatch => Fld.SPP_STATUS_MISMATCH p.val
    | .parity => Fld.SPP_STATUS_PARITY p.val
    | .tcm => Fld.SPP_STATUS_TCM_ERR p.val)

/-- A context that neither waits nor is stopped has issued nothing for WDOG_MS. -/
def execSpanWatchdog (p : Proc) (c : Ctx) (s : State) : Host.Outcome State Fault Refusal :=
  s.on fun d =>
    match d.taskIn p.val c.val with
    | some t => d.when (d.taskState t == taskRunning) fun d => d.procFault p.val (Fld.SPP_STATUS_WATCHDOG p.val)
    | none => d

/-- A restarting task's checkpoint, frame, registers and CSRs are loaded on the spare, and it resumes. -/
def execTaskRestartDone (t : TaskId) (s : State) : Host.Outcome State Fault Refusal :=
  s.on fun d =>
    if d.taskState t.val = taskRestarting then
      let d := (d.noteVirgin (d.slotAddr t.val 0) 320).noteVirgin (d.slotAddr t.val 1) 320
      (((d.loadCkpt t.val).setTaskState t.val taskRunning).count (Adr.SPP_CNT (d.taskProc t.val) 2)).event
        .spanEvent t.val 0x101 [d.taskProc t.val]
    else d

def execSpnCntClr (p : Proc) (s : State) : Host.Outcome State Fault Refusal :=
  s.on fun d => d.clearCounters (Adr.SPP_CNT p.val)

end Sys2Proof.Machine
end

