-- ==== Sys2Proof/Machine/SpanIsa.lean ====
section
/-! DEFINITION. The Span instructions, but for those that reach memory, control space or the host (R255 to R264, R267). -/

namespace Sys2Proof.Machine

/-- The value of an immediate, sign extended. -/
def simm (imm : BitVec 16) : DWord := imm.signExtend 64

/-- The value of an immediate, zero extended. -/
def zimm (imm : BitVec 16) : DWord := imm.zeroExtend 64

/-- A result of two registers (R256). -/
def spanAluValue (op : SpanAluOp) (a b : DWord) : DWord :=
  match op with
  | .add => a + b
  | .sub => a - b
  | .and => a &&& b
  | .or => a ||| b
  | .xor => a ^^^ b
  | .sll => a <<< (b.toNat % 64)
  | .srl => a >>> (b.toNat % 64)
  | .sra => a.sshiftRight (b.toNat % 64)
  | .slt => if a.slt b then 1 else 0
  | .sltu => if a.ult b then 1 else 0
  | .mul => a * b
  | .mulhu => BitVec.ofNat 64 (a.toNat * b.toNat / 2 ^ 64)
  | .divu => if b = 0 then BitVec.allOnes 64 else a / b
  | .remu => if b = 0 then a else a % b

def shiftValue (op : ShiftOp) (a : DWord) (n : Nat) : DWord :=
  match op with
  | .sll => a <<< n
  | .srl => a >>> n
  | .sra => a.sshiftRight n

/-- An instruction whose result depends on one register. -/
def Dev.unary (d : Dev) (i : SpanIssue) (rd rs1 : SpanReg) (f : DWord → DWord) : Dev :=
  d.span1 i fun d t => d.retire t rd.val (f (d.sreg t rs1.val))

def execSpanAlu (i : SpanIssue) (op : SpanAluOp) (rd rs1 rs2 : SpanReg) (s : State) : Host.Outcome State Fault Refusal :=
  s.on fun d => d.span1 i fun d t => d.retire t rd.val (spanAluValue op (d.sreg t rs1.val) (d.sreg t rs2.val))

def execSpanAddi (i : SpanIssue) (rd rs1 : SpanReg) (imm : BitVec 16) (s : State) : Host.Outcome State Fault Refusal :=
  s.on fun d => d.unary i rd rs1 (· + simm imm)

def execSpanAndi (i : SpanIssue) (rd rs1 : SpanReg) (imm : BitVec 16) (s : State) : Host.Outcome State Fault Refusal :=
  s.on fun d => d.unary i rd rs1 (· &&& zimm imm)

def execSpanOri (i : SpanIssue) (rd rs1 : SpanReg) (imm : BitVec 16) (s : State) : Host.Outcome State Fault Refusal :=
  s.on fun d => d.unary i rd rs1 (· ||| zimm imm)

def execSpanXori (i : SpanIssue) (rd rs1 : SpanReg) (imm : BitVec 16) (s : State) : Host.Outcome State Fault Refusal :=
  s.on fun d => d.unary i rd rs1 (· ^^^ zimm imm)

def execSpanShi (i : SpanIssue) (op : ShiftOp) (sh : BitVec 6) (rd rs1 : SpanReg) (s : State) :
    Host.Outcome State Fault Refusal :=
  s.on fun d => d.unary i rd rs1 fun a => shiftValue op a sh.toNat

def execSpanLui (i : SpanIssue) (rd : SpanReg) (imm : BitVec 16) (s : State) : Host.Outcome State Fault Refusal :=
  s.on fun d => d.span1 i fun d t => d.retire t rd.val ((imm ++ (0 : BitVec 16)).signExtend 64)

def execSpanSlti (i : SpanIssue) (rd rs1 : SpanReg) (imm : BitVec 16) (s : State) : Host.Outcome State Fault Refusal :=
  s.on fun d => d.unary i rd rs1 fun a => if a.slt (simm imm) then 1 else 0

/-! ## Branches and jumps (R257) -/

/-- An address a multiple of 4 bytes from one, modulo the 64 bits of an address. -/
def pcTarget (pc : Nat) (off : Int) : Nat := codeOf 64 ((pc : Int) + 4 * off)

/-- A branch that is taken where its comparison holds. -/
def Dev.branch (d : Dev) (i : SpanIssue) (rs1 rs2 : SpanReg) (imm : BitVec 16) (cmp : DWord → DWord → Bool) : Dev :=
  d.span1 i fun d t =>
    if cmp (d.sreg t rs1.val) (d.sreg t rs2.val) then d.jump t (pcTarget (d.task t).pc imm.toInt) else d.next4 t

def execSpanBeq (i : SpanIssue) (rs1 rs2 : SpanReg) (imm : BitVec 16) (s : State) : Host.Outcome State Fault Refusal :=
  s.on fun d => d.branch i rs1 rs2 imm fun a b => a == b

def execSpanBne (i : SpanIssue) (rs1 rs2 : SpanReg) (imm : BitVec 16) (s : State) : Host.Outcome State Fault Refusal :=
  s.on fun d => d.branch i rs1 rs2 imm fun a b => a != b

def execSpanBlt (i : SpanIssue) (rs1 rs2 : SpanReg) (imm : BitVec 16) (s : State) : Host.Outcome State Fault Refusal :=
  s.on fun d => d.branch i rs1 rs2 imm fun a b => a.slt b

def execSpanBge (i : SpanIssue) (rs1 rs2 : SpanReg) (imm : BitVec 16) (s : State) : Host.Outcome State Fault Refusal :=
  s.on fun d => d.branch i rs1 rs2 imm fun a b => b.sle a

def execSpanBltu (i : SpanIssue) (rs1 rs2 : SpanReg) (imm : BitVec 16) (s : State) : Host.Outcome State Fault Refusal :=
  s.on fun d => d.branch i rs1 rs2 imm fun a b => a.ult b

def execSpanBgeu (i : SpanIssue) (rs1 rs2 : SpanReg) (imm : BitVec 16) (s : State) : Host.Outcome State Fault Refusal :=
  s.on fun d => d.branch i rs1 rs2 imm fun a b => b.ule a

/-- A jump with its return address. -/
def Dev.call (d : Dev) (t rd pc : Nat) : Dev :=
  (d.setSreg t rd (BitVec.ofNat 64 ((d.task t).pc + 4))).jump t pc

def execSpanJal (i : SpanIssue) (rd : SpanReg) (imm : BitVec 21) (s : State) : Host.Outcome State Fault Refusal :=
  s.on fun d => d.span1 i fun d t => d.call t rd.val (pcTarget (d.task t).pc imm.toInt)

def execSpanJalr (i : SpanIssue) (rd rs1 : SpanReg) (imm : BitVec 16) (s : State) : Host.Outcome State Fault Refusal :=
  s.on fun d => d.span1 i fun d t => d.call t rd.val ((d.sreg t rs1.val + simm imm).toNat / 4 * 4)

/-- Every earlier buffer store of the task is performed; in this model each is when it issues (R258). -/
def execSpanFence (i : SpanIssue) (s : State) : Host.Outcome State Fault Refusal :=
  s.on fun d => d.span1 i fun d t => d.next4 t

/-! ## System (R256, R259) -/

def execSpanCsrr (i : SpanIssue) (rd : SpanReg) (c : BitVec 8) (s : State) : Host.Outcome State Fault Refusal :=
  s.on fun d => d.span1 i fun d t =>
    if d.taskUser t && c.toNat == csrHandler then d.trap t causeDenied
    else
      let v := BitVec.ofNat 64 (d.csrValue t c.toNat)
      (d.when (csrAuth < c.toNat) (·.drew)).retire t rd.val v

def execSpanCsrw (i : SpanIssue) (rs1 : SpanReg) (c : BitVec 8) (s : State) : Host.Outcome State Fault Refusal :=
  s.on fun d => d.span1 i fun d t =>
    if d.taskUser t && c.toNat == csrHandler then d.trap t causeDenied
    else
      let v := (d.sreg t rs1.val).toNat
      (d.onTask t fun x => x.setCsr c.toNat v).next4 t

def execSpanEret (i : SpanIssue) (s : State) : Host.Outcome State Fault Refusal :=
  s.on fun d => d.span1 i fun d t => (d.onTask t fun x => { x with inHandler := false }).jump t (d.task t).epc

/-- An opcode of R256 with its unused fields 0. -/
def spanListed (w : Word) : Bool :=
  let op := fieldOf w 26 6
  let rd := fieldOf w 21 5
  let rs1 := fieldOf w 16 5
  let rs2 := fieldOf w 11 5
  let fn := fieldOf w 0 11
  if op = 0 then fn ≤ 13
  else if op ≤ 4 then true
  else if op = 5 then fieldOf w 8 8 == 0 && fieldOf w 6 2 < 3
  else if op = 6 then rs1 == 0
  else if op ≤ 0x10 then true
  else if op = 0x11 then rd != 0 && rd % 4 == 0
  else if op = 0x12 then rd % 4 == 0
  else if 0x14 ≤ op ∧ op ≤ 0x1b then true
  else if op = 0x1c then fieldOf w 0 26 == 0
  else if op = 0x1d then rs1 == 0 && fieldOf w 8 8 == 0
  else if op = 0x1e then rd == 0 && fieldOf w 8 8 == 0
  else if op = 0x1f then fieldOf w 0 26 == 0
  else if op = 0x20 ∨ op = 0x21 then rs2 == 0 && fn < 128
  else if op = 0x22 then rs2 == 0 && fn == 0
  else if op = 0x23 then rs2 == 0 && fn < 4
  else if op = 0x24 then rs1 == 0 && rs2 == 0 && fn < 8
  else if op = 0x25 then rs2 == 0 && fn == 0
  else if op = 0x26 then fn < 7
  else if op = 0x27 then fieldOf w 0 21 == 0
  else if op = 0x28 then rd == 0 && rs2 == 0 && fn == 0
  else false

/-- The ALU operations by FN (R256). -/
def spanAluOps : List SpanAluOp := [.add, .sub, .and, .or, .xor, .sll, .srl, .sra, .slt, .sltu, .mul, .mulhu, .divu, .remu]

/-- The AMO operations by FN (R267). -/
def spanAmoOps : List AmoOp := [.swap, .add, .and, .or, .maxu, .minu, .cas]

/-- The command that an instruction word gives as it issues, by the formats A, I, S and J and the columns OP, Fmt and FN; an opcode that is not
listed, a field that is not 0 though unused and the reserved kind of DISP are SPAN_ILLEGAL_OPCODE's, and a DMA word gives the row of a copy,
since its descriptor says what it does (R255, R256, R264, R267; logs 76, 119). -/
def spanCommand (i : SpanIssue) (w : Word) : Instr :=
  let r (lo : Nat) : SpanReg := Fin.ofNat 32 (fieldOf w lo 5)
  let rd := r 21
  let rs1 := r 16
  let rs2 := r 11
  let fn := fieldOf w 0 11
  let imm := w.extractLsb' 0 16
  let q : Fin 128 := Fin.ofNat 128 fn
  if !spanListed w then .spanIllegalOpcode i w
  else match fieldOf w 26 6 with
    | 0x00 => .spanAlu i (spanAluOps.getD fn .add) rd rs1 rs2
    | 0x01 => .spanAddi i rd rs1 imm
    | 0x02 => .spanAndi i rd rs1 imm
    | 0x03 => .spanOri i rd rs1 imm
    | 0x04 => .spanXori i rd rs1 imm
    | 0x05 => .spanShi i (([.sll, .srl, .sra] : List ShiftOp).getD (fieldOf w 6 2) .sll) (w.extractLsb' 0 6) rd rs1
    | 0x06 => .spanLui i rd imm
    | 0x07 => .spanSlti i rd rs1 imm
    | 0x08 => .spanLd i rd rs1 imm
    | 0x09 => .spanLwu i rd rs1 imm
    | 0x0a => .spanLw i rd rs1 imm
    | 0x0b => .spanLhu i rd rs1 imm
    | 0x0c => .spanLbu i rd rs1 imm
    | 0x0d => .spanSd i rd rs1 imm
    | 0x0e => .spanSw i rd rs1 imm
    | 0x0f => .spanSh i rd rs1 imm
    | 0x10 => .spanSb i rd rs1 imm
    | 0x11 => .spanLq i rd rs1 imm
    | 0x12 => .spanSq i rd rs1 imm
    | 0x14 => .spanBeq i rs1 rd imm
    | 0x15 => .spanBne i rs1 rd imm
    | 0x16 => .spanBlt i rs1 rd imm
    | 0x17 => .spanBge i rs1 rd imm
    | 0x18 => .spanBltu i rs1 rd imm
    | 0x19 => .spanBgeu i rs1 rd imm
    | 0x1a => .spanJal i rd (w.extractLsb' 0 21)
    | 0x1b => .spanJalr i rd rs1 imm
    | 0x1c => .spanFence i
    | 0x1d => .spanCsrr i rd (w.extractLsb' 0 8)
    | 0x1e => .spanCsrw i rs1 (w.extractLsb' 0 8)
    | 0x1f => .spanEret i
    | 0x20 => .spanPop i q rd rs1
    | 0x21 => .spanPush i q rd rs1
    | 0x22 => .dmaCopy i rd rs1
    | 0x23 => match fn with
      | 0 => .dispFrameJob i rd rs1
      | 1 => .dispStripeJob i rd rs1
      | 2 => .dispBandWrite i rd rs1
      | _ => .spanIllegalOpcode i w
    | 0x24 => .spanStamp i rd (Fin.ofNat 8 fn)
    | 0x25 => .spanWait i rd rs1
    | 0x26 => .spanAmo i (spanAmoOps.getD fn .swap) rd rs1 rs2
    | 0x27 => .spanCkpt i rd
    | 0x28 => .spanSignal i rs1
    | _ => .spanIllegalOpcode i w

/-! ## Queues (R260, R261) -/

/-- An address in the TCM space (R252). -/
def inTcm (a : DWord) : Bool := a.toNat / 2 ^ 60 == 9

/-- Queues that a user task may reach (R254). -/
def userQueue (q : Nat) : Bool := 112 ≤ q && q ≤ 126

/-- The head of the executing task's mailbox, held until its next checkpoint. -/
def Dev.mailPop (d : Dev) (t : Nat) : Option (List Byte × Dev) :=
  match d.span.held.find? fun e => e.queue == 127 && e.task == t && e.returned with
  | some _ => d.queuePop 127 t
  | none =>
    let m := d.mail t
    if m.count = 0 then none
    else
      let l := d.bufRead (d.mailAddr t m.head) 64
      let d := d.setMail t { m with head := (m.head + 1) % 32, count := m.count - 1, taken := m.taken + 1 }
      some (l, { d with span := { d.span with held := d.span.held ++ [(⟨127, t, l, false⟩ : HeldEntry)] } })

/-- POP: the head entry moves to TCM. -/
def Dev.popInstr (d : Dev) (t q rd : Nat) (a : DWord) : Dev :=
  if d.taskUser t && !(userQueue q || q == 127) then d.trap t causeDenied
  else if !inTcm a then d.trap t causeAddr
  else
    match (if q = 127 then d.mailPop t else d.queuePop q t) with
    | some (l, d) => (d.tcmWrite (d.taskProc t) a.toNat l).retire t rd 0
    | none => d.retire t rd 1

def execSpanPop (i : SpanIssue) (q : Fin 128) (rd rs1 : SpanReg) (s : State) : Host.Outcome State Fault Refusal :=
  s.on fun d => d.span1 i fun d t => d.popInstr t q.val rd.val (d.sreg t rs1.val)

/-- PUSH: 64 bytes of TCM are appended. -/
def Dev.pushInstr (d : Dev) (t q rd : Nat) (a : DWord) : Dev :=
  if q < 64 || q == 96 || q == 127 || (d.taskUser t && !userQueue q) then d.trap t causeDenied
  else if !inTcm a then d.trap t causeAddr
  else
    let l := d.tcmRead (d.taskProc t) a.toNat 64
    d.effect t effPush rd (q :: l.map (·.toNat)) fun d => if d.queueFull q then (2, d) else (0, d.queuePush q l)

def execSpanPush (i : SpanIssue) (q : Fin 128) (rd rs1 : SpanReg) (s : State) : Host.Outcome State Fault Refusal :=
  s.on fun d => d.span1 i fun d t => d.pushInstr t q.val rd.val (d.sreg t rs1.val)

/-! ## Dispatch and stamps (R264) -/

/-- A dispatch of the 32-byte descriptor at a TCM address; a user task is refused, and the command that an accepted one serves has started
(R264, R347). -/
def Dev.dispInstr (d : Dev) (t k rd : Nat) (a : DWord) (run : Dev → List Byte → Nat × Dev) : Dev :=
  if !inTcm a then d.trap t causeAddr
  else if a.toNat % 32 ≠ 0 then d.trap t causeAlign
  else
    let l := d.tcmRead (d.taskProc t) a.toNat 32
    let r (d : Dev) : Nat × Dev :=
      if d.taskUser t then (refuse reasonDenied, d)
      else
        let x := run d l
        (x.1, x.2.when (x.1 < 2 ^ 63) fun d => d.markStarted (BitVec.ofNat 48 (fieldAt l 0 6)))
    d.effect t effDisp rd (k :: l.map (·.toNat)) fun d => (BitVec.ofNat 64 (r d).1, (r d).2)

/-- A word that is no instruction of R256 raises ILLEGAL (R255); DISP of the reserved kind 3 answers BAD_DESC (R264); a
word that another row lists is that row's (log 119). -/
def execSpanIllegalOpcode (i : SpanIssue) (w : Word) (s : State) : Host.Outcome State Fault Refusal :=
  s.on fun d =>
    if !spanListed w then d.span1 i fun d t => d.trap t causeIllegal
    else
      let x := w.toNat
      d.when (x / 2 ^ 26 == 0x23 && x % 2048 == 3) fun d => d.span1 i fun d t =>
        d.dispInstr t 3 (x / 2 ^ 21 % 32) (d.sreg t (x / 2 ^ 16 % 32)) fun d _ => (refuse reasonBadDesc, d)

def execDispFrameJob (i : SpanIssue) (rd rs1 : SpanReg) (s : State) : Host.Outcome State Fault Refusal :=
  s.on fun d => d.span1 i fun d t => d.dispInstr t 0 rd.val (d.sreg t rs1.val) fun d l => d.dispFrame l

def execDispStripeJob (i : SpanIssue) (rd rs1 : SpanReg) (s : State) : Host.Outcome State Fault Refusal :=
  s.on fun d => d.span1 i fun d t => d.dispInstr t 1 rd.val (d.sreg t rs1.val) fun d l => d.dispStripe t l

def execDispBandWrite (i : SpanIssue) (rd rs1 : SpanReg) (s : State) : Host.Outcome State Fault Refusal :=
  s.on fun d => d.span1 i fun d t => d.dispInstr t 2 rd.val (d.sreg t rs1.val) fun d l => d.dispBand t l

/-- A new ESN, requested at the priority of a class; a user task's at that of class 6 (R254, R264). -/
def execSpanStamp (i : SpanIssue) (rd : SpanReg) (c : Fin 8) (s : State) : Host.Outcome State Fault Refusal :=
  s.on fun d => d.span1 i fun d t =>
    d.effect t effStamp rd.val [c.val] fun d =>
      (d.esn.zeroExtend 64, d.event .stamp t (if d.taskUser t then 6 else c.val) [])

/-! ## Waiting and signals (R263) -/

def execSpanWait (i : SpanIssue) (rd rs1 : SpanReg) (s : State) : Host.Outcome State Fault Refusal :=
  s.on fun d => d.span1 i fun d t =>
    if d.sreg t rs1.val = 0 then d.trap t causeIllegal else d.startWait t rd.val (d.sreg t rs1.val).toNat

/-- The SIGNAL source of a task is set; a number beyond 95 names no task. -/
def execSpanSignal (i : SpanIssue) (rs1 : SpanReg) (s : State) : Host.Outcome State Fault Refusal :=
  s.on fun d => d.span1 i fun d t =>
    let u := (d.sreg t rs1.val).toNat % 128
    if d.taskUser t && !(u < 96 && d.taskUser u) then d.trap t causeDenied
    else
      d.effect t effSignal 0 [u] fun d => (0, d.when (u < 96) fun d => d.onTask u fun x => { x with signal := true })

/-- A checkpoint of the state after the instruction; rd holds its generation. -/
def execSpanCkpt (i : SpanIssue) (rd : SpanReg) (s : State) : Host.Outcome State Fault Refusal :=
  s.on fun d => d.span1 i fun d t => (d.retire t rd.val (BitVec.ofNat 64 (d.nextGen t))).startCkpt t

/-! ## Atomics (R252, R254, R267) -/

/-- The fault of a buffer access of n bytes: beyond the fitted memory, outside a user task's window, or unaligned. -/
def Dev.bufFault (d : Dev) (t : Nat) (a : DWord) (n : Nat) : Option Nat :=
  let x := a.toNat
  let page := x / pageBytes
  let base := d.fld Fld.SPP_USER_WIN_BASE_VALUE
  if d.fld Fld.MEM_SIZE_PAGES * pageBytes < x + n then some causeAddr
  else if d.taskUser t && !(base ≤ page && (x + n - 1) / pageBytes < base + d.fld Fld.SPP_USER_WIN_PAGES_VALUE) then
    some causeDenied
  else if x % n ≠ 0 then some causeAlign
  else none

/-- The word after an atomic operation. -/
def amoValue (op : AmoOp) (old b rd : DWord) : DWord :=
  match op with
  | .swap => b
  | .add => old + b
  | .and => old &&& b
  | .or => old ||| b
  | .maxu => if old.ult b then b else old
  | .minu => if b.ult old then b else old
  | .cas => if old = rd then b else old

/-- Number of an atomic operation, its FN. -/
def amoCode : AmoOp → Nat
  | .swap => 0 | .add => 1 | .and => 2 | .or => 3 | .maxu => 4 | .minu => 5 | .cas => 6

/-! ## The Arc event stream (R205, R260) -/

/-- The oldest record of a pair's FIFO moves to the servo event stream while that has room; a loss is then reported. -/
def execArcEventDrain (p : ArcPair) (s : State) : Host.Outcome State Fault Refusal :=
  s.on fun d =>
    let q := d.arcPair p.val
    if d.queueFull servoQueue then d
    else
      match q.fifo with
      | [] => d
      | r :: rest =>
        let d := d.onPair p.val fun q => { q with fifo := rest }
        let d := d.queuePush servoQueue (servoRecord r.esn (p.val + 16 * r.lead) r.code r.value)
        d.when (d.arcPair p.val).lost fun d => (d.onPair p.val fun q => { q with lost := false }).arcRecord p.val 0x5f7 0

end Sys2Proof.Machine
end

