-- ==== Sys2Proof/Machine/HostQ.lean ====
section
/-! DEFINITION. Host queues: doorbells, fetching, receipt and its checks, completions, chain lists, and the DMA of the Span
processors (R264 to R266, R311 to R325, R347). -/

namespace Sys2Proof.Machine

/-! ## Statuses and reasons (R323) -/

def stDone : Nat := 0x0000
def stAborted : Nat := 0x0101
def stReset : Nat := 0x0102
def stMissed : Nat := 0x0103
def stUnrecovered : Nat := 0x0201
def stInvalidField : Nat := 0x0301
def stInvalidOpcode : Nat := 0x0302
def stNoMedium : Nat := 0x0401
def stNotReady : Nat := 0x0402
def stDenied : Nat := 0x0501
def stBusyUpdate : Nat := 0x0601

def rsRange : Nat := 1
def rsReserved : Nat := 2
def rsDupTag : Nat := 3
def rsChain : Nat := 4
def rsHostMemory : Nat := 5
def rsState : Nat := 6
def rsNotSupported : Nat := 7

/-- INVALID_FIELD: the entry offset of the field and the reason. -/
def badField (off reason : Nat) : HostStatus := ⟨stInvalidField, off + 256 * reason, 0⟩

def doneWith (r0 : Nat) : HostStatus := ⟨stDone, r0, 0⟩

/-! ## Pairs (R313, R314) -/

def Dev.onHost (d : Dev) (f : HostSt → HostSt) : Dev := { d with host := f d.host }

def Dev.pairOn (d : Dev) (q : Nat) : Bool := d.bit (Fld.HQ_QP_CFG_EN q)

/-- Entries of a pair's rings. -/
def Dev.sqSize (d : Dev) (q : Nat) : Nat := 2 ^ d.fld (Fld.HQ_QP_CFG_SQ_LOG2 q)
def Dev.cqSize (d : Dev) (q : Nat) : Nat := 2 ^ d.fld (Fld.HQ_QP_CFG_CQ_LOG2 q)

def Dev.sqTail (d : Dev) (q : Nat) : Nat := Tab.get (fun _ => 0) d.host.sqTail q
def Dev.cqHead (d : Dev) (q : Nat) : Nat := Tab.get (fun _ => 0) d.host.cqHead q

def Dev.setSqTail (d : Dev) (q v : Nat) : Dev := d.onHost fun h => { h with sqTail := Tab.set (fun _ => 0) h.sqTail q v }
def Dev.setCqHead (d : Dev) (q v : Nat) : Dev := d.onHost fun h => { h with cqHead := Tab.set (fun _ => 0) h.cqHead q v }

def Dev.sqBase (d : Dev) (q : Nat) : Nat :=
  (d.reg (Adr.HQ_QP_SQ_BASE_LO q)).toNat / 4096 * 4096 + 2 ^ 32 * (d.reg (Adr.HQ_QP_SQ_BASE_HI q)).toNat

def Dev.cqBase (d : Dev) (q : Nat) : Nat :=
  (d.reg (Adr.HQ_QP_CQ_BASE_LO q)).toNat / 4096 * 4096 + 2 ^ 32 * (d.reg (Adr.HQ_QP_CQ_BASE_HI q)).toNat

/-- Commands of a pair in flight. -/
def Dev.pairBusy (d : Dev) (q : Nat) : Bool := d.host.cmds.any fun c => c.qp == q

/-- HQ_INFLIGHT and BUSY show the commands in flight. -/
def Dev.showInflight (d : Dev) (q : Nat) : Dev :=
  (d.put Fld.HQ_INFLIGHT_COUNT d.host.cmds.length).putBit (Fld.HQ_QP_STATUS_BUSY q) (d.pairBusy q)

/-- The first page of the intake ring of a pair: the host attachment's choice, which the spec leaves open, is an area of the buffer in
which every pair has the 16 pages of the greatest ring (R260, R284; log 169). -/
def Dev.intakePage (d : Dev) (q : Nat) : Nat := Config.freeOf 13 0 % (d.fld Fld.MEM_SIZE_PAGES - 1023) + 16 * q

/-- The intake queue of a pair is laid out with its entries, or disabled. -/
def Dev.setIntake (d : Dev) (q log2 : Nat) : Dev :=
  let d := d.when (log2 != 0) fun d => d.put (Fld.SPP_Q_BASE_BASE q) (d.intakePage q)
  ((d.put (Fld.SPP_Q_LOG2_LOG2 q) log2).setReg (Adr.SPP_Q_PTR q) 0).put (Fld.SPP_Q_HELD_HELD q) 0

/-- A pair is enabled where the fields are valid; the write of its configuration gives WEIGHT and the sizes. -/
def Dev.qpEnable (d : Dev) (q : Nat) (v : Word) : Dev :=
  let sq := fieldOf v 0 4
  let cq := fieldOf v 8 4
  if d.pairOn q then d.put (Fld.HQ_QP_CFG_WEIGHT q) (fieldOf v 16 4)
  else if d.bit Fld.HQ_CTRL_ENABLE && 4 ≤ sq && sq ≤ 10 && cq ≤ 10 && sq ≤ cq then
    let d := (d.put (Fld.HQ_QP_CFG_WEIGHT q) (fieldOf v 16 4)).put (Fld.HQ_QP_CFG_SQ_LOG2 q) sq
    let d := ((d.put (Fld.HQ_QP_CFG_CQ_LOG2 q) cq).putBit (Fld.HQ_QP_CFG_EN q) true).put (Fld.HQ_QP_CFG_ROLE q) roleOperator
    let d := (d.setReg (Adr.HQ_QP_STATUS q) (BitVec.ofNat 32 (2 ^ 29))).setIntake q sq
    let d := (d.setSqTail q 0).setCqHead q 0
    d.onHost fun h => { h with unsignalled := Tab.set (fun _ => 0) h.unsignalled q 0 }
  else d.putBit Fld.HQ_STATUS_QP_REFUSED true

/-- The staging lock is released and the staged image discarded (R418). -/
def Dev.releaseStaging (d : Dev) (result : Nat) : Dev :=
  let d := (((d.putBit Fld.UPD_STATUS_LOCKED false).put Fld.UPD_STATUS_HOLDER 0).put Fld.UPD_STATUS_HOLDER_QP 0).putBit
    Fld.UPD_STATUS_VERIFIED false
  let d := d.when (result != 0) fun d => d.put Fld.UPD_STATUS_RESULT result
  { d with upd := { d.upd with stage := [], length := none, verifying := false, image := none } }

/-- The grant of a holder ends, and it returns to operator (R396). -/
def Dev.endGrant (d : Dev) (h : RoleHolder) : Dev := (d.setGrantEnd h 0).setRole h roleOperator

/-- What a pair holds ends with it: its role and the staging lock (R396, R418). -/
def Dev.pairEnds (d : Dev) (q : QPair) : Dev :=
  let d := d.endGrant (.pair q)
  d.when (d.bit Fld.UPD_STATUS_LOCKED && d.fld Fld.UPD_STATUS_HOLDER == 1 && d.fld Fld.UPD_STATUS_HOLDER_QP == q.val)
    fun d => d.releaseStaging 0xa

/-- A write of EN = 0: it takes effect only with no command in flight; the sizes take it only where the pair was off. -/
def Dev.qpDisable (d : Dev) (q : QPair) (v : Word) : Dev :=
  if d.pairBusy q.val then d.putBit Fld.HQ_STATUS_QP_REFUSED true
  else
    let was := d.pairOn q.val
    let d := (d.putBit (Fld.HQ_QP_CFG_EN q.val) false).put (Fld.HQ_QP_CFG_WEIGHT q.val) (fieldOf v 16 4)
    let d := d.when (!was) fun d => (d.put (Fld.HQ_QP_CFG_SQ_LOG2 q.val) (fieldOf v 0 4)).put (Fld.HQ_QP_CFG_CQ_LOG2 q.val)
      (fieldOf v 8 4)
    d.when was fun d => (d.setIntake q.val 0).pairEnds q

def execQpEnable (q : QPair) (v : Word) (s : State) : Host.Outcome State Fault Refusal :=
  s.on fun d => d.qpEnable q.val v

def execQpDisable (q : QPair) (v : Word) (s : State) : Host.Outcome State Fault Refusal :=
  s.on fun d => d.qpDisable q v

/-- A doorbell write is discarded. -/
def Dev.badDoorbell (d : Dev) : Dev := (d.putBit Fld.HQ_STATUS_DB_ERR true).count (Adr.HQ_CNT 6)

/-- What the host has stored in its memory before it rings (log 43). -/
def Dev.hostPlaces (d : Dev) (l : List HostStore) : Dev := d.each l fun d e => d.hostWrite e.addr.toNat e.bytes

def Dev.sqDoorbell (d : Dev) (q : Nat) (v : Word) : Dev :=
  if !d.pairOn q || d.sqSize q ≤ v.toNat then d.badDoorbell else d.setSqTail q v.toNat

def execSqTailDoorbell (q : QPair) (v : Word) (placed : List HostStore) (s : State) : Host.Outcome State Fault Refusal :=
  s.on fun d => (d.hostPlaces placed).sqDoorbell q.val v

/-! ## The end of a DMA (R262, R265, R266) -/

/-- The 4 KiB units of a transfer from a buffer address that carry a poison mark. -/
def Dev.poisonUnits (d : Dev) (a len : Nat) : List Nat :=
  (List.range (ceilDiv len 4096)).filter fun u => d.anyPoison (a + 4096 * u) (min 4096 (len - 4096 * u))

/-- Bit mask of the units 64w to 64w + 63 among a list. -/
def unitMask (us : List Nat) (w : Nat) : Nat := ((us.filter fun u => u / 64 == w).map fun u => 2 ^ (u % 64)).foldl (· + ·) 0

/-- Windows beyond the first that hold a marked unit. -/
def poisonWindows (us : List Nat) : List Nat := ((us.filter (64 ≤ ·)).map (· / 64)).eraseDups

/-- A poison report (R266). -/
def poisonReport (op : DmaOp) (us : List Nat) (w : Nat) : List Byte :=
  [4, 0] ++ leBytes 2 op.tag ++ leBytes 2 w ++ [0, 0] ++ leBytes 6 op.esn.toNat ++ leBytes 6 op.rcpt.toNat ++ zeroBytes 4
    ++ leBytes 8 (unitMask us w)

/-- The completion record of a DMA (R265). -/
def dmaRecord (op : DmaOp) (status moved : Nat) (us : List Nat) : List Byte :=
  [1] ++ leBytes 1 status ++ leBytes 2 op.tag ++ leBytes 4 moved ++ leBytes 6 op.esn.toNat ++ leBytes 6 op.rcpt.toNat
    ++ leBytes 2 (min 65535 us.length) ++ leBytes 2 (poisonWindows us).length ++ leBytes 8 (unitMask us 0)

/-- A DMA ends: its poison reports and its record are posted, and with the last of them it leaves flight (R262, R266). -/
def Dev.dmaFinish (d : Dev) (op : DmaOp) (status moved : Nat) (us : List Nat) : Dev :=
  let mark (l : List DmaOp) : List DmaOp :=
    l.map fun x => if x.task = op.task ∧ x.tag = op.tag then { x with ended := true } else x
  let d := { d with span := { d.span with dmas := mark d.span.dmas } }
  let ws := poisonWindows us
  let d := d.each ws fun d w => d.postMail op.task (poisonReport op us w)
  if op.notify then d.postMailWith op.task (dmaRecord op status moved us) (.dma op.tag)
  else
    let m := d.mail op.task
    if ws.isEmpty || m.held.isEmpty then d.dmaLeaves op.task op.tag
    else d.setMail op.task { m with held := m.held ++ [(⟨[], .dma op.tag⟩ : HeldMail)] }

/-! ## Completions (R319 to R321) -/

/-- Entries of a completion queue that the host has not released. -/
def Dev.cqUsed (d : Dev) (q : Nat) : Nat :=
  (d.fld (Fld.HQ_QP_STATUS_CQ_TAIL q) + d.cqSize q - d.cqHead q) % d.cqSize q

def Dev.cqFull (d : Dev) (q : Nat) : Bool := d.cqUsed q + 1 == d.cqSize q

/-- The 32 bytes of a completion entry. -/
def Dev.cplEntry (d : Dev) (c : HeldCpl) (e : Esn) : List Byte :=
  let phase := d.fld (Fld.HQ_QP_STATUS_PHASE c.qp)
  leBytes 2 c.tag ++ leBytes 2 c.verdict.status ++ leBytes 6 e.toNat ++ leBytes 2 (d.fld (Fld.HQ_QP_STATUS_SQ_HEAD c.qp))
    ++ leBytes 1 c.qp ++ leBytes 1 (phase + (if c.dup then 2 else 0)) ++ leBytes 2 c.verdict.result1
    ++ leBytes 8 c.verdict.result0 ++ leBytes 6 c.rcpt.toNat ++ [0, 0]

/-- The vector of a queue is raised and nothing waits unsignalled any more. -/
def Dev.signalQueue (d : Dev) (q : Nat) : Dev :=
  (d.onHost fun h => { h with unsignalled := Tab.set (fun _ => 0) h.unsignalled q 0 }).raise q

/-- The entry of a CPL is written, with the ESN that is that of the DMA (R265). -/
def Dev.cplWritten (d : Dev) (c : HeldCpl) (e : Esn) : Dev :=
  match c.dma with
  | none => d
  | some x =>
    match d.span.dmas.find? fun y => y.task == x.1 && y.tag == x.2 with
    | some op => d.dmaFinish { op with esn := e } 0 32 []
    | none => d

/-- The completions of a list are dropped: a CPL that waits to write one ends ABORTED, its ESN open (R265; log 170). -/
def Dev.dropCpls (d : Dev) (l : List HeldCpl) : Dev :=
  d.each l fun d c =>
    match c.dma.bind fun x => d.span.dmas.find? fun y => y.task == x.1 && y.tag == x.2 with
    | some op => d.drew.dmaFinish { op with esn := BitVec.ofNat 48 (d.freeBits 48) } 2 0 []
    | none => d

/-- An entry is written with its class 5 ESN and the queue's phase, and signalled under coalescing. -/
def Dev.writeCpl (d : Dev) (c : HeldCpl) : Dev :=
  let q := c.qp
  let e := d.esn
  let tail := d.fld (Fld.HQ_QP_STATUS_CQ_TAIL q)
  let d := (d.eventFor c.rcpt .completion q c.verdict.status [c.tag]).hostWrite (d.cqBase q + 32 * tail) (d.cplEntry c e)
  let d := d.put (Fld.HQ_QP_STATUS_CQ_TAIL q) ((tail + 1) % d.cqSize q)
  let d := d.when (tail + 1 = d.cqSize q) fun d => d.put (Fld.HQ_QP_STATUS_PHASE q) (1 - d.fld (Fld.HQ_QP_STATUS_PHASE q))
  let d := d.onHost fun h => { h with cmds := h.cmds.filter fun x => !(x.qp == q && x.rcpt == c.rcpt) }
  let d := (d.showInflight q).count (Adr.HQ_CNT (if c.verdict.status = stDone then 1 else 2))
  let n := Tab.get (fun _ => 0) d.host.unsignalled q + 1
  let d := d.onHost fun h => { h with unsignalled := Tab.set (fun _ => 0) h.unsignalled q n }
  (d.when (d.fld (Fld.HQ_QP_COAL_COAL_N q) ≤ n) fun d => d.signalQueue q).cplWritten c e

/-- A completion is written, or held while its queue is full; one more of the same queue waits behind those held. -/
def Dev.postCpl (d : Dev) (c : HeldCpl) : Dev :=
  if d.cqFull c.qp || d.host.held.any fun x => x.qp == c.qp then
    ((d.onHost fun h => { h with held := h.held ++ [c] }).putBit (Fld.HQ_QP_STATUS_CQ_FULL c.qp) true).count (Adr.HQ_CNT 7)
  else d.writeCpl c

/-- Held completions of a queue are written in order as space frees. -/
def Dev.flushHeld (d : Dev) (q : Nat) : Dev :=
  let mine := d.host.held.filter fun c => c.qp == q
  let d := d.each mine fun d c =>
    if d.cqFull q then d
    else (d.onHost fun h => { h with held := h.held.erase c }).writeCpl c
  d.putBit (Fld.HQ_QP_STATUS_CQ_FULL q) (d.host.held.any fun c => c.qp == q)

/-- A command completes with a status. -/
def Dev.finish (d : Dev) (c : HostCmd) (v : HostStatus) : Dev := d.postCpl ⟨c.qp, c.tag, v, false, c.rcpt, none⟩

def Dev.cqDoorbell (d : Dev) (q : Nat) (v : Word) : Dev :=
  if !d.pairOn q || d.cqSize q ≤ v.toNat then d.badDoorbell
  else if d.cqUsed q < (v.toNat + d.cqSize q - d.cqHead q) % d.cqSize q then d.badDoorbell
  else (d.setCqHead q v.toNat).flushHeld q

def execCqHeadDoorbell (q : QPair) (v : Word) (s : State) : Host.Outcome State Fault Refusal :=
  s.on fun d => d.cqDoorbell q.val v

/-- COAL_US pass since the first unsignalled entry. -/
def execCoalesceTimeout (q : QPair) (s : State) : Host.Outcome State Fault Refusal :=
  s.on fun d =>
    d.when (d.fld (Fld.HQ_QP_COAL_COAL_US q.val) != 0 && Tab.get (fun _ => 0) d.host.unsignalled q.val != 0) fun d =>
      d.signalQueue q.val

/-! ## Entries and their checks (R317, R324 to R326) -/

def entOpcode (l : List Byte) : Nat := fieldAt l 0 1
def entFlags (l : List Byte) : Nat := fieldAt l 1 1
def entTag (l : List Byte) : Nat := fieldAt l 2 2
def entNsid (l : List Byte) : Nat := fieldAt l 4 4
def entLba (l : List Byte) : Nat := fieldAt l 8 8
def entNlb (l : List Byte) : Nat := fieldAt l 16 4
def entChain (l : List Byte) : Nat := fieldAt l 24 8
/-- n ARGS bytes from ARGS k. -/
def entArg (l : List Byte) (k n : Nat) : Nat := fieldAt l (32 + k) n

/-- The bytes of an entry that its OPCODE uses beside OPCODE, FLAGS and TAG (R325). -/
def usedBytes (op : Nat) : List (Nat × Nat) :=
  let nsid := (4, 4)
  let lba := (8, 8)
  let nlb := (16, 4)
  let chain := (24, 8)
  if op = 1 ∨ op = 2 then [nsid, lba, nlb, chain]
  else if op = 3 ∨ op = 7 then [nsid]
  else if op = 4 then [(32, 4)]
  else if op = 5 ∨ op = 8 then [(32, 1)]
  else if op = 6 then [nsid, nlb, chain, (32, 1)]
  else if op = 9 then [nlb, chain, (32, 16)]
  else if op = 0xa then [nlb, chain, (32, 1), (36, 4)]
  else if op = 0xb then [(32, 2), (40, 8)]
  else if op = 0xc then [nlb, chain, (32, 1)]
  else []

/-- The first byte that is unused and not 0. -/
def reservedByte (l : List Byte) : Option Nat :=
  let op := entOpcode l
  let flagOk (b : Nat) : Bool := if op = 1 ∨ op = 2 then b < 2 else b == 0
  if !flagOk (entFlags l) then some 1
  else (List.range 60).map (· + 4) |>.find? fun i =>
    fieldAt l i 1 != 0 && !(usedBytes op).any fun r => r.1 ≤ i && i < r.1 + r.2

/-- The role that a command needs (R325, R345, R399). -/
def roleNeeded (l : List Byte) : Nat :=
  let op := entOpcode l
  let a := entArg l 0 1
  if op = 6 ∨ op = 7 ∨ op = 9 then roleInstaller
  else if op = 0xb then (if 2 ≤ a ∧ a ≤ 6 then roleInstaller else roleOperator)
  else if op = 0xc then (if a = 4 ∨ a = 5 ∨ a = 7 ∨ a = 8 then roleInstaller else roleOperator)
  else roleOperator

/-- The extents of a namespace. -/
def Dev.extents (d : Dev) (ns : Nat) : List NsExtent := d.host.ns.filter fun e => e.nsid == ns

/-- A namespace that commands may name: it exists, and no NS_DELETE of it is in flight (R338). -/
def Dev.nsLive (d : Dev) (ns : Nat) : Bool :=
  !(d.extents ns).isEmpty &&
    !d.host.cmds.any fun c => entOpcode c.entry == 7 && entNsid c.entry == ns && c.verdict.isNone

/-- A namespace may not be created: its NSID is in use, or 256 namespaces exist (R335). -/
def Dev.nsidTaken (d : Dev) (ns : Nat) : Bool :=
  !(d.extents ns).isEmpty || decide (256 ≤ ((d.host.ns.map (·.nsid)).eraseDups).length)

/-- Capacity of a namespace in blocks. -/
def Dev.nsCapacity (d : Dev) (ns : Nat) : Nat := 24 * ((d.extents ns).map (·.count)).foldl (· + ·) 0

/-- The extent and logical stripe of namespace stripe k, from the extent of INDEX i on: extents in order, the stripes of a pair alternating; none
past an index whose extent no record loaded gives (R56, R59). -/
def walkFrom : Nat → List NsExtent → Nat → Option (NsExtent × Nat)
  | _, [], _ => none
  | i, [e], k => if e.index = i ∧ !e.pairFirst ∧ k < e.count then some (e, e.first + k) else none
  | i, a :: b :: es, k =>
    if a.index ≠ i then none
    else if a.pairFirst then
      if b.index ≠ i + 1 then none
      else if k < a.count + b.count then some (if k % 2 = 0 then (a, a.first + k / 2) else (b, b.first + k / 2))
      else walkFrom (i + 2) es (k - (a.count + b.count))
    else if k < a.count then some (a, a.first + k) else walkFrom (i + 1) (b :: es) (k - a.count)

/-- The extent and logical stripe of namespace stripe k (R59). -/
def walkExtents (es : List NsExtent) (k : Nat) : Option (NsExtent × Nat) := walkFrom 0 es k

/-- The loaded records do not give all the extents of a namespace up to its last: an index is missing, or the second of a pair (R56, R59). -/
def Dev.nsGap (d : Dev) (ns : Nat) : Bool :=
  let es := d.extents ns
  es.map (·.index) != List.range es.length || es.getLast?.any (·.pairFirst)

/-- The namespace stripes of n blocks from lba. -/
def nsStripes (lba n : Nat) : List Nat := (List.range ((lba + n - 1) / 24 + 1 - lba / 24)).map fun i => lba / 24 + i

/-- A pair of Arc engines that could not be filled holds no program (R486). -/
def Dev.pairUnfilled (d : Dev) (p : Nat) : Bool := decide ((d.pairEngines p).length < 2)

/-- No disc serves a side: none is loaded, a hardware trip stands (R446), the medium is withdrawn from service, or a pair that the side needs holds no
program. -/
def Dev.noMedium (d : Dev) (side : Nat) : Bool :=
  !d.medium.present || d.bit Fld.MON_THERM_TRIP || d.mot.spn.noMedium || d.pairUnfilled 2 || d.pairUnfilled side

/-- No disc serves a side that extents lie on; a command that names none needs side 0. -/
def Dev.noDiscFor (d : Dev) (es : List NsExtent) : Bool := (d.noMedium 0 && es.isEmpty) || es.any fun e => d.noMedium e.side

/-- The first side and layer without a valid record: where the records loaded leave extents of a namespace out, those lie on such a layer (R56). -/
def Dev.missingLayer (d : Dev) : Nat := ((List.range 16).find? fun k => !(d.layer (k % 2) (k / 2)).valid).getD 0

/-- Side and layer of the first extent of a list whose layer has no valid record (R56). -/
def Dev.unready (d : Dev) (es : List NsExtent) : Option Nat :=
  (es.find? fun e => !(d.layer e.side e.layer).valid).map fun e => 2 * e.layer + e.side

/-- Another source holds the staging lock. -/
def Dev.stagingBusy (d : Dev) (q : Nat) : Bool :=
  d.bit Fld.UPD_STATUS_LOCKED && !(d.fld Fld.UPD_STATUS_HOLDER == 1 && d.fld Fld.UPD_STATUS_HOLDER_QP == q)

/-- The data page of a command of one page. -/
def onePage (l : List Byte) : Option HostStatus :=
  if entNlb l ≠ 1 then some (badField 16 rsRange) else if entChain l % 16 ≠ 0 then some (badField 24 rsChain) else none

/-- The value check of a feature (R345, R351, R391). -/
def featureOk (l : List Byte) : Option HostStatus :=
  let a := entArg l 0 1
  let v := entArg l 8 8
  let bad : Option HostStatus := some (badField 40 rsRange)
  if a = 0 ∨ 7 < a then some (badField 32 rsRange)
  else if 1 < entArg l 1 1 then some (badField 33 rsReserved)
  else if entArg l 1 1 = 1 then
    (if a = 4 ∧ (v % 256 = 0 ∨ 15 < v % 256) then bad else none)
  else if a = 2 then (if 900 ≤ v ∧ v ≤ 3600 then none else bad)
  else if a = 3 ∨ a = 5 then (if v ≤ 1 then none else bad)
  else if a = 4 then (if 1 ≤ v % 256 ∧ v % 256 ≤ 15 ∧ v < 2 ^ 24 then none else bad)
  else if a = 6 then (if v = 0 ∨ v = 1 ∨ v = 2 then none else bad)
  else if a = 7 then (if v ≤ 64 then none else bad)
  else none

/-- Step 4 of R324: the fields of a command, and the state it needs. -/
def Dev.checkFields (d : Dev) (l : List Byte) : Option HostStatus :=
  let op := entOpcode l
  match reservedByte l with
  | some i => some (badField i rsReserved)
  | none =>
    if op = 1 ∨ op = 2 then
      if !d.nsLive (entNsid l) then some (badField 4 rsRange)
      else if entNlb l = 0 ∨ 65536 < entNlb l then some (badField 16 rsRange)
      else if d.nsCapacity (entNsid l) < entLba l + entNlb l ∧ !d.nsGap (entNsid l) then some (badField 8 rsRange)
      else if entChain l % 16 ≠ 0 then some (badField 24 rsChain)
      else none
    else if op = 3 then
      (if entNsid l = 0xffffffff ∨ d.nsLive (entNsid l) then none else some (badField 4 rsRange))
    else if op = 4 then (if 63 < entArg l 0 2 then some (badField 32 rsRange) else none)
    else if op = 5 then
      let a := entArg l 0 1
      if a = 1 ∨ a = 2 then (if d.host.test.running then some (badField 32 rsState) else none)
      else if a = 0xf then none else some (badField 32 rsRange)
    else if op = 6 then
      if entNsid l = 0 ∨ entNsid l = 0xffffffff ∨ d.nsidTaken (entNsid l) then some (badField 4 rsRange)
      else if entArg l 0 1 = 0 ∨ 64 < entArg l 0 1 then some (badField 32 rsRange)
      else onePage l
    else if op = 7 then (if !d.nsLive (entNsid l) then some (badField 4 rsRange) else none)
    else if op = 8 then (if 4 < entArg l 0 1 then some (badField 32 rsRange) else none)
    else if op = 9 then
      let len := entArg l 4 4
      let off := entArg l 8 4
      if entChain l % 16 ≠ 0 then some (badField 24 rsChain)
      else if entArg l 0 1 = 1 then
        if 3 < entArg l 1 1 then some (badField 33 rsReserved)
        else if entArg l 2 1 < 88 ∨ 95 < entArg l 2 1 then some (badField 34 rsRange)
        else if entArg l 3 1 ≠ 0 then some (badField 35 rsReserved)
        else if len = 0 ∨ len % 4 ≠ 0 ∨ entNlb l ≠ ceilDiv len 4096 then some (badField 36 rsRange)
        else if off < 0xc0000 ∨ off % 4 ≠ 0 ∨ 0x100000 < off + len then some (badField 40 rsRange)
        else if entArg l 12 4 < off ∨ off + len ≤ entArg l 12 4 ∨ entArg l 12 4 % 4 ≠ 0 then some (badField 44 rsRange)
        else none
      else if entArg l 0 1 = 2 then
        if 1 < entArg l 1 1 then some (badField 33 rsReserved)
        else if entArg l 2 2 ≠ 0 then some (badField 34 rsReserved)
        else if len = 0 ∨ len % 4 ≠ 0 ∨ entNlb l ≠ ceilDiv len 4096 then some (badField 36 rsRange)
        else if off % 4096 ≠ 0 ∨ 24 * 2 ^ 20 < off + len then some (badField 40 rsRange)
        else if entArg l 12 4 ≠ 0 then some (badField 44 rsReserved)
        else if d.bit Fld.UPD_STATUS_TRIAL then some (badField 32 rsState)
        else none
      else some (badField 32 rsRange)
    else if op = 0xa then
      if entArg l 0 1 = 0 ∨ 7 < entArg l 0 1 then some (badField 32 rsRange)
      else if entNlb l = 0 ∨ 65536 < entNlb l then some (badField 16 rsRange)
      else if entChain l % 16 ≠ 0 then some (badField 24 rsChain)
      else none
    else if op = 0xb then
      if entArg l 0 1 = 4 ∧ entArg l 1 1 = 0 ∧ d.units? (entArg l 8 1) < entArg l 9 2 then some (badField 40 rsRange)
      else featureOk l
    else
      if entArg l 0 1 = 0 ∨ 8 < entArg l 0 1 then some (badField 32 rsRange) else onePage l

/-- Under HOLD with a full log, a command that needs a record of its own is refused (R409). -/
def Dev.heldByAudit (d : Dev) (l : List Byte) : Bool :=
  let op := entOpcode l
  d.auditHeld && !(op ≤ 4 || op == 0xa || (op == 0xc && entArg l 0 1 ≤ 3))

/-- An entry of a medium command (R339). -/
def mediumEntry (l : List Byte) : Bool :=
  let op := entOpcode l
  op == 1 || op == 2 || op == 6 || op == 7 || (op == 5 && entArg l 0 1 == 2)

/-- The checks of R324 behind the duplicate tag. -/
def Dev.checkEntry (d : Dev) (q role : Nat) (l : List Byte) : Option HostStatus :=
  let op := entOpcode l
  if op = 0 ∨ 0xc < op then some ⟨stInvalidOpcode, 0, 0⟩
  else if role < roleNeeded l || d.heldByAudit l then some ⟨stDenied, 0, roleNeeded l⟩
  else
    match d.checkFields l with
    | some v => some v
    | none =>
      let data : Bool := op == 1 || op == 2
      let medium := mediumEntry l
      let es := if data then (nsStripes (entLba l) (entNlb l)).filterMap fun k =>
          (walkExtents (d.extents (entNsid l)) k).map (·.1)
        else if op = 7 then d.extents (entNsid l) else []
      if medium && d.noDiscFor es then some ⟨stNoMedium, 0, 0⟩
      else
        let gone := (op == 7 && d.nsGap (entNsid l)) || (data && (nsStripes (entLba l) (entNlb l)).any fun k =>
          (walkExtents (d.extents (entNsid l)) k).isNone)
        match (d.unready es).or (if gone then some d.missingLayer else none) with
        | some x => some ⟨stNotReady, x, 0⟩
        | none =>
          let stages : Bool := (op == 9 && entArg l 0 1 == 2) || (op == 0xc && (entArg l 0 1 == 4 || entArg l 0 1 == 7))
          if stages && d.stagingBusy q then some ⟨stBusyUpdate, 0, 0⟩ else none

/-! ## Fetching and receipt (R315, R316, R322) -/

/-- A pair has an entry to fetch and room for it in its intake queue. -/
def Dev.fetchable (d : Dev) (q : Nat) : Bool :=
  d.pairOn q && d.fld (Fld.HQ_QP_STATUS_SQ_HEAD q) != d.sqTail q && !d.queueFull q

/-- Entries that a pair may take in a turn. -/
def Dev.turnWeight (d : Dev) (q : Nat) : Nat :=
  if d.fld (Fld.HQ_QP_CFG_WEIGHT q) = 0 then 16 else d.fld (Fld.HQ_QP_CFG_WEIGHT q)

/-- The pair that the arbitration takes the next entry from, and the entries it has taken in its turn. -/
def Dev.nextPair (d : Dev) : Option (Nat × Nat) :=
  let q := d.host.turn
  if d.fetchable q && d.host.turnUsed < d.turnWeight q then some (q, d.host.turnUsed + 1)
  else (((List.range 64).map fun i => (q + 1 + i) % 64).find? d.fetchable).map fun x => (x, 1)

/-- OUTCOME of a status in an audit record (R407). -/
def outcomeOf (status : Nat) : Nat := if status = stDone then taken else if status = stDenied then denied else failed

/-- ACTION of a command in an audit record (R407). -/
def commandAction (l : List Byte) : Nat :=
  if entOpcode l = 0xc then 0x0300 + entArg l 0 1 else 0x0100 + entOpcode l

/-- A command is recorded: READ, WRITE, FLUSH and ABORT in aggregate, every other one by itself (R406). -/
def Dev.recordCmd (d : Dev) (c : HostCmd) (v : HostStatus) : Dev :=
  let op := entOpcode c.entry
  if 1 ≤ op ∧ op ≤ 4 then d.aggregate c.qp (op - 1) (entNlb c.entry)
  else d.audit 1 c.role (commandAction c.entry) (outcomeOf v.status) (leBytes 2 c.tag ++ leBytes 2 v.status)

/-- An entry is received: its receipt ESN, its intake queue and its checks; a duplicate tag completes at once, and a medium command leaves
PS1 and PS2 and starts a spindle that stands still (R340, R428, R481). -/
def Dev.receive (d : Dev) (q : Nat) (l : List Byte) : Dev :=
  let role := d.fld (Fld.HQ_QP_CFG_ROLE q)
  let e := d.esn
  let c : HostCmd := { qp := q, tag := entTag l, entry := l, rcpt := e, role := role }
  let dup : Bool := d.host.cmds.any fun x => x.qp == q && x.tag == c.tag
  let d := ((d.eventFor e .receipt q (entOpcode l) [c.tag]).queuePush q l).count (Adr.HQ_CNT 0)
  let v := if dup then some (badField 2 rsDupTag) else d.checkEntry q role l
  let d := (d.onHost fun h => { h with
    cmds := h.cmds ++ [{ c with verdict := v }], entry := h.entry.map fun p => { p with disturbed := true } }).showInflight q
  let d := d.when (v.isNone && mediumEntry l && d.mode == 1) Dev.readyFor
  d.when dup fun d => ((d.putBit Fld.HQ_STATUS_DUP_TAG true).recordCmd c (badField 2 rsDupTag)).postCpl ⟨q, c.tag, badField 2 rsDupTag, true, e, none⟩

/-- Fetching is stopped. -/
def Dev.fetchStopped (d : Dev) : Bool :=
  d.bit Fld.HQ_STATUS_RESETTING || d.bit Fld.HQ_STATUS_QUIESCED || !d.bit Fld.HQ_CTRL_ENABLE ||
    1024 ≤ d.host.cmds.length

def execSqFetch (s : State) : Host.Outcome State Fault Refusal :=
  s.on fun d =>
    if d.fetchStopped then d
    else
      match d.nextPair with
      | none => d
      | some (q, used) =>
        let head := d.fld (Fld.HQ_QP_STATUS_SQ_HEAD q)
        let l := d.hostRead (d.sqBase q + 64 * head) 64
        let d := (d.onHost fun h => { h with turn := q, turnUsed := used }).put (Fld.HQ_QP_STATUS_SQ_HEAD q)
          ((head + 1) % d.sqSize q)
        d.receive q l

/-! ## Chain lists (R318) -/

/-- The addresses of n pages that a chain list names from entry address a on; none where it is malformed, follows more than
64 LINK entries or ends early. -/
def Dev.chainWalk (d : Dev) : Nat → Nat → Nat → Nat → List Nat → Option (List Nat)
  | 0, _, _, _, _ => none
  | fuel + 1, a, links, n, acc =>
    if n = 0 then some acc
    else
      let l := d.hostRead a 16
      let addr := fieldAt l 0 8
      let pages := fieldAt l 8 4
      if fieldAt l 13 3 ≠ 0 then none
      else if fieldAt l 12 1 = 0 then
        if addr % 4096 ≠ 0 ∨ pages = 0 ∨ 4096 < pages then none
        else d.chainWalk fuel (a + 16) links (n - min pages n) (acc ++ (List.range (min pages n)).map fun i => addr + 4096 * i)
      else if fieldAt l 12 1 = 1 then
        if addr % 16 ≠ 0 ∨ pages ≠ 0 ∨ links = 64 then none else d.chainWalk fuel addr (links + 1) n acc
      else none

/-- The first n pages of a chain list. -/
def Dev.chainPages (d : Dev) (a n : Nat) : Option (List Nat) := d.chainWalk (n + 66) a 0 n []

/-! ## DMA (R264 to R266) -/

def dmaCopyKind : Nat := 1
def dmaFillKind : Nat := 2
def dmaInKind : Nat := 3
def dmaOutKind : Nat := 4
def dmaCplKind : Nat := 5

/-- A descriptor that R265 allows; buffer ranges lie in the fitted memory. -/
def Dev.dmaDescOk (d : Dev) (l : List Byte) : Bool :=
  let kind := fieldAt l 0 1
  let q := fieldAt l 2 2
  let len := fieldAt l 4 4
  let src := fieldAt l 8 8
  let dst := fieldAt l 16 8
  let top := d.fld Fld.MEM_SIZE_PAGES * pageBytes
  let host : Bool := kind == dmaInKind || kind == dmaOutKind
  1 ≤ kind && kind ≤ 5 && fieldAt l 1 1 < 4 && (if host || kind == dmaCplKind then q < 64 else q == 0) &&
    (if kind = dmaCplKind then len == 32
     else 0 < len && len ≤ 16 * 2 ^ 20 && len % (if host then 4096 else 64) == 0) &&
    (if kind = dmaFillKind then src == 0 else true) && (if kind = dmaCplKind then dst == 0 else true) &&
    (host || fieldAt l 30 2 == 0) &&
    (if kind = dmaCopyKind ∨ kind = dmaOutKind then src + len ≤ top else true) &&
    (if kind = dmaCopyKind ∨ kind = dmaFillKind ∨ kind = dmaInKind then dst + len ≤ top else true) &&
    (if kind = dmaCplKind then src / 2 ^ 60 == 9 else true)

/-- A user task may COPY and FILL inside its window (R254). -/
def Dev.dmaAllowed (d : Dev) (t : Nat) (l : List Byte) : Bool :=
  let kind := fieldAt l 0 1
  let base := d.fld Fld.SPP_USER_WIN_BASE_VALUE * pageBytes
  let top := base + d.fld Fld.SPP_USER_WIN_PAGES_VALUE * pageBytes
  let len := fieldAt l 4 4
  let inside (a : Nat) : Bool := base ≤ a && a + len ≤ top
  !d.taskUser t || (kind == dmaCopyKind && inside (fieldAt l 8 8) && inside (fieldAt l 16 8)) ||
    (kind == dmaFillKind && inside (fieldAt l 16 8))

/-- A DMA launches, or is refused. A CPL has no ESN yet, so that what bits [47:0] of rd hold is open (R264, R265; log 170). -/
def Dev.dmaLaunch (d : Dev) (t : Nat) (l : List Byte) : Nat × Dev :=
  if !d.dmaDescOk l then (refuse reasonBadDesc, d)
  else if !d.dmaAllowed t l then (refuse reasonDenied, d)
  else if 16 ≤ (d.span.dmas.filter fun x => x.task == t).length then (refuse reasonFull, d)
  else
    let tag := (d.task t).tag
    let rcpt := BitVec.ofNat 48 (fieldAt l 24 6)
    let kind := fieldAt l 0 1
    let cpl : Bool := kind == dmaCplKind
    let e := if cpl then 0 else d.esn
    let op : DmaOp :=
      { task := t, tag := tag, kind := kind, notify := (fieldAt l 1 1).testBit 0
        order := (fieldAt l 1 1).testBit 1 || kind == dmaCplKind
        queue := fieldAt l 2 2, length := fieldAt l 4 4, src := fieldAt l 8 8, dst := fieldAt l 16 8, rcpt := rcpt
        start := fieldAt l 30 2, esn := e
        entry := if kind = dmaCplKind then d.tcmRead (d.taskProc t) (fieldAt l 8 8) 32 else [] }
    let shown := if cpl then d.freeBits 48 else e.toNat
    let d := (if cpl then d.drew else d.eventFor rcpt .dma t kind [tag]).onTask t fun x => { x with tag := (x.tag + 1) % 65536 }
    (shown + 2 ^ 48 * tag, ({ d with span := { d.span with dmas := d.span.dmas ++ [op] } }).markStarted rcpt)

/-- The DMA instruction: its 32-byte descriptor stands in TCM. -/
def Dev.dmaInstr (d : Dev) (i : SpanIssue) (rd rs1 : SpanReg) : Dev :=
  d.span1 i fun d t =>
    let a := d.sreg t rs1.val
    if !inTcm a then d.trap t causeAddr
    else if a.toNat % 32 ≠ 0 then d.trap t causeAlign
    else
      let l := d.tcmRead (d.taskProc t) a.toNat 32
      d.effect t effDma rd.val (l.map (·.toNat)) fun d =>
        let r := d.dmaLaunch t l
        (BitVec.ofNat 64 r.1, r.2)

def execDmaCopy (i : SpanIssue) (rd rs1 : SpanReg) (s : State) : Host.Outcome State Fault Refusal :=
  s.on fun d => d.dmaInstr i rd rs1

def execDmaFill (i : SpanIssue) (rd rs1 : SpanReg) (s : State) : Host.Outcome State Fault Refusal :=
  s.on fun d => d.dmaInstr i rd rs1

def execDmaHostIn (i : SpanIssue) (rd rs1 : SpanReg) (s : State) : Host.Outcome State Fault Refusal :=
  s.on fun d => d.dmaInstr i rd rs1

def execDmaHostOut (i : SpanIssue) (rd rs1 : SpanReg) (s : State) : Host.Outcome State Fault Refusal :=
  s.on fun d => d.dmaInstr i rd rs1

def execDmaCpl (i : SpanIssue) (rd rs1 : SpanReg) (s : State) : Host.Outcome State Fault Refusal :=
  s.on fun d => d.dmaInstr i rd rs1

/-- Words marked in the source are marked in the destination of a copy. -/
def Dev.copyMarks (d : Dev) (src dst len : Nat) : Dev :=
  let marks := (touchedWords src len).filter d.poisoned
  ((d.noteVirgin src len).bufWrite dst (d.bufRead src len)).each marks fun d w =>
    let lo := max src (8 * w)
    d.markBytes (dst + lo - src) (min (src + len) (8 * w + 8) - lo)

/-- Words of a transfer from the host that poisoned TLPs cover are stored with the mark (R296). -/
def Dev.hostMarks (d : Dev) (op : DmaOp) (bad : List Nat) : Dev :=
  d.each (bad.filter fun i => 8 * i < op.length) fun d i => d.markBytes (op.dst + 8 * i) 8

/-- The host pages of a DMA: those of its chain list from START_BLK on. -/
def Dev.dmaPages (d : Dev) (op : DmaOp) (chain : Nat) : Option (List Nat) :=
  (d.chainPages chain (op.start + op.length / 4096)).map fun l => l.drop op.start

/-- The transfer of a DMA ends (R265, R297); `bad` names the words of one from the host that arrived in poisoned TLPs. -/
def Dev.dmaRun (d : Dev) (op : DmaOp) (bad : List Nat) : Dev :=
  if op.kind = dmaCopyKind then
    let us := d.poisonUnits op.src op.length
    (d.copyMarks op.src op.dst op.length).dmaFinish op (if us.isEmpty then 0 else 1) op.length us
  else if op.kind = dmaFillKind then (d.bufWrite op.dst (zeroBytes op.length)).dmaFinish op 0 op.length []
  else if op.kind = dmaInKind then
    match d.dmaPages op op.src with
    | none => d.dmaFinish op 2 0 []
    | some ps =>
      let us := (List.range (op.length / 4096)).filter fun u => bad.any fun i => i / 512 == u
      ((d.bufWrite op.dst ((ps.map fun a => d.hostRead a 4096).flatten)).hostMarks op bad).dmaFinish op
        (if us.isEmpty then 0 else 1) op.length us
  else if op.kind = dmaOutKind then
    match d.dmaPages op op.dst with
    | none => d.dmaFinish op 2 0 []
    | some ps =>
      let us := d.poisonUnits op.src op.length
      let d := d.noteVirgin op.src op.length
      (d.each (ps.zipIdx) fun d e => d.hostWrite e.1 (d.bufRead (op.src + 4096 * e.2) 4096)).dmaFinish op
        (if us.isEmpty then 0 else 1) op.length us
  else
    let l := op.entry
    let c : HeldCpl := ⟨op.queue, fieldAt l 0 2, ⟨fieldAt l 2 2, fieldAt l 16 8, fieldAt l 14 2⟩, (fieldAt l 13 1).testBit 1, op.rcpt,
      some (op.task, op.tag)⟩
    if d.pairOn op.queue then
      let mark (l : List DmaOp) : List DmaOp := l.map fun x => if x = op then { x with ended := true } else x
      { d with span := { d.span with dmas := mark d.span.dmas } }.postCpl c
    else d.dropCpls [c]

/-- Earlier DMAs of the task that an ordered one waits for. -/
def Dev.dmaBlocked (d : Dev) (op : DmaOp) : Bool :=
  op.order && (d.span.dmas.takeWhile fun x => x != op).any fun x => x.task == op.task

def Dev.findDma (d : Dev) (t tag : Nat) : Option DmaOp := d.span.dmas.find? fun x => x.task == t && x.tag == tag && !x.ended

def execDmaEnd (t : TaskId) (tag : BitVec 16) (bad : List Nat) (s : State) : Host.Outcome State Fault Refusal :=
  s.on fun d =>
    match d.findDma t.val tag.toNat with
    | some op => if d.dmaBlocked op then d else d.dmaRun op bad
    | none => d

/-- A read of host memory fails: it is retried once, and the second failure ends the DMA and the command it serves. -/
def execHostReadError (t : TaskId) (tag : BitVec 16) (s : State) : Host.Outcome State Fault Refusal :=
  s.on fun d =>
    match d.findDma t.val tag.toNat with
    | none => d
    | some op =>
      if !op.retried then
        { d with span := { d.span with dmas := d.span.dmas.map fun x => if x = op then { x with retried := true } else x } }
      else
        (d.dmaFinish op 2 0 []).onHost fun h => { h with
          cmds := h.cmds.map fun c => if c.rcpt = op.rcpt then { c with verdict := some (badField 24 rsHostMemory) } else c }

end Sys2Proof.Machine
end

