-- ==== Sys2Proof/Machine/Ring.lean ====
section
/-! DEFINITION. The Locus sequencer's rows and the Annulus ring: ESN grants, ticks, ring time marks, frames, the FIFOs and the
bypass; and the boundary-scan TAP (R8, R27 to R31, R465 to R475). -/

namespace Sys2Proof.Machine

/-! ## Grants and ticks (R27, R28, R31) -/

def Dev.onLocus (d : Dev) (f : LocusSt → LocusSt) : Dev := { d with locus := f d.locus }

/-- The grant class of an event, 1 to 6 as 0 to 5, which what it is sets (R28); a STAMP is granted at the class it names, that of a user
task at class 6 (R254). -/
def Dev.grantClass (d : Dev) (r : EsnRequest) : Fin 6 :=
  match r.kind with
  | .arcRecord | .motorRecord | .defectStart | .defectEnd | .wedgeSource | .addrMismatch | .resyncMiss | .beamSuspect
  | .beamMap | .zoneDeferred | .guardInhibit | .laserFault => 0
  | .fragment => 1
  | .latticeResult | .latticeFault | .decoderResult | .frameDispatch | .decoderFault => 2
  | .stripeResult | .stripeDispatch | .stripeFault | .bandAccept | .bandResult | .writePath => 3
  | .receipt | .completion | .dma => 4
  | .stamp => if d.bit (Fld.SPP_TASK_USER r.source) then 5 else r.named
  | .audit | .checkpoint | .memory | .cache | .crossbar | .rootPll | .thermal | .spanEvent | .sparing | .power | .host
  | .kd | .ring | .update | .locus => 5

/-- The order of grants: class by class, and fragments by slice number (R28). -/
def Dev.grantRank (d : Dev) (r : EsnRequest) : Nat × Nat := ((d.grantClass r).val, if r.kind = .fragment then r.source else 0)

/-- One request comes before another whatever their order of arrival. -/
def Dev.grantBefore (d : Dev) (x r : EsnRequest) : Bool :=
  let a := d.grantRank x
  let b := d.grantRank r
  decide (a.1 < b.1) || (a.1 == b.1 && decide (a.2 < b.2))

/-- The request that is granted next: the first in the order of grants, and among equals the one that came first. -/
def Dev.nextRequest (d : Dev) : List EsnRequest → Option EsnRequest
  | [] => none
  | r :: rs =>
    match d.nextRequest rs with
    | none => some r
    | some x => if d.grantBefore x r then some x else some r

/-- ESN_GRANT: requests arrive, and one is granted. -/
def execEsnGrant (arrivals : List EsnRequest) (s : State) : Host.Outcome State Fault Refusal :=
  s.on fun d =>
    let all := d.locus.waiting ++ arrivals
    match d.nextRequest all with
    | none => d
    | some r =>
      let e := d.esn
      d.issue.onLocus fun l => { l with waiting := all.erase r, granted := some (r, e) }

/-- EPOCH and TICK as one number of microseconds. -/
def LocusSt.time (l : LocusSt) : BitVec 38 := l.epoch ++ l.tick

/-- a lies ahead of b on the circle of 2^38 microseconds. -/
def timeAhead (a b : BitVec 38) : Bool := a != b && decide ((a - b).toNat < 2 ^ 37)

/-- The time is set, and ORDER restarts. -/
def LocusSt.setTime (l : LocusSt) (v : BitVec 38) : LocusSt :=
  { l with epoch := v.extractLsb' 22 16, tick := v.setWidth 22, order := 0 }

/-- A pending step or slew is given up: the time stands and runs free. -/
def Dev.locusFree (d : Dev) : Dev :=
  (d.onLocus fun l => { l with stepTo := none, slewTo := none, slewSkip := false }).putBit Fld.LOCUS_STATUS_SLEWING false

/-- An interval of a slew ends: every second one advances TICK, and the slew ends when the mark, which runs on, has caught up
with the time (R30). -/
def Dev.slewTick (d : Dev) (mark : BitVec 38) : Dev :=
  let l := d.locus
  let now := if l.slewSkip then l.time + 1 else l.time
  let on := timeAhead now (mark + 1)
  let d := d.onLocus fun l => if l.slewSkip then l.setTime now else l
  (d.onLocus fun l => { l with slewTo := if on then some (mark + 1) else none, slewSkip := on && !l.slewSkip }).putBit
    Fld.LOCUS_STATUS_SLEWING on

/-- An interval ends: a step forward that a mark asked for, an interval that a slew leaves out, or the next TICK (R27, R30);
without RING_SYNC_EN the time runs free (R31). -/
def Dev.locusTick (d : Dev) : Dev :=
  let d := d.onLocus fun l => { l with micros := l.micros + 1 }
  let l := d.locus
  let next := l.time + 1
  let step (d : Dev) : Dev := d.onLocus fun l => l.setTime next
  if !d.bit Fld.LOCUS_CTRL_RING_SYNC_EN then
    step (d.when (l.stepTo.isSome || l.slewTo.isSome) fun d => d.locusFree)
  else
    match l.stepTo, l.slewTo with
    | some v, _ =>
      let d := d.onLocus fun l => { l.setTime (if timeAhead v next then v else next) with stepTo := none }
      d.when (timeAhead v next) fun d => d.putBit Fld.LOCUS_STATUS_STEPPED true
    | none, some mark => d.slewTick mark
    | none, none => step d

def execLocusTick (s : State) : Host.Outcome State Fault Refusal := s.on fun d => d.locusTick

/-- A read of LOCUS_NOW_LO latches the high part. -/
def Dev.locusRead (d : Dev) : Dev :=
  let e := d.esn
  (d.setReg Adr.LOCUS_NOW_LO (e.setWidth 32)).setReg Adr.LOCUS_NOW_HI ((e.extractLsb' 32 16).setWidth 32)

def execLocusNowRead (s : State) : Host.Outcome State Fault Refusal := s.on fun d => d.locusRead

/-- A copy of the Locus logic that disagrees is reloaded from the other two; the voted state stands (R8). -/
def execLocusCopyDisagree (copy : Fin 3) (s : State) : Host.Outcome State Fault Refusal :=
  s.on fun d => d.onLocus fun l => { l with disagreed := Tab.upd (fun _ => 0) l.disagreed copy.val (· + 1) }

/-- A ring time mark: master time at its arrival, in EPOCH and TICK and ns. Local time within its microsecond is open
(log 3). -/
def Dev.locusMark (d : Dev) (epoch : BitVec 16) (tick : BitVec 22) (ns : Nat) : Dev :=
  let ring : BitVec 38 := epoch ++ tick
  let local38 := d.locus.time
  let diff : Int := (ring - local38).toInt
  let diffNs : Int := 1000 * diff + ns - (d.freeBits 10 % 1000 : Nat)
  let d := d.drew.setReg Adr.LOCUS_RING_OFFSET (BitVec.ofInt 32 (clampInt (-2147483647) 2147483647 (roundDiv diffNs 1000)))
  let d := d.putBit Fld.LOCUS_STATUS_RING_LOCKED (decide (-1000 ≤ diffNs) && decide (diffNs ≤ 1000))
  if !d.bit Fld.LOCUS_CTRL_RING_SYNC_EN then d.locusFree
  else if timeAhead ring local38 then
    (d.onLocus fun l => { l with stepTo := some ring, slewTo := none, slewSkip := false }).putBit Fld.LOCUS_STATUS_SLEWING false
  else
    (d.onLocus fun l => { l with stepTo := none, slewTo := if diff = 0 then none else some ring, slewSkip := false }).putBit
      Fld.LOCUS_STATUS_SLEWING (diff != 0)

/-! ## Frames (R467, R468) -/

def Dev.onRing (d : Dev) (f : RingSt → RingSt) : Dev := { d with ring := f d.ring }

def rfType (l : List Byte) : Nat := fieldAt l 0 1
def rfHops (l : List Byte) : Nat := fieldAt l 1 1
def rfLen (l : List Byte) : Nat := fieldAt l 2 2
def rfDst (l : List Byte) : Nat := fieldAt l 4 8
def rfSrc (l : List Byte) : Nat := fieldAt l 12 8

def ringTimeMark : Nat := 1
def ringPresence : Nat := 2
def ringWake : Nat := 3
def ringMgmt : Nat := 4

/-- DST of a broadcast. -/
def ringAll : Nat := 2 ^ 64 - 1

/-- A frame as it can arrive: its length is that of its header and payload. -/
def ringFrameOk (l : List Byte) : Bool := rfLen l ≤ 44 && l.length == 20 + rfLen l

/-- A frame of a TYPE. -/
def ringFrameIs (t : Nat) (l : List Byte) : Bool := ringFrameOk l && rfType l == t

/-- The bytes of the frame of a TYPE that a row carries: its header has 20 bytes, LEN is that of the payload, at most 44. -/
def ringFrameAs (t : Nat) (l : List Byte) : List Byte :=
  let p := (l.drop 20).take 44
  leBytes 1 t ++ bytesAt l 1 1 ++ leBytes 2 p.length ++ bytesAt l 4 16 ++ p

/-- A frame with its CRC, or with the complement of it where it carries a failure on. -/
def ringCoded (l : List Byte) (ok : Bool) : List Byte := l ++ leBytes 4 (if ok then crc32 l else 2 ^ 32 - 1 - crc32 l)

/-- The interface is active: its bypass is open and it drives the line. -/
def Dev.ringActive (d : Dev) : Bool := d.bit Fld.RING_STATUS_TX_ON

/-- Frames that wait in the TX FIFO are put on the ring; a FIFO that stays full shows it. -/
def Dev.ringDrain (d : Dev) : Dev :=
  let d := if d.ringActive then
      (d.onRing fun r => { r with tx := [], out := (r.tx.map fun l => ringCoded l true).reverse ++ r.out }).countBy
        (Adr.RING_CNT 2) d.ring.tx.length
    else d
  d.putBit Fld.RING_STATUS_TX_FULL (16 ≤ d.ring.tx.length)

/-- A frame of the device is queued; a push on a full FIFO is discarded. -/
def Dev.ringPush (d : Dev) (l : List Byte) : Dev :=
  if 16 ≤ d.ring.tx.length then d else (d.onRing fun r => { r with tx := r.tx ++ [l] }).ringDrain

/-- A frame from the device. -/
def Dev.ringFrame (d : Dev) (type dst : Nat) (payload : List Byte) : List Byte :=
  leBytes 1 type ++ [0] ++ leBytes 2 payload.length ++ leBytes 8 dst ++ leBytes 8 d.sec.dsn ++ payload

/-- An MGMT frame to the master, which is repeated until it is answered. -/
def Dev.ringMgmtSend (d : Dev) (payload : List Byte) : Dev :=
  let l := d.ringFrame ringMgmt 0 payload
  (d.onRing fun r => { r with mgmt := r.mgmt ++ [(l, 0)] }).ringPush l

/-- The words of a frame in a window. -/
def frameWord (l : List Byte) (w : Nat) : Word := BitVec.ofNat 32 (fieldAt l (4 * w) 4)

/-- RX_COUNT and the RX window show the FIFO. -/
def Dev.showRx (d : Dev) : Dev :=
  let d := d.put Fld.RING_STATUS_RX_COUNT d.ring.rx.length
  d.each (List.range 16) fun d w => d.setReg (Adr.RING_RX_WIN w) (frameWord (d.ring.rx.headD []) w)

/-- A frame for the device enters the RX FIFO, or is lost. -/
def Dev.ringTake (d : Dev) (l : List Byte) : Dev :=
  if 16 ≤ d.ring.rx.length then d.putBit Fld.RING_STATUS_RX_LOST true
  else (d.onRing fun r => { r with rx := r.rx ++ [l] }).showRx

/-- The TYPEs that R467 does not list, 0 and 5 to 255, by their order. -/
def unlistedType (t : Fin 252) : Nat := if t.val = 0 then 0 else ringMgmt + t.val

/-- The frame of a row, its TYPE given. -/
def ringTyped (f : RingFrame) (t : Nat) : RingFrame := { f with bytes := ringFrameAs t f.bytes }

/-- A frame arrives at an active node: discarded, taken, or forwarded with HOPS incremented and copied where it is a
broadcast; a failed CRC is counted and carried on (R468). -/
def Dev.ringReceive (d : Dev) (f : RingFrame) (rewrite : List Byte → List Byte) (take : Dev → Dev) : Dev :=
  if !d.ringActive then d
  else
    let l := f.bytes
    let d := d.when (!f.crcOk) fun d => (d.putBit Fld.RING_STATUS_CRC_ERR true).count (Adr.RING_CNT 3)
    let took (d : Dev) : Dev := d.when f.crcOk fun d => take (d.count (Adr.RING_CNT 1))
    if rfSrc l = d.sec.dsn ∨ rfHops l = 255 then d
    else if rfDst l = d.sec.dsn then took d
    else
      let d := d.when (rfDst l = ringAll) took
      let out := rewrite (l.set 1 (BitVec.ofNat 8 (rfHops l + 1)))
      (d.onRing fun r => { r with out := ringCoded out f.crcOk :: r.out }).count (Adr.RING_CNT 0)

/-- PRESENCE (R467). -/
def Dev.presencePayload (d : Dev) : List Byte :=
  let b (x : Bool) (v : Nat) : Nat := if x then v else 0
  let flags := b (d.fld Fld.SPR_STATUS_ATTENTION != 0) 1 + b (d.fld Fld.SPR_STATUS_DEPLETED != 0) 2 + b d.kd.prevent 4
    + b (d.bit Fld.MON_THERM_TRIP) 8
  leBytes 4 (d.reg Adr.ID_DEVICE).toNat ++ leBytes 1 (d.fld Fld.HQ_STATUS_PS) ++ leBytes 1 flags ++ [0, 0]

def Dev.sendPresence (d : Dev) : Dev :=
  let p := d.presencePayload
  (d.onRing fun r => { r with presence := p }).when d.ringActive fun d => d.ringPush (d.ringFrame ringPresence 0 p)

def execPresenceTimer (s : State) : Host.Outcome State Fault Refusal := s.on fun d => d.sendPresence

/-- A mark's payload with a residence time of bits of 8 ns added, with carries (R469). -/
def markAdd (l : List Byte) (bits : Nat) : List Byte :=
  let ns := fieldAt l 20 2 + 8 * bits
  let ticks := fieldAt l 22 3 % 2 ^ 22 + ns / 1000
  let epoch := (fieldAt l 25 2 + ticks / 2 ^ 22) % 65536
  l.take 20 ++ leBytes 2 (ns % 1000) ++ leBytes 3 (ticks % 2 ^ 22) ++ leBytes 2 epoch ++ bytesAt l 27 1

/-- A valid mark is acted on (R469). -/
def Dev.takeMark (d : Dev) (l : List Byte) : Dev :=
  let d := (d.onRing fun r => { r with markAt := d.locus.micros }).putBit Fld.RING_STATUS_MASTER_SEEN true
  let d := (d.put Fld.RING_STATUS_POSITION (rfHops l + 1)).count (Adr.RING_CNT 4)
  d.locusMark (BitVec.ofNat 16 (fieldAt l 25 2)) (BitVec.ofNat 22 (fieldAt l 22 3)) (fieldAt l 20 2)

/-- TIME_MARK: a residence of fewer than 4 characters, 40 bit times, is counted as that (R468). -/
def execRingTimeMark (f : RingFrame) (residence : Nat) (s : State) : Host.Outcome State Fault Refusal :=
  s.on fun d =>
    let f := ringTyped f ringTimeMark
    d.ringReceive f (fun l => markAdd l (max 40 residence)) fun d => d.takeMark f.bytes

def execRingPresence (f : RingFrame) (s : State) : Host.Outcome State Fault Refusal :=
  s.on fun d =>
    let f := ringTyped f ringPresence
    d.ringReceive f id fun d => d.ringTake f.bytes

/-- An MGMT frame for the device; one from the node that an MGMT frame of the device waits on answers it. -/
def execRingMgmt (f : RingFrame) (s : State) : Host.Outcome State Fault Refusal :=
  s.on fun d =>
    let f := ringTyped f ringMgmt
    d.ringReceive f id fun d =>
      (d.onRing fun r => { r with mgmt := r.mgmt.eraseP fun e => rfDst e.1 == rfSrc f.bytes }).ringTake f.bytes

/-- A frame of a TYPE that is not listed: the row's TYPE k stands for 0, or for 4 + k. -/
def execRingUnknownFrame (f : UnlistedFrame) (s : State) : Host.Outcome State Fault Refusal :=
  s.on fun d =>
    let f := ringTyped f.frame (unlistedType f.kind)
    d.ringReceive f id fun d => d.ringTake f.bytes

/-- 3 ms pass without a mark: Locus runs free (R469). -/
def execRingMarkTimeout (s : State) : Host.Outcome State Fault Refusal :=
  s.on fun d =>
    let d := (d.putBit Fld.RING_STATUS_MASTER_SEEN false).putBit Fld.LOCUS_STATUS_RING_LOCKED false
    d.locusFree

/-- 10 ms pass: unanswered MGMT frames are repeated, each at most 8 times. -/
def execMgmtRetry (s : State) : Host.Outcome State Fault Refusal :=
  s.on fun d =>
    let live := d.ring.mgmt.filter fun e => e.2 < 8
    let d := d.onRing fun r => { r with mgmt := live.map fun e => (e.1, e.2 + 1) }
    d.each live fun d e => d.ringPush e.1

/-! ## Line, FIFOs and bypass (R466, R467, R471, R472) -/

def execRingSync (s : State) : Host.Outcome State Fault Refusal := s.on fun d => d.putBit Fld.RING_STATUS_SYNC true

def execRingSyncLoss (s : State) : Host.Outcome State Fault Refusal :=
  s.on fun d => d.when (d.bit Fld.RING_STATUS_SYNC) fun d =>
    ((d.putBit Fld.RING_STATUS_SYNC false).putBit Fld.RING_STATUS_SYNC_LOST true).count (Adr.RING_CNT 5)

/-- TX_PUSH: the frame of the TX window is queued. -/
def Dev.ringTxPush (d : Dev) : Dev :=
  let win := ((List.range 16).map fun w => leBytes 4 (d.reg (Adr.RING_TX_WIN w)).toNat).flatten
  d.ringPush (win.take (20 + min 44 (rfLen win)))

def execRingTxPush (s : State) : Host.Outcome State Fault Refusal := s.on fun d => d.ringTxPush

/-- RX_POP: the frame in the RX window is released. -/
def Dev.ringRxPop (d : Dev) : Dev := (d.onRing fun r => { r with rx := r.rx.drop 1 }).showRx

def execRingRxPop (s : State) : Host.Outcome State Fault Refusal := s.on fun d => d.ringRxPop

def execRingCntClr (s : State) : Host.Outcome State Fault Refusal := s.on fun d => d.clearCounters Adr.RING_CNT

/-- The switch closes and the driver is off; frames that wait stay queued. -/
def Dev.closeBypass (d : Dev) : Dev :=
  let d := d.when (!d.bit Fld.RING_STATUS_BYPASS) fun d => d.count (Adr.RING_CNT 6)
  (d.onRing fun r => { r with opening := false }).putBit Fld.RING_STATUS_BYPASS true |>.putBit Fld.RING_STATUS_TX_ON false

/-- The opening begins: it waits for synchronisation, or 10 ms. -/
def Dev.openBypass (d : Dev) : Dev := d.onRing fun r => { r with opening := true }

/-- FORCE_BYPASS is written. -/
def Dev.forceBypass (d : Dev) (on : Bool) : Dev :=
  let d := d.putBit Fld.RING_CTRL_FORCE_BYPASS on
  if on then d.closeBypass else d.openBypass

/-- The driver is enabled and the switch opens; PRESENCE follows. -/
def execRingBypassOpen (s : State) : Host.Outcome State Fault Refusal :=
  s.on fun d => d.when d.ring.opening fun d =>
    let d := ((d.onRing fun r => { r with opening := false }).putBit Fld.RING_STATUS_BYPASS false).putBit
      Fld.RING_STATUS_TX_ON true
    d.ringDrain.sendPresence

/-! ## Boundary scan (R465) -/

/-- The device identification that IDCODE reads. -/
def tapIdcode : Word := 0x17216d8b

/-- The bits that a register shifts out, least significant first: its contents, then what TDI put in. -/
def shiftOut (contents tdi : List Bool) : List Bool := (contents ++ tdi).take tdi.length

/-- The TAP: the boundary register's contents are the levels of the balls, which are open (log 3). -/
def execBoundaryScan (op : TapOp) (s : State) : Host.Outcome State Fault Refusal :=
  s.on fun d =>
    match op with
    | .reset => { d with tap := {} }
    | .loadIr i => { d with tap := { d.tap with instr := i } }
    | .shiftDr tdi =>
      match d.tap.instr with
      | .idcode => { d with tap := { d.tap with tdo := shiftOut ((List.range 32).map tapIdcode.toNat.testBit) tdi } }
      | .bypass | .highz | .clamp => { d with tap := { d.tap with tdo := shiftOut [false] tdi } }
      | .extest | .sample =>
        let out := (List.range tdi.length).map fun i => (Config.freeValue (d.free + i)).getLsbD 0
        { d with tap := { d.tap with tdo := out, cells := tdi }, free := d.free + tdi.length }

end Sys2Proof.Machine
end

