-- ==== Sys2Proof/Machine/KdReply.lean ====
section
/-! DEFINITION. Statuses, sense data and unit attention of the KD logical unit (R356, R357). -/

namespace Sys2Proof.Machine

def Dev.onKd (d : Dev) (f : KdSt → KdSt) : Dev := { d with kd := f d.kd }

/-- n bytes whose values the spec leaves open (log 3). -/
def Dev.freeBytes (d : Dev) (n : Nat) : List Byte :=
  (List.range n).map fun i => (Config.freeValue (d.free + i)).setWidth 8

def Dev.drewMany (d : Dev) (n : Nat) : Dev := { d with free := d.free + n }

/-- The value of n bytes of a CDB, most significant first. -/
def cdbField (l : List Byte) (k n : Nat) : Nat := beValue (bytesAt l k n)

/-- A reply is sent. -/
def Dev.kdSend (d : Dev) (r : KdReply) : Dev := d.onKd fun k => { k with replies := r :: k.replies }

/-- GOOD, with data. -/
def Dev.kdGood (d : Dev) (tag : Nat) (data : List Byte) : Dev := (d.event .kd 0 0 [tag]).kdSend ⟨tag, some 0, data, none⟩

/-- CHECK CONDITION with its sense data, which carries the ESN of the status; data that was transferred stands. -/
def Dev.kdCheckWith (d : Dev) (tag : Nat) (data : List Byte) (key asc ascq : Nat) (info : Option Nat) : Dev :=
  let s : KdSense := ⟨key, asc, ascq, info, d.esn⟩
  ((d.event .kd 0 2 [tag, key, asc, ascq]).onKd fun k => { k with sense := s }).kdSend ⟨tag, some 2, data, some s⟩

def Dev.kdCheck (d : Dev) (tag key asc ascq : Nat) : Dev := d.kdCheckWith tag [] key asc ascq none

def keyRecovered : Nat := 1
def keyNotReady : Nat := 2
def keyMedium : Nat := 3
def keyIllegal : Nat := 5
def keyAttention : Nat := 6

/-- Invalid CDB field. -/
def Dev.kdBadField (d : Dev) (tag : Nat) : Dev := d.kdCheck tag keyIllegal 0x24 0

/-- The fixed format, additional length 16, with the ESN in bytes 18 to 23. -/
def senseBytes (s : KdSense) : List Byte :=
  [if s.info.isSome then 0xf0 else 0x70, 0] ++ leBytes 1 s.key ++ beBytes 4 (s.info.getD 0) ++ [16, 0, 0, 0, 0]
    ++ leBytes 1 s.asc ++ leBytes 1 s.ascq ++ [0, 0, 0, 0] ++ leBytes 6 s.esn.toNat

/-- A command of the logical unit: none runs outside KD mode, and none while the host path is quiet; one that arrives during an
entry disturbs it (R341); a unit attention that waits is reported first, but by INQUIRY, REPORT LUNS and REQUEST SENSE. -/
def Dev.kdTask (d : Dev) (t : ScsiTask) (exempt : Bool) (f : Dev → Nat → Dev) : Dev :=
  let tag := t.tag.toNat
  if d.mode ≠ 2 ∨ d.bit Fld.HQ_STATUS_RESETTING ∨ d.bit Fld.HQ_STATUS_QUIESCED then d
  else
    let d := d.onHost fun h => { h with entry := h.entry.map fun p => { p with disturbed := true } }
    match d.kd.attention with
    | some asc => if exempt then f d tag else (d.onKd fun k => { k with attention := none }).kdCheck tag keyAttention asc 0
    | none => f d tag

/-- START STOP UNIT commands that waited for an entry end. -/
def Dev.kdEntryDone (d : Dev) : Dev :=
  d.each d.kd.starting (fun d t => d.kdGood t []) |>.onKd fun k => { k with starting := [] }

end Sys2Proof.Machine
end

