-- ==== Sys2Proof/Machine/Logs.lean ====
section
/-! DEFINITION. The logs that GET_LOG and the service port return (R336, R343, R344, R392, R409). -/

namespace Sys2Proof.Machine

/-- SOURCE of an event record (R344). -/
def eventSource : EventKind → Nat
  | .wedgeSource => 1 | .defectStart => 1 | .defectEnd => 1 | .addrMismatch => 1 | .resyncMiss => 1 | .beamSuspect => 1
  | .beamMap => 1 | .zoneDeferred => 1 | .fragment => 1
  | .latticeResult => 2 | .latticeFault => 2
  | .decoderResult => 3 | .frameDispatch => 3 | .decoderFault => 3
  | .stripeResult => 4 | .stripeDispatch => 4 | .stripeFault => 4
  | .guardInhibit => 5 | .laserFault => 5 | .bandAccept => 5 | .bandResult => 5 | .writePath => 5
  | .arcRecord => 6 | .motorRecord => 7 | .memory => 8 | .cache => 9
  | .receipt => 0x0b | .completion => 0x0b | .dma => 0x0b | .host => 0x0b | .kd => 0x0b
  | .audit => 0x0a | .checkpoint => 0x0a | .crossbar => 0x0a | .rootPll => 0x0a | .thermal => 0x0a | .spanEvent => 0x0a
  | .sparing => 0x0a | .stamp => 0x0a | .power => 0x0a | .ring => 0x0a | .update => 0x0a | .locus => 0x0a

/-- The events that the vendor firmware does not log: frames CONVERGED in round 0, jobs cancelled for a clean stripe, and
stripe results CLEAN (R344). -/
def eventLogged (e : Event) : Bool :=
  match e.kind with
  | .decoderResult => !(e.code == 6 || (e.code == 0 && e.detail.getD 1 0 == 0))
  | .stripeResult => e.code != 0
  | _ => true

/-- DETAIL of a record: that of R393 for sparing events, else four bytes a value (log 44). -/
def eventDetail (e : Event) : List Byte :=
  let l :=
    match e.kind, e.detail with
    | .sparing, [left, entered, cause, st] => leBytes 2 left ++ leBytes 2 entered ++ leBytes 6 cause ++ leBytes 1 st
    | _, l => (l.map (leBytes 4)).flatten
  bytesAt l 0 16

/-- The 32 bytes of an event record. -/
def eventRecord (e : Event) : List Byte :=
  leBytes 6 e.esn.toNat ++ leBytes 6 e.rcpt.toNat ++ leBytes 1 (eventSource e.kind) ++ leBytes 1 e.unit ++ leBytes 2 e.code
    ++ eventDetail e

/-- A log as it stands: bytes per record, capacity, the records oldest first with the number of those before the oldest, and
the oldest and newest ESN; `ring` logs show NEXT. -/
structure LogView where
  recSize : Nat
  capacity : Nat
  ring : Bool
  skipped : Nat
  records : List (List Byte)
  oldest : Nat
  newest : Nat

/-- The newest `cap` of a list kept newest first, oldest first, with the number left out. -/
def ringOf {α : Type} (cap : Nat) (l : List α) : Nat × List α := (l.length - cap, (l.take cap).reverse)

/-- The record of a class in log 0x04 (R392). -/
def Dev.classRecord (d : Dev) (c : Nat) : List Byte :=
  let out : Bool := match d.spr.cycle with
    | some y => y.cls == c
    | none => false
  let b (x : Bool) (v : Nat) : Nat := if x then v else 0
  let flags := b (d.maskBit Fld.SPR_STATUS_ATTENTION c) 1 + b (d.maskBit Fld.SPR_STATUS_DEPLETED c) 2
    + b (!d.classPresent c) 4 + b out 8
  let retired :=
    if c = 9 then 8 * 32 - ((List.range 8).map fun k => d.fld (Fld.CACHE_SPARE_FREE k)).foldl (· + ·) 0
      + ((List.range 8).map fun k => d.fld (Fld.CACHE_SPARE_DISABLED k)).foldl (· + ·) 0
    else if c = 10 then d.fld Fld.MEM_SPARE_RETIRED
    else if c = 13 then (d.validLayers.map fun r => r.defects.length).foldl (· + ·) 0
    else ((List.range (classUnits c)).filter fun u => d.dead c u).length
  leBytes 1 c ++ leBytes 1 flags ++ leBytes 2 (d.units? c) ++ leBytes 2 (classRequired c) ++ leBytes 2 (d.inService c)
    ++ leBytes 2 (d.spares c) ++ leBytes 2 (d.fld (Fld.SPR_CLASS_THR_THRESHOLD (c - 1))) ++ leBytes 2 retired ++ [0, 0]
    ++ leBytes 4 (Tab.get (fun _ => 0) d.spr.subst c) ++ leBytes 6 (Tab.get (fun _ => 0) d.spr.lastSubst c) ++ zeroBytes 6

/-- The counter registers of BAR0 in address order (R343). -/
def counterAddrs : List Nat :=
  let r8 (f : Nat → Nat) : List Nat := (List.range 8).map f
  let units (n : Nat) (f : Nat → Nat → Nat) : List Nat := ((List.range n).map fun u => r8 (f u)).flatten
  r8 Adr.PWR_CNT ++ units 5 Adr.CHN_CNT ++ r8 Adr.KD_CNT ++ units 15 (fun u => Adr.CHN_CNT (u + 5))
    ++ units 2 Adr.DEC_CNT ++ units 2 Adr.STR_CNT ++ units 2 Adr.WP_CNT ++ units 8 Adr.ARC_CNT ++ r8 Adr.MOT_CNT
    ++ units 2 Adr.SRV_CNT ++ units 12 Adr.SPP_CNT ++ r8 Adr.SPR_CNT ++ r8 Adr.CACHE_CNT ++ r8 Adr.MEM_CNT
    ++ r8 Adr.HQ_CNT ++ r8 Adr.SEC_CNT ++ r8 Adr.RING_CNT

/-- The record of the self-test (R334, R343; its layout: log 45). -/
def Dev.testRecord (d : Dev) : List Byte :=
  let t := d.host.test
  let st := if t.running then 1 else 0
  let outcome := if t.kind = 0 then 0 else if t.running then 1 else if t.stopped then 2 else 3
  leBytes 1 st ++ leBytes 1 outcome ++ leBytes 2 t.kind ++ leBytes 4 0 ++ leBytes 6 t.start.toNat ++ leBytes 6 t.finish.toNat
    ++ zeroBytes 44

/-- The audit records held, oldest first: those of the NOR's area and those still on chip. -/
def Dev.auditRecords (d : Dev) : List (List Byte) :=
  let seq := d.fld Fld.SEC_AUDIT_SEQ_SEQ
  let n := min seq auditCapacity
  let onChip (s : Nat) : Option (List Byte) := d.sec.audit.ring.find? fun r => fieldAt r 12 4 == s
  (List.range n).map fun i =>
    let s := seq - n + 1 + i
    (onChip s).getD (Tab.get (fun _ => []) d.sec.audit.nor (s % auditCapacity))

/-- A log by its LOG_ID. -/
def Dev.logView (d : Dev) (id : Nat) : LogView :=
  if id = 1 then
    let r := ringOf 262144 (d.log.filter eventLogged)
    ⟨32, 262144, true, r.1, r.2.map eventRecord, (r.2.head?.map (·.esn.toNat)).getD 0, (r.2.getLast?.map (·.esn.toNat)).getD 0⟩
  else if id = 2 then
    let r := ringOf 4096 d.host.lost
    ⟨24, 4096, true, r.1,
     r.2.map fun b => leBytes 4 b.nsid ++ leBytes 8 b.lba ++ leBytes 6 b.rcpt.toNat ++ leBytes 6 b.esn.toNat,
     (r.2.head?.map (·.esn.toNat)).getD 0, (r.2.getLast?.map (·.esn.toNat)).getD 0⟩
  else if id = 3 then ⟨64, 1, false, 0, [d.testRecord], d.host.test.start.toNat, d.host.test.finish.toNat⟩
  else if id = 4 then
    ⟨32, 15, false, 0, (List.range 15).map fun i => d.classRecord (i + 1), d.esn.toNat, d.esn.toNat⟩
  else if id = 5 then
    let l := d.auditRecords
    ⟨128, auditCapacity, true, d.fld Fld.SEC_AUDIT_SEQ_SEQ + 1 - l.length, l,
     (l.head?.map fun r => fieldAt r 0 6).getD 0, (l.getLast?.map fun r => fieldAt r 0 6).getD 0⟩
  else if id = 6 then
    ⟨4, counterAddrs.length, false, 0, counterAddrs.map fun a => leBytes 4 (d.reg a).toNat, d.esn.toNat, d.esn.toNat⟩
  else ⟨32, 256 * 64, false, 0, d.host.ns.map fun e => extentEntry e (d.mapOffset e), d.esn.toNat, d.esn.toNat⟩

/-- Length of a log in bytes: a ring log that has wrapped stands whole. -/
def LogView.length (v : LogView) : Nat :=
  64 + v.recSize * (if v.ring ∧ 0 < v.skipped then min v.capacity (v.skipped + v.records.length) else v.records.length)

/-- The header of a log. -/
def LogView.header (v : LogView) (id : Nat) : List Byte :=
  leBytes 1 id ++ [1] ++ leBytes 2 v.recSize ++ leBytes 4 v.capacity
    ++ leBytes 4 (if v.ring then (v.skipped + v.records.length) % v.capacity else 0) ++ leBytes 6 v.oldest
    ++ leBytes 6 v.newest ++ zeroBytes 40

/-- The record that stands at place i of a log: of a ring log the one whose number is i modulo the capacity. -/
def LogView.at (v : LogView) (i : Nat) : List Byte :=
  let n := v.records.length
  let k := if v.ring then (i + v.capacity - v.skipped % v.capacity) % v.capacity else i
  if k < n then v.records.getD k [] else zeroBytes v.recSize

/-- n bytes of a log from byte k; zeros beyond its end. -/
def Dev.logBytes (d : Dev) (id k n : Nat) : List Byte :=
  let v := d.logView id
  let head := v.header id
  let first := (k - 64) / v.recSize
  let count := n / v.recSize + 2
  let recs := ((List.range count).map fun i => bytesAt (v.at (first + i)) 0 v.recSize).flatten
  let inHead := bytesAt head k (min n (64 - k))
  let body := bytesAt recs (k - 64 - first * v.recSize) (n - inHead.length)
  let l := inHead ++ body
  (l.take (v.length - k)) ++ zeroBytes (n - (l.take (v.length - k)).length)

/-- Records of the audit log that a reader has been given count as exported (R409). -/
def Dev.exportAudit (d : Dev) (id k n : Nat) : Dev :=
  if id ≠ 5 then d
  else
    let v := d.logView 5
    let lo := v.skipped
    let seen := (List.range v.records.length).filter fun i =>
      let p := 64 + v.recSize * ((lo + i) % v.capacity)
      k ≤ p && p + v.recSize ≤ k + n
    let top := match seen.getLast? with
      | some i => lo + i
      | none => 0
    { d with sec := { d.sec with audit := { d.sec.audit with exported := max d.sec.audit.exported top } } }.judgeAudit

end Sys2Proof.Machine
end

