-- ==== Sys2Proof/Machine/HostCmd.lean ====
section
/-! DEFINITION. The native commands, power states, and function resets (R305 to R307, R326 to R348). -/

namespace Sys2Proof.Machine

/-! ## Running a command -/

/-- The command in flight that a reference names. -/
def Dev.findCmd (d : Dev) (c : CmdRef) : Option HostCmd :=
  d.host.cmds.find? fun x => x.qp == c.qp.val && x.tag == c.tag.toNat && !d.host.held.any fun h => h.qp == x.qp && h.rcpt == x.rcpt

/-- A command is recorded and completes. -/
def Dev.complete (d : Dev) (c : HostCmd) (v : HostStatus) : Dev := (d.recordCmd c v).finish c v

/-- A command of an OPCODE runs: one that failed a check completes with that status, and none runs during a function
reset. -/
def Dev.command (d : Dev) (ref : CmdRef) (op : Nat) (f : Dev → HostCmd → Dev) : Dev :=
  match d.findCmd ref with
  | none => d
  | some c =>
    if entOpcode c.entry ≠ op ∨ d.bit Fld.HQ_STATUS_RESETTING then d
    else
      match c.verdict with
      | some v => d.complete c v
      | none => f d c

/-- A medium command acts on its entry: it waits while the spindle starts, and completes NO_MEDIUM where the start that it waited for has failed (R481,
R339). -/
def Dev.mediumCommand (d : Dev) (ref : CmdRef) (op : Nat) (f : Dev → HostCmd → Dev) : Dev :=
  d.command ref op fun d x =>
    if x.rcpt.toNat < d.mot.spn.failedAt.toNat then d.complete x ⟨stNoMedium, 0, 0⟩
    else if d.spinStarting then d else f d x

/-- Commands in flight other than one. -/
def Dev.others (d : Dev) (c : HostCmd) : List HostCmd := d.host.cmds.filter fun x => !(x.qp == c.qp && x.rcpt == c.rcpt)

/-- A command whose OPCODE is not listed completes INVALID_OPCODE. -/
def execInvalidOpcode (c : CmdRef) (s : State) : Host.Outcome State Fault Refusal :=
  s.on fun d =>
    match d.findCmd c with
    | none => d
    | some x => if (entOpcode x.entry = 0 ∨ 0xc < entOpcode x.entry) ∧ !d.bit Fld.HQ_STATUS_RESETTING then
        d.complete x ⟨stInvalidOpcode, 0, 0⟩ else d

/-! ## Power states (R339 to R341, R442) -/

def Dev.ps (d : Dev) : Nat := d.fld Fld.HQ_STATUS_PS

/-- The layer records whose map is newer than the medium's are written (R337). -/
def Dev.writeMaps (d : Dev) : Dev :=
  (d.each d.host.mapDirty fun d k => d.writeRecord (k / 8) (k % 8)).onHost fun h => { h with mapDirty := [] }

/-! ### Whole stripes to the medium (R60) -/

def blockKey (ns lba : Nat) : Nat := 2 ^ 40 * ns + lba

/-- The metadata of a data frame names a block of a namespace (R49). -/
def frameNames (l : List Byte) (ns lba : Nat) : Bool := fieldAt l 4096 4 == ns && fieldAt l 4100 8 == lba

/-- Block lba of a namespace as its frame stands on the medium, at the slot that serves its stripe (R57, R59). -/
def Dev.blockLaid (d : Dev) (ns lba : Nat) : Option (List Byte) :=
  ((walkExtents (d.extents ns) (lba / 24)).bind fun r => homeOf r.1.side r.1.layer r.2).bind fun home =>
    ((d.frameLaid (d.servingSlot home) (lba % 24)).filter fun l => frameNames l ns lba).map fun l => l.take 4096

/-- A staged block of a namespace. -/
def Dev.stagedBlock (d : Dev) (ns lba : Nat) : Option BlockSt :=
  ((d.host.blocks.find? fun e => e.1 == blockKey ns lba).map (·.2)).filter (·.staged)

/-- The bytes of a staged block, and whether the buffer marks any of them (R19, R297). -/
def Dev.stagedBytes (d : Dev) (b : BlockSt) : List Byte × Bool :=
  (d.bufRead (b.page * pageBytes) 4096, d.anyPoison (b.page * pageBytes) 4096)

/-- The 24 blocks of a stripe of a namespace as a write is to record them: as staged, else as the medium holds them, else what its read gives,
which no command brings (free values, log 3); beside each, whether it is poisoned. -/
def Dev.mergeBlocks (d : Dev) (ns k : Nat) : List (List Byte × Bool) :=
  (List.range 24).map fun j => match d.stagedBlock ns (24 * k + j), d.blockLaid ns (24 * k + j) with
    | some b, _ => d.stagedBytes b
    | none, some l => (l, false)
    | none, none => ((d.drewMany (4096 * j)).freeBytes 4096, false)

/-- The 24 data frames of a stripe of a namespace, of one WESN (R49, R60, R297). -/
def Dev.stripeFrames (d : Dev) (ns k home : Nat) : List (List Byte) :=
  let s : StripeJob := { op := 2, verify := false, scrub := false, addr := home, home := home, nsid := ns, lba0 := 24 * k, buf := 0,
                         rcpt := d.esn, esn := d.esn, engine := addrSide home, task := 0 }
  (d.mergeBlocks ns k).zipIdx.map fun e => dataFrame (bytesAt e.1.1 0 4096 ++ encodeMeta s e.2) e.1.2

/-- A stripe of a namespace is merged and written whole, at the slot that serves its home slot (R57, R60). -/
def Dev.recordStripe (d : Dev) (ns k : Nat) : Dev :=
  match (walkExtents (d.extents ns) k).bind fun r => homeOf r.1.side r.1.layer r.2 with
  | none => d
  | some home => (d.stripeWrite (d.servingSlot home) (d.stripeFrames ns k home)).drewMany (24 * 4096)

/-- The stripes with staged blocks that p names. -/
def Dev.stagedStripes (d : Dev) (p : Nat → BlockSt → Bool) : List (Nat × Nat) :=
  ((d.host.blocks.filter fun e => e.2.staged && p e.1 e.2).map fun e => (e.1 / 2 ^ 40, e.1 % 2 ^ 40 / 24)).eraseDups

/-- Staged blocks that p names reach the medium, each with its stripe. -/
def Dev.unstage (d : Dev) (p : Nat → BlockSt → Bool) : Dev :=
  let d := d.each (d.stagedStripes p) fun d k => d.recordStripe k.1 k.2
  d.onHost fun h => { h with blocks := h.blocks.map fun e => (e.1, if p e.1 e.2 then { e.2 with staged := false } else e.2) }

def Dev.flushAll (d : Dev) : Dev := (d.unstage fun _ _ => true).writeMaps

/-- Heads leave their tracks, with lasers off. -/
def Dev.headsOff (d : Dev) : Dev :=
  d.each [0, 1] fun d h => (d.headOff h).each (headSlices h) fun d n =>
    d.sliceSetMode n 0

/-- The standby ROOT core is off in PS3 (R442). -/
def Dev.standbyOff (d : Dev) : Dev :=
  if d.bit Fld.CLK_STATUS_ACTIVE then d.putBit Fld.CLK_STATUS_LOCK0 false else d.putBit Fld.CLK_STATUS_LOCK1 false

/-- The last step of an entry: what a power state stops. -/
def Dev.psApply (d : Dev) (target : Nat) : Dev :=
  let was := d.ps
  if target = 0 then d.toPs0
  else
    let d := d.takePs target
    let d := d.when (was = 0) fun d => d.onHost fun h => { h with spinTarget := d.fld Fld.SPN_TARGET_TARGET }
    if target = 1 then
      (d.each (List.range 20) fun d n => d.sliceSetMode n 0).spinTo d.host.idleRpm
    else
      let d := (((d.flushAll).headsOff).parkSleds).spinTo 0
      let d := d.when (3 ≤ target) fun d => (d.standbyOff).stageOff
      d.when (target = 4) fun d =>
        let d := d.closeBypass
        { (d.setReg Adr.HQ_LINK 0).putBit Fld.MEM_STATUS_TRAINED false with mem := {} }

/-- An entry to a power state begins; staged stripes are written first (R340). -/
def Dev.psBegin (d : Dev) (target : Nat) (cmd : Option CmdRef) : Dev :=
  let d := d.when (2 ≤ target && !d.supplyFailed) fun d => d.flushAll
  (d.putBit Fld.HQ_STATUS_PS_ENTRY true).onHost fun h => { h with entry := some ⟨target, cmd, false⟩ }

/-- An entry in progress is given up. -/
def Dev.psCancel (d : Dev) : Dev := (d.onHost fun h => { h with entry := none }).putBit Fld.HQ_STATUS_PS_ENTRY false

/-- POWER_STATE: one with a later one in flight gives way to it; the latest completes those, and its entry takes the place of any
other (R340). -/
def execPowerState (c : CmdRef) (s : State) : Host.Outcome State Fault Refusal :=
  s.on fun d => d.command c 8 fun d x =>
    let rivals := (d.others x).filter fun y => entOpcode y.entry == 8 && y.verdict.isNone
    if rivals.any fun y => decide (x.rcpt.toNat < y.rcpt.toNat) then d.complete x ⟨stDone, d.ps, 1⟩
    else
      let target := entArg x.entry 0 1
      let left := d.ps
      if target = 0 then
        (((d.psCancel).psApply 0).each rivals fun d y => d.complete y ⟨stDone, left, 1⟩).complete x (doneWith left)
      else if d.host.entry.any fun p => p.cmd == some c then d
      else (d.each rivals fun d y => d.complete y ⟨stDone, left, 1⟩).psBegin target (some c)

/-- An entry reaches its end: with commands received meanwhile, or still in flight, it starts again, and a flush waits for the
supply (R61); else the state is
entered, and POWER_STATE completes with the state left (R341). A function in D3hot then goes on to PS3 (R340). -/
def execPsEntryDone (s : State) : Host.Outcome State Fault Refusal :=
  s.on fun d =>
    match d.host.entry with
    | none => d
    | some p =>
      let mine := p.cmd.bind d.findCmd
      let busy : Bool := match mine with
        | some x => !(d.others x).isEmpty
        | none => !d.host.cmds.isEmpty
      if p.disturbed || busy || (2 ≤ p.target && d.supplyFailed) then d.onHost fun h => { h with entry := some { p with disturbed := false } }
      else
        let left := d.ps
        let d := d.psCancel
        let d := match mine with
          | some x => d.complete x (doneWith left)
          | none => d
        ((d.psApply p.target).kdEntryDone).when (d.host.d3hot && p.target < 3) fun d => d.psBegin 3 none

/-- The idle time before PS1 or PS2 passes; an idle time of 0 is off (R345). -/
def execPowerIdleTimeout (deep : Bool) (s : State) : Host.Outcome State Fault Refusal :=
  s.on fun d =>
    let ms := if deep then d.host.powerIdle / 2 ^ 32 else d.host.powerIdle % 2 ^ 32
    let target := if deep then 2 else 1
    d.when (ms != 0 && d.host.cmds.isEmpty && d.host.entry.isNone && d.ps < target) fun d => d.psBegin target none

/-- An entry that a command has begun. -/
def Dev.commanded (d : Dev) : Bool := d.host.entry.any fun p => p.cmd.isSome

/-- The function is placed in D3hot: PS3 is entered once every command in flight has completed. -/
def execD3hotEntry (s : State) : Host.Outcome State Fault Refusal :=
  s.on fun d => (d.onHost fun h => { h with d3hot := true }).when (d.ps < 3 && !d.commanded) fun d => d.psBegin 3 none

/-- The function returns to D0, which gives PS2 from PS3; before that, the entry that D3hot has begun is given up. -/
def execD0Return (s : State) : Host.Outcome State Fault Refusal :=
  s.on fun d =>
    if !d.host.d3hot then d
    else
      let d := d.onHost fun h => { h with d3hot := false }
      if 3 ≤ d.ps then d.takePs 2 else d.when (!d.commanded) fun d => d.psCancel

/-! ## READ and WRITE (R326 to R330, R337) -/

def mapKey (e : NsExtent) (k : Nat) : Nat := 2 ^ 32 * (8 * e.side + e.layer) + k

/-- Where a block lies: its extent, logical stripe and data frame (R59). -/
def Dev.blockPlace (d : Dev) (ns lba : Nat) : Option (NsExtent × Nat × Nat) :=
  (walkExtents (d.extents ns) (lba / 24)).map fun r => (r.1, r.2, lba % 24)

/-- A block as a READ delivers it, none where the medium or the buffer cannot deliver it: staged data from staging, unless the buffer marks them; a
stripe never written as zeros; else as the medium answers, or where no answer is given as it stands there (R297, R328 to R330). -/
def Dev.readBlock (d : Dev) (ns lba : Nat) (answers : List StripeAnswer) : Option (List Byte) :=
  match d.stagedBlock ns lba, d.blockPlace ns lba with
  | some b, some _ =>
    let r := d.stagedBytes b
    if r.2 then none else some r.1
  | none, some (e, k, j) =>
    if !Tab.get (fun _ => false) d.host.written (mapKey e k) then some (zeroBytes 4096)
    else
      match answers.find? fun a => a.stripe == lba / 24 with
      | some a => if a.failed.getLsbD j then none else some (bytesAt (a.data.getD j []) 0 4096)
      | none => d.blockLaid ns lba
  | _, none => none

/-- A command's data pages, or the status of its chain list (R318). -/
def Dev.dataPages (d : Dev) (x : HostCmd) : Option (List Nat) := d.chainPages (entChain x.entry) (entNlb x.entry)

/-- No disc serves a side that blocks of a namespace lie on. -/
def Dev.outOfService (d : Dev) (x : HostCmd) : Bool :=
  ((nsStripes (entLba x.entry) (entNlb x.entry)).filterMap fun k =>
    (walkExtents (d.extents (entNsid x.entry)) k).map (·.1.side)).any d.noMedium

def Dev.doRead (d : Dev) (x : HostCmd) (answers : List StripeAnswer) : Dev :=
  let ns := entNsid x.entry
  let lba := entLba x.entry
  match d.dataPages x with
  | none => d.complete x (badField 24 rsChain)
  | some ps =>
    let got := (List.range (entNlb x.entry)).map fun i => d.readBlock ns (lba + i) answers
    let lost := (got.zipIdx.filter fun e => e.1.isNone).map fun e => lba + e.2
    let d := d.each (ps.zip got) fun d e => d.hostWrite e.1 (e.2.getD (zeroBytes 4096))
    let esn := d.esn
    let d := d.onHost fun h => { h with lost := (lost.reverse.map fun l => (⟨ns, l, x.rcpt, esn⟩ : LostBlock)) ++ h.lost }
    match lost with
    | [] => d.complete x (doneWith 0)
    | l :: _ => d.complete x ⟨stUnrecovered, l, min 65535 lost.length⟩

def execRead (c : CmdRef) (stripes : List StripeAnswer) (s : State) : Host.Outcome State Fault Refusal :=
  s.on fun d => d.mediumCommand c 1 fun d x =>
    if d.outOfService x then d.complete x ⟨stNoMedium, 0, 0⟩ else (d.wake).doRead x stripes

/-- The first page of the staging area. Where the area lies is the firmware's choice, which the spec does not give: the model takes the last 2^18
usable pages (DESIGN CHOICE, log 161). -/
def Dev.stagingBase (d : Dev) : Nat := d.fld Fld.MEM_SIZE_PAGES - 2 ^ 18

/-- The page of the buffer that a block is staged in: its own, else the first of the staging area that no staged block holds (log 161). -/
def Dev.stagePage (d : Dev) (key : Nat) : Nat :=
  let used := (d.host.blocks.filter fun e => e.2.staged).map fun e => (e.1, e.2.page)
  match used.find? fun e => e.1 == key with
  | some e => e.2
  | none =>
    let base := d.stagingBase
    base + ((List.range (used.length + 1)).find? fun k => !(used.map (·.2)).contains (base + k)).getD 0

/-- A block is staged in the buffer, under its memory codes; the WRITE with the greater receipt ESN stands (R19, R328). -/
def Dev.stageBlock (d : Dev) (key : Nat) (rcpt : Esn) (bytes : List Byte) : Dev :=
  let later := (d.host.blocks.find? fun e => e.1 == key).any fun e => decide (rcpt.toNat < e.2.rcpt.toNat)
  if later then d
  else
    let page := d.stagePage key
    (d.bufWrite (page * pageBytes) bytes).onHost fun h => { h with blocks := Tab.set (fun _ => ⟨0, 0, false⟩) h.blocks key ⟨rcpt, page, true⟩ }

/-- The first WRITE to a stripe of a namespace: its map bit is set, its layer record is then older than the map, and its other blocks are
zeros, which its whole-stripe write carries (R60, R63, R337). -/
def Dev.markWritten (d : Dev) (ns s : Nat) (e : NsExtent) (k : Nat) : Dev :=
  if Tab.get (fun _ => false) d.host.written (mapKey e k) then d
  else
    let l := 8 * e.side + e.layer
    let d := d.each (List.range 24) fun d j => d.stageBlock (blockKey ns (24 * s + j)) 0 (zeroBytes 4096)
    d.onHost fun h => { h with
      written := Tab.set (fun _ => false) h.written (mapKey e k) true
      mapDirty := if h.mapDirty.contains l then h.mapDirty else h.mapDirty ++ [l] }

def Dev.doWrite (d : Dev) (x : HostCmd) : Dev :=
  let ns := entNsid x.entry
  let lba := entLba x.entry
  let fua := (entFlags x.entry).testBit 0
  match d.dataPages x with
  | none => d.complete x (badField 24 rsChain)
  | some ps =>
    let stripes := nsStripes lba (entNlb x.entry)
    let d := d.each stripes fun d k =>
      match walkExtents (d.extents ns) k with
      | some (e, st) => d.markWritten ns k e st
      | none => d
    let d := d.each (ps.zipIdx) fun d e => d.stageBlock (blockKey ns (lba + e.2)) x.rcpt (d.hostRead e.1 4096)
    let d := d.when fua fun d => (d.unstage fun b _ => b / 2 ^ 40 == ns && stripes.contains (b % 2 ^ 40 / 24)).writeMaps
    d.complete x (doneWith 0)

/-- WRITE; one with FUA waits while the supply alarm keeps stripe writes from starting (R61). -/
def execWrite (c : CmdRef) (s : State) : Host.Outcome State Fault Refusal :=
  s.on fun d => d.mediumCommand c 2 fun d x =>
    if d.outOfService x then d.complete x ⟨stNoMedium, 0, 0⟩
    else if (entFlags x.entry).testBit 0 && d.supplyFailed then d
    else (d.wake).doWrite x

/-- A WRITE in flight that a FLUSH covers. -/
def Dev.flushWaits (d : Dev) (x : HostCmd) : Bool :=
  let ns := entNsid x.entry
  (d.others x).any fun y => entOpcode y.entry == 2 && y.verdict.isNone && decide (y.rcpt.toNat < x.rcpt.toNat) &&
    (ns == 0xffffffff || entNsid y.entry == ns)

/-- FLUSH waits for the covered WRITEs in flight, and while a hardware trip or a supply alarm stands (R61, R446); then their
stripes and the maps are on the medium (R331). -/
def execFlush (c : CmdRef) (s : State) : Host.Outcome State Fault Refusal :=
  s.on fun d => d.command c 3 fun d x =>
    if d.flushWaits x || d.bit Fld.MON_THERM_TRIP || d.supplyFailed then d
    else
      let ns := entNsid x.entry
      let d := (d.unstage fun k b => (ns == 0xffffffff || k / 2 ^ 40 == ns) && decide (b.rcpt.toNat < x.rcpt.toNat)).writeMaps
      d.complete x (doneWith 0)

/-! ## ABORT (R332, R333) -/

/-- A command's CPL is in flight, or its entry waits for space. -/
def Dev.claimed (d : Dev) (y : HostCmd) : Bool :=
  (d.span.dmas.any fun o => o.kind == dmaCplKind && o.rcpt == y.rcpt) ||
    d.host.held.any fun h => h.qp == y.qp && h.rcpt == y.rcpt

/-- The completion of a command is reserved: a check has given it its status, or it is claimed (R324, R332). -/
def Dev.reserved (d : Dev) (y : HostCmd) : Bool := y.verdict.isSome || d.claimed y

def execAbort (c : CmdRef) (s : State) : Host.Outcome State Fault Refusal :=
  s.on fun d => d.command c 4 fun d x =>
    let q := entArg x.entry 0 2
    let tag := entArg x.entry 2 2
    match d.host.cmds.find? fun y => y.qp == q && y.tag == tag with
    | none => (d.count (Adr.HQ_CNT 4)).complete x ⟨stMissed, 0, 0⟩
    | some y =>
      if entOpcode y.entry = 4 then d.complete x (badField 32 rsState)
      else if d.reserved y then (d.count (Adr.HQ_CNT 4)).complete x ⟨stMissed, 0, 0⟩
      else ((d.complete y ⟨stAborted, 0, 0⟩).count (Adr.HQ_CNT 3)).complete x (doneWith 0)

/-! ## SELF_TEST (R334) -/

/-- A self-test starts. -/
def Dev.startTest (d : Dev) (kind : Nat) (x : HostCmd) : Dev :=
  if entArg x.entry 0 1 ≠ kind then d
  else if d.host.test.running then d.complete x (badField 32 rsState)
  else
    let e := d.esn
    let d := (d.eventFor x.rcpt .host 0 0x100 [kind]).onHost fun h => { h with
      test := { kind := kind, running := true, stopped := false, start := e, finish := 0 } }
    d.complete x (doneWith 0)

def execSelfTestShort (c : CmdRef) (s : State) : Host.Outcome State Fault Refusal :=
  s.on fun d => d.command c 5 fun d x => d.startTest 1 x

def execSelfTestExtended (c : CmdRef) (s : State) : Host.Outcome State Fault Refusal :=
  s.on fun d => d.mediumCommand c 5 fun d x =>
    if entArg x.entry 0 1 = 2 ∧ d.noMedium 0 then d.complete x ⟨stNoMedium, 0, 0⟩ else d.startTest 2 x

def execSelfTestStop (c : CmdRef) (s : State) : Host.Outcome State Fault Refusal :=
  s.on fun d => d.command c 5 fun d x =>
    if entArg x.entry 0 1 ≠ 0xf then d
    else
      let e := d.esn
      let d := d.when d.host.test.running fun d => (d.eventFor x.rcpt .host 0 0x101 []).onHost fun h => { h with
        test := { h.test with running := false, stopped := true, finish := e } }
      d.complete x (doneWith 0)

/-! ## Namespaces (R335, R338) -/

/-- Extent i of a host page. -/
def pageExtent (page : List Byte) (ns i : Nat) (e : Esn) : NsExtent :=
  let l := bytesAt page (16 * i) 16
  { nsid := ns, index := i, side := fieldAt l 0 1 % 2, layer := fieldAt l 0 1 / 2 % 8, first := fieldAt l 4 4
    count := fieldAt l 8 4, pairFirst := (fieldAt l 1 1).testBit 0, pairSecond := false, createEsn := e }

/-- Extents with the second of each pair marked. -/
def markPairs : List NsExtent → List NsExtent
  | a :: b :: es => if a.pairFirst then a :: { b with pairSecond := true } :: markPairs es else a :: markPairs (b :: es)
  | l => l

/-- Pairs are a side 0 extent and a side 1 extent of equal count. -/
def pairsOk : List NsExtent → Bool
  | [] => true
  | [a] => !a.pairFirst
  | a :: b :: es =>
    if a.pairFirst then a.side == 0 && b.side == 1 && a.count == b.count && !b.pairFirst && pairsOk es
    else pairsOk (b :: es)

def overlap (a b : NsExtent) : Bool :=
  a.side == b.side && a.layer == b.layer && decide (a.first < b.first + b.count) && decide (b.first < a.first + a.count)

/-- Two extents of a list overlap. -/
def selfOverlap : List NsExtent → Bool
  | [] => false
  | a :: es => es.any (overlap a) || selfOverlap es

/-- Reserved bytes of the extent entries. -/
def extentReserved (page : List Byte) (n : Nat) : Bool :=
  (List.range n).any fun i =>
    let l := bytesAt page (16 * i) 16
    15 < fieldAt l 0 1 || 1 < fieldAt l 1 1 || fieldAt l 2 2 != 0 || fieldAt l 12 4 != 0

/-- The status of an extent list, none where it may be created. -/
def Dev.checkExtents (d : Dev) (page : List Byte) (es : List NsExtent) : Option HostStatus :=
  if es.any fun e => d.nsidTaken e.nsid then some (badField 4 rsRange)
  else if extentReserved page es.length then some (badField 24 rsReserved)
  else if d.variantS && es.any fun e => e.side == 1 then some (badField 24 rsNotSupported)
  else if (es.any fun e => e.count == 0 || layerStripes < e.first + e.count) || !pairsOk es || selfOverlap es ||
      (es.any fun e => d.host.ns.any (overlap e)) then some (badField 24 rsRange)
  else if es.any fun e => d.noMedium e.side then some ⟨stNoMedium, 0, 0⟩
  else (d.unready es).map fun x => ⟨stNotReady, x, 0⟩

/-- The layer records of extents are written. -/
def Dev.writeRecords (d : Dev) (es : List NsExtent) : Dev :=
  d.each ((es.map fun e => 8 * e.side + e.layer).eraseDups) fun d k => d.writeRecord (k / 8) (k % 8)

/-- Map bits within an extent. -/
def inExtent (e : NsExtent) (k : Nat) : Bool := mapKey e e.first ≤ k && k < mapKey e e.first + e.count

/-- NS_CREATE; one that passes its checks waits while a supply alarm keeps stripe writes from starting (R61, R335). -/
def execNsCreate (c : CmdRef) (s : State) : Host.Outcome State Fault Refusal :=
  s.on fun d => d.mediumCommand c 6 fun d x =>
    match d.dataPages x with
    | none => d.complete x (badField 24 rsChain)
    | some ps =>
      let page := d.hostRead (ps.headD 0) 4096
      let es := markPairs ((List.range (entArg x.entry 0 1)).map fun i => pageExtent page (entNsid x.entry) i x.rcpt)
      match d.checkExtents page es with
      | some v => d.complete x v
      | none =>
        if d.supplyFailed then d else
        let d := d.wake.onHost fun h => { h with
          ns := h.ns ++ es, written := h.written.filter fun m => !es.any fun e => inExtent e m.1 }
        (d.writeRecords es).complete x (doneWith (d.nsCapacity (entNsid x.entry)))

/-- NS_DELETE waits for the commands to the NSID in flight, and while a supply alarm keeps stripe writes from starting (R61); then the
entries leave the layer records (R338). It ends NO_MEDIUM where its medium has been withdrawn meanwhile (R324). -/
def execNsDelete (c : CmdRef) (s : State) : Host.Outcome State Fault Refusal :=
  s.on fun d => d.mediumCommand c 7 fun d x =>
    let ns := entNsid x.entry
    if d.noDiscFor (d.extents ns) then d.complete x ⟨stNoMedium, 0, 0⟩
    else if ((d.others x).any fun y => decide (entOpcode y.entry ≤ 3) && entNsid y.entry == ns && y.verdict.isNone) || d.supplyFailed then d
    else
      let es := d.extents ns
      let d := d.wake.onHost fun h => { h with
        ns := h.ns.filter fun e => e.nsid != ns
        written := h.written.filter fun m => !es.any fun e => inExtent e m.1
        blocks := h.blocks.filter fun b => b.1 / 2 ^ 40 != ns }
      (d.writeRecords es).complete x (doneWith 0)

/-! ## User programs (R342) -/

/-- Live user tasks whose code a range overlaps. -/
def Dev.userOverlap (d : Dev) (off len : Nat) : List Nat :=
  ((List.range 8).map (· + 88)).filter fun t =>
    let r := Tab.get (fun _ => (0, 0)) d.host.userCode t
    d.taskLive t && decide (off < r.1 + r.2) && decide (r.1 < off + len)

/-- A task begins at its entry point with registers 0. -/
def Dev.beginTask (d : Dev) (t : Nat) : Dev :=
  (d.setTask t { pc := d.fld (Fld.SPP_TASK_ENTRY t) }).setTaskState t taskRunning

/-- Words are written to the code store. -/
def Dev.writeCode (d : Dev) (off : Nat) (l : List Byte) : Dev :=
  { d with span := { d.span with code := Tab.write (fun _ => 0) d.span.code off l } }

/-- The processor of a user task that is created: the one that the task table names, and where that has faulted the spare that takes from
it (R249, R273). -/
def Dev.homeUser (d : Dev) (t : Nat) : Dev :=
  let p := d.taskProc t
  if d.bit (Fld.SPP_STATUS_FAULT p) || d.dead 8 p then
    match d.spareFor p [t] with
    | some s => d.put (Fld.SPP_TASK_PROC t) s
    | none => d
  else d

def execLoadProgramUser (c : CmdRef) (s : State) : Host.Outcome State Fault Refusal :=
  s.on fun d => d.command c 9 fun d x =>
    let l := x.entry
    if entArg l 0 1 ≠ 1 then d
    else
      let len := entArg l 4 4
      let off := entArg l 8 4
      let t := entArg l 2 1
      let hit := d.userOverlap off len
      if !(entArg l 1 1).testBit 1 && !hit.isEmpty then d.complete x (badField 33 rsState)
      else
        match d.dataPages x with
        | none => d.complete x (badField 24 rsChain)
        | some ps =>
          let bytes := ((ps.map fun a => d.hostRead a 4096).flatten).take len
          let d := (d.writeCode off bytes).each hit fun d t => d.beginTask t
          let d := d.when ((entArg l 1 1).testBit 0) fun d =>
            let d := (if d.taskLive t then d else d.homeUser t).put (Fld.SPP_TASK_ENTRY t) (entArg l 12 4)
            let d := d.putBit (Fld.SPP_TASK_LIVE t) true
            let d := (d.putBit (Fld.SPP_TASK_USER t) true).onHost fun h => { h with
              userCode := Tab.set (fun _ => (0, 0)) h.userCode t (off, len) }
            (d.beginTask t).showContexts (d.taskProc t)
          d.complete x (doneWith 0)

/-! ## GET_LOG and SET_FEATURE (R343, R345) -/

def execGetLog (c : CmdRef) (s : State) : Host.Outcome State Fault Refusal :=
  s.on fun d => d.command c 0xa fun d x =>
    match d.dataPages x with
    | none => d.complete x (badField 24 rsChain)
    | some ps =>
      let id := entArg x.entry 0 1
      let start := 4096 * entArg x.entry 4 4
      let len := (d.logView id).length
      let pages := ps.zipIdx.map fun e => (e.1, d.logBytes id (start + 4096 * e.2) 4096)
      let d := d.each pages fun d e => d.hostWrite e.1 e.2
      (d.exportAudit id start (4096 * ps.length)).complete x (doneWith len)

/-- SET_FEATURE of one feature: GET returns the value, else it is set. -/
def Dev.feature (d : Dev) (c : CmdRef) (n : Nat) (get : Dev → Nat) (set : Dev → Nat → Dev) : Dev :=
  d.command c 0xb fun d x =>
    if entArg x.entry 0 1 ≠ n then d
    else if entArg x.entry 1 1 = 1 then d.complete x (doneWith (get d))
    else (set d (entArg x.entry 8 8)).complete x (doneWith 0)

def execSetFeaturePowerIdle (c : CmdRef) (s : State) : Host.Outcome State Fault Refusal :=
  s.on fun d => d.feature c 1 (fun d => d.host.powerIdle) fun d v => d.onHost fun h => { h with powerIdle := v }

def execSetFeatureIdleRpm (c : CmdRef) (s : State) : Host.Outcome State Fault Refusal :=
  s.on fun d => d.feature c 2 (fun d => d.host.idleRpm) fun d v =>
    (d.onHost fun h => { h with idleRpm := v }).when (d.ps = 1) fun d => d.spinTo v

def execSetFeatureSparePolicy (c : CmdRef) (s : State) : Host.Outcome State Fault Refusal :=
  s.on fun d => d.feature c 3 (fun d => d.fld Fld.SPR_POLICY_POLICY) fun d v => d.setPolicy v

def execSetFeatureAttention (c : CmdRef) (s : State) : Host.Outcome State Fault Refusal :=
  s.on fun d => d.command c 0xb fun d x =>
    if entArg x.entry 0 1 ≠ 4 then d
    else
      let cls := entArg x.entry 8 1
      if entArg x.entry 1 1 = 1 then
        d.complete x (doneWith (cls + 256 * d.fld (Fld.SPR_CLASS_THR_THRESHOLD (cls - 1))))
      else (d.setThreshold cls (entArg x.entry 9 2)).complete x (doneWith 0)

def execSetFeatureAutoConfirm (c : CmdRef) (s : State) : Host.Outcome State Fault Refusal :=
  s.on fun d => d.feature c 5 (fun d => d.fld Fld.UPD_CONFIRM_AUTO) fun d v => d.put Fld.UPD_CONFIRM_AUTO v

def execSetFeatureReadAhead (c : CmdRef) (s : State) : Host.Outcome State Fault Refusal :=
  s.on fun d => d.feature c 7 (fun d => d.host.readAhead) fun d v => d.onHost fun h => { h with readAhead := v }

/-- RESULT0 of the mode lock (R352). -/
def Dev.lockStatus (d : Dev) : Nat :=
  d.fld Fld.KD_STATUS_LOCK + 4 * d.fld Fld.KD_STATUS_LOCK_NEXT + 16 * d.fld Fld.KD_STATUS_STRAP

/-- A mode lock is applied under its endorsement, which serves once (R352, R404). -/
def Dev.applyLock (d : Dev) (lock : Nat) : Option Dev :=
  if d.sec.lockAuth = some lock then
    some { d.put Fld.KD_STATUS_LOCK_NEXT lock with sec := { d.sec with lockAuth := none } }
  else none

def execSetFeatureModeLock (c : CmdRef) (s : State) : Host.Outcome State Fault Refusal :=
  s.on fun d => d.command c 0xb fun d x =>
    if entArg x.entry 0 1 ≠ 6 then d
    else if entArg x.entry 1 1 = 1 then d.complete x (doneWith d.lockStatus)
    else
      match d.applyLock (entArg x.entry 8 8) with
      | some d => d.complete x (doneWith 0)
      | none => d.complete x ⟨stDenied, 0, roleInstaller⟩

/-! ## The link and function resets (R307, R347, R348) -/

/-- The generation of a link (R305). -/
def linkGen : UsbGen → Nat
  | .gen2 => 2
  | .gen3 => 3
  | .gen4 => 4

/-- The lanes of a link that both partners complete: Gen 2 and Gen 3 run on one or two, Gen 4 has two. -/
def linkLanes (gen : UsbGen) (both : Bool) : Nat :=
  match gen with
  | .gen2 | .gen3 => if both then 2 else 1
  | .gen4 => 2

/-- A link of three lanes one way and one the other: Gen 4 alone has that. -/
def linkAsym (gen : UsbGen) (asym : Bool) : Bool :=
  match gen with
  | .gen4 => asym
  | .gen2 | .gen3 => false

/-- The link trains, which ends step 9 of start-up; in native mode the PCIe tunnel comes up and the host attachment is
ready (R307, R431). -/
def execUsb4LinkUp (gen : UsbGen) (lanes asym : Bool) (s : State) : Host.Outcome State Fault Refusal :=
  s.on fun d =>
    let native : Bool := d.mode == 1
    let d := d.when (d.fld Fld.BOOT_STATUS_STEP == 8) fun d => d.put Fld.BOOT_STATUS_STEP 9
    let d := ((d.put Fld.HQ_LINK_GEN (linkGen gen)).put Fld.HQ_LINK_LANES (linkLanes gen lanes)).putBit Fld.HQ_LINK_ASYM (linkAsym gen asym)
    (d.putBit Fld.HQ_LINK_UP native).when native fun d => d.putBit Fld.HQ_STATUS_READY true

/-- A function reset begins: fetching stops, commands that have not started complete, or are dropped where completions are
not written; KD commands end with their transport. -/
def Dev.resetBegins (d : Dev) (silent : Bool) : Dev :=
  if d.bit Fld.HQ_STATUS_RESETTING then d.onHost fun h => { h with silent := h.silent || silent }
  else
    let d := ((d.putBit Fld.HQ_STATUS_RESETTING true).putBit Fld.HQ_STATUS_READY false).count (Adr.HQ_CNT 5)
    let d := (d.onHost fun h => { h with silent := silent, entry := none }).putBit Fld.HQ_STATUS_PS_ENTRY false
    let idle := d.host.cmds.filter fun c => !c.started && !d.claimed c
    if silent then d.onHost fun h => { h with cmds := h.cmds.filter fun c => !idle.contains c }
    else d.each idle fun d c => d.complete c ⟨stReset, 0, 0⟩

/-- The registers of the host queues return to their reset values: the pairs', HQ_CTRL's and HQ_STATUS's but for the power
state; counters, link and vectors stand (log 46). -/
def Dev.resetQueues (d : Dev) : Dev :=
  let d := d.each (List.range 64) fun d q => (d.each (List.range 7) fun d k =>
    d.setReg (0x101000 + 0x20 * q + 4 * k) (regReset (0x101000 + 0x20 * q + 4 * k))).setIntake q 0
  let ps := d.ps
  let d := (d.setReg Adr.HQ_STATUS 0).put Fld.HQ_STATUS_PS ps
  d.onHost fun h => { h with sqTail := [], cqHead := [], unsignalled := [], turn := 0, turnUsed := 0, held := [], cmds := [], silent := false }

/-- Every grant and lock of the host's holders ends (R396, R418). -/
def Dev.hostHoldersEnd (d : Dev) : Dev :=
  let d := (d.each (List.range 64) fun d q => d.when (d.pairOn q) fun d => d.pairEnds (BitVec.ofNat 6 q).toFin).endGrant .bar0
  d

/-- The end of a function reset: started commands have stopped, pairs are disabled and READY sets. -/
def Dev.resetEnds (d : Dev) : Dev :=
  let d := if d.host.silent then d
    else d.each (d.host.cmds.filter fun c => !d.claimed c) fun d c => d.complete c ⟨stReset, 0, 1⟩
  let dropped := d.host.held.length
  let d := d.dropCpls d.host.held
  let d := ((d.when (!d.host.silent) fun d => d.countBy (Adr.HQ_CNT 7) dropped).hostHoldersEnd).resetQueues
  (d.put Fld.HQ_INFLIGHT_COUNT 0).putBit Fld.HQ_STATUS_READY true

def execFunctionResetDone (s : State) : Host.Outcome State Fault Refusal :=
  s.on fun d => d.when (d.bit Fld.HQ_STATUS_RESETTING) fun d => d.resetEnds

/-- Completions of a queue that could not be written for 100 ms during a reset are dropped. -/
def execCompletionDropTimeout (q : QPair) (s : State) : Host.Outcome State Fault Refusal :=
  s.on fun d => d.when (d.bit Fld.HQ_STATUS_RESETTING) fun d =>
    let mine := d.host.held.filter fun c => c.qp == q.val
    let d := (d.dropCpls mine).onHost fun h => { h with
      held := h.held.filter fun c => c.qp != q.val
      cmds := h.cmds.filter fun c => !mine.any fun m => m.qp == c.qp && m.rcpt == c.rcpt }
    ((d.countBy (Adr.HQ_CNT 7) mine.length).showInflight q.val).putBit (Fld.HQ_QP_STATUS_CQ_FULL q.val) false

def execHqFreset (s : State) : Host.Outcome State Fault Refusal := s.on fun d => d.resetBegins false

/-- HQ_CTRL.ENABLE is written: 0 is a function reset. -/
def Dev.hqEnable (d : Dev) (on : Bool) : Dev :=
  let d := d.putBit Fld.HQ_CTRL_ENABLE on
  d.when (!on) fun d => d.resetBegins false

def execHqEnableWrite (on : Bool) (s : State) : Host.Outcome State Fault Refusal := s.on fun d => d.hqEnable on

/-- The PCIe tunnel is lost: a function reset without completions; a hot reset also returns the configuration space. -/
def execTunnelLoss (hotReset : Bool) (s : State) : Host.Outcome State Fault Refusal :=
  s.on fun d =>
    let d := d.resetBegins true
    if hotReset then d.onHost fun h => { h with d3hot := false } else d.setReg Adr.HQ_LINK 0

def execHqCntClr (s : State) : Host.Outcome State Fault Refusal :=
  s.on fun d => d.clearCounters Adr.HQ_CNT

end Sys2Proof.Machine
end

