-- ==== Sys2Proof/Machine/KdCode.lean ====
section
/-! DEFINITION. The codes of the KD medium: the Reed-Solomon codes over GF(2^8), the product code and the burst indicator,
sectors, and the modulation (R360, R361, R363). -/

namespace Sys2Proof.Machine

/-! ## Reed-Solomon codes over GF(2^8) -/

/-- Product over x^8 + x^4 + x^3 + x^2 + 1. -/
def gf8 (a b : Nat) : Nat := gfMul 8 0x11d a b

def gf8Pow (a n : Nat) : Nat := gfPow 8 0x11d a n

/-- The generator with roots α^0 to α^(n-1), highest coefficient first and without the leading 1. -/
def kdGenerator (n : Nat) : List Nat :=
  (((List.range n).foldl (fun g i => gfPolyMul 8 0x11d g (gf8Pow 2 i)) [1]).reverse).drop 1

/-- The parity symbols of information symbols taken highest coefficient first. -/
def rsParity (gen : List Nat) (info : List Nat) : List Nat :=
  info.foldl (fun reg s =>
    let f := s ^^^ reg.headD 0
    List.zipWith (fun r g => r ^^^ gf8 f g) (reg.drop 1 ++ [0]) gen) (List.replicate gen.length 0)

/-- The generator of the KD codes. -/
def kdGen : List Nat := kdGenerator 32

/-- The value of a word at x, highest coefficient first. -/
def gf8Eval (word : List Nat) (x : Nat) : Nat := word.foldl (fun acc s => gf8 acc x ^^^ s) 0

/-- The 32 syndromes of a word. -/
def kdSyndromes (word : List Nat) : List Nat := (List.range 32).map fun i => gf8Eval word (gf8Pow 2 i)

/-- Product of two polynomials modulo x^n, lowest coefficient first. -/
def polyMulMod (n : Nat) (a b : List Nat) : List Nat :=
  (List.range n).map fun k =>
    ((List.range (k + 1)).map fun i => gf8 (a.getD i 0) (b.getD (k - i) 0)).foldl (· ^^^ ·) 0

/-- The state of the Berlekamp-Massey algorithm: connection polynomial, the one before its last change, its length, the steps since, and
the discrepancy then. -/
structure BmState where
  c : List Nat
  b : List Nat
  l : Nat
  m : Nat
  d : Nat

/-- One step on syndrome n of a sequence. -/
def BmState.step (t : List Nat) (s : BmState) (n : Nat) : BmState :=
  let disc := ((List.range (s.l + 1)).map fun i => gf8 (s.c.getD i 0) (t.getD (n - i) 0)).foldl (· ^^^ ·) 0
  if disc = 0 then { s with m := s.m + 1 }
  else
    let k := gf8 disc (gfInv 8 0x11d s.d)
    let shift := List.replicate s.m 0 ++ s.b.map (gf8 k)
    let len := max s.c.length shift.length
    let c' := (List.range len).map fun i => s.c.getD i 0 ^^^ shift.getD i 0
    if 2 * s.l ≤ n then ⟨c', s.c, n + 1 - s.l, 1, disc⟩ else { s with c := c', m := s.m + 1 }

/-- The shortest connection polynomial of a sequence, with its length. -/
def berlekampMassey (t : List Nat) : List Nat × Nat :=
  let s := (List.range t.length).foldl (BmState.step t) ⟨[1], [1], 0, 1, 1⟩
  (s.c, s.l)

/-- The positions of an n-symbol word, the first highest, whose locators are roots of a locator polynomial. -/
def locatorRoots (n : Nat) (c : List Nat) : List Nat :=
  (List.range n).filter fun p =>
    let x := gf8Pow 2 ((255 - (n - 1 - p)) % 255)
    (c.reverse.foldl (fun acc s => gf8 acc x ^^^ s) 0) == 0

/-- A polynomial, lowest coefficient first, times 1 + y·x. -/
def locatorTimes (g : List Nat) (y : Nat) : List Nat := List.zipWith (· ^^^ ·) (g ++ [0]) (0 :: g.map (gf8 y))

/-- Decoding by errors and erasures: the corrected word and the symbols changed, none where it fails. -/
def rsDecode (word : List Nat) (era : List Nat) : Option (List Nat × Nat) :=
  let n := word.length
  let syn := kdSyndromes word
  if syn.all (· == 0) then some (word, 0)
  else if 32 < era.length then none
  else
    let loc (p : Nat) : Nat := gf8Pow 2 (n - 1 - p)
    let gamma := era.foldl (fun g p => locatorTimes g (loc p)) [1]
    let xi := polyMulMod 32 gamma syn
    let bm := berlekampMassey (xi.drop era.length)
    let errs := (locatorRoots n bm.1).filter fun p => !era.contains p
    if errs.length ≠ bm.2 ∨ 32 < 2 * errs.length + era.length then none
    else
      let ps := era ++ errs
      match gfSolve 8 0x11d (ps.map loc) syn with
      | none => none
      | some ys =>
        let fixed := (List.zip ps ys).foldl (fun w e => w.set e.1 (w.getD e.1 0 ^^^ e.2)) word
        some (fixed, (ys.filter (· != 0)).length)

/-! ## Sectors and blocks (R360, R361) -/

/-- The two address check symbols of a header's four address bytes. -/
def kdAddressCheck (addr : List Nat) : List Nat := rsParity (kdGenerator 2) addr

/-- A sector of 2,060 bytes: header and user data. -/
def kdSectorBytes (layer number : Nat) (user : List Byte) : List Byte :=
  let addr := leBytes 4 (layer * 2 ^ 28 + number % 2 ^ 28)
  let head := addr ++ (kdAddressCheck (addr.map (·.toNat))).map (BitVec.ofNat 8) ++ [0, 0]
  let data := bytesAt user 0 2048
  head ++ leBytes 4 (crc32 (data ++ head)) ++ data

/-- The 208 × 208 array of a block of 21 sectors, as rows. -/
def kdArray (layer block : Nat) (sectors : List (List Byte)) : List (List Nat) :=
  let l := ((List.range 21).map fun k => kdSectorBytes layer (21 * block + k) (sectors.getD k [])).flatten ++ zeroBytes 4
  chunks 208 208 (l.map (·.toNat))

/-- Column j of rows. -/
def columnOf (rows : List (List Nat)) (j : Nat) : List Nat := rows.map fun r => r.getD j 0

/-- The 240 rows of 240 bytes of the product code. -/
def kdProduct (array : List (List Nat)) : List (List Nat) :=
  let cols := (List.range 208).map fun j => rsParity kdGen (columnOf array j)
  let parity := (List.range 32).map fun i => columnOf cols i
  (array ++ parity).map fun r => r ++ rsParity kdGen r

/-- The 960 burst indicator bytes of a block. -/
def kdIndicator (layer block : Nat) : List Nat :=
  let words := (List.range 15).map fun w =>
    let info := (leBytes 4 block).map (·.toNat) ++ [layer, w] ++ List.replicate 26 0
    info ++ rsParity kdGen info
  (List.range 960).map fun u => (words.getD (u % 15) []).getD (u / 15) 0

/-- The 244 bytes of recording frame i. -/
def kdFrame (rows : List (List Nat)) (bis : List Nat) (i : Nat) : List Nat :=
  let r := rows.getD i []
  ((List.range 4).map fun k => bis.getD (4 * i + k) 0 :: (r.drop (60 * k)).take 60).flatten

/-! ## Modulation (R361) -/

/-- The channel bits of data bits, in pairs from the start of the frame. -/
def kdModulate : List Bool → List Bool
  | a :: false :: false :: d :: rest =>
    let head := match a, d with
      | false, false => [true, false, true]
      | false, true => [true, false, false]
      | true, false => [false, false, true]
      | true, true => [false, true, false]
    head ++ [false, false, false] ++ kdModulate rest
  | a :: b :: rest =>
    let head := match a, b with
      | false, false => [true, false, true]
      | false, true => [true, false, false]
      | true, false => [false, false, true]
      | true, true => [false, true, false]
    head ++ kdModulate rest
  | _ => []

/-- The pair of a three-bit group, none for a group that the table lacks. -/
def kdPair (x y z : Bool) : Option (Bool × Bool) :=
  match x, y, z with
  | true, false, true => some (false, false)
  | true, false, false => some (false, true)
  | false, false, true => some (true, false)
  | false, true, false => some (true, true)
  | _, _, _ => none

/-- The four data bits of a group that 000 follows. -/
def kdQuad (x y z : Bool) : Option (Bool × Bool × Bool × Bool) :=
  match x, y, z with
  | true, false, true => some (false, false, false, false)
  | true, false, false => some (false, false, false, true)
  | false, false, true => some (true, false, false, false)
  | false, true, false => some (true, false, false, true)
  | _, _, _ => none

/-- The data bits of channel bits, each with its flag; a bit from a group that the table lacks counts as flagged (log 47). -/
def kdDemodulate : List (Bool × Bool) → List (Bool × Bool)
  | (x, fx) :: (y, fy) :: (z, fz) :: (false, f0) :: (false, f1) :: (false, f2) :: rest =>
    let f := fx || fy || fz
    let g := f0 || f1 || f2
    match kdQuad x y z with
    | some (a, b, c, d) => (a, f) :: (b, f) :: (c, g) :: (d, g) :: kdDemodulate rest
    | none => (false, true) :: (false, true) :: (false, true) :: (false, true) :: kdDemodulate rest
  | (x, fx) :: (y, fy) :: (z, fz) :: rest =>
    match kdPair x y z with
    | some (a, b) => (a, fx || fy || fz) :: (b, fx || fy || fz) :: kdDemodulate rest
    | none => (false, true) :: (false, true) :: kdDemodulate rest
  | _ => []

/-- Bytes of data bits, the most significant first, with their flags. -/
def kdBytes (l : List (Bool × Bool)) : List (Byte × Bool) :=
  (chunks 8 (l.length / 8) l).map fun (b : List (Bool × Bool)) =>
    (BitVec.ofNat 8 (b.foldl (fun acc x => 2 * acc + (if x.1 then 1 else 0)) 0), b.any fun x => x.2)

/-- The data bits of a frame's bytes. -/
def kdBits (l : List Nat) : List Bool := (l.map fun b => (List.range 8).reverse.map b.testBit).flatten

/-- The sync of a recording frame: its 24 bits, most significant first (R362). -/
def kdSync : List Bool := (List.range 24).reverse.map (0x401004).testBit

/-- The recorded levels of changes from a level on (NRZI). -/
def nrzi : Bool → List Bool → List Bool
  | _, [] => []
  | s, c :: cs => (s != c) :: nrzi (s != c) cs

/-- A block as it is laid down: the run-in frame, then 240 row frames. -/
def kdLay (layer block : Nat) (sectors : List (List Byte)) : List Bool :=
  let rows := kdProduct (kdArray layer block sectors)
  let bis := kdIndicator layer block
  let runIn := ((List.range 738).map fun _ => [true, true, false, false]).flatten
  let changes := ((List.range 240).map fun i => kdSync ++ kdModulate (kdBits (kdFrame rows bis i))).flatten
  runIn ++ nrzi false changes

/-- The 244 bytes of recording frame i of a block as it was laid down. -/
def kdLaidFrame (levels : List Bool) (i : Nat) : List Nat :=
  let l := (levels.drop (2952 * (i + 1) + 23)).take 2929
  (kdBytes (kdDemodulate ((List.zipWith (· != ·) l (l.drop 1)).map fun b => (b, false)))).map fun e => e.1.toNat

/-- The block number that the burst indicator of a block as laid down gives: symbols 0 to 3 of codeword 0. -/
def kdLaidBlock (levels : List Bool) : Nat :=
  ([(0, 0), (3, 3), (7, 2), (11, 1)].reverse.foldl (fun n e => 256 * n + (kdLaidFrame levels e.1).getD (61 * e.2) 0) 0)

/-- The user bytes of sector k of a block as laid down. -/
def kdLaidSector (levels : List Bool) (k : Nat) : List Byte :=
  let row (i : Nat) : List Nat :=
    (((List.range 4).map fun q => ((kdLaidFrame levels i).drop (61 * q + 1)).take 60).flatten).take 208
  bytesAt (((List.range 208).map fun i => (row i).map (BitVec.ofNat 8)).flatten) (2060 * k + 12) 2048

/-! ## The product decoder (R363) -/

/-- A row as received: 244 bytes with flags; a lost row is all flagged. -/
def kdRowOf (r : Option (List (Byte × Bool))) : List (Nat × Bool) :=
  match r with
  | some l => ((l.map fun (e : Byte × Bool) => (e.1.toNat, e.2)) ++ List.replicate 244 (0, true)).take 244
  | none => List.replicate 244 (0, true)

/-- The received burst indicator byte u. -/
def kdIndicatorAt (rows : List (List (Nat × Bool))) (u : Nat) : Nat × Bool :=
  (rows.getD (u / 4) []).getD (61 * (u % 4)) (0, true)

/-- Step 1: the codewords, each decoded or failed, and which of the 960 bytes were corrected or erased. -/
def kdIndicatorDecode (rows : List (List (Nat × Bool))) : List (Option (List Nat)) × List Bool :=
  let words := (List.range 15).map fun w =>
    let got := (List.range 64).map fun s => kdIndicatorAt rows (15 * s + w)
    let era := (List.range 64).filter fun s => (got.getD s (0, false)).2
    (rsDecode (got.map (·.1)) era).map (·.1)
  let hit := (List.range 960).map fun u =>
    let g := kdIndicatorAt rows u
    g.2 || (match words.getD (u % 15) none with
      | some c => c.getD (u / 15) 0 != g.1
      | none => false)
  (words, hit)

/-- Step 2: the main-data columns of row i that the burst indicator erases. -/
def kdBurst (hit : List Bool) (i : Nat) : List Nat :=
  (((List.range 4).filter fun k => hit.getD (4 * i + k) false && hit.getD (4 * i + k + 1) false).map fun k =>
    (List.range 60).map fun j => 60 * k + j).flatten

/-- The 240 main-data bytes of a row of 244. -/
def kdMain (r : List (Nat × Bool)) : List (Nat × Bool) := ((List.range 4).map fun k => (r.drop (61 * k + 1)).take 60).flatten

/-- A decoded row: its word, or none where it failed. -/
abbrev KdLine := Option (List Nat × Nat)

/-- Columns decoded with the failed rows erased; more than 32 of them fail every column. -/
def kdColumns (rows : List (List Nat)) (bad : List Nat) : List (Option (List Nat)) :=
  (List.range 240).map fun j => if 32 < bad.length then none else (rsDecode (columnOf rows j) bad).map (·.1)

/-- Rows with the decoded columns in place. -/
def kdMerge (rows : List (List Nat)) (cols : List (Option (List Nat))) : List (List Nat) :=
  rows.zipIdx.map fun (r : List Nat × Nat) => r.1.zipIdx.map fun (e : Nat × Nat) =>
    match cols.getD e.2 none with
    | some c => c.getD r.2 0
    | none => e.1

/-- What the decoder makes of a block: its rows, bytes erased by the burst indicator, rows failed in the first pass, the symbols
corrected in each row in the first pass (none for a failed row), whether it needed a second pass, whether anything was
corrected, the rows that stand for a re-read, and the address that the burst indicator gives, as layer and block number. -/
structure KdBlock where
  rows : List (List Nat)
  erased : Nat
  failed : Nat
  counts : List (Option Nat)
  second : Bool
  corrected : Bool
  stood : List (Option (List Nat))
  address : Option (Nat × Nat)

/-- Steps 1 to 5 of R363; a row that fails stands as an earlier pass over the block decoded it, `kept` (R364). -/
def kdDecode (received : List (Option (List (Byte × Bool)))) (kept : List (Option (List Nat))) : KdBlock :=
  let raw := (List.range 240).map fun i => kdRowOf (received.getD i none)
  let ind := kdIndicatorDecode raw
  let mains := raw.map kdMain
  let burst := (List.range 240).map (kdBurst ind.2)
  let lost := (List.range 240).map fun i => (received.getD i none).isNone
  let first : List KdLine := (List.range 240).map fun i =>
    let m := mains.getD i []
    let era := (List.range 240).filter fun j => (m.getD j (0, false)).2 || (burst.getD i []).contains j
    if lost.getD i false then none else rsDecode (m.map (·.1)) era
  let rows := (List.range 240).map fun i =>
    match first.getD i none, kept.getD i none with
    | some r, _ => r.1
    | none, some r => r
    | none, none => (mains.getD i []).map (·.1)
  let stands := (List.range 240).map fun i => (first.getD i none).isSome || (kept.getD i none).isSome
  let bad := (List.range 240).filter fun i => !stands.getD i false
  let cols := kdColumns rows bad
  let badCols := (List.range 240).filter fun j => (cols.getD j none).isNone
  let merged := kdMerge rows cols
  let final :=
    if badCols.isEmpty then merged
    else
      let again : List KdLine := (List.range 240).map fun i =>
        rsDecode (merged.getD i []) (if bad.contains i then badCols else [])
      let rows2 := (List.range 240).map fun i =>
        match again.getD i none with
        | some r => r.1
        | none => merged.getD i []
      kdMerge rows2 (kdColumns rows2 ((List.range 240).filter fun i => (again.getD i none).isNone))
  { rows := final
    erased := ((List.range 240).map fun i => if lost.getD i false then 0 else (burst.getD i []).length).foldl (· + ·) 0
    failed := (first.filter (·.isNone)).length
    stood := (List.range 240).map fun i => if stands.getD i false then some (rows.getD i []) else none
    counts := first.map fun r => r.map (·.2)
    second := !badCols.isEmpty
    corrected := final != mains.map (fun m => m.map (·.1)) || ind.2.any id
    address := (ind.1.findSome? id).map fun c => (c.getD 4 0, fieldAt (c.map (BitVec.ofNat 8)) 0 4) }

/-- Step 6: sector k of a decoded block, good where its EDC and its address agree. -/
def KdBlock.sector (b : KdBlock) (k : Nat) : List Byte × Bool :=
  let l := ((b.rows.take 208).map fun r => (r.take 208).map (BitVec.ofNat 8)).flatten
  let s := bytesAt l (2060 * k) 2060
  let user := bytesAt s 12 2048
  let edc := crc32 (user ++ bytesAt s 0 8) == fieldAt s 8 4
  let addr := match b.address with
    | some (layer, n) => fieldAt s 0 4 == layer % 16 * 2 ^ 28 + (21 * n + k) % 2 ^ 28
    | none => false
  (user, edc && addr)

end Sys2Proof.Machine
end

