-- ==== Sys2Proof/Machine/Kd.lean ====
section
/-! DEFINITION. KD mode: the SCSI commands, the task management functions, USB requests, and the KD read path (R354 to
R371). -/

namespace Sys2Proof.Machine

/-! ## Medium access (R357, R369) -/

/-- No medium can be used. -/
def Dev.kdNoMedium (d : Dev) : Bool :=
  !d.kd.present || d.bit Fld.MON_THERM_TRIP || d.mot.spn.noMedium || d.pairUnfilled 0 || d.pairUnfilled 2

/-- The spindle is starting or focus is being captured. -/
def Dev.kdStarting (d : Dev) : Bool := !(d.head 0).captured || !d.bit Fld.MOT_STATUS_AT_SPEED

/-- A command that needs the medium: it leaves PS1 and PS2 first, and begins a new start after one that failed (R481). -/
def Dev.kdMedium (d : Dev) (tag : Nat) (f : Dev → Dev) : Dev :=
  let d := d.when d.mot.spn.failed Dev.startFor
  if d.kdNoMedium then d.kdCheck tag keyNotReady 0x3a 0
  else if d.ps = 1 ∨ d.ps = 2 then f d.wake
  else if d.kdStarting then d.kdCheck tag keyNotReady 0x04 1
  else f d

/-- n blocks from an LBA lie on the medium, or the command ends. -/
def Dev.kdRange (d : Dev) (tag lba n : Nat) (f : Dev → Dev) : Dev :=
  if d.kd.sectors < lba + n then d.kdCheck tag keyIllegal 0x21 0 else f d

/-- LBA and transfer length of a 10-byte or a 12-byte CDB. -/
def cdbLba (l : List Byte) : Nat := cdbField l 2 4
def cdbLen10 (l : List Byte) : Nat := cdbField l 7 2
def cdbLen12 (l : List Byte) : Nat := cdbField l 6 4
def cdbFua (l : List Byte) : Bool := (cdbField l 1 1).testBit 3

/-! ## Commands without medium data -/

def execTestUnitReady (t : ScsiTask) (s : State) : Host.Outcome State Fault Refusal :=
  s.on fun d => d.kdTask t false fun d tag => d.kdMedium tag fun d => d.kdGood tag []

def execRequestSense (t : ScsiTask) (s : State) : Host.Outcome State Fault Refusal :=
  s.on fun d => d.kdTask t true fun d tag =>
    let s : KdSense := match d.kd.attention with
      | some asc => { key := keyAttention, asc := asc, esn := d.esn }
      | none => d.kd.sense
    (d.onKd fun k => { k with sense := {}, attention := none }).kdGood tag ((senseBytes s).take (cdbField t.cdb 4 1))

/-- Bytes of a name. -/
def nameBytes (s : String) : List Byte := s.toList.map fun c => BitVec.ofNat 8 c.toNat

/-- The Device Serial Number as 16 hex digits. -/
def serialBytes (dsn : Nat) : List Byte :=
  (List.range 16).map fun i =>
    let x := dsn / 16 ^ (15 - i) % 16
    BitVec.ofNat 8 (if x < 10 then 48 + x else 55 + x)

/-- INQUIRY data: bytes the spec does not give are open (log 3). -/
def Dev.inquiryData (d : Dev) : List Byte :=
  let f := d.freeBytes 4
  [0x05, 0x80] ++ f.take 1 ++ [0x02, 31] ++ f.drop 1 ++ nameBytes d.kd.ident.vendorId ++ nameBytes d.kd.ident.productId
    ++ nameBytes d.kd.ident.revision

def execInquiry (t : ScsiTask) (s : State) : Host.Outcome State Fault Refusal :=
  s.on fun d => d.kdTask t true fun d tag =>
    let page := cdbField t.cdb 2 1
    let n := cdbField t.cdb 3 2
    if cdbField t.cdb 1 1 % 2 = 0 then
      if page ≠ 0 then d.kdBadField tag else (d.drewMany 4).kdGood tag (d.inquiryData.take n)
    else if page = 0 then d.kdGood tag ([0x05, 0x00, 0x00, 3, 0x00, 0x80, 0x83].take n)
    else if page = 0x80 then d.kdGood tag (([0x05, 0x80, 0x00, 16] ++ serialBytes d.sec.dsn).take n)
    else if page = 0x83 then
      let k := d.freeBits 8
      (d.drewMany (k + 1)).kdGood tag (([0x05, 0x83] ++ beBytes 2 k ++ (d.drew.freeBytes k)).take n)
    else d.kdBadField tag

def execReportLuns (t : ScsiTask) (s : State) : Host.Outcome State Fault Refusal :=
  s.on fun d => d.kdTask t true fun d tag =>
    d.kdGood tag ((beBytes 4 8 ++ zeroBytes 4 ++ zeroBytes 8).take (cdbField t.cdb 6 4))

/-- START STOP UNIT: LoEj posts an eject request; else a power condition, or START, chooses the state that is entered; with
IMMED 0 the status follows the entry. -/
def execStartStopUnit (t : ScsiTask) (s : State) : Host.Outcome State Fault Refusal :=
  s.on fun d => d.kdTask t false fun d tag =>
    let b := cdbField t.cdb 4 1
    let immed := cdbField t.cdb 1 1 % 2 = 1
    let enter (d : Dev) (target : Nat) : Dev :=
      if target = 0 then ((d.onHost fun h => { h with entry := none }).putBit Fld.HQ_STATUS_PS_ENTRY false |>.psApply 0).kdGood tag []
      else
        let d := d.psBegin target none
        if immed then d.kdGood tag [] else d.onKd fun k => { k with starting := k.starting ++ [tag] }
    let c := b / 16
    if 3 < c then d.kdBadField tag
    else if c ≠ 0 then enter d (c - 1)
    else if b / 2 % 2 = 1 then (d.ringMgmtSend [1]).kdGood tag []
    else enter d (if b % 2 = 1 then 0 else 2)

/-- The removal lock is recorded and reported toward the library. -/
def execPreventAllowMediumRemoval (t : ScsiTask) (s : State) : Host.Outcome State Fault Refusal :=
  s.on fun d => d.kdTask t false fun d tag =>
    let on : Bool := cdbField t.cdb 4 1 % 2 == 1
    let changed := d.kd.prevent != on
    let d := d.onKd fun k => { k with prevent := on }
    (d.when changed fun d => (d.ringMgmtSend [2]).sendPresence).kdGood tag []

def execReadCapacity (t : ScsiTask) (s : State) : Host.Outcome State Fault Refusal :=
  s.on fun d => d.kdTask t false fun d tag => d.kdMedium tag fun d =>
    d.kdGood tag (beBytes 4 (d.kd.sectors - 1) ++ beBytes 4 2048)

def execSeek10 (t : ScsiTask) (s : State) : Host.Outcome State Fault Refusal :=
  s.on fun d => d.kdTask t false fun d tag => d.kdMedium tag fun d => d.kdRange tag (cdbLba t.cdb) 1 fun d => d.kdGood tag []

/-- A command whose contents the spec does not give: it ends GOOD with at most n bytes that are open, and as many as are open
(log 3). -/
def Dev.kdOpen (d : Dev) (tag n : Nat) : Dev :=
  let k := d.freeBits 16 % (n + 1)
  (d.drewMany (k + 1)).kdGood tag (d.drew.freeBytes k)

def execReadTocPmaAtip (t : ScsiTask) (s : State) : Host.Outcome State Fault Refusal :=
  s.on fun d => d.kdTask t false fun d tag => d.kdMedium tag fun d => d.kdOpen tag (cdbField t.cdb 7 2)

def execGetConfiguration (t : ScsiTask) (s : State) : Host.Outcome State Fault Refusal :=
  s.on fun d => d.kdTask t true fun d tag => d.kdOpen tag (cdbField t.cdb 7 2)

def execGetEventStatusNotification (t : ScsiTask) (s : State) : Host.Outcome State Fault Refusal :=
  s.on fun d => d.kdTask t true fun d tag => d.kdOpen tag (cdbField t.cdb 7 2)

def execReadDiscInformation (t : ScsiTask) (s : State) : Host.Outcome State Fault Refusal :=
  s.on fun d => d.kdTask t false fun d tag => d.kdMedium tag fun d => d.kdOpen tag (cdbField t.cdb 7 2)

def execReadTrackInformation (t : ScsiTask) (s : State) : Host.Outcome State Fault Refusal :=
  s.on fun d => d.kdTask t false fun d tag => d.kdMedium tag fun d => d.kdOpen tag (cdbField t.cdb 7 2)

def execReadBufferCapacity (t : ScsiTask) (s : State) : Host.Outcome State Fault Refusal :=
  s.on fun d => d.kdTask t false fun d tag => d.kdOpen tag (cdbField t.cdb 7 2)

def execGetPerformance (t : ScsiTask) (s : State) : Host.Outcome State Fault Refusal :=
  s.on fun d => d.kdTask t false fun d tag => d.kdMedium tag fun d => d.kdOpen tag (16 * cdbField t.cdb 8 2 + 8)

/-- The only speed is the rate of R360: the request is taken and changes nothing. -/
def execSetStreaming (t : ScsiTask) (s : State) : Host.Outcome State Fault Refusal :=
  s.on fun d => d.kdTask t false fun d tag => d.kdGood tag []

/-! ## Mode pages -/

/-- Page 0x01: PER and the read retry count; its other bytes are open. -/
def Dev.errorPage (d : Dev) : List Byte :=
  let f := d.freeBytes 9
  let b := (f.headD 0).toNat
  let b := b - b / 4 % 2 * 4 + (if d.kd.per then 4 else 0)
  [0x01, 0x0a] ++ leBytes 1 b ++ leBytes 1 d.kd.retries ++ f.drop 1

/-- A mode page as it stands, where the device has it. -/
def Dev.modePage (d : Dev) (p : Nat) : Option (List Byte) :=
  if p = 1 then some d.errorPage
  else if p = 0x1a ∨ p = 0x2a then
    match Tab.get (fun _ => []) d.kd.pages p with
    | [] => some (leBytes 1 p ++ [10] ++ d.freeBytes 10)
    | l => some l
  else none

def execModeSense10 (t : ScsiTask) (s : State) : Host.Outcome State Fault Refusal :=
  s.on fun d => d.kdTask t false fun d tag =>
    let p := cdbField t.cdb 2 1 % 64
    let l := if p = 0x3f then some (([1, 0x1a, 0x2a].filterMap d.modePage).flatten) else d.modePage p
    match l with
    | none => d.kdBadField tag
    | some l => (d.drewMany 10).kdGood tag ((beBytes 2 (l.length + 6) ++ zeroBytes 6 ++ l).take (cdbField t.cdb 7 2))

/-- The pages of a parameter list; none where one is malformed or is not a page of the device. -/
def modePages : Nat → List Byte → Option (List (List Byte))
  | 0, _ => none
  | fuel + 1, l =>
    if l.isEmpty then some []
    else
      let p := fieldAt l 0 1 % 64
      let n := 2 + fieldAt l 1 1
      if l.length < n ∨ (p ≠ 1 ∧ p ≠ 0x1a ∧ p ≠ 0x2a) ∨ (p = 1 ∧ n < 4) then none
      else (modePages fuel (l.drop n)).map fun r => l.take n :: r

def execModeSelect10 (t : ScsiTask) (data : List Byte) (s : State) : Host.Outcome State Fault Refusal :=
  s.on fun d => d.kdTask t false fun d tag =>
    match modePages (data.length + 1) (data.drop (8 + cdbField data 6 2)) with
    | none => d.kdBadField tag
    | some ps =>
      (d.each ps fun d l =>
        if fieldAt l 0 1 % 64 = 1 then d.onKd fun k => { k with per := (fieldAt l 2 1).testBit 2, retries := fieldAt l 3 1 }
        else d.onKd fun k => { k with pages := Tab.set (fun _ => []) k.pages (fieldAt l 0 1 % 64) l }).kdGood tag []

/-! ## Reading (R363, R364) -/

/-- Where a place of the staging area lies in the buffer (R366; log 161). -/
def Dev.kdPlaceAddr (d : Dev) (p : Nat) : Nat := d.stagingBase * pageBytes + 2048 * (p - 1)

/-- A sector is staged in the buffer, under its memory codes: at its own place, else at the first that no staged sector holds (R366). -/
def Dev.kdStage (d : Dev) (lba : Nat) (bytes : List Byte) : Dev :=
  let used := d.kd.staged.map (·.2)
  let own := Tab.get (fun _ => 0) d.kd.staged lba
  let p := if own ≠ 0 then own else ((List.range (used.length + 2)).find? fun k => k != 0 && !used.contains k).getD 0
  (d.bufWrite (d.kdPlaceAddr p) (bytesAt bytes 0 2048)).onKd fun k => { k with staged := Tab.set (fun _ => 0) k.staged lba p }

/-- The bytes at a place of the staging area, and whether the buffer marks any of them (R297). -/
def Dev.kdPlaceBytes (d : Dev) (p : Nat) : List Byte × Bool := (d.bufRead (d.kdPlaceAddr p) 2048, d.anyPoison (d.kdPlaceAddr p) 2048)

/-- A sector as it was laid down. -/
def Dev.kdLaid (d : Dev) (lba : Nat) : Option (List Byte) :=
  (d.kd.laid.find? fun e => kdLaidBlock e.2 == lba / 21).map fun e => kdLaidSector e.2 (lba % 21)

/-- A sector as a read returns it: staged data, unless the buffer marks them; else what the medium gave, or where no answer is given as it stands
there; none where it is unrecovered (R297, R364; logs 104, 161). -/
def Dev.kdSectorAt (d : Dev) (lba i : Nat) (m : KdAnswer) : Option (List Byte) :=
  match Tab.get (fun _ => 0) d.kd.staged (lba + i) with
  | 0 => if m.failed.contains i then none else match m.sectors[i]? with
    | some l => some (bytesAt l 0 2048)
    | none => some ((d.kdLaid (lba + i)).getD (zeroBytes 2048))
  | p => let r := d.kdPlaceBytes p
    if r.2 then none else some r.1

/-- A read of n blocks: the sectors that decoded are transferred; the first that did not is named. -/
def Dev.kdRead (d : Dev) (tag lba n : Nat) (m : KdAnswer) (transfer : Bool) : Dev :=
  let got := (List.range n).map fun i => d.kdSectorAt lba i m
  let data := if transfer then (got.filterMap id).flatten else []
  let lost := (List.range n).filter fun i => (got.getD i none).isNone
  match lost with
  | i :: _ => (d.countBy (Adr.KD_CNT 5) lost.length).kdCheckWith tag data keyMedium 0x11 0 (some (lba + i))
  | [] => if m.recovered && d.kd.per then d.kdCheckWith tag data keyRecovered 0x17 1 none else d.kdGood tag data

/-! ## Write power (R367) -/

/-- The place of the least of a list, the first of equals. -/
def leastIndex : List Nat → Nat
  | [] => 0
  | x :: xs =>
    let k := leastIndex xs
    if xs.isEmpty || decide (x ≤ xs.getD k 0) then 0 else k + 1

/-- The calibration chooses the step of least symbol count; the next bank gets the active B4 table with that step's monitor
reading as its PW_TGT, and the swap is requested (R152). The level code is that of 0.70 + 0.04 k of the present level
(log 49). -/
def Dev.kdCalibration (d : Dev) (errs : Vector Nat 16) (mon : Vector (BitVec 12) 16) : Nat × Dev :=
  let k := leastIndex errs.toList
  let code := d.fld (Fld.WP_LVL_LEVEL_A 0 4) * (70 + 4 * k) / 100
  let src := d.bank 0
  let dst := 1 - src
  let d := d.each (List.range 292) fun d i => d.setReg (tableHeader 0 dst 4 i) (d.reg (tableHeader 0 src 4 i))
  let head := tableHeader 0 dst 4
  let d := d.setReg (head 0) (withField (d.reg (head 0)) 31 1 1)
  let d := (d.setReg (head 1) (withField (d.reg (head 1)) 16 12 ((mon.toList.getD k 0).toNat))).showTable 0
  (code, (d.onWp 0 fun s => { s with swap := true }).onKd fun k => { k with calibrated := true })

def execKdCalibrate (t : ScsiTask) (errs : Vector Nat 16) (mon : Vector (BitVec 12) 16) (s : State) :
    Host.Outcome State Fault Refusal :=
  s.on fun d => d.kdTask t false fun d tag => d.kdMedium tag fun d =>
    let r := d.kdCalibration errs mon
    r.2.kdGood tag ((beBytes 2 r.1).take (cdbLen10 t.cdb))

def execKdCalibrationTimer (errs : Vector Nat 16) (mon : Vector (BitVec 12) 16) (s : State) :
    Host.Outcome State Fault Refusal :=
  s.on fun d => d.when (d.mode = 2 && !d.kdNoMedium) fun d => (d.kdCalibration errs mon).2

/-! ## Writing (R366) -/

/-- Entries that the medium's replacement list can hold: the spec gives no number (log 3). -/
def kdReplacements : Nat := Config.freeOf 3 0

/-- Channel bits of a recording frame, its sync among them (R361). -/
def kdFrameBits : Nat := 2952

/-- The guard whose condition stands as a block's write begins, that of a hardware trip counting as the laser's (log 145). -/
def Dev.kdStands (d : Dev) : Option KdGuard :=
  let w := d.wps 0
  if w.track then some .track else if w.focus then some .focus else if w.silence then some .silence
  else if w.trip || w.stuck.contains 4 then some .laser else none

/-- A guard cuts a block at the next address: its inhibit is posted and counted, and its status bit set; a laser fault is B4's alone (R148, R150,
R151, R153). -/
def Dev.kdCut (d : Dev) (g : KdGuard) : Dev :=
  let off (code : Nat) : Dev := (d.inhibitPost 0 code [4] (some 3)).putBit (Fld.WP_STATUS_OFFTRACK 0) true
  let d := match g with
    | .track => off inhTrack
    | .focus => off inhFocus
    | .silence => off inhSilence
    | .laser => (d.when (!(d.wps 0).stuck.contains 4) fun d => d.laserPost 0 4).inhibitPost 0 inhLaser [4] none
  d.onKd fun k => { k with phys := k.phys + 1 }

/-- A bank swap that waits is taken at a recording-frame boundary (R152). -/
def Dev.kdSwap (d : Dev) : Dev := d.when (d.wps 0).swap fun d => (d.takeBank 0).onWp 0 fun s => { s with swap := false }

/-- The lane of B4 over the last recording frame of a block: the B4 table with x = 0 (R140, R142, R151). -/
def Dev.kdLane (d : Dev) (levels : List Bool) : Dev :=
  let pulses := lanePulses (fun i => d.reg (tableEntry 0 (d.bank 0) 4 i)) (fun _ => 0) (d.sfld (Fld.WP_SKEW_WS_SKEW 0 4))
    ((levels.drop (levels.length - kdFrameBits)).map some)
  d.onWp 0 fun s => { s with lanes := Tab.set (fun _ => []) s.lanes 4 pulses }

/-- A block is laid down at the next unrecorded address, a bank swap that waits being taken as its first frame begins; each time a guard cuts it, it
is recorded again at the address after, and the replacement is listed. Answers the cuts left, and whether the list had room. -/
def Dev.kdLayBlock (d : Dev) (b : Nat) (sectors : List (List Byte)) : Bool → List (Option KdGuard) → Dev × List (Option KdGuard) × Bool
  | again, some g :: cs =>
    let p := d.kd.phys
    let d := d.kdSwap.kdCut g
    if !again && kdReplacements ≤ d.kd.replaced.length then (d, cs, false)
    else (d.onKd fun k => { k with replaced := if again then k.replaced else k.replaced ++ [(b, p)] }).kdLayBlock b sectors true cs
  | again, cs =>
    let d := d.kdSwap
    let p := d.kd.phys
    let levels := kdLay (d.head 0).layer b sectors
    let d := d.onKd fun k => { k with
      phys := p + 1
      laid := Tab.set (fun _ => []) k.laid p levels
      replaced := if again then k.replaced.map fun e => if e.1 = b then (b, p) else e else k.replaced }
    (d.kdLane levels, cs.drop 1, true)

/-- Blocks are laid down in address order: the next one when it is whole, or when `through` completes it with zero sectors; blocks of
which nothing is staged are passed over for one that `through` names. -/
def Dev.kdRecord (through : Nat → Bool) : Nat → Dev → List (Option KdGuard) → Dev × List (Option KdGuard) × Bool
  | 0, d, cut => (d, cut, true)
  | fuel + 1, d, cut =>
    let next := d.kd.next / 21
    let first := leastOf (((d.kd.staged.map (·.1)).filter (21 * next ≤ ·)).map (· / 21))
    let b := if next < first && through first then first else next
    let places := (List.range 21).map fun k => Tab.get (fun _ => 0) d.kd.staged (21 * b + k)
    let pending := places.any (· != 0)
    let whole := places.all (· != 0)
    let secs := places.map fun p => if p = 0 then zeroBytes 2048 else (d.kdPlaceBytes p).1
    if whole || (pending && through b) then
      let r := d.kdLayBlock b secs false (if d.kdStands.isSome then d.kdStands :: cut else cut)
      let d := r.1.onKd fun k => { k with
        next := 21 * (b + 1), staged := k.staged.filter fun e => !(21 * b ≤ e.1 && e.1 < 21 * (b + 1)) }
      if r.2.2 then Dev.kdRecord through fuel d r.2.1 else (d, r.2.1, false)
    else (d, cut, true)

/-- A write of blocks: they are staged; whole blocks go to the medium, and with FUA every block it covers. During a supply alarm
no block begins, and a write with FUA waits (R366). -/
def Dev.kdWrite (d : Dev) (tag lba : Nat) (fua : Bool) (data : List (List Byte)) (m : KdWritten) : Dev :=
  if d.supplyFailed && fua then d else
  let d := if d.kd.calibrated then d else (d.kdCalibration m.errs m.mon).2
  if lba < d.kd.next then d.kdCheck tag keyIllegal 0x21 0
  else
    let d := d.each data.zipIdx fun d e => d.kdStage (lba + e.2) e.1
    let last := lba + data.length
    if d.supplyFailed then d.kdGood tag [] else
    let r := Dev.kdRecord (fun b => fua && decide (21 * b < last)) (d.kd.staged.length + 1) d m.cut
    if r.2.2 then r.1.kdGood tag [] else r.1.kdCheck tag keyMedium 0x0c 0

/-- The data of n sectors as the host sends it: the transfer has the length of the command, which zeros fill. -/
def sectorData (n : Nat) (data : List (List Byte)) : List (List Byte) := data.take n ++ List.replicate (n - data.length) []

def execWrite10 (t : ScsiTask) (data : List (List Byte)) (m : KdWritten) (s : State) : Host.Outcome State Fault Refusal :=
  s.on fun d =>
    let data := sectorData (cdbLen10 t.cdb) data
    d.kdTask t false fun d tag => d.kdMedium tag fun d => d.kdRange tag (cdbLba t.cdb) data.length fun d =>
      d.kdWrite tag (cdbLba t.cdb) (cdbFua t.cdb) data m

def execWrite12 (t : ScsiTask) (data : List (List Byte)) (m : KdWritten) (s : State) : Host.Outcome State Fault Refusal :=
  s.on fun d =>
    let data := sectorData (cdbLen12 t.cdb) data
    d.kdTask t false fun d tag => d.kdMedium tag fun d => d.kdRange tag (cdbLba t.cdb) data.length fun d =>
      d.kdWrite tag (cdbLba t.cdb) (cdbFua t.cdb) data m

/-- SYNCHRONIZE CACHE ends once every block that it covers is on the medium; length 0 covers all; it waits during a supply
alarm. -/
def execSynchronizeCache (t : ScsiTask) (m : KdWritten) (s : State) : Host.Outcome State Fault Refusal :=
  s.on fun d => d.kdTask t false fun d tag => d.kdMedium tag fun d =>
    if d.supplyFailed then d else
    let last := if cdbLen10 t.cdb = 0 then d.kd.sectors else cdbLba t.cdb + cdbLen10 t.cdb
    let r := Dev.kdRecord (fun b => decide (21 * b < last)) (d.kd.staged.length + 1) d m.cut
    if r.2.2 then r.1.kdGood tag [] else r.1.kdCheck tag keyMedium 0x0c 0

/-! ## The commands that read -/

/-- A read with FUA: the blocks up to its last that are staged in part are on the medium first, as under SYNCHRONIZE CACHE (R356, R366;
log 172). Answers whether the replacement list had room. -/
def Dev.kdSettle (d : Dev) (lba n : Nat) (fua : Bool) : Dev × Bool :=
  if fua && !d.supplyFailed && (d.kd.staged.any fun e => decide (lba ≤ e.1) && decide (e.1 < lba + n)) then
    let r := Dev.kdRecord (fun b => decide (21 * b < lba + n)) (d.kd.staged.length + 1) d []
    (r.1, r.2.2)
  else (d, true)

/-- READ(10) and READ(12). -/
def Dev.kdReadCommand (d : Dev) (tag lba n : Nat) (fua : Bool) (m : KdAnswer) : Dev :=
  let r := d.kdSettle lba n fua
  if r.2 then r.1.kdRead tag lba n m true else r.1.kdCheck tag keyMedium 0x0c 0

def execRead10 (t : ScsiTask) (m : KdAnswer) (s : State) : Host.Outcome State Fault Refusal :=
  s.on fun d => d.kdTask t false fun d tag => d.kdMedium tag fun d =>
    d.kdRange tag (cdbLba t.cdb) (cdbLen10 t.cdb) fun d => d.kdReadCommand tag (cdbLba t.cdb) (cdbLen10 t.cdb) (cdbFua t.cdb) m

def execRead12 (t : ScsiTask) (m : KdAnswer) (s : State) : Host.Outcome State Fault Refusal :=
  s.on fun d => d.kdTask t false fun d tag => d.kdMedium tag fun d =>
    d.kdRange tag (cdbLba t.cdb) (cdbLen12 t.cdb) fun d => d.kdReadCommand tag (cdbLba t.cdb) (cdbLen12 t.cdb) (cdbFua t.cdb) m

def execVerify10 (t : ScsiTask) (m : KdAnswer) (s : State) : Host.Outcome State Fault Refusal :=
  s.on fun d => d.kdTask t false fun d tag => d.kdMedium tag fun d =>
    d.kdRange tag (cdbLba t.cdb) (cdbLen10 t.cdb) fun d => d.kdRead tag (cdbLba t.cdb) (cdbLen10 t.cdb) m false

/-! ## Vendor commands (R358) -/

/-- KD_READ_RAW: 21 sectors, each its header and its user bytes, and the 240 row counts, without a retry (log 118). -/
def execKdReadRaw (t : ScsiTask) (m : KdAnswer) (rows : Vector Byte 240) (s : State) : Host.Outcome State Fault Refusal :=
  s.on fun d => d.kdTask t false fun d tag => d.kdMedium tag fun d =>
    d.kdRange tag (cdbLba t.cdb) 1 fun d =>
      let data := ((List.range 21).map fun k => bytesAt (m.sectors.getD k []) 0 2060).flatten ++ rows.toList
      d.kdGood tag (data.take (cdbLen10 t.cdb))

def execKdErrCounters (t : ScsiTask) (s : State) : Host.Outcome State Fault Refusal :=
  s.on fun d => d.kdTask t false fun d tag =>
    let data := ((List.range 8).map fun k => leBytes 4 (d.reg (Adr.KD_CNT k)).toNat).flatten
    let clear := cdbField t.cdb 1 1 % 2 = 1
    (d.when clear fun d => d.clearCounters Adr.KD_CNT).kdGood tag (data.take (cdbLen10 t.cdb))

/-- KD_DRIVE_INFO: ID_DEVICE, RESULT0 of R352, the fifteen spare counts and the version of the active image, in that order
(log 50). -/
def execKdDriveInfo (t : ScsiTask) (s : State) : Host.Outcome State Fault Refusal :=
  s.on fun d => d.kdTask t false fun d tag =>
    let slot := Tab.get (fun _ => ({} : SlotSt)) d.upd.slots (d.fld Fld.UPD_STATUS_RUNNING_SLOT)
    let l := leBytes 4 (d.reg Adr.ID_DEVICE).toNat ++ leBytes 8 d.lockStatus
      ++ ((List.range 15).map fun i => leBytes 2 (d.spares (i + 1))).flatten ++ leBytes 4 slot.version
    d.kdGood tag ((bytesAt l 0 64).take (cdbLen10 t.cdb))

/-- Every other opcode ends ILLEGAL REQUEST, 0x20/0x00 (R357). -/
def scsiOpcodes : List Nat :=
  [0x00, 0x03, 0x12, 0xa0, 0x1b, 0x1e, 0x25, 0x28, 0xa8, 0x2a, 0xaa, 0x2b, 0x2f, 0x35, 0x43, 0x46, 0x4a, 0x51, 0x52, 0x5c,
   0x55, 0x5a, 0xac, 0xb6, 0xd0, 0xd1, 0xd2, 0xd3]

/-- An opcode that is listed is its own row's: this row has nothing to do with it (log 119). -/
def execScsiUnsupportedOpcode (t : ScsiTask) (s : State) : Host.Outcome State Fault Refusal :=
  s.on fun d => d.when (!scsiOpcodes.contains (cdbField t.cdb 0 1)) fun d => d.kdTask t false fun d tag => d.kdCheck tag keyIllegal 0x20 0

/-! ## Task management and the USB device (R354, R359, R369) -/

/-- A function reports FUNCTION COMPLETE. -/
def Dev.kdFunctionDone (d : Dev) (tag : Nat) : Dev := d.kdSend ⟨tag, none, [], none⟩

/-- ABORT TASK: a command that still waits ends without a status; one whose status is reserved has ended with it. -/
def execAbortTask (tag : BitVec 16) (s : State) : Host.Outcome State Fault Refusal :=
  s.on fun d => d.when (d.mode = 2) fun d =>
    (d.onKd fun k => { k with starting := k.starting.filter (· != tag.toNat) }).kdFunctionDone tag.toNat

def execAbortTaskSet (s : State) : Host.Outcome State Fault Refusal :=
  s.on fun d => d.when (d.mode = 2) fun d => (d.onKd fun k => { k with starting := [] }).kdFunctionDone 0

/-- A reset of the logical unit: the function reset of R347, then UNIT ATTENTION 0x29/0x00. -/
def Dev.kdReset (d : Dev) : Dev :=
  (d.resetBegins false).onKd fun k => { k with starting := [], attention := some 0x29 }

def execLogicalUnitReset (s : State) : Host.Outcome State Fault Refusal :=
  s.on fun d => d.when (d.mode = 2) fun d => d.kdReset.kdFunctionDone 0

/-- A port reset also returns the device to its unconfigured state. -/
def execUsbPortReset (s : State) : Host.Outcome State Fault Refusal :=
  s.on fun d => d.when (d.mode = 2) fun d => d.kdReset.onKd fun k => { k with config := 0, alternate := 0, suspended := false }

def execUsbSuspend (s : State) : Host.Outcome State Fault Refusal :=
  s.on fun d => d.when (d.mode = 2) fun d => (d.onKd fun k => { k with suspended := true }).when (d.ps < 3) fun d => d.psBegin 3 none

/-- Resume: the device leaves PS3 for PS2, or stops its entry. -/
def execUsbResume (s : State) : Host.Outcome State Fault Refusal :=
  s.on fun d => d.when (d.mode = 2 && d.kd.suspended) fun d =>
    let d := (d.onKd fun k => { k with suspended := false }).onHost fun h => { h with entry := none }
    (d.putBit Fld.HQ_STATUS_PS_ENTRY false).when (d.ps = 3) fun d => d.takePs 2

/-- The device descriptor. -/
def Dev.usbDevice (d : Dev) : List Byte :=
  [18, 1, 0x20, 0x03, 0, 0, 0, 9] ++ leBytes 2 d.kd.ident.vendor ++ leBytes 2 d.kd.ident.product ++ leBytes 2 d.kd.ident.version
    ++ [1, 2, 3, 1]

/-- A bulk endpoint with its companion: its number is open, and 2^streams streams. -/
def bulkEndpoint (dirIn : Bool) (number burst : Byte) (streams : Nat) : List Byte :=
  [7, 5, (number &&& 0x0f) ||| (if dirIn then 0x80 else 0), 2, 0x00, 0x04, 0, 6, 0x30, burst] ++ leBytes 1 streams ++ [0, 0]

/-- The configuration: alternate 0 is Bulk-Only Transport, alternate 1 USB Attached SCSI with its four pipes (R354). -/
def Dev.usbConfiguration (d : Dev) : List Byte :=
  let f := d.freeBytes 13
  let e (i : Nat) : Byte := f.getD i 0
  let alt0 := [9, 4, 0, 0, 2, 8, 6, 0x50, 0] ++ bulkEndpoint true (e 1) (e 2) 0 ++ bulkEndpoint false (e 3) (e 4) 0
  let pipe (id : Byte) : List Byte := [4, 0x24, id, 0]
  let alt1 := [9, 4, 0, 1, 4, 8, 6, 0x62, 0] ++ bulkEndpoint false (e 5) (e 6) 0 ++ pipe 1
    ++ bulkEndpoint true (e 7) (e 8) 5 ++ pipe 2 ++ bulkEndpoint true (e 9) (e 10) 5 ++ pipe 3
    ++ bulkEndpoint false (e 11) (e 12) 5 ++ pipe 4
  let body := alt0 ++ alt1
  [9, 2] ++ leBytes 2 (9 + body.length) ++ [1, 1, 0, 0xe0, e 0] ++ body

/-- A string descriptor. -/
def usbString (l : List Byte) : List Byte := leBytes 1 (2 + 2 * l.length) ++ [3] ++ (l.map fun b => [b, 0]).flatten

/-- The answer to a device request, none for a stall; the greatest LUN of the mass storage class is 0 (R354; log 87). -/
def Dev.usbAnswer (d : Dev) (setup : List Byte) : Option (List Byte) :=
  let req := fieldAt setup 1 1
  let v := fieldAt setup 2 2
  if req = 6 then
    if v / 256 = 1 then some d.usbDevice
    else if v / 256 = 2 then some d.usbConfiguration
    else if v = 0x300 then some [4, 3, 0x09, 0x04]
    else if v = 0x301 then some (usbString (nameBytes d.kd.ident.maker))
    else if v = 0x302 then some (usbString (nameBytes d.kd.ident.name))
    else if v = 0x303 then some (usbString (serialBytes d.sec.dsn))
    else none
  else if req = 8 then some (leBytes 1 d.kd.config)
  else if req = 9 then (if v ≤ 1 then some [] else none)
  else if req = 10 then some (leBytes 1 d.kd.alternate)
  else if req = 11 then (if v ≤ 1 ∧ d.kd.config = 1 then some [] else none)
  else if fieldAt setup 0 1 = 0xa1 ∧ req = 0xfe then some [0]
  else if req = 0 then some [1, 0]
  else none

/-- USB_DEVICE_REQUEST: a descriptor is returned, or a configuration or an alternate setting chosen. -/
def execUsbDeviceRequest (setup : Vector Byte 8) (s : State) : Host.Outcome State Fault Refusal :=
  s.on fun d => d.when (d.mode = 2) fun d =>
    let setup := setup.toList
    let a := d.usbAnswer setup
    let req := fieldAt setup 1 1
    let v := fieldAt setup 2 2
    let d := d.when (a.isSome && req == 9) fun d => d.onKd fun k => { k with config := v, alternate := 0 }
    let d := d.when (a.isSome && req == 11) fun d => d.onKd fun k => { k with alternate := v }
    (d.drewMany 13).onKd fun k => { k with usb := a.map (fun l => l.take (fieldAt setup 6 2)) :: k.usb }

/-! ## The read path (R362, R363, R368) -/

/-- KD_RUN_IN: 256 bits of the run-in begin a block, and CHN4 acquires cold on it; the first sync is sought behind its newest decision. -/
def execKdRunIn (bits : Nat) (p : PreambleRecord) (s : State) : Host.Outcome State Fault Refusal :=
  s.on fun d => d.when (d.mode = 2 && 256 ≤ bits) fun d =>
    let d := (d.onSlice 4 fun s => { s with coldArmed := true }).preamble 4 p
    let d := d.onSlice 4 fun s => { s with erased := s.erased.take 256, blanks := s.blanks.take 256 }
    let newest := (((d.slice 4).line.drop (d.tentDepth 4)).headD noSample).pos
    let d := d.onKd fun k => { k with rows := [], inBlock := true, missRun := 0, searching := false, offset := 0, expect := newest + 1 }
    d.putBit Fld.KD_STATUS_STANDBY_READY (!d.dead 14 1)

/-- n channel bits of CHN4's line from a place on: the changes between its decisions, each with its flag; one that the line does not
hold counts as flagged (R92, R361). -/
def Dev.kdWindow (d : Dev) (start : Int) (n : Nat) : List (Bool × Bool) :=
  let s := d.slice 4
  let near := (s.line.drop (d.tentDepth 4)).filter fun e => decide (start - 1 ≤ e.pos) && decide (e.pos < start + n)
  let levels := (List.range (n + 1)).map fun i => near.find? fun e => e.pos == start - 1 + i
  List.zipWith (fun a b => match a, b with
    | some x, some y => (x.bit != y.bit, s.erased.contains (y.pos.toNat / 32))
    | _, _ => (false, true)) levels (levels.drop 1)

/-- The KD sync: the KD_SYNC_LEN most significant bits of the pattern (R92). -/
def Dev.kdPattern (d : Dev) : List Bool :=
  let v := (d.reg (Adr.CHN_SYNC_PAT_HI 4)).toNat % 2 ^ 16 * 2 ^ 32 + (d.reg (Adr.CHN_SYNC_PAT_LO 4)).toNat
  (List.range (d.fld (Fld.CHN_SYNC_CFG_KD_SYNC_LEN 4))).map fun i => v.testBit (47 - i)

/-- The distances of the sync at n places from one on, a flagged bit counting as disagreeing (R81, R92). -/
def Dev.kdDistances (d : Dev) (start : Int) (n : Nat) : List Nat :=
  let pat := d.kdPattern
  let w := d.kdWindow start (n + pat.length - 1)
  (List.range n).map fun k => ((List.zip (w.drop k) pat).filter fun e => e.1.2 || e.1.1 != e.2).length

/-- The distances of a window by offset -w to w. -/
def distAt (dist : List Nat) (w : Nat) (k : Int) : Nat := dist.getD (k + w).toNat 48

/-- The preferred offset of a window: the least distance, then the smaller offset, then the negative one (R81). -/
def kdBest (dist : List Nat) (w : Nat) : List Int → Int × Nat
  | [] => (0, 48)
  | [k] => (k, distAt dist w k)
  | k :: ks =>
    let r := kdBest dist w ks
    if distAt dist w k ≤ r.2 then (k, distAt dist w k) else r

/-- The row of the frame whose sync stands at a place. -/
def Dev.kdRowAt (d : Dev) (at_ : Int) : List (Byte × Bool) := kdBytes (kdDemodulate (d.kdWindow (at_ + 24) 2928))

/-- A row enters the block, and the next sync is expected a frame further. -/
def Dev.kdRow (d : Dev) (at_ : Int) (r : Option (List (Byte × Bool))) : Dev :=
  d.onKd fun k => { k with rows := k.rows ++ [r], expect := at_ + kdFrameBits }

/-- A sync is found at a place: the frame's row enters the block. -/
def Dev.kdFound (d : Dev) (off at_ : Int) : Dev :=
  let row := d.kdRowAt at_
  let d := d.when (d.slice 4).coldRun fun d => (d.gainLock 4).onSlice 4 fun s => { s with coldRun := false }
  (d.onKd fun k => { k with missRun := 0, searching := false, offset := off }).kdRow at_ (some row)

/-- The first exact match of the sync from a place on, within a frame. -/
def Dev.kdFirst (d : Dev) (start : Int) : Option Nat :=
  let dist := d.kdDistances start kdFrameBits
  if dist.contains 0 then some (dist.idxOf 0) else none

/-- KD_FRAME_SYNC: the sync is found, or the frame is placed nominally; after three misses the whole frame is searched, and the
rows in between are lost. A bank swap that waits is taken at the frame's start (R152, R362). -/
def Dev.kdFrameSync (d : Dev) : Dev :=
  let d := d.kdSwap
  if !d.kd.inBlock ∨ 240 ≤ d.kd.rows.length then d
  else
    let thr := d.fld (Fld.CHN_SYNC_CFG_THR 4)
    let e := d.kd.expect
    if d.kd.rows.isEmpty then
      match d.kdFirst e with
      | some k => d.kdFound k (e + k)
      | none => d
    else if d.kd.searching then
      let dist := d.kdDistances e kdFrameBits
      let k := leastIndex dist
      if dist.getD k 48 ≤ thr then d.kdFound k (e + k) else (d.count (Adr.KD_CNT 6)).kdRow e none
    else
      let w := min 8 (d.fld (Fld.CHN_SYNC_CFG_WIN 4))
      let b := kdBest (d.kdDistances (e - w) (2 * w + 1)) w (syncOffsets w)
      if b.2 ≤ thr then d.kdFound b.1 (e + b.1)
      else
        let run := d.kd.missRun + 1
        let row := d.kdRowAt e
        let d := ((d.count (Adr.KD_CNT 6)).onKd fun k => { k with missRun := run, searching := run ≥ 3 }).kdRow e (some row)
        d.when (3 ≤ run) fun d => d.putBit Fld.KD_STATUS_SYNC_LOST true

/-- KD_FRAME_SYNC: what is searched stands in CHN4, and the operands say nothing. -/
def execKdFrameSync (_dist _bits : Unit) (s : State) : Host.Outcome State Fault Refusal :=
  s.on fun d => d.when (d.mode = 2) Dev.kdFrameSync

/-- A block decoded with the rows of the earlier passes over it (R364). -/
def Dev.kdPass (d : Dev) : KdBlock :=
  let b := kdDecode d.kd.rows []
  if b.address.isSome && b.address == d.kd.passBlock then kdDecode d.kd.rows d.kd.passRows else b

/-- KD_BLOCK_DECODE of a whole block; the rows of one that leaves a sector unrecovered stand for its re-reads (R363, R364, R371). -/
def execKdBlockDecode (s : State) : Host.Outcome State Fault Refusal :=
  s.on fun d => d.when (d.mode = 2 && 240 ≤ d.kd.rows.length) fun d =>
    let b := d.kdPass
    let secs := (List.range 21).map fun k => let r := b.sector k; (⟨r.1, r.2⟩ : KdSector)
    let whole := secs.all (·.good)
    let d := d.onKd fun k => { k with
      decoded := secs, rowCounts := b.counts.map fun c => c.getD 0xff, rows := [], inBlock := false
      passBlock := if whole then none else b.address, passRows := if whole then [] else b.stood }
    let d := d.count (Adr.KD_CNT (if b.corrected then 1 else 0))
    let d := (d.countBy (Adr.KD_CNT 2) b.erased).countBy (Adr.KD_CNT 3) b.failed
    d.when b.second fun d => d.count (Adr.KD_CNT 4)

/-- Delivery moves between the two copies at the next frame. -/
def Dev.kdDeliver (d : Dev) (standby : Bool) : Dev :=
  let d := d.when (standby && !d.bit Fld.KD_STATUS_ON_STANDBY) fun d => d.count (Adr.KD_CNT 7)
  d.putBit Fld.KD_STATUS_ON_STANDBY standby

/-- KD_STANDBY_TAKEOVER: CHN5 takes over; on a slice fault CHN4 is retired (R368, R381). -/
def execKdStandbyTakeover (fault : Bool) (s : State) : Host.Outcome State Fault Refusal :=
  s.on fun d => d.when (d.mode = 2 && !d.bit Fld.KD_STATUS_ON_STANDBY && !d.dead 14 1) fun d =>
    let e := d.esn
    let d := d.when fault fun d => d.retireUnit 14 0 e
    ((d.kdDeliver true).substitute 14 0 1 e).putBit Fld.KD_STATUS_STANDBY_READY false

/-- KD_TAKEOVER: a write of TAKEOVER moves delivery to the other copy. -/
def Dev.kdTakeover (d : Dev) : Dev :=
  let other := !d.bit Fld.KD_STATUS_ON_STANDBY
  d.when (d.mode = 2 && !d.dead 14 (if other then 1 else 0)) fun d => d.kdDeliver other

def execKdTakeover (s : State) : Host.Outcome State Fault Refusal := s.on fun d => d.kdTakeover

def execKdCntClr (s : State) : Host.Outcome State Fault Refusal := s.on fun d => d.clearCounters Adr.KD_CNT

end Sys2Proof.Machine
end

