-- ==== Sys2Proof/Machine/Mem.lean ====
section
/-! DEFINITION. The buffer memory controller: the word and page codes, poison, virgin pages, buckets, the word table,
retirement and patrol (R289 to R303). -/

namespace Sys2Proof.Machine

/-! ## The word code (R289) -/

/-- Ones in the low n bits of a value. -/
def weight : Nat → Nat → Nat
  | 0, _ => 0
  | n + 1, v => v % 2 + weight n (v / 2)

/-- The columns of the data bits: the 8-bit values of weight 3, then the eight smallest of weight 5. -/
def wordColumns : List Nat :=
  ((List.range 256).filter fun v => weight 8 v == 3) ++ ((List.range 256).filter fun v => weight 8 v == 5).take 8

/-- The check byte of a word: the XOR of the columns of its 1 bits. -/
def wordCheck (w : DWord) : Nat :=
  (wordColumns.zipIdx).foldl (fun a e => if w.getLsbD e.2 then a ^^^ e.1 else a) 0

/-- What a read finds: nothing wrong, a correction of the data, a poison candidate, or what the code cannot correct (R290). -/
inductive WordRead where
  | clean
  | corrected (data : DWord)
  | candidate
  | bad
  deriving DecidableEq, Repr

/-- The action on a word as read with its check byte as read. -/
def readWord (data : DWord) (check : Nat) : WordRead :=
  let s := check ^^^ wordCheck data
  if s = 0 then .clean
  else if weight 8 s = 1 then .corrected data
  else
    match wordColumns.findIdx? (· == s) with
    | some i => .corrected (data ^^^ (1#64 <<< i))
    | none => if s = 0xff ∧ data = poisonData then .candidate else .bad

/-! ## Storage -/

/-- The page of a word, and whether a page is still virgin (R298). -/
def pageOfWord (w : Nat) : Nat := w / 512

def Dev.virgin (d : Dev) (page : Nat) : Bool := !Tab.get (fun _ => false) d.mem.touched page

/-- A word's data as its writers left it. -/
def Dev.memWord (d : Dev) (w : Nat) : DWord := BitVec.ofNat 64 (leValue (d.bufRead (8 * w) 8))

/-- The bits of a word and of its check byte that stand wrong in storage. -/
def Dev.upset (d : Dev) (w : Nat) : Nat := Tab.get (fun _ => 0) d.mem.upsets w

/-- What a word should stand as in storage: its data, and its check byte (R289, R295, R298). -/
def Dev.storedData (d : Dev) (w : Nat) : DWord := if d.poisoned w then poisonData else d.memWord w

def Dev.storedCheck (d : Dev) (w : Nat) : Nat :=
  if d.virgin (pageOfWord w) then 0x0f
  else if d.poisoned w then wordCheck poisonData ^^^ 0xff
  else wordCheck (d.memWord w)

/-- What a read of a word finds in storage. -/
def Dev.foundData (d : Dev) (w : Nat) : DWord := d.storedData w ^^^ BitVec.ofNat 64 (d.upset w / 256)

def Dev.foundCheck (d : Dev) (w : Nat) : Nat := d.storedCheck w ^^^ d.upset w % 256

/-- The data that the word code delivers for a word. -/
def Dev.delivered (d : Dev) (w : Nat) : DWord :=
  match readWord (d.foundData w) (d.foundCheck w) with
  | .corrected x => x
  | _ => d.foundData w

/-- A word that the word code cannot correct. -/
def Dev.wordBad (d : Dev) (w : Nat) : Bool := readWord (d.foundData w) (d.foundCheck w) == .bad

def Dev.onMem (d : Dev) (f : MemSt → MemSt) : Dev := { d with mem := f d.mem }

/-- The last recorded event of the controller: its word and its kind. -/
def Dev.memErr (d : Dev) (w kind : Nat) : Dev := (d.put Fld.MEM_ERR_ADDR_WORD w).put Fld.MEM_ERR_KIND_KIND kind

/-! ## The page code (R291) -/

/-- The words of a page with upsets. -/
def Dev.upsetWords (d : Dev) (page : Nat) : List Nat := (d.mem.upsets.map (·.1)).filter fun w => pageOfWord w == page

/-- The difference that a page's data holds against its parity, as (symbol, difference) of its words: `f` gives the data
that stand for a word. -/
def Dev.pageDiff (d : Dev) (page : Nat) (f : Nat → DWord) : List (Nat × Nat) :=
  ((d.upsetWords page).map fun w =>
    let x := f w ^^^ d.storedData w
    (List.range 4).map fun k => (4 * (w % 512) + k, fieldOf64 x k)).flatten.filter fun e => e.2 != 0
where
  /-- 16-bit symbol k of a word. -/
  fieldOf64 (x : DWord) (k : Nat) : Nat := x.toNat / 65536 ^ k % 65536

/-- The page syndrome of a difference is zero: c(α^i) = 0 for i = 0 to 31. -/
def pageSyndromeZero (diff : List (Nat × Nat)) : Bool :=
  (List.range 32).all fun i =>
    diff.foldl (fun a e => a ^^^ gfMul 16 0x1100b e.2 (gfPow 16 0x1100b 2 (i * (2079 - e.1) % 65535))) 0 == 0

/-! ## Retirement (R302) -/

/-- A page retires: its copy to the next free spare begins; without a spare that no other copy has taken it stays in
use. -/
def Dev.startRetire (d : Dev) (page : Nat) : Dev :=
  if d.mem.retiring.contains page then d
  else if d.fld Fld.MEM_SPARE_FREE ≤ d.mem.retiring.length then d.putBit Fld.MEM_STATUS_SPARE_EMPTY true
  else d.onMem fun m => { m with retiring := m.retiring ++ [page] }

/-! ## Buckets (R300) -/

/-- The entry that a new page replaces: the lowest level among those without overflow and at level at most 1, the oldest
first. -/
def bucketVictim (l : List BucketSt) : Option BucketSt :=
  match l.find? fun b => b.overflows == 0 && b.level == 0 with
  | some b => some b
  | none => l.find? fun b => b.overflows == 0 && b.level == 1

/-- n is added to a page's level: an addition beyond 16 overflows, and the second overflow retires the page. -/
def Dev.addBucket (d : Dev) (page n : Nat) : Dev :=
  let enter (d : Dev) : Option Dev :=
    if d.mem.buckets.any fun b => b.page == page then some d
    else if d.mem.buckets.length < 1024 then some (d.onMem fun m => { m with buckets := m.buckets ++ [⟨page, 0, 0⟩] })
    else (bucketVictim d.mem.buckets).map fun v => d.onMem fun m => { m with buckets := m.buckets.erase v ++ [⟨page, 0, 0⟩] }
  match enter d with
  | none => d.putBit Fld.MEM_STATUS_BUCKET_FULL true
  | some d =>
    let change (f : BucketSt → BucketSt) (d : Dev) : Dev :=
      d.onMem fun m => { m with buckets := m.buckets.map fun b => if b.page = page then f b else b }
    let b := (d.mem.buckets.find? fun b => b.page == page).getD ⟨page, 0, 0⟩
    if b.level + n ≤ 16 then change (fun b => { b with level := b.level + n }) d
    else
      let d := change (fun b => { b with level := 0, overflows := b.overflows + 1 }) d
      let d := ((d.putBit Fld.MEM_STATUS_BUCKET_OVF true).count (Adr.MEM_CNT 7)).memErr (512 * page) 6
      let d := (d.event .memory 0 6 [page]).raise 64
      d.when (b.overflows = 1) fun d => d.startRetire page

/-! ## The word table (R301) -/

/-- A word is rewritten with the data x and their check byte: what then stands wrong in storage is how x differs from the
data of its writers. -/
def Dev.rewriteWord (d : Dev) (w : Nat) (x : DWord) : Dev :=
  let wrong := 256 * (x ^^^ d.storedData w).toNat + (wordCheck x ^^^ d.storedCheck w)
  d.onMem fun m => { m with upsets := Tab.set (fun _ => 0) m.upsets w wrong }

/-- A word corrected to x is tracked: at its third correction it is rewritten, and a correction after that retires its
page. -/
def Dev.trackWord (d : Dev) (w : Nat) (x : DWord) : Dev :=
  match d.mem.words.find? fun e => e.word == w with
  | some e =>
    if e.rewritten then d.startRetire (pageOfWord w)
    else if e.count = 2 then
      let d := d.onMem fun m => { m with
        words := m.words.map fun x => if x.word = w then { x with count := 3, rewritten := true } else x }
      ((d.rewriteWord w x).count (Adr.MEM_CNT 6)).memErr w 7
    else d.onMem fun m => { m with words := m.words.map fun x => if x.word = w then { x with count := x.count + 1 } else x }
  | none =>
    if d.mem.words.length < 256 then d.onMem fun m => { m with words := m.words ++ [⟨w, 1, false⟩] }
    else
      match d.mem.words.find? fun e => e.count == 1 with
      | some v => d.onMem fun m => { m with words := m.words.erase v ++ [⟨w, 1, false⟩] }
      | none => d.putBit Fld.MEM_STATUS_WORD_TABLE_FULL true

/-! ## Page decode (R293) -/

/-- The words that a failed decode poisons: those that the word code cannot correct, else all of the page. -/
def Dev.decodePoison (d : Dev) (page : Nat) : List Nat :=
  let bad := (d.upsetWords page).filter d.wordBad
  if bad.isEmpty then (List.range 512).map fun i => 512 * page + i else bad

/-- The data of a word as written at a failed decode. -/
def Dev.storeDelivered (d : Dev) (w : Nat) (x : DWord) : Dev :=
  d.onMem fun m => { m with bytes := Tab.write bufDefault m.bytes (8 * w) (leBytes 8 x.toNat) }

/-- A page decode: it succeeds when 2e + f ≤ 32. -/
def Dev.decodePage (d : Dev) (page : Nat) : Dev :=
  let ws := d.upsetWords page
  let bad := ws.filter d.wordBad
  let e := (d.pageDiff page fun w => if d.wordBad w then d.storedData w else d.delivered w).length
  let clear (d : Dev) : Dev := d.onMem fun m => { m with
    upsets := m.upsets.filter fun u => pageOfWord u.1 != page
    words := m.words.filter fun x => pageOfWord x.word != page }
  if 2 * e + 4 * bad.length ≤ 32 then
    ((((clear d).putBit Fld.MEM_STATUS_PAGE_DECODE true).count (Adr.MEM_CNT 1)).memErr (512 * page) 2).addBucket page 8
  else
    let marks := d.decodePoison page
    let good := ws.filter fun w => !marks.contains w && !d.poisoned w
    let vals := good.map fun w => (w, d.delivered w)
    let d := (clear (d.each vals fun d e => d.storeDelivered e.1 e.2)).each marks fun d w => d.setPoison w true
    let d := ((d.putBit Fld.MEM_STATUS_POISON_WRITTEN true).count (Adr.MEM_CNT 2)).memErr (marks.headD 0) 3
    (d.event .memory 0 3 [page, marks.length]).raise 64

/-! ## Reads (R290, R295, R299) -/

/-- The controller answers a read. -/
def Dev.respond (d : Dev) (data : DWord) (poison virgin : Bool) : Dev :=
  d.onMem fun m => { m with resp := ⟨data, poison, virgin⟩ }

/-- The answer once the page stands as its code has left it. -/
def Dev.serve (d : Dev) (w : Nat) : Dev := d.respond (d.storedData w) (d.poisoned w) false

/-- A correction is counted in the bucket and in the word table, and the data are delivered. -/
def Dev.correctWord (d : Dev) (w : Nat) (x : DWord) : Dev :=
  ((((d.respond x false false).count (Adr.MEM_CNT 0)).memErr w 1).addBucket (pageOfWord w) 1).trackWord w x

/-- A word is read through the word code. -/
def Dev.memReadWord (d : Dev) (w : Nat) : Dev :=
  match readWord (d.foundData w) (d.foundCheck w) with
  | .clean => d.respond (d.foundData w) false false
  | r =>
    if d.virgin (pageOfWord w) then
      ((d.respond 0 false true).putBit Fld.MEM_STATUS_VIRGIN_READ true).memErr w 5
    else
      match r with
      | .corrected x => d.correctWord w x
      | .candidate =>
        if pageSyndromeZero (d.pageDiff (pageOfWord w) d.foundData) then
          (((d.respond poisonData true false).putBit Fld.MEM_STATUS_POISON_READ true).count (Adr.MEM_CNT 3)).memErr w 4
        else (d.decodePage (pageOfWord w)).serve w
      | _ => (d.decodePage (pageOfWord w)).serve w

/-- A word of the usable buffer. -/
def Dev.usable (d : Dev) (w : Nat) : Bool := w < 512 * d.fld Fld.MEM_SIZE_PAGES

/-- Upsets are met in storage at a word. -/
def Dev.upsetBy (d : Dev) (w : Nat) (u : Upset) : Dev :=
  d.onMem fun m => { m with
    upsets := Tab.set (fun _ => 0) m.upsets w (Tab.get (fun _ => 0) m.upsets w ^^^ (256 * u.data.toNat + u.check.toNat)) }

/-- The channel that holds a word: lines of 256 B alternate between the two, and a lone channel holds every one (R287, R288). -/
def Dev.channelOf (d : Dev) (w : Nat) : Nat :=
  if d.bit Fld.MEM_CFG_ONE_CHANNEL then (if d.domainOn 75 then 0 else 1) else w / 32 % 2

/-- A copy of a channel's controller disagrees on a request for a word, which is issued again (R8). -/
def Dev.controllerCopy (d : Dev) (w : Nat) (copy : Option (Fin 2)) : Dev := d.copyDisagrees (d.channelOf w) copy

def execMemRead (word : Nat) (u : Upset) (s : State) : Host.Outcome State Fault Refusal :=
  s.on fun d => d.when (d.usable word) fun d => ((d.controllerCopy word u.copy).upsetBy word u).memReadWord word

/-! ## Writes (R292, R294, R299) -/

/-- A page's parity block is under update: the parity cache holds 64 and writes back the oldest. -/
def Dev.parityDelta (d : Dev) (page : Nat) : Dev :=
  d.onMem fun m =>
    if m.parity.contains page then m
    else { m with parity := (if m.parity.length < 64 then m.parity else m.parity.drop 1) ++ [page] }

/-- Words are read by the controller itself: no requester is answered, and a virgin page holds nothing to read. -/
def Dev.readInside (d : Dev) (ws : List Nat) : Dev :=
  (d.each ws fun d w => d.when (!d.virgin (pageOfWord w)) fun d => d.memReadWord w).onMem fun m => { m with resp := d.mem.resp }

/-- The words of the sub-blocks of 64 B that n words from `word` on touch: a write by delta reads them first. -/
def blockWords (word n : Nat) : List Nat :=
  (List.range (8 * (ceilDiv (word + n) 8 - word / 8))).map fun i => word / 8 * 8 + i

/-- Whole words are written: a whole aligned page has its parity computed fresh, any other write updates it by delta. -/
def Dev.memWriteWords (d : Dev) (word : Nat) (data : List DWord) : Dev :=
  let fresh : Bool := word % 512 == 0 && data.length == 512
  let l := (data.map fun x => leBytes 8 x.toNat).flatten
  if fresh then
    (d.bufWrite (8 * word) l).onMem fun m => { m with
      parity := m.parity.filter (· != pageOfWord word) }
  else
    let d := (d.readInside (blockWords word data.length)).bufWrite (8 * word) l
    d.each (touchedPages (8 * word) l.length) fun d p => d.parityDelta p

def execMemWrite (word : Nat) (data : WriteBurst) (s : State) : Host.Outcome State Fault Refusal :=
  s.on fun d => d.when (!data.words.isEmpty && d.usable (word + data.words.length - 1)) fun d =>
    (d.controllerCopy word data.copy).memWriteWords word data.words

/-- The bytes of a word with some replaced. -/
def mergeBytes (old : List Byte) (first : Nat) (new : List Byte) : List Byte :=
  old.take first ++ new ++ old.drop (first + new.length)

/-- A narrow write: read, merge and write; a poisoned word discards the bytes and stays poisoned. -/
def Dev.memNarrow (d : Dev) (word first : Nat) (data : List Byte) : Dev :=
  let resp := d.mem.resp
  let back (d : Dev) : Dev := d.onMem fun m => { m with resp := resp }
  let d := d.count (Adr.MEM_CNT 4)
  if d.virgin (pageOfWord word) then (d.bufWrite (8 * word + first) data).parityDelta (pageOfWord word)
  else
    let d := d.memReadWord word
    if d.mem.resp.poison then (back d).count (Adr.MEM_CNT 5)
    else
      let old := leBytes 8 d.mem.resp.data.toNat
      (((back d).readInside ((blockWords word 1).filter (· != word))).bufWrite (8 * word) (mergeBytes old first data)).parityDelta (pageOfWord word)

/-- A write of the bytes that fall in the word: all eight are no narrow write but one of the word, and none is no write. -/
def execMemNarrowWrite (word : Nat) (first : Fin 8) (data : NarrowBurst) (s : State) : Host.Outcome State Fault Refusal :=
  s.on fun d =>
    let l := data.bytes.take (8 - first.val)
    d.when (!l.isEmpty && d.usable word) fun d =>
      let d := d.controllerCopy word data.copy
      if l.length = 8 then d.memWriteWords word [BitVec.ofNat 64 (leValue l)] else d.memNarrow word first.val l

/-- A parity block leaves the parity cache. -/
def execParityWriteback (page : Nat) (s : State) : Host.Outcome State Fault Refusal :=
  s.on fun d => d.onMem fun m => { m with parity := m.parity.filter (· != page) }

/-! ## Retirement, leak, patrol, scrub (R288, R298, R300, R302, R303) -/

/-- A page is read through both codes: each word, of which those that stand whole and unmarked answer nothing new, and then the page
syndrome, which is decoded when it is not zero. A virgin page is passed over. -/
def Dev.patrolPage (d : Dev) (page : Nat) : Dev :=
  if d.virgin page then d
  else
    let marked := ((List.range 512).map (512 * page + ·)).filter fun w => d.poisoned w && d.upset w == 0
    let d := d.readInside (d.upsetWords page ++ marked)
    if pageSyndromeZero (d.pageDiff page d.delivered) then d else d.decodePage page

/-- The copy of a page ends: it was read through both codes, and the address reaches the spare from now on. -/
def execPageRetireDone (page : Nat) (s : State) : Host.Outcome State Fault Refusal :=
  s.on fun d =>
    if !d.mem.retiring.contains page then d
    else
      let d := d.patrolPage page
      let free := d.fld Fld.MEM_SPARE_FREE
      let spare := 1024 - free
      let e := d.esn
      let d := d.onMem fun m => { m with
        retiring := m.retiring.erase page
        spare := Tab.set (fun _ => 0) m.spare page (spare + 1)
        upsets := m.upsets.filter fun u => pageOfWord u.1 != page
        words := m.words.filter fun x => pageOfWord x.word != page
        buckets := m.buckets.filter fun b => b.page != page }
      let d := (d.put Fld.MEM_SPARE_FREE (free - 1)).put Fld.MEM_SPARE_RETIRED (d.fld Fld.MEM_SPARE_RETIRED + 1)
      let d := ((d.putBit Fld.MEM_STATUS_RETIRED true).memErr (512 * page) 8).event .memory 0 8 [page, spare]
      d.substitutePool 10 (page % 65536) spare e

/-- A 10 s boundary: every non-zero level falls by 1. -/
def execBucketLeak (s : State) : Host.Outcome State Fault Refusal :=
  s.on fun d => d.onMem fun m => { m with buckets := m.buckets.map fun b => { b with level := b.level - 1 } }

/-- The patrol reads the page at its position and goes on to the next. -/
def execMemPatrol (s : State) : Host.Outcome State Fault Refusal :=
  s.on fun d =>
    let n := d.fld Fld.MEM_SIZE_PAGES
    let pos := d.fld Fld.MEM_PATROL_POS_PAGE
    let d := d.when (pos < n) fun d => d.patrolPage pos
    d.put Fld.MEM_PATROL_POS_PAGE (if pos + 1 < n + 1024 then pos + 1 else 0)

/-- A channel re-tracks its timing: its accesses wait at most 1 µs, and nothing else changes. -/
def execWckRetrack (_ch : Fin 2) (s : State) : Host.Outcome State Fault Refusal := s.on fun d => d

/-- The scrubber writes the next page virgin, a page that is in use already being passed; the last one ends the scrub. -/
def execVirginScrub (s : State) : Host.Outcome State Fault Refusal :=
  s.on fun d =>
    if !d.bit Fld.MEM_STATUS_WS_READY || d.bit Fld.MEM_STATUS_SCRUB_DONE then d
    else
      let d := d.onMem fun m => { m with scrubbed := m.scrubbed + 1 }
      d.when (d.fld Fld.MEM_SIZE_PAGES + 1024 ≤ d.fld Fld.MEM_WS_PAGES + d.mem.scrubbed) fun d =>
        d.putBit Fld.MEM_STATUS_SCRUB_DONE true

def execMemCntClr (s : State) : Host.Outcome State Fault Refusal :=
  s.on fun d => d.clearCounters Adr.MEM_CNT

end Sys2Proof.Machine
end

