-- ==== Sys2Proof/Machine/Cache.lean ====
section
/-! DEFINITION. The shared cache: lookup, fill, replacement, reservations, snooping, twins, parity, spare frames and disabling
(R274 to R283). Data stand in the buffer as every requester sees it; the cache holds which lines it keeps and how. -/

namespace Sys2Proof.Machine

/-! ## Frames and lines (R274) -/

def frameKey (bank set way : Nat) : Nat := 16 * (128 * bank + set) + way

/-- The set of a line address A[33:8], as 128 × bank + set, and its tag. -/
def lineSet (line : Nat) : Nat := 128 * (line % 8) + line / 8 % 128
def lineTag (line : Nat) : Nat := line / 1024

/-- The line that a tag names in a set. -/
def lineOf (set tag : Nat) : Nat := 1024 * tag + 8 * (set % 128) + set / 128

def Dev.frame (d : Dev) (k : Nat) : CacheFrame := Tab.get (fun _ => {}) d.cache.frames k

def Dev.onCache (d : Dev) (f : CacheSt → CacheSt) : Dev := { d with cache := f d.cache }

def Dev.setFrame (d : Dev) (k : Nat) (f : CacheFrame) : Dev :=
  d.onCache fun c => { c with frames := Tab.set (fun _ => {}) c.frames k f }

/-- The partner of a frame: way w XOR 8 (R279). -/
def partnerKey (k : Nat) : Nat := if k % 16 < 8 then k + 8 else k - 8

/-- The way of a set that holds a line. -/
def Dev.lineWay (d : Dev) (set tag : Nat) : Option Nat :=
  (List.range 16).find? fun w => match (d.frame (16 * set + w)).line with
    | some l => l.tag == tag
    | none => false

/-- A one-bit mask of sub-block s. -/
def subBit (s : Nat) : BitVec 4 := 1#4 <<< s

/-- Dirty lines counted up or down. -/
def Dev.dirtyLines (d : Dev) (up : Bool) : Dev :=
  d.put Fld.CACHE_STATUS_DIRTY_LINES (if up then d.fld Fld.CACHE_STATUS_DIRTY_LINES + 1 else d.fld Fld.CACHE_STATUS_DIRTY_LINES - 1)

/-- The words of a frame read right again: they were rewritten, or the frame holds others (R280). -/
def Dev.unstruck (d : Dev) (k : Nat) : Dev := d.onCache fun c => { c with struck := c.struck.filter (· != k) }

/-- A frame's line takes new dirty bits: the twin exists while any are set (R279). -/
def Dev.setDirty (d : Dev) (k : Nat) (l : CacheLine) (dirty : BitVec 4) : Dev :=
  let d' := d.setFrame k { d.frame k with line := some { l with dirty := dirty } }
  let p := partnerKey k
  if l.dirty ≠ 0 ∧ dirty = 0 then ((d'.setFrame p { d.frame p with twin := false }).unstruck p).dirtyLines false
  else if l.dirty = 0 ∧ dirty ≠ 0 then
    ((d'.setFrame p { d.frame p with line := none, twin := true }).unstruck p).dirtyLines true
  else d'

/-- Number of sub-blocks in a mask. -/
def subCount (m : BitVec 4) : Nat := ((List.range 4).filter m.getLsbD).length

/-- A line's dirty sub-blocks reach DRAM, and it becomes clean. -/
def Dev.writeOut (d : Dev) (k : Nat) : Dev :=
  match (d.frame k).line with
  | some l => if l.dirty = 0 then d else (d.countBy (Adr.CACHE_CNT 2) (subCount l.dirty)).setDirty k l 0
  | none => d

/-- The frame whose dirty sub-blocks leave with a frame: its own, or its partner where it holds that one's twin. -/
def Dev.lineFrame (d : Dev) (k : Nat) : Nat := if (d.frame k).twin then partnerKey k else k

/-- A frame loses its line, the dirty sub-blocks that it or its partner holds reaching DRAM. -/
def Dev.dropFrame (d : Dev) (k : Nat) : Dev :=
  let d := d.writeOut (d.lineFrame k)
  (d.setFrame k { d.frame k with line := none }).unstruck k

/-! ## Replacement (R275, R276, R277) -/

/-- A requester fills lines at all. -/
def Dev.allocates (d : Dev) (r : Nat) : Bool := d.bit (Fld.CACHE_MASK_ALLOC r) && d.fld (Fld.CACHE_MASK_MASK r) != 0

/-- Another requester has reserved the pair of a way. -/
def Dev.reservedFrom (d : Dev) (r way : Nat) : Bool :=
  d.bit (Fld.CACHE_RSV_EN (way % 8)) && d.fld (Fld.CACHE_RSV_REQ (way % 8)) != r

/-- A requester may fill a way of a set. -/
def Dev.mayFill (d : Dev) (r set way : Nat) : Bool :=
  d.maskBit (Fld.CACHE_MASK_MASK r) way && !d.reservedFrom r way && !(d.frame (16 * set + way)).off

/-- The way that tree bits point to among those allowed: `n` levels remain over 2^n ways from `lo`, `node` is the tree's
node. -/
def plruPick (tree : Nat) (ok : Nat → Bool) : Nat → Nat → Nat → Option Nat
  | 0, lo, _ => if ok lo then some lo else none
  | n + 1, lo, node =>
    let left := plruPick tree ok n lo (2 * node)
    let right := plruPick tree ok n (lo + 2 ^ n) (2 * node + 1)
    if tree.testBit node then right <|> left else left <|> right

/-- The tree after a use of a way: every node on its path points away from it. -/
def plruTouch (tree way : Nat) : Nat → Nat → Nat
  | 0, _ => tree
  | n + 1, node =>
    let b := way.testBit n
    let tree := plruTouch tree way n (2 * node + b.toNat)
    let low := tree - (if tree.testBit node then 2 ^ node else 0)
    if b then low else low + 2 ^ node

def Dev.touchWay (d : Dev) (set way : Nat) : Dev :=
  d.onCache fun c => { c with trees := Tab.upd (fun _ => 0) c.trees set fun t => plruTouch t way 4 1 }

/-- A frame without a line that is no twin either. -/
def Dev.invalid (d : Dev) (k : Nat) : Bool := (d.frame k).line.isNone && !(d.frame k).twin

/-- Among the ways allowed, the one that a fill takes: an invalid one first, else by the tree. -/
def Dev.pickWay (d : Dev) (set : Nat) (ok : Nat → Bool) : Option Nat :=
  match (List.range 16).find? fun w => ok w && d.invalid (16 * set + w) with
  | some w => some w
  | none => plruPick (Tab.get (fun _ => 0) d.cache.trees set) ok 4 0 1

/-- A way of the pair from which a snoop took a line, that the requester still has reserved (R278). -/
def Dev.refetchWay (d : Dev) (r line way : Nat) : Bool :=
  d.cache.snooped.contains (line, way % 8) && d.bit (Fld.CACHE_RSV_EN (way % 8)) && d.fld (Fld.CACHE_RSV_REQ (way % 8)) == r

/-- The way that a requester's fill of a line takes: one of its reserved pair where a snoop took the line from there. -/
def Dev.victim (d : Dev) (r line : Nat) : Option Nat :=
  let set := lineSet line
  (d.pickWay set fun w => d.mayFill r set w && d.refetchWay r line w).orElse fun _ => d.pickWay set (d.mayFill r set)

/-! ## Counting hits and misses (R285) -/

def Dev.countHit (d : Dev) : Dev :=
  let n := d.cache.hits + 1
  (d.onCache fun c => { c with hits := n % 1024 }).when (n = 1024) fun d => d.count (Adr.CACHE_CNT 0)

def Dev.countMiss (d : Dev) : Dev :=
  let n := d.cache.misses + 1
  (d.onCache fun c => { c with misses := n % 1024 }).when (n = 1024) fun d => d.count (Adr.CACHE_CNT 1)

/-! ## Parity and spare frames (R280 to R282) -/

/-- A frame is remapped to a spare frame of its bank, or disabled without one (R282). -/
def Dev.spareFrame (d : Dev) (k : Nat) : Dev :=
  let bank := k / 2048
  let e := d.esn
  let d := d.dropFrame k
  if 0 < d.fld (Fld.CACHE_SPARE_FREE bank) then
    let d := (d.setFrame k { d.frame k with errors := 0 }).put (Fld.CACHE_SPARE_FREE bank) (d.fld (Fld.CACHE_SPARE_FREE bank) - 1)
    ((d.putBit Fld.CACHE_STATUS_FRAME_SPARED true).event .cache bank 1 [k]).substitutePool 9 (k % 65536) 0xffff e
  else
    let d := (d.setFrame k { d.frame k with off := true }).put (Fld.CACHE_SPARE_DISABLED bank)
      (d.fld (Fld.CACHE_SPARE_DISABLED bank) + 1)
    (d.event .cache bank 2 [k]).judge 9

/-- A frame counts a parity error; the third one spares it. -/
def Dev.frameError (d : Dev) (k : Nat) : Dev :=
  let n := (d.frame k).errors + 1
  let d := d.setFrame k { d.frame k with errors := n }
  d.when (3 ≤ n) fun d => d.spareFrame k

/-- The double failure of a dirty sub-block: it is written back with the failed words marked, then invalidated, and the
task that dirtied it restarts, MEM_PARITY its CAUSE (log 113). -/
def Dev.doubleFailure (d : Dev) (k s : Nat) (words : List Nat) : Dev :=
  match (d.frame k).line with
  | none => d
  | some l =>
    let line := lineOf (k / 16) l.tag
    let d := d.each words fun d w => d.setPoison (32 * line + 8 * s + w) true
    let d := (d.count (Adr.CACHE_CNT 2)).setDirty k l (l.dirty &&& ~~~subBit s)
    let l := { l with dirty := l.dirty &&& ~~~subBit s, valid := l.valid &&& ~~~subBit s }
    let d := d.setFrame k { d.frame k with line := if l.valid = 0 then none else some l }
    let d := ((d.putBit Fld.CACHE_STATUS_DOUBLE_FAIL true).put Fld.CACHE_ERR_ADDR_LINE line).count (Adr.CACHE_CNT 5)
    let d := d.event .cache (k / 2048) 3 [line, s]
    match l.task with
    | some t => (d.onTask t fun x => { x with cause := causeParity }).restartAlone t
    | none => d

/-- Words of a dirty sub-block fail parity, in the frame of its line and in the twin: those that one copy holds right are corrected from
it, and a word that both have lost is a double failure. Each frame counts its own error (R280 to R282). -/
def Dev.dirtyError (d : Dev) (k s : Nat) (words twinBad : List Nat) : Dev :=
  let both := words.filter twinBad.contains
  let d := if both.isEmpty then (d.putBit Fld.CACHE_STATUS_TWIN_CORRECTED true).count (Adr.CACHE_CNT 4)
    else d.doubleFailure k s both
  let d := (d.unstruck k).unstruck (partnerKey k)
  (d.when (!words.isEmpty) fun d => d.frameError k).when (!twinBad.isEmpty) fun d => d.frameError (partnerKey k)

/-- Words of a sub-block fail parity where they are read, in a frame and in its partner: a clean sub-block is refetched, a dirty one is
corrected; a frame that holds a twin answers with its partner's line (R280). -/
def Dev.parityError (d : Dev) (k s : Nat) (words twinBad : List Nat) : Dev :=
  let twin := (d.frame k).twin
  let home := d.lineFrame k
  match (d.frame home).line with
  | none => d
  | some l =>
    if !l.valid.getLsbD s || words.isEmpty then d
    else if l.dirty.getLsbD s then if twin then d.dirtyError home s twinBad words else d.dirtyError home s words twinBad
    else if twin then d
    else (((d.putBit Fld.CACHE_STATUS_CLEAN_REFETCH true).count (Adr.CACHE_CNT 3)).unstruck k).frameError k

/-- The words of a sub-block that stand struck in a frame. -/
def Dev.struckWords (d : Dev) (k : Nat) (words : List Nat) : List Nat := if d.cache.struck.contains k then words else []

/-- A line's dirty sub-blocks are written back, their parity checked as they are read (R280). -/
def Dev.writeBack (d : Dev) (k : Nat) : Dev :=
  let all := List.range 8
  let dirty : List Nat := match (d.frame k).line with
    | some l => (List.range 4).filter l.dirty.getLsbD
    | none => []
  let d := d.each dirty fun d s => d.parityError k s (d.struckWords k all) (d.struckWords (partnerKey k) all)
  d.writeOut k

/-- A frame is emptied: the dirty sub-blocks that it or its partner holds are written back first. -/
def Dev.emptyFrame (d : Dev) (k : Nat) : Dev := (d.writeBack (d.lineFrame k)).dropFrame k

/-! ## Access (R275 to R279) -/

/-- A piece of an access: its line, sub-block, and the bytes stored from a byte on (none for a load). -/
structure CachePiece where
  line : Nat
  sub : Nat
  byte : Nat
  len : Nat
  store : Option (List Byte)

/-- The pieces of an access by sub-block. -/
def cachePieces (r : CacheReq) : List CachePiece :=
  let a := r.addr.toNat
  let n := match r.store with
    | some l => l.length
    | none => r.len
  (List.range (ceilDiv (a + n) 64 - a / 64)).map fun i =>
    let g := a / 64 + i
    let lo := max a (64 * g)
    let hi := min (a + n) (64 * g + 64)
    { line := g / 4, sub := g % 4, byte := lo - 64 * g, len := hi - lo
      store := r.store.map fun l => bytesAt l (lo - a) (hi - lo) }

/-- The buffer address of a piece. -/
def CachePiece.addr (p : CachePiece) : Nat := 256 * p.line + 64 * p.sub + p.byte

/-- The page of a piece is virgin: virgin data is not allocated (R299). -/
def Dev.pieceVirgin (d : Dev) (p : CachePiece) : Bool := !Tab.get (fun _ => false) d.mem.touched (p.addr / pageBytes)

/-- A line that a snoop took from a reserved pair is refetched into one (R278, R285). -/
def Dev.refetched (d : Dev) (line way : Nat) : Dev :=
  d.when (d.cache.snooped.any fun e => e.1 == line) fun d =>
    (d.onCache fun c => { c with snooped := c.snooped.filter fun e => e.1 != line }).when (d.bit (Fld.CACHE_RSV_EN (way % 8))) fun d =>
      d.count (Adr.CACHE_CNT 7)

/-- A sub-block is brought into a way of its set, the way's old content leaving first where it is another line. -/
def Dev.fillSub (d : Dev) (p : CachePiece) (w : Nat) : Dev :=
  let k := 16 * lineSet p.line + w
  match (d.frame k).line with
  | some l =>
    if l.tag = lineTag p.line then d.setFrame k { d.frame k with line := some { l with valid := l.valid ||| subBit p.sub } }
    else
      let d := d.emptyFrame k
      (d.setFrame k { d.frame k with line := some { tag := lineTag p.line, valid := subBit p.sub } }).refetched p.line w
  | none =>
    let d := d.emptyFrame k
    (d.setFrame k { d.frame k with line := some { tag := lineTag p.line, valid := subBit p.sub } }).refetched p.line w

/-- The way into which a missing sub-block goes: that of its line where the line is held, else a victim. -/
def Dev.fillWay (d : Dev) (r : Nat) (p : CachePiece) : Option Nat :=
  if !d.allocates r then none
  else
    match d.lineWay (lineSet p.line) (lineTag p.line) with
    | some w => if d.mayFill r (lineSet p.line) w then some w else none
    | none => d.victim r p.line

/-- The sub-block is held: its way. -/
def Dev.hitWay (d : Dev) (p : CachePiece) : Option Nat :=
  (d.lineWay (lineSet p.line) (lineTag p.line)).filter fun w =>
    match (d.frame (16 * lineSet p.line + w)).line with
    | some l => l.valid.getLsbD p.sub
    | none => false

/-- A store reaches a held sub-block: it becomes dirty with its twin, and its owner is recorded; where the partner frame is
disabled the line stays clean and the store goes through. -/
def Dev.dirtySub (d : Dev) (r : CacheReq) (p : CachePiece) (w : Nat) : Dev :=
  let k := 16 * lineSet p.line + w
  match (d.frame k).line with
  | none => d
  | some l =>
    if (d.frame (partnerKey k)).off then d
    else d.setDirty k { l with owner := r.req.val, task := r.task.map (·.val) } (l.dirty ||| subBit p.sub)

/-- A cached copy of a sub-block is invalidated, dirty or clean, with its twin; one in a reserved pair is remembered. -/
def Dev.dropSub (d : Dev) (p : CachePiece) : Dev :=
  match d.hitWay p with
  | none => d
  | some w =>
    let k := 16 * lineSet p.line + w
    match (d.frame k).line with
    | none => d
    | some l =>
      let d := d.setDirty k l (l.dirty &&& ~~~subBit p.sub)
      let l := { l with dirty := l.dirty &&& ~~~subBit p.sub, valid := l.valid &&& ~~~subBit p.sub }
      let d := d.setFrame k { d.frame k with line := if l.valid = 0 then none else some l }
      d.when (d.bit (Fld.CACHE_RSV_EN (w % 8)) && !d.cache.snooped.contains (p.line, w % 8)) fun d =>
        d.onCache fun c => { c with snooped := (p.line, w % 8) :: c.snooped }

/-- A store into the buffer: a narrow one leaves a poisoned word as it is (R294, R296). -/
def Dev.bufStore (d : Dev) (a : Nat) (l : List Byte) : Dev :=
  if l.length < 8 ∧ d.anyPoison a l.length then d else d.bufWrite a l

/-- The bytes of a piece reach the buffer as every requester sees it. -/
def Dev.pieceData (d : Dev) (p : CachePiece) : Dev :=
  match p.store with
  | some l => d.bufStore p.addr l
  | none => d

/-- Words of its sub-block that a piece touches. -/
def CachePiece.words (p : CachePiece) : List Nat :=
  (List.range (ceilDiv (p.byte + p.len) 8 - p.byte / 8)).map fun i => p.byte / 8 + i

/-- The parity of the words that an access reads in the way that answers is checked. -/
def Dev.checkWay (d : Dev) (p : CachePiece) (w : Nat) : Dev :=
  let k := 16 * lineSet p.line + w
  d.parityError k p.sub (d.struckWords k p.words) (d.struckWords (partnerKey k) p.words)

/-- One piece of an access while the cache is enabled. -/
def Dev.cachePiece (d : Dev) (r : CacheReq) (p : CachePiece) : Dev :=
  let whole : Bool := p.len == 64
  let set := lineSet p.line
  match p.store with
  | none =>
    match d.hitWay p with
    | some w => ((d.countHit).touchWay set w).checkWay p w
    | none =>
      let d := d.countMiss
      if d.pieceVirgin p then d
      else
        match d.fillWay r.req.val p with
        | some w => (d.fillSub p w).touchWay set w
        | none => d
  | some _ =>
    if d.allocates r.req.val then
      match d.hitWay p with
      | some w => ((((d.countHit).touchWay set w).checkWay p w).dirtySub r p w).pieceData p
      | none =>
        let d := d.countMiss
        match d.fillWay r.req.val p with
        | some w => (((d.fillSub p w).touchWay set w).dirtySub r p w).pieceData p
        | none => (d.dropSub p).pieceData p
    else if whole then (d.dropSub p).pieceData p
    else
      match d.hitWay p with
      | some w => ((((d.countHit).touchWay set w).checkWay p w).dirtySub r p w).pieceData p
      | none => d.countMiss.pieceData p

/-- One piece of an access while a disable runs, or with the cache off: a store goes through and invalidates, a load is
served without allocation (R283). -/
def Dev.throughPiece (d : Dev) (p : CachePiece) : Dev :=
  match p.store with
  | some _ => (d.dropSub p).pieceData p
  | none => d

/-- Lines that a transfer covers whole and that were held are counted as invalidated by a range snoop. -/
def Dev.rangeSnoops (d : Dev) (r : CacheReq) (ps : List CachePiece) : Dev :=
  if d.allocates r.req.val || r.store.isNone then d
  else
    let lines := ((ps.filter fun p => p.len == 64).map (·.line)).eraseDups.filter fun l =>
      (ps.filter fun p => p.len == 64 && p.line == l).length == 4 && (d.lineWay (lineSet l) (lineTag l)).isSome
    d.countBy (Adr.CACHE_CNT 6) lines.length

/-- An access to the buffer is served: by the cache while it is enabled, else past it (R35, R275 to R279, R283). -/
def Dev.cacheServe (d : Dev) (r : CacheReq) : Dev :=
  let ps := cachePieces r
  if d.bit Fld.CACHE_STATUS_ENABLED && !d.bit Fld.CACHE_STATUS_DISABLE_PENDING then
    (d.rangeSnoops r ps).each ps fun d p => d.cachePiece r p
  else d.each ps fun d p => d.throughPiece p

/-- Frames as keys. -/
def frameRefKey (f : FrameRef) : Nat := frameKey f.bank.val f.set.val f.way.val

/-- Upsets strike frames: their words fail parity when they are next read, by an access, a write-back or the patrol (R280). -/
def Dev.strike (d : Dev) (l : List Nat) : Dev := d.onCache fun c => { c with struck := c.struck ++ l }

/-- An access that reaches the shared cache, once upsets have struck the frames named. -/
def execCacheAccess (r : CacheReq) (parity : List FrameRef) (s : State) : Host.Outcome State Fault Refusal :=
  s.on fun d =>
    let n := match r.store with
      | some l => l.length
      | none => r.len
    if d.fld Fld.MEM_SIZE_PAGES * pageBytes < r.addr.toNat + n then d
    else (d.strike (parity.map frameRefKey)).cacheServe r

/-- The patrol reads a valid frame: words of bad parity by sub-block, in the frame and in its twin (R280). -/
def execCachePatrol (f : FrameRef) (bad twinBad : List (Fin 4 × Fin 8)) (s : State) : Host.Outcome State Fault Refusal :=
  s.on fun d => d.each (List.range 4) fun d sub =>
    let k := frameRefKey f
    let pick (k : Nat) (l : List (Fin 4 × Fin 8)) : List Nat :=
      if d.cache.struck.contains k then List.range 8 else (l.filter fun e => e.1.val == sub).map fun e => e.2.val
    d.parityError k sub (pick k bad) (pick (partnerKey k) twinBad)

/-! ## Enabling, reserving (R277, R283) -/

/-- ENABLE is written 1: the cache serves, or the write is held while a disable runs. -/
def Dev.cacheOn (d : Dev) : Dev :=
  let d := d.putBit Fld.CACHE_CTRL_ENABLE true
  if d.bit Fld.CACHE_STATUS_DISABLE_PENDING then d.putBit Fld.CACHE_STATUS_ENABLE_HELD true
  else d.putBit Fld.CACHE_STATUS_ENABLED true

/-- ENABLE is written 0: while the cache serves, the disable begins; a held enable is withdrawn. -/
def Dev.cacheOff (d : Dev) : Dev :=
  let d := (d.putBit Fld.CACHE_CTRL_ENABLE false).putBit Fld.CACHE_STATUS_ENABLE_HELD false
  d.when (d.bit Fld.CACHE_STATUS_ENABLED) fun d => d.putBit Fld.CACHE_STATUS_DISABLE_PENDING true

/-- Every dirty sub-block is written back and every line is invalidated; a held enable then takes effect. -/
def execCacheDisableDone (s : State) : Host.Outcome State Fault Refusal :=
  s.on fun d =>
    if !d.bit Fld.CACHE_STATUS_DISABLE_PENDING then d
    else
      let d := d.each (d.cache.frames.map (·.1)) fun d k => d.writeBack k
      let d := d.each (d.cache.frames.map (·.1)) fun d k => d.setFrame k { d.frame k with line := none, twin := false }
      let d := d.onCache fun c => { c with struck := [] }
      let held := d.bit Fld.CACHE_STATUS_ENABLE_HELD
      ((d.putBit Fld.CACHE_STATUS_DISABLE_PENDING false).putBit Fld.CACHE_STATUS_ENABLE_HELD false).putBit
        Fld.CACHE_STATUS_ENABLED held

/-- A write of CACHE_RSVp: reserving a pair that another requester holds is refused. -/
def Dev.cacheReserve (d : Dev) (p : Nat) (v : Word) : Dev :=
  let en := fieldOf v 31 1
  let req := fieldOf v 0 4
  if en = 1 ∧ d.bit (Fld.CACHE_RSV_EN p) ∧ d.fld (Fld.CACHE_RSV_REQ p) ≠ req then d.putBit Fld.CACHE_STATUS_RSV_REFUSED true
  else (d.put (Fld.CACHE_RSV_EN p) en).put (Fld.CACHE_RSV_REQ p) req

def execCacheReserve (p : Fin 8) (v : Word) (s : State) : Host.Outcome State Fault Refusal :=
  s.on fun d => d.cacheReserve p.val v

def execCacheCntClr (s : State) : Host.Outcome State Fault Refusal :=
  s.on fun d => d.clearCounters Adr.CACHE_CNT

end Sys2Proof.Machine
end

