-- ==== Sys2Proof/Machine/Security.lean ====
section
/-! DEFINITION. Nonces, tokens, grants and two-party changes, and the quote of the audit chain (R395 to R405, R410). -/

namespace Sys2Proof.Machine

def Dev.onSec (d : Dev) (f : SecSt → SecSt) : Dev := { d with sec := f d.sec }

/-! ## Keys (R398) -/

/-- The key held in a slot. -/
def Dev.keyOf (d : Dev) (slot : Nat) : List Byte := Tab.get (fun _ => []) d.sec.keys slot

/-- A slot shows as enrolled and unrevoked. -/
def Dev.slotShown (d : Dev) (slot : Nat) : Bool :=
  if slot < 4 then d.maskBit Fld.SEC_KEYS_MAKER_VALID slot && !d.maskBit Fld.SEC_KEYS_MAKER_REVOKED slot
  else if slot < 8 then d.maskBit Fld.SEC_KEYS_INSTALLER (slot - 4)
  else slot < 12 && d.maskBit Fld.SEC_KEYS_SIGNING (slot - 8)

/-- A slot's key may be used: a maker key through its fuse hash, another only with a key table that checks. -/
def Dev.keyUsable (d : Dev) (slot : Nat) : Bool :=
  d.slotShown slot && (d.keyOf slot).length == 96 &&
    (if slot < 4 then sha384 (d.keyOf slot) == Tab.get (fun _ => []) d.sec.makerHash slot else d.bit Fld.SEC_STATUS_KEYS_OK)

/-- An installer slot is enrolled. -/
def Dev.installerEnrolled (d : Dev) : Bool := d.fld Fld.SEC_KEYS_INSTALLER != 0

/-! ## Nonces (R400) -/

/-- NONCES and PENDING show what is outstanding. -/
def Dev.showNonces (d : Dev) : Dev :=
  (d.put Fld.SEC_STATUS_NONCES d.sec.nonces.length).putBit Fld.SEC_STATUS_PENDING (d.sec.nonces.any fun n => n.held.isSome)

/-- A nonce ends; the change held on it is dropped, counted and recorded (R404). -/
def Dev.endNonce (d : Dev) (n : NonceSt) : Dev :=
  let d := d.onSec fun s => { s with nonces := s.nonces.filter fun m => m.id != n.id }
  let d := match n.held with
    | some h => (d.count (Adr.SEC_CNT 4)).auditWith 0 0 0x0400 failed (h.slot + 0xf0)
        (leBytes 4 n.id ++ leBytes 2 (fieldAt h.request 0 2))
    | none => d
  d.showNonces

/-- A nonce is issued, with random bytes; a ninth ends the oldest. -/
def Dev.issueNonce (d : Dev) : NonceSt × Dev :=
  let d := match d.sec.nonces with
    | n :: _ => if 8 ≤ d.sec.nonces.length then d.endNonce n else d
    | [] => d
  let n : NonceSt := { id := d.sec.nextNonce, esn := d.esn, bytes := d.freeBytes 48 }
  let d := (d.drewMany 48).issue
  let d := d.onSec fun s => { s with nonces := s.nonces ++ [n], nextNonce := (s.nextNonce + 1) % 2 ^ 32 }
  (n, (d.count (Adr.SEC_CNT 0)).showNonces)

/-- The 64 bytes of a nonce record. -/
def nonceRecord (n : NonceSt) : List Byte :=
  leBytes 4 n.id ++ leBytes 6 n.esn.toNat ++ leBytes 2 600 ++ leBytes 4 0 ++ n.bytes

/-! ## The form of a token (R401, R402) -/

def tokSlot (l : List Byte) : Nat := fieldAt l 7 1
def tokNonce (l : List Byte) : Nat := fieldAt l 8 4
def tokRequest (l : List Byte) : List Byte := bytesAt l 64 256
def reqAction (r : List Byte) : Nat := fieldAt r 0 2
def reqDsn (r : List Byte) : Nat := fieldAt r 4 8
def reqTarget (r : List Byte) : Nat := fieldAt r 12 1
def reqDigest (r : List Byte) : List Byte := bytesAt r 16 48
/-- n bytes of PARAMS from byte k. -/
def reqParam (r : List Byte) (k n : Nat) : Nat := fieldAt r (64 + k) n
def reqKey (r : List Byte) : List Byte := bytesAt r 80 96

def actRoleGrant : Nat := 0x0001
def actSetKey : Nat := 0x0101
def actRevokeKey : Nat := 0x0102
def actAuditPolicy : Nat := 0x0103
def actModeLock : Nat := 0x0104
def actFuse : Nat := 0x0105

/-- PARAMS from byte k on are 0. -/
def paramsEnd (r : List Byte) (k : Nat) : Bool := allZero (r.drop (64 + k))

/-- A REQUEST whose ACTION is known, whose PARAMS are within range and whose unused fields are 0; a SET_KEY's DIGEST is that
of its key. -/
def requestOk (r : List Byte) : Bool :=
  let a := reqAction r
  let bare := allZero (reqDigest r)
  fieldAt r 2 2 == 0 && fieldAt r 13 3 == 0 && (a == actRoleGrant || reqTarget r == 0) &&
    (if a = actRoleGrant then
      bare && (reqParam r 0 1 == 2 || reqParam r 0 1 == 3) && reqParam r 1 3 == 0 && 1 ≤ reqParam r 4 4
        && reqParam r 4 4 ≤ 86400 && paramsEnd r 8 && reqTarget r ≤ 0x41
    else if a = actSetKey then
      4 ≤ reqParam r 0 1 && reqParam r 0 1 ≤ 11 && reqParam r 1 15 == 0 && paramsEnd r 112 && sha384 (reqKey r) == reqDigest r
    else if a = actRevokeKey then bare && reqParam r 0 1 ≤ 11 && paramsEnd r 1
    else if a = actAuditPolicy then
      bare && 1 ≤ reqParam r 0 2 && reqParam r 0 2 ≤ 3600 && reqParam r 2 1 ≤ 1 && paramsEnd r 3
    else if a = actModeLock then bare && reqParam r 0 1 ≤ 2 && paramsEnd r 1
    else if a = actFuse then bare && reqParam r 0 1 ≤ 31 && reqParam r 1 3 == 0 && paramsEnd r 8
    else false)

/-- MAGIC, FORMAT, reserved bytes and the REQUEST of a token. -/
def tokenOk (l : List Byte) : Bool :=
  bytesAt l 0 4 == [0x58, 0x45, 0x4e, 0x44] && fieldAt l 4 2 == 1 && fieldAt l 6 1 == 0 && tokSlot l ≤ 7 && fieldAt l 12 4 == 0
    && allZero (bytesAt l 416 96) && requestOk (tokRequest l)

/-- Kind and object of a change (R404). -/
def changeObject (r : List Byte) : Nat × Nat :=
  (reqAction r, if reqAction r = actAuditPolicy ∨ reqAction r = actModeLock then 0 else reqParam r 0 1)

/-! ## The checks (R403, R405) -/

/-- The token is bound to this device and its submitter. -/
def Dev.tokenBound (d : Dev) (h : RoleHolder) (r : List Byte) : Bool :=
  let service := h == .service
  reqDsn r == d.sec.dsn &&
    (if reqAction r = actRoleGrant then
      match h with
      | .pair q => reqTarget r == q.val || reqTarget r == 0x40
      | .bar0 => reqTarget r == 0x40
      | .service => reqTarget r == 0x41
    else reqAction r != actFuse || service)

/-- The slot is usable and may sign the action; a maker key does not sign its own revocation (R402). -/
def Dev.tokenKeyOk (d : Dev) (slot : Nat) (r : List Byte) : Bool :=
  d.keyUsable slot &&
    (if reqAction r = actRoleGrant then (if reqParam r 0 1 = 3 then slot < 4 else 4 ≤ slot)
    else if reqAction r = actRevokeKey then 4 ≤ reqParam r 0 1 || slot != reqParam r 0 1
    else reqAction r != actFuse || reqParam r 0 1 == 0)

/-- The key mix of a change (R402). -/
def Dev.keyMixOk (d : Dev) (a b : Nat) (r : List Byte) : Bool :=
  let mixed := (a < 4) != (b < 4)
  let act := reqAction r
  a != b &&
    (if act = actSetKey ∨ (act = actRevokeKey ∧ 4 ≤ reqParam r 0 1) then
      (if d.installerEnrolled then mixed else mixed || (a < 4 && b < 4))
    else if act = actRevokeKey ∨ act = actFuse then mixed
    else true)

/-- A fuse burn that would set a bit of a field of row 0 that is already non-zero. -/
def fuseTaken (old bits : Nat) : Bool :=
  (bits % 65536 != 0 && old % 65536 != 0) || (bits / 65536 != 0 && old / 65536 != 0)

/-- A change that R405 refuses. -/
def Dev.changeRefused (d : Dev) (r : List Byte) : Bool :=
  let slot := reqParam r 0 1
  let others (lo hi : Nat) : Bool := (List.range 12).any fun k => lo ≤ k && k < hi && k != slot && d.slotShown k
  if reqAction r = actRevokeKey then
    if slot < 4 then !others 0 4 else 8 ≤ slot && d.slotShown slot && !others 8 12
  else if reqAction r = actSetKey then
    (List.range 12).any fun k => k != slot && d.slotShown k && d.keyOf k == reqKey r
  else if reqAction r = actFuse then
    reqParam r 0 1 != 0 || fuseTaken (Tab.get (fun _ => (0 : Word)) d.sec.fuses 0).toNat (reqParam r 4 4)
  else false

/-- DENY_REASON codes. -/
def denyFormat : Nat := 1
def denyNonce : Nat := 2
def denyBinding : Nat := 3
def denyKey : Nat := 4
def denySignature : Nat := 5
def denyMismatch : Nat := 6
def denySameKey : Nat := 7
def denyStale : Nat := 8

/-- The nonce that a token names and matches. -/
def Dev.tokenNonce (d : Dev) (l : List Byte) : Option NonceSt :=
  d.sec.nonces.find? fun n => n.id == tokNonce l && n.bytes == bytesAt l 16 48

/-- The first check of R403 that a second signature fails, 0 for none. -/
def Dev.secondCheck (d : Dev) (held : HeldToken) (l : List Byte) : Nat :=
  let r := tokRequest l
  if held.request ≠ r then denyMismatch
  else if !d.keyMixOk held.slot (tokSlot l) r then denySameKey
  else if held.stale then denyStale
  else if d.changeRefused r then denyKey
  else 0

/-- The first check of R403 that a token fails, 0 for none. -/
def Dev.tokenCheck (d : Dev) (h : RoleHolder) (l : List Byte) : Nat :=
  let r := tokRequest l
  if !tokenOk l then denyFormat
  else
    match d.tokenNonce l with
    | none => denyNonce
    | some n =>
      if !d.tokenBound h r then denyBinding
      else if !d.tokenKeyOk (tokSlot l) r then denyKey
      else if !ecdsaVerify (d.keyOf (tokSlot l)) (sha384 (bytesAt l 0 320)) (bytesAt l 320 48) (bytesAt l 368 48) then
        denySignature
      else
        match n.held with
        | some t => d.secondCheck t l
        | none => 0

/-! ## What changes (R402, R404) -/

/-- A change takes effect. -/
def Dev.applyChange (d : Dev) (r : List Byte) : Dev :=
  let slot := reqParam r 0 1
  if reqAction r = actSetKey then
    (d.onSec fun s => { s with keys := Tab.set (fun _ => []) s.keys slot (reqKey r) }).putMask
      (if slot < 8 then Fld.SEC_KEYS_INSTALLER else Fld.SEC_KEYS_SIGNING) (slot % 4) true
  else if reqAction r = actRevokeKey then
    if slot < 4 then (d.putMask Fld.SEC_KEYS_MAKER_REVOKED slot true).putMask Fld.SEC_KEYS_MAKER_VALID slot false
    else (d.onSec fun s => { s with keys := Tab.set (fun _ => []) s.keys slot [] }).putMask
      (if slot < 8 then Fld.SEC_KEYS_INSTALLER else Fld.SEC_KEYS_SIGNING) (slot % 4) false
  else if reqAction r = actAuditPolicy then
    ((d.put Fld.SEC_AUDIT_POLICY_AGG_S (reqParam r 0 2)).put Fld.SEC_AUDIT_POLICY_HOLD (reqParam r 2 1)).keepSetting
      Adr.SEC_AUDIT_POLICY
  else if reqAction r = actModeLock then d.onSec fun s => { s with lockAuth := some slot }
  else d.onSec fun s => { s with
    fuses := Tab.upd (fun _ => 0) s.fuses slot fun w => w ||| BitVec.ofNat 32 (reqParam r 4 4) }

/-- The holder that a grant's TARGET names. -/
def targetHolder (t : Nat) : RoleHolder :=
  if t = 0x41 then .service else if t = 0x40 then .bar0 else .pair (Fin.ofNat 64 t)

/-- A grant takes effect: role and lifetime (R396). -/
def Dev.grantRole (d : Dev) (r : List Byte) : Dev :=
  let h := targetHolder (reqTarget r)
  ((d.setRole h (reqParam r 0 1)).setGrantEnd h (d.locus.micros + 1000000 * reqParam r 4 4)).count (Adr.SEC_CNT 5)

/-- A nonce is used up. -/
def Dev.useNonce (d : Dev) (n : NonceSt) : Dev :=
  (d.onSec fun s => { s with nonces := s.nonces.filter fun m => m.id != n.id }).showNonces

/-- A held change that is of a given kind and object becomes stale. -/
def HeldToken.staleIf (t : HeldToken) (r : List Byte) : HeldToken :=
  if changeObject t.request = changeObject r then { t with stale := true } else t

/-- Changes of the same kind and object held on other nonces become stale. -/
def Dev.staleOthers (d : Dev) (r : List Byte) : Dev :=
  d.onSec fun s => { s with nonces := s.nonces.map fun n => { n with held := n.held.map fun t => t.staleIf r } }

/-- The record of a token (R407). -/
def Dev.auditToken (d : Dev) (h : RoleHolder) (l : List Byte) (outcome first second reason : Nat) : Dev :=
  d.auditWith (holderSource h) (d.roleOf h) 0x0400 outcome (first % 16 + 16 * (second % 16))
    (leBytes 4 (tokNonce l) ++ leBytes 2 (reqAction (tokRequest l)) ++ leBytes 1 reason)

/-- A token is submitted: 1 a role was granted, 2 it is held for a second signature, 3 a change completed; none where it is
refused (R399, R403, R404). -/
def Dev.submitToken (d : Dev) (h : RoleHolder) (l : List Byte) : Option Nat × Dev :=
  let reason := d.tokenCheck h l
  let r := tokRequest l
  let slot := tokSlot l
  if reason ≠ 0 then
    let d := ((d.put Fld.SEC_STATUS_DENY_REASON reason).putBit Fld.SEC_STATUS_DENIED true).count (Adr.SEC_CNT 2)
    (none, d.auditToken h l denied slot 0xf reason)
  else
    match d.tokenNonce l with
    | none => (none, d)
    | some n =>
      let d := d.count (Adr.SEC_CNT 1)
      if reqAction r = actRoleGrant then (some 1, ((d.auditToken h l taken slot 0xf 0).grantRole r).useNonce n)
      else
        match n.held with
        | none =>
          let t : HeldToken := ⟨r, slot, false⟩
          let d := d.onSec fun s => { s with nonces := s.nonces.map fun m => if m.id = n.id then { m with held := some t } else m }
          (some 2, (d.auditToken h l taken slot 0xf 0).showNonces)
        | some t =>
          let d := ((d.applyChange r).count (Adr.SEC_CNT 3)).useNonce n
          (some 3, (d.staleOthers r).auditToken h l taken t.slot slot 0)

/-! ## ENDORSE 0x01 to 0x03 and 0x06 (R399, R400, R410) -/

/-- An ENDORSE command of one action, with the host page of its chain list. -/
def Dev.endorse (d : Dev) (c : CmdRef) (a : Nat) (f : Dev → HostCmd → Nat → Dev) : Dev :=
  d.command c 0xc fun d x =>
    if entArg x.entry 0 1 ≠ a then d
    else
      match d.dataPages x with
      | some (p :: _) => f d x p
      | _ => d.complete x (badField 24 rsChain)

def execEndorseNonce (c : CmdRef) (s : State) : Host.Outcome State Fault Refusal :=
  s.on fun d => d.endorse c 1 fun d x p =>
    let r := d.issueNonce
    (r.2.hostWrite p (nonceRecord r.1)).complete x (doneWith r.1.id)

def execEndorseSubmit (c : CmdRef) (s : State) : Host.Outcome State Fault Refusal :=
  s.on fun d => d.endorse c 2 fun d x p =>
    let l := d.hostRead p 512
    let r := d.submitToken (.pair (Fin.ofNat 64 x.qp)) l
    match r.1 with
    | some k => r.2.complete x ⟨stDone, k, tokNonce l % 65536⟩
    | none => r.2.complete x ⟨stDenied, 0, roleOperator⟩

/-- The public key of the device's identity, which the spec does not give. -/
def deviceKey : List Byte := (List.range 96).map fun i => BitVec.ofNat 8 (Config.freeOf 9 i)

/-- A quote of the chain head against a challenge; its signature is a free value. -/
def Dev.quote (d : Dev) (challenge : List Byte) : List Byte :=
  [0x58, 0x51, 0x54, 0x45] ++ leBytes 4 (d.fld Fld.SEC_AUDIT_SEQ_SEQ) ++ leBytes 6 d.esn.toNat ++ [0, 0] ++ leBytes 8 d.sec.dsn
    ++ d.auditHead ++ challenge ++ deviceKey ++ d.freeBytes 96 ++ zeroBytes 8

def execEndorseQuote (c : CmdRef) (s : State) : Host.Outcome State Fault Refusal :=
  s.on fun d => d.endorse c 3 fun d x p =>
    (((d.hostWrite p (d.quote (d.hostRead p 48))).drewMany 96).issue).complete x (doneWith 0)

/-- A holder gives its role up (R396). -/
def Dev.dropRole (d : Dev) (h : RoleHolder) : Dev := d.endGrant h

def execEndorseDropRole (c : CmdRef) (s : State) : Host.Outcome State Fault Refusal :=
  s.on fun d => d.endorse c 6 fun d x _ => (d.dropRole (.pair (Fin.ofNat 64 x.qp))).complete x (doneWith 0)

/-! ## Writers of role fields (R397, R406, R409, R477) -/

/-- The role that a register's writer has: that of its holder; for a vendor task that of the command in flight which its AUTH
names; the authority of start-up is the installer's. -/
def Dev.writerRole (d : Dev) : Writer → Nat
  | .host => d.roleOf .bar0
  | .service => d.roleOf .service
  | .task t => match d.host.cmds.find? fun c => c.rcpt.toNat == (d.task t.val).auth with
    | some c => c.role
    | none => 0
  | .hardware => roleInstaller

/-- SOURCE of a writer's records. -/
def writerSource : Writer → Nat
  | .host => 2
  | .service => 3
  | .task _ => 0
  | .hardware => 0

/-- The writer may change an installer's field; under a full log on HOLD nobody may. -/
def Dev.mayWrite (d : Dev) (w : Writer) : Bool := roleInstaller ≤ d.writerRole w && !d.auditHeld

/-- The record of a write of a role field: offset, value, taken or not. -/
def Dev.auditWrite (d : Dev) (w : Writer) (off : Nat) (v : Word) (took : Bool) : Dev :=
  d.audit (writerSource w) (d.writerRole w) 0x0200 (if took then taken else denied)
    (leBytes 4 off ++ leBytes 4 v.toNat ++ leBytes 1 (if took then 1 else 0))

/-- A write of a role field is discarded: shown, counted and recorded. -/
def Dev.denyWrite (d : Dev) (w : Writer) (off : Nat) (v : Word) : Dev :=
  ((d.putBit Fld.SEC_STATUS_DENIED true).count (Adr.SEC_CNT 7)).auditWrite w off v false

/-- A change of an installer's field: taken with its record, or discarded. -/
def Dev.roleWrite (d : Dev) (w : Writer) (off : Nat) (v : Word) (f : Dev → Dev) : Dev :=
  if d.mayWrite w then f (d.auditWrite w off v true) else d.denyWrite w off v

/-! ## Ends in time (R396, R404) -/

/-- ROLE_GRANT_EXPIRY: the lifetime of a grant that stands runs out. -/
def execRoleGrantExpiry (r : RoleHolder) (s : State) : Host.Outcome State Fault Refusal :=
  s.on fun d => d.when (d.grantEnd r != 0) fun d =>
    (d.audit (holderSource r) (d.roleOf r) 0x0400 taken (leBytes 4 0 ++ leBytes 2 actRoleGrant)).endGrant r

/-- NONCE_EXPIRY: a nonce reaches 600 s. -/
def execNonceExpiry (id : Word) (s : State) : Host.Outcome State Fault Refusal :=
  s.on fun d =>
    match d.sec.nonces.find? fun n => n.id == id.toNat with
    | some n => d.endNonce n
    | none => d

/-- MODE_LOCK_AUTH_EXPIRY: the authorisation of a mode lock ends unused, which is recorded (R404, R406). -/
def execModeLockAuthExpiry (s : State) : Host.Outcome State Fault Refusal :=
  s.on fun d => d.when d.sec.lockAuth.isSome fun d =>
    (d.audit 0 0 0x0400 failed (leBytes 4 0 ++ leBytes 2 actModeLock)).onSec fun s => { s with lockAuth := none }

/-- SEC_CNT_CLR (R427). -/
def execSecCntClr (s : State) : Host.Outcome State Fault Refusal := s.on fun d => d.clearCounters Adr.SEC_CNT

end Sys2Proof.Machine
end

