-- ==== Sys2Proof/Machine/Reset.lean ====
section
/-! DEFINITION. The chip reset: what stands in fuses, in the SPI NOR, on the medium and outside the device stays, everything else
returns to its reset state (R428, R429). -/

namespace Sys2Proof.Machine

/-! ## What a chip reset leaves -/

/-- Registers that show fuses, the SPI NOR or the always-on island. -/
def keptRegisters : List Nat :=
  [Adr.RST_CAUSE, Adr.SEC_KEYS, Adr.SEC_ROLLBACK, Adr.SEC_AUDIT_SEQ, Adr.UPD_SLOT 0, Adr.UPD_SLOT 1, Adr.KD_STATUS]

/-- SEQ of the newest audit record in the NOR. -/
def AuditSt.newest (a : AuditSt) : Nat := (a.nor.map fun e => fieldAt e.2 12 4).foldl max 0

/-- The audit log after a reset: records that had not reached the NOR are lost. -/
def AuditSt.afterReset (a : AuditSt) : AuditSt := { nor := a.nor, exported := min a.exported a.newest }

/-- The security block after a reset: nonces, grants and authorisations have ended. -/
def SecSt.afterReset (s : SecSt) : SecSt :=
  { dsn := s.dsn, fuses := s.fuses, keys := s.keys, makerHash := s.makerHash, nextNonce := s.nextNonce,
    audit := s.audit.afterReset }

/-- The slots, the settings and nothing of an update in progress. -/
def UpdSt.afterReset (u : UpdSt) : UpdSt := { slots := u.slots, settings := u.settings, both := u.both }

/-- Host memory, and the blocks that have reached the medium; staged ones are lost with the buffer (R327). -/
def HostSt.afterReset (h : HostSt) : HostSt := { pci := h.pci, mem := h.mem, blocks := h.blocks.filter fun b => !b.2.staged }

/-- The KD identity block and what stands on the medium. -/
def KdSt.afterReset (k : KdSt) : KdSt :=
  { ident := k.ident, laid := k.laid, present := k.present, sectors := k.sectors, next := k.next, phys := k.phys, replaced := k.replaced }

/-- What the board and the always-on island hold: the supply's state and the reference. -/
def PwrSt.afterReset (p : PwrSt) : PwrSt := { failing := p.failing, risen := p.risen, refOk := p.refOk }

/-- Time goes on by the real-time counter; requests that waited have ended. -/
def LocusSt.afterReset (l : LocusSt) : LocusSt :=
  { epoch := l.epoch, tick := l.tick, order := l.order, micros := l.micros }

/-- A chip reset by a cause: the device is held until its reset deasserts. -/
def Dev.chipReset (d : Dev) (cause : Option Field) : Dev :=
  let fresh : Dev :=
    { locus := d.locus.afterReset, log := d.log, free := d.free, host := d.host.afterReset,
      medium := { present := d.medium.present, records := d.medium.records, written := d.medium.written, frags := d.medium.frags },
      spr := { retiredBefore := d.spr.retiredBefore }, pwr := d.pwr.afterReset, sec := d.sec.afterReset,
      upd := d.upd.afterReset, svc := { sent := d.svc.sent }, kd := d.kd.afterReset, ring := { out := d.ring.out }, tap := d.tap }
  let n := fresh.each keptRegisters fun n a => n.setReg a (d.reg a)
  let n := n.put Fld.SEC_AUDIT_SEQ_SEQ d.sec.audit.newest
  let n := (n.put Fld.ID_DEVICE_VARIANT (d.fld Fld.ID_DEVICE_VARIANT)).put Fld.ID_DEVICE_HEADS (d.fld Fld.ID_DEVICE_HEADS)
  let n := n.put Fld.ID_DEVICE_STEPPING (d.fld Fld.ID_DEVICE_STEPPING)
  let n := n.setReg Adr.KD_STATUS 0
  let lock := d.fld Fld.KD_STATUS_LOCK_NEXT
  let n := (n.put Fld.KD_STATUS_LOCK lock).put Fld.KD_STATUS_LOCK_NEXT lock
  match cause with
  | some f => n.putBit f true
  | none => n

/-- RESET_PIN. -/
def execResetPin (s : State) : Host.Outcome State Fault Refusal := s.on fun d => d.chipReset (some Fld.RST_CAUSE_PIN)

/-- BROWN_OUT. -/
def execBrownOut (s : State) : Host.Outcome State Fault Refusal := s.on fun d => d.chipReset (some Fld.RST_CAUSE_BROWNOUT)

/-- The reference is lost: both cores lose it, and the device is held in reset (R432). -/
def Dev.loseReference (d : Dev) : Dev :=
  let d := d.chipReset (some Fld.RST_CAUSE_REF_LOSS)
  { d with pwr := { d.pwr with refOk := false } }

def execReferenceLoss (s : State) : Host.Outcome State Fault Refusal := s.on fun d => d.loseReference

/-- The reference has been present for 1 ms, and the hold ends: RESET_DEASSERT follows. -/
def execReferenceRestored (s : State) : Host.Outcome State Fault Refusal :=
  s.on fun d => { d with pwr := { d.pwr with refOk := true } }

/-- MEM_CHANNEL_LOSS: a failure of a channel in service is recorded and resets the device as a brown-out does (R8). -/
def execMemChannelLoss (ch : Fin 2) (s : State) : Host.Outcome State Fault Refusal :=
  s.on fun d =>
    if d.domainOn (75 + ch.val) then (d.chipReset (some Fld.RST_CAUSE_BROWNOUT)).auditEvent (leBytes 1 ch.val) else d

end Sys2Proof.Machine
end

