-- ==== Sys2Proof/Machine/Wedge.lean ====
section
/-! DEFINITION. The wedge field of a head: the timebase, the slices' demodulation, maps, hand-offs, guards, the zone
transaction, band writes and the sparing program's watch (R9, R23, R24, R44, R51, R77 to R80, R88, R133, R148, R166, R168, R224,
R381, R382, R384, R484). -/

namespace Sys2Proof.Machine

/-! ## Slice hand-off (R384) -/

/-- OUT and IN can change places: OUT in Data mode and IN in Shadow mode on one beam, IN held through 16 wedge fields. -/
def Dev.handoffReady (d : Dev) (h out inn : Nat) : Bool :=
  out / 10 == h && inn / 10 == h && d.sliceMode out == 1 && d.sliceMode inn == 2 && d.sliceBeam out == d.sliceBeam inn
    && 16 ≤ (d.slice inn).okRun

/-- The hand-off that waits takes place at the wedge field, after a map commit, or is refused (R384). -/
def Dev.commitHandoff (d : Dev) (h : Nat) : Dev :=
  match (d.head h).handoff with
  | none => d
  | some (out, inn) =>
    let d := d.onHead h fun s => { s with handoff := none }
    if d.handoffReady h out inn then
      (((d.put (Fld.CHN_CTRL_MODE inn) 1).put (Fld.CHN_CTRL_MODE out) 2).showDefect h).handoffDone (3 + h) (out % 10) (inn % 10)
    else d.handoffFails

/-! ## The timebase (R23, R148, R224) -/

/-- What the head's slices read of a wedge's servo part, in slice order (R78). -/
def Dev.readSlices (d : Dev) (h : Nat) (w : WedgeRecord) : List WedgeRead :=
  (List.zip (headSlices h) w.slices.toList).map fun e => d.readWedge e.1 w.index.val e.2

/-- The reading of the Data-mode slice that serves a beam: only those give the head's time marks (R65). -/
def Dev.wedgeOfBeam (d : Dev) (h b : Nat) (l : List WedgeRead) : Option WedgeRead :=
  (d.sliceServing h b).bind fun n => l[n % 10]?

/-- The mark was missed, or no slice makes it. -/
def wedgeMissed : Option WedgeRead → Bool
  | some r => !r.found
  | none => true

/-- The wedge timebase follows the secondary source after a miss of the primary, or after two consecutive differences of
more than 8 channel bits (R23). -/
def Dev.timebase (d : Dev) (h : Nat) (l : List WedgeRead) : Dev :=
  let hd := d.head h
  if hd.secondary then d
  else
    let a := d.wedgeOfBeam h 4 l
    let b := d.wedgeOfBeam h 3 l
    let far := match a, b with
      | some x, some y => x.found && y.found && decide (512 < (x.counted64 - y.counted64).natAbs)
      | _, _ => false
    let run := if far then hd.diffRun + 1 else 0
    let d := d.onHead h fun s => { s with diffRun := run }
    if wedgeMissed a || 2 ≤ run then (d.onHead h fun s => { s with secondary := true, diffRun := 0 }).event .wedgeSource h 0 [1]
    else d

/-- The beam whose slice the head's timebase follows (R23). -/
def Dev.timebaseBeam (d : Dev) (h : Nat) : Nat := if (d.head h).secondary then 3 else 4

/-- The reading that the head's timebase takes at this wedge. -/
def Dev.timebaseWedge (d : Dev) (h : Nat) (l : List WedgeRead) : Option WedgeRead := d.wedgeOfBeam h (d.timebaseBeam h) l

/-- The write timebase takes the frequency of the slice that the head's timebase follows, at every mark (R137). -/
def Dev.writeTimebase (d : Dev) (h : Nat) (anchored : Bool) : Dev :=
  match d.sliceServing h (d.timebaseBeam h) with
  | some n => d.when anchored fun d => d.onWp h fun s => { s with freq := (d.slice n).f }
  | none => d

/-- The wedge interval in CORE cycles: the counted channel bits at the slice's clock (R25, R46, R224). -/
def Dev.wedgeCycles (d : Dev) (n : Nat) (eps64 : Int) : Nat :=
  let z := d.fld (Fld.CHN_ZONE_CUR_ZONE n)
  let div := d.fld (Fld.CHN_ZONE_CUR_CHAN_DIV n)
  let bits64 : Int := 64 * 859375 + eps64 * (6 * (80 - z) : Nat)
  let den : Int := 64 * (6 * (80 - z) : Nat) * 32 * (2 ^ 20 + (d.slice n).f)
  (roundDiv (bits64 * div * 2 ^ 20) den.toNat).toNat

/-- The anchored count and the speed that the head's wedges give (R224). -/
def Dev.wedgeSpeed (d : Dev) (h : Nat) (m : Option WedgeRead) : Dev :=
  if wedgeMissed m then d.onSpn fun s => { s with anchored := Tab.set (fun _ => 0) s.anchored h 0 }
  else
    match m, d.sliceServing h (d.timebaseBeam h) with
    | some x, some n =>
      let c := d.wedgeCycles n x.eps64
      let l := (c :: Tab.get (fun _ => []) d.mot.spn.wedges h).take 2048
      let d := d.onSpn fun s => { s with
        anchored := Tab.upd (fun _ => 0) s.anchored h (· + 1)
        wedges := Tab.set (fun _ => []) s.wedges h l }
      let sum := l.foldl (· + ·) 0
      d.measureSpeed (1 + h) (66000000000 * l.length) (2048 * sum) false
    | _, _ => d

/-! ## The slices (R78 to R80, R148, R166) -/

/-- A valid address block completed at this wedge. -/
def Dev.addressOk (d : Dev) (n w : Nat) (r : WedgeRead) : Bool :=
  let l := (d.slice n).address
  r.found && w % 8 == 7 && l.length == 8 && addressValid (addressBlock l)
    && (List.range 8).all (fun i => (l[i]?.getD 0).toNat / 32 == i)

/-- The address condition of a Data-mode slice's beam: a track other than the one expected, or no valid block at
ADDR_STALE wedges that end one (R148; log 39). -/
def Dev.addressGuard (d : Dev) (h n w : Nat) (r : WedgeRead) (expected : Option (Nat × Nat)) : Dev :=
  let b := d.sliceBeam n
  if d.sliceMode n != 1 || w % 8 != 7 then d
  else
    let ok := d.addressOk n w r
    let age := if ok then 0 else Tab.get (fun _ => 0) (d.wps h).addrAge b + 1
    let v := addressBlock (d.slice n).address
    let wrong := ok && (match expected with
      | some e => e != (bitsOf 21 19 v, bitsOf 39 22 v)
      | none => false)
    let d := d.onWp h fun s => { s with addrAge := Tab.set (fun _ => 0) s.addrAge b age }
    d.guardAddr h b (wrong || d.fld (Fld.WP_INH_CFG_ADDR_STALE h) ≤ age)

/-- The servo part of one slice at wedge w, and what the head takes from it: the bursts, and the address blocks of the position-0 beam. -/
def Dev.servoField (d : Dev) (h w n : Nat) (r : WedgeRead) (anchored : Bool) : Dev :=
  if !d.sliceLive n then d
  else
    let b := d.sliceBeam n
    let expected := (d.targetTrack h b).map fun t => ((d.head h).layer, t)
    let d := d.sliceServo n w r anchored (expected.map fun e => e.2)
    let d := d.addressGuard h n w r expected
    let d := d.when r.found fun d => d.onHead h fun s => { s with
      bursts := r.bursts.zipIdx.foldl (fun t e => Tab.set (fun _ => 0) t (4 * (n % 10) + e.2) e.1) s.bursts }
    d.when (d.addressOk n w r && b == d.beamAt h 0 && d.sliceMode n == 1) fun d =>
      let v := addressBlock (d.slice n).address
      d.seekAddress h (bitsOf 39 22 v) (bitsOf 21 19 v)

/-- The resync field of one slice at wedge w; the wedges in a row at which it found its marker with LOCKED at 1 (R384). -/
def Dev.resyncField (d : Dev) (w n : Nat) (m : SliceWedge) : Dev :=
  let misses := (d.slice n).missRun
  let d := d.sliceResync n w m
  d.when (d.sliceLive n) fun d =>
    let held := d.bit (Fld.CHN_STATUS_LOCKED n) && (d.slice n).missRun ≤ misses
    d.onSlice n fun s => { s with okRun := if held then s.okRun + 1 else 0 }

/-- Every other active beam of the head was in a defect in the interval that ends (R88). -/
def Dev.othersInDefect (d : Dev) (h n : Nat) : Bool :=
  let others := (headSlices h).filter fun m => m != n && d.sliceMode m == 1
  !others.isEmpty && others.all fun m => (d.slice m).defectSeen

/-- The wedge status that the head's pairs see at their next tick (R192). -/
def Dev.wedgeStatus (d : Dev) (h w : Nat) (l : List WedgeRead) : Dev :=
  let fresh := (List.range 10).foldl (fun acc b =>
    if !(wedgeMissed ((d.sliceOfBeam h b).bind fun n => l[n % 10]?)) then acc + 2 ^ b else acc) 0
  d.each (List.range 3) fun d p => d.onPair p fun s =>
    let old := Tab.get (fun _ => 0) s.wedges h
    { s with wedges := Tab.set (fun _ => 0) s.wedges h ((old % 1024) ||| fresh ||| 1024 ||| w * 65536) }

/-! ## The sparing program's watch (R381, R382) -/

/-- A slice shows FREQ_LIMIT, ACQ_FAIL or WEDGE_MISS at a wedge (R382). -/
def Dev.sliceShowsFault (d : Dev) (n : Nat) (r : WedgeRead) : Bool :=
  !r.found || (d.slice n).f.natAbs == 32768 || (d.bit (Fld.CHN_STATUS_ACQ_FAIL n) && !d.bit (Fld.CHN_STATUS_LOCKED n))

/-- Three consecutive wedges of a fault, while every other Data-mode slice of the head stays LOCKED, declare a slice
faulted (R382). -/
def Dev.watchSlice (d : Dev) (h n : Nat) (r : WedgeRead) : Dev :=
  if !d.sliceLive n then d
  else
    let others := ((headSlices h).filter fun k => k != n && d.sliceMode k == 1).all fun k => d.bit (Fld.CHN_STATUS_LOCKED k)
    let run := if d.sliceShowsFault n r && others then Tab.get (fun _ => 0) d.spr.faultRun n + 1 else 0
    let d := { d with spr := { d.spr with faultRun := Tab.set (fun _ => 0) d.spr.faultRun n run } }
    d.when (3 ≤ run) fun d => d.sliceFaulted n

/-- A beam whose BEAM_SUSPECT is still set 64 bands away from where it was first seen retires (R381). -/
def Dev.watchBeam (d : Dev) (h n : Nat) : Dev :=
  let b := d.sliceBeam n
  let k := 16 * h + b
  let band := (d.head h).band
  if d.sliceMode n != 1 then d
  else if d.bit (Fld.CHN_STATUS_BEAM_SUSPECT n) then
    let seen := Tab.get (fun _ => 0) d.spr.suspectBand k
    if seen = 0 then { d with spr := { d.spr with suspectBand := Tab.set (fun _ => 0) d.spr.suspectBand k (band + 1) } }
    else d.when (64 ≤ ((band : Int) + 1 - seen).natAbs) fun d => d.beamLost h b false
  else { d with spr := { d.spr with suspectBand := Tab.set (fun _ => 0) d.spr.suspectBand k 0 } }

/-! ## Zone transactions (R24, R51, R189, R484) -/

/-- A zone transaction is staged: at a slice that works, since one in Off mode takes no part (R24, R90). -/
def Dev.zoneStaged (d : Dev) (h : Nat) : Bool :=
  (headSlices h).any fun n => d.sliceLive n && d.bit (Fld.CHN_ZONE_NEXT_VALID n)

/-- Every part is ready: each working slice, the next table, and each engine of the head, whose loader has refused no period change (R24,
R189; log 142). -/
def Dev.zonePartsReady (d : Dev) (h : Nat) : Bool :=
  ((headSlices h).filter d.sliceLive).all (fun n => d.bit (Fld.CHN_STATUS_ZONE_READY n))
    && d.bit (Fld.WP_STATUS_TBL_READY h)
    && (d.headPairs h).all fun p => (d.pairEngines p).all fun e =>
      d.bit (Fld.ARC_CTRL_ZONE_ARM e) && !d.bit (Fld.ARC_STATUS_PERIOD_REFUSED e)

/-- The head stands inside a frame slot as a wedge interval begins. -/
def Dev.inFrame (d : Dev) (h : Nat) : Bool :=
  let bit := (d.head h).wedge % 512 * fragBits (d.headZone h)
  decide (bit < zoneSlots (d.headZone h) * slotBits) && bit % slotBits != 0

/-- The commit field of a staged zone transaction: all parts change, or none does (R24); the write path's program presets DAC A (R145). -/
def Dev.commitZone (d : Dev) (h : Nat) : Dev :=
  if !d.zoneStaged h then d
  else if !d.zonePartsReady h then (d.putBit (Fld.SRV_STATUS_ZONE_DEFERRED h) true).event .zoneDeferred h 0 []
  else
    let live := (headSlices h).filter d.sliceLive
    let lead := live.headD (10 * h)
    let next := d.reg (Adr.CHN_ZONE_NEXT lead)
    let boost := d.fld (Fld.CHN_FREQ_NEXT_BOOST lead)
    let preset := d.sfld (Fld.CHN_FREQ_NEXT_F_PRESET lead)
    let inside := d.inFrame h
    let d := d.each live fun d n => d.sliceCommitZone n inside
    let d := d.onHead h fun s => { s with zone := next &&& 0x3fffffff, boost := boost, fPreset := preset }
    let old := (List.range 10).map (d.pwTgt h)
    let d := ((d.takeBank h).each (d.headPairs h) fun d p => d.requestSwap p)
    d.apcPreset h fun b => old.getD b 0

/-! ### The firmware's staging (R214, R484) -/

/-- CHAN_DIV and F_PRESET of a zone at a speed (R25, R90). -/
def zoneClock (z rpm : Nat) : Nat × Int :=
  let div := (roundDiv ((80 - z) * 7200 : Nat) (max 1 rpm)).toNat
  (div, roundDiv (2 ^ 20 * (div * rpm : Nat)) ((80 - z) * 7200) - 2 ^ 20)

/-- The word of ZONE_NEXT for a zone at a speed, RESEED 0 (R46, R50, R90). -/
def zoneWord (z div : Nat) : Word := BitVec.ofNat 32 (2 ^ 31 + z * 2 ^ 24 + div % 256 * 2 ^ 16 + fragBits z / 32 * 2 ^ 8 + zoneSlots z)

/-- The calibration's write tables for a zone enter the next bank of a write path; their values are free (R143, R484; log 143). -/
def Dev.stageTables (d : Dev) (h z : Nat) : Dev :=
  let bank := 1 - d.bank h
  let v (a : Nat) : Word := BitVec.ofNat 32 (Config.freeOf 7 (a + 2 ^ 24 * z))
  (d.each (List.range 10) fun d b =>
    let head (k : Nat) := tableHeader h bank b k
    let d := d.setReg (head 0) (BitVec.ofNat 32 (2 ^ 31 + z * 2 ^ 24))
    let d := d.setReg (head 1) (v (head 1) &&& 0x0fff0fff)
    d.each (List.range 288) fun d i => d.setReg (tableEntry h bank b i) (v (tableEntry h bank b i) &&& 0x007fffff)).showTable h

/-- The coefficients for a zone and speed enter the shadow bank of a head's engines and the image store, and ZONE_ARM is set; their values are free
(R189, R484; log 143). -/
def Dev.stageCoefs (d : Dev) (h z rpm : Nat) : Dev :=
  d.each (d.headPairs h) fun d p =>
   let d := d.each (d.pairEngines p) fun d e =>
    let a := d.arcEng e
    let words := (a.coef.filter fun c => c.1 / 2048 == a.ctx.bank.val).map fun c => c.1 % 2048
    (d.onEng e fun a => { a with coef := words.foldl (fun t w => Tab.set zeroWord t (2048 * (a.ctx.bank + 1).val + w)
      (BitVec.ofNat 32 (Config.freeOf 8 (w + 2048 * (z + 64 * rpm))))) a.coef }).putBit (Fld.ARC_CTRL_ZONE_ARM e) true
   match d.pairEngines p with
   | e :: _ => d.onPair p fun s => { s with image := s.image.map fun im => { im with coef := (d.arcEng e).coef } }
   | [] => d

/-- The vendor firmware stages a zone transaction of a head for a zone and a speed: each working slice, the next table bank, and the shadow
coefficients (R25, R90, R484). -/
def Dev.stageZone (d : Dev) (h z rpm : Nat) : Dev :=
  let c := zoneClock z rpm
  let d := d.each ((headSlices h).filter d.sliceLive) fun d n =>
    let d := (d.put (Fld.CHN_FREQ_NEXT_F_PRESET n) (codeOf 16 (clampInt (-32768) 32767 c.2))).put (Fld.CHN_FREQ_NEXT_BOOST n) (d.fld (Fld.CHN_CTF_CFG_BOOST n))
    d.sliceStage n (zoneWord z c.1)
  (d.stageTables h z).stageCoefs h z rpm

/-- A zone that a head is to move into is staged, unless it is in force and nothing else is staged, or it is staged already (R484). -/
def Dev.stageFor (d : Dev) (h z : Nat) : Dev :=
  let staged := d.stagedZone h
  d.when (z < 48 && staged != some z && (staged.isSome || z != fieldOf (d.head h).zone 24 6) && d.fld Fld.SPN_TARGET_TARGET != 0) fun d =>
    d.stageZone h z (d.fld Fld.SPN_TARGET_TARGET)

/-- A speed is commanded in PS0. -/
def Dev.speedCommanded (d : Dev) : Bool := d.fld Fld.HQ_STATUS_PS == 0 && d.fld Fld.SPN_TARGET_TARGET != 0

/-- The spindle turns toward the speed that is commanded, or starts. -/
def Dev.spindleServes (d : Dev) : Bool :=
  let st := d.spnState
  d.speedCommanded && st != spnOff && st != spnCoast && st != spnShort && st != spnStopping

/-- The speed that the governor steps: the one commanded, or the one at which the spindle is to turn again (log 173). -/
def Dev.govCommanded (d : Dev) : Nat := if d.speedCommanded then d.fld Fld.SPN_TARGET_TARGET else d.host.spinTarget

/-- The governor changes the speed: TARGET is lowered or raised, and each head's zone transaction for the new speed is staged while the
spindle ramps (R214, R484). Where no spindle turns, the next start takes the new speed (log 173). -/
def Dev.govWrite (d : Dev) (rpm : Nat) : Dev :=
  if d.spindleServes then
    let d := d.targetWrite (withField (d.reg Adr.SPN_TARGET) 0 16 rpm)
    d.each ([0, 1].filter fun h => (d.head h).captured) fun d h => d.stageZone h (d.headZone h) rpm
  else if d.speedCommanded then d.put Fld.SPN_TARGET_TARGET rpm
  else { d with host := { d.host with spinTarget := rpm } }

/-- The governor's speed step goes on once every captured head has paused. -/
def Dev.govProceed (d : Dev) : Dev :=
  match d.pwr.govTarget with
  | none => d
  | some rpm =>
    if [0, 1].any fun h => (d.head h).captured && !(d.head h).paused then d
    else { d with pwr := { d.pwr with govTarget := none } }.govWrite rpm

/-- A head that has paused for a speed step, and whose spindle has not yet reached the new speed (R214). -/
def Dev.pauseStands (d : Dev) (h : Nat) : Bool := (d.head h).paused && (d.pwr.govTarget.isSome || !d.bit Fld.MOT_STATUS_AT_SPEED)

/-- A stripe boundary of a head: a staged zone commits, but not before the new speed of a speed step is reached; the commit for that speed ends the
head's pause, and a step that waits begins one (R9, R24, R214). -/
def Dev.zoneBoundary (d : Dev) (h : Nat) : Dev :=
  let d := if d.pauseStands h then d
    else if (d.head h).paused then
      let z := d.headZone h
      let d := d.when (d.stagedZone h != some z) fun d => d.stageZone h z (d.fld Fld.SPN_TARGET_TARGET)
      let d := d.commitZone h
      d.onHead h fun s => { s with paused := d.zoneStaged h }
    else d.commitZone h
  d.when d.pwr.govTarget.isSome fun d => (d.onHead h fun s => { s with paused := true }).govProceed

/-! ## The field (R51, R79, R133, R138) -/

/-- The band that follows on the layer's spiral (R51, R483). Where the path ends, at band 17,876 of an even layer and band 0 of an odd one,
the spec does not say what crossing wedge 0 leads to: the model keeps the head on that band (DESIGN CHOICE, log 144). -/
def Dev.followBand (d : Dev) (h : Nat) : Nat :=
  let hd := d.head h
  if hd.layer % 2 = 0 then (if hd.band < 17876 then nextBand hd.layer hd.band else hd.band)
  else if 0 < hd.band then nextBand hd.layer hd.band else hd.band

/-- The head enters its next band at wedge 0, unless its path has ended. -/
def Dev.enterBand (d : Dev) (h : Nat) : Dev :=
  let b := d.followBand h
  d.when (b != (d.head h).band) fun d => d.onBand h b

/-- A new band is entered at a wedge 0: a band write of it starts, unless the head pauses or stays at its path's end (R133, R214). -/
def Dev.bandOpens (d : Dev) (h : Nat) (entered : Bool) : Dev := d.when (entered && !(d.head h).paused) fun d => d.bandStart h

/-- Wedge 0 begins: the band write of the band that ends is over, and the head is on the next band unless it seeks. -/
def Dev.bandCrossing (d : Dev) (h : Nat) : Dev := (d.bandEnd h).when (d.head h).seek.isNone fun d => d.enterBand h

/-- Wedge 0 from its symbol S44 on (R91): the staged zone commits, a band write of the band that was entered starts, and a change of zone a
revolution ahead is staged. -/
def Dev.wedgeZero (d : Dev) (h : Nat) (entered : Bool) : Dev :=
  ((d.zoneBoundary h).bandOpens h entered).when (d.head h).seek.isNone fun d => d.stageFor h (zoneOfBand (d.followBand h))

/-- A seek that has landed in this field: the staged zone commits before the first wedge after it, and a change of zone at the next wedge 0 is staged
(R24, R166, R484). -/
def Dev.landed (d : Dev) (h : Nat) : Dev := (d.commitZone h).stageFor h (zoneOfBand (d.followBand h))

/-- A wedge interval begins under a head. -/
def Dev.newInterval (d : Dev) (h i : Nat) : Dev :=
  (d.onHead h fun s => { s with wedge := i }).onWp h fun s => { s with place := 0 }

/-- WEDGE_FIELD of a captured head, in the order of the field: beams, maps and hand-offs; the servo part, under the zone in force before it, with
what the timebase and the guards take from it; from S44 on the zone; the resync field; and the interval that begins. -/
def Dev.wedgeField (d : Dev) (h : Nat) (w : WedgeRecord) : Dev :=
  let i := w.index.val
  let reads := d.readSlices h w
  let seeking := (d.head h).seek.isSome
  let band := (d.head h).band
  let d := (d.layInterval h).opcEnd h
  let d := (d.each (headSlices h) fun d n => d.takeBeam n).newInterval h i
  let d := (d.commitMap h).commitHandoff h
  let others := (headSlices h).map (d.othersInDefect h)
  let d := d.each (List.zip (headSlices h) others) fun d p => d.suspectInterval p.1 p.2
  let d := d.when (i == 0) fun d => d.bandCrossing h
  let m := d.timebaseWedge h reads
  let anchored := !wedgeMissed m
  let far := match m with
    | some x => decide (256 < x.eps64.natAbs)
    | none => false
  let d := d.each (List.zip (headSlices h) reads) fun d p => d.servoField h i p.1 p.2 anchored
  let d := (d.guardWedge h (!anchored || far)).writeTimebase h anchored
  let d := (d.wedgeSpeed h m).timebase h reads
  let d := d.when (i == 0) fun d => d.wedgeZero h (!seeking && (d.head h).band != band)
  let d := d.when (seeking && (d.head h).seek.isNone) fun d => d.landed h
  let d := (d.opcWedge h).learnRunout h
  let d := d.each (List.zip (headSlices h) w.slices.toList) fun d p => d.resyncField i p.1 p.2
  let d := (d.bandWedge h).wedgeStatus h i reads
  let d := d.each (List.zip (headSlices h) reads) fun d p => (d.watchSlice h p.1 p.2).watchBeam h p.1
  d.parkWhenWritten

/-- WEDGE_FIELD: a head crosses a wedge field (R79); without focus or with its servo front end off it sees none. -/
def execWedgeField (h : Head) (w : WedgeRecord) (s : State) : Host.Outcome State Fault Refusal :=
  s.on fun d => if !d.hasHead h || d.mode == 2 || !(d.head h.ix).captured then d else d.wedgeField h.ix w

/-- SEEK of a captured head toward a band; into another zone its transaction is staged first (R166, R484); in KD mode the spindle follows (R360). How
far off its landing is shows in the address blocks of the wedges that follow, and the third operand says nothing. -/
def execSeek (h : Head) (band : Nat) (_off : Unit) (s : State) : Host.Outcome State Fault Refusal :=
  s.on fun d =>
    if !d.hasHead h || !(d.head h.ix).captured || leadBand < band then d
    else
      let d := (d.restoreBeams h.ix).stageFor h.ix (zoneOfBand band)
      let k := seekKind (d.head h.ix).band band
      let d := (d.bandBreak h.ix).onHead h.ix fun s => { s with seek := some { target := band, kind := k } }
      (d.passEnds h.ix).kdSpin

end Sys2Proof.Machine
end

