-- ==== Sys2Proof/Machine/Sparing.lean ====
section
/-! DEFINITION. The sparing program: service cycles, their rotation and tests, reclaim, and the planned hand-offs of
SPR_HANDOFF (R374 to R389, R394, R439). -/

namespace Sys2Proof.Machine

/-! ## Starting a cycle (R374, R375, R378, R385) -/

/-- A class keeps a spare unit beside a given one. -/
def Dev.otherSpare (d : Dev) (c u : Nat) : Bool := (List.range (classUnits c)).any fun v => v != u && d.unit c v == .spare

/-- The slice of B9 that may be lent to a cycle of a slice of its head: B8 and B9 are unmapped, and B8 is in service and has a
Shadow-mode slice of its own (R385). -/
def Dev.lendable (d : Dev) (h n : Nat) : Option Nat :=
  let shadow (b : Nat) : Option Nat := (headSlices h).find? fun m => m != n && d.sliceMode m == 2 && d.sliceBeam m == b
  let free (b : Nat) : Bool := !(d.mapBeams h).contains b && d.beamGood h b
  match shadow 9, shadow 8 with
  | some m, some _ => if free 9 && free 8 then some m else none
  | _, _ => none

/-- A unit that may leave service: its class has a spare, the unit that can be reclaimed counted, and a unit at work has one that
takes over from it, or is a decoder (R378; log 116); a Data-mode slice needs a slice that can be lent. -/
def Dev.cycleMay (d : Dev) (c u : Nat) : Bool :=
  let n := 10 * (c - 3) + u
  d.spr.cycle.isNone && d.classPresent c && (d.unit c u == .inService || d.unit c u == .spare) && 1 ≤ d.spares c
    && (d.unit c u == .spare || c == 6 || d.otherSpare c u) && !((c == 3 || c == 4) && d.sliceMode n == 1 && (d.lendable (n / 10) n).isNone)

/-- The drain of a class begins: a decoder leaves both masks, and under RESERVE a spare one takes its place; the lent slice is
pointed at a slice's beam (R378, R385). -/
def Dev.beginDrain (d : Dev) (c u : Nat) : Dev :=
  if c = 6 then
    let worked := d.maskBit (Fld.DEC_MASK_MASK 0) u || d.maskBit (Fld.DEC_MASK_MASK 1) u
    let d := (d.putMask (Fld.DEC_MASK_MASK 0) u false).putMask (Fld.DEC_MASK_MASK 1) u false
    match d.spareOf 6 with
    | some v => d.when (worked && d.fld Fld.SPR_POLICY_POLICY == 0) fun d =>
        ((d.setUnit 6 v .inService).putMask (Fld.DEC_MASK_MASK 0) v true).putMask (Fld.DEC_MASK_MASK 1) v true
    | none => d
  else if c = 3 ∨ c = 4 then
    let n := 10 * (c - 3) + u
    match d.lendable (n / 10) n with
    | some m => d.when (d.sliceMode n == 1) fun d => d.sliceSetBeam m (d.sliceBeam n)
    | none => d
  else d

/-- A service cycle takes a unit out of service (R378). -/
def Dev.startCycle (d : Dev) (c u : Nat) (update : Bool) : Dev :=
  if d.cycleMay c u then
    let y : CycleSt := { cls := c, unit := u, update := update }
    let d := { d with spr := { d.spr with cycle := some y } }
    ((d.cycleState y .draining).sparingEvent 0x0c02 c u 0xffff 0 1).beginDrain c u
  else d

/-- The units that a live update of a part class changes by service cycles (R389). -/
def updatedUnits (part : Nat) : List (Nat × Nat) :=
  if part = 3 then ((List.range 10).map fun u => (3, u)) ++ (List.range 10).map fun u => (4, u)
  else if part = 4 then (List.range 24).map fun u => (6, u)
  else []

/-- The next unit of a live update begins its cycle. -/
def Dev.nextUpdate (d : Dev) : Dev :=
  match d.upd.cls with
  | some part =>
    match (updatedUnits part).find? fun p => !d.upd.changed.contains (unitKey p.1 p.2) && d.cycleMay p.1 p.2 with
    | some p => d.startCycle p.1 p.2 true
    | none => d
  | none => d

/-- The rotated units, in the order of their turns. -/
def rotated : List (Nat × Nat) :=
  ([3, 4, 5, 6, 7, 8].map fun c => (List.range (classUnits c)).map fun u => (c, u)).flatten

/-- The turns after that of the unit last rotated, whose place in the order is kept. -/
def turnsAfter (last : Nat) : List (Nat × (Nat × Nat)) :=
  let l := (List.range rotated.length).zip rotated
  l.drop last ++ l.take last

/-- ROTATION_TIMER: ROT_MIN minutes passed, and under ROTATE the next unit that can leave service does (R375). -/
def execRotationTimer (s : State) : Host.Outcome State Fault Refusal :=
  s.on fun d =>
    if d.fld Fld.SPR_POLICY_POLICY = 0 then d
    else
      match (turnsAfter d.spr.lastUnit).find? fun t => d.cycleMay t.2.1 t.2.2 with
      | some t => { d with spr := { d.spr with lastUnit := t.1 + 1 } }.startCycle t.2.1 t.2.2 false
      | none => d

/-- RESERVE_TEST_TIMER: the daily cycle of a spare unit under RESERVE (R374). -/
def execReserveTestTimer (cls : Fin 16) (unit : Nat) (s : State) : Host.Outcome State Fault Refusal :=
  s.on fun d =>
    d.when (d.fld Fld.SPR_POLICY_POLICY == 0 && 3 ≤ cls.val && cls.val ≤ 8 && d.unit cls.val unit == .spare
      && unit < classUnits cls.val) fun d => d.startCycle cls.val unit false

/-! ## The steps of a cycle (R378, R379, R389) -/

/-- The unit holds no work, so that its drain can end. -/
def Dev.drained (d : Dev) (c u : Nat) : Bool :=
  if c = 3 ∨ c = 4 then d.sliceMode (10 * (c - 3) + u) != 1
  else if c = 5 then d.fld (Fld.LAT_CTRL_MODE u) != 1
  else if c = 6 then !d.bit (Fld.DECU_STATUS_BUSY u)
  else if c = 7 then d.fld (Fld.ARC_CTRL_ROLE u) != roleLead && d.fld (Fld.ARC_CTRL_ROLE u) != roleCheck
  else (d.tasksOf u).isEmpty

/-- A drained unit leaves its role. -/
def Dev.leaveRole (d : Dev) (c u : Nat) : Dev :=
  if c = 3 ∨ c = 4 then d.sliceSetMode (10 * (c - 3) + u) 0
  else if c = 5 then d.put (Fld.LAT_CTRL_MODE u) 0
  else if c = 7 then d.put (Fld.ARC_CTRL_ROLE u) roleOff
  else if c = 8 then d.put (Fld.SPP_CTRL_ROLE u) 0
  else d

/-- DRAIN_DONE: the unit holds no work, and is OUT; with an update its image begins to load. -/
def execDrainDone (s : State) : Host.Outcome State Fault Refusal :=
  s.on fun d =>
    match d.spr.cycle with
    | some y =>
      if d.unit y.cls y.unit = .draining ∧ d.drained y.cls y.unit then
        let d := (d.leaveRole y.cls y.unit).cycleState y .out
        if y.update then d.cycleState y .loading else d
      else d
    | none => d

/-- Facet starts the targeted test of a domain: the unit in its cycle that is out is TESTING (R439). -/
def Dev.targetedTest (d : Dev) (pd : Nat) : Dev :=
  if d.bit Fld.FACET_STATUS_BUSY then d
  else
    let d := (d.put Fld.FACET_CTRL_PD pd).putBit Fld.FACET_STATUS_BUSY true
    let d := { d with pwr := { d.pwr with test := some (.domain pd), testAt := d.locus.micros } }
    match d.spr.cycle with
    | some y => d.when (unitDomain y.cls y.unit == some pd && (d.unit y.cls y.unit == .out
        || d.unit y.cls y.unit == .loading)) fun d => d.cycleState y .testing
    | none => d

/-- UNIT_LOAD_DONE: the unit's image or table is loaded; with a CRC that checks its test follows, else the loading goes
on. -/
def execUnitLoadDone (crcOk : Bool) (s : State) : Host.Outcome State Fault Refusal :=
  s.on fun d =>
    match d.spr.cycle with
    | some y =>
      if d.unit y.cls y.unit = .loading ∧ crcOk then
        match unitDomain y.cls y.unit with
        | some pd => d.targetedTest pd
        | none => d
      else d
    | none => d

/-- A unit returns from its cycle to the spare role: a decoder under ROTATE works again in both masks, other units take the
spare's place in their class (R375, R378). -/
def Dev.returnUnit (d : Dev) (c u : Nat) : Dev :=
  if c = 6 then
    if d.fld Fld.SPR_POLICY_POLICY = 1 then
      ((d.setUnit 6 u .inService).putMask (Fld.DEC_MASK_MASK 0) u true).putMask (Fld.DEC_MASK_MASK 1) u true
    else d.setUnit 6 u .spare
  else
    let d := d.setUnit c u .spare
    if c = 3 ∨ c = 4 then d.returnSlice (10 * (c - 3) + u)
    else if c = 5 then
      let d := d.refillShadows
      if d.fld (Fld.LAT_CTRL_MODE u) = 2 then d
      else match [0, 1].find? fun h => (d.activeLat h).isSome && !(h == 1 && d.variantS) with
      | some h =>
        if (List.range 3).any fun v => d.fld (Fld.LAT_CTRL_MODE v) == 2 then d
        else (d.latSetMode u 2 h).put Fld.LAT_SPARE_UNIT u
      | none => d
    else if c = 7 then d.put (Fld.ARC_CTRL_ROLE u) roleSpare
    else d.put (Fld.SPP_CTRL_ROLE u) 3

/-- A Facet test ends: counted, and its outcome shown (R436, R448). -/
def Dev.facetEnds (d : Dev) (pass : Bool) : Dev :=
  let d := (d.putBit Fld.FACET_STATUS_BUSY false).putBit Fld.FACET_STATUS_DONE true
  let d := d.put Fld.FACET_STATUS_ELAPSED_MS (min 65535 ((d.locus.micros - d.pwr.testAt) / 1000))
  let d := (d.putBit (if pass then Fld.FACET_STATUS_PASS else Fld.FACET_STATUS_FAIL) true).count (Adr.PWR_CNT 6)
  { d.when (!pass) fun d => d.count (Adr.PWR_CNT 7) with pwr := { d.pwr with test := none } }

/-- A domain's last test failed or not. -/
def Dev.showFail (d : Dev) (pd : Nat) (fail : Bool) : Dev := d.putMask (Fld.FACET_FAIL_VALUE (pd / 32)) (pd % 32) fail

/-- A unit outside a cycle whose test failed is retired (R380); the ports of a crossbar quadrant leave it (R36). -/
def Dev.retireFailed (d : Dev) (pd : Nat) (pass : Bool) : Dev :=
  match domainUnit pd with
  | some (c, u) => d.when (!pass) fun d => if c = 11 then d.quadrantFails u else d.retireUnit c u 0
  | none => d

/-- The end of a targeted test: the unit returns when its test passed; else it is retired, and the update of its class stops
(R378, R389, R439). -/
def Dev.targetedDone (d : Dev) (pass : Bool) : Dev :=
  match d.pwr.test with
  | some (.domain pd) =>
    let d := (d.facetEnds pass).showFail pd (!pass)
    match d.spr.cycle with
    | some y =>
      if unitDomain y.cls y.unit = some pd ∧ d.unit y.cls y.unit = .testing then
        if pass then
          let d := d.returnUnit y.cls y.unit
          let d := d.sparingEvent 0x0c03 y.cls 0xffff y.unit 0 (unitCode (d.unit y.cls y.unit))
          let d := d.count (Adr.SPR_CNT 4)
          let d := d.when y.update fun d =>
            { ((d.sparingEvent 0x0c09 y.cls y.unit y.unit 0 (unitCode (d.unit y.cls y.unit))).count (Adr.SPR_CNT 6)) with
              upd := { d.upd with changed := d.upd.changed ++ [unitKey y.cls y.unit] } }
          d.cycleEnds.when y.update fun d => d.nextUpdate
        else
          let d := d.when y.update fun d => { d.when (d.trialChanged y.cls) Dev.cleanRestart with upd := { d.upd with failed := true } }
          d.retireUnit y.cls y.unit 0
      else d.retireFailed pd pass
    | none => d.retireFailed pd pass
  | _ => d

/-- TARGETED_TEST_DONE. -/
def execTargetedTestDone (pass : Bool) (s : State) : Host.Outcome State Fault Refusal := s.on fun d => d.targetedDone pass

/-- UNIT_RECLAIM: a class needs the unit in its cycle, which abandons its test and serves as a spare; one that still drains keeps
the work that it holds (R379). -/
def execUnitReclaim (cls : Fin 16) (s : State) : Host.Outcome State Fault Refusal :=
  s.on fun d =>
    match d.spr.cycle with
    | some y =>
      if y.cls = cls.val then
        d.reclaim y (d.unit y.cls y.unit == .draining && y.cls != 6 && !d.drained y.cls y.unit) (·.returnUnit y.cls y.unit)
      else d
    | none => d

/-! ## Planned hand-offs (R384 to R388) -/

/-- The class rule of a hand-off of a Lattice unit: OUT Active on a head, IN its Shadow unit that has completed a pass. -/
def Dev.latticeRule (d : Dev) (out inn : Nat) : Bool :=
  out < 3 && inn < 3 && d.fld (Fld.LAT_CTRL_MODE out) == 1 && d.fld (Fld.LAT_CTRL_MODE inn) == 2
    && d.fld (Fld.LAT_CTRL_HEAD out) == d.fld (Fld.LAT_CTRL_HEAD inn) && (d.lat inn).shadowed

/-- The class rule of a hand-off of a Span processor: OUT Active, IN in the Spare role with every context empty. -/
def Dev.spanRule (d : Dev) (out inn : Nat) : Bool :=
  out < 12 && inn < 12 && out != inn && d.fld (Fld.SPP_CTRL_ROLE out) == 1 && d.fld (Fld.SPP_CTRL_ROLE inn) == 3
    && (d.tasksOf inn).isEmpty && !d.dead 8 inn

/-- The class rule of a hand-off of a slice of class c: units of its head, in range. -/
def Dev.sliceRule (d : Dev) (c out inn : Nat) : Bool :=
  out < 10 && inn < 10 && d.handoffReady (c - 3) (10 * (c - 3) + out) (10 * (c - 3) + inn)

/-- A hand-off begins: its fields stand in the register while it runs. -/
def Dev.handoffBegins (d : Dev) (c out inn : Nat) : Dev :=
  (((d.put Fld.SPR_HANDOFF_CLASS c).put Fld.SPR_HANDOFF_OUT out).put Fld.SPR_HANDOFF_IN inn).putBit Fld.SPR_HANDOFF_BUSY true

/-- A write of SPR_HANDOFF: its fields are taken, and GO starts the hand-off or is refused with nothing changed (R388). -/
def Dev.handoffGo (d : Dev) (v : Word) : Dev :=
  let c := fieldOf v 0 4
  let out := fieldOf v 16 8
  let inn := fieldOf v 8 8
  if fieldOf v 31 1 = 0 then
    if d.bit Fld.SPR_HANDOFF_BUSY then d
    else ((d.put Fld.SPR_HANDOFF_CLASS c).put Fld.SPR_HANDOFF_OUT out).put Fld.SPR_HANDOFF_IN inn
  else if d.bit Fld.SPR_HANDOFF_BUSY then d.handoffRefused
  else if (c = 3 ∨ c = 4) ∧ d.sliceRule c out inn then
    (d.handoffBegins c out inn).onHead (c - 3) fun s => { s with handoff := some (10 * (c - 3) + out, 10 * (c - 3) + inn) }
  else if c = 5 ∧ d.latticeRule out inn then
    let h := d.fld (Fld.LAT_CTRL_HEAD out)
    let d := (d.handoffBegins c out inn).onDh h fun s => { s with handoff := some (inn, out) }
    if (d.dh h).passes.isEmpty then d.latticeHandoff h else d
  else if c = 8 ∧ d.spanRule out inn then
    let d := d.handoffBegins c out inn
    d.each ((d.tasksOf out).filter fun t => (d.task t).ckpt.isNone) fun d t => d.startCkpt t
  else d.handoffRefused

/-- SLICE_HANDOFF: a write of SPR_HANDOFF that names class 0x03 or 0x04. -/
def execSliceHandoff (v : Word) (s : State) : Host.Outcome State Fault Refusal := s.on fun d => d.handoffGo v

/-- LATTICE_HANDOFF: a write of SPR_HANDOFF that names class 0x05. -/
def execLatticeHandoff (v : Word) (s : State) : Host.Outcome State Fault Refusal := s.on fun d => d.handoffGo v

/-- SPAN_HANDOFF: a write of SPR_HANDOFF that names class 0x08. -/
def execSpanHandoff (v : Word) (s : State) : Host.Outcome State Fault Refusal := s.on fun d => d.handoffGo v

/-- SPAN_HANDOFF_DONE: every task of OUT has moved, and OUT takes the Off role and IN the Active one (R387). -/
def execSpanHandoffDone (s : State) : Host.Outcome State Fault Refusal :=
  s.on fun d =>
    let out := d.fld Fld.SPR_HANDOFF_OUT
    let inn := d.fld Fld.SPR_HANDOFF_IN
    if d.handingOff out ∧ (d.tasksOf out).isEmpty then
      ((d.put (Fld.SPP_CTRL_ROLE out) 0).put (Fld.SPP_CTRL_ROLE inn) 1).handoffDone 8 out inn
    else d

/-- SPR_CNT_CLR (R394). -/
def execSprCntClr (s : State) : Host.Outcome State Fault Refusal := s.on fun d => d.clearCounters Adr.SPR_CNT

end Sys2Proof.Machine
end

