-- ==== Sys2Proof/Machine/Update.lean ====
section
/-! DEFINITION. Images: staging, verification, activation, confirmation and reversion, for the host and the service port
(R349, R389, R390, R411, R413 to R425). -/

namespace Sys2Proof.Machine

def Dev.onUpd (d : Dev) (f : UpdSt → UpdSt) : Dev := { d with upd := f d.upd }

/-! ## Replies of the service port (R411, R412) -/

/-- A response frame: TYPE + 0x80, SEQ echoed, a status, data and the CRC. -/
def svcFrameBytes (type seq status : Nat) (data : List Byte) : List Byte :=
  let l := leBytes 1 0xa5 ++ leBytes 1 (type + 0x80) ++ leBytes 2 (2 + data.length) ++ leBytes 2 seq ++ [0, 0]
    ++ leBytes 2 status ++ data
  l ++ leBytes 4 (crc32 l)

def Dev.svcReply (d : Dev) (type seq status : Nat) (data : List Byte) : Dev :=
  { d with svc := { d.svc with sent := svcFrameBytes type seq status data :: d.svc.sent } }

/-- The recovery ROM runs. -/
def Dev.inRecovery (d : Dev) : Bool := d.bit Fld.BOOT_STATUS_RECOVERY_ROM

/-- A frame is recorded (R406, R426). -/
def Dev.recordFrame (d : Dev) (type seq status : Nat) : Dev :=
  d.audit (if d.inRecovery then 4 else 3) (d.fld Fld.SVC_CFG_ROLE) (0x0600 + type) (outcomeOf status)
    (leBytes 2 seq ++ leBytes 2 status)

/-- A frame is recorded and answered. -/
def Dev.svcEnd (d : Dev) (type seq status : Nat) (data : List Byte) : Dev :=
  (d.recordFrame type seq status).svcReply type seq status data

/-- RESULT as the response to a STAGE_END or an ACTIVATE carries it. -/
def Dev.resultBytes (d : Dev) (type : Nat) : List Byte :=
  if type = 5 ∨ type = 6 then leBytes 4 (d.fld Fld.UPD_STATUS_RESULT) else []

/-- Who asked gets the status: a command completes, a frame is answered. -/
def Dev.updAnswer (d : Dev) (w : UpdWait) (v : HostStatus) : Dev :=
  match w with
  | .command c => match d.findCmd c with
    | some x => d.complete x v
    | none => d
  | .frame seq type => d.svcEnd type seq v.status (d.resultBytes type)

/-- The one who waits, if any, gets the status. -/
def Dev.updDone (d : Dev) (v : HostStatus) : Dev :=
  match d.upd.waiter with
  | some w => (d.onUpd fun u => { u with waiter := none }).updAnswer w v
  | none => d

/-- INVALID_FIELD with reason STATE, as an update refuses. -/
def stateError : HostStatus := badField 32 rsState

/-! ## The staging lock (R418) -/

/-- The staging lock is held by a source: a pair, or none for the service port. -/
def Dev.stagingMine (d : Dev) (src : Option Nat) : Bool :=
  d.bit Fld.UPD_STATUS_LOCKED && (match src with
    | some q => d.fld Fld.UPD_STATUS_HOLDER == 1 && d.fld Fld.UPD_STATUS_HOLDER_QP == q
    | none => d.fld Fld.UPD_STATUS_HOLDER == 2)

/-- Another source holds it. -/
def Dev.stagingOther (d : Dev) (src : Option Nat) : Bool := d.bit Fld.UPD_STATUS_LOCKED && !d.stagingMine src

/-- A source takes the lock, with nothing staged yet. -/
def Dev.takeStaging (d : Dev) (src : Option Nat) : Dev :=
  let d := (d.putBit Fld.UPD_STATUS_LOCKED true).put Fld.UPD_STATUS_HOLDER (if src.isSome then 1 else 2)
  (d.put Fld.UPD_STATUS_HOLDER_QP (src.getD 0)).onUpd fun u => { u with stage := [], length := none, image := none }

/-- Bytes of the staging area, and of the largest image. -/
def ximLimit : Nat := 24 * 2 ^ 20

/-- Why a piece is not accepted. -/
def Dev.pieceRefused (d : Dev) (src : Option Nat) (off len : Nat) : Option HostStatus :=
  if d.stagingOther src then some ⟨stBusyUpdate, 0, 0⟩
  else if d.bit Fld.UPD_STATUS_TRIAL || d.bit Fld.UPD_STATUS_ACTIVATING || d.upd.verifying then some stateError
  else if ximLimit < off + len then some (badField 40 rsRange)
  else if !d.bit Fld.UPD_STATUS_LOCKED && off != 0 then some stateError
  else none

/-- An accepted piece is staged; it makes an image verified before void. -/
def Dev.stagePiece (d : Dev) (src : Option Nat) (off : Nat) (l : List Byte) : Dev :=
  let d := if d.bit Fld.UPD_STATUS_LOCKED then d else d.takeStaging src
  (d.putBit Fld.UPD_STATUS_VERIFIED false).onUpd fun u =>
    { u with stage := Tab.write (fun _ => 0) u.stage off l, length := none, image := none }

/-- The last piece has come: verification runs, and its end answers. -/
def Dev.stagingEnds (d : Dev) (length : Nat) (w : UpdWait) : Dev :=
  d.onUpd fun u => { u with length := some length, verifying := true, waiter := some w }

/-! ## The image (R414 to R416) -/

def ximMagic : List Byte := [0x58, 0x49, 0x4d, 0x47]
def ximFlags (l : List Byte) : Nat := fieldAt l 6 2
def ximParts (l : List Byte) : Nat := fieldAt l 12 2
def ximCompat (l : List Byte) : Nat := fieldAt l 14 2
/-- Byte at which the part table starts. -/
def ximTable (l : List Byte) : Nat := 128 + 8 * ximCompat l
/-- Entry i of the part table. -/
def ximEntry (l : List Byte) (i : Nat) : List Byte := bytesAt l (ximTable l + 64 * i) 64
def ximPart (l : List Byte) (i : Nat) : List Byte := bytesAt l (fieldAt (ximEntry l i) 4 4) (fieldAt (ximEntry l i) 8 4)
/-- The bytes before the signature block, and that block. -/
def ximBody (l : List Byte) : List Byte := l.take (l.length - 128)
def ximSig (l : List Byte) : List Byte := l.drop (l.length - 128)

/-- The part classes of R415. -/
def partClasses : List Nat := [1, 2, 3, 4, 5, 0x11, 0x12, 0x13, 0x14]

def ximClasses (l : List Byte) : List Nat := (List.range (ximParts l)).map fun i => fieldAt (ximEntry l i) 0 1

/-- A compatibility entry of the vector. -/
def compatAt (l : List Byte) (i : Nat) : CompatEntry :=
  let e := bytesAt l (128 + 8 * i) 8
  ⟨fieldAt e 0 1 == 2, fieldAt e 1 1, fieldAt e 2 1, fieldAt e 3 1⟩

/-- Format and length of an image (step 1 of R417). -/
def ximFormOk (l : List Byte) : Bool :=
  let n := l.length
  let entryOk (i : Nat) : Bool :=
    let e := ximEntry l i
    partClasses.contains (fieldAt e 0 1) && fieldAt e 1 3 == 0 && fieldAt e 12 4 == 0
      && ximTable l + 64 * ximParts l ≤ fieldAt e 4 4 && fieldAt e 4 4 + fieldAt e 8 4 + 128 ≤ n
  let vecOk (i : Nat) : Bool :=
    let e := bytesAt l (128 + 8 * i) 8
    (fieldAt e 0 1 == 1 || fieldAt e 0 1 == 2) && fieldAt e 4 4 == 0
  bytesAt l 0 4 == ximMagic && fieldAt l 4 2 == 1 && ximFlags l < 4 && fieldAt l 8 4 == n && n ≤ ximLimit
    && 1 ≤ ximParts l && ximParts l ≤ 32 && ximCompat l ≤ 64 && fieldAt l 20 4 ≤ 64 && fieldAt l 26 1 < 4
    && allZero (bytesAt l 28 36) && allZero (bytesAt l 80 48) && ximTable l + 64 * ximParts l + 128 ≤ n
    && (List.range (ximParts l)).all entryOk && (List.range (ximCompat l)).all vecOk
    && allZero (bytesAt (ximSig l) 1 15) && allZero (bytesAt (ximSig l) 112 16)
    && (ximFlags l % 2 == 1 || (ximClasses l).eraseDups.length == 1)

/-- What an image that checks holds. -/
def parseXim (l : List Byte) : XimImage :=
  { manifest := ximFlags l % 2 == 1, live := ximFlags l / 2 % 2 == 1, version := fieldAt l 16 4, rollback := fieldAt l 20 4
    vector := (List.range (ximCompat l)).map (compatAt l)
    parts := (List.range (ximParts l)).map fun i => (fieldAt (ximEntry l i) 0 1, ximPart l i) }

/-- A requirement is met by a vector's provisions. -/
def metBy (r : CompatEntry) (v : List CompatEntry) : Bool :=
  v.any fun p => !p.requires && p.iface == r.iface && p.major == r.major && decide (r.minor ≤ p.minor)

/-- The interface that parts of a class provide. -/
def ownsIface (cls iface : Nat) : Bool := iface == cls || (iface == 8 && 0x11 ≤ cls)

/-- A manifest is compatible in itself. -/
def manifestCompat (v : List CompatEntry) : Bool := v.all fun r => !r.requires || metBy r v

/-- A live image of a class is compatible with the running set. -/
def liveCompat (cls : Nat) (new run : List CompatEntry) : Bool :=
  let mine := run.filter fun e => ownsIface cls e.iface
  let rest := run.filter fun e => !ownsIface cls e.iface
  (new.all fun r => !r.requires || metBy r rest)
    && (run.all fun r => !r.requires || !metBy r mine || metBy r new)
    && (mine.all fun p => p.requires || metBy p new)

/-- The image that a boot slot holds. -/
def Dev.slotImage (d : Dev) (x : Nat) : XimImage := (d.bootSlot x).image.getD ⟨true, false, 0, 0, [], []⟩

/-- The image that runs. -/
def Dev.runningImage (d : Dev) : XimImage := d.slotImage d.runningSlot

/-- A slot that signs images: a maker slot or a signing root. -/
def signsImages (slot : Nat) : Bool := slot < 4 || (8 ≤ slot && slot < 12)

/-- The compatibility tests of an image (R416). -/
def Dev.ximCompatible (d : Dev) (im : XimImage) : Bool :=
  if im.manifest then manifestCompat im.vector
  else liveCompat ((im.parts.map (·.1)).headD 0) im.vector d.runningImage.vector

/-- RESULT of the verification of an image, in the order of R417. -/
def Dev.verifyXim (d : Dev) (l : List Byte) : Nat :=
  let s := ximSig l
  let slot := fieldAt s 0 1
  if !ximFormOk l then 2
  else if fieldAt l 24 2 ≠ 0x7216 ∨ !(fieldAt l 26 1).testBit (if d.variantS then 1 else 0)
    ∨ d.fld Fld.ID_DEVICE_STEPPING < fieldAt l 27 1 then 3
  else if !(signsImages slot && d.keyUsable slot && ecdsaVerify (d.keyOf slot) (sha384 (ximBody l)) (bytesAt s 16 48) (bytesAt s 64 48))
    then 4
  else if !(List.range (ximParts l)).all fun i => sha384 (ximPart l i) == bytesAt (ximEntry l i) 16 48 then 5
  else if fieldAt l 20 4 < d.fld Fld.SEC_ROLLBACK_COUNT then 6
  else if !d.ximCompatible (parseXim l) then 7
  else 1

/-- The record of an update (R407). -/
def Dev.auditUpdate (d : Dev) (slot outcome : Nat) : Dev :=
  let b := d.bootSlot slot
  d.audit (if d.inRecovery then 4 else 0) 0 0x0500 outcome
    (leBytes 1 slot ++ leBytes 4 b.gen ++ leBytes 4 b.version ++ leBytes 1 (d.fld Fld.UPD_STATUS_RESULT))

/-- The status that a failed verification gives (R419). -/
def verifyStatus (result : Nat) : HostStatus :=
  if result = 1 then doneWith 0 else if result = 4 then ⟨stDenied, 0, roleInstaller⟩ else stateError

/-- IMAGE_VERIFY_DONE: the staged image is verified; a failure releases the lock. -/
def execImageVerifyDone (s : State) : Host.Outcome State Fault Refusal :=
  s.on fun d =>
    match d.upd.verifying, d.upd.length with
    | true, some n =>
      let l := Tab.range (fun _ => (0 : Byte)) d.upd.stage 0 n
      let r := d.verifyXim l
      let d := d.onUpd fun u => { u with verifying := false, image := if r = 1 then some (parseXim l) else none }
      let d := if r = 1 then (d.putBit Fld.UPD_STATUS_VERIFIED true).put Fld.UPD_STATUS_RESULT 1 else d.releaseStaging r
      (d.auditUpdate d.runningSlot (if r = 1 then taken else failed)).updDone (verifyStatus r)
    | _, _ => d

/-! ## Boot slots (R423, R424) -/

def slotEmpty : Nat := 0
def slotTrial : Nat := 1
def slotConfirmed : Nat := 2
def slotFailed : Nat := 3

def Dev.slotState (d : Dev) (x : Nat) : Nat := d.fld (Fld.UPD_SLOT_STATE x)

def Dev.setSlotState (d : Dev) (x st : Nat) : Dev := d.put (Fld.UPD_SLOT_STATE x) st

/-- An image is written to a slot as a TRIAL that has not been tried. -/
def Dev.writeSlot (d : Dev) (x : Nat) (im : XimImage) (gen area : Nat) : Dev :=
  let d := d.setBootSlot x { gen := gen, version := im.version, area := area, image := some im }
  let d := (d.put (Fld.UPD_SLOT_GEN x) (gen % 65536)).put (Fld.UPD_SLOT_MAJOR x) (im.version / 2 ^ 24)
  (d.put (Fld.UPD_SLOT_TRIES x) 0).setSlotState x slotTrial

/-- MAJOR of the settings format that a vector provides. -/
def settingsMajor (v : List CompatEntry) : Option Nat := (v.find? fun e => !e.requires && e.iface == 5).map (·.major)

/-- A new image with another settings format gets the settings in the other area, and settings go to both until CONFIRM
(R424). -/
def Dev.migrate (d : Dev) (im : XimImage) : Nat × Dev :=
  let a := d.settingArea
  let new := settingsMajor im.vector
  if new.isNone ∨ new = settingsMajor d.runningImage.vector then (a, d)
  else
    let kept := d.upd.settings.filter fun e => e.1 / 2 ^ 24 != 1 - a
    let copies := (kept.filter fun e => e.1 / 2 ^ 24 == a).map fun e => (e.1 % 2 ^ 24, e.2)
    let t := copies.foldl (fun t e => Tab.set settingReset t (settingKey (1 - a) e.1) e.2) kept
    (1 - a, d.onUpd fun u => { u with settings := t, both := true })

/-- The slot that does not run gets an image as a trial. -/
def Dev.writeTrial (d : Dev) (im : XimImage) : Dev :=
  let r := d.migrate im
  (r.2.writeSlot (1 - d.runningSlot) im ((d.bootSlot d.runningSlot).gen + 1) r.1).cleanRestart

/-! ## What activation loads (R389, R390, R415, R422) -/

/-- Bytes of one half of the vendor region. -/
def halfBytes : Nat := 0x60000

/-- The first part of a class. -/
def XimImage.part (im : XimImage) (cls : Nat) : List Byte := ((im.parts.find? fun p => p.1 == cls).map (·.2)).getD []

/-- The parts of a mode: native ones, or those of the KD path. -/
def modeClass (mode cls : Nat) : Nat := if mode = 2 then 0x10 + cls else cls

/-- Code is written to a half of the vendor region. -/
def Dev.writeHalf (d : Dev) (half : Nat) (l : List Byte) : Dev := d.writeCode (halfBytes * half) (l.take halfBytes)

/-- The images of R197 that a part concatenates, at most one for each pair. -/
def arcImages : Nat → List Byte → List (List Byte)
  | 0, _ => []
  | n + 1, l => if l.length < 192 then [] else l.take (imageLength l) :: arcImages n (l.drop (imageLength l))

/-- The pair that an image is for: the one whose ports it binds. -/
def imagePair (im : ArcImage) : Nat := if im.bind % 2 = 1 then 0 else if im.bind / 2 % 2 = 1 then 1 else 2

/-- The programs of an Arc part are admitted on their pairs. -/
def Dev.admitAll (d : Dev) (l : List Byte) : Dev :=
  d.each (arcImages 3 l) fun d b =>
    let im := parseImage b
    d.when (d.loadResult (imagePair im) b == 0) fun d => d.takeIn (imagePair im) im

/-- A vendor task's entry point in a half, which the task table of the image sets in a form that the spec does not give. -/
def Dev.freeEntry (d : Dev) (half : Nat) : Nat := halfBytes * half + 4 * (d.freeBits 32 % (halfBytes / 4))

/-- A vendor task restarts in a half with registers 0. -/
def Dev.restartIn (d : Dev) (t half : Nat) : Dev :=
  ((d.put (Fld.SPP_TASK_ENTRY t) (d.freeEntry half)).drew).beginTask t

/-- The live vendor tasks, lowest first. -/
def Dev.vendorTasks (d : Dev) : List Nat := (List.range 88).filter d.taskLive

/-- Every part of a manifest is loaded: the vendor code and its tasks, and the Arc programs. -/
def Dev.loadManifest (d : Dev) (im : XimImage) : Dev :=
  let half := d.upd.half.val
  let d := d.writeHalf half (im.part (modeClass d.mode 1))
  let d := d.each d.vendorTasks fun d t => d.restartIn t half
  d.admitAll (im.part (modeClass d.mode 2))

/-! ## Activation (R420 to R422) -/

/-- The running manifest with one class replaced by that of a live image. -/
def mergeLive (run im : XimImage) (cls : Nat) : XimImage :=
  { run with
    manifest := true, version := im.version, rollback := im.rollback
    vector := (run.vector.filter fun e => e.requires || !ownsIface cls e.iface) ++ im.vector
    parts := (run.parts.filter fun p => p.1 != cls) ++ im.parts }

/-- The update of a class begins: its code stands in the half that is not current, or its units' cycles begin. -/
def Dev.beginClass (d : Dev) (im : XimImage) (cls : Nat) : Dev :=
  let d := d.onUpd fun u => { u with cls := some cls, changed := [], moved := [], failed := false }
  if cls = 1 ∨ cls = 0x11 then d.writeHalf (1 - d.upd.half.val) (im.part cls)
  else if cls = 2 ∨ cls = 0x12 then d.admitAll (im.part cls)
  else d.nextUpdate

/-- An activation begins. -/
def Dev.beginActivation (d : Dev) (im : XimImage) (w : UpdWait) : Dev :=
  let d := (d.putBit Fld.UPD_STATUS_ACTIVATING true).onUpd fun u => { u with waiter := some w, revert := false }
  if im.manifest then (d.putBit Fld.HQ_STATUS_QUIESCED true).onUpd fun u => { u with cls := none }
  else
    let cls := (im.parts.map (·.1)).headD 0
    let d := d.writeTrial (mergeLive d.runningImage im cls)
    (d.putBit Fld.UPD_STATUS_TRIAL true).beginClass im cls

/-- ACTIVATE from a source. -/
def Dev.activate (d : Dev) (src : Option Nat) (w : UpdWait) : Dev :=
  if d.stagingOther src then d.updAnswer w ⟨stBusyUpdate, 0, 0⟩
  else
    match d.upd.image with
    | none => d.updAnswer w stateError
    | some im =>
      if d.bit Fld.UPD_STATUS_ACTIVATING || d.bit Fld.UPD_STATUS_TRIAL || !(im.manifest || im.live) then d.updAnswer w stateError
      else d.beginActivation im w

/-- The activation ends with a result: the host path runs again, the staging lock is free, and who asked is answered. -/
def Dev.activationEnds (d : Dev) (result : Nat) : Dev :=
  let d := (d.putBit Fld.UPD_STATUS_ACTIVATING false).putBit Fld.HQ_STATUS_QUIESCED false
  let d := (d.put Fld.UPD_STATUS_RESULT result).releaseStaging result
  (d.auditUpdate (1 - d.runningSlot) (if result = 9 then taken else failed)).updDone (if result = 9 then doneWith 0 else stateError)

/-- Commands in flight beside the one that waits for the activation. -/
def Dev.pathBusy (d : Dev) : Bool :=
  d.host.cmds.any fun c => !(match d.upd.waiter with
    | some (.command r) => c.qp == r.qp.val && c.tag == r.tag.toNat
    | _ => false)

/-- Every vendor task has moved to the new half. -/
def Dev.allMoved (d : Dev) : Bool := d.vendorTasks.all d.upd.moved.contains

/-- Every unit that a live update of a class is to change by a cycle has changed, and no cycle runs (R389, R421). -/
def Dev.unitsChanged (d : Dev) (cls : Nat) : Bool :=
  (updatedUnits cls).isEmpty || d.spr.cycle.isNone &&
    (updatedUnits cls).all fun p => !d.classPresent p.1 || d.dead p.1 p.2 || d.upd.changed.contains (unitKey p.1 p.2)

/-- LIVE_ACTIVATION_DONE: the last unit has changed, or a part failed to load or to test; a manifest's activation ends so
too, once the host path is quiet. -/
def execLiveActivationDone (ok : Bool) (s : State) : Host.Outcome State Fault Refusal :=
  s.on fun d =>
    let other := 1 - d.runningSlot
    if !d.bit Fld.UPD_STATUS_ACTIVATING then d
    else
      match d.upd.cls with
      | none =>
        match d.upd.image with
        | some im =>
          if d.pathBusy then d
          else if ok then
            let d := (d.loadManifest im).writeTrial im
            ((d.putBit Fld.UPD_STATUS_TRIAL true).put Fld.UPD_STATUS_RUNNING_SLOT other).activationEnds 9
          else d.activationEnds 8
        | none => d.activationEnds 8
      | some cls =>
        if d.upd.revert then
          let d := (d.putBit Fld.UPD_STATUS_ACTIVATING false).putBit Fld.UPD_STATUS_TRIAL false
          let d := d.onUpd fun u => { u with cls := none, revert := false }
          d.put Fld.UPD_STATUS_RESULT (if ok then 9 else 8)
        else if !ok || d.upd.failed then d.activationEnds 8
        else if ((cls = 1 ∨ cls = 0x11) ∧ !d.allMoved) ∨ !d.unitsChanged cls then d
        else (d.put Fld.UPD_STATUS_RUNNING_SLOT other).activationEnds 9

/-- VENDOR_TASK_MOVE: a vendor task whose turn it is, and which stands in WAIT with its work finished, restarts in the new
half; after the last one the new half is current (R390). -/
def execVendorTaskMove (t : TaskId) (s : State) : Host.Outcome State Fault Refusal :=
  s.on fun d =>
    let next := d.vendorTasks.find? fun k => !d.upd.moved.contains k
    let updating := d.bit Fld.UPD_STATUS_ACTIVATING && (d.upd.cls == some 1 || d.upd.cls == some 0x11)
    let idle := d.taskState t.val == taskWaiting && !(d.span.dmas.any fun x => x.task == t.val)
      && !d.span.held.any fun e => e.task == t.val
    if updating && next == some t.val && idle then
      let half := 1 - d.upd.half.val
      let d := (d.restartIn t.val half).onUpd fun u => { u with moved := u.moved ++ [t.val] }
      d.when d.allMoved fun d => d.onUpd fun u => { u with half := Fin.ofNat 2 half }
    else d

/-! ## Confirmation and reversion (R425) -/

/-- The slot under trial. -/
def Dev.trialSlot (d : Dev) : Nat := if d.slotState d.runningSlot = slotTrial then d.runningSlot else 1 - d.runningSlot

/-- CONFIRM. -/
def Dev.confirm (d : Dev) : Dev :=
  let x := d.trialSlot
  let d := d.setSlotState x slotConfirmed
  let d := d.put Fld.SEC_ROLLBACK_COUNT (max (d.fld Fld.SEC_ROLLBACK_COUNT) (d.slotImage x).rollback)
  let d := (d.putBit Fld.UPD_STATUS_TRIAL false).onUpd fun u => { u with cls := none, both := false }
  d.auditUpdate x taken

/-- A trial that can be confirmed or reverted runs. -/
def Dev.onTrial (d : Dev) : Bool := d.bit Fld.UPD_STATUS_TRIAL && !d.bit Fld.UPD_STATUS_ACTIVATING

/-- CONFIRM from a source: the status it is answered with, and the block after it. -/
def Dev.confirmBy (d : Dev) : HostStatus × Dev := if d.onTrial then (doneWith 0, d.confirm) else (stateError, d)

/-- REVERT: the trial slot is FAILED; a live trial returns its class to the part of the other slot. -/
def Dev.revertTrial (d : Dev) : Dev :=
  let x := d.trialSlot
  let d := ((d.setSlotState x slotFailed).auditUpdate x taken).onUpd fun u => { u with both := false }
  match d.upd.cls with
  | none => d
  | some cls =>
    let d := (d.put Fld.UPD_STATUS_RUNNING_SLOT (1 - x)).putBit Fld.UPD_STATUS_ACTIVATING true
    (d.beginClass (d.slotImage (1 - x)) cls).onUpd fun u => { u with revert := true }

/-- REVERT from a source: a manifest trial is undone by a reset once it has been answered. -/
def Dev.revertBy (d : Dev) (w : UpdWait) : Dev :=
  if !d.onTrial then d.updAnswer w stateError
  else
    let reset := d.upd.cls.isNone
    ((d.revertTrial).updAnswer w (doneWith 0)).when reset fun d => d.chipReset none

/-- STAGE_ABORT from a source: the status, and the block after it. -/
def Dev.stageAbort (d : Dev) (src : Option Nat) : HostStatus × Dev :=
  if d.stagingOther src then (⟨stBusyUpdate, 0, 0⟩, d)
  else if d.bit Fld.UPD_STATUS_LOCKED && !d.bit Fld.UPD_STATUS_ACTIVATING then (doneWith 0, d.releaseStaging 0xa)
  else (stateError, d)

/-! ## Rows of the host (R399, R419) -/

/-- LOAD_PROGRAM with TARGET 0x02: a piece is staged; the last one completes when verification ends. -/
def execLoadProgramXim (c : CmdRef) (s : State) : Host.Outcome State Fault Refusal :=
  s.on fun d => d.command c 9 fun d x =>
    if entArg x.entry 0 1 ≠ 2 ∨ (d.upd.waiter = some (.command c)) then d
    else
      let off := entArg x.entry 8 4
      let len := entArg x.entry 4 4
      match d.pieceRefused (some x.qp) off len with
      | some v => d.complete x v
      | none =>
        match d.dataPages x with
        | none => d.complete x (badField 24 rsChain)
        | some ps =>
          let d := d.stagePiece (some x.qp) off (((ps.map fun a => d.hostRead a 4096).flatten).take len)
          if (entArg x.entry 1 1).testBit 0 then d.stagingEnds (off + len) (.command c) else d.complete x (doneWith 0)

def execEndorseActivate (c : CmdRef) (s : State) : Host.Outcome State Fault Refusal :=
  s.on fun d => d.endorse c 4 fun d x _ =>
    if d.upd.waiter = some (.command c) then d else d.activate (some x.qp) (.command c)

def execEndorseConfirm (c : CmdRef) (s : State) : Host.Outcome State Fault Refusal :=
  s.on fun d => d.endorse c 5 fun d x _ => d.confirmBy.2.complete x d.confirmBy.1

def execEndorseStageAbort (c : CmdRef) (s : State) : Host.Outcome State Fault Refusal :=
  s.on fun d => d.endorse c 7 fun d x _ => (d.stageAbort (some x.qp)).2.complete x (d.stageAbort (some x.qp)).1

def execEndorseRevert (c : CmdRef) (s : State) : Host.Outcome State Fault Refusal :=
  s.on fun d => d.endorse c 8 fun d _ _ => d.revertBy (.command c)

/-! ## Reset through the service port (R428, R429) -/

/-- A service RESET: every staged block reaches the medium, the response is sent, and the device resets; while the supply
fails it waits (R454). -/
def Dev.serviceReset (d : Dev) (seq : Nat) : Dev :=
  if d.supplyFailed then { d with svc := { d.svc with reset := some seq } }
  else (d.flushAll.svcEnd 0xf seq stDone []).chipReset (some Fld.RST_CAUSE_SERVICE)

/-! ## Ends in time (R418, R425) -/

/-- STAGING_LOCK_TIMEOUT: 600 s without a piece or ACTIVATE from the holder. -/
def execStagingLockTimeout (s : State) : Host.Outcome State Fault Refusal :=
  s.on fun d => d.when (d.bit Fld.UPD_STATUS_LOCKED && !d.bit Fld.UPD_STATUS_ACTIVATING) fun d =>
    (d.releaseStaging 0xb).auditUpdate d.runningSlot failed

/-- CLEAN_MINUTE: a minute of a trial in PS0 to PS3; at 1,440 it is confirmed where AUTO is in force. -/
def execCleanMinute (s : State) : Host.Outcome State Fault Refusal :=
  s.on fun d =>
    if !d.onTrial || d.ps == 4 then d
    else
      let n := min 1440 (d.fld Fld.UPD_CONFIRM_CLEAN_MIN + 1)
      let d := d.put Fld.UPD_CONFIRM_CLEAN_MIN n
      d.when (n == 1440 && d.bit Fld.UPD_CONFIRM_AUTO) fun d => d.confirm

end Sys2Proof.Machine
end

