-- ==== Sys2Proof/Machine/Startup.lean ====
section
/-! DEFINITION. The start-up sequence: straps, clocks, boot slots, the short BIST, manifest activation, DRAM, and the audit
chain (R4, R5, R286 to R288, R298, R340, R351, R353, R376, R398, R408, R422, R423, R426, R430 to R436, R485, R486). -/

namespace Sys2Proof.Machine

/-! ## Straps and clocks (R411, R430, R432) -/

/-- The levels of the straps are held. -/
def Dev.sampleStraps (d : Dev) (env : BootEnv) : Dev :=
  let d := (d.putBit Fld.BOOT_STATUS_STRAP_RECOVERY env.recoveryN).putBit Fld.BOOT_STATUS_STRAP_KD_SEL env.kdSelN
  let d := (d.putBit Fld.BOOT_STATUS_STRAP_SVC_CLK env.svcClk).putBit Fld.SVC_CFG_UART env.svcClk
  d.putBit Fld.KD_STATUS_STRAP env.kdSelN

/-- The ROOT cores that come up; one that does not is absent, and the other is active. -/
def Dev.lockCores (d : Dev) (env : BootEnv) : Dev :=
  let d := (d.putBit Fld.CLK_STATUS_LOCK0 env.core0).putBit Fld.CLK_STATUS_LOCK1 env.core1
  let d := d.putBit Fld.CLK_STATUS_ACTIVE (!env.core0)
  let d := d.when (!env.core0) fun d => (d.setUnit 12 0 .absent).setUnit 12 1 .inService
  d.when (!env.core1) fun d => d.setUnit 12 1 .absent

/-- Neither core locks: the device stays in step 2. -/
def Dev.stuckInStep2 (d : Dev) : Dev := { d with pwr := { d.pwr with stuck := true, attn := true } }

/-! ## The short BIST (R434 to R436) -/

/-- A domain fails its short test. -/
def bistFailed (env : BootEnv) (pd : Nat) : Bool := env.bistFail.any fun p => p.val == pd

/-- A unit starts ABSENT: its domain failed, or it was retired in two power-on periods. -/
def Dev.startsAbsent (d : Dev) (env : BootEnv) (c u : Nat) : Bool :=
  (match unitDomain c u with
    | some pd => bistFailed env pd
    | none => false) || 2 ≤ Tab.get (fun _ => 0) d.spr.retiredBefore (unitKey c u)

/-- The classes whose units start-up judges. -/
def judgedClasses : List Nat := [1, 2, 3, 4, 5, 6, 7, 8, 11, 12, 14, 15]

/-- A unit is marked ABSENT, and its bit leaves the masks of its class. -/
def Dev.markAbsent (d : Dev) (c u : Nat) : Dev :=
  let d := d.setUnit c u .absent
  if c = 6 then
    ((d.putMask Fld.DEC_INSERVICE_MASK u false).putMask (Fld.DEC_MASK_MASK 0) u false).putMask (Fld.DEC_MASK_MASK 1) u false
  else if c = 7 then d.putMask Fld.ARC_INSERVICE_MASK u false
  else if c = 8 then d.putMask Fld.SPP_INSERVICE_MASK u false
  else if c = 3 ∨ c = 4 then d.setExcluded (c - 3) u true
  else d

/-- The map that failovers from the reset map form as beams are lost, lowest first (R169, R434). -/
def lostMap : List Nat → List Nat → List Nat → List Nat
  | cur, _, [] => cur
  | cur, lost, b :: bs =>
    let lost := lost ++ [b]
    let good := (List.range 10).filter fun x => !lost.contains x
    lostMap (if 8 ≤ good.length then good.take 8 else cur.map fun x => if x = b then 15 else x) lost bs

/-- The reset beam map of a head without the beams that have no slice. -/
def Dev.resetMap (d : Dev) (h : Nat) : Dev :=
  let bad := (List.range 10).filter fun b => d.beamExcluded h b || !d.beamGood h b
  if bad.isEmpty then d
  else
    let new := lostMap (List.range 8) [] bad
    let d := (d.setReg (Adr.SRV_BEAM_MAP h) (mapWord new)).setReg (Adr.SRV_BEAM_MAP_CUR h) (mapWord new)
    (d.put (Fld.SRV_SHIFT_SHIFT h) (shiftWord new)).putBit (Fld.SRV_STATUS_DEGRADED h) (new.contains 15)

/-- Steps 4 and 5: failed domains are recorded, units marked, failed cache frames spared, and the beam maps formed. -/
def Dev.shortBist (d : Dev) (env : BootEnv) : Dev :=
  let d := d.putBit Fld.BOOT_STATUS_EXT_BIST ((d.setting d.settingArea Adr.FACET_CTRL).toNat.testBit 16)
  let d := d.each env.bistFail fun d p => d.showFail p.val true
  let d := d.each judgedClasses fun d c => d.each (List.range (classUnits c)) fun d u =>
    d.when (d.startsAbsent env c u) fun d => d.markAbsent c u
  let d := { d with pwr := { d.pwr with quadrants := (List.range 4).filter fun q => d.dead 11 q, ports := [] } }
  let d := d.each d.pwr.quadrants Dev.movePorts
  let d := d.each env.badFrames fun d k => d.spareFrame k.val
  ((d.resetMap 0).when (!d.variantS) fun d => d.resetMap 1).put Fld.BOOT_STATUS_STEP 5

/-- Two neighbouring quadrants are out of service, so that a port has neither of its own (log 52). -/
def Dev.portCut (d : Dev) : Bool := (List.range 4).any fun q => d.pwr.quadrants.contains q && d.pwr.quadrants.contains ((q + 1) % 4)

/-- The units of a class that are in service. -/
def Dev.liveUnits (d : Dev) (c : Nat) : Nat := ((List.range (classUnits c)).filter fun u => !d.dead c u).length

/-- What keeps the device from starting after step 5 (R435). -/
def Dev.noStart (d : Dev) (env : BootEnv) : Bool :=
  ([88, 90, 91, 92, 93].any (bistFailed env)) || d.liveUnits 8 == 0 || d.liveUnits 7 < 2 || d.portCut

/-! ## The boot slot (R353, R423) -/

/-- The mode that the lock and the strap choose (R351). -/
def Dev.chosenMode (d : Dev) : Nat :=
  let lock := d.fld Fld.KD_STATUS_LOCK
  if lock = 1 then 1 else if lock = 2 then 2 else if d.bit Fld.KD_STATUS_STRAP then 1 else 2

/-- The lock overrides the strap. -/
def Dev.lockOverrides (d : Dev) : Bool :=
  let strap := d.bit Fld.KD_STATUS_STRAP
  (d.fld Fld.KD_STATUS_LOCK == 1 && !strap) || (d.fld Fld.KD_STATUS_LOCK == 2 && strap)

/-- A slot verifies and activates: the parts that the mode needs are there. -/
def Dev.slotStarts (d : Dev) (env : BootEnv) (x : Nat) : Bool :=
  env.slotOk.getD x false && (match (d.bootSlot x).image with
    | some im => d.chosenMode != 2 || [0x11, 0x12, 0x13, 0x14].all fun c => im.parts.any fun p => p.1 == c
    | none => true)

/-- A trial slot that was tried three times is FAILED. -/
def Dev.spentTrial (d : Dev) (x : Nat) : Dev :=
  d.when (d.slotState x == slotTrial && d.fld (Fld.UPD_SLOT_TRIES x) == 3) fun d => d.setSlotState x slotFailed

/-- The slot that the boot sequencer chooses first, with its try counted. -/
def Dev.firstSlot (d : Dev) : Option Nat × Dev :=
  let d := (d.spentTrial 0).spentTrial 1
  match [0, 1].find? fun x => d.slotState x == slotTrial with
  | some x => (some x, d.put (Fld.UPD_SLOT_TRIES x) (d.fld (Fld.UPD_SLOT_TRIES x) + 1))
  | none =>
    match [0, 1].filter fun x => d.slotState x == slotConfirmed with
    | [x] => (some x, d)
    | [a, b] => (some (if (d.bootSlot a).gen < (d.bootSlot b).gen then b else a), d)
    | _ => (none, d)

/-- A slot that fails: a trial becomes FAILED, and the failure is recorded. -/
def Dev.slotFails (d : Dev) (x : Nat) : Dev :=
  (d.when (d.slotState x == slotTrial) fun d => d.setSlotState x slotFailed).auditUpdate x failed

/-- The slot that boots, if one does. -/
def Dev.chooseSlot (d : Dev) (env : BootEnv) : Option Nat × Dev :=
  match d.firstSlot with
  | (none, d) => (none, d)
  | (some x, d) =>
    if d.slotStarts env x then (some x, d)
    else
      let d := (d.slotFails x).putBit Fld.BOOT_STATUS_SLOT_FALLBACK true
      let y := 1 - x
      if d.slotState y = slotTrial ∨ d.slotState y = slotConfirmed then
        if d.slotStarts env y then (some y, d) else (none, d.slotFails y)
      else (none, d)

/-! ## Manifest activation (R422, R485, R486; step 6) -/

/-- Settings that step 6 restores, each written under the authority of start-up. -/
def settingRegs : List Nat :=
  [Adr.LOCUS_CTRL, Adr.MOT_BUS_CFG, Adr.MOT_PWM_CFG, Adr.SLD_VLIM_LO 0, Adr.SLD_VLIM_HI 0, Adr.SLD_HOME_POS 0, Adr.SLD_ORIGIN 0,
    Adr.SLD_PITCH 0, Adr.SLD_VLIM_LO 1, Adr.SLD_VLIM_HI 1, Adr.SLD_HOME_POS 1, Adr.SLD_ORIGIN 1, Adr.SLD_PITCH 1,
    Adr.SPP_USER_WIN_BASE, Adr.SPP_USER_WIN_PAGES, Adr.MEM_PATROL, Adr.SPR_POLICY] ++ (List.range 15).map Adr.SPR_CLASS_THR

/-- A register takes its setting, with a record where that changes it. -/
def Dev.restoreSetting (d : Dev) (off : Nat) (v : Word) : Dev :=
  if d.reg off = v then d else (d.setReg off v).auditWrite .hardware off v true

/-- The settings of the active area are restored (R376, R397). -/
def Dev.restoreSettings (d : Dev) : Dev :=
  let a := d.settingArea
  let d := d.each settingRegs fun d r => d.restoreSetting r (d.setting a r)
  let ext := withField (d.reg Adr.FACET_CTRL) 16 1 (fieldOf (d.setting a Adr.FACET_CTRL) 16 1)
  let d := (d.restoreSetting Adr.FACET_CTRL ext).setReg Adr.SEC_AUDIT_POLICY (d.setting a Adr.SEC_AUDIT_POLICY)
  d.takePolicy (d.fld Fld.SPR_POLICY_POLICY)

/-- The processors on which start-up places tasks. -/
def Dev.activeProcs (d : Dev) : List Nat := (List.range 12).filter fun p => d.fld (Fld.SPP_CTRL_ROLE p) == 1 && !d.dead 8 p

/-- The processor on which user tasks run, as the task table of the image names it: one of the Active ones (R249, log 3). -/
def Dev.placeUsers (d : Dev) : Dev :=
  let l := d.activeProcs
  let p := l.getD (d.freeBits 4 % max 1 l.length) 0
  d.drew.each (List.range 8) fun d k => d.put (Fld.SPP_TASK_PROC (88 + k)) p

/-- A vendor task as the task table of the image has it, which the spec does not give: whether it is there, its processor
among the Active ones whose context is free and kept for no user task, and its entry point (log 3). -/
def Dev.placeTask (d : Dev) (t : Nat) : Dev :=
  let free := d.activeProcs.filter fun p => (d.taskIn p (t % 8)).isNone && p != d.taskProc 88
  let live := d.freeBits 1 == 1 && !free.isEmpty
  let p := free.getD ((Config.freeValue (d.free + 1)).toNat % max 1 free.length) 0
  let d := d.drew.drew
  if live then
    let d := (d.putBit (Fld.SPP_TASK_LIVE t) true).put (Fld.SPP_TASK_PROC t) p
    (d.restartIn t d.upd.half.val).showContexts p
  else d

/-- The processors' roles: Active, but for the two that SPN_SPARE names; none for an absent one. -/
def Dev.placeProcs (d : Dev) : Dev :=
  d.each (List.range 12) fun d p =>
    let spare := d.fld Fld.SPP_SPARE_FIRST == p || d.fld Fld.SPP_SPARE_SECOND == p
    d.put (Fld.SPP_CTRL_ROLE p) (if d.dead 8 p then 0 else if spare then 3 else 1)

/-- The Lattice roles of native mode (R485); an absent unit gets none. -/
def Dev.placeLattice (d : Dev) : Dev :=
  let role (d : Dev) (u mode h : Nat) : Dev := if d.dead 5 u then d else d.latSetMode u mode h
  let d := role d 0 1 0
  let d := if d.variantS then d else role d 1 1 1
  (role d 2 2 0).put Fld.LAT_SPARE_UNIT 2

/-- The KD pickup serves B4 alone, and CHN4 takes the KD values of the vendor slice microcode (R92, R172, R360, R362). -/
def Dev.kdMap (d : Dev) : Dev :=
  let w := mapWord [15, 15, 15, 15, 4, 15, 15, 15]
  let d := ((d.setReg (Adr.SRV_BEAM_MAP 0) w).setReg (Adr.SRV_BEAM_MAP_CUR 0) w).putBit Fld.KD_STATUS_ACTIVE true
  let d := (d.put (Fld.CHN_SYNC_CFG_KD_SYNC_LEN 4) 24).put (Fld.CHN_SYNC_PAT_HI_PAT_HI 4) 0x4010
  let d := (d.put (Fld.CHN_SYNC_PAT_LO_PAT_LO 4) 0x04000000).sliceSetMode 4 3
  (d.put (Fld.CHN_ZONE_CUR_CHAN_DIV 4) 123).onKd fun k => { k with attention := some 0x29 }

/-- Step 6: the parts of the slot are loaded, the mode is chosen, pairs and roles are filled, and settings restored. -/
def Dev.activateManifest (d : Dev) (x : Nat) : Dev :=
  let d := d.putBit Fld.UPD_STATUS_TRIAL (d.slotState x == slotTrial)
  let d := (d.put Fld.ID_DEVICE_MODE d.chosenMode).spindleLimits
  let d := d.when d.lockOverrides fun d => (d.putBit Fld.KD_STATUS_LOCK_OVERRIDE true).auditEvent (leBytes 1 (d.fld Fld.KD_STATUS_LOCK))
  let im := d.slotImage x
  let d := (d.placeProcs).writeHalf d.upd.half.val (im.part (modeClass d.mode 1))
  let d := d.placeUsers.each (List.range 88) fun d t => d.placeTask t
  let d := (d.fillPairs).admitAll (im.part (modeClass d.mode 2))
  let d := if d.mode = 2 then d.kdMap else d.placeLattice
  d.restoreSettings.put Fld.BOOT_STATUS_STEP 6

/-! ## DRAM (R286 to R288, R298; step 7) -/

/-- GiB that a CAP code names. -/
def fittedGib (cap : Nat) : Nat := [0, 4, 6, 8, 12, 16].getD cap 0

/-- Usable pages of a capacity in GiB: whole groups of 73 frames, but for the last 16 (R287). -/
def usablePages (gib : Nat) : Nat := 64 * (gib * 2 ^ 18 / 73 - 16)

/-- A memory channel trains. -/
def channelUp (env : BootEnv) (ch : Nat) : Bool := (if ch = 0 then env.channel0 else env.channel1) && !bistFailed env (75 + ch)

/-- The vendor firmware records density and speed of the devices before training (R286). -/
def Dev.noteDram (d : Dev) (env : BootEnv) : Dev :=
  (d.put Fld.MEM_CFG_CAP (env.capacity.val + 1)).put Fld.MEM_CFG_SPEED (env.speed.val + 1)

/-- Step 7: the channels that trained serve, the working set is virgin, and the vendor firmware enables the cache. -/
def Dev.trainDram (d : Dev) (env : BootEnv) : Dev :=
  let both := channelUp env 0 && channelUp env 1
  let gib := fittedGib (d.fld Fld.MEM_CFG_CAP)
  let d := d.putBit Fld.MEM_CFG_ONE_CHANNEL (!both)
  let d := (d.put Fld.MEM_SIZE_PAGES (usablePages (if both then gib else gib / 2))).putBit Fld.MEM_STATUS_TRAINED true
  let d := ({ d with mem := {} }.putBit Fld.MEM_STATUS_WS_READY true).auditWrite .hardware Adr.CACHE_CTRL 1 true
  d.cacheOn.put Fld.BOOT_STATUS_STEP 7

/-! ## The audit chain and the end (R398, R408; step 8) -/

/-- The chain over the newest records is checked; a BREAK record continues from a failed link, with the hash and the SEQ that
the spec leaves to what the NOR holds (log 3). -/
def Dev.checkChain (d : Dev) (ok : Bool) : Dev :=
  if ok then d.putBit Fld.SEC_STATUS_AUDIT_OK true
  else
    ((d.auditLinked (d.freeBytes 48) 0 0 0x0f00 taken 0xff (leBytes 4 ((Config.freeValue (d.free + 48)).toNat))).drewMany
      49).putBit Fld.SEC_STATUS_AUDIT_GAP true

/-- The domains that have work at the end of start-up (R440). -/
def Dev.startDomains (d : Dev) (env : BootEnv) : List Nat :=
  (List.range 96).filter fun pd =>
    !bistFailed env pd &&
      (if pd = 75 ∨ pd = 76 then channelUp env (pd - 75)
       else if modalDomain pd then d.domainAsked pd
       else if 84 ≤ pd ∧ pd < 88 then !d.pwr.quadrants.contains (pd - 84)
       else true)

/-- A domain comes up in start-up, and counts (R441, R448). -/
def Dev.startDomain (d : Dev) (pd : Nat) : Dev := (d.showDomain pd true).count (Adr.PWR_CNT 0)

/-- Step 8: the chain is checked, domains come up, the bypass begins to open, and the classes are judged. -/
def Dev.finishStart (d : Dev) (env : BootEnv) : Dev :=
  let d := d.checkChain env.auditOk
  let d := d.each (d.startDomains env) Dev.startDomain
  ((d.openBypass.put Fld.BOOT_STATUS_STEP 8).put Fld.BOOT_STATUS_ELAPSED_MS env.elapsedMs.toNat).judgeAll

/-! ## The sequence (R431) -/

/-- The domains on which a device answers at its service port, but for those that failed (R435, R440). -/
def Dev.fixedDomains (d : Dev) : List Nat :=
  ([88, 90, 91, 92, 93] ++ (List.range 4).map (84 + ·)).filter fun pd => !d.maskBit (Fld.FACET_FAIL_VALUE (pd / 32)) (pd % 32)

/-- The recovery ROM runs, on the lowest-numbered Span processor in service (R426, R433). -/
def Dev.enterRecovery (d : Dev) : Dev :=
  let procs := ((List.range 12).filter fun p => !d.dead 8 p).take 1
  (d.each (d.fixedDomains ++ procs.map (55 + ·)) Dev.startDomain).putBit Fld.BOOT_STATUS_RECOVERY_ROM true

/-- NO_START (R435). -/
def Dev.stopStart (d : Dev) : Dev :=
  let d := (d.each d.fixedDomains Dev.startDomain).putBit Fld.BOOT_STATUS_NO_START true
  { d with pwr := { d.pwr with attn := true } }

/-- Start-up from the deasserting edge of reset. -/
def Dev.startUp (d : Dev) (env : BootEnv) : Dev :=
  let d := (({ d with pwr := { d.pwr with held := false } }).sampleStraps env).lockCores env
  if !env.core0 && !env.core1 then d.stuckInStep2
  else
    let d := d.putBit Fld.SEC_STATUS_KEYS_OK env.keysOk
    let r := if env.recoveryN then d.chooseSlot env else (none, d)
    let d := (r.2.put Fld.UPD_STATUS_RUNNING_SLOT (r.1.getD 0)).shortBist env
    if d.noStart env then d.stopStart
    else
      match r.1 with
      | none => d.enterRecovery
      | some x =>
        let d := (d.activateManifest x).noteDram env
        if channelUp env 0 || channelUp env 1 then (d.trainDram env).finishStart env
        else (d.putBit Fld.BOOT_STATUS_NO_DRAM true).enterRecovery

/-! ## Rows -/

/-- POWER_ON: VDD_AO rises, which clears what the island held, and start-up runs (R428). -/
def execPowerOn (env : BootEnv) (s : State) : Host.Outcome State Fault Refusal :=
  s.on fun d =>
    let d := { d with pwr := {} }.setReg Adr.RST_CAUSE 0
    (d.chipReset (some Fld.RST_CAUSE_POWER_ON)).startUp env

/-- RESET_DEASSERT: a device held in reset starts once its reference is there (R430, R432). -/
def execResetDeassert (env : BootEnv) (s : State) : Host.Outcome State Fault Refusal :=
  s.on fun d => d.when (d.pwr.held && d.pwr.refOk) fun d => d.startUp env

/-- A wake leaves PS4 through start-up (R340, R428). -/
def Dev.wakeStart (d : Dev) (env : BootEnv) : Dev :=
  d.when (d.ps == 4) fun d => (d.chipReset (some Fld.RST_CAUSE_WAKE)).startUp env

/-- USB4_SIDEBAND_WAKE. -/
def execUsb4SidebandWake (env : BootEnv) (s : State) : Host.Outcome State Fault Refusal :=
  s.on fun d => d.wakeStart env

/-- RING_WAKE: a WAKE frame for the device starts it from PS4 while the bypass is closed, returns it from PS3 to PS2 with a
link wake requested, and is only counted otherwise (R474). -/
def execRingWake (f : RingFrame) (env : BootEnv) (s : State) : Host.Outcome State Fault Refusal :=
  s.on fun d =>
    let f := ringTyped f ringWake
    let mine := f.crcOk && (rfDst f.bytes == d.sec.dsn || rfDst f.bytes == ringAll)
    if d.bit Fld.RING_STATUS_BYPASS then
      d.when mine fun d => (d.count (Adr.RING_CNT 7)).wakeStart env
    else
      d.ringReceive f id fun d =>
        (d.count (Adr.RING_CNT 7)).when (d.ps == 3) fun d => (d.takePs 2).raise 64

end Sys2Proof.Machine
end

