-- ==== Sys2Proof/Machine/Power.lean ====
section
/-! DEFINITION. Clocks, power domains, Facet tests, the thermal monitor and its governor, the supply alarm, and the ring's forced
bypass (R9, R34, R36, R61, R139, R381, R432, R436 to R446, R448, R454, R471). -/

namespace Sys2Proof.Machine

/-! ## ROOT cores (R34, R432, R442) -/

/-- The lock field of a core. -/
def lockField (core : Nat) : Field := if core = 0 then Fld.CLK_STATUS_LOCK0 else Fld.CLK_STATUS_LOCK1

/-- PLL_LOCK_TIMEOUT: a core that has not locked after 200 µs is retried, twice at most. -/
def execPllLockTimeout (core : Fin 2) (s : State) : Host.Outcome State Fault Refusal :=
  s.on fun d => d.when (!d.bit (lockField core.val)) fun d => d.onPwr fun p =>
    { p with retries := if core.val = 0 then (p.retries.1 - 1, p.retries.2) else (p.retries.1, p.retries.2 - 1) }

/-- ROOT_LOCK_LOSS: the standby core takes over and the slices acquire again; without one the device is reset as at a loss of
the reference. -/
def execRootLockLoss (s : State) : Host.Outcome State Fault Refusal :=
  s.on fun d =>
    let a := d.fld Fld.CLK_STATUS_ACTIVE
    let b := 1 - a
    if d.bit (lockField b) && !d.dead 12 b then
      let e := d.esn
      let d := ((d.event .rootPll a 0 [b]).count (Adr.PWR_CNT 5)).putBit Fld.CLK_STATUS_SWITCHED true
      let d := ((d.put Fld.CLK_STATUS_ACTIVE b).putBit (lockField a) false).putBit Fld.CLK_STATUS_RETIRED true
      let d := (d.substitute 12 a b e).retireUnit 12 a e
      d.each ((List.range 20).filter d.sliceLive) fun d n => d.onSlice n fun s => { s with rejoinArmed := true }
    else d.loseReference

/-- STANDBY_CORE_RELOCK: after exit from PS3 the standby core locks again. -/
def execStandbyCoreRelock (s : State) : Host.Outcome State Fault Refusal :=
  s.on fun d =>
    let b := 1 - d.fld Fld.CLK_STATUS_ACTIVE
    d.when (d.ps < 3 && !d.dead 12 b && !d.pwr.held && !d.pwr.stuck) fun d => d.putBit (lockField b) true

/-! ## Crossbar quadrants (R36, R381) -/

def execQuadrantFail (q : Fin 4) (s : State) : Host.Outcome State Fault Refusal := s.on fun d => d.quadrantFails q.val

/-! ## Power domains (R2, R440, R441) -/

/-- A domain that is fused off, or whose unit does no work; in KD mode those of the Lattice, the decoders and the stripe engines stay off
(R130). -/
def Dev.domainBarred (d : Dev) (pd : Nat) : Bool :=
  (d.mode == 2 && ((20 ≤ pd && pd < 47) || pd == 94 || pd == 95)) || (d.variantS && ((10 ≤ pd && pd < 20) || pd == 80 || pd == 82)) ||
    (match domainUnit pd with
      | some (c, u) => d.dead c u
      | none => false)

/-- The unit of a domain holds a role, a task, a job, or a Data or Active assignment, so that switching it off is
refused. -/
def Dev.domainHolds (d : Dev) (pd : Nat) : Bool :=
  if pd < 20 then d.sliceMode pd == 1
  else if pd < 23 then d.fld (Fld.LAT_CTRL_MODE (pd - 20)) == 1
  else if pd < 47 then d.bit (Fld.DECU_STATUS_BUSY (pd - 23))
  else if pd < 55 then d.fld (Fld.ARC_CTRL_ROLE (pd - 47)) != roleOff
  else if pd < 67 then d.fld (Fld.SPP_CTRL_ROLE (pd - 55)) != 0 || !(d.tasksOf (pd - 55)).isEmpty
  else if pd = 79 ∨ pd = 80 then d.wpBusy (pd - 79) || !(d.wps (pd - 79)).queue.isEmpty
  else if pd = 89 then d.bit Fld.FACET_STATUS_BUSY
  else if pd = 94 ∨ pd = 95 then d.stripeJobs.any fun p => p.2.engine == pd - 94
  else (pd == 77 || pd == 78 || pd == 88 || (90 ≤ pd && pd < 94)) && d.ps < 4

/-- The registers of a domain's unit but for the one that holds its mode or role, as a first offset, a length and the offset
of that one (log 53). -/
def domainRegs (pd : Nat) : Nat × Nat × Nat :=
  if pd < 20 then (0x20000 + 0x1000 * pd, 0x1000, Adr.CHN_CTRL pd)
  else if pd < 23 then (0x40000 + 0x1000 * (pd - 20), 0x1000, Adr.LAT_CTRL (pd - 20))
  else if pd < 47 then (0x51000 + 0x100 * (pd - 23), 0x100, 0)
  else if pd < 55 then (0x80000 + 0x4000 * (pd - 47), 0x4000, Adr.ARC_CTRL (pd - 47))
  else if pd < 67 then (0xc0000 + 0x1000 * (pd - 55), 0x1000, Adr.SPP_CTRL (pd - 55))
  else if pd = 79 ∨ pd = 80 then (0x60000 + 0x10000 * (pd - 79), 0x10000, 0)
  else if pd = 81 ∨ pd = 82 then (0xb8000 + 0x1000 * (pd - 81), 0x1000, Adr.SRV_CTRL (pd - 81))
  else if pd = 83 then (0xa0000, 0x8000, Adr.MOT_CTRL)
  else if pd = 94 ∨ pd = 95 then (0x58000 + 0x400 * (pd - 94), 0x400, Adr.STR_CTRL (pd - 94))
  else (0, 0, 0)

/-- Registers within a domain's range that are not its unit's: the KD registers (R351) and those that all Arc engines share. -/
def sharedRegs (off : Nat) : Bool := (0x24200 ≤ off && off < 0x24320) || (0x80800 ≤ off && off < 0x80818)

/-- An off domain keeps no state: its registers and what its unit holds return to their reset state. -/
def Dev.domainLoses (d : Dev) (pd : Nat) : Dev :=
  let r := domainRegs pd
  let d := { d with regs := d.regs.filter fun e => !(r.1 ≤ e.1 && e.1 < r.1 + r.2.1 && e.1 != r.2.2 && !sharedRegs e.1) }
  if pd < 20 then d.setSlice pd {}
  else if pd < 23 then d.onLat (pd - 20) fun _ => {}
  else if pd < 47 then d
  else if pd < 55 then d.onEng (pd - 47) fun _ => {}
  else if pd < 67 then
    { d with span := { d.span with tcm := d.span.tcm.filter fun e => e.1 / 65536 != pd - 55 } }
  else if pd < 75 then d.onCache fun c => { c with
    frames := c.frames.filter fun e => e.1 / 2048 != pd - 67, trees := c.trees.filter fun e => e.1 / 128 != pd - 67 }
  else if pd < 77 then d.onMem fun m => { m with
    bytes := m.bytes.filter fun e => e.1 / 256 % 2 != pd - 75, poison := m.poison.filter fun e => e.1 / 32 % 2 != pd - 75 }
  else if pd = 79 ∨ pd = 80 then d.onWp (pd - 79) fun _ => {}
  else if pd = 81 ∨ pd = 82 then d.setHead (pd - 81) {}
  else if pd = 83 then { d with mot := {} }
  else if pd = 90 then d.closeBypass
  else d

/-- A domain is switched off, unless its unit asks for it. -/
def Dev.domainDown (d : Dev) (pd : Nat) : Dev :=
  let d := d.onPwr fun p => { p with ramping := p.ramping.filter (· != pd), queue := p.queue.filter (· != pd) }
  if d.maskBit (Fld.PWR_ON_PD (pd / 32)) (pd % 32) then (d.showDomain pd false).domainLoses pd else d

/-- PD_REQUEST: the vendor firmware requests a domain on or off. -/
def Dev.pdRequest (d : Dev) (pd : Nat) (on : Bool) : Dev :=
  if on then
    let d := d.when (!d.domainOn pd) fun d => d.showDomain pd false
    let d := d.putMask (Fld.PWR_REQ_PD (pd / 32)) (pd % 32) true
    if d.domainBarred pd then d.count (Adr.PWR_CNT 1) else d.domainUp pd
  else if d.domainHolds pd then (d.putBit Fld.PWR_STATUS_PD_REFUSED true).put Fld.PWR_STATUS_LAST_REFUSED pd
  else
    let d := d.putMask (Fld.PWR_REQ_PD (pd / 32)) (pd % 32) false
    if d.domainAsked pd then d else d.domainDown pd

def execPdRequest (pd : Domain) (on : Bool) (s : State) : Host.Outcome State Fault Refusal :=
  s.on fun d => d.pdRequest pd.val on

/-- A domain that its unit asks for ramps without a request of the firmware (R441; log 174). -/
def Dev.rampsAsked (d : Dev) (pd : Nat) : Bool :=
  modalDomain pd && d.domainAsked pd && !d.domainOn pd && !d.domainBarred pd && !d.psHoldsOff d.ps pd && decide (d.pwr.ramping.length < 4) &&
    !d.pwr.queue.contains pd

/-- A domain is up, the motor block with the limits of its mode (R6, R246). -/
def Dev.domainComes (d : Dev) (pd : Nat) : Dev :=
  ((d.showDomain pd true).count (Adr.PWR_CNT 0)).when (pd == 83) Dev.spindleLimits

/-- PD_POWER_UP_DONE: a domain is up, and the first that waits begins. -/
def execPdPowerUpDone (pd : Domain) (s : State) : Host.Outcome State Fault Refusal :=
  s.on fun d =>
    if d.pwr.ramping.contains pd.val then
      (d.domainComes pd.val).onPwr fun p => { p with ramping := p.ramping.filter (· != pd.val) ++ p.queue.take 1, queue := p.queue.drop 1 }
    else d.when (d.rampsAsked pd.val) fun d => d.domainComes pd.val

/-! ## Facet (R436 to R439) -/

/-- A step of the MISR (R437). -/
def misrStep (m v : DWord) : DWord := ((m <<< 1) ^^^ (if m.getLsbD 63 then 0x1b else 0)) ^^^ v

/-- The signature of a test: its responses, the cycles applied, and the end marker. -/
def misrOf (responses : List DWord) : DWord :=
  misrStep (misrStep (responses.foldl misrStep (BitVec.allOnes 64)) (BitVec.ofNat 64 responses.length)) 0xa5c30f965a3cf069

/-- A unit passes when its signature, its March results and its analogue windows do. -/
def facetPasses (r : FacetResult) : Bool := misrOf r.responses == r.expected && r.march && r.analogue

/-- A unit that fails the extended test is retired, and what works on it is substituted (R381, R438). -/
def Dev.unitFails (d : Dev) (pd : Nat) : Dev :=
  match domainUnit pd with
  | none => d
  | some (c, u) =>
    if c = 3 ∨ c = 4 then d.sliceFaulted (10 * (c - 3) + u)
    else if c = 5 ∧ d.fld (Fld.LAT_CTRL_MODE u) = 1 then d.latticeFault u
    else if c = 6 then d.decoderFault u
    else if c = 7 then
      let role := d.fld (Fld.ARC_CTRL_ROLE u)
      let p := d.fld (Fld.ARC_CTRL_PAIR u)
      match (if role = roleLead ∨ role = roleCheck then d.arcSpare else none) with
      | some v => (((d.loadCheckpoint p v).takeRole p u v).substitute 7 u v d.esn).arcRetire u
      | none => d.arcRetire u
    else if c = 8 ∧ !(d.tasksOf u).isEmpty then d.procFault u (Fld.SPP_STATUS_FAULT u)
    else if c = 11 then d.quadrantFails u
    else if c = 15 then d.stripeFault u
    else d.retireUnit c u d.esn

/-- The signature last computed stands in FACET_MISR. -/
def Dev.showMisr (d : Dev) (l : List FacetResult) : Dev :=
  match l.getLast? with
  | some r =>
    let m := misrOf r.responses
    (d.put Fld.FACET_MISR_LO_VALUE (m.toNat % 2 ^ 32)).put Fld.FACET_MISR_HI_VALUE (m.toNat / 2 ^ 32)
  | none => d

/-- The results of the domain under a targeted test. -/
def resultsOf (l : List FacetResult) (pd : Nat) : List FacetResult := l.filter fun r => r.pd.val == pd

/-- The extended test ends: failing units are retired, and the host path runs again. -/
def Dev.extendedDone (d : Dev) (l : List FacetResult) : Dev :=
  let bad := l.filter fun r => !facetPasses r
  let d := (d.showMisr l).facetEnds bad.isEmpty
  let d := d.each l fun d r => d.showFail r.pd.val (!facetPasses r)
  let d := d.each bad fun d r => d.unitFails r.pd.val
  (d.putBit Fld.FACET_CTRL_EXT_REQ false).putBit Fld.HQ_STATUS_QUIESCED false

/-- FACET_TEST_DONE: the test in progress ends with the results of its domains; an extended one has waited for the commands in
flight (R349). -/
def execFacetTestDone (results : List FacetResult) (s : State) : Host.Outcome State Fault Refusal :=
  s.on fun d =>
    match d.pwr.test with
    | none => d
    | some .extended => if d.host.cmds.isEmpty then d.extendedDone results else d
    | some (.domain pd) =>
      let mine := resultsOf results pd
      (d.showMisr mine).targetedDone (!mine.isEmpty && mine.all facetPasses)

/-- An extended test is accepted in PS2 alone, where the host path is made quiet and the test begins (R438). -/
def Dev.extBegins (d : Dev) : Dev :=
  if d.ps ≠ 2 ∨ d.bit Fld.FACET_STATUS_BUSY then d.putBit Fld.FACET_STATUS_EXT_REFUSED true
  else
    let d := (d.putBit Fld.FACET_CTRL_EXT_REQ true).putBit Fld.HQ_STATUS_QUIESCED true
    (d.putBit Fld.FACET_STATUS_BUSY true).onPwr fun p => { p with test := some .extended, testAt := d.locus.micros }

/-- EXT_REQ is written 1; where it is 1 already, that is no write of it (R438, R477). -/
def Dev.extRequest (d : Dev) (w : Writer) : Dev :=
  if d.bit Fld.FACET_CTRL_EXT_REQ then d
  else d.roleWrite w Adr.FACET_CTRL (withField (d.reg Adr.FACET_CTRL) 15 1 1) Dev.extBegins

def execFacetExtReq (w : Writer) (s : State) : Host.Outcome State Fault Refusal := s.on fun d => d.extRequest w

/-- FACET_TGT_GO: a targeted test of a domain begins; a number beyond the domains names none (R439). -/
def Dev.targetGo (d : Dev) (pd : Nat) : Dev := if pd < 96 then d.targetedTest pd else d.put Fld.FACET_CTRL_PD pd

def execFacetTgtGo (pd : BitVec 7) (s : State) : Host.Outcome State Fault Refusal := s.on fun d => d.targetGo pd.toNat

/-- PWR_CNT_CLR (R448). -/
def execPwrCntClr (s : State) : Host.Outcome State Fault Refusal := s.on fun d => d.clearCounters Adr.PWR_CNT

/-! ## The hardware trip (R443, R446) -/

/-- 100.0, 95.0 and 105.0 °C in 1/64 °C. -/
def hundred : Int := 6400
def ninetyFive : Int := 6080
def hundredFive : Int := 6720

/-- Write gates and level DACs of a head are closed or freed. -/
def Dev.tripHead (d : Dev) (h : Nat) (on : Bool) : Dev :=
  let d := d.onWp h fun s => { s with trip := on }
  if on then
    let d := d.shutFrom h (d.positionsOf h (d.mapBeams h)) (d.guardBit h)
    (d.each (List.range 10) fun d b => d.setReg (Adr.WP_LVL h b) 0).showWp h
  else d.showWp h

/-- The winding short of a trip: a spindle that turns, in SHORT too, stops as at step 2 of R226 (log 54). -/
def Dev.tripSpindle (d : Dev) : Dev :=
  if d.spnState = spnOff ∨ d.spnState = spnCoast ∨ d.spnState = spnStopping then d.windingShort
  else (d.spnSwitchesOff.setSpn spnStopping).windingShort

/-- The trip: gates closed, level DACs 0, both sleds to PARK, and the winding short. -/
def Dev.hardwareTrip (d : Dev) : Dev :=
  let d := (((d.tripHead 0 true).tripHead 1 true).parkBoth).tripSpindle
  ((d.putBit Fld.MON_THERM_TRIP true).count (Adr.PWR_CNT 4)).event .thermal 0 0 []

/-- The mean of the window's readings, to the nearest code. -/
def windowMean (l : List Int) : Int := if l.isEmpty then 0 else roundDiv (l.foldl (· + ·) 0) l.length

/-- The greatest of the readings. -/
def hottest : List Int → Int
  | [] => 0
  | x :: xs => xs.foldl max x

/-- THERMAL_SAMPLE: the twelve sensors are read, TJ is their hottest averaged over 10 ms, and a sensor at 105 °C at two samples
in a row trips (R443). -/
def Dev.thermal (d : Dev) (temps : List (BitVec 16)) : Dev :=
  let v := temps.map (·.toInt)
  let d := d.each temps.zipIdx fun d e => d.put (Fld.MON_SENSOR_TEMP e.2) e.1.toNat
  let hot := v.map fun t => decide (hundredFive ≤ t)
  let again := (hot.zip d.pwr.hot).any fun e => e.1 && e.2
  let d := d.onPwr fun p => { p with window := (hottest v :: p.window).take 100, hot := hot }
  let d := d.put Fld.MON_THERM_TJ (codeOf 16 (windowMean d.pwr.window))
  d.when (again && !d.bit Fld.MON_THERM_TRIP) fun d => d.hardwareTrip

def execThermalSample (temps : ThermalReading) (s : State) : Host.Outcome State Fault Refusal :=
  s.on fun d => (d.copyDisagrees copiesThermal temps.copy).thermal temps.temps.toList

/-- TRIP_CLEAR: it clears only while every sensor reads 95 °C or less (R446). -/
def Dev.tripClear (d : Dev) : Dev :=
  if (List.range 12).all fun k => decide (d.sfld (Fld.MON_SENSOR_TEMP k) ≤ ninetyFive) then
    let d := d.putBit Fld.MON_THERM_TRIP false
    ((d.tripHead 0 false).tripHead 1 false).onSpn fun s =>
      { s with short := s.short && d.spnState != spnOff && d.spnState != spnCoast }
  else d

def execTripClear (s : State) : Host.Outcome State Fault Refusal := s.on fun d => d.tripClear

/-! ## Enables of the laser driver and the gate drivers (R458, R459) -/

/-- LDEN_h_N is high, so that the head's laser driver emits no light: in reset, in PS2 to PS4, with AFE_ON 0, and after a
trip. -/
def Dev.ldenHigh (d : Dev) (h : Nat) : Bool :=
  d.pwr.held || decide (2 ≤ d.ps) || !d.bit (Fld.SRV_CTRL_AFE_ON h) || d.bit Fld.MON_THERM_TRIP

/-- MOT_EN is high while the motor domain is on. -/
def Dev.motEnHigh (d : Dev) : Bool := d.domainOn 83

/-! ## The governor (R9, R444) -/

def Dev.govStep (d : Dev) : Nat := d.fld Fld.MON_THERM_GOV_STEP

/-- The commanded speed changes by the procedure of R214: once each captured head has paused at its next stripe boundary. -/
def Dev.govSpeed (d : Dev) (rpm : Nat) : Dev := (d.onPwr fun p => { p with govTarget := some rpm }).govProceed

/-- The least native speed of the governor. -/
def governorFloor : Nat := 2400

/-- A step that takes a governor's number and is posted and counted. -/
def Dev.govMoves (d : Dev) (step code counter : Nat) : Dev :=
  let d := ((d.put Fld.MON_THERM_GOV_STEP step).count (Adr.PWR_CNT counter)).event .thermal 0 code [step]
  d.onPwr fun p => { p with sinceStep := 0, cool := 0 }

/-- The next step down: ITER_CAP, TURBO_CAP, then speed down to the floor. -/
def Dev.governDown (d : Dev) : Dev :=
  let k := d.govStep
  if k = 0 then (d.put Fld.DEC_CAP_ITER_CAP 12).govMoves 1 0x0f01 2
  else if k = 1 then (d.put Fld.DEC_CAP_TURBO_CAP 2).govMoves 2 0x0f01 2
  else
    let t := d.govCommanded
    if t ≤ governorFloor then d.putBit Fld.MON_THERM_FLOOR true
    else
      let next := max governorFloor (t - 600)
      let d := (d.onPwr fun p => { p with govNext := some (k + 1, 0x0f01, 2) }).govSpeed next
      d.putBit Fld.MON_THERM_FLOOR (next == governorFloor)

/-- The last step is undone. -/
def Dev.governUp (d : Dev) : Dev :=
  let k := d.govStep
  if k = 1 then (d.put Fld.DEC_CAP_ITER_CAP 32).govMoves 0 0x0f02 3
  else if k = 2 then (d.put Fld.DEC_CAP_TURBO_CAP 8).govMoves 1 0x0f02 3
  else
    let d := d.onPwr fun p => { p with govNext := some (k - 1, 0x0f02, 3) }
    (d.when (d.govCommanded != 0) fun d => d.govSpeed (d.govCommanded + 600)).putBit Fld.MON_THERM_FLOOR false

/-- A speed step has taken effect: the speed is reached and each captured head has committed its zone for it, or no spindle turns. -/
def Dev.stepSettled (d : Dev) : Bool :=
  d.pwr.govTarget.isNone && (!d.spindleServes ||
    (d.bit Fld.MOT_STATUS_AT_SPEED && !([0, 1].any fun h => (d.head h).captured && (d.head h).paused)))

/-- GOVERNOR_SAMPLE: every 10 ms; a step at 100 °C, the next 1 s after it took effect, and a restore after 10 s at or below
95 °C. A speed step counts, and is posted, once it has taken effect. In KD mode it takes none. -/
def Dev.governor (d : Dev) : Dev :=
  if d.mode ≠ 1 then d
  else
    let d := d.govProceed
    let tj := d.sfld Fld.MON_THERM_TJ
    let d := d.onPwr fun p => { p with sinceStep := p.sinceStep + 1, cool := if tj ≤ ninetyFive then p.cool + 1 else 0 }
    match d.pwr.govNext with
    | some (step, code, counter) =>
      if d.stepSettled then (d.onPwr fun p => { p with govNext := none }).govMoves step code counter else d
    | none =>
      if hundred ≤ tj then
        if d.govStep = 0 ∨ (100 ≤ d.pwr.sinceStep ∧ d.govStep < 10) then d.governDown else d
      else if 1000 ≤ d.pwr.cool ∧ d.govStep ≠ 0 then d.governUp
      else d

def execGovernorSample (s : State) : Host.Outcome State Fault Refusal := s.on fun d => d.governor

/-! ## The supply alarm (R61, R139, R454) -/

/-- PWR_FAIL_ASSERT: stripes not begun stay unwritten, nothing new starts, and the sleds park after the last started stripe; an
assertion within the 10 ms continues the first one. -/
def Dev.supplyFails (d : Dev) : Dev :=
  let d := d.onPwr fun p => { p with failing := true, risen := false, parkDue := true }
  ((d.bandSupplyFail 0).bandSupplyFail 1).parkWhenWritten

def execPwrFailAssert (s : State) : Host.Outcome State Fault Refusal := s.on fun d => d.supplyFails

/-- PWR_FAIL_DEASSERT: the 10 ms begin. -/
def execPwrFailDeassert (s : State) : Host.Outcome State Fault Refusal :=
  s.on fun d => d.when d.pwr.failing fun d => d.onPwr fun p => { p with risen := true }

/-- PWR_FAIL_RESUME: writing resumes, and a service RESET that waited runs. -/
def execPwrFailResume (s : State) : Host.Outcome State Fault Refusal :=
  s.on fun d => d.when d.pwr.risen fun d =>
    let d := d.onPwr fun p => { p with failing := false, risen := false, parkDue := false }
    match d.svc.reset with
    | some q => d.serviceReset q
    | none => d

/-! ## The ring's forced bypass (R471) -/

/-- FORCE_BYPASS is written. -/
def Dev.bypassWrite (d : Dev) (w : Writer) (on : Bool) : Dev :=
  if d.bit Fld.RING_CTRL_FORCE_BYPASS = on then d
  else d.roleWrite w Adr.RING_CTRL (if on then 1 else 0) fun d => d.forceBypass on

def execRingForceBypass (w : Writer) (on : Bool) (s : State) : Host.Outcome State Fault Refusal :=
  s.on fun d => d.bypassWrite w on

end Sys2Proof.Machine
end

