-- ==== Sys2Proof/Machine/Bus.lean ====
section
/-! DEFINITION. Register accesses: the access codes, ranges and role rules of a write, the registers with an effect of their
own, the windows onto tables and memories, and the read of a register (R2, R10 to R13, R37, R397, R477, R478). -/

namespace Sys2Proof.Machine

/-! ## Ordinary fields (R13, R477, R478) -/

/-- The writer is vendor firmware, which alone writes the fields marked RO (firmware). -/
def isFirmware : Writer → Bool
  | .task _ => true
  | .hardware => true
  | .host => false
  | .service => false

/-- A field changes by its role or endorsement alone. -/
def roleField (f : FieldDef) : Bool := f.acc == .rwl || f.acc == .rwe

/-- A write carries another value than the field has. -/
def carries (old v : Word) (f : FieldDef) : Bool := fieldOf v f.lo f.width != fieldOf old f.lo f.width

/-- A write carries a value outside the range of a field that it would change (R478). -/
def outside (w : Writer) (v : Word) (f : FieldDef) : Bool :=
  match f.range with
  | none => false
  | some (lo, hi) =>
    (f.acc != .fw || isFirmware w) && (fieldOf v f.lo f.width < lo || hi < fieldOf v f.lo f.width)

/-- A field after a write, by its access code; may says whether the writer has the role. -/
def takeField (w : Writer) (may : Bool) (old v acc : Word) (f : FieldDef) : Word :=
  let x := fieldOf v f.lo f.width
  match f.acc with
  | .rw => withField acc f.lo f.width x
  | .w1c => withField acc f.lo f.width (fieldOf old f.lo f.width &&& (2 ^ f.width - 1 - x))
  | .fw => if isFirmware w then withField acc f.lo f.width x else acc
  | .rwl => if may then withField acc f.lo f.width x else acc
  | .ro | .wo | .rwe | .wofw | .arc => acc

/-- A register as a write finds it: its offset, its map and its indexes. -/
structure BusReg where
  off : Nat
  map : RegDef
  n : Nat
  k : Nat

/-- A write discarded whole: recorded where the register holds a role field (R478). -/
def Dev.discardWrite (d : Dev) (w : Writer) (b : BusReg) (v : Word) : Dev :=
  d.when (b.map.fields.any roleField) fun d =>
    (d.when (b.map.fields.any fun f => roleField f && carries (d.reg b.off) v f) fun d => d.count (Adr.SEC_CNT 7)).auditWrite
      w b.off v false

/-- A write to a register whose fields its access codes give. -/
def Dev.takeWrite (d : Dev) (w : Writer) (b : BusReg) (v : Word) : Dev :=
  let old := d.reg b.off
  let roles := b.map.fields.any fun f => f.acc == .rwl && carries old v f
  let both := b.map.fields.any fun f => f.acc == .rwe && carries old v f
  let may := d.mayWrite w
  let d := d.when roles fun d => if may then d.auditWrite w b.off v true else d.denyWrite w b.off v
  let d := d.when both fun d => d.denyWrite w b.off v
  let d := d.setReg b.off (b.map.fields.foldl (takeField w may old v) old)
  d.when (roles && may && settingRegs.contains b.off) fun d => d.keepSetting b.off

/-- The write, then what else it does, unless it is discarded whole. -/
def Dev.plainThen (d : Dev) (w : Writer) (b : BusReg) (v : Word) (f : Dev → Dev) : Dev :=
  if b.map.fields.any (outside w v) then d.discardWrite w b v else f (d.takeWrite w b v)

/-! ## Registers with effects of their own -/

/-- A WO bit that is written 1. -/
def wrote (v : Word) (bit : Nat) : Bool := v.toNat.testBit bit

/-- CHNn_CTRL (R64, R65, R75). -/
def Dev.chnCtrl (d : Dev) (n : Nat) (v : Word) : Dev :=
  let m := fieldOf v 0 2
  let b := if 10 ≤ fieldOf v 4 4 then d.fld (Fld.CHN_CTRL_BEAM n) else fieldOf v 4 4
  if m = 1 ∧ (d.beamTaken n b ∨ d.beamTaken n (d.sliceBeam n)) then d
  else
    let d := if m = 1 then (d.sliceSetBeam n b).sliceSetMode n m else (d.sliceSetMode n m).sliceSetBeam n b
    let d := d.when (wrote v 8) fun d => d.onSlice n fun s => { s with coldArmed := true }
    d.when (wrote v 9) fun d => d.clearCounters (Adr.CHN_CNT n)

/-- LATn_CTRL (R102, R103). -/
def Dev.latCtrl (d : Dev) (u : Nat) (v : Word) : Dev :=
  if d.latModeOk u (fieldOf v 0 2) (fieldOf v 4 1) then
    (d.latSetMode u (fieldOf v 0 2) (fieldOf v 4 1)).when (wrote v 5) fun d => d.onLat u fun s => { s with reseed := true }
  else d

/-- RUN of an engine: its pair runs the program that it holds, or stops (log 55). -/
def Dev.runWrite (d : Dev) (e : Nat) (on : Bool) : Dev :=
  if d.bit (Fld.ARC_CTRL_RUN e) = on then d
  else
    let d := d.putBit (Fld.ARC_CTRL_RUN e) on
    let role := d.fld (Fld.ARC_CTRL_ROLE e)
    d.putBit (Fld.ARC_STATUS_RUNNING e) (on && (role == roleLead || role == roleCheck) && (d.arcPair (d.pairOf e)).image.isSome)

/-- ARCn_CTRL (R188, R189, R206, R380). -/
def Dev.arcCtrl (d : Dev) (w : Writer) (e : Nat) (v : Word) : Dev :=
  let d := d.put (Fld.ARC_CTRL_VIEW e) (fieldOf v 3 1)
  let d := d.when (isFirmware w) fun d =>
    let d := d.when (!(d.dead 7 e && fieldOf v 14 2 != roleOff)) fun d => d.put (Fld.ARC_CTRL_ROLE e) (fieldOf v 14 2)
    let d := (d.put (Fld.ARC_CTRL_PAIR e) (fieldOf v 10 2)).putBit (Fld.ARC_CTRL_ZONE_ARM e) (wrote v 2)
    let d := d.runWrite e (wrote v 0)
    d.when (wrote v 1) fun d => d.requestSwap (d.pairOf e)
  d.when (wrote v 16) fun d => d.clearCounters (Adr.ARC_CNT e)

/-- ARC_LDR_CTRL: an operation other than LOAD and HANDOVER is discarded (R198, R204, R207). -/
def Dev.loaderCtrl (d : Dev) (w : Writer) (v : Word) : Dev :=
  let op := fieldOf v 1 3
  if !isFirmware w || 1 < op || d.bit Fld.ARC_LDR_STATUS_BUSY then d
  else if !wrote v 0 then d.setReg Adr.ARC_LDR_CTRL (v &&& 0x773e)
  else if op = 0 then d.loaderGo 0 v
  else (d.loaderGo 1 v).startHandover (fieldOf v 12 3) (fieldOf v 8 3)

/-- MOT_CTRL (R230, R480). -/
def Dev.motCtrl (d : Dev) (v : Word) : Dev :=
  let on := wrote v 0
  let d := (d.put Fld.MOT_CTRL_REGEN_INHIBIT (fieldOf v 4 1)).put Fld.MOT_CTRL_SLDA_EN (fieldOf v 1 1)
  let d := d.when (!d.variantS) fun d => d.put Fld.MOT_CTRL_SLDB_EN (fieldOf v 2 1)
  (d.spnEnable on).when (wrote v 5) fun d => d.clearCounters Adr.MOT_CNT

/-- SLDh_CTRL.CMD (R236). -/
def Dev.sledCtrl (d : Dev) (h : Nat) (v : Word) : Dev :=
  d.when (d.sledTakes h) fun d =>
    match fieldOf v 0 3 with
    | 1 => d.homeSled h
    | 2 => d.moveSled h sledMove ((d.reg (Adr.SLD_TARGET h)).toInt * 65536)
    | 3 => d.tableSled h
    | 4 => d.trackSled h
    | 5 => d.stopSled h
    | 6 => d.parkSled h
    | _ => d

/-- PRFc_CTRL: GO, then STOP (R234). -/
def Dev.profileCtrl (d : Dev) (c : Nat) (v : Word) : Dev :=
  d.when (d.hasChannel c) fun d =>
    let d := if wrote v 16 then d.profileGo c (fieldOf v 0 10) else d.put (Fld.PRF_CTRL_START c) (fieldOf v 0 10)
    d.when (wrote v 17) fun d => d.profileStop c

/-- SPNn_CTRL (R284, R380). -/
def Dev.procCtrl (d : Dev) (w : Writer) (p : Nat) (v : Word) : Dev :=
  let d := d.when (isFirmware w && !(d.dead 8 p && fieldOf v 0 2 != 0)) fun d => d.put (Fld.SPP_CTRL_ROLE p) (fieldOf v 0 2)
  d.when (wrote v 16) fun d => d.clearCounters (Adr.SPP_CNT p)

/-- ENABLE of the cache is written with a role (R283). -/
def Dev.cacheEnable (d : Dev) (w : Writer) (on : Bool) : Dev :=
  if d.bit Fld.CACHE_CTRL_ENABLE = on then d
  else d.roleWrite w Adr.CACHE_CTRL (if on then 1 else 0) fun d => if on then d.cacheOn else d.cacheOff

def Dev.cacheCtrl (d : Dev) (w : Writer) (v : Word) : Dev :=
  (d.cacheEnable w (wrote v 0)).when (wrote v 1) fun d => d.clearCounters Adr.CACHE_CNT

/-- HQ_CTRL (R347). -/
def Dev.hqCtrl (d : Dev) (v : Word) : Dev :=
  let d := (d.hqEnable (wrote v 0)).when (wrote v 1) fun d => d.resetBegins false
  d.when (wrote v 2) fun d => d.clearCounters Adr.HQ_CNT

/-- HQ_QPq_CFG (R313, R349). -/
def Dev.pairCfg (d : Dev) (w : Writer) (q : Nat) (v : Word) : Dev :=
  let d := if wrote v 31 then d.qpEnable q v else d.qpDisable (Fin.ofNat 64 q) v
  d.when (isFirmware w) fun d => d.put (Fld.HQ_QP_CFG_ROLE q) (fieldOf v 26 2)

/-- SPR_POLICY: a writer without the role that changes a field is denied; of one with it, ROT_MIN 0 is discarded, which is recorded
where the write changes nothing else (R13, R375, R477; log 121); a policy takes effect by R376. -/
def Dev.policyWrite (d : Dev) (w : Writer) (v : Word) : Dev :=
  let rot := if fieldOf v 8 8 = 0 then d.fld Fld.SPR_POLICY_ROT_MIN else fieldOf v 8 8
  let policy := fieldOf v 0 1
  let same := policy == d.fld Fld.SPR_POLICY_POLICY
  let d :=
    if fieldOf v 8 8 = d.fld Fld.SPR_POLICY_ROT_MIN ∧ same then d
    else if d.mayWrite w ∧ rot = d.fld Fld.SPR_POLICY_ROT_MIN ∧ same then d.auditWrite w Adr.SPR_POLICY v false
    else d.roleWrite w Adr.SPR_POLICY v fun d =>
      let d := (d.put Fld.SPR_POLICY_ROT_MIN rot).keepSetting Adr.SPR_POLICY
      d.when (policy != d.fld Fld.SPR_POLICY_POLICY) fun d => d.setPolicy policy
  d.when (wrote v 16) fun d => d.clearCounters Adr.SPR_CNT

/-- SPR_CLASSc_THR: 0 to UNITS, taking effect at once (R391). -/
def Dev.thresholdWrite (d : Dev) (w : Writer) (b : BusReg) (v : Word) : Dev :=
  let t := fieldOf v 0 16
  if d.units? (b.n + 1) < t then d.discardWrite w b v
  else if t = d.fld (Fld.SPR_CLASS_THR_THRESHOLD b.n) then d
  else d.roleWrite w b.off v fun d => d.setThreshold (b.n + 1) t

/-- FACET_CTRL (R438, R439, R448). -/
def Dev.facetCtrl (d : Dev) (w : Writer) (v : Word) : Dev :=
  let boot := wrote v 16
  let req := wrote v 15
  let d :=
    if d.bit Fld.FACET_CTRL_EXT_AT_BOOT = boot ∧ d.bit Fld.FACET_CTRL_EXT_REQ = req then d
    else d.roleWrite w Adr.FACET_CTRL v fun d =>
      let d := d.when (d.bit Fld.FACET_CTRL_EXT_AT_BOOT != boot) fun d =>
        (d.putBit Fld.FACET_CTRL_EXT_AT_BOOT boot).keepSetting Adr.FACET_CTRL
      if d.bit Fld.FACET_CTRL_EXT_REQ = req then d else if req then d.extBegins else d.putBit Fld.FACET_CTRL_EXT_REQ false
  let d := d.when (isFirmware w) fun d => if wrote v 0 then d.targetGo (fieldOf v 8 7) else d.put Fld.FACET_CTRL_PD (fieldOf v 8 7)
  d.when (wrote v 17) fun d => d.clearCounters Adr.PWR_CNT

/-- RING_CTRL (R467, R471). -/
def Dev.ringCtrl (d : Dev) (w : Writer) (v : Word) : Dev :=
  let d := d.bypassWrite w (wrote v 0)
  let d := d.when (isFirmware w && wrote v 4) Dev.ringTxPush
  let d := d.when (isFirmware w && wrote v 3) Dev.ringRxPop
  d.when (wrote v 2) fun d => d.clearCounters Adr.RING_CNT

/-- A word of PWR_REQ: each bit that changes is a request (R441). -/
def Dev.requestWord (d : Dev) (w : Writer) (k : Nat) (v : Word) : Dev :=
  d.when (isFirmware w) fun d => d.each (List.range 32) fun d i =>
    if d.maskBit (Fld.PWR_REQ_PD k) i = wrote v i then d else d.pdRequest (32 * k + i) (wrote v i)

/-- The value of a write with a field of it replaced by what the register holds. -/
def Dev.keepField (d : Dev) (off : Nat) (v : Word) (lo w : Nat) : Word := withField v lo w (fieldOf (d.reg off) lo w)

/-- SPR_HANDOFF: its flags, then the hand-off (R388). -/
def Dev.handoffWrite (d : Dev) (w : Writer) (v : Word) : Dev :=
  let d := d.when (wrote v 29) fun d => d.putBit Fld.SPR_HANDOFF_REFUSED false
  let d := d.when (wrote v 28) fun d => d.putBit Fld.SPR_HANDOFF_DONE false
  d.when (isFirmware w) fun d => d.handoffGo v

/-- SPN_TASKt: a task whose entry point lies in the user region is a user task (R253). -/
def Dev.taskWrite (d : Dev) (w : Writer) (b : BusReg) (v : Word) : Dev :=
  d.plainThen w b v fun d => d.putBit (Fld.SPP_TASK_USER b.n) (0xc0000 ≤ d.fld (Fld.SPP_TASK_ENTRY b.n))

/-- A rule between two fields of a register: a write that breaks it is discarded whole (R74, R247, R248, R478). -/
def pairRule (base : Nat) (v : Word) : Bool :=
  if base = Adr.CHN_ACQ_CFG 0 then fieldOf v 0 4 + fieldOf v 4 4 + fieldOf v 8 5 ≤ 15
  else if base = Adr.MOT_BUS_CFG then fieldOf v 20 4 < fieldOf v 16 4
  else if base = Adr.SPN_CFG then fieldOf v 24 8 < fieldOf v 16 8
  else true

/-- The registers whose write has an effect of its own, by the first offset of their map. -/
def busEffects : List (Nat × (Dev → Writer → BusReg → Word → Dev)) :=
  [ (Adr.CHN_CTRL 0, fun d _ b v => d.chnCtrl b.n v),
    (Adr.CHN_FIR_CFG 0, fun d w b v => d.plainThen w b v fun d => d.holdMain b.n),
    (Adr.CHN_FIR_SEED 0 0, fun d w b v => d.plainThen w b v fun d => d.holdMain b.n),
    (Adr.CHN_ZONE_NEXT 0, fun d _ b v => (d.sliceStage b.n v).showTable (b.n / 10)),
    (Adr.LAT_CTRL 0, fun d _ b v => d.latCtrl b.n v),
    (Adr.LAT_SPARE, fun d w b v => d.plainThen w b (if fieldOf v 0 2 = 3 then d.keepField b.off v 0 2 else v) id),
    (Adr.DEC_CTRL, fun d _ _ v => d.when (wrote v 0) fun d => (d.clearCounters (Adr.DEC_CNT 0)).clearCounters (Adr.DEC_CNT 1)),
    (Adr.STR_CTRL 0, fun d w b v => d.plainThen w b v fun d => d.when (wrote v 3) fun d => d.clearCounters (Adr.STR_CNT b.n)),
    (Adr.WP_CTRL 0, fun d w b v => d.plainThen w b v fun d =>
      let d := d.when (wrote v 3) fun d => d.clearCounters (Adr.WP_CNT b.n)
      let d := d.when (wrote v 2) fun d => d.opcGo b.n
      d.when (wrote v 4 && isFirmware w && b.n == 0) Dev.bankSwap),
    (Adr.SRV_CTRL 0, fun d w b v => d.plainThen w b v fun d =>
      (d.when (!wrote v 0) fun d => d.headOff b.n).when (wrote v 2) fun d => d.clearCounters (Adr.SRV_CNT b.n)),
    (Adr.SRV_BEAM_MAP 0, fun d _ b v => d.beamMapWrite b.n v) ]

/-- The same of the Arc engines, the motor block, Span and the cache. -/
def busEffects2 : List (Nat × (Dev → Writer → BusReg → Word → Dev)) :=
  [ (Adr.ARC_CTRL 0, fun d w b v => d.arcCtrl w b.n v),
    (Adr.ARC_PERIOD 0, fun d w b v => d.when (isFirmware w) fun d => d.periodWrite b.n v),
    (Adr.ARC_LDR_CTRL, fun d w _ v => d.loaderCtrl w v),
    (Adr.MOT_CTRL, fun d _ _ v => d.motCtrl v),
    (Adr.MOT_STATUS, fun d w b v =>
      (d.plainThen w b (withField v 1 1 0) id).when (wrote v 1) Dev.ov2Clear),
    (Adr.SPN_TARGET, fun d _ _ v => d.targetWrite v),
    (Adr.SLD_CTRL 0, fun d _ b v => d.sledCtrl b.n v),
    (Adr.SLD_DEC 0, fun d _ b v => d.when (d.hasSled b.n) fun d => d.decWrite b.n v),
    (Adr.PRF_CTRL 0, fun d _ b v => d.profileCtrl b.n v),
    (Adr.SPP_CTRL 0, fun d w b v => d.procCtrl w b.n v),
    (Adr.SPP_TASK 0, fun d w b v => d.taskWrite w b v),
    (Adr.CACHE_CTRL, fun d w _ v => d.cacheCtrl w v),
    (Adr.CACHE_RSV 0, fun d w b v => d.when (isFirmware w) fun d => d.cacheReserve b.n v),
    (Adr.MEM_CTRL, fun d _ _ v => d.when (wrote v 0) fun d => d.clearCounters Adr.MEM_CNT) ]

/-- The same of the host queues, KD mode, sparing, service, power, the monitors and the ring. -/
def busEffects3 : List (Nat × (Dev → Writer → BusReg → Word → Dev)) :=
  let base : Dev → Writer → BusReg → Word → Dev := fun d w b v => if d.pairOn b.n then d else d.plainThen w b v id
  [ (Adr.HQ_CTRL, fun d _ _ v => d.hqCtrl v),
    (Adr.HQ_QP_SQ_BASE_LO 0, base),
    (Adr.HQ_QP_SQ_BASE_HI 0, base),
    (Adr.HQ_QP_CQ_BASE_LO 0, base),
    (Adr.HQ_QP_CQ_BASE_HI 0, base),
    (Adr.HQ_QP_CFG 0, fun d w b v => d.pairCfg w b.n v),
    (Adr.KD_CTRL, fun d w _ v =>
      (d.when (wrote v 0) fun d => d.clearCounters Adr.KD_CNT).when (wrote v 1 && isFirmware w) Dev.kdTakeover),
    (Adr.SPR_POLICY, fun d w _ v => d.policyWrite w v),
    (Adr.SPR_HANDOFF, fun d w _ v => d.handoffWrite w v),
    (Adr.SPR_CLASS_THR 0, fun d w b v => d.thresholdWrite w b v),
    (Adr.SVC_CFG, fun d _ _ v => d.when (wrote v 4) fun d => d.clearCounters Adr.SEC_CNT),
    (Adr.PWR_REQ 0, fun d w b v => d.requestWord w b.n v),
    (Adr.FACET_CTRL, fun d w _ v => d.facetCtrl w v),
    (Adr.MON_THERM, fun d w b v => (d.plainThen w b (withField v 31 1 0) id).when (wrote v 31) Dev.tripClear),
    (Adr.RING_CTRL, fun d w _ v => d.ringCtrl w v) ]

/-- The effect of a register's own, if it has one. -/
def effectOf (base : Nat) : Option (Dev → Writer → BusReg → Word → Dev) :=
  ((busEffects ++ busEffects2 ++ busEffects3).find? fun e => e.1 == base).map (·.2)

/-- A write to a register that a map names. -/
def Dev.registerTakes (d : Dev) (w : Writer) (b : BusReg) (v : Word) : Dev :=
  if !pairRule b.map.base v then d.discardWrite w b v
  else
    match effectOf b.map.base with
    | some f => f d w b v
    | none => d.plainThen w b v id

/-! ## Windows onto tables and memories -/

/-- The bits of a word of a strategy table that its layout lists (R141, R143). -/
def tableBits (i : Nat) : Word :=
  if i = 0 then 0xbf000000 else if i = 1 then 0x0fff0fff else if i < 4 then 0 else 0x007fffff

/-- A write into a strategy table, discarded in the active bank (R143). -/
def Dev.tableWrite (d : Dev) (off : Nat) (v : Word) : Dev :=
  let h := off / 0x10000 - 6
  let o := off % 0x4000
  if d.bank h = off % 0x10000 / 0x4000 - 2 ∨ 10 ≤ o / 0x500 ∨ 292 ≤ o % 0x500 / 4 then d
  else (d.setReg off (v &&& tableBits (o % 0x500 / 4))).showTable h

/-- A write into a microstep table, discarded while its stage is enabled (R240). -/
def Dev.microstepWrite (d : Dev) (off : Nat) (v : Word) : Dev :=
  if d.bit (if off < 0xa2000 then Fld.MOT_CTRL_SLDA_EN else Fld.MOT_CTRL_SLDB_EN) then d else d.setReg off v

/-- A write into the segment RAM (R232). -/
def Dev.segmentWrite (d : Dev) (off : Nat) (v : Word) : Dev :=
  match off / 4 % 4 with
  | 0 => d.setReg off (v &&& 0x01ffffff)
  | 3 => d
  | _ => d.setReg off v

/-- A write through a coefficient window, by the installer's role (R189, R206, R477). -/
def Dev.windowWrite (d : Dev) (w : Writer) (e i : Nat) (v : Word) : Dev :=
  if d.bit (Fld.ARC_CTRL_VIEW e) || d.coefRead e i == v then d
  else d.roleWrite w (0x82000 + 0x4000 * e + 4 * i) v fun d => d.coefWrite e i v

/-- A write into the MSI-X table; a vector that is unmasked sends its pending message (R312). -/
def Dev.msixWrite (d : Dev) (k : Nat) (v : Word) : Dev :=
  if 260 ≤ k then d
  else
    let v := if k % 4 = 0 then v &&& 0xfffffffc else if k % 4 = 3 then v &&& 1 else v
    let d := { d with host := { d.host with msix := Tab.set msixReset d.host.msix k v } }
    d.when (k % 4 == 3 && v == 0 && Tab.get (fun _ => false) d.host.pba (k / 4)) fun d => d.raise (k / 4)

/-- Offsets that read 0 and ignore writes: what head B has on the XLM-7216-S (R2, R246), and the KD registers in native mode
(R370). -/
def Dev.hidden (d : Dev) (off : Nat) : Bool :=
  (d.variantS && ((0x2a000 ≤ off && off < 0x34000) || off / 0x10000 == 7 || off / 0x1000 == 0xb9 || off / 0x1000 == 0xa2
    || off / 0x80 == 0x1405 || [0xa041, 0xa043, 0xa045].contains (off / 16)))
  || (d.mode != 2 && 0x24200 ≤ off && off < 0x24320)

/-! ## Accesses (R11, R12, R37) -/

/-- A 32-bit write at an offset that is a multiple of 4. -/
def Dev.busWrite (d : Dev) (w : Writer) (off : Nat) (v : Word) : Dev :=
  if d.hidden off then d
  else
    match findReg regTable off with
    | some (r, n, k) => d.registerTakes w ⟨off, r, n, k⟩ v
    | none =>
      if 0x60000 ≤ off ∧ off < 0x80000 ∧ 0x8000 ≤ off % 0x10000 then d.tableWrite off v
      else if 0x80000 ≤ off ∧ off < 0xa0000 ∧ 0x2000 ≤ off % 0x4000 then
        d.windowWrite w (off / 0x4000 - 0x20) (off % 0x2000 / 4) v
      else if 0xa1000 ≤ off ∧ off < 0xa3000 then d.microstepWrite off v
      else if 0xa4000 ≤ off ∧ off < 0xa8000 then d.segmentWrite off v
      else if 0x110000 ≤ off ∧ off < 0x118000 then d.msixWrite ((off - 0x110000) / 4) v
      else d

/-- Seconds that a grant of the BAR0 role has left (R396). -/
def Dev.grantSeconds (d : Dev) : Nat := min 65535 (ceilDiv (d.grantEnd .bar0 - d.locus.micros) 1000000)

/-- A word of the pending bits. -/
def Dev.pendingWord (d : Dev) (k : Nat) : Word :=
  BitVec.ofNat 32 (((List.range 32).map fun i => if Tab.get (fun _ => false) d.host.pba (32 * k + i) then 2 ^ i else 0).foldl
    (· + ·) 0)

/-- What an offset that is a multiple of 4 reads as. -/
def Dev.busWord (d : Dev) (off : Nat) : Word :=
  if d.hidden off then 0
  else if 0x80000 ≤ off ∧ off < 0xa0000 ∧ 0x2000 ≤ off % 0x4000 then d.coefRead (off / 0x4000 - 0x20) (off % 0x2000 / 4)
  else if 0x80000 ≤ off ∧ off < 0xa0000 ∧ 0x1000 ≤ off % 0x4000 then
    Tab.get zeroWord (d.arcEng (off / 0x4000 - 0x20)).ctx.mem (off % 0x1000 / 4)
  else if 0x110000 ≤ off ∧ off < 0x110410 then d.msixWord ((off - 0x110000) / 4)
  else if 0x118000 ≤ off ∧ off < 0x11800c then d.pendingWord ((off - 0x118000) / 4)
  else if Adr.PWR_ON 0 ≤ off ∧ off ≤ Adr.PWR_ON 2 then d.onWord ((off - Adr.PWR_ON 0) / 4)
  else if off = Adr.SEC_CTRL_ROLE then withField (d.reg off) 16 16 d.grantSeconds
  else d.reg off

/-- A 32-bit read: a read of LOCUS_NOW_LO latches the ESN (R31). -/
def Dev.busRead (d : Dev) (off : Nat) : Word × Dev :=
  let d := d.when (off == Adr.LOCUS_NOW_LO) Dev.locusRead
  (d.busWord off, d)

/-- A BAR0 write as it arrives: narrow, misaligned and partly enabled writes are discarded, and a 64-bit write is two (R11). -/
def Dev.hostBusWrite (d : Dev) (b : BusWrite) : Dev :=
  let off := b.off.toNat
  let low := b.enables.toNat % 16 == 15
  let high := b.enables.toNat / 16 == 15 && off + 4 < 2 ^ 24
  if off % 4 ≠ 0 then d
  else
    match b.size with
    | .b8 => d
    | .b16 => d
    | .b32 => d.when low fun d => d.busWrite .host off (b.data.setWidth 32)
    | .b64 =>
      (d.when low fun d => d.busWrite .host off (b.data.setWidth 32)).when high fun d =>
        d.busWrite .host (off + 4) (b.data.extractLsb' 32 32)

/-- A BAR0 read as it arrives: one that is narrow or misaligned returns all ones, and a 64-bit read is two, the lower address first
(R11). -/
def Dev.hostBusRead (d : Dev) (r : BusRead) : Dev :=
  let off := r.off.toNat
  let answer (d : Dev) (v : Nat) : Dev := { d with rdata := BitVec.ofNat 64 v }
  match r.size with
  | .b8 => answer d 0xff
  | .b16 => answer d 0xffff
  | .b32 =>
    if off % 4 ≠ 0 then answer d 0xffffffff
    else
      let lo := d.busRead off
      answer lo.2 lo.1.toNat
  | .b64 =>
    if off % 4 ≠ 0 then answer d 0xffffffffffffffff
    else
      let lo := d.busRead off
      let hi := if off + 4 < 2 ^ 24 then lo.2.busRead (off + 4) else (0, lo.2)
      answer hi.2 (lo.1.toNat + 2 ^ 32 * hi.1.toNat)

/-- A BAR0 access of the host. -/
def Dev.hostBus (d : Dev) : BusAccess → Dev
  | .write w => d.hostBusWrite w
  | .read r => d.hostBusRead r
  | .disagree c => d.copyDisagrees copiesHost (some c)

/-! ## The rows -/

def execRegisterWrite (w : BusAccess) (s : State) : Host.Outcome State Fault Refusal := s.on fun d => d.hostBus w

def execCacheDisable (w : Writer) (s : State) : Host.Outcome State Fault Refusal := s.on fun d => d.cacheEnable w false

def execCacheEnable (w : Writer) (s : State) : Host.Outcome State Fault Refusal := s.on fun d => d.cacheEnable w true

def execSprPolicyWrite (w : Writer) (v : Word) (s : State) : Host.Outcome State Fault Refusal := s.on fun d => d.policyWrite w v

def execSprThresholdWrite (w : Writer) (cls : Fin 15) (v : Word) (s : State) : Host.Outcome State Fault Refusal :=
  s.on fun d => d.thresholdWrite w ⟨Adr.SPR_CLASS_THR cls, Def.SPR_CLASS_THR, cls, 0⟩ v

/-- ARC_COEF_WINDOW_WRITE (R189). -/
def execArcCoefWindowWrite (wr : Writer) (e : ArcEng) (w : BitVec 11) (v : Word) (s : State) :
    Host.Outcome State Fault Refusal :=
  s.on fun d => d.windowWrite wr e w.toNat v

end Sys2Proof.Machine
end

