-- ==== Sys2Proof/Machine/SpanMem.lean ====
section
/-! DEFINITION. The Span loads, stores and atomics over the buffer, control and TCM spaces, and the end of a checkpoint, which all reach
the buffer through the shared cache (R252, R254, R256, R259, R267, R271, R294, R297, R299). -/

namespace Sys2Proof.Machine

/-- The space that an address selects. -/
def spaceOf (a : DWord) : Nat := a.toNat / 2 ^ 60

def spaceBuffer : Nat := 0
def spaceControl : Nat := 8
def spaceTcm : Nat := 9

/-- The fault of a control access: 32-bit, vendor and aligned only. -/
def Dev.controlFault (d : Dev) (t : Nat) (a : DWord) (n : Nat) : Option Nat :=
  if n ≠ 4 then some causeAddr
  else if d.taskUser t then some causeDenied
  else if a.toNat % 4 ≠ 0 then some causeAlign
  else none

/-- The BAR0 offset of a control address. -/
def controlOff (a : DWord) : Nat := a.toNat % 2 ^ 24

/-- An access of a task to n bytes of the buffer, with the bytes that it stores, as the cache sees it: the requester is its processor
(R35, R279). -/
def Dev.spanReq (d : Dev) (t a n : Nat) (store : Option (List Byte)) : CacheReq :=
  { req := Fin.ofNat 16 (d.taskProc t), addr := BitVec.ofNat 34 a, len := n, store := store, task := some (Fin.ofNat 96 t) }

/-- A load of n bytes at an address into a register, extended by ext. -/
def Dev.loadAt (d : Dev) (t rd : Nat) (a : DWord) (n : Nat) (ext : Nat → DWord) : Dev :=
  if spaceOf a = spaceBuffer then
    match d.bufFault t a n with
    | some c => d.trap t c
    | none =>
      let d := d.cacheServe (d.spanReq t a.toNat n none)
      if d.anyPoison a.toNat n then d.trap t causePoison
      else (d.noteVirgin a.toNat n).retire t rd (ext (leValue (d.bufRead a.toNat n)))
  else if spaceOf a = spaceControl then
    match d.controlFault t a n with
    | some c => d.trap t c
    | none =>
      let r := d.busRead (controlOff a)
      r.2.retire t rd (ext r.1.toNat)
  else if spaceOf a = spaceTcm then
    d.retire t rd (ext (leValue (d.tcmRead (d.taskProc t) (a.toNat % 65536) n)))
  else d.trap t causeAddr

/-- A store of the n low bytes of a register at an address; into control space it is an effect. -/
def Dev.storeAt (d : Dev) (t : Nat) (v a : DWord) (n : Nat) : Dev :=
  if spaceOf a = spaceBuffer then
    match d.bufFault t a n with
    | some c => d.trap t c
    | none => (d.cacheServe (d.spanReq t a.toNat n (some (leBytes n v.toNat)))).next4 t
  else if spaceOf a = spaceControl then
    match d.controlFault t a n with
    | some c => d.trap t c
    | none => d.effect t effControl 0 [controlOff a, v.toNat % 2 ^ 32] fun d =>
        (0, d.busWrite (.task (Fin.ofNat 96 t)) (controlOff a) (v.setWidth 32))
  else if spaceOf a = spaceTcm then (d.tcmWrite (d.taskProc t) (a.toNat % 65536) (leBytes n v.toNat)).next4 t
  else d.trap t causeAddr

/-- The address of a load or store. -/
def Dev.spanAddr (d : Dev) (t : Nat) (rs1 : SpanReg) (imm : BitVec 16) : DWord := d.sreg t rs1.val + simm imm

/-- A load of a context. -/
def Dev.loadInstr (d : Dev) (i : SpanIssue) (rd rs1 : SpanReg) (imm : BitVec 16) (n : Nat) (ext : Nat → DWord) : Dev :=
  d.span1 i fun d t => d.loadAt t rd.val (d.spanAddr t rs1 imm) n ext

/-- A store of a context. -/
def Dev.storeInstr (d : Dev) (i : SpanIssue) (rs2 rs1 : SpanReg) (imm : BitVec 16) (n : Nat) : Dev :=
  d.span1 i fun d t => d.storeAt t (d.sreg t rs2.val) (d.spanAddr t rs1 imm) n

/-- Zero extension. -/
def zeroExt (x : Nat) : DWord := BitVec.ofNat 64 x

/-- Sign extension of 32 bits. -/
def signExt32 (x : Nat) : DWord := (BitVec.ofNat 32 x).signExtend 64

def execSpanLd (i : SpanIssue) (rd rs1 : SpanReg) (imm : BitVec 16) (s : State) : Host.Outcome State Fault Refusal :=
  s.on fun d => d.loadInstr i rd rs1 imm 8 zeroExt

def execSpanLwu (i : SpanIssue) (rd rs1 : SpanReg) (imm : BitVec 16) (s : State) : Host.Outcome State Fault Refusal :=
  s.on fun d => d.loadInstr i rd rs1 imm 4 zeroExt

def execSpanLw (i : SpanIssue) (rd rs1 : SpanReg) (imm : BitVec 16) (s : State) : Host.Outcome State Fault Refusal :=
  s.on fun d => d.loadInstr i rd rs1 imm 4 signExt32

def execSpanLhu (i : SpanIssue) (rd rs1 : SpanReg) (imm : BitVec 16) (s : State) : Host.Outcome State Fault Refusal :=
  s.on fun d => d.loadInstr i rd rs1 imm 2 zeroExt

def execSpanLbu (i : SpanIssue) (rd rs1 : SpanReg) (imm : BitVec 16) (s : State) : Host.Outcome State Fault Refusal :=
  s.on fun d => d.loadInstr i rd rs1 imm 1 zeroExt

def execSpanSd (i : SpanIssue) (rs2 rs1 : SpanReg) (imm : BitVec 16) (s : State) : Host.Outcome State Fault Refusal :=
  s.on fun d => d.storeInstr i rs2 rs1 imm 8

def execSpanSw (i : SpanIssue) (rs2 rs1 : SpanReg) (imm : BitVec 16) (s : State) : Host.Outcome State Fault Refusal :=
  s.on fun d => d.storeInstr i rs2 rs1 imm 4

def execSpanSh (i : SpanIssue) (rs2 rs1 : SpanReg) (imm : BitVec 16) (s : State) : Host.Outcome State Fault Refusal :=
  s.on fun d => d.storeInstr i rs2 rs1 imm 2

def execSpanSb (i : SpanIssue) (rs2 rs1 : SpanReg) (imm : BitVec 16) (s : State) : Host.Outcome State Fault Refusal :=
  s.on fun d => d.storeInstr i rs2 rs1 imm 1

/-- The fault of an LQ or SQ: its register, then its address (log 56). -/
def quadFault (ok : Bool) (a : DWord) : Option Nat :=
  if !ok then some causeIllegal
  else if spaceOf a ≠ spaceTcm then some causeAddr
  else if a.toNat % 32 ≠ 0 then some causeAlign
  else none

/-- LQ: four registers from 32 bytes of TCM. -/
def execSpanLq (i : SpanIssue) (rd rs1 : SpanReg) (imm : BitVec 16) (s : State) : Host.Outcome State Fault Refusal :=
  s.on fun d => d.span1 i fun d t =>
    let a := d.spanAddr t rs1 imm
    match quadFault (rd.val != 0 && rd.val % 4 == 0) a with
    | some c => d.trap t c
    | none =>
      let p := d.taskProc t
      (d.each (List.range 4) fun d k =>
        d.setSreg t (rd.val + k) (zeroExt (leValue (d.tcmRead p (a.toNat % 65536 + 8 * k) 8)))).next4 t

/-- SQ: 32 bytes of TCM from four registers. -/
def execSpanSq (i : SpanIssue) (rs2 rs1 : SpanReg) (imm : BitVec 16) (s : State) : Host.Outcome State Fault Refusal :=
  s.on fun d => d.span1 i fun d t =>
    let a := d.spanAddr t rs1 imm
    match quadFault (rs2.val % 4 == 0) a with
    | some c => d.trap t c
    | none =>
      let l := (List.range 4).flatMap fun k => leBytes 8 (d.sreg t (rs2.val + k)).toNat
      (d.tcmWrite (d.taskProc t) (a.toNat % 65536) l).next4 t

/-! ## Atomics (R267) -/

/-- AMO: its bank reads the word and writes it, but for a CAS that does not match, which writes nothing. -/
def execSpanAmo (i : SpanIssue) (op : AmoOp) (rd rs1 rs2 : SpanReg) (s : State) : Host.Outcome State Fault Refusal :=
  s.on fun d => d.span1 i fun d t =>
    let a := d.sreg t rs1.val
    let b := d.sreg t rs2.val
    let c := d.sreg t rd.val
    match (if a.toNat / 2 ^ 60 = 0 then d.bufFault t a 8 else some causeAddr) with
    | some cause => d.trap t cause
    | none =>
      if d.poisoned (a.toNat / 8) then d.trap t causePoison
      else
        d.effect t effAmo rd.val [amoCode op, a.toNat, b.toNat, if op = .cas then c.toNat else 0] fun d =>
          let old := BitVec.ofNat 64 (leValue (d.bufRead a.toNat 8))
          let store := if op = .cas ∧ old ≠ c then none else some (leBytes 8 (amoValue op old b c).toNat)
          (old, (d.noteVirgin a.toNat 8).cacheServe (d.spanReq t a.toNat 8 store))

/-! ## The end of a checkpoint (R271) -/

/-- A checkpoint is complete, its last byte twin-dirty in the cache: entries held are freed and the effect log is emptied. -/
def Dev.endCkpt (d : Dev) (t : Nat) : Dev :=
  match (d.task t).ckpt with
  | none => d
  | some c =>
    let d := (d.cacheServe (d.spanReq t (d.slotAddr t c.slot) c.bytes.length (some c.bytes))).onTask t fun x =>
      { x with ckpt := none, log := [] }
    (((d.freeHeld t).freeMail t).put (Fld.SPP_TASK_GEN_GEN t) c.gen).count (Adr.SPP_CNT (d.taskProc t) 1)

/-- CHECKPOINT_COMPLETE; in a hand-off of its processor the task then resumes on the one that enters (R387). -/
def execCheckpointComplete (t : TaskId) (s : State) : Host.Outcome State Fault Refusal :=
  s.on fun d =>
    if (d.task t.val).ckpt.isNone then d
    else
      let p := d.taskProc t.val
      (d.endCkpt t.val).when (d.handingOff p) fun d => d.moveTask t.val p (d.fld Fld.SPR_HANDOFF_IN)

end Sys2Proof.Machine
end

