-- ==== Sys2Proof/Machine/Service.lean ====
section
/-! DEFINITION. The frames of the service port, served by the running firmware, by a device that did not start, and by the
recovery ROM (R396, R397, R406, R409, R411, R412, R418, R420, R425, R426, R429, R435). -/

namespace Sys2Proof.Machine

/-- The service port runs: its domain is on and the device is out of reset (R428, R440). -/
def Dev.svcUp (d : Dev) : Bool := !d.pwr.held && !d.pwr.stuck && d.ps < 4

/-- TYPEs that the device answers without starting (R435), that the recovery ROM serves (R426), and that a full log on HOLD
leaves allowed (R409; log 57). -/
def typesNoStart : List Nat := [1, 0xa]
def typesRecovery : List Nat := [1, 4, 5, 6]
def typesUnderHold : List Nat := [1, 2, 3, 4, 0xc]

/-- A frame that is answered without its effect; a STAGE piece is not recorded (R406). -/
def Dev.svcAnswer (d : Dev) (type seq status : Nat) (data : List Byte) : Dev :=
  if type = 4 then d.svcReply type seq status data else d.svcEnd type seq status data

/-- A frame of a TYPE: refused by the recovery ROM, by the role or by a full log, or served (R397, R409, R412, R426). -/
def Dev.svcFrame (d : Dev) (type need : Nat) (f : SvcFrame) (run : Dev → Dev) : Dev :=
  let seq := f.seq.toNat
  if !d.svcUp then d
  else if d.inRecovery then
    if typesRecovery.contains type then run d else d.svcEnd type seq stInvalidOpcode []
  else if d.bit Fld.BOOT_STATUS_NO_START && !typesNoStart.contains type then d
  else if d.fld Fld.SVC_CFG_ROLE < need then d.svcAnswer type seq stDenied []
  else if d.auditHeld && !typesUnderHold.contains type then d.svcReply type seq stDenied []
  else run d

/-- A frame arrives: LEN is at most 4,104, and one of more bytes is no frame, which is discarded without a response (R411;
log 120). -/
def State.onFrame (s : State) (f : SvcFrame) (g : Dev → Dev) : Host.Outcome State Fault Refusal :=
  s.on fun d => (d.copyDisagrees copiesService f.copy).when (f.payload.length ≤ 4104) g

/-! ## Sessions (R396, R411) -/

/-- HELLO: a session begins, with the operator's role. -/
def Dev.helloFrame (d : Dev) (f : SvcFrame) : Dev :=
  let d := (d.putBit Fld.SVC_CFG_SESSION true).endGrant .service
  d.svcEnd 1 f.seq.toNat stDone (leBytes 4 (d.reg Adr.ID_DEVICE).toNat ++ leBytes 4 (d.reg (Adr.UPD_SLOT 0)).toNat
    ++ leBytes 4 (d.reg (Adr.UPD_SLOT 1)).toNat ++ leBytes 4 (d.fld Fld.SVC_CFG_ROLE))

def execSvcHello (f : SvcFrame) (s : State) : Host.Outcome State Fault Refusal :=
  s.onFrame f fun d => d.svcFrame 1 0 f fun d => d.helloFrame f

/-- DROP_ROLE: the session returns to operator. -/
def execSvcDropRole (f : SvcFrame) (s : State) : Host.Outcome State Fault Refusal :=
  s.onFrame f fun d => d.svcFrame 0xe roleOperator f fun d => (d.dropRole .service).svcEnd 0xe f.seq.toNat stDone []

/-- A session ends, with its role and what it holds (R396, R418). -/
def Dev.sessionEnds (d : Dev) : Dev :=
  let d := ((d.endGrant .service).setRole .service 0).putBit Fld.SVC_CFG_SESSION false
  d.when (d.stagingMine none) fun d => d.releaseStaging 0xa

/-- SVC_SESSION_TIMEOUT: 10 s without a valid frame. -/
def execSvcSessionTimeout (s : State) : Host.Outcome State Fault Refusal :=
  s.on fun d => d.when (d.bit Fld.SVC_CFG_SESSION) Dev.sessionEnds

/-- SVC_FRAME_TIMEOUT: what has come of a frame is discarded, without a response. -/
def execSvcFrameTimeout (s : State) : Host.Outcome State Fault Refusal := s.on id

/-! ## Nonces, tokens and the mode lock (R400 to R404) -/

def execSvcNonce (f : SvcFrame) (s : State) : Host.Outcome State Fault Refusal :=
  s.onFrame f fun d => d.svcFrame 2 roleOperator f fun d =>
    let r := d.issueNonce
    r.2.svcEnd 2 f.seq.toNat stDone (nonceRecord r.1)

/-- TOKEN: as SUBMIT. -/
def execSvcToken (f : SvcFrame) (s : State) : Host.Outcome State Fault Refusal :=
  s.onFrame f fun d => d.svcFrame 3 roleOperator f fun d =>
    let r := d.submitToken .service (bytesAt f.payload 0 512)
    match r.1 with
    | some k => r.2.svcEnd 3 f.seq.toNat stDone (leBytes 4 k)
    | none => r.2.svcEnd 3 f.seq.toNat stDenied (leBytes 4 0)

/-- MODE_LOCK: an authorised lock is applied, or denied. -/
def execSvcModeLock (f : SvcFrame) (s : State) : Host.Outcome State Fault Refusal :=
  s.onFrame f fun d => d.svcFrame 0xd roleInstaller f fun d =>
    match d.applyLock (fieldAt f.payload 0 1) with
    | some d => d.svcEnd 0xd f.seq.toNat stDone []
    | none => d.svcEnd 0xd f.seq.toNat stDenied []

/-! ## Staging and activation (R417 to R420, R425, R426) -/

/-- STAGE: a piece is staged, or refused. -/
def Dev.stageFrame (d : Dev) (f : SvcFrame) : Dev :=
  let off := fieldAt f.payload 0 4
  let seq := f.seq.toNat
  if f.payload.length < 8 ∨ fieldAt f.payload 4 4 ≠ 0 then d.svcReply 4 seq stInvalidField []
  else
    match d.pieceRefused none off (f.payload.length - 8) with
    | some v => d.svcReply 4 seq v.status []
    | none => (d.stagePiece none off (f.payload.drop 8)).svcReply 4 seq stDone []

def execSvcStage (f : SvcFrame) (s : State) : Host.Outcome State Fault Refusal :=
  s.onFrame f fun d => d.svcFrame 4 roleInstaller f fun d => d.stageFrame f

/-- STAGE_END: verification begins, and its end answers. -/
def Dev.stageEndFrame (d : Dev) (f : SvcFrame) : Dev :=
  let w : UpdWait := .frame f.seq.toNat 5
  if d.stagingOther none then d.updAnswer w ⟨stBusyUpdate, 0, 0⟩
  else if !d.stagingMine none || d.upd.verifying || d.bit Fld.UPD_STATUS_ACTIVATING then d.updAnswer w stateError
  else d.stagingEnds (fieldAt f.payload 0 4) w

def execSvcStageEnd (f : SvcFrame) (s : State) : Host.Outcome State Fault Refusal :=
  s.onFrame f fun d => d.svcFrame 5 roleInstaller f fun d => d.stageEndFrame f

/-- The slot that the recovery ROM writes: one that is FAILED or EMPTY, else the one with the lower GEN. -/
def Dev.recoverySlot (d : Dev) : Nat :=
  match [0, 1].find? fun x => d.slotState x == slotEmpty || d.slotState x == slotFailed with
  | some x => x
  | none => if (d.bootSlot 1).gen < (d.bootSlot 0).gen then 1 else 0

/-- ACTIVATE in the recovery ROM: a verified manifest is written as a TRIAL, and the device resets. -/
def Dev.recoveryActivate (d : Dev) (seq : Nat) : Dev :=
  match d.upd.image with
  | none => d.updAnswer (.frame seq 6) stateError
  | some im =>
    if !im.manifest then d.updAnswer (.frame seq 6) stateError
    else
      let x := d.recoverySlot
      let d := d.writeSlot x im (max (d.bootSlot 0).gen (d.bootSlot 1).gen + 1) d.settingArea
      let d := (d.put Fld.UPD_STATUS_RESULT 9).auditUpdate x taken
      (d.updAnswer (.frame seq 6) (doneWith 0)).chipReset (some Fld.RST_CAUSE_RECOVERY)

def execSvcActivate (f : SvcFrame) (s : State) : Host.Outcome State Fault Refusal :=
  s.onFrame f fun d => d.svcFrame 6 roleInstaller f fun d =>
    if d.inRecovery then d.recoveryActivate f.seq.toNat else d.activate none (.frame f.seq.toNat 6)

def execSvcConfirm (f : SvcFrame) (s : State) : Host.Outcome State Fault Refusal :=
  s.onFrame f fun d => d.svcFrame 7 roleInstaller f fun d => d.confirmBy.2.svcEnd 7 f.seq.toNat d.confirmBy.1.status []

def execSvcStageAbort (f : SvcFrame) (s : State) : Host.Outcome State Fault Refusal :=
  s.onFrame f fun d => d.svcFrame 8 roleInstaller f fun d =>
    (d.stageAbort none).2.svcEnd 8 f.seq.toNat (d.stageAbort none).1.status []

def execSvcRevert (f : SvcFrame) (s : State) : Host.Outcome State Fault Refusal :=
  s.onFrame f fun d => d.svcFrame 9 roleInstaller f fun d => d.revertBy (.frame f.seq.toNat 9)

/-! ## Registers and logs (R11, R397, R412) -/

/-- REG_READ: a register's value; a misaligned offset reads all ones, and one past BAR0 is refused. -/
def Dev.regReadFrame (d : Dev) (f : SvcFrame) : Dev :=
  let off := fieldAt f.payload 0 4
  let seq := f.seq.toNat
  if 2 ^ 24 ≤ off then d.svcEnd 0xa seq stInvalidField []
  else if off % 4 ≠ 0 then d.svcEnd 0xa seq stDone (leBytes 4 0xffffffff)
  else
    let r := d.busRead off
    r.2.svcEnd 0xa seq stDone (leBytes 4 r.1.toNat)

def execSvcRegRead (f : SvcFrame) (s : State) : Host.Outcome State Fault Refusal :=
  s.onFrame f fun d => d.svcFrame 0xa roleOperator f fun d => d.regReadFrame f

/-- REG_WRITE: a register's write under the session's role; a misaligned one is discarded. -/
def Dev.regWriteFrame (d : Dev) (f : SvcFrame) : Dev :=
  let off := fieldAt f.payload 0 4
  let seq := f.seq.toNat
  if 2 ^ 24 ≤ off then d.svcEnd 0xb seq stInvalidField []
  else
    (d.when (off % 4 == 0) fun d => d.busWrite .service off (BitVec.ofNat 32 (fieldAt f.payload 4 4))).svcEnd 0xb seq stDone []

def execSvcRegWrite (f : SvcFrame) (s : State) : Host.Outcome State Fault Refusal :=
  s.onFrame f fun d => d.svcFrame 0xb roleOperator f fun d => d.regWriteFrame f

/-- GET_LOG: bytes of a log; a log or a length that is not listed is refused. -/
def Dev.getLogFrame (d : Dev) (f : SvcFrame) : Dev :=
  let id := fieldAt f.payload 0 1
  let off := fieldAt f.payload 4 4
  let n := fieldAt f.payload 8 2
  if id = 0 ∨ 7 < id ∨ 4096 < n then d.svcEnd 0xc f.seq.toNat stInvalidField []
  else (d.exportAudit id off n).svcEnd 0xc f.seq.toNat stDone (d.logBytes id off n)

def execSvcGetLog (f : SvcFrame) (s : State) : Host.Outcome State Fault Refusal :=
  s.onFrame f fun d => d.svcFrame 0xc roleOperator f fun d => d.getLogFrame f

/-- RESET (R429). -/
def execSvcReset (f : SvcFrame) (s : State) : Host.Outcome State Fault Refusal :=
  s.onFrame f fun d => d.svcFrame 0xf roleInstaller f fun d => d.serviceReset f.seq.toNat

/-! ## Other TYPEs (R426) -/

/-- A frame of a TYPE that R412 does not list: INVALID_OPCODE from the recovery ROM, and from the running firmware a status that
the spec does not give (log 58). -/
def Dev.unlistedFrame (d : Dev) (type : Nat) (f : SvcFrame) : Dev :=
  if !d.svcUp then d
  else if d.inRecovery then d.svcEnd type f.seq.toNat stInvalidOpcode []
  else if d.bit Fld.BOOT_STATUS_NO_START then d
  else d.drew.svcEnd type f.seq.toNat (d.freeBits 16) []

/-- The TYPEs that R412 does not list, 0 and 16 to 255, by their order. -/
def unlistedSvcType (t : Fin 241) : Nat := if t.val = 0 then 0 else 15 + t.val

def execSvcUnlistedType (t : Fin 241) (f : SvcFrame) (s : State) : Host.Outcome State Fault Refusal :=
  s.onFrame f fun d => d.unlistedFrame (unlistedSvcType t) f

end Sys2Proof.Machine
end

