-- ==== Sys2Proof/Machine/Dispatch.lean ====
section
/-! DEFINITION. The dispatcher: one arm per constructor, each a direct call of that command's meaning. -/

namespace Sys2Proof.Machine

/-- The effect of a command on everything but the queue. -/
def exec (i : Instr) (s : State) : Host.Outcome State Fault Refusal :=
  match i with
  | .registerWrite w => Sys2Proof.Machine.execRegisterWrite w s
  | .esnGrant arrivals => Sys2Proof.Machine.execEsnGrant arrivals s
  | .locusTick => Sys2Proof.Machine.execLocusTick s
  | .locusNowRead => Sys2Proof.Machine.execLocusNowRead s
  | .ringMarkTimeout => Sys2Proof.Machine.execRingMarkTimeout s
  | .rootLockLoss => Sys2Proof.Machine.execRootLockLoss s
  | .quadrantFail q => Sys2Proof.Machine.execQuadrantFail q s
  | .memChannelLoss ch => Sys2Proof.Machine.execMemChannelLoss ch s
  | .servoTick h m => Sys2Proof.Machine.execServoTick h m s
  | .sliceGroupEnd n g => Sys2Proof.Machine.execSliceGroupEnd n g s
  | .wedgeField h w => Sys2Proof.Machine.execWedgeField h w s
  | .framePreamble n p => Sys2Proof.Machine.execFramePreamble n p s
  | .syncMarkSearch n w => Sys2Proof.Machine.execSyncMarkSearch n w s
  | .rejoinEnd n => Sys2Proof.Machine.execRejoinEnd n s
  | .fragment n f => Sys2Proof.Machine.execFragment n f s
  | .groupComplete h g => Sys2Proof.Machine.execGroupComplete h g s
  | .groupDeadline h g => Sys2Proof.Machine.execGroupDeadline h g s
  | .latticePassDone u lost => Sys2Proof.Machine.execLatticePassDone u lost s
  | .latticeFault u => Sys2Proof.Machine.execLatticeFault u s
  | .latticeTakeover h => Sys2Proof.Machine.execLatticeTakeover h s
  | .decoderJobStart d => Sys2Proof.Machine.execDecoderJobStart d s
  | .decoderIteration d => Sys2Proof.Machine.execDecoderIteration d s
  | .sweepTrial d => Sys2Proof.Machine.execSweepTrial d s
  | .decoderFault d => Sys2Proof.Machine.execDecoderFault d s
  | .stripeRebuildDone e h slot => Sys2Proof.Machine.execStripeRebuildDone e h slot s
  | .encodeDone e h slot => Sys2Proof.Machine.execEncodeDone e h slot s
  | .stripeEngineFault e => Sys2Proof.Machine.execStripeEngineFault e s
  | .sliceSetMode n mode => Sys2Proof.Machine.execSliceSetMode n mode s
  | .sliceSetBeam n beam => Sys2Proof.Machine.execSliceSetBeam n beam s
  | .sliceCold n => Sys2Proof.Machine.execSliceCold n s
  | .sliceCntClr n => Sys2Proof.Machine.execSliceCntClr n s
  | .sliceZoneStage n v => Sys2Proof.Machine.execSliceZoneStage n v s
  | .latticeSetMode u mode head => Sys2Proof.Machine.execLatticeSetMode u mode head s
  | .itiReseed u => Sys2Proof.Machine.execItiReseed u s
  | .decCntClr => Sys2Proof.Machine.execDecCntClr s
  | .strCntClr e => Sys2Proof.Machine.execStrCntClr e s
  | .strEnable e on => Sys2Proof.Machine.execStrEnable e on s
  | .wpCntClr h => Sys2Proof.Machine.execWpCntClr h s
  | .opcGo h => Sys2Proof.Machine.execOpcGo h s
  | .opcDone h r => Sys2Proof.Machine.execOpcDone h r s
  | .bankSwap => Sys2Proof.Machine.execBankSwap s
  | .guardSilence h => Sys2Proof.Machine.execGuardSilence h s
  | .beamMapWrite h v => Sys2Proof.Machine.execBeamMapWrite h v s
  | .srvCntClr h => Sys2Proof.Machine.execSrvCntClr h s
  | .focusCapture h layer r => Sys2Proof.Machine.execFocusCapture h layer r s
  | .focusLost h => Sys2Proof.Machine.execFocusLost h s
  | .layerJump h up landed => Sys2Proof.Machine.execLayerJump h up landed s
  | .seek h band off => Sys2Proof.Machine.execSeek h band off s
  | .arcPeriodTick p onSpindle => Sys2Proof.Machine.execArcPeriodTick p onSpindle s
  | .arcNop iss => Sys2Proof.Machine.execArcNop iss s
  | .arcMov iss rd rs1 => Sys2Proof.Machine.execArcMov iss rd rs1 s
  | .arcMovi iss rd imm => Sys2Proof.Machine.execArcMovi iss rd imm s
  | .arcLui iss rd imm => Sys2Proof.Machine.execArcLui iss rd imm s
  | .arcSel iss rd rs1 rs2 q => Sys2Proof.Machine.execArcSel iss rd rs1 rs2 q s
  | .arcAlu iss fn rd rs1 rs2 => Sys2Proof.Machine.execArcAlu iss fn rd rs1 rs2 s
  | .arcAddi iss rd imm => Sys2Proof.Machine.execArcAddi iss rd imm s
  | .arcCmp iss fp fn pd rs1 rs2 => Sys2Proof.Machine.execArcCmp iss fp fn pd rs1 rs2 s
  | .arcQalu iss fn rd rs1 rs2 => Sys2Proof.Machine.execArcQalu iss fn rd rs1 rs2 s
  | .arcQmul iss rd rs1 rs2 => Sys2Proof.Machine.execArcQmul iss rd rs1 rs2 s
  | .arcQmac iss fn x rs1 rs2 => Sys2Proof.Machine.execArcQmac iss fn x rs1 rs2 s
  | .arcQrnd iss sh rd x => Sys2Proof.Machine.execArcQrnd iss sh rd x s
  | .arcQscl iss sc rd rs1 => Sys2Proof.Machine.execArcQscl iss sc rd rs1 s
  | .arcFalu iss fn rd rs1 rs2 => Sys2Proof.Machine.execArcFalu iss fn rd rs1 rs2 s
  | .arcFmac iss sub rd rs1 rs2 => Sys2Proof.Machine.execArcFmac iss sub rd rs1 rs2 s
  | .arcFrcp iss rd rs1 => Sys2Proof.Machine.execArcFrcp iss rd rs1 s
  | .arcFcvt iss fn rd rs1 => Sys2Proof.Machine.execArcFcvt iss fn rd rs1 s
  | .arcBiq iss rd cblk sblk => Sys2Proof.Machine.execArcBiq iss rd cblk sblk s
  | .arcLl iss rd cblk sblk => Sys2Proof.Machine.execArcLl iss rd cblk sblk s
  | .arcInteg iss c rd rs1 rs2 => Sys2Proof.Machine.execArcInteg iss c rd rs1 rs2 s
  | .arcClamp iss int c rd rs1 rs2 => Sys2Proof.Machine.execArcClamp iss int c rd rs1 rs2 s
  | .arcPreset iss bumpless c rd rs1 rs2 => Sys2Proof.Machine.execArcPreset iss bumpless c rd rs1 rs2 s
  | .arcFfv iss rd rs1 rs2 => Sys2Proof.Machine.execArcFfv iss rd rs1 rs2 s
  | .arcFfa iss ch rd rs1 => Sys2Proof.Machine.execArcFfa iss ch rd rs1 s
  | .arcLdc iss rd w => Sys2Proof.Machine.execArcLdc iss rd w s
  | .arcLds iss rd w => Sys2Proof.Machine.execArcLds iss rd w s
  | .arcSts iss rd w => Sys2Proof.Machine.execArcSts iss rd w s
  | .arcLdcx iss rd rs1 => Sys2Proof.Machine.execArcLdcx iss rd rs1 s
  | .arcLdsx iss rd rs1 => Sys2Proof.Machine.execArcLdsx iss rd rs1 s
  | .arcStsx iss rs1 rs2 => Sys2Proof.Machine.execArcStsx iss rs1 rs2 s
  | .arcSample iss rd port => Sys2Proof.Machine.execArcSample iss rd port s
  | .arcEmit iss rd port => Sys2Proof.Machine.execArcEmit iss rd port s
  | .arcEvent iss rd code => Sys2Proof.Machine.execArcEvent iss rd code s
  | .arcMfs iss rd sc => Sys2Proof.Machine.execArcMfs iss rd sc s
  | .arcSwap iss => Sys2Proof.Machine.execArcSwap iss s
  | .arcWaittick iss => Sys2Proof.Machine.execArcWaittick iss s
  | .arcMismatch p report => Sys2Proof.Machine.execArcMismatch p report s
  | .arcCheckpointLoaded p => Sys2Proof.Machine.execArcCheckpointLoaded p s
  | .arcSwapReq e => Sys2Proof.Machine.execArcSwapReq e s
  | .arcPeriodWrite e v => Sys2Proof.Machine.execArcPeriodWrite e v s
  | .arcLoad v => Sys2Proof.Machine.execArcLoad v s
  | .arcHandover v => Sys2Proof.Machine.execArcHandover v s
  | .arcLoadDone => Sys2Proof.Machine.execArcLoadDone s
  | .arcEventDrain p => Sys2Proof.Machine.execArcEventDrain p s
  | .arcCoefWindowWrite wr e w v => Sys2Proof.Machine.execArcCoefWindowWrite wr e w v s
  | .arcCntClr e => Sys2Proof.Machine.execArcCntClr e s
  | .pairFailedRecovery p failed => Sys2Proof.Machine.execPairFailedRecovery p failed s
  | .spindleCurrentTick m => Sys2Proof.Machine.execSpindleCurrentTick m s
  | .spindleOvercurrent ph => Sys2Proof.Machine.execSpindleOvercurrent ph s
  | .spnTargetWrite v => Sys2Proof.Machine.execSpnTargetWrite v s
  | .spnEnWrite on => Sys2Proof.Machine.execSpnEnWrite on s
  | .measureEnd cr => Sys2Proof.Machine.execMeasureEnd cr s
  | .zeroCrossing z => Sys2Proof.Machine.execZeroCrossing z s
  | .zcWindowClose => Sys2Proof.Machine.execZcWindowClose s
  | .revBrakeQuiet => Sys2Proof.Machine.execRevBrakeQuiet s
  | .revBrakeTimeout => Sys2Proof.Machine.execRevBrakeTimeout s
  | .probeDone currents => Sys2Proof.Machine.execProbeDone currents s
  | .kickTimeout => Sys2Proof.Machine.execKickTimeout s
  | .shortQuietTimeout => Sys2Proof.Machine.execShortQuietTimeout s
  | .chopperThreshold above => Sys2Proof.Machine.execChopperThreshold above s
  | .ov1 => Sys2Proof.Machine.execOv1 s
  | .chopCheckTimeout => Sys2Proof.Machine.execChopCheckTimeout s
  | .busBelowBrkOff => Sys2Proof.Machine.execBusBelowBrkOff s
  | .ov2 => Sys2Proof.Machine.execOv2 s
  | .ov2Clear => Sys2Proof.Machine.execOv2Clear s
  | .motFlt => Sys2Proof.Machine.execMotFlt s
  | .motCntClr => Sys2Proof.Machine.execMotCntClr s
  | .prfGo c start => Sys2Proof.Machine.execPrfGo c start s
  | .prfStop c => Sys2Proof.Machine.execPrfStop c s
  | .sledHome h => Sys2Proof.Machine.execSledHome h s
  | .sledMove h => Sys2Proof.Machine.execSledMove h s
  | .sledTable h => Sys2Proof.Machine.execSledTable h s
  | .sledTrack h => Sys2Proof.Machine.execSledTrack h s
  | .sledStop h => Sys2Proof.Machine.execSledStop h s
  | .sledPark h => Sys2Proof.Machine.execSledPark h s
  | .sledDecWrite h v => Sys2Proof.Machine.execSledDecWrite h v s
  | .limitEdge h far => Sys2Proof.Machine.execLimitEdge h far s
  | .sledHoldTimer h => Sys2Proof.Machine.execSledHoldTimer h s
  | .spanAlu iss op rd rs1 rs2 => Sys2Proof.Machine.execSpanAlu iss op rd rs1 rs2 s
  | .spanAddi iss rd rs1 imm => Sys2Proof.Machine.execSpanAddi iss rd rs1 imm s
  | .spanAndi iss rd rs1 imm => Sys2Proof.Machine.execSpanAndi iss rd rs1 imm s
  | .spanOri iss rd rs1 imm => Sys2Proof.Machine.execSpanOri iss rd rs1 imm s
  | .spanXori iss rd rs1 imm => Sys2Proof.Machine.execSpanXori iss rd rs1 imm s
  | .spanShi iss op sh rd rs1 => Sys2Proof.Machine.execSpanShi iss op sh rd rs1 s
  | .spanLui iss rd imm => Sys2Proof.Machine.execSpanLui iss rd imm s
  | .spanSlti iss rd rs1 imm => Sys2Proof.Machine.execSpanSlti iss rd rs1 imm s
  | .spanLd iss rd rs1 imm => Sys2Proof.Machine.execSpanLd iss rd rs1 imm s
  | .spanLwu iss rd rs1 imm => Sys2Proof.Machine.execSpanLwu iss rd rs1 imm s
  | .spanLw iss rd rs1 imm => Sys2Proof.Machine.execSpanLw iss rd rs1 imm s
  | .spanLhu iss rd rs1 imm => Sys2Proof.Machine.execSpanLhu iss rd rs1 imm s
  | .spanLbu iss rd rs1 imm => Sys2Proof.Machine.execSpanLbu iss rd rs1 imm s
  | .spanSd iss rs2 rs1 imm => Sys2Proof.Machine.execSpanSd iss rs2 rs1 imm s
  | .spanSw iss rs2 rs1 imm => Sys2Proof.Machine.execSpanSw iss rs2 rs1 imm s
  | .spanSh iss rs2 rs1 imm => Sys2Proof.Machine.execSpanSh iss rs2 rs1 imm s
  | .spanSb iss rs2 rs1 imm => Sys2Proof.Machine.execSpanSb iss rs2 rs1 imm s
  | .spanLq iss rd rs1 imm => Sys2Proof.Machine.execSpanLq iss rd rs1 imm s
  | .spanSq iss rs2 rs1 imm => Sys2Proof.Machine.execSpanSq iss rs2 rs1 imm s
  | .spanBeq iss rs1 rs2 imm => Sys2Proof.Machine.execSpanBeq iss rs1 rs2 imm s
  | .spanBne iss rs1 rs2 imm => Sys2Proof.Machine.execSpanBne iss rs1 rs2 imm s
  | .spanBlt iss rs1 rs2 imm => Sys2Proof.Machine.execSpanBlt iss rs1 rs2 imm s
  | .spanBge iss rs1 rs2 imm => Sys2Proof.Machine.execSpanBge iss rs1 rs2 imm s
  | .spanBltu iss rs1 rs2 imm => Sys2Proof.Machine.execSpanBltu iss rs1 rs2 imm s
  | .spanBgeu iss rs1 rs2 imm => Sys2Proof.Machine.execSpanBgeu iss rs1 rs2 imm s
  | .spanJal iss rd imm => Sys2Proof.Machine.execSpanJal iss rd imm s
  | .spanJalr iss rd rs1 imm => Sys2Proof.Machine.execSpanJalr iss rd rs1 imm s
  | .spanFence iss => Sys2Proof.Machine.execSpanFence iss s
  | .spanCsrr iss rd c => Sys2Proof.Machine.execSpanCsrr iss rd c s
  | .spanCsrw iss rs1 c => Sys2Proof.Machine.execSpanCsrw iss rs1 c s
  | .spanEret iss => Sys2Proof.Machine.execSpanEret iss s
  | .spanPop iss q rd rs1 => Sys2Proof.Machine.execSpanPop iss q rd rs1 s
  | .spanPush iss q rd rs1 => Sys2Proof.Machine.execSpanPush iss q rd rs1 s
  | .dmaCopy iss rd rs1 => Sys2Proof.Machine.execDmaCopy iss rd rs1 s
  | .dmaFill iss rd rs1 => Sys2Proof.Machine.execDmaFill iss rd rs1 s
  | .dmaHostIn iss rd rs1 => Sys2Proof.Machine.execDmaHostIn iss rd rs1 s
  | .dmaHostOut iss rd rs1 => Sys2Proof.Machine.execDmaHostOut iss rd rs1 s
  | .dmaCpl iss rd rs1 => Sys2Proof.Machine.execDmaCpl iss rd rs1 s
  | .dispFrameJob iss rd rs1 => Sys2Proof.Machine.execDispFrameJob iss rd rs1 s
  | .dispStripeJob iss rd rs1 => Sys2Proof.Machine.execDispStripeJob iss rd rs1 s
  | .dispBandWrite iss rd rs1 => Sys2Proof.Machine.execDispBandWrite iss rd rs1 s
  | .spanStamp iss rd c => Sys2Proof.Machine.execSpanStamp iss rd c s
  | .spanWait iss rd rs1 => Sys2Proof.Machine.execSpanWait iss rd rs1 s
  | .spanAmo iss op rd rs1 rs2 => Sys2Proof.Machine.execSpanAmo iss op rd rs1 rs2 s
  | .spanCkpt iss rd => Sys2Proof.Machine.execSpanCkpt iss rd s
  | .spanSignal iss rs1 => Sys2Proof.Machine.execSpanSignal iss rs1 s
  | .spanIllegalOpcode iss w => Sys2Proof.Machine.execSpanIllegalOpcode iss w s
  | .waitWake t => Sys2Proof.Machine.execWaitWake t s
  | .dmaEnd t tag bad => Sys2Proof.Machine.execDmaEnd t tag bad s
  | .hostReadError t tag => Sys2Proof.Machine.execHostReadError t tag s
  | .autoCheckpoint t => Sys2Proof.Machine.execAutoCheckpoint t s
  | .checkpointComplete t => Sys2Proof.Machine.execCheckpointComplete t s
  | .spanProcessorFault p f => Sys2Proof.Machine.execSpanProcessorFault p f s
  | .spanWatchdog p c => Sys2Proof.Machine.execSpanWatchdog p c s
  | .taskRestartDone t => Sys2Proof.Machine.execTaskRestartDone t s
  | .spnCntClr p => Sys2Proof.Machine.execSpnCntClr p s
  | .cacheAccess r parity => Sys2Proof.Machine.execCacheAccess r parity s
  | .cachePatrol f bad twinBad => Sys2Proof.Machine.execCachePatrol f bad twinBad s
  | .cacheDisable w => Sys2Proof.Machine.execCacheDisable w s
  | .cacheEnable w => Sys2Proof.Machine.execCacheEnable w s
  | .cacheDisableDone => Sys2Proof.Machine.execCacheDisableDone s
  | .cacheReserve p v => Sys2Proof.Machine.execCacheReserve p v s
  | .cacheCntClr => Sys2Proof.Machine.execCacheCntClr s
  | .memRead word u => Sys2Proof.Machine.execMemRead word u s
  | .memWrite word data => Sys2Proof.Machine.execMemWrite word data s
  | .memNarrowWrite word first data => Sys2Proof.Machine.execMemNarrowWrite word first data s
  | .pageRetireDone page => Sys2Proof.Machine.execPageRetireDone page s
  | .parityWriteback page => Sys2Proof.Machine.execParityWriteback page s
  | .bucketLeak => Sys2Proof.Machine.execBucketLeak s
  | .memPatrol => Sys2Proof.Machine.execMemPatrol s
  | .wckRetrack ch => Sys2Proof.Machine.execWckRetrack ch s
  | .virginScrub => Sys2Proof.Machine.execVirginScrub s
  | .memCntClr => Sys2Proof.Machine.execMemCntClr s
  | .usb4LinkUp gen lanes asym => Sys2Proof.Machine.execUsb4LinkUp gen lanes asym s
  | .tunnelLoss hotReset => Sys2Proof.Machine.execTunnelLoss hotReset s
  | .qpEnable q v => Sys2Proof.Machine.execQpEnable q v s
  | .qpDisable q v => Sys2Proof.Machine.execQpDisable q v s
  | .sqTailDoorbell q v placed => Sys2Proof.Machine.execSqTailDoorbell q v placed s
  | .cqHeadDoorbell q v => Sys2Proof.Machine.execCqHeadDoorbell q v s
  | .sqFetch => Sys2Proof.Machine.execSqFetch s
  | .invalidOpcode c => Sys2Proof.Machine.execInvalidOpcode c s
  | .read c stripes => Sys2Proof.Machine.execRead c stripes s
  | .write c => Sys2Proof.Machine.execWrite c s
  | .flush c => Sys2Proof.Machine.execFlush c s
  | .abort c => Sys2Proof.Machine.execAbort c s
  | .selfTestShort c => Sys2Proof.Machine.execSelfTestShort c s
  | .selfTestExtended c => Sys2Proof.Machine.execSelfTestExtended c s
  | .selfTestStop c => Sys2Proof.Machine.execSelfTestStop c s
  | .nsCreate c => Sys2Proof.Machine.execNsCreate c s
  | .nsDelete c => Sys2Proof.Machine.execNsDelete c s
  | .powerState c => Sys2Proof.Machine.execPowerState c s
  | .loadProgramUser c => Sys2Proof.Machine.execLoadProgramUser c s
  | .loadProgramXim c => Sys2Proof.Machine.execLoadProgramXim c s
  | .getLog c => Sys2Proof.Machine.execGetLog c s
  | .setFeaturePowerIdle c => Sys2Proof.Machine.execSetFeaturePowerIdle c s
  | .setFeatureIdleRpm c => Sys2Proof.Machine.execSetFeatureIdleRpm c s
  | .setFeatureSparePolicy c => Sys2Proof.Machine.execSetFeatureSparePolicy c s
  | .setFeatureAttention c => Sys2Proof.Machine.execSetFeatureAttention c s
  | .setFeatureAutoConfirm c => Sys2Proof.Machine.execSetFeatureAutoConfirm c s
  | .setFeatureModeLock c => Sys2Proof.Machine.execSetFeatureModeLock c s
  | .setFeatureReadAhead c => Sys2Proof.Machine.execSetFeatureReadAhead c s
  | .endorseNonce c => Sys2Proof.Machine.execEndorseNonce c s
  | .endorseSubmit c => Sys2Proof.Machine.execEndorseSubmit c s
  | .endorseQuote c => Sys2Proof.Machine.execEndorseQuote c s
  | .endorseActivate c => Sys2Proof.Machine.execEndorseActivate c s
  | .endorseConfirm c => Sys2Proof.Machine.execEndorseConfirm c s
  | .endorseDropRole c => Sys2Proof.Machine.execEndorseDropRole c s
  | .endorseStageAbort c => Sys2Proof.Machine.execEndorseStageAbort c s
  | .endorseRevert c => Sys2Proof.Machine.execEndorseRevert c s
  | .coalesceTimeout q => Sys2Proof.Machine.execCoalesceTimeout q s
  | .hqFreset => Sys2Proof.Machine.execHqFreset s
  | .hqEnableWrite on => Sys2Proof.Machine.execHqEnableWrite on s
  | .functionResetDone => Sys2Proof.Machine.execFunctionResetDone s
  | .completionDropTimeout q => Sys2Proof.Machine.execCompletionDropTimeout q s
  | .hqCntClr => Sys2Proof.Machine.execHqCntClr s
  | .d3hotEntry => Sys2Proof.Machine.execD3hotEntry s
  | .d0Return => Sys2Proof.Machine.execD0Return s
  | .usb4SidebandWake env => Sys2Proof.Machine.execUsb4SidebandWake env s
  | .powerIdleTimeout deep => Sys2Proof.Machine.execPowerIdleTimeout deep s
  | .psEntryDone => Sys2Proof.Machine.execPsEntryDone s
  | .testUnitReady t => Sys2Proof.Machine.execTestUnitReady t s
  | .requestSense t => Sys2Proof.Machine.execRequestSense t s
  | .inquiry t => Sys2Proof.Machine.execInquiry t s
  | .reportLuns t => Sys2Proof.Machine.execReportLuns t s
  | .startStopUnit t => Sys2Proof.Machine.execStartStopUnit t s
  | .preventAllowMediumRemoval t => Sys2Proof.Machine.execPreventAllowMediumRemoval t s
  | .readCapacity t => Sys2Proof.Machine.execReadCapacity t s
  | .read10 t m => Sys2Proof.Machine.execRead10 t m s
  | .read12 t m => Sys2Proof.Machine.execRead12 t m s
  | .write10 t data m => Sys2Proof.Machine.execWrite10 t data m s
  | .write12 t data m => Sys2Proof.Machine.execWrite12 t data m s
  | .seek10 t => Sys2Proof.Machine.execSeek10 t s
  | .verify10 t m => Sys2Proof.Machine.execVerify10 t m s
  | .synchronizeCache t m => Sys2Proof.Machine.execSynchronizeCache t m s
  | .readTocPmaAtip t => Sys2Proof.Machine.execReadTocPmaAtip t s
  | .getConfiguration t => Sys2Proof.Machine.execGetConfiguration t s
  | .getEventStatusNotification t => Sys2Proof.Machine.execGetEventStatusNotification t s
  | .readDiscInformation t => Sys2Proof.Machine.execReadDiscInformation t s
  | .readTrackInformation t => Sys2Proof.Machine.execReadTrackInformation t s
  | .readBufferCapacity t => Sys2Proof.Machine.execReadBufferCapacity t s
  | .modeSelect10 t data => Sys2Proof.Machine.execModeSelect10 t data s
  | .modeSense10 t => Sys2Proof.Machine.execModeSense10 t s
  | .getPerformance t => Sys2Proof.Machine.execGetPerformance t s
  | .setStreaming t => Sys2Proof.Machine.execSetStreaming t s
  | .kdReadRaw t m rows => Sys2Proof.Machine.execKdReadRaw t m rows s
  | .kdErrCounters t => Sys2Proof.Machine.execKdErrCounters t s
  | .kdCalibrate t errs mon => Sys2Proof.Machine.execKdCalibrate t errs mon s
  | .kdDriveInfo t => Sys2Proof.Machine.execKdDriveInfo t s
  | .scsiUnsupportedOpcode t => Sys2Proof.Machine.execScsiUnsupportedOpcode t s
  | .abortTask tag => Sys2Proof.Machine.execAbortTask tag s
  | .abortTaskSet => Sys2Proof.Machine.execAbortTaskSet s
  | .logicalUnitReset => Sys2Proof.Machine.execLogicalUnitReset s
  | .usbPortReset => Sys2Proof.Machine.execUsbPortReset s
  | .usbSuspend => Sys2Proof.Machine.execUsbSuspend s
  | .kdRunIn bits p => Sys2Proof.Machine.execKdRunIn bits p s
  | .kdFrameSync dist bits => Sys2Proof.Machine.execKdFrameSync dist bits s
  | .kdBlockDecode => Sys2Proof.Machine.execKdBlockDecode s
  | .kdStandbyTakeover fault => Sys2Proof.Machine.execKdStandbyTakeover fault s
  | .kdTakeover => Sys2Proof.Machine.execKdTakeover s
  | .kdCntClr => Sys2Proof.Machine.execKdCntClr s
  | .rotationTimer => Sys2Proof.Machine.execRotationTimer s
  | .reserveTestTimer cls unit => Sys2Proof.Machine.execReserveTestTimer cls unit s
  | .drainDone => Sys2Proof.Machine.execDrainDone s
  | .unitLoadDone crcOk => Sys2Proof.Machine.execUnitLoadDone crcOk s
  | .targetedTestDone pass => Sys2Proof.Machine.execTargetedTestDone pass s
  | .unitReclaim cls => Sys2Proof.Machine.execUnitReclaim cls s
  | .sliceHandoff v => Sys2Proof.Machine.execSliceHandoff v s
  | .latticeHandoff v => Sys2Proof.Machine.execLatticeHandoff v s
  | .spanHandoff v => Sys2Proof.Machine.execSpanHandoff v s
  | .spanHandoffDone => Sys2Proof.Machine.execSpanHandoffDone s
  | .sprPolicyWrite w v => Sys2Proof.Machine.execSprPolicyWrite w v s
  | .sprThresholdWrite w cls v => Sys2Proof.Machine.execSprThresholdWrite w cls v s
  | .sprCntClr => Sys2Proof.Machine.execSprCntClr s
  | .vendorTaskMove t => Sys2Proof.Machine.execVendorTaskMove t s
  | .liveActivationDone ok => Sys2Proof.Machine.execLiveActivationDone ok s
  | .roleGrantExpiry r => Sys2Proof.Machine.execRoleGrantExpiry r s
  | .nonceExpiry id => Sys2Proof.Machine.execNonceExpiry id s
  | .modeLockAuthExpiry => Sys2Proof.Machine.execModeLockAuthExpiry s
  | .stagingLockTimeout => Sys2Proof.Machine.execStagingLockTimeout s
  | .imageVerifyDone => Sys2Proof.Machine.execImageVerifyDone s
  | .auditNorWrite w => Sys2Proof.Machine.execAuditNorWrite w s
  | .auditAggregate => Sys2Proof.Machine.execAuditAggregate s
  | .cleanMinute => Sys2Proof.Machine.execCleanMinute s
  | .secCntClr => Sys2Proof.Machine.execSecCntClr s
  | .svcHello f => Sys2Proof.Machine.execSvcHello f s
  | .svcNonce f => Sys2Proof.Machine.execSvcNonce f s
  | .svcToken f => Sys2Proof.Machine.execSvcToken f s
  | .svcStage f => Sys2Proof.Machine.execSvcStage f s
  | .svcStageEnd f => Sys2Proof.Machine.execSvcStageEnd f s
  | .svcActivate f => Sys2Proof.Machine.execSvcActivate f s
  | .svcConfirm f => Sys2Proof.Machine.execSvcConfirm f s
  | .svcStageAbort f => Sys2Proof.Machine.execSvcStageAbort f s
  | .svcRevert f => Sys2Proof.Machine.execSvcRevert f s
  | .svcRegRead f => Sys2Proof.Machine.execSvcRegRead f s
  | .svcRegWrite f => Sys2Proof.Machine.execSvcRegWrite f s
  | .svcGetLog f => Sys2Proof.Machine.execSvcGetLog f s
  | .svcModeLock f => Sys2Proof.Machine.execSvcModeLock f s
  | .svcDropRole f => Sys2Proof.Machine.execSvcDropRole f s
  | .svcReset f => Sys2Proof.Machine.execSvcReset f s
  | .svcSessionTimeout => Sys2Proof.Machine.execSvcSessionTimeout s
  | .svcFrameTimeout => Sys2Proof.Machine.execSvcFrameTimeout s
  | .powerOn env => Sys2Proof.Machine.execPowerOn env s
  | .resetPin => Sys2Proof.Machine.execResetPin s
  | .brownOut => Sys2Proof.Machine.execBrownOut s
  | .referenceLoss => Sys2Proof.Machine.execReferenceLoss s
  | .referenceRestored => Sys2Proof.Machine.execReferenceRestored s
  | .pllLockTimeout core => Sys2Proof.Machine.execPllLockTimeout core s
  | .facetExtReq w => Sys2Proof.Machine.execFacetExtReq w s
  | .facetTgtGo pd => Sys2Proof.Machine.execFacetTgtGo pd s
  | .facetTestDone results => Sys2Proof.Machine.execFacetTestDone results s
  | .pwrCntClr => Sys2Proof.Machine.execPwrCntClr s
  | .pdRequest pd on => Sys2Proof.Machine.execPdRequest pd on s
  | .pdPowerUpDone pd => Sys2Proof.Machine.execPdPowerUpDone pd s
  | .thermalSample temps => Sys2Proof.Machine.execThermalSample temps s
  | .governorSample => Sys2Proof.Machine.execGovernorSample s
  | .tripClear => Sys2Proof.Machine.execTripClear s
  | .pwrFailAssert => Sys2Proof.Machine.execPwrFailAssert s
  | .pwrFailResume => Sys2Proof.Machine.execPwrFailResume s
  | .ringTimeMark f residence => Sys2Proof.Machine.execRingTimeMark f residence s
  | .ringPresence f => Sys2Proof.Machine.execRingPresence f s
  | .ringWake f env => Sys2Proof.Machine.execRingWake f env s
  | .ringMgmt f => Sys2Proof.Machine.execRingMgmt f s
  | .ringUnknownFrame f => Sys2Proof.Machine.execRingUnknownFrame f s
  | .ringSync => Sys2Proof.Machine.execRingSync s
  | .ringSyncLoss => Sys2Proof.Machine.execRingSyncLoss s
  | .presenceTimer => Sys2Proof.Machine.execPresenceTimer s
  | .ringForceBypass w on => Sys2Proof.Machine.execRingForceBypass w on s
  | .ringBypassOpen => Sys2Proof.Machine.execRingBypassOpen s
  | .ringTxPush => Sys2Proof.Machine.execRingTxPush s
  | .ringRxPop => Sys2Proof.Machine.execRingRxPop s
  | .ringCntClr => Sys2Proof.Machine.execRingCntClr s
  | .mgmtRetry => Sys2Proof.Machine.execMgmtRetry s
  | .resetDeassert env => Sys2Proof.Machine.execResetDeassert env s
  | .writePathMismatch h e => Sys2Proof.Machine.execWritePathMismatch h e s
  | .locusCopyDisagree copy => Sys2Proof.Machine.execLocusCopyDisagree copy s
  | .sliceSelfCheckFault n => Sys2Proof.Machine.execSliceSelfCheckFault n s
  | .jobCancel h esn => Sys2Proof.Machine.execJobCancel h esn s
  | .standbyCoreRelock => Sys2Proof.Machine.execStandbyCoreRelock s
  | .zeroDegreeVectorEnd => Sys2Proof.Machine.execZeroDegreeVectorEnd s
  | .pwrFailDeassert => Sys2Proof.Machine.execPwrFailDeassert s
  | .limitRawTransition h far level => Sys2Proof.Machine.execLimitRawTransition h far level s
  | .usbResume => Sys2Proof.Machine.execUsbResume s
  | .usbDeviceRequest setup => Sys2Proof.Machine.execUsbDeviceRequest setup s
  | .svcUnlistedType t f => Sys2Proof.Machine.execSvcUnlistedType t f s
  | .boundaryScan op => Sys2Proof.Machine.execBoundaryScan op s
  | .kdCalibrationTimer errs mon => Sys2Proof.Machine.execKdCalibrationTimer errs mon s

end Sys2Proof.Machine
end

