-- ==== Sys2Proof/WellFormed.lean ====
section
/-! DEFINITION. The commands whose operands describe something that can happen: records of the length that their rule gives,
frames of the form and type of their row. No meaning stops on the others: what it does with them, its docstring says. -/

namespace Sys2Proof

/-- A command is well-formed. -/
def Instr.wellFormed (i : Instr) : Bool :=
  match i with
  /- R255 -/
  | .spanIllegalOpcode _ w => !Machine.spanListed w
  /- R294 -/
  | .memNarrowWrite _ first data => 1 ≤ data.bytes.length && first.val + data.bytes.length ≤ 8 && data.bytes.length < 8
  /- R366 -/
  | .write10 t data _ => data.length == Machine.cdbLen10 t.cdb
  /- R366 -/
  | .write12 t data _ => data.length == Machine.cdbLen12 t.cdb
  /- R358 -/
  | .kdReadRaw _ m _ => m.sectors.length == 21
  /- R357 -/
  | .scsiUnsupportedOpcode t => !Machine.scsiOpcodes.contains (Machine.cdbField t.cdb 0 1)
  /- R412 -/
  | .svcHello f => f.payload.length ≤ 4104
  /- R412 -/
  | .svcNonce f => f.payload.length ≤ 4104
  /- R412 -/
  | .svcToken f => f.payload.length ≤ 4104
  /- R418 -/
  | .svcStage f => f.payload.length ≤ 4104
  /- R417 -/
  | .svcStageEnd f => f.payload.length ≤ 4104
  /- R420 -/
  | .svcActivate f => f.payload.length ≤ 4104
  /- R425 -/
  | .svcConfirm f => f.payload.length ≤ 4104
  /- R418 -/
  | .svcStageAbort f => f.payload.length ≤ 4104
  /- R425 -/
  | .svcRevert f => f.payload.length ≤ 4104
  /- R412 -/
  | .svcRegRead f => f.payload.length ≤ 4104
  /- R397 -/
  | .svcRegWrite f => f.payload.length ≤ 4104
  /- R412 -/
  | .svcGetLog f => f.payload.length ≤ 4104
  /- R404 -/
  | .svcModeLock f => f.payload.length ≤ 4104
  /- R396 -/
  | .svcDropRole f => f.payload.length ≤ 4104
  /- R429 -/
  | .svcReset f => f.payload.length ≤ 4104
  /- R469 -/
  | .ringTimeMark f residence => Machine.ringFrameIs Machine.ringTimeMark f.bytes && Machine.rfLen f.bytes == 8
      && fieldAt f.bytes 20 2 < 1000 && 40 ≤ residence
  /- R468 -/
  | .ringPresence f => Machine.ringFrameIs Machine.ringPresence f.bytes
  /- R474 -/
  | .ringWake f _ => Machine.ringFrameIs Machine.ringWake f.bytes
  /- R468 -/
  | .ringMgmt f => Machine.ringFrameIs Machine.ringMgmt f.bytes
  /- R468 -/
  | .ringUnknownFrame f => Machine.ringFrameOk f.frame.bytes && Machine.rfType f.frame.bytes == Machine.unlistedType f.kind
  /- R426 -/
  | .svcUnlistedType _ f => f.payload.length ≤ 4104
  | .registerWrite .. | .esnGrant .. | .locusTick | .locusNowRead | .ringMarkTimeout | .rootLockLoss
  | .quadrantFail .. | .memChannelLoss .. | .servoTick .. | .sliceGroupEnd .. | .wedgeField .. | .framePreamble ..
  | .syncMarkSearch .. | .rejoinEnd .. | .fragment .. | .groupComplete .. | .groupDeadline .. | .latticePassDone ..
  | .latticeFault .. | .latticeTakeover .. | .decoderJobStart .. | .decoderIteration .. | .sweepTrial ..
  | .decoderFault .. | .stripeRebuildDone .. | .encodeDone .. | .stripeEngineFault .. | .sliceSetMode ..
  | .sliceSetBeam .. | .sliceCold .. | .sliceCntClr .. | .sliceZoneStage .. | .latticeSetMode .. | .itiReseed ..
  | .decCntClr | .strCntClr .. | .strEnable .. | .wpCntClr .. | .opcGo .. | .opcDone .. | .bankSwap
  | .guardSilence .. | .beamMapWrite .. | .srvCntClr .. | .focusCapture .. | .focusLost .. | .layerJump .. | .seek ..
  | .arcPeriodTick .. | .arcNop .. | .arcMov .. | .arcMovi .. | .arcLui .. | .arcSel .. | .arcAlu .. | .arcAddi ..
  | .arcCmp .. | .arcQalu .. | .arcQmul .. | .arcQmac .. | .arcQrnd .. | .arcQscl .. | .arcFalu .. | .arcFmac ..
  | .arcFrcp .. | .arcFcvt .. | .arcBiq .. | .arcLl .. | .arcInteg .. | .arcClamp .. | .arcPreset .. | .arcFfv ..
  | .arcFfa .. | .arcLdc .. | .arcLds .. | .arcSts .. | .arcLdcx .. | .arcLdsx .. | .arcStsx .. | .arcSample ..
  | .arcEmit .. | .arcEvent .. | .arcMfs .. | .arcSwap .. | .arcWaittick .. | .arcMismatch ..
  | .arcCheckpointLoaded .. | .arcSwapReq .. | .arcPeriodWrite .. | .arcLoad .. | .arcHandover .. | .arcLoadDone
  | .arcEventDrain .. | .arcCoefWindowWrite .. | .arcCntClr .. | .pairFailedRecovery .. | .spindleCurrentTick ..
  | .spindleOvercurrent .. | .spnTargetWrite .. | .spnEnWrite .. | .measureEnd .. | .zeroCrossing .. | .zcWindowClose
  | .revBrakeQuiet | .revBrakeTimeout | .probeDone .. | .kickTimeout | .shortQuietTimeout | .chopperThreshold ..
  | .ov1 | .chopCheckTimeout | .busBelowBrkOff | .ov2 | .ov2Clear | .motFlt | .motCntClr | .prfGo .. | .prfStop ..
  | .sledHome .. | .sledMove .. | .sledTable .. | .sledTrack .. | .sledStop .. | .sledPark .. | .sledDecWrite ..
  | .limitEdge .. | .sledHoldTimer .. | .spanAlu .. | .spanAddi .. | .spanAndi .. | .spanOri .. | .spanXori ..
  | .spanShi .. | .spanLui .. | .spanSlti .. | .spanLd .. | .spanLwu .. | .spanLw .. | .spanLhu .. | .spanLbu ..
  | .spanSd .. | .spanSw .. | .spanSh .. | .spanSb .. | .spanLq .. | .spanSq .. | .spanBeq .. | .spanBne ..
  | .spanBlt .. | .spanBge .. | .spanBltu .. | .spanBgeu .. | .spanJal .. | .spanJalr .. | .spanFence ..
  | .spanCsrr .. | .spanCsrw .. | .spanEret .. | .spanPop .. | .spanPush .. | .dmaCopy .. | .dmaFill ..
  | .dmaHostIn .. | .dmaHostOut .. | .dmaCpl .. | .dispFrameJob .. | .dispStripeJob .. | .dispBandWrite ..
  | .spanStamp .. | .spanWait .. | .spanAmo .. | .spanCkpt .. | .spanSignal .. | .waitWake .. | .dmaEnd ..
  | .hostReadError .. | .autoCheckpoint .. | .checkpointComplete .. | .spanProcessorFault .. | .spanWatchdog ..
  | .taskRestartDone .. | .spnCntClr .. | .cacheAccess .. | .cachePatrol .. | .cacheDisable .. | .cacheEnable ..
  | .cacheDisableDone | .cacheReserve .. | .cacheCntClr | .memRead .. | .memWrite .. | .pageRetireDone ..
  | .parityWriteback .. | .bucketLeak | .memPatrol | .wckRetrack .. | .virginScrub | .memCntClr | .usb4LinkUp ..
  | .tunnelLoss .. | .qpEnable .. | .qpDisable .. | .sqTailDoorbell .. | .cqHeadDoorbell .. | .sqFetch
  | .invalidOpcode .. | .read .. | .write .. | .flush .. | .abort .. | .selfTestShort .. | .selfTestExtended ..
  | .selfTestStop .. | .nsCreate .. | .nsDelete .. | .powerState .. | .loadProgramUser .. | .loadProgramXim ..
  | .getLog .. | .setFeaturePowerIdle .. | .setFeatureIdleRpm .. | .setFeatureSparePolicy ..
  | .setFeatureAttention .. | .setFeatureAutoConfirm .. | .setFeatureModeLock .. | .setFeatureReadAhead ..
  | .endorseNonce .. | .endorseSubmit .. | .endorseQuote .. | .endorseActivate .. | .endorseConfirm ..
  | .endorseDropRole .. | .endorseStageAbort .. | .endorseRevert .. | .coalesceTimeout .. | .hqFreset
  | .hqEnableWrite .. | .functionResetDone | .completionDropTimeout .. | .hqCntClr | .d3hotEntry | .d0Return
  | .usb4SidebandWake .. | .powerIdleTimeout .. | .psEntryDone | .testUnitReady .. | .requestSense .. | .inquiry ..
  | .reportLuns .. | .startStopUnit .. | .preventAllowMediumRemoval .. | .readCapacity .. | .read10 .. | .read12 ..
  | .seek10 .. | .verify10 .. | .synchronizeCache .. | .readTocPmaAtip .. | .getConfiguration ..
  | .getEventStatusNotification .. | .readDiscInformation .. | .readTrackInformation .. | .readBufferCapacity ..
  | .modeSelect10 .. | .modeSense10 .. | .getPerformance .. | .setStreaming .. | .kdErrCounters .. | .kdCalibrate ..
  | .kdDriveInfo .. | .abortTask .. | .abortTaskSet | .logicalUnitReset | .usbPortReset | .usbSuspend | .kdRunIn ..
  | .kdFrameSync .. | .kdBlockDecode | .kdStandbyTakeover .. | .kdTakeover | .kdCntClr | .rotationTimer
  | .reserveTestTimer .. | .drainDone | .unitLoadDone .. | .targetedTestDone .. | .unitReclaim .. | .sliceHandoff ..
  | .latticeHandoff .. | .spanHandoff .. | .spanHandoffDone | .sprPolicyWrite .. | .sprThresholdWrite .. | .sprCntClr
  | .vendorTaskMove .. | .liveActivationDone .. | .roleGrantExpiry .. | .nonceExpiry .. | .modeLockAuthExpiry
  | .stagingLockTimeout | .imageVerifyDone | .auditNorWrite .. | .auditAggregate | .cleanMinute | .secCntClr
  | .svcSessionTimeout | .svcFrameTimeout | .powerOn .. | .resetPin | .brownOut | .referenceLoss | .referenceRestored
  | .pllLockTimeout .. | .facetExtReq .. | .facetTgtGo .. | .facetTestDone .. | .pwrCntClr | .pdRequest ..
  | .pdPowerUpDone .. | .thermalSample .. | .governorSample | .tripClear | .pwrFailAssert | .pwrFailResume
  | .ringSync | .ringSyncLoss | .presenceTimer | .ringForceBypass .. | .ringBypassOpen | .ringTxPush | .ringRxPop
  | .ringCntClr | .mgmtRetry | .resetDeassert .. | .writePathMismatch .. | .locusCopyDisagree ..
  | .sliceSelfCheckFault .. | .jobCancel .. | .standbyCoreRelock | .zeroDegreeVectorEnd | .pwrFailDeassert
  | .limitRawTransition .. | .usbResume | .usbDeviceRequest .. | .boundaryScan .. | .kdCalibrationTimer .. => true

end Sys2Proof
end

