-- ==== Sys2Proof/Safety.lean ====
section
/-! DEFINITION. What a safe run is, and the terms in which claims about a command are made. -/

namespace Sys2Proof.Machine

/-- A command is carried out: the queue stands, and the block after it satisfies P. -/
def Completes (c : Instr) (s : State) (P : Dev → Prop) : Prop :=
  ∃ d, exec c s = .next { s with dev := d } ∧ P d

/-- Registers outside a list read as before. -/
def SameRegs (d d' : Dev) (l : List Nat) : Prop := ∀ off, off ∉ l → d'.reg off = d.reg off

/-- A counter after n more events: it saturates at 0xffff_ffff. -/
def Dev.counted (d : Dev) (adr n : Nat) : Word := BitVec.ofNat 32 (min 0xffffffff ((d.reg adr).toNat + n))

/-- How start-up can end: held in step 2 without a clock, NO_START, the recovery ROM, or step 8 done. -/
def Started (d : Dev) : Prop :=
  d.pwr.stuck = true ∨ d.bit Fld.BOOT_STATUS_NO_START = true ∨ d.bit Fld.BOOT_STATUS_RECOVERY_ROM = true ∨
    d.fld Fld.BOOT_STATUS_STEP = 8

/-- What a chip reset leaves: the device is held; registers read their reset values, but those that show fuses, the NOR, the
island or the straps; the buffer, the roles' grants and the nonces are gone; time, fuses, keys and boot slots stand. -/
def ChipReset (d d' : Dev) : Prop :=
  d'.pwr.held = true ∧ d'.mem = {} ∧ d'.sec.nonces = [] ∧ d'.sec.grants = [] ∧ d'.sec.fuses = d.sec.fuses ∧
  d'.sec.keys = d.sec.keys ∧ d'.sec.dsn = d.sec.dsn ∧ d'.upd.slots = d.upd.slots ∧ d'.locus.time = d.locus.time ∧
  d'.log = d.log ∧ ∀ off, off ∉ Adr.ID_DEVICE :: keptRegisters → d'.reg off = regReset off

/-! ## Arc engines -/

/-- An Arc engine as an instruction finds it: at the issue of slot 0, with the filters that have completed by its cycle (R185). -/
def Dev.arcNow (d : Dev) (i : ArcIssue) : ArcSt := if i.slot = 0 then (d.arcEng i.eng).settle i.cycle else d.arcEng i.eng

/-- The registers, predicates and memories that an instruction of an Arc engine reads: the engine's own in slot 0, and those that
slot 0 of its bundle read in slot 1 (R180). -/
def Dev.arcSees (d : Dev) (i : ArcIssue) : ArcCtx := if i.slot = 0 then (d.arcNow i).ctx else (d.arcEng i.eng).snap

/-- An instruction's predicate lets it act (R179). -/
def Dev.arcActs (d : Dev) (i : ArcIssue) : Bool := (d.arcSees i).pred i.pred != i.neg

/-- What an instruction of an Arc engine leaves alone: registers and state words outside two lists, the period count, PHASE and
the bank, the coefficients, the posts, the filters under way but for those that it adds, every other engine, the pairs, ports and
loader, and every register of the block but the engine's status. -/
def ArcFrame (d d' : Dev) (i : ArcIssue) (regs words : List Nat) (late : List (Nat × Nat × Word) := []) : Prop :=
  let a := d.arcNow i
  let a' := d'.arcEng i.eng
  let c := a.ctx
  let c' := a'.ctx
  (∀ r : ArcReg, r.val ∉ regs → c'.reg r = c.reg r) ∧ (∀ w, w ∉ words → c'.word w = c.word w) ∧ a'.due = a.due ++ late ∧
  c' = { c with regs := c'.regs, preds := c'.preds, clamp := c'.clamp, arm := c'.arm, mem := c'.mem } ∧
  a' = { a with ctx := c', snap := a'.snap, due := a'.due, sig := a'.sig } ∧
  (∀ o, o ≠ i.eng.val → d'.arcEng o = d.arcEng o) ∧ d'.arc = { d.arc with eng := d'.arc.eng } ∧
  d' = { d with regs := d'.regs, arc := d'.arc } ∧ SameRegs d d' [Adr.ARC_STATUS i.eng]

/-- Predicates, clamp bits and arm bits of an engine stand. -/
def ArcBitsStand (d d' : Dev) (e : ArcEng) : Prop :=
  let c := (d.arcEng e).ctx
  let c' := (d'.arcEng e).ctx
  c'.preds = c.preds ∧ c'.clamp = c.clamp ∧ c'.arm = c.arm

/-- A command writes v to a register of the engine, and nothing else. -/
def ArcTakes (c : Instr) (s : State) (i : ArcIssue) (rd : ArcReg) (v : Word) : Prop :=
  Completes c s fun d => (d.arcEng i.eng).ctx.reg rd = v ∧ ArcFrame s.dev d i [rd] [] ∧ ArcBitsStand s.dev d i.eng ∧
    d.regs = s.dev.regs

/-- Flags raised stand beside those that stood. -/
def ArcFlags (d d' : Dev) (e : ArcEng) (r : Raised) : Prop :=
  d'.bit (Fld.ARC_STATUS_SAT e) = (d.bit (Fld.ARC_STATUS_SAT e) || r.sat) ∧
  d'.bit (Fld.ARC_STATUS_OVF e) = (d.bit (Fld.ARC_STATUS_OVF e) || r.ovf) ∧
  d'.bit (Fld.ARC_STATUS_NAN e) = (d.bit (Fld.ARC_STATUS_NAN e) || r.nan) ∧
  d'.bit (Fld.ARC_STATUS_DIV e) = (d.bit (Fld.ARC_STATUS_DIV e) || r.div)

/-- A command writes a result to a register of the engine and raises its flags, and does nothing else. -/
def ArcGives (c : Instr) (s : State) (i : ArcIssue) (rd : ArcReg) (v : Word × Raised) : Prop :=
  Completes c s fun d => (d.arcEng i.eng).ctx.reg rd = v.1 ∧ ArcFrame s.dev d i [rd] [] ∧ ArcBitsStand s.dev d i.eng ∧
    ArcFlags s.dev d i.eng v.2

/-- The nearest 32-bit value to a Q1.31 sum, and whether it is not the sum. -/
def qNear (x : Int) : Int × Bool := (max (-2147483648) (min 2147483647 x), decide (x < -2147483648 ∨ 2147483647 < x))

/-! ## Span tasks -/

/-- What a Span instruction of a task leaves alone: its CSRs and its other state but registers and program counter, every other
task, and everything of the block but the issue count. -/
def SpanFrame (d d' : Dev) (i : SpanIssue) (t : Nat) : Prop :=
  d'.task t = { d.task t with regs := (d'.task t).regs, pc := (d'.task t).pc } ∧ (∀ u, u ≠ t → d'.task u = d.task u) ∧
  d'.span = { d.span with tasks := d'.span.tasks, issued := d'.span.issued } ∧
  d' = { d with regs := d'.regs, span := d'.span } ∧ SameRegs d d' [Adr.SPP_CNT i.proc 0]

/-- A task's instruction writes v to a register, unless that is s0, and goes on behind itself; nothing else changes. -/
def SpanTakes (c : Instr) (s : State) (i : SpanIssue) (t : Nat) (rd : SpanReg) (v : DWord) : Prop :=
  Completes c s fun d => d.sreg t rd = (if rd = 0 then 0 else v) ∧
    (∀ r : SpanReg, r ≠ rd → d.sreg t r = s.dev.sreg t r) ∧ (d.task t).pc = (s.dev.task t).pc + 4 ∧ SpanFrame s.dev d i t

/-- The registers of the shared cache that serving an access writes (R275 to R285). -/
def cacheRegs : List Nat := Adr.CACHE_STATUS :: (List.range 8).map Adr.CACHE_CNT

/-- The shared cache serves accesses (R283). -/
def Dev.cacheServes (d : Dev) : Prop := d.bit Fld.CACHE_STATUS_ENABLED = true ∧ d.bit Fld.CACHE_STATUS_DISABLE_PENDING = false

/-- No upset waits in a frame of the set of a buffer address (R280). -/
def Dev.calmSet (d : Dev) (a : DWord) : Prop := ∀ k ∈ d.cache.struck, k / 16 ≠ lineSet (a.toNat / 256)

/-- A load from the buffer writes v to a register, unless that is s0, and goes on behind itself; the cache that serves it may take the line, and
nothing else changes. -/
def SpanLoads (c : Instr) (s : State) (i : SpanIssue) (t : Nat) (rd : SpanReg) (v : DWord) : Prop :=
  Completes c s fun d => d.sreg t rd = (if rd = 0 then 0 else v) ∧
    (∀ r : SpanReg, r ≠ rd → d.sreg t r = s.dev.sreg t r) ∧ (d.task t).pc = (s.dev.task t).pc + 4 ∧
    SpanFrame s.dev { d with cache := s.dev.cache, regs := s.dev.regs } i t ∧
    SameRegs s.dev d (Adr.SPP_CNT i.proc 0 :: cacheRegs) ∧ (¬s.dev.cacheServes → SpanFrame s.dev d i t)

/-- A task's instruction moves its program counter to an address, and does nothing else; one outside its region raises
FETCH_DENIED there. -/
def SpanJumps (c : Instr) (s : State) (i : SpanIssue) (t pc : Nat) : Prop :=
  Completes c s fun d => (∀ r : SpanReg, d.sreg t r = s.dev.sreg t r) ∧
    (s.dev.inRegion t pc = true → (d.task t).pc = pc ∧ SpanFrame s.dev d i t) ∧
    (s.dev.inRegion t pc = false → (s.dev.task t).handler = 0 ∨ (s.dev.task t).inHandler = true →
      (d.task t).epc = pc ∧ (d.task t).cause = causeFetch ∧ d.taskState t = taskStopped) ∧
    (s.dev.inRegion t pc = false → (s.dev.task t).handler ≠ 0 → (s.dev.task t).inHandler = false →
      s.dev.inRegion t (s.dev.task t).handler = true → d.task t =
        { s.dev.task t with epc := pc, cause := causeFetch, inHandler := true, pc := (s.dev.task t).handler })

/-- An exception of the instruction that a task issues: EPC names it, CAUSE the reason, and the handler goes on, if the task
has one in its region and is not in it; without one, and inside one, the task stops. Registers and buffer stand. -/
def SpanTraps (c : Instr) (s : State) (t cause : Nat) : Prop :=
  let x := s.dev.task t
  Completes c s fun d => (∀ r : SpanReg, d.sreg t r = s.dev.sreg t r) ∧ d.mem = s.dev.mem ∧
    (x.handler ≠ 0 → x.inHandler = false → s.dev.inRegion t x.handler = true →
      d.task t = { x with epc := x.pc, cause := cause, inHandler := true, pc := x.handler }) ∧
    (x.handler = 0 ∨ x.inHandler = true → d.task t = { x with epc := x.pc, cause := cause } ∧ d.taskState t = taskStopped)

/-! ## Host commands -/

/-- The events that a command logged: those in front of the log as it stood. -/
def newEvents (d d' : Dev) : List Event := d'.log.take (d'.log.length - d.log.length)

/-- A host command completes with a status: its entry is written with an event of its completion, and it has left flight; or,
where its queue has no room or others wait for room, it waits behind them. -/
def CmdEnds (d d' : Dev) (c : HostCmd) (v : HostStatus) : Prop :=
  let full := d.cqFull c.qp || d.host.held.any fun x => x.qp == c.qp
  (full = true → d'.host.held = d.host.held ++ [⟨c.qp, c.tag, v, false, c.rcpt, none⟩]) ∧
  (full = false → ((newEvents d d').any fun e =>
      e.kind == .completion && e.rcpt == c.rcpt && e.unit == c.qp && e.code == v.status) = true ∧
    ∀ x ∈ d'.host.cmds, ¬(x.qp = c.qp ∧ x.rcpt = c.rcpt))

/-- A step's outcome is a next state. -/
def isNext (o : Host.Outcome State Fault Refusal) : Bool :=
  match o with
  | .next _ => true
  | .fault _ => false
  | .refused _ => false

/-- Every command that waits is well-formed: a safe run's invariant; no step stops without it either. -/
def State.queueOk (s : State) : Bool := s.pending.all Instr.wellFormed

end Sys2Proof.Machine
end

