-- ==== Sys2Proof/Certificates/Slice0/Obligations.lean ====
section
/-! DEFINITION. The statements for the provers, family by family. -/

open Sys2Proof Sys2Proof.Machine

/-! ## The queue and the machine as a whole -/

/-- With command c at the front of the queue and rest behind it, a step is exec of c at the state whose queue is rest. -/
def Obligations.StepRunsFront : Prop :=
  ∀ (s : State) (c : Instr) (rest : List Instr), s.pending = c :: rest → step s = exec c { s with pending := rest }

/-- Every command is carried out, whatever its operands and the state: it answers a next state that differs from the present one
in the block alone, the queue standing. No command faults and none is refused. -/
def Obligations.EveryCommandIsCarriedOut : Prop :=
  ∀ (s : State) (c : Instr), ∃ d, exec c s = .next { s with dev := d }

/-- A run never stops: from every state, whatever waits in its queue, any number n of steps reaches a next state, whose queue is the
old one without its n first commands. -/
def Obligations.SafeRunNeverStops : Prop :=
  ∀ (s : State) (n : Nat), ∃ t, core.run n s = .next t ∧ t.pending = s.pending.drop n

/-- That every waiting command is well-formed is kept by every step. -/
def Obligations.QueueStaysWellFormed : Prop :=
  ∀ (s t : State), s.queueOk = true → step s = .next t → t.queueOk = true

/-! ## Locus -/

/-- ESN_GRANT: with no request nothing changes. Otherwise one request is granted the next ESN: one of the lowest class present,
and of the fragments one of the lowest slice present, and the others go on waiting. The next ESN is then greater (while EPOCH has not reached its last value), by exactly 1 while
ORDER stays within its 1,023. Nothing changes but Locus and LOCUS_STATUS. -/
def Obligations.EsnGrantsGoInClassOrder : Prop :=
  ∀ (s : State) (arrivals : List EsnRequest),
    let all := s.dev.locus.waiting ++ arrivals
    (all = [] → exec (.esnGrant arrivals) s = .next s) ∧
    (all ≠ [] → Completes (.esnGrant arrivals) s fun d =>
      (∃ r, d.locus.granted = some (r, s.dev.locus.next) ∧ (∀ x ∈ all, (s.dev.grantClass r).val ≤ (s.dev.grantClass x).val) ∧
        (∀ x ∈ all, r.kind = .fragment → x.kind = .fragment → r.source ≤ x.source) ∧
        (r :: d.locus.waiting).Perm all) ∧
      (s.dev.locus.epoch ≠ 0xffff → s.dev.locus.next < d.locus.next) ∧
      (s.dev.locus.order < 1023 → d.locus.next = s.dev.locus.next + 1) ∧
      d = { s.dev with regs := d.regs, locus := d.locus } ∧ SameRegs s.dev d [Adr.LOCUS_STATUS])

/-- A tick: TICK advances by one and ORDER restarts at 0; where a ring mark asked for a step forward, the time becomes the
mark's where that lies ahead, and STEPPED is then set; while the time slews, every second tick leaves TICK and ORDER alone, and the
slew ends when the mark, which runs on, has caught up. Without RING_SYNC_EN the time runs free. Nothing changes but Locus and
LOCUS_STATUS. -/
def Obligations.TicksAdvanceStepOrSlew : Prop :=
  ∀ s : State,
    let l := s.dev.locus
    Completes .locusTick s fun d =>
      d.locus.micros = l.micros + 1 ∧
      (l.stepTo = none → l.slewTo = none → d.locus.time = l.time + 1 ∧ d.locus.order = 0 ∧ d.regs = s.dev.regs) ∧
      (s.dev.bit Fld.LOCUS_CTRL_RING_SYNC_EN = false → d.locus.time = l.time + 1 ∧ d.locus.order = 0 ∧
        d.locus.stepTo = none ∧ d.locus.slewTo = none ∧
        (l.stepTo ≠ none ∨ l.slewTo ≠ none → d.bit Fld.LOCUS_STATUS_SLEWING = false)) ∧
      (s.dev.bit Fld.LOCUS_CTRL_RING_SYNC_EN = true → ∀ v, l.stepTo = some v →
        d.locus.time = (if timeAhead v (l.time + 1) then v else l.time + 1) ∧ d.locus.order = 0 ∧ d.locus.stepTo = none ∧
        d.bit Fld.LOCUS_STATUS_STEPPED = (timeAhead v (l.time + 1) || s.dev.bit Fld.LOCUS_STATUS_STEPPED)) ∧
      (s.dev.bit Fld.LOCUS_CTRL_RING_SYNC_EN = true → l.stepTo = none → ∀ mark, l.slewTo = some mark →
        let now := if l.slewSkip then l.time + 1 else l.time
        let on := timeAhead now (mark + 1)
        d.locus.time = now ∧ d.locus.order = (if l.slewSkip then 0 else l.order) ∧
        d.locus.slewTo = (if on then some (mark + 1) else none) ∧ d.locus.slewSkip = (on && !l.slewSkip) ∧
        d.bit Fld.LOCUS_STATUS_SLEWING = on) ∧
      d = { s.dev with regs := d.regs, locus := d.locus } ∧ SameRegs s.dev d [Adr.LOCUS_STATUS]

/-- Reading LOCUS_NOW_LO shows bits 31 to 0 of the next ESN and latches bits 47 to 32 into LOCUS_NOW_HI, and nothing else
changes. A copy of the Locus logic that disagrees changes no register and neither the time nor the ESN to come. When 3 ms
pass without a mark, MASTER_SEEN and RING_LOCKED fall, a pending step or slew is given up and SLEWING falls, and the time
stands. -/
def Obligations.LocusReadsAndRunsFree : Prop :=
  ∀ (s : State) (copy : Fin 3),
    (Completes .locusNowRead s fun d =>
      d.reg Adr.LOCUS_NOW_LO = s.dev.locus.next.setWidth 32 ∧
      d.reg Adr.LOCUS_NOW_HI = (s.dev.locus.next >>> 32).setWidth 32 ∧
      d = { s.dev with regs := d.regs } ∧ SameRegs s.dev d [Adr.LOCUS_NOW_LO, Adr.LOCUS_NOW_HI]) ∧
    (Completes (.locusCopyDisagree copy) s fun d =>
      d.locus.next = s.dev.locus.next ∧ d.locus.micros = s.dev.locus.micros ∧
      Tab.get (fun _ => 0) d.locus.disagreed copy.val = Tab.get (fun _ => 0) s.dev.locus.disagreed copy.val + 1 ∧
      d = { s.dev with locus := d.locus }) ∧
    (Completes .ringMarkTimeout s fun d =>
      d.bit Fld.RING_STATUS_MASTER_SEEN = false ∧ d.bit Fld.LOCUS_STATUS_RING_LOCKED = false ∧
      d.bit Fld.LOCUS_STATUS_SLEWING = false ∧ d.locus.stepTo = none ∧ d.locus.slewTo = none ∧
      d.locus.next = s.dev.locus.next ∧
      d = { s.dev with regs := d.regs, locus := d.locus } ∧ SameRegs s.dev d [Adr.RING_STATUS, Adr.LOCUS_STATUS])

/-! ## The Annulus ring and the TAP -/

/-- PRESENCE, MGMT and unlisted frames at a node. An inactive interface takes no notice. Otherwise a frame whose CRC fails sets
CRC_ERR and is counted; a frame whose SRC is the device's own serial number, or whose HOPS is 255, ends here; one whose DST is
the device's own is not forwarded, and joins the RX FIFO where its CRC holds and the FIFO has room; any other is forwarded,
HOPS incremented and its CRC recomputed, or complemented where it failed, and one for all nodes joins the RX FIFO besides. -/
def Obligations.RingFramesForwardedOrTaken : Prop :=
  ∀ (s : State) (f : RingFrame) (c : Instr), (c ∈ [.ringPresence f, .ringMgmt f] ∨ ∃ t, c = .ringUnknownFrame ⟨t, f⟩) →
    c.wellFormed = true →
    let own := s.dev.sec.dsn
    let ends := rfSrc f.bytes = own ∨ rfHops f.bytes = 255
    (s.dev.ringActive = false → exec c s = .next s) ∧
    (s.dev.ringActive = true → Completes c s fun d =>
      (f.crcOk = false → d.bit Fld.RING_STATUS_CRC_ERR = true ∧ d.reg (Adr.RING_CNT 3) = s.dev.counted (Adr.RING_CNT 3) 1 ∧
        d.ring.rx = s.dev.ring.rx) ∧
      (ends → d.ring.out = s.dev.ring.out ∧ d.ring.rx = s.dev.ring.rx) ∧
      (¬ends → rfDst f.bytes = own → d.ring.out = s.dev.ring.out ∧
        (f.crcOk = true → d.reg (Adr.RING_CNT 1) = s.dev.counted (Adr.RING_CNT 1) 1 ∧
          (s.dev.ring.rx.length < 16 → d.ring.rx = s.dev.ring.rx ++ [f.bytes]) ∧
          (16 ≤ s.dev.ring.rx.length → d.ring.rx = s.dev.ring.rx ∧ d.bit Fld.RING_STATUS_RX_LOST = true))) ∧
      (¬ends → rfDst f.bytes ≠ own →
        d.ring.out = ringCoded (f.bytes.set 1 (BitVec.ofNat 8 (rfHops f.bytes + 1))) f.crcOk :: s.dev.ring.out ∧
        d.reg (Adr.RING_CNT 0) = s.dev.counted (Adr.RING_CNT 0) 1 ∧
        (f.crcOk = true → rfDst f.bytes = ringAll → s.dev.ring.rx.length < 16 → d.ring.rx = s.dev.ring.rx ++ [f.bytes]) ∧
        (rfDst f.bytes ≠ ringAll → d.ring.rx = s.dev.ring.rx)) ∧
      d = { s.dev with regs := d.regs, ring := d.ring })

/-- A TIME_MARK for all nodes at an active node, its CRC good, not the device's own and not at its last hop: it is forwarded with
the residence time added to NS and carried into TICK and EPOCH; the node's position is HOPS + 1; MASTER_SEEN is set; with
RING_SYNC_EN, a mark ahead of local time makes Locus step to it at the next tick, and any other makes it slew towards the mark;
without it a pending step or slew is given up. -/
def Obligations.TimeMarkSetsLocus : Prop :=
  ∀ (s : State) (f : RingFrame) (residence : Nat), (Instr.ringTimeMark f residence).wellFormed = true →
    s.dev.ringActive = true → f.crcOk = true → rfSrc f.bytes ≠ s.dev.sec.dsn → rfHops f.bytes < 255 →
    rfDst f.bytes = ringAll → s.dev.sec.dsn ≠ ringAll →
    let mark : BitVec 38 := BitVec.ofNat 16 (fieldAt f.bytes 25 2) ++ BitVec.ofNat 22 (fieldAt f.bytes 22 3)
    Completes (.ringTimeMark f residence) s fun d =>
      d.ring.out = ringCoded (markAdd (f.bytes.set 1 (BitVec.ofNat 8 (rfHops f.bytes + 1))) residence) true
        :: s.dev.ring.out ∧
      d.fld Fld.RING_STATUS_POSITION = rfHops f.bytes + 1 ∧ d.bit Fld.RING_STATUS_MASTER_SEEN = true ∧
      d.reg (Adr.RING_CNT 4) = s.dev.counted (Adr.RING_CNT 4) 1 ∧ d.ring.markAt = s.dev.locus.micros ∧
      d.locus.time = s.dev.locus.time ∧
      (s.dev.bit Fld.LOCUS_CTRL_RING_SYNC_EN = true →
        (timeAhead mark s.dev.locus.time = true → d.locus.stepTo = some mark ∧ d.locus.slewTo = none) ∧
        (timeAhead mark s.dev.locus.time = false → d.locus.stepTo = none ∧
          d.locus.slewTo = (if mark = s.dev.locus.time then none else some mark) ∧
          d.bit Fld.LOCUS_STATUS_SLEWING = decide (mark ≠ s.dev.locus.time))) ∧
      (s.dev.bit Fld.LOCUS_CTRL_RING_SYNC_EN = false → d.locus.stepTo = none ∧ d.locus.slewTo = none ∧
        d.bit Fld.LOCUS_STATUS_SLEWING = false ∧ d.locus.next = s.dev.locus.next)

/-- The FIFOs, the line and the bypass. TX_PUSH on a full FIFO changes nothing; an active interface sends the frame of the TX
window, behind those that wait. RX_POP releases the oldest frame. FORCE_BYPASS changed to 1 by a writer who may
closes the bypass and turns the driver off; changed to 0 it lets the bypass open, upon which BYPASS is 0, TX_ON is 1 and PRESENCE goes out. PRESENCE goes out when its timer
asks. Synchronisation and its loss show in SYNC and SYNC_LOST. Each unanswered MGMT frame is queued again, at most 8 times.
CNT_CLR clears the ring's eight counters and nothing else. -/
def Obligations.RingFifosAndBypass : Prop :=
  ∀ (s : State) (w : Writer),
    (16 ≤ s.dev.ring.tx.length → exec .ringTxPush s = .next s) ∧
    (s.dev.ring.tx.length < 16 → s.dev.ringActive = false → Completes .ringTxPush s fun d =>
      ∃ l, d.ring = { s.dev.ring with tx := s.dev.ring.tx ++ [l] } ∧
        d.bit Fld.RING_STATUS_TX_FULL = decide (s.dev.ring.tx.length = 15) ∧
        d = { s.dev with regs := d.regs, ring := d.ring } ∧ SameRegs s.dev d [Adr.RING_STATUS]) ∧
    (s.dev.ring.tx = [] → s.dev.ringActive = true → Completes .ringTxPush s fun d =>
      ∃ l, d.ring = { s.dev.ring with out := ringCoded l true :: s.dev.ring.out } ∧
        d.reg (Adr.RING_CNT 2) = s.dev.counted (Adr.RING_CNT 2) 1) ∧
    (Completes .ringRxPop s fun d =>
      d.ring = { s.dev.ring with rx := s.dev.ring.rx.tail } ∧ d.fld Fld.RING_STATUS_RX_COUNT = s.dev.ring.rx.tail.length % 32 ∧
      d.reg (Adr.RING_RX_WIN 0) = frameWord (s.dev.ring.rx.tail.headD []) 0 ∧
      d = { s.dev with regs := d.regs, ring := d.ring } ∧
      SameRegs s.dev d (Adr.RING_STATUS :: (List.range 16).map Adr.RING_RX_WIN)) ∧
    (s.dev.mayWrite w = true → s.dev.bit Fld.RING_CTRL_FORCE_BYPASS = false → Completes (.ringForceBypass w true) s fun d =>
      d.bit Fld.RING_CTRL_FORCE_BYPASS = true ∧ d.bit Fld.RING_STATUS_BYPASS = true ∧ d.ringActive = false ∧
      d.ring.tx = s.dev.ring.tx ∧ d.ring.opening = false) ∧
    (s.dev.mayWrite w = true → s.dev.bit Fld.RING_CTRL_FORCE_BYPASS = true → Completes (.ringForceBypass w false) s fun d =>
      d.bit Fld.RING_CTRL_FORCE_BYPASS = false ∧ d.ring.opening = true ∧
      d.bit Fld.RING_STATUS_BYPASS = s.dev.bit Fld.RING_STATUS_BYPASS) ∧
    (s.dev.ring.opening = true → s.dev.ring.tx = [] → Completes .ringBypassOpen s fun d =>
      d.bit Fld.RING_STATUS_BYPASS = false ∧ d.ringActive = true ∧ d.ring.opening = false ∧
      ∃ l, d.ring.out = ringCoded l true :: s.dev.ring.out ∧ rfType l = 2 ∧ rfDst l = 0) ∧
    (s.dev.ring.opening = false → exec .ringBypassOpen s = .next s) ∧
    (s.dev.ringActive = true → s.dev.ring.tx = [] → Completes .presenceTimer s fun d =>
      ∃ l, d.ring.out = ringCoded l true :: s.dev.ring.out ∧ rfType l = 2 ∧ rfDst l = 0 ∧
        d = { s.dev with regs := d.regs, ring := d.ring }) ∧
    (s.dev.ringActive = false → Completes .presenceTimer s fun d =>
      d = { s.dev with ring := { s.dev.ring with presence := d.ring.presence } }) ∧
    (Completes .ringSync s fun d => d.bit Fld.RING_STATUS_SYNC = true ∧ d = { s.dev with regs := d.regs } ∧
      SameRegs s.dev d [Adr.RING_STATUS]) ∧
    (s.dev.bit Fld.RING_STATUS_SYNC = true → Completes .ringSyncLoss s fun d =>
      d.bit Fld.RING_STATUS_SYNC = false ∧ d.bit Fld.RING_STATUS_SYNC_LOST = true ∧
      d.reg (Adr.RING_CNT 5) = s.dev.counted (Adr.RING_CNT 5) 1 ∧ d = { s.dev with regs := d.regs } ∧
      SameRegs s.dev d [Adr.RING_STATUS, Adr.RING_CNT 5]) ∧
    (Completes .mgmtRetry s fun d =>
      d.ring.mgmt = (s.dev.ring.mgmt.filter fun e => e.2 < 8).map fun e => (e.1, e.2 + 1)) ∧
    (Completes .ringCntClr s fun d => (∀ k < 8, d.reg (Adr.RING_CNT k) = 0) ∧ d = { s.dev with regs := d.regs } ∧
      SameRegs s.dev d ((List.range 8).map Adr.RING_CNT))

/-- The TAP: RESET selects IDCODE; loading an instruction selects it; shifting IDCODE gives the bits of 0x1721_6d8b, least
significant first, then what was shifted in; BYPASS, HIGHZ and CLAMP delay TDI by one bit; EXTEST and SAMPLE shift in what
drives the pins. Nothing else of the block changes, but the free values drawn for the levels of the balls. -/
def Obligations.TapShifts : Prop :=
  ∀ (s : State) (i : TapInstr) (tdi : List Bool),
    (Completes (.boundaryScan .reset) s fun d => d.tap.instr = .idcode ∧ d = { s.dev with tap := d.tap }) ∧
    (Completes (.boundaryScan (.loadIr i)) s fun d => d.tap = { s.dev.tap with instr := i } ∧ d = { s.dev with tap := d.tap }) ∧
    (s.dev.tap.instr = .idcode → Completes (.boundaryScan (.shiftDr tdi)) s fun d =>
      d.tap.tdo.length = tdi.length ∧
      (∀ k, k < 32 → k < tdi.length → d.tap.tdo[k]? = some ((0x17216d8b : Nat).testBit k)) ∧
      (∀ k, k + 32 < tdi.length → d.tap.tdo[k + 32]? = tdi[k]?) ∧ d = { s.dev with tap := d.tap }) ∧
    (s.dev.tap.instr ∈ [.bypass, .highz, .clamp] → Completes (.boundaryScan (.shiftDr tdi)) s fun d =>
      d.tap.tdo.length = tdi.length ∧ (∀ k, k + 1 < tdi.length → d.tap.tdo[k + 1]? = tdi[k]?) ∧
      d = { s.dev with tap := d.tap }) ∧
    (s.dev.tap.instr ∈ [.extest, .sample] → Completes (.boundaryScan (.shiftDr tdi)) s fun d =>
      d.tap.cells = tdi ∧ d.tap.tdo.length = tdi.length ∧ d = { s.dev with tap := d.tap, free := d.free })

/-! ## Clocks, power domains, Facet, thermal, supply -/

/-- ROOT: when the active core loses lock while the other is locked and works, that one becomes active, SWITCHED and RETIRED
are set, the lost core's lock shows 0 and it does no more work, the loss is counted, and every live slice is armed to acquire
again; without another core the device is held in reset for want of its reference. A core without lock uses up one of its
retries. In PS0 to PS2 a running device's standby core that works locks again. A quadrant that fails is put with those that
failed, and does no more work; one that does none already changes nothing. -/
def Obligations.ClocksAndQuadrantsFailOver : Prop :=
  ∀ (s : State) (core : Fin 2) (q : Fin 4),
    let a := s.dev.fld Fld.CLK_STATUS_ACTIVE
    let b := 1 - a
    (s.dev.bit (lockField b) = true → s.dev.dead 12 b = false → Completes .rootLockLoss s fun d =>
      d.fld Fld.CLK_STATUS_ACTIVE = b ∧ d.bit Fld.CLK_STATUS_SWITCHED = true ∧ d.bit Fld.CLK_STATUS_RETIRED = true ∧
      d.bit (lockField a) = false ∧ d.dead 12 a = true ∧ d.reg (Adr.PWR_CNT 5) = s.dev.counted (Adr.PWR_CNT 5) 1 ∧
      ∀ n < 20, d.sliceLive n = true → (d.slice n).rejoinArmed = true) ∧
    (s.dev.bit (lockField b) = false → exec .rootLockLoss s = exec .referenceLoss s) ∧
    (s.dev.bit (lockField core.val) = false → Completes (.pllLockTimeout core) s fun d =>
      d.pwr.retries = (if core.val = 0 then (s.dev.pwr.retries.1 - 1, s.dev.pwr.retries.2)
        else (s.dev.pwr.retries.1, s.dev.pwr.retries.2 - 1)) ∧ d = { s.dev with pwr := d.pwr }) ∧
    (s.dev.bit (lockField core.val) = true → exec (.pllLockTimeout core) s = .next s) ∧
    (s.dev.ps < 3 → s.dev.dead 12 b = false → s.dev.pwr.held = false → s.dev.pwr.stuck = false →
      Completes .standbyCoreRelock s fun d => d.bit (lockField b) = true ∧ d = { s.dev with regs := d.regs } ∧
        SameRegs s.dev d [Adr.CLK_STATUS]) ∧
    (s.dev.dead 11 q.val = true → exec (.quadrantFail q) s = .next s) ∧
    (s.dev.dead 11 q.val = false → Completes (.quadrantFail q) s fun d =>
      d.pwr.quadrants = s.dev.pwr.quadrants ++ [q.val] ∧ d.dead 11 q.val = true)

/-- Power domains. A request for a domain that is fused off or whose unit does no work is counted, and no domain changes; one
for a domain that is off begins its ramp while fewer than four ramp, and waits, counted, while four do. A domain whose unit
holds work is not switched off: PD_REFUSED and LAST_REFUSED show it, and nothing else changes; one that nothing asks for goes
off. The end of a ramp shows the domain on, where the firmware or its unit still asks for it, is counted, and lets the first that waits
begin; a domain that its unit alone asks for comes on in the same way; any other end changes nothing. CNT_CLR clears the counters. -/
def Obligations.PowerDomainsRampAndHold : Prop :=
  ∀ (s : State) (pd : Domain),
    (s.dev.domainBarred pd.val = true → Completes (.pdRequest pd true) s fun d =>
      d.pwr = s.dev.pwr ∧ d.reg (Adr.PWR_CNT 1) = s.dev.counted (Adr.PWR_CNT 1) 1 ∧
      (∀ k < 96, d.domainOn k = s.dev.domainOn k)) ∧
    (s.dev.domainBarred pd.val = false → s.dev.domainOn pd.val = false → pd.val ∉ s.dev.pwr.ramping →
      pd.val ∉ s.dev.pwr.queue → Completes (.pdRequest pd true) s fun d =>
        d.maskBit (Fld.PWR_REQ_PD (pd.val / 32)) (pd.val % 32) = true ∧
        (s.dev.pwr.ramping.length < 4 → d.pwr = { s.dev.pwr with ramping := s.dev.pwr.ramping ++ [pd.val] }) ∧
        (4 ≤ s.dev.pwr.ramping.length → d.pwr.ramping = s.dev.pwr.ramping ∧ pd.val ∈ d.pwr.queue ∧
          d.reg (Adr.PWR_CNT 1) = s.dev.counted (Adr.PWR_CNT 1) 1)) ∧
    (s.dev.domainHolds pd.val = true → Completes (.pdRequest pd false) s fun d =>
      d.bit Fld.PWR_STATUS_PD_REFUSED = true ∧ d.fld Fld.PWR_STATUS_LAST_REFUSED = pd.val ∧
      d = { s.dev with regs := d.regs } ∧ SameRegs s.dev d [Adr.PWR_STATUS]) ∧
    (s.dev.domainHolds pd.val = false → s.dev.domainAsked pd.val = false → s.dev.domainOn pd.val = true →
      Completes (.pdRequest pd false) s fun d =>
        d.domainOn pd.val = false ∧ d.maskBit (Fld.PWR_REQ_PD (pd.val / 32)) (pd.val % 32) = false) ∧
    (pd.val ∈ s.dev.pwr.ramping → Completes (.pdPowerUpDone pd) s fun d =>
      d.maskBit (Fld.PWR_ON_PD (pd.val / 32)) (pd.val % 32) = true ∧ (s.dev.domainWanted pd.val = true → d.domainOn pd.val = true) ∧
      d.reg (Adr.PWR_CNT 0) = s.dev.counted (Adr.PWR_CNT 0) 1 ∧
      d.pwr.ramping = s.dev.pwr.ramping.filter (· != pd.val) ++ s.dev.pwr.queue.take 1 ∧
      d.pwr.queue = s.dev.pwr.queue.drop 1) ∧
    (pd.val ∉ s.dev.pwr.ramping → s.dev.rampsAsked pd.val = true → Completes (.pdPowerUpDone pd) s fun d =>
      d.domainOn pd.val = true ∧ d.reg (Adr.PWR_CNT 0) = s.dev.counted (Adr.PWR_CNT 0) 1 ∧ d.pwr = s.dev.pwr) ∧
    (pd.val ∉ s.dev.pwr.ramping → s.dev.rampsAsked pd.val = false → exec (.pdPowerUpDone pd) s = .next s) ∧
    (Completes .pwrCntClr s fun d => (∀ k < 8, d.reg (Adr.PWR_CNT k) = 0) ∧ d = { s.dev with regs := d.regs } ∧
      SameRegs s.dev d ((List.range 8).map Adr.PWR_CNT))

/-- The thermal monitor: each sensor shows its reading, and TJ the mean of the hottest readings of the last 100 samples. A
sensor that reads 105 °C at two samples in a row sets TRIP, counts it, and closes the write gates of both heads; otherwise
TRIP stands. TRIP is cleared, and the gates freed, only while every sensor reads 95 °C or less; otherwise nothing changes. -/
def Obligations.ThermalTripSetsAndClears : Prop :=
  ∀ (s : State) (temps : Vector (BitVec 16) 12) (copy : Option (Fin 2)),
    let v := temps.toList.map (·.toInt)
    let again := ((v.map fun t => decide (6720 ≤ t)).zip s.dev.pwr.hot).any fun e => e.1 && e.2
    let cool := (List.range 12).all fun k => decide (s.dev.sfld (Fld.MON_SENSOR_TEMP k) ≤ 6080)
    (Completes (.thermalSample ⟨temps, copy⟩) s fun d =>
      (∀ k : Fin 12, d.fld (Fld.MON_SENSOR_TEMP k) = temps[k].toNat) ∧
      d.pwr.window = (hottest v :: s.dev.pwr.window).take 100 ∧ d.pwr.hot = v.map (fun t => decide (6720 ≤ t)) ∧
      d.fld Fld.MON_THERM_TJ = codeOf 16 (windowMean d.pwr.window) % 2 ^ 16 ∧
      (again = false → d.bit Fld.MON_THERM_TRIP = s.dev.bit Fld.MON_THERM_TRIP ∧
        d = { s.dev.copyDisagrees copiesThermal copy with regs := d.regs, pwr := d.pwr }) ∧
      (again = true → s.dev.bit Fld.MON_THERM_TRIP = false → d.bit Fld.MON_THERM_TRIP = true ∧
        (d.wps 0).trip = true ∧ (d.wps 1).trip = true ∧ d.mot.spn.short = true ∧
        d.reg (Adr.PWR_CNT 4) = s.dev.counted (Adr.PWR_CNT 4) 1)) ∧
    (cool = true → Completes .tripClear s fun d => d.bit Fld.MON_THERM_TRIP = false ∧ (d.wps 0).trip = false ∧
      (d.wps 1).trip = false) ∧
    (cool = false → exec .tripClear s = .next s)

/-- The governor, every 10 ms in native mode: at 100 °C the first step caps iterations at 12, and the second, 1 s after the
first, caps turbo rounds at 2; after 10 s at or below 95 °C the last of these steps is undone. Each is counted. In KD mode,
and between the two temperatures, no step is taken. A speed step that has begun counts once it has taken effect, and until then
no other is taken. -/
def Obligations.GovernorStepsInOrder : Prop :=
  ∀ s : State, s.dev.pwr.govTarget = none →
    let tj := s.dev.sfld Fld.MON_THERM_TJ
    let step := s.dev.fld Fld.MON_THERM_GOV_STEP
    let next := s.dev.pwr.govNext
    (s.dev.mode ≠ 1 → exec .governorSample s = .next s) ∧
    (s.dev.mode = 1 → 6400 ≤ tj → step = 0 → next = none → Completes .governorSample s fun d =>
      d.fld Fld.DEC_CAP_ITER_CAP = 12 ∧ d.fld Fld.MON_THERM_GOV_STEP = 1 ∧ d.fld Fld.DEC_CAP_TURBO_CAP =
        s.dev.fld Fld.DEC_CAP_TURBO_CAP ∧ d.reg (Adr.PWR_CNT 2) = s.dev.counted (Adr.PWR_CNT 2) 1) ∧
    (s.dev.mode = 1 → 6400 ≤ tj → step = 1 → 99 ≤ s.dev.pwr.sinceStep → next = none → Completes .governorSample s fun d =>
      d.fld Fld.DEC_CAP_TURBO_CAP = 2 ∧ d.fld Fld.MON_THERM_GOV_STEP = 2 ∧ d.pwr.sinceStep = 0 ∧
      d.reg (Adr.PWR_CNT 2) = s.dev.counted (Adr.PWR_CNT 2) 1) ∧
    (s.dev.mode = 1 → tj ≤ 6080 → 999 ≤ s.dev.pwr.cool → step = 2 → next = none → Completes .governorSample s fun d =>
      d.fld Fld.DEC_CAP_TURBO_CAP = 8 ∧ d.fld Fld.MON_THERM_GOV_STEP = 1 ∧
      d.reg (Adr.PWR_CNT 3) = s.dev.counted (Adr.PWR_CNT 3) 1) ∧
    (s.dev.mode = 1 → tj ≤ 6080 → 999 ≤ s.dev.pwr.cool → step = 1 → next = none → Completes .governorSample s fun d =>
      d.fld Fld.DEC_CAP_ITER_CAP = 32 ∧ d.fld Fld.MON_THERM_GOV_STEP = 0 ∧
      d.reg (Adr.PWR_CNT 3) = s.dev.counted (Adr.PWR_CNT 3) 1) ∧
    (s.dev.mode = 1 → 6080 < tj → tj < 6400 → next = none → Completes .governorSample s fun d =>
      d.pwr.cool = 0 ∧ d = { s.dev with pwr := d.pwr }) ∧
    (s.dev.mode = 1 → next ≠ none → s.dev.stepSettled = false → Completes .governorSample s fun d =>
      d.pwr.govNext = next ∧ d = { s.dev with pwr := d.pwr }) ∧
    (∀ k code counter, s.dev.mode = 1 → next = some (k, code, counter) → s.dev.stepSettled = true →
      Completes .governorSample s fun d => d.pwr.govNext = none ∧ d.fld Fld.MON_THERM_GOV_STEP = k % 16 ∧ d.pwr.sinceStep = 0)

/-- The supply alarm: from its assertion, of a head's band write in progress exactly the slots not yet begun are cut, beside those
that were cut before, and a waiting band write stays where it is. Its release starts the 10 ms, at whose end the alarm is over; a release of no alarm, and
the end of 10 ms that did not begin, change nothing. -/
def Obligations.SupplyAlarmCutsWhatHasNotBegun : Prop :=
  ∀ s : State,
    (Completes .pwrFailAssert s fun d => d.pwr.failing = true ∧ d.pwr.risen = false ∧
      (∀ h < 2, (d.wps h).queue = (s.dev.wps h).queue ∧
        (d.wps h).run = (s.dev.wps h).run.map fun r =>
          { r with cut := (maskSlots r.job.mask).filter fun k => r.cut.contains k || !r.begun.contains k })) ∧
    (s.dev.pwr.failing = true → Completes .pwrFailDeassert s fun d =>
      d.pwr = { s.dev.pwr with risen := true } ∧ d = { s.dev with pwr := d.pwr }) ∧
    (s.dev.pwr.failing = false → exec .pwrFailDeassert s = .next s) ∧
    (s.dev.pwr.risen = true → s.dev.svc.reset = none → Completes .pwrFailResume s fun d =>
      d.pwr = { s.dev.pwr with failing := false, risen := false, parkDue := false } ∧ d = { s.dev with pwr := d.pwr }) ∧
    (s.dev.pwr.risen = false → exec .pwrFailResume s = .next s)

/-! ## Reset and start-up -/

/-- Resets: RESET_N, a brown-out, the loss of the reference and the loss of a memory channel in service each leave the device in
its reset state, with their cause shown; the reference, once restored, only shows as present; a channel out of service is no
loss. -/
def Obligations.ResetsLeaveTheResetState : Prop :=
  ∀ (s : State) (ch : Fin 2),
    (Completes .resetPin s fun d => ChipReset s.dev d ∧ d.bit Fld.RST_CAUSE_PIN = true) ∧
    (Completes .brownOut s fun d => ChipReset s.dev d ∧ d.bit Fld.RST_CAUSE_BROWNOUT = true) ∧
    (Completes .referenceLoss s fun d => ChipReset s.dev d ∧ d.bit Fld.RST_CAUSE_REF_LOSS = true ∧ d.pwr.refOk = false) ∧
    (s.dev.domainOn (75 + ch.val) = true → Completes (.memChannelLoss ch) s fun d =>
      d.bit Fld.RST_CAUSE_BROWNOUT = true ∧ d.pwr.held = true ∧ d.mem = {} ∧ d.sec.nonces = []) ∧
    (s.dev.domainOn (75 + ch.val) = false → exec (.memChannelLoss ch) s = .next s) ∧
    (Completes .referenceRestored s fun d => d = { s.dev with pwr := { s.dev.pwr with refOk := true } })

/-- Start-up. From a device held in reset with its reference present it ends in one of the ways of R431: no clock (stuck in step
2, with the straps held and SVC_ATN_N low), NO_START, the recovery ROM, or step 8; NO_START where a domain fails without
which none can start, the recovery ROM or NO_START where its strap asks for it. A device not held, or without reference, does
not start. Power-on and, from PS4, a wake over the sideband or the ring start it from the reset state with their cause. -/
def Obligations.StartUpEnds : Prop :=
  ∀ (s : State) (env : BootEnv),
    (s.dev.pwr.held = true → s.dev.pwr.refOk = true →
      (Completes (.resetDeassert env) s Started) ∧
      (env.core0 = false → env.core1 = false → Completes (.resetDeassert env) s fun d =>
        d.pwr.stuck = true ∧ d.pwr.attn = true ∧ d.pwr.held = false ∧
        d.bit Fld.BOOT_STATUS_STRAP_RECOVERY = env.recoveryN ∧ d.bit Fld.BOOT_STATUS_STRAP_KD_SEL = env.kdSelN ∧
        d.bit Fld.BOOT_STATUS_STRAP_SVC_CLK = env.svcClk ∧ d.bit Fld.SVC_CFG_UART = env.svcClk) ∧
      (env.core0 = true → bistFailed env 88 = true → Completes (.resetDeassert env) s fun d =>
        d.bit Fld.BOOT_STATUS_NO_START = true ∧ d.pwr.attn = true) ∧
      (env.core0 = true → env.recoveryN = false → Completes (.resetDeassert env) s fun d =>
        d.bit Fld.BOOT_STATUS_NO_START = true ∨ d.bit Fld.BOOT_STATUS_RECOVERY_ROM = true)) ∧
    (s.dev.pwr.held = false ∨ s.dev.pwr.refOk = false → exec (.resetDeassert env) s = .next s) ∧
    (Completes (.powerOn env) s Started ∧ ∃ r, ChipReset s.dev r ∧ r.reg Adr.RST_CAUSE = withField 0
        Fld.RST_CAUSE_POWER_ON.lo Fld.RST_CAUSE_POWER_ON.width 1 ∧
      exec (.powerOn env) s = exec (.resetDeassert env) { s with dev := r }) ∧
    (s.dev.ps = 4 → s.dev.pwr.refOk = true → Completes (.usb4SidebandWake env) s Started ∧
      ∃ r, ChipReset s.dev r ∧ r.bit Fld.RST_CAUSE_WAKE = true ∧
        exec (.usb4SidebandWake env) s = exec (.resetDeassert env) { s with dev := r }) ∧
    (s.dev.ps ≠ 4 → exec (.usb4SidebandWake env) s = .next s)

/-- A WAKE frame whose CRC holds, for the device or for all: heard through the closed bypass it is counted, and in PS4 starts the
device; at an active node in PS3 it is counted and returns the device to PS2; in other states it is only counted. -/
def Obligations.RingWakeWakes : Prop :=
  ∀ (s : State) (f : RingFrame) (env : BootEnv), (Instr.ringWake f env).wellFormed = true → f.crcOk = true →
    rfDst f.bytes = s.dev.sec.dsn ∨ rfDst f.bytes = ringAll →
    (s.dev.bit Fld.RING_STATUS_BYPASS = true →
      (s.dev.ps ≠ 4 → Completes (.ringWake f env) s fun d => d.reg (Adr.RING_CNT 7) = s.dev.counted (Adr.RING_CNT 7) 1 ∧
        d = { s.dev with regs := d.regs } ∧ SameRegs s.dev d [Adr.RING_CNT 7]) ∧
      (s.dev.ps = 4 → Completes (.ringWake f env) s Started)) ∧
    (s.dev.bit Fld.RING_STATUS_BYPASS = false → s.dev.ringActive = true → rfSrc f.bytes ≠ s.dev.sec.dsn →
      rfHops f.bytes ≠ 255 → Completes (.ringWake f env) s fun d =>
        d.reg (Adr.RING_CNT 7) = s.dev.counted (Adr.RING_CNT 7) 1 ∧
        d.ps = (if s.dev.ps = 3 then 2 else s.dev.ps))

/-! ## Facet and the sparing program -/

/-- Facet. EXT_REQ set where it is set already is no write. Otherwise, for a writer who may, an extended test is accepted by an
idle Facet in PS2: EXT_REQ, QUIESCED and BUSY are set; outside PS2 EXT_REFUSED is set in their place. A targeted test of a domain is taken by an idle Facet and by no other, and puts a unit
that is out in its cycle in TESTING. The end of an extended test without failures, once no command is in flight, clears
EXT_REQ, QUIESCED and BUSY, sets PASS, and shows the signature of the last domain and no failure of a tested one. An end of
no test changes nothing. -/
def Obligations.FacetTestsRunAndEnd : Prop :=
  ∀ (s : State) (w : Writer) (pd : BitVec 7) (results : List FacetResult),
    (s.dev.bit Fld.FACET_CTRL_EXT_REQ = true → exec (.facetExtReq w) s = .next s) ∧
    (s.dev.bit Fld.FACET_CTRL_EXT_REQ = false → s.dev.mayWrite w = true → s.dev.ps = 2 →
      s.dev.bit Fld.FACET_STATUS_BUSY = false → Completes (.facetExtReq w) s fun d =>
        d.bit Fld.FACET_CTRL_EXT_REQ = true ∧ d.bit Fld.HQ_STATUS_QUIESCED = true ∧ d.bit Fld.FACET_STATUS_BUSY = true ∧ d.pwr.test = some .extended) ∧
    (s.dev.bit Fld.FACET_CTRL_EXT_REQ = false → s.dev.mayWrite w = true → s.dev.ps ≠ 2 →
      Completes (.facetExtReq w) s fun d => d.bit Fld.FACET_STATUS_EXT_REFUSED = true ∧ d.pwr = s.dev.pwr ∧
        d.bit Fld.FACET_CTRL_EXT_REQ = false) ∧
    (pd.toNat < 96 → s.dev.bit Fld.FACET_STATUS_BUSY = false → Completes (.facetTgtGo pd) s fun d =>
      d.bit Fld.FACET_STATUS_BUSY = true ∧ d.pwr.test = some (.domain pd.toNat) ∧
      (∀ y, s.dev.spr.cycle = some y → unitDomain y.cls y.unit = some pd.toNat → s.dev.unit y.cls y.unit = .out →
        d.unit y.cls y.unit = .testing)) ∧
    (pd.toNat < 96 → s.dev.bit Fld.FACET_STATUS_BUSY = true → exec (.facetTgtGo pd) s = .next s) ∧
    (s.dev.pwr.test = some .extended → s.dev.host.cmds = [] → results.all facetPasses = true →
      Completes (.facetTestDone results) s fun d => d.bit Fld.FACET_CTRL_EXT_REQ = false ∧
        d.bit Fld.HQ_STATUS_QUIESCED = false ∧ d.bit Fld.FACET_STATUS_BUSY = false ∧ d.bit Fld.FACET_STATUS_PASS = true ∧
        d.pwr.test = none ∧
        (∀ r ∈ results, d.maskBit (Fld.FACET_FAIL_VALUE (r.pd.val / 32)) (r.pd.val % 32) = false) ∧
        (∀ r, results.getLast? = some r →
          d.fld Fld.FACET_MISR_LO_VALUE + 2 ^ 32 * d.fld Fld.FACET_MISR_HI_VALUE = (misrOf r.responses).toNat)) ∧
    (s.dev.pwr.test = none → exec (.facetTestDone results) s = .next s)

/-- Service cycles. Under ROTATE the first unit after the last rotated one that may leave service begins its cycle, DRAINING;
under RESERVE the rotation timer changes nothing, and a spare unit that may does so by the test timer. A drained unit is OUT,
or LOADING where it carries an update; a unit that still holds work drains on. A loaded image whose CRC checks starts the
unit's targeted test. -/
def Obligations.ServiceCyclesAdvance : Prop :=
  ∀ (s : State) (cls : Fin 16) (unit : Nat) (crcOk : Bool),
    (s.dev.fld Fld.SPR_POLICY_POLICY = 0 → exec .rotationTimer s = .next s) ∧
    (s.dev.fld Fld.SPR_POLICY_POLICY ≠ 0 →
      ∀ t, ((turnsAfter s.dev.spr.lastUnit).find? fun t => s.dev.cycleMay t.2.1 t.2.2) = some t →
        Completes .rotationTimer s fun d => d.unit t.2.1 t.2.2 = .draining ∧ d.bit Fld.SPR_OUT_ACTIVE = true ∧
          d.spr.cycle = some { cls := t.2.1, unit := t.2.2 } ∧ d.spr.lastUnit = t.1 + 1) ∧
    (s.dev.fld Fld.SPR_POLICY_POLICY = 0 → 3 ≤ cls.val → cls.val ≤ 8 → unit < classUnits cls.val →
      s.dev.unit cls.val unit = .spare → s.dev.cycleMay cls.val unit = true →
      Completes (.reserveTestTimer cls unit) s fun d => d.unit cls.val unit = .draining ∧
        d.spr.cycle = some { cls := cls.val, unit := unit }) ∧
    (s.dev.fld Fld.SPR_POLICY_POLICY ≠ 0 → exec (.reserveTestTimer cls unit) s = .next s) ∧
    (∀ y, s.dev.spr.cycle = some y → s.dev.unit y.cls y.unit = .draining →
      (s.dev.drained y.cls y.unit = true → Completes .drainDone s fun d =>
        d.unit y.cls y.unit = (if y.update then .loading else .out) ∧ d.spr.cycle = some y) ∧
      (s.dev.drained y.cls y.unit = false → exec .drainDone s = .next s)) ∧
    (∀ y pd, s.dev.spr.cycle = some y → s.dev.unit y.cls y.unit = .loading → unitDomain y.cls y.unit = some pd →
      s.dev.bit Fld.FACET_STATUS_BUSY = false →
      (crcOk = true → Completes (.unitLoadDone crcOk) s fun d => d.unit y.cls y.unit = .testing ∧
        d.pwr.test = some (.domain pd) ∧ d.bit Fld.FACET_STATUS_BUSY = true) ∧
      (crcOk = false → exec (.unitLoadDone crcOk) s = .next s))

/-- The ends of a service cycle. A passed test of the unit in its cycle ends the cycle, counted, with PASS set; a failed one
retires the unit. A class that needs its unit back abandons its cycle, counted. A test that is not in progress, and a class
whose unit is not in its cycle, change nothing. CNT_CLR clears the counters. -/
def Obligations.ServiceCyclesEnd : Prop :=
  ∀ (s : State) (cls : Fin 16) (pass : Bool),
    (∀ y pd, s.dev.spr.cycle = some y → y.update = false → s.dev.pwr.test = some (.domain pd) →
      unitDomain y.cls y.unit = some pd → s.dev.unit y.cls y.unit = .testing →
      (pass = true → Completes (.targetedTestDone pass) s fun d => d.spr.cycle = none ∧ d.bit Fld.FACET_STATUS_PASS = true ∧
        d.bit Fld.FACET_STATUS_BUSY = false ∧ d.reg (Adr.SPR_CNT 4) = s.dev.counted (Adr.SPR_CNT 4) 1) ∧
      (pass = false → Completes (.targetedTestDone pass) s fun d => d.spr.cycle = none ∧ d.unit y.cls y.unit = .retired ∧
        d.bit Fld.FACET_STATUS_FAIL = true ∧ d.reg (Adr.SPR_CNT 1) = s.dev.counted (Adr.SPR_CNT 1) 1)) ∧
    (s.dev.pwr.test = none → exec (.targetedTestDone pass) s = .next s) ∧
    (∀ y, s.dev.spr.cycle = some y → y.cls = cls.val → s.dev.spr.policyNext = none →
      s.dev.unit y.cls y.unit ≠ .draining ∨ s.dev.drained y.cls y.unit = true → Completes (.unitReclaim cls) s fun d => d.spr.cycle = none ∧ d.unit y.cls y.unit = .spare ∧
        d.reg (Adr.SPR_CNT 5) = s.dev.counted (Adr.SPR_CNT 5) 1) ∧
    (s.dev.spr.cycle = none → exec (.unitReclaim cls) s = .next s) ∧
    (Completes .sprCntClr s fun d => (∀ k < 8, d.reg (Adr.SPR_CNT k) = 0) ∧ d = { s.dev with regs := d.regs } ∧
      SameRegs s.dev d ((List.range 8).map Adr.SPR_CNT))

/-- Planned hand-offs. A write of GO that breaks the rule of the class it names, names another class, or comes while BUSY is 1 is
refused: REFUSED is set and counted, and nothing else changes. Otherwise BUSY is set with the fields of the write, and a
slice's hand-off waits for the next wedge field, a Lattice unit's for the passes that its head has still to run, and a
processor's for its tasks' checkpoints. The hand-off of a processor whose tasks have all moved sets DONE, gives OUT the role
Off and IN the role Active, and posts its event; before that its end changes nothing. -/
def Obligations.HandoffsGoOrAreRefused : Prop :=
  ∀ (s : State) (v : Word) (c : Instr), c ∈ [.sliceHandoff v, .latticeHandoff v, .spanHandoff v] →
    let cls := fieldOf v 0 4
    let out := fieldOf v 16 8
    let inn := fieldOf v 8 8
    let rule := ((cls = 3 ∨ cls = 4) ∧ s.dev.sliceRule cls out inn = true) ∨ (cls = 5 ∧ s.dev.latticeRule out inn = true) ∨
      (cls = 8 ∧ s.dev.spanRule out inn = true)
    (fieldOf v 31 1 = 1 → (s.dev.bit Fld.SPR_HANDOFF_BUSY = true ∨ ¬rule) → Completes c s fun d =>
      d.bit Fld.SPR_HANDOFF_REFUSED = true ∧ d.reg (Adr.SPR_CNT 3) = s.dev.counted (Adr.SPR_CNT 3) 1 ∧
      d = { s.dev with regs := d.regs } ∧ SameRegs s.dev d [Adr.SPR_HANDOFF, Adr.SPR_CNT 3]) ∧
    (fieldOf v 31 1 = 1 → s.dev.bit Fld.SPR_HANDOFF_BUSY = false → rule →
      (cls = 5 → (s.dev.dh (s.dev.fld (Fld.LAT_CTRL_HEAD out))).passes ≠ []) → Completes c s fun d =>
        d.bit Fld.SPR_HANDOFF_BUSY = true ∧ d.fld Fld.SPR_HANDOFF_CLASS = cls ∧ d.fld Fld.SPR_HANDOFF_OUT = out ∧
        d.fld Fld.SPR_HANDOFF_IN = inn ∧
        (cls = 3 ∨ cls = 4 → (d.head (cls - 3)).handoff = some (10 * (cls - 3) + out, 10 * (cls - 3) + inn)) ∧
        (cls = 5 → (d.dh (s.dev.fld (Fld.LAT_CTRL_HEAD out))).handoff = some (inn, out)) ∧
        (cls = 8 → ∀ t ∈ s.dev.tasksOf out, (d.task t).ckpt.isSome = true)) ∧
    (s.dev.handingOff (s.dev.fld Fld.SPR_HANDOFF_OUT) = true → s.dev.tasksOf (s.dev.fld Fld.SPR_HANDOFF_OUT) = [] →
      s.dev.fld Fld.SPR_HANDOFF_OUT < 12 → s.dev.fld Fld.SPR_HANDOFF_IN < 12 →
      s.dev.fld Fld.SPR_HANDOFF_OUT ≠ s.dev.fld Fld.SPR_HANDOFF_IN → Completes .spanHandoffDone s fun d =>
        d.bit Fld.SPR_HANDOFF_DONE = true ∧ d.bit Fld.SPR_HANDOFF_BUSY = false ∧
        d.fld (Fld.SPP_CTRL_ROLE (s.dev.fld Fld.SPR_HANDOFF_OUT)) = 0 ∧
        d.fld (Fld.SPP_CTRL_ROLE (s.dev.fld Fld.SPR_HANDOFF_IN)) = 1 ∧
        d.reg (Adr.SPR_CNT 2) = s.dev.counted (Adr.SPR_CNT 2) 1 ∧ d.log.length = s.dev.log.length + 1) ∧
    (s.dev.handingOff (s.dev.fld Fld.SPR_HANDOFF_OUT) = false → exec .spanHandoffDone s = .next s)

/-! ## Read channel slices -/

/-- A slice's controls. MODE is taken where R65 accepts it, and a slice that leaves Off arms a cold acquisition; otherwise the
write changes nothing. BEAM is taken for a beam 0 to 9 other than the present one that no other Data-mode slice has with
this one in Data mode, while up to the next wedge field the slice goes on with the old beam; otherwise the write changes nothing. COLD
arms a cold acquisition. CNT_CLR clears the slice's eight counters. The end of a rejoin whose groups are over leaves LOCKED to the
next resync field; any other rejoin goes on. A slice that the fuses disable takes none of these. -/
def Obligations.SliceControlsTakeOrDiscard : Prop :=
  ∀ (s : State) (n : Slice) (mode : BitVec 2) (beam : BitVec 4),
    (s.dev.hasHead (headOfSlice n) = false → ∀ c ∈ [Instr.sliceSetMode n mode, .sliceSetBeam n beam, .sliceCold n,
      .sliceCntClr n, .rejoinEnd n, .sliceSelfCheckFault n], exec c s = .next s) ∧
    (s.dev.hasHead (headOfSlice n) = true →
      (s.dev.sliceModeOk n mode.toNat = true → Completes (.sliceSetMode n mode) s fun d => d.sliceMode n = mode.toNat ∧
        (s.dev.sliceMode n = 0 → mode ≠ 0 → (d.slice n).coldArmed = true) ∧
        (mode = 0 → d.bit (Fld.CHN_STATUS_LOCKED n) = false) ∧ ∀ m : Slice, m ≠ n → d.sliceMode m = s.dev.sliceMode m) ∧
      (s.dev.sliceModeOk n mode.toNat = false → exec (.sliceSetMode n mode) s = .next s) ∧
      (beam.toNat < 10 → beam.toNat ≠ s.dev.fld (Fld.CHN_CTRL_BEAM n) →
        ¬(s.dev.sliceMode n = 1 ∧ s.dev.beamTaken n beam.toNat = true) → Completes (.sliceSetBeam n beam) s fun d =>
          d.fld (Fld.CHN_CTRL_BEAM n) = beam.toNat ∧
          (s.dev.sliceBeam n < 10 → d.sliceBeam n = s.dev.sliceBeam n) ∧
          d = { s.dev with regs := d.regs, slices := d.slices } ∧ SameRegs s.dev d [Adr.CHN_CTRL n]) ∧
      (10 ≤ beam.toNat ∨ beam.toNat = s.dev.fld (Fld.CHN_CTRL_BEAM n) ∨ (s.dev.sliceMode n = 1 ∧ s.dev.beamTaken n beam.toNat = true) →
        exec (.sliceSetBeam n beam) s = .next s) ∧
      (Completes (.sliceCold n) s fun d => (d.slice n).coldArmed = true ∧ d = { s.dev with slices := d.slices } ∧
        ∀ m, m ≠ n.val → d.slice m = s.dev.slice m) ∧
      (Completes (.sliceCntClr n) s fun d => (∀ k < 8, d.reg (Adr.CHN_CNT n k) = 0) ∧ d = { s.dev with regs := d.regs } ∧
        SameRegs s.dev d ((List.range 8).map (Adr.CHN_CNT n))) ∧
      (Completes (.rejoinEnd n) s fun d =>
        ((s.dev.slice n).rejoining = some 0 → (d.slice n).rejoining = none ∧ (d.slice n).rejoinDone = true) ∧
        ((s.dev.slice n).rejoining ≠ some 0 → d.slice n = s.dev.slice n) ∧
        d = { s.dev with slices := d.slices } ∧ ∀ m, m ≠ n.val → d.slice m = s.dev.slice m))

/-- Staging a zone: a zone above 47 leaves ZONE_NEXT as it is; any other value is stored, a divider below 33 sets INVALID_DIV,
and ZONE_READY shows whether VALID is set and the divider lies in its range. No other slice is touched. -/
def Obligations.ZoneStagingChecksDivider : Prop :=
  ∀ (s : State) (n : Slice) (v : Word), s.dev.hasHead (headOfSlice n) = true →
    (47 < fieldOf v 24 6 → Completes (.sliceZoneStage n v) s fun d => d.reg (Adr.CHN_ZONE_NEXT n) = s.dev.reg (Adr.CHN_ZONE_NEXT n) ∧
      d = { s.dev with regs := d.regs } ∧ SameRegs s.dev d [Adr.WP_STATUS (n.val / 10)]) ∧
    (fieldOf v 24 6 ≤ 47 → Completes (.sliceZoneStage n v) s fun d => d.reg (Adr.CHN_ZONE_NEXT n) = v ∧
      (fieldOf v 16 8 < 33 → d.bit (Fld.CHN_STATUS_INVALID_DIV n) = true) ∧
      d.bit (Fld.CHN_STATUS_ZONE_READY n) = (decide (fieldOf v 31 1 ≠ 0) && decide (33 ≤ fieldOf v 16 8)) ∧
      d = { s.dev with regs := d.regs } ∧
      SameRegs s.dev d [Adr.CHN_ZONE_NEXT n, Adr.CHN_STATUS n, Adr.WP_STATUS (n.val / 10)])

/-- The end of a 32-bit group. A slice in Off mode takes no notice. Of any other, f stays within ±2^-5; with AGC_HOLD the gain
stands; in a clean group (inside the envelope limits, no erasure, not blank) without AGC_HOLD, outside a cold acquisition and while
the head writes nothing, the gain moves by the AGC's step; and after DEF_ON + 1 groups outside the limits DEFECT rises, counted, and shows to the head for a Data-mode slice,
with the gain held. No other slice changes. -/
def Obligations.GroupEndRunsAgcAndDefects : Prop :=
  ∀ (s : State) (n : Slice) (g : GroupSamples), s.dev.hasHead (headOfSlice n) = true →
    let sl := s.dev.slice n
    let ref := if sl.envRef = 0 then g.envelope * 8192 else sl.envRef
    let inside := s.dev.fld (Fld.CHN_DEF_CFG_ENV_LO n) * ref ≤ 32 * 8192 * g.envelope ∧
      32 * 8192 * g.envelope ≤ s.dev.fld (Fld.CHN_DEF_CFG_ENV_HI n) * ref
    let gain := s.dev.fld (Fld.CHN_MON_GAIN n)
    let codes := g.adc.toList.map BitVec.toInt
    (s.dev.sliceMode n = 0 → exec (.sliceGroupEnd n g) s = .next s) ∧
    (s.dev.sliceMode n ≠ 0 → Completes (.sliceGroupEnd n g) s fun d =>
      (d.slice n).f.natAbs ≤ 32768 ∧ (d.slice n).groupNow = sl.groupNow + 1 ∧
      (s.dev.bit (Fld.CHN_AGC_CFG_AGC_HOLD n) = true → d.fld (Fld.CHN_MON_GAIN n) = gain) ∧
      (inside → s.dev.bit (Fld.CHN_STATUS_DEFECT n) = false → sl.rejoins = false → sl.rejoinArmed = false → sl.rejoinNext = false →
        sl.missErase = false →
        sl.postLeft = 0 → sl.coldRun = false → s.dev.writing (n.val / 10) = false →
        blankCodes (s.dev.fld (Fld.CHN_DEF_CFG2_BLANK_THR n)) g.envelope gain codes = false →
        s.dev.bit (Fld.CHN_AGC_CFG_AGC_HOLD n) = false →
        d.fld (Fld.CHN_MON_GAIN n) = agcStep gain (s.dev.fld (Fld.CHN_AGC_CFG_TARGET n)) (s.dev.fld (Fld.CHN_AGC_CFG_AGC_K n)) codes ∧
        d.bit (Fld.CHN_STATUS_DEFECT n) = false) ∧
      (¬inside → s.dev.bit (Fld.CHN_STATUS_DEFECT n) = false → s.dev.fld (Fld.CHN_DEF_CFG_DEF_ON n) ≤ sl.badRun →
        d.bit (Fld.CHN_STATUS_DEFECT n) = true ∧ d.reg (Adr.CHN_CNT n 5) = s.dev.counted (Adr.CHN_CNT n 5) 1 ∧
        d.fld (Fld.CHN_MON_GAIN n) = gain ∧
        (s.dev.sliceMode n = 1 → s.dev.sliceBeam n < 10 →
          d.maskBit (Fld.SRV_DEFECT_MASK (n.val / 10)) (s.dev.sliceBeam n) = true)) ∧
      (∀ m, m ≠ n.val → d.slice m = s.dev.slice m) ∧
      d = { s.dev with regs := d.regs, slices := d.slices, log := d.log, locus := d.locus })

/-- Preambles and sync marks. At a preamble an armed cold acquisition runs, but for that of a Data-mode slice while its head writes; any other
preamble changes nothing. The search, over the decisions that the slice's line holds around the mark expected, accepts HARD exactly where some offset within WIN lies within THR of the mark, and then takes
an offset of least distance; SOFT and NOMINAL set SYNC_FALLBACK; each class is counted. After a cold acquisition LOCKED
rises on HARD or SOFT, and ACQ_FAIL is set, counted, on NOMINAL. -/
def Obligations.SyncSearchAcceptsByDistance : Prop :=
  ∀ (s : State) (n : Slice) (p : PreambleRecord), s.dev.hasHead (headOfSlice n) = true →
    let offs := syncOffsets (min (s.dev.fld (Fld.CHN_SYNC_CFG_WIN n)) 8)
    let thr := s.dev.fld (Fld.CHN_SYNC_CFG_THR n)
    let cold := (s.dev.slice n).coldRun
    let w := s.dev.syncWindow n (s.dev.syncSlot n)
    (s.dev.sliceMode n ≠ 0 → (s.dev.slice n).coldArmed = true → s.dev.heldByWrite n = false →
      Completes (.framePreamble n p) s fun d => (d.slice n).coldRun = true ∧ (d.slice n).coldArmed = false ∧
        (∀ m, m ≠ n.val → d.slice m = s.dev.slice m) ∧
        d = { s.dev with regs := d.regs, slices := d.slices } ∧ SameRegs s.dev d [Adr.CHN_MON n]) ∧
    ((s.dev.slice n).coldArmed = false ∨ s.dev.heldByWrite n = true → exec (.framePreamble n p) s = .next s) ∧
    (s.dev.sliceMode n = 0 → exec (.framePreamble n p) s = .next s ∧ exec (.syncMarkSearch n ()) s = .next s) ∧
    (s.dev.sliceLive n = true → Completes (.syncMarkSearch n ()) s fun d =>
      ((d.slice n).sync = .hard ↔ ∃ k ∈ offs, syncDistance w k ≤ thr) ∧
      ((d.slice n).sync = .hard → (d.slice n).syncOff ∈ offs ∧ ∀ k ∈ offs, syncDistance w (d.slice n).syncOff ≤ syncDistance w k) ∧
      ((d.slice n).sync = .hard → d.reg (Adr.CHN_CNT n 0) = s.dev.counted (Adr.CHN_CNT n 0) 1) ∧
      ((d.slice n).sync = .soft → d.reg (Adr.CHN_CNT n 1) = s.dev.counted (Adr.CHN_CNT n 1) 1) ∧
      ((d.slice n).sync = .nominal → d.reg (Adr.CHN_CNT n 2) = s.dev.counted (Adr.CHN_CNT n 2) 1 ∧ (d.slice n).syncOff = 0) ∧
      ((d.slice n).sync ≠ .hard → d.bit (Fld.CHN_STATUS_SYNC_FALLBACK n) = true) ∧
      (cold = true → (d.slice n).sync ≠ .nominal → d.bit (Fld.CHN_STATUS_LOCKED n) = true) ∧
      (cold = true → (d.slice n).sync = .nominal → d.bit (Fld.CHN_STATUS_LOCKED n) = false ∧
        d.bit (Fld.CHN_STATUS_ACQ_FAIL n) = true ∧ d.reg (Adr.CHN_CNT n 7) = s.dev.counted (Adr.CHN_CNT n 7) 1) ∧
      (d.slice n).coldRun = false ∧ d = { s.dev with regs := d.regs, slices := d.slices })

/-! ## Servo, wedges and write paths -/

/-- Beam maps and servo ticks. A map that R167 accepts is staged for the next wedge field, and the map in force stands; any other
sets MAP_REFUSED and nothing else; in KD mode the write is discarded. A tick of a head whose front end is on holds its
conversions and, without a mark or light at its monitors, finds no beam stuck on. A wedge field commits the map that waits, counted, and
holds its index; without focus, or in KD mode, a head sees none. A slice whose self-check fails is retired and goes to
Off. CNT_CLR clears the head's counters. -/
def Obligations.MapsCommitAtWedgeFields : Prop :=
  ∀ (s : State) (h : Head) (v : Word) (m : ServoSamples) (w : WedgeRecord) (n : Slice),
    (s.dev.hasHead h = true → s.dev.mode ≠ 2 → mapOk v = true → Completes (.beamMapWrite h v) s fun d =>
      (d.head h.ix).mapNext = some v ∧ d.reg (Adr.SRV_BEAM_MAP h.ix) = v ∧ d.bit (Fld.SRV_STATUS_COMMIT_PENDING h.ix) = true ∧
      d = { s.dev with regs := d.regs, heads := d.heads } ∧ SameRegs s.dev d [Adr.SRV_BEAM_MAP h.ix, Adr.SRV_STATUS h.ix]) ∧
    (s.dev.hasHead h = true → s.dev.mode ≠ 2 → mapOk v = false → Completes (.beamMapWrite h v) s fun d =>
      d.bit (Fld.SRV_STATUS_MAP_REFUSED h.ix) = true ∧ d = { s.dev with regs := d.regs } ∧
      SameRegs s.dev d [Adr.SRV_STATUS h.ix]) ∧
    (s.dev.hasHead h = false ∨ s.dev.mode = 2 → exec (.beamMapWrite h v) s = .next s) ∧
    (s.dev.hasHead h = true → s.dev.bit (Fld.SRV_CTRL_AFE_ON h.ix) = true → s.dev.mode ≠ 2 ∨ h = .a → Completes (.servoTick h m) s fun d =>
      (d.head h.ix).spd = m.spd.toList ∧ (d.head h.ix).ticks = (s.dev.head h.ix).ticks + 1 ∧
      ((∀ b : Fin 10, m.mon[b].mark = 0 ∧ m.mon[b].lo = 0) →
        (d.wps h.ix).stuck = (s.dev.wps h.ix).stuck)) ∧
    (s.dev.hasHead h = false ∨ s.dev.bit (Fld.SRV_CTRL_AFE_ON h.ix) = false ∨ (s.dev.mode = 2 ∧ h = .b) → exec (.servoTick h m) s = .next s) ∧
    (s.dev.hasHead h = true → s.dev.mode ≠ 2 → (s.dev.head h.ix).captured = true →
      Completes (.wedgeField h w) s fun d => (d.head h.ix).wedge = w.index.val ∧
        ((s.dev.head h.ix).mapNext.isSome = true → d.reg (Adr.SRV_CNT h.ix 1) = s.dev.counted (Adr.SRV_CNT h.ix 1) 1)) ∧
    (s.dev.hasHead h = false ∨ s.dev.mode = 2 ∨ (s.dev.head h.ix).captured = false →
      exec (.wedgeField h w) s = .next s) ∧
    (s.dev.hasHead (headOfSlice n) = true → s.dev.mode ≠ 2 → s.dev.dead (sliceClass n) (sliceUnit n) = false →
      Completes (.sliceSelfCheckFault n) s fun d => d.dead (sliceClass n) (sliceUnit n) = true ∧ d.sliceMode n = 0) ∧
    (s.dev.hasHead h = true → Completes (.srvCntClr h) s fun d => (∀ k < 8, d.reg (Adr.SRV_CNT h.ix k) = 0) ∧
      d = { s.dev with regs := d.regs } ∧ SameRegs s.dev d ((List.range 8).map (Adr.SRV_CNT h.ix)))

/-- Focus and motion. A capture that counts enough crossings and settles leaves the head captured on the layer and the band of
its first address, counted; one that fails leaves FOCUS_FAIL; in KD mode it leaves head A on a disc that is present; above 1,800 rpm none is made. A captured head whose mapped
beams are all in defect loses focus, counted, and one with a beam left does not. A jump to the adjacent layer lands there,
counted, or loses focus; there is none beyond layers 0 and 7. A seek is aimed at its band, on which the head does not lie before it
lands. -/
def Obligations.HeadsCaptureJumpAndSeek : Prop :=
  ∀ (s : State) (h : Head) (layer : Fin 8) (r : CaptureRecord) (up landed : Bool) (band : Nat) (off : Unit),
    s.dev.hasHead h = true →
    let hd := s.dev.head h.ix
    let found := (8 - layer.val ≤ r.first ∨ 8 - layer.val ≤ r.second) ∧ r.quiet = true
    (s.dev.mode = 1 → s.dev.rpm ≤ 1800 → found → Completes (.focusCapture h layer r) s fun d =>
      (d.head h.ix).captured = true ∧ (d.head h.ix).layer = r.layer.val ∧ (d.head h.ix).band = r.track / 8 ∧
      d.medium.present = true ∧ d.reg (Adr.SRV_CNT h.ix 2) = s.dev.counted (Adr.SRV_CNT h.ix 2) 1) ∧
    (s.dev.mode = 1 → s.dev.rpm ≤ 1800 → ¬found → Completes (.focusCapture h layer r) s fun d =>
      (d.head h.ix).captured = false ∧ d.bit (Fld.SRV_STATUS_FOCUS_FAIL h.ix) = true) ∧
    (∀ m, s.dev.mode = 2 → s.dev.rpm ≤ 1800 → h = .a → r.kd = some m → r.quiet = true → Completes (.focusCapture h layer r) s fun d =>
      (d.head 0).captured = true ∧ d.kd.present = true ∧ d.reg (Adr.SRV_CNT 0 2) = s.dev.counted (Adr.SRV_CNT 0 2) 1) ∧
    (1800 < s.dev.rpm → exec (.focusCapture h layer r) s = .next s) ∧
    (s.dev.allDefect h.ix = true → Completes (.focusLost h) s fun d => (d.head h.ix).captured = false ∧
      d.reg (Adr.SRV_CNT h.ix 3) = s.dev.counted (Adr.SRV_CNT h.ix 3) 1) ∧
    (s.dev.allDefect h.ix = false → exec (.focusLost h) s = .next s) ∧
    (hd.captured = true → (if up then hd.layer < 7 else 0 < hd.layer) → hd.layer ≤ 7 → Completes (.layerJump h up landed) s fun d =>
      d.reg (Adr.SRV_CNT h.ix 4) = s.dev.counted (Adr.SRV_CNT h.ix 4) 1 ∧
      (landed = true → (d.head h.ix).captured = true ∧ (d.head h.ix).layer = (if up then hd.layer + 1 else hd.layer - 1)) ∧
      (landed = false → (d.head h.ix).captured = false)) ∧
    ((up = true ∧ hd.layer = 7) ∨ (up = false ∧ hd.layer = 0) ∨ hd.captured = false →
      exec (.layerJump h up landed) s = .next s) ∧
    (hd.captured = true → band ≤ leadBand → Completes (.seek h band off) s fun d =>
      (d.head h.ix).seek = some { target := band, kind := seekKind hd.band band } ∧ (d.head h.ix).captured = true ∧
      (d.head h.ix).band = hd.band ∧ d.reg (Adr.SRV_CNT h.ix 6) = s.dev.reg (Adr.SRV_CNT h.ix 6)) ∧
    (hd.captured = false ∨ leadBand < band → exec (.seek h band off) s = .next s)

/-- Write paths. An OPC run starts in a PCA band on an idle path, and is a band write of its own for the laser faults, or sets
OPC_REFUSED and nothing else; its end, once its steps have been read back, sets OPC_DONE and is counted, and an end of no such run
changes nothing. Two ticks without a guard sample close every gate of the head. A mismatch
of the two copies retires the copy at fault, the one that reports an error, else the one whose edge differs from a third computation;
a second one changes nothing. A bank swap in KD mode waits for the next frame
where the next bank is ready and nothing is written, and is discarded otherwise. CNT_CLR clears the path's counters. -/
def Obligations.WritePathsGuardAndCalibrate : Prop :=
  ∀ (s : State) (h : Head) (e : EdgeRecord), s.dev.hasHead h = true →
    (s.dev.opcRefused h.ix = true → Completes (.opcGo h) s fun d => d.bit (Fld.WP_STATUS_OPC_REFUSED h.ix) = true ∧
      d = { s.dev with regs := d.regs } ∧ SameRegs s.dev d [Adr.WP_STATUS h.ix]) ∧
    (s.dev.opcRefused h.ix = false → Completes (.opcGo h) s fun d => (d.wps h.ix).opc = some {} ∧
      d.bit (Fld.WP_STATUS_BUSY h.ix) = true ∧ (∀ b < 10, Tab.get (fun _ => 0) d.spr.laserFaults (16 * h.ix + b) = 0) ∧
      d = { s.dev with regs := d.regs, wp := d.wp, spr := { s.dev.spr with laserFaults := d.spr.laserFaults } } ∧
      SameRegs s.dev d [Adr.WP_STATUS h.ix]) ∧
    ((∀ o, (s.dev.wps h.ix).opc = some o → o.phase ≠ .done) → exec (.opcDone h ()) s = .next s) ∧
    (∀ o, (s.dev.wps h.ix).opc = some o → o.phase = .done → Completes (.opcDone h ()) s fun d => (d.wps h.ix).opc = none ∧
      d.bit (Fld.WP_STATUS_OPC_DONE h.ix) = true ∧ d.reg (Adr.WP_CNT h.ix 7) = s.dev.counted (Adr.WP_CNT h.ix 7) 1 ∧
      d = { s.dev with regs := d.regs, wp := d.wp, free := d.free }) ∧
    (Completes (.guardSilence h) s fun d => (d.wps h.ix).silence = true ∧ d.bit (Fld.WP_STATUS_INHIBIT h.ix) = true ∧
      ∀ b < 10, d.gateOpen h.ix b = false) ∧
    ((s.dev.wps h.ix).retiredCopy = none → Completes (.writePathMismatch h e) s fun d =>
      (∀ c, e.reports = some c → (d.wps h.ix).retiredCopy = some c) ∧
      (e.reports = none → (d.wps h.ix).retiredCopy = some (if s.dev.thirdEdge h.ix e = some e.first then 1 else 0))) ∧
    ((s.dev.wps h.ix).retiredCopy.isSome = true → exec (.writePathMismatch h e) s = .next s) ∧
    (s.dev.mode = 2 → s.dev.tableReady 0 = true → (s.dev.wps 0).run = none → Completes .bankSwap s fun d =>
      (d.wps 0).swap = true ∧ d = { s.dev with wp := d.wp }) ∧
    (s.dev.mode ≠ 2 ∨ s.dev.tableReady 0 = false ∨ (s.dev.wps 0).run.isSome = true → exec .bankSwap s = .next s) ∧
    (Completes (.wpCntClr h) s fun d => (∀ k < 8, d.reg (Adr.WP_CNT h.ix k) = 0) ∧ d = { s.dev with regs := d.regs } ∧
      SameRegs s.dev d ((List.range 8).map (Adr.WP_CNT h.ix)))

/-! ## Group stores, Lattice units, decoders and stripe engines -/

/-- Group stores. A fragment of a slice in Data mode whose timing is in range, on a head that neither writes nor pauses, leaves with
the ESN of its birth, or the next where it has none, where its wedge interval holds a codeword bit of its slot; of a beam in the map and a
slot that is read for data, it then stands last in the open group of its frame, unless that holds it already or it ends a blank frame, and
the first fragment of a group enters it; one of a beam outside the map reaches no group; a Shadow slice only shows BLANK, and any other
delivers nothing. A group not yet complete becomes complete, its round 0 pass waiting behind those
that wait, at its deadline, or before it when the codeword ranges of its eight positions are held whole; at no other time. A Lattice
pass of a Shadow unit changes no job, pass or event; a pass of the Active unit is an event, upon which, where no job and no hand-off
waits, the pass in front is done; an Active unit without a pass, a Shadow unit without a group, and a unit that is Off, do nothing. -/
def Obligations.GroupsFillAndComplete : Prop :=
  ∀ (s : State) (n : Slice) (f : FragmentRecord) (h : Head) (k : GroupKey) (u : LatUnit) (lost : LostWords),
    let fh := n.val / 10
    let pos := s.dev.positionOf fh (s.dev.sliceBeam n)
    let own := groupOfFrame (s.dev.fragmentFrame fh (pos.getD 0) f)
    let silent := s.dev.sliceMode n ≠ 1 ∨ (s.dev.slice n).freqHeld = true ∨ s.dev.writing fh = true ∨ (s.dev.head fh).paused = true
    let lh := s.dev.fld (Fld.LAT_CTRL_HEAD u)
    let waits := (s.dev.dh h.ix).passes
    ((silent ∧ s.dev.sliceMode n ≠ 2) ∨ s.dev.fragmentOf n (pos.getD 0) f = none → exec (.fragment n f) s = .next s) ∧
    (∀ r, s.dev.hasHead (headOfSlice n) = true → s.dev.sliceMode n = 2 → s.dev.fragmentOf n (pos.getD 0) f = some r →
      Completes (.fragment n f) s fun d => (r.hi = codeBits → d.bit (Fld.CHN_STATUS_BLANK n) = r.blank) ∧
        d = { s.dev with regs := d.regs } ∧ SameRegs s.dev d [Adr.CHN_STATUS n]) ∧
    (∀ r, s.dev.hasHead (headOfSlice n) = true → ¬silent → s.dev.fragmentOf n (pos.getD 0) f = some r →
      Completes (.fragment n f) s fun d => (d.slice n).esn = r.esn ∧
        ((∀ e ∈ (s.dev.slice n).births, ¬(e.1 = f.wedge.val ∧ e.2.1 = f.slot.val)) → r.esn = s.dev.esn) ∧
        (pos = none ∨ s.dev.formatterReads fh f.slot = false → d.det = s.dev.det) ∧
        (∀ g, pos.isSome = true → s.dev.formatterReads fh f.slot = true → r.blank = false → s.dev.openGroup fh own = some g → g.past = false →
          (g.frags.any fun x => x.pos == r.pos && x.wedge == r.wedge) = false →
          findGroup (d.dh fh).store own = some { g with frags := g.frags ++ [r] }) ∧
        (pos.isSome = true → s.dev.formatterReads fh f.slot = true → r.blank = false → findGroup (s.dev.dh fh).store own = none →
          findGroup (d.dh fh).store own = some { key := own, frags := [r] })) ∧
    (∀ x, s.dev.openGroup h.ix k = some x →
      (Completes (.groupDeadline h k) s fun d => (d.dh h.ix).passes = waits ++ [(k, 0)] ∧ d.openGroup h.ix k = none ∧
        (findGroup (d.dh h.ix).store k) = some { x with complete := true }) ∧
      (groupWhole x = true → Completes (.groupComplete h k) s fun d => (d.dh h.ix).passes = waits ++ [(k, 0)] ∧
        findGroup (d.dh h.ix).store k = some { x with complete := true }) ∧
      (groupWhole x = false → exec (.groupComplete h k) s = .next s)) ∧
    (s.dev.openGroup h.ix k = none → exec (.groupComplete h k) s = .next s ∧ exec (.groupDeadline h k) s = .next s) ∧
    (s.dev.fld (Fld.LAT_CTRL_MODE u) = 2 → (shadowGroup (s.dev.dh lh)).isSome = true → Completes (.latticePassDone u lost) s fun d =>
      (d.lat u).shadowed = true ∧ (∀ x, (d.dh x).jobs = (s.dev.dh x).jobs ∧ (d.dh x).passes = (s.dev.dh x).passes) ∧
        d.log = s.dev.log ∧ d.locus = s.dev.locus) ∧
    (∀ p rest, s.dev.fld (Fld.LAT_CTRL_MODE u) = 1 → (s.dev.dh lh).passes = p :: rest →
      Completes (.latticePassDone u lost) s fun d =>
        (⟨s.dev.esn, 0, .latticeResult, u, 0, [p.1.band, p.1.quad, p.1.slot, p.2]⟩ :: s.dev.log) <:+ d.log ∧
        ((s.dev.dh lh).jobs = [] → (s.dev.dh lh).handoff = none → (d.dh lh).passes = rest)) ∧
    (s.dev.fld (Fld.LAT_CTRL_MODE u) = 0 ∨ s.dev.fld (Fld.LAT_CTRL_MODE u) = 1 ∧ (s.dev.dh lh).passes = [] ∨
        s.dev.fld (Fld.LAT_CTRL_MODE u) = 2 ∧ shadowGroup (s.dev.dh lh) = none →
      exec (.latticePassDone u lost) s = .next s)

/-- Lattice units. A fault of a live unit sets FAULT, retires it and switches it Off, and an Active one's head waits for a
takeover where LAT_SPARE.AUTO is set. The takeover makes the unit that LAT_SPARE names Active on that head, unless it is
out of service, the failed one, or Active elsewhere; a head to which an Active unit was given meanwhile needs none, and a head without a
failed unit takes none over. A mode write that is allowed
sets MODE and HEAD, any other changes nothing. A reseed is armed for the next group, and nothing else changes. -/
def Obligations.LatticeUnitsFailOver : Prop :=
  ∀ (s : State) (u : LatUnit) (h : Head) (mode : BitVec 2),
    let lh := s.dev.fld (Fld.LAT_CTRL_HEAD u)
    let v := ((s.dev.dh h.ix).taker).getD (s.dev.fld Fld.LAT_SPARE_UNIT)
    (s.dev.dead 5 u = true → exec (.latticeFault u) s = .next s) ∧
    (s.dev.dead 5 u = false → Completes (.latticeFault u) s fun d =>
      d.dead 5 u = true ∧ d.bit (Fld.LAT_STATUS_FAULT u) = true ∧ d.fld (Fld.LAT_CTRL_MODE u) = 0 ∧
      (s.dev.fld (Fld.LAT_CTRL_MODE u) = 1 → s.dev.bit Fld.LAT_SPARE_AUTO = true → (d.dh lh).failed = some u.val)) ∧
    ((s.dev.dh h.ix).failed = none → exec (.latticeTakeover h) s = .next s) ∧
    (∀ x, (s.dev.dh h.ix).failed = some x → (s.dev.activeLat h.ix).isSome = true → Completes (.latticeTakeover h) s fun d =>
      (d.dh h.ix).failed = none ∧ d.activeLat h.ix = s.dev.activeLat h.ix ∧ d = { s.dev with det := d.det }) ∧
    (∀ x, (s.dev.dh h.ix).failed = some x → s.dev.activeLat h.ix = none → v < 3 →
      (s.dev.dead 5 v = false → v ≠ x → s.dev.fld (Fld.LAT_CTRL_MODE v) ≠ 1 → Completes (.latticeTakeover h) s fun d =>
        d.fld (Fld.LAT_CTRL_MODE v) = 1 ∧ d.fld (Fld.LAT_CTRL_HEAD v) = h.ix ∧ (d.dh h.ix).failed = none) ∧
      (s.dev.dead 5 v = true ∨ v = x ∨ s.dev.fld (Fld.LAT_CTRL_MODE v) = 1 → exec (.latticeTakeover h) s = .next s)) ∧
    (s.dev.latModeOk u mode.toNat h.ix = true → Completes (.latticeSetMode u mode h) s fun d =>
      d.fld (Fld.LAT_CTRL_MODE u) = mode.toNat ∧ d.fld (Fld.LAT_CTRL_HEAD u) = h.ix ∧
      d = { s.dev with regs := d.regs, det := d.det }) ∧
    (s.dev.latModeOk u mode.toNat h.ix = false → exec (.latticeSetMode u mode h) s = .next s) ∧
    (Completes (.itiReseed u) s fun d => (d.lat u).reseed = true ∧ d.det.heads = s.dev.det.heads ∧
      d = { s.dev with det := d.det } ∧ ∀ w, w ≠ u.val → d.lat w = s.dev.lat w)

/-- Decoders. A free one takes the oldest ready job of a head that its mask serves, and shows it; with none, nothing changes.
An iteration whose bits meet every check ends the job, counted as converged where its CRC holds (or it is a parity frame)
and as CRC_REJECT where not; one that meets not all of them, within the limits, counts an iteration and keeps the messages.
A sweep trial of a job that may sweep, which meets them all with a good CRC ends the job as SWEPT; one that does not, before the last, moves to the next.
A cancelled job that waits goes at once, a running one is marked. A fault takes a live engine out of service and returns its
job to the queue, to start again. CNT_CLR clears the counters of both heads. -/
def Obligations.DecodersRunJobs : Prop :=
  ∀ (s : State) (u : DecUnit) (h : Head) (e : Esn),
    (s.dev.decoderFree u = false ∨ s.dev.decoderHead u = none → exec (.decoderJobStart u) s = .next s) ∧
    (∀ x j, s.dev.decoderFree u = true → s.dev.decoderHead u = some x → s.dev.readyJob x = some j →
      Completes (.decoderJobStart u) s fun d =>
        d.bit (Fld.DECU_STATUS_BUSY u) = true ∧ d.fld (Fld.DECU_STATUS_HEAD u) = x % 2 ∧
        d.bit (Fld.DECU_STATUS_SWEEP u) = j.capped ∧ d.reg (Adr.DECU_JOB u) = j.esn.setWidth 32 ∧
        (∃ y ∈ (d.dh x).jobs, y.esn = j.esn ∧ y.unit = some u.val ∧ y.stage = if j.capped then .sweeping else .decoding) ∧
        d = { s.dev with regs := d.regs, det := d.det }) ∧
    (s.dev.jobOf u = none → exec (.decoderIteration u) s = .next s ∧ exec (.sweepTrial u) s = .next s) ∧
    (∀ x j w, s.dev.jobOf u = some (x, j) → j.stage = .decoding → j.dec = some w → j.cancelled = false →
      let hard := ((LdpcState.mk w.1 w.2).iterate (polNorm j.policy)).hard
      let ok := j.parity || frameCrcOk (infoBytes hard)
      (ldpcUsc hard = 0 → Completes (.decoderIteration u) s fun d => (∀ y ∈ (d.dh x).jobs, y.esn ≠ j.esn) ∧
        d.bit (Fld.DECU_STATUS_BUSY u) = false ∧
        d.reg (Adr.DEC_CNT x (if ok then (if j.rounds = 0 then 0 else 1) else 4)) =
          s.dev.counted (Adr.DEC_CNT x (if ok then (if j.rounds = 0 then 0 else 1) else 4)) 1) ∧
      (ldpcUsc hard ≠ 0 → JobSt.withinLimits { j with iters := j.iters + 1 } s.dev = true →
        Completes (.decoderIteration u) s fun d => d.fld (Fld.DECU_STATUS_ITER u) = j.iters + 1 ∧
          (∃ y ∈ (d.dh x).jobs, y.esn = j.esn ∧ y.iters = j.iters + 1 ∧ y.dec =
            some (((LdpcState.mk w.1 w.2).iterate (polNorm j.policy)).l, ((LdpcState.mk w.1 w.2).iterate (polNorm j.policy)).r)) ∧
          d = { s.dev with regs := d.regs, det := d.det } ∧ SameRegs s.dev d [Adr.DECU_STATUS u])) ∧
    (∀ x j k, s.dev.jobOf u = some (x, j) → j.stage = .sweeping → j.cancelled = false → (j.noSweep && j.scrub) = false →
      sweepShifts[j.trial]? = some k →
      let hard := (LdpcState.runUntil (polNorm j.policy)
        (if s.dev.heavyErased x j then 1 else s.dev.fld (Fld.DEC_SWEEP_SWEEP_ITER x))
        (LdpcState.start (jobCut j.frame j.chan k))).1.hard
      (ldpcUsc hard = 0 → (j.parity || frameCrcOk (infoBytes hard)) = true → Completes (.sweepTrial u) s fun d =>
        (∀ y ∈ (d.dh x).jobs, y.esn ≠ j.esn) ∧ d.reg (Adr.DEC_CNT x 2) = s.dev.counted (Adr.DEC_CNT x 2) 1) ∧
      (ldpcUsc hard ≠ 0 → j.trial < 7 → Completes (.sweepTrial u) s fun d =>
        (∃ y ∈ (d.dh x).jobs, y.esn = j.esn ∧ y.trial = j.trial + 1) ∧ d = { s.dev with det := d.det })) ∧
    ((∀ y ∈ (s.dev.dh h.ix).jobs, y.esn ≠ e) → exec (.jobCancel h e) s = .next s) ∧
    (∀ j, (s.dev.dh h.ix).jobs.find? (fun y => y.esn == e) = some j →
      (j.stage = .waiting ∨ j.stage = .turbo → Completes (.jobCancel h e) s fun d => ∀ y ∈ (d.dh h.ix).jobs, y.esn ≠ e) ∧
      (j.stage = .decoding ∨ j.stage = .sweeping → Completes (.jobCancel h e) s fun d =>
        (∃ y ∈ (d.dh h.ix).jobs, y.esn = e ∧ y.cancelled = true) ∧ d = { s.dev with det := d.det })) ∧
    (s.dev.dead 6 u = true → exec (.decoderFault u) s = .next s) ∧
    (s.dev.dead 6 u = false → Completes (.decoderFault u) s fun d => d.dead 6 u = true ∧
      d.maskBit Fld.DEC_INSERVICE_MASK u = false ∧ d.maskBit Fld.DEC_FAULT_MASK u = true ∧ d.decoderFree u = false ∧
      ∀ x j, s.dev.jobOf u = some (x, j) → ∃ y ∈ (d.dh x).jobs, y.esn = j.esn ∧ y.stage = .waiting ∧ y.unit = none ∧
        y.iters = 0 ∧ y.rounds = 0) ∧
    (Completes .decCntClr s fun d => (∀ x < 2, ∀ k < 8, d.reg (Adr.DEC_CNT x k) = 0) ∧ d = { s.dev with regs := d.regs } ∧
      SameRegs s.dev d (((List.range 8).map (Adr.DEC_CNT 0)) ++ (List.range 8).map (Adr.DEC_CNT 1)))

/-- Stripe engines. The end of an encode job of the engine keeps its slot open, encoded, and is counted; the end of a rebuild
frees the slot, unless the mailbox of its task has no room, while which the slot is held, or keeps it ended UNRECOVERED for re-reads; an end
without such a job changes nothing. A fault of a live
engine sets FAULT and retires it, and every open job moves to the other. CNT_CLR clears the engine's counters. ENABLE changes
that bit alone. -/
def Obligations.StripeEnginesEndJobs : Prop :=
  ∀ (s : State) (e : StrUnit) (h : Head) (slot : Fin 64) (on : Bool),
    ((∀ j, s.dev.stripeJob h.ix slot = some j → j.op ≠ 2 ∨ j.encoded = true ∨ j.engine ≠ e.val) →
      exec (.encodeDone e h slot) s = .next s) ∧
    (∀ j, s.dev.stripeJob h.ix slot = some j → j.op = 2 → j.encoded = false → j.engine = e.val →
      Completes (.encodeDone e h slot) s fun d => d.stripeJob h.ix slot = some { j with encoded := true } ∧
        d.reg (Adr.STR_CNT e 7) = s.dev.counted (Adr.STR_CNT e 7) 1) ∧
    ((∀ j, s.dev.stripeJob h.ix slot = some j → j.rebuilding = false ∨ j.engine ≠ e.val) →
      exec (.stripeRebuildDone e h slot) s = .next s) ∧
    (∀ j, s.dev.stripeJob h.ix slot = some j → j.rebuilding = true → j.engine = e.val →
      Completes (.stripeRebuildDone e h slot) s fun d => d.stripeJob h.ix slot =
          (if s.dev.mailRoom j.task then none else some { j with ended := true, rebuilding := false, held := true }) ∨
        d.stripeJob h.ix slot = some { j with ended := true, rebuilding := false, held := false } ∧
          d.bit (Fld.STR_STATUS_UNRECOVERED e) = true ∧ d.reg (Adr.STR_CNT e 4) = s.dev.counted (Adr.STR_CNT e 4) 1) ∧
    (s.dev.dead 15 e = true → exec (.stripeEngineFault e) s = .next s) ∧
    (s.dev.dead 15 e = false → Completes (.stripeEngineFault e) s fun d => d.dead 15 e = true ∧
      d.bit (Fld.STR_STATUS_FAULT e) = true ∧ ∀ p ∈ d.stripeJobs, p.2.engine ≠ e.val) ∧
    (Completes (.strCntClr e) s fun d => (∀ k < 8, d.reg (Adr.STR_CNT e k) = 0) ∧ d = { s.dev with regs := d.regs } ∧
      SameRegs s.dev d ((List.range 8).map (Adr.STR_CNT e))) ∧
    (Completes (.strEnable e on) s fun d => d.bit (Fld.STR_CTRL_ENABLE e) = on ∧ d = { s.dev with regs := d.regs } ∧
      SameRegs s.dev d [Adr.STR_CTRL e])

/-! ## Register accesses and roles -/

/-- BAR0 accesses. A narrow or misaligned read returns all ones, an aligned one the word of its offset, and one of 64 bits those of two,
the lower address first; but for a read of LOCUS_NOW_LO nothing else
changes. A disagreement of the attachment's copies is recorded, and changes nothing else. A write narrower than 32 bits, at an offset that is no multiple of 4, or without all the enables of its word is
discarded; a 64-bit write is two of 32 bits, the lower first. A write to a hidden register, or to an offset that names no
register and no table, is ignored. One that carries a value outside a field's range leaves the register as it was. Of a
register without an effect of its own, each RW field takes what is written, each 1 written to a W1C field clears its bit,
fields of RO, WO, RWE and firmware access stand, an RWL field takes what a writer who may writes, and a bit of no field
stands. -/
def Obligations.WritesObeyAccessCodes : Prop :=
  ∀ (s : State) (a : BitVec 24) (v : Word) (data : DWord) (w : BusWrite) (r : BusRead) (copy : Fin 2),
    let off := a.toNat
    let c := Instr.registerWrite (.write ⟨a, .b32, 0x0f, v.setWidth 64⟩)
    let rd := r.off.toNat
    (exec (.registerWrite (.disagree copy)) s = .next { s with dev := s.dev.copyDisagrees copiesHost (some copy) }) ∧
    (r.size = .b8 → exec (.registerWrite (.read r)) s = .next { s with dev := { s.dev with rdata := 0xff } }) ∧
    (r.size = .b16 → exec (.registerWrite (.read r)) s = .next { s with dev := { s.dev with rdata := 0xffff } }) ∧
    (rd % 4 ≠ 0 → r.size = .b32 → exec (.registerWrite (.read r)) s = .next { s with dev := { s.dev with rdata := 0xffffffff } }) ∧
    (rd % 4 ≠ 0 → r.size = .b64 →
      exec (.registerWrite (.read r)) s = .next { s with dev := { s.dev with rdata := 0xffffffffffffffff } }) ∧
    (rd % 4 = 0 → r.size = .b32 → rd ≠ Adr.LOCUS_NOW_LO →
      exec (.registerWrite (.read r)) s = .next { s with dev := { s.dev with rdata := (s.dev.busWord rd).setWidth 64 } }) ∧
    (rd % 4 = 0 → r.size = .b64 → rd ≠ Adr.LOCUS_NOW_LO → rd + 4 ≠ Adr.LOCUS_NOW_LO → rd + 4 < 2 ^ 24 →
      exec (.registerWrite (.read r)) s =
        .next { s with dev := { s.dev with rdata := s.dev.busWord (rd + 4) ++ s.dev.busWord rd } }) ∧
    (w.off.toNat % 4 ≠ 0 ∨ w.size = .b8 ∨ w.size = .b16 ∨
        (w.enables.toNat % 16 ≠ 15 ∧ (w.size = .b32 ∨ w.enables.toNat / 16 ≠ 15)) → exec (.registerWrite (.write w)) s = .next s) ∧
    (off % 4 = 0 → off + 4 < 2 ^ 24 → ∃ t, exec (.registerWrite (.write ⟨a, .b32, 0x0f, data⟩)) s = .next t ∧
      exec (.registerWrite (.write ⟨a, .b64, 0xff, data⟩)) s = exec (.registerWrite (.write ⟨a + 4, .b32, 0x0f, data >>> 32⟩)) t) ∧
    (s.dev.hidden off = true → exec c s = .next s) ∧
    (findReg regTable off = none → (off < 0x60000 ∨ 0xa8000 ≤ off) → (off < 0x110000 ∨ 0x118000 ≤ off) →
      exec c s = .next s) ∧
    (∀ r n k, off % 4 = 0 → s.dev.hidden off = false → findReg regTable off = some (r, n, k) → effectOf r.base = none →
      pairRule r.base v = true →
      (r.fields.any (outside .host v) = true → Completes c s fun d => d.reg off = s.dev.reg off) ∧
      (r.fields.any (outside .host v) = false → Completes c s fun d =>
        (∀ f ∈ r.fields,
          let x := fieldOf v f.lo f.width
          let old := fieldOf (s.dev.reg off) f.lo f.width
          let new := fieldOf (d.reg off) f.lo f.width
          (f.acc = .rw → new = x) ∧ (f.acc = .w1c → ∀ b < f.width, new.testBit b = (old.testBit b && !x.testBit b)) ∧
          (f.acc = .rwl → new = if s.dev.mayWrite .host then x else old) ∧
          (f.acc ∈ [.ro, .wo, .rwe, .fw, .wofw, .arc] → new = old)) ∧
        (∀ b < 32, (∀ f ∈ r.fields, b < f.lo ∨ f.lo + f.width ≤ b) → (d.reg off).getLsbD b = (s.dev.reg off).getLsbD b)))

/-- Writes that need a role. Where a command would change such a field and its writer may not, the field stands, and the write is
shown in DENIED, counted and recorded in the audit log; a write of the value that stands does nothing. A writer who may
changes it: the policy at once, or at the end of the service cycle in progress; ROT_MIN, unless 0 is written, which is recorded where
it is all that the write would change; the threshold, up to UNITS; the word of the shadow bank, unless an exchange is pending. -/
def Obligations.RoleWritesNeedTheRole : Prop :=
  ∀ (s : State) (w : Writer) (on : Bool) (v : Word) (cls : Fin 15) (e : ArcEng) (k : BitVec 11),
    let rot := if fieldOf v 8 8 = 0 then s.dev.fld Fld.SPR_POLICY_ROT_MIN else fieldOf v 8 8
    let t := fieldOf v 0 16
    let denied (c : Instr) : Prop := s.dev.mayWrite w = false → Completes c s fun d => d.bit Fld.SEC_STATUS_DENIED = true ∧
      d.reg (Adr.SEC_CNT 7) = s.dev.counted (Adr.SEC_CNT 7) 1 ∧
      d.fld Fld.SEC_AUDIT_SEQ_SEQ = (s.dev.fld Fld.SEC_AUDIT_SEQ_SEQ + 1) % 2 ^ 32 ∧
      d = { s.dev with regs := d.regs, locus := d.locus, log := d.log, sec := d.sec } ∧
      SameRegs s.dev d [Adr.SEC_STATUS, Adr.SEC_CNT 6, Adr.SEC_CNT 7, Adr.SEC_AUDIT_SEQ, Adr.LOCUS_STATUS]
    (s.dev.bit Fld.RING_CTRL_FORCE_BYPASS ≠ on → denied (.ringForceBypass w on)) ∧
    (s.dev.bit Fld.RING_CTRL_FORCE_BYPASS = on → exec (.ringForceBypass w on) s = .next s) ∧
    (s.dev.bit Fld.FACET_CTRL_EXT_REQ = false → denied (.facetExtReq w)) ∧
    (s.dev.bit Fld.CACHE_CTRL_ENABLE = false → denied (.cacheEnable w) ∧ exec (.cacheDisable w) s = .next s) ∧
    (s.dev.bit Fld.CACHE_CTRL_ENABLE = true → denied (.cacheDisable w) ∧ exec (.cacheEnable w) s = .next s) ∧
    (v.getLsbD 16 = false →
      ¬(fieldOf v 8 8 = s.dev.fld Fld.SPR_POLICY_ROT_MIN ∧ fieldOf v 0 1 = s.dev.fld Fld.SPR_POLICY_POLICY) →
      denied (.sprPolicyWrite w v)) ∧
    (v.getLsbD 16 = false → fieldOf v 8 8 = s.dev.fld Fld.SPR_POLICY_ROT_MIN → fieldOf v 0 1 = s.dev.fld Fld.SPR_POLICY_POLICY →
      exec (.sprPolicyWrite w v) s = .next s) ∧
    (v.getLsbD 16 = false → s.dev.mayWrite w = true → fieldOf v 8 8 = 0 → s.dev.fld Fld.SPR_POLICY_ROT_MIN ≠ 0 →
      fieldOf v 0 1 = s.dev.fld Fld.SPR_POLICY_POLICY → Completes (.sprPolicyWrite w v) s fun d =>
        d.reg Adr.SPR_POLICY = s.dev.reg Adr.SPR_POLICY ∧
        d.fld Fld.SEC_AUDIT_SEQ_SEQ = (s.dev.fld Fld.SEC_AUDIT_SEQ_SEQ + 1) % 2 ^ 32) ∧
    (s.dev.mayWrite w = true → ¬(rot = s.dev.fld Fld.SPR_POLICY_ROT_MIN ∧ fieldOf v 0 1 = s.dev.fld Fld.SPR_POLICY_POLICY) →
      Completes (.sprPolicyWrite w v) s fun d => d.fld Fld.SPR_POLICY_ROT_MIN = rot ∧
        (s.dev.spr.cycle = none → d.fld Fld.SPR_POLICY_POLICY = fieldOf v 0 1) ∧
        (s.dev.spr.cycle.isSome = true → d.fld Fld.SPR_POLICY_POLICY = s.dev.fld Fld.SPR_POLICY_POLICY ∧
          (fieldOf v 0 1 ≠ s.dev.fld Fld.SPR_POLICY_POLICY → d.spr.policyNext = some (fieldOf v 0 1)))) ∧
    (t ≤ s.dev.units? (cls + 1) → t ≠ s.dev.fld (Fld.SPR_CLASS_THR_THRESHOLD cls) → denied (.sprThresholdWrite w cls v)) ∧
    (t ≤ s.dev.units? (cls + 1) → t = s.dev.fld (Fld.SPR_CLASS_THR_THRESHOLD cls) →
      exec (.sprThresholdWrite w cls v) s = .next s) ∧
    (t ≤ s.dev.units? (cls + 1) → s.dev.mayWrite w = true → Completes (.sprThresholdWrite w cls v) s fun d =>
      d.fld (Fld.SPR_CLASS_THR_THRESHOLD cls) = t) ∧
    (s.dev.units? (cls + 1) < t → Completes (.sprThresholdWrite w cls v) s fun d =>
      d.fld (Fld.SPR_CLASS_THR_THRESHOLD cls) = s.dev.fld (Fld.SPR_CLASS_THR_THRESHOLD cls) ∧
      d.fld Fld.SEC_AUDIT_SEQ_SEQ = (s.dev.fld Fld.SEC_AUDIT_SEQ_SEQ + 1) % 2 ^ 32) ∧
    (s.dev.bit (Fld.ARC_CTRL_VIEW e) = false → s.dev.coefRead e k.toNat ≠ v → denied (.arcCoefWindowWrite w e k v)) ∧
    (s.dev.bit (Fld.ARC_CTRL_VIEW e) = true ∨ s.dev.coefRead e k.toNat = v → exec (.arcCoefWindowWrite w e k v) s = .next s) ∧
    (s.dev.bit (Fld.ARC_CTRL_VIEW e) = false → s.dev.coefRead e k.toNat ≠ v → s.dev.mayWrite w = true →
      Completes (.arcCoefWindowWrite w e k v) s fun d =>
        (s.dev.bit (Fld.ARC_STATUS_SWAP_PENDING e) = false → d.coefRead e k.toNat = v ∧
          d.bit (Fld.ARC_CTRL_ZONE_ARM e) = false) ∧
        (s.dev.bit (Fld.ARC_STATUS_SWAP_PENDING e) = true → d.coefRead e k.toNat = s.dev.coefRead e k.toNat ∧
          d.bit (Fld.ARC_STATUS_WIN_DISCARD e) = true))

/-! ## Arc instructions -/

/-- An Arc instruction whose predicate does not let it act changes nothing, but that one of slot 0 fixes what the two
instructions of its bundle read, with the filters that have completed by its cycle. -/
def Obligations.ArcPredicateStopsEffects : Prop :=
  ∀ (s : State) (i : ArcIssue) (rd rs1 rs2 : ArcReg) (imm : BitVec 17) (im : BitVec 16) (q : BitVec 4) (cl : Fin 8) (b : Bool)
    (cf : Fin 6) (qf : Fin 4) (mf : Fin 3) (x : Fin 16) (sh : BitVec 2) (sc : BitVec 5) (ff : Fin 7) (cb sb : BitVec 8)
    (cw : BitVec 11) (sw : BitVec 10) (port : BitVec 9) (c : Instr),
    c ∈ [.arcNop i, .arcMov i rd rs1, .arcMovi i rd imm, .arcLui i rd im, .arcSel i rd rs1 rs2 q, .arcAlu i cl rd rs1 rs2,
      .arcAddi i rd imm, .arcCmp i b cf cl rs1 rs2, .arcQalu i qf rd rs1 rs2, .arcQmul i rd rs1 rs2, .arcQmac i mf x rs1 rs2,
      .arcQrnd i sh rd x, .arcQscl i sc rd rs1, .arcFalu i ff rd rs1 rs2, .arcFmac i b rd rs1 rs2, .arcFrcp i rd rs1,
      .arcFcvt i qf rd rs1, .arcBiq i rd cb sb, .arcLl i rd cb sb, .arcInteg i cl rd rs1 rs2, .arcClamp i b cl rd rs1 rs2,
      .arcPreset i b cl rd rs1 rs2, .arcFfv i rd rs1 rs2, .arcFfa i cl rd rs1, .arcLdc i rd cw, .arcLds i rd sw,
      .arcSts i rd sw, .arcLdcx i rd rs1, .arcLdsx i rd rs1, .arcStsx i rs1 rs2, .arcSample i rd port, .arcEmit i rd port,
      .arcEvent i rd cw, .arcMfs i rd qf, .arcSwap i, .arcWaittick i] →
    s.dev.arcActs i = false →
    exec c s = .next { s with dev := if i.slot = 0 then s.dev.onEng i.eng (fun a => { a.settle i.cycle with snap := (a.settle i.cycle).ctx }) else s.dev }

/-- Moves, integers and memories of an Arc engine. One register takes the value that the instruction's rule gives, from the
operands that its bundle read; a store writes one state word; a comparison writes one predicate of p2 to p7. Nothing else
changes. -/
def Obligations.ArcMovesWriteOneRegister : Prop :=
  ∀ (s : State) (i : ArcIssue) (rd rs1 rs2 : ArcReg) (imm : BitVec 17) (im : BitVec 16) (q : BitVec 4) (cf : Fin 6)
    (p : Fin 8) (cw : BitVec 11) (sw : BitVec 10) (port : BitVec 9), s.dev.arcActs i = true →
    let c := s.dev.arcSees i
    let a := c.reg rs1
    let b := c.reg rs2
    let coef (w : Nat) : Word := Tab.get zeroWord (s.dev.arcEng i.eng).coef (2048 * c.bank.val + w)
    let stores (cmd : Instr) (w : Nat) (v : Word) : Prop := Completes cmd s fun d => (d.arcEng i.eng).ctx.word w = v ∧
      ArcFrame s.dev d i [] [w] ∧ ArcBitsStand s.dev d i.eng ∧ d.regs = s.dev.regs
    (Completes (.arcNop i) s fun d => ArcFrame s.dev d i [] [] ∧ ArcBitsStand s.dev d i.eng ∧ d.regs = s.dev.regs) ∧
    ArcTakes (.arcMov i rd rs1) s i rd a ∧ ArcTakes (.arcMovi i rd imm) s i rd (imm.signExtend 32) ∧
    ArcTakes (.arcLui i rd im) s i rd (im ++ 0#16) ∧
    ArcTakes (.arcSel i rd rs1 rs2 q) s i rd (if c.pred (q.toNat % 8) = q.getLsbD 3 then b else a) ∧
    ArcTakes (.arcAlu i 0 rd rs1 rs2) s i rd (a + b) ∧ ArcTakes (.arcAlu i 1 rd rs1 rs2) s i rd (a - b) ∧
    ArcTakes (.arcAlu i 2 rd rs1 rs2) s i rd (a &&& b) ∧ ArcTakes (.arcAlu i 3 rd rs1 rs2) s i rd (a ||| b) ∧
    ArcTakes (.arcAlu i 4 rd rs1 rs2) s i rd (a ^^^ b) ∧ ArcTakes (.arcAlu i 5 rd rs1 rs2) s i rd (a <<< (b.toNat % 32)) ∧
    ArcTakes (.arcAlu i 6 rd rs1 rs2) s i rd (a >>> (b.toNat % 32)) ∧
    ArcTakes (.arcAlu i 7 rd rs1 rs2) s i rd (a.sshiftRight (b.toNat % 32)) ∧
    ArcTakes (.arcAddi i rd imm) s i rd (c.reg rd + imm.signExtend 32) ∧
    ArcTakes (.arcLdc i rd cw) s i rd (coef cw.toNat) ∧ ArcTakes (.arcLds i rd sw) s i rd (c.word sw.toNat) ∧
    ArcTakes (.arcLdcx i rd rs1) s i rd (coef (a.toNat % 2048)) ∧ ArcTakes (.arcLdsx i rd rs1) s i rd (c.word (a.toNat % 1024)) ∧
    stores (.arcSts i rd sw) sw.toNat (c.reg rd) ∧ stores (.arcStsx i rs1 rs2) (a.toNat % 1024) b ∧
    ArcTakes (.arcMfs i rd 0) s i rd (BitVec.ofNat 32 c.pcnt) ∧ ArcTakes (.arcMfs i rd 1) s i rd (BitVec.ofNat 32 c.phase) ∧
    ArcTakes (.arcMfs i rd 2) s i rd (BitVec.ofNat 32 c.bank.val) ∧
    ArcTakes (.arcMfs i rd 3) s i rd (if (s.dev.arcEng i.eng).swapped then 1 else 0) ∧
    ArcTakes (.arcSample i rd port) s i rd (Tab.get zeroWord (s.dev.arcPair (s.dev.runsFor i.eng)).latched port.toNat) ∧
    (Completes (.arcCmp i false cf p rs1 rs2) s fun d => ArcFrame s.dev d i [] [] ∧ d.regs = s.dev.regs ∧
      (2 ≤ p.val → (d.arcEng i.eng).ctx.preds.getLsbD p =
        [a == b, a != b, a.slt b, a.sle b, b.slt a, b.sle a].getD cf.val false) ∧
      (∀ o < 8, o ≠ p.val ∨ o < 2 → (d.arcEng i.eng).ctx.preds.getLsbD o = (s.dev.arcEng i.eng).ctx.preds.getLsbD o) ∧
      (d.arcEng i.eng).ctx.clamp = (s.dev.arcEng i.eng).ctx.clamp ∧ (d.arcEng i.eng).ctx.arm = (s.dev.arcEng i.eng).ctx.arm)

/-- Arithmetic of an Arc engine. A Q1.31 result is the exact one, rounded half up where bits are dropped, or the nearest number
with SAT set; an accumulator does the same in 64 bits. An FP32 instruction gives its result and flags: the sum,
difference, product, minimum, maximum, magnitude, negation, fused product sum, reciprocal within the stated error (which
one is a free value for each operand), conversion or feed-forward. A comparison of two FP32 values orders them, a NaN as
+0 with NAN set. No flag is cleared, and nothing else changes. -/
def Obligations.ArcArithmeticSaturatesAndFlags : Prop :=
  ∀ (s : State) (i : ArcIssue) (rd rs1 rs2 : ArcReg) (x : Fin 16) (sh : BitVec 2) (sc : BitVec 5) (cf : Fin 6) (p ch : Fin 8),
    s.dev.arcActs i = true →
    let c := s.dev.arcSees i
    let a := c.reg rs1
    let b := c.reg rs2
    let q (cmd : Instr) (v : Int) : Prop := Completes cmd s fun d => qval ((d.arcEng i.eng).ctx.reg rd) = (qNear v).1 ∧
      ArcFrame s.dev d i [rd] [] ∧ ArcBitsStand s.dev d i.eng ∧ ArcFlags s.dev d i.eng { sat := (qNear v).2 }
    let acc (cmd : Instr) (v : Int) : Prop := Completes cmd s fun d =>
      (d.arcEng i.eng).ctx.acc x = max (-2 ^ 63) (min (2 ^ 63 - 1) v) ∧ ArcFrame s.dev d i [2 * x.val, 2 * x.val + 1] [] ∧
      ArcBitsStand s.dev d i.eng ∧ ArcFlags s.dev d i.eng { sat := decide (v < -2 ^ 63 ∨ 2 ^ 63 ≤ v) }
    let prod : Int := (qval a * qval b + 2) / 4
    q (.arcQalu i 0 rd rs1 rs2) (qval a + qval b) ∧ q (.arcQalu i 1 rd rs1 rs2) (qval a - qval b) ∧
    q (.arcQalu i 2 rd rs1 rs2) (-qval a) ∧ q (.arcQalu i 3 rd rs1 rs2) ((qval a).natAbs : Int) ∧
    q (.arcQmul i rd rs1 rs2) ((qval a * qval b + 2 ^ 30) / 2 ^ 31) ∧
    q (.arcQrnd i sh rd x) ((c.acc x * 2 ^ sh.toNat + 2 ^ 28) / 2 ^ 29) ∧
    (0 ≤ sc.toInt → q (.arcQscl i sc rd rs1) (qval a * 2 ^ sc.toInt.toNat)) ∧
    (sc.toInt < 0 → q (.arcQscl i sc rd rs1) ((qval a + 2 ^ ((-sc.toInt).toNat - 1)) / 2 ^ (-sc.toInt).toNat)) ∧
    acc (.arcQmac i 0 x rs1 rs2) (c.acc x + prod) ∧ acc (.arcQmac i 1 x rs1 rs2) (c.acc x - prod) ∧
    acc (.arcQmac i 2 x rs1 rs2) prod ∧
    ArcGives (.arcFalu i 0 rd rs1 rs2) s i rd (fadd a b) ∧ ArcGives (.arcFalu i 1 rd rs1 rs2) s i rd (fsub a b) ∧
    ArcGives (.arcFalu i 2 rd rs1 rs2) s i rd (fmul a b) ∧ ArcGives (.arcFalu i 3 rd rs1 rs2) s i rd (fmin a b) ∧
    ArcGives (.arcFalu i 4 rd rs1 rs2) s i rd (fmax a b) ∧ ArcGives (.arcFalu i 5 rd rs1 rs2) s i rd (fabs a) ∧
    ArcGives (.arcFalu i 6 rd rs1 rs2) s i rd (fneg a) ∧ ArcGives (.arcFmac i false rd rs1 rs2) s i rd (ffma false a b (c.reg rd)) ∧
    ArcGives (.arcFmac i true rd rs1 rs2) s i rd (ffma true a b (c.reg rd)) ∧
    ArcGives (.arcFrcp i rd rs1) s i rd (frcp (Config.freeOf 0 a.toNat) a) ∧
    ArcGives (.arcFcvt i 0 rd rs1) s i rd (fltAt (qval a) 31) ∧ ArcGives (.arcFcvt i 1 rd rs1) s i rd (fixAt false a 31) ∧
    ArcGives (.arcFcvt i 2 rd rs1) s i rd (fltAt a.toInt 0) ∧ ArcGives (.arcFcvt i 3 rd rs1) s i rd (fixAt true a 0) ∧
    ArcGives (.arcFfv i rd rs1 rs2) s i rd (ffv (c.reg rd) a b) ∧
    ArcGives (.arcFfa i ch rd rs1) s i rd
      (ffma false a (Tab.get zeroWord (s.dev.arcPair (s.dev.runsFor i.eng)).acc ch) (c.reg rd)) ∧
    (2 ≤ p.val → Completes (.arcCmp i true cf p rs1 rs2) s fun d => ArcFrame s.dev d i [] [] ∧
      (d.arcEng i.eng).ctx.preds.getLsbD p = [(fltOf a).eqv (fltOf b), !(fltOf a).eqv (fltOf b), (fltOf a).lt (fltOf b),
        (fltOf a).lt (fltOf b) || (fltOf a).eqv (fltOf b), (fltOf b).lt (fltOf a),
        (fltOf b).lt (fltOf a) || (fltOf a).eqv (fltOf b)].getD cf.val false ∧
      ArcFlags s.dev d i.eng { nan := isNan a || isNan b })

/-- Filters and control laws of an Arc engine. BIQ and LL write rd by their equations over the active bank, and their state words in their
completion cycles, 8 and 6 cycles on.
INTEG adds the product where the clamp bit is 0, and leaves rd where it is 1. CLAMP limits rd and leaves in the clamp
bit whether a limit acted; of FP32 values a NaN counts as +0 with NAN set. PRESET writes the difference; its bumpless form does so where the arm bit is 1 and the clamp bit 0,
clearing the arm bit, and does nothing elsewhere. -/
def Obligations.ArcControlLawsFreezeAndPreset : Prop :=
  ∀ (s : State) (i : ArcIssue) (rd rs1 rs2 : ArcReg) (cl : Fin 8) (cb sb : BitVec 8), s.dev.arcActs i = true →
    let c := s.dev.arcSees i
    let a := c.reg rs1
    let b := c.reg rs2
    let x := c.reg rd
    let k (j : Nat) : Word := Tab.get zeroWord (s.dev.arcEng i.eng).coef (2048 * c.bank.val + 8 * cb.toNat + j)
    let w := 4 * sb.toNat
    let y := ffma false (k 0) x (c.word w)
    let quiet (cmd : Instr) : Prop := Completes cmd s fun d => ArcFrame s.dev d i [] [] ∧ ArcBitsStand s.dev d i.eng ∧
      d.regs = s.dev.regs
    (Completes (.arcBiq i rd cb sb) s fun d => (d.arcEng i.eng).ctx.reg rd = y.1 ∧
      ArcFrame s.dev d i [rd] [] [(i.cycle + 8, w, (fadd (ffma true (k 3) y.1 (fmul (k 1) x).1).1 (c.word (w + 1))).1),
        (i.cycle + 8, w + 1, (ffma true (k 4) y.1 (fmul (k 2) x).1).1)] ∧ ArcBitsStand s.dev d i.eng) ∧
    (Completes (.arcLl i rd cb sb) s fun d => (d.arcEng i.eng).ctx.reg rd = y.1 ∧
      ArcFrame s.dev d i [rd] [] [(i.cycle + 6, w, (ffma true (k 2) y.1 (fmul (k 1) x).1).1)] ∧ ArcBitsStand s.dev d i.eng) ∧
    (c.clamp.getLsbD cl = false → ArcGives (.arcInteg i cl rd rs1 rs2) s i rd (ffma false a b x)) ∧
    (c.clamp.getLsbD cl = true → quiet (.arcInteg i cl rd rs1 rs2)) ∧
    (a.sle b = true → Completes (.arcClamp i true cl rd rs1 rs2) s fun d =>
      (d.arcEng i.eng).ctx.reg rd = (if x.slt a then a else if b.slt x then b else x) ∧
      (d.arcEng i.eng).ctx.clamp.getLsbD cl = (x.slt a || b.slt x) ∧
      (∀ o < 8, o ≠ cl.val → (d.arcEng i.eng).ctx.clamp.getLsbD o = (s.dev.arcEng i.eng).ctx.clamp.getLsbD o) ∧
      ArcFrame s.dev d i [rd] [] ∧ d.regs = s.dev.regs) ∧
    (Completes (.arcClamp i false cl rd rs1 rs2) s fun d =>
      (d.arcEng i.eng).ctx.reg rd = (arcClamp false x a b).1 ∧
      (d.arcEng i.eng).ctx.clamp.getLsbD cl = (arcClamp false x a b).2 ∧ ArcFrame s.dev d i [rd] [] ∧
      ArcFlags s.dev d i.eng { nan := isNan x || isNan a || isNan b }) ∧
    ArcGives (.arcPreset i false cl rd rs1 rs2) s i rd (fsub a b) ∧
    (c.arm.getLsbD cl = true → c.clamp.getLsbD cl = false → Completes (.arcPreset i true cl rd rs1 rs2) s fun d =>
      (d.arcEng i.eng).ctx.reg rd = (fsub a b).1 ∧ (d.arcEng i.eng).ctx.arm.getLsbD cl = false ∧
      ArcFrame s.dev d i [rd] [] ∧ ArcFlags s.dev d i.eng (fsub a b).2) ∧
    (c.arm.getLsbD cl = false ∨ c.clamp.getLsbD cl = true → quiet (.arcPreset i true cl rd rs1 rs2))

/-! ## Arc pairs and their loader -/

/-- The compare unit. What an engine of the pair presents by EMIT or EVENT goes out where another voter has presented the same
at its place (or the engine is alone), a drive port then holding the value within its range, and a record of an event
joining the FIFO that has room; where the other engine of two has presented something else, that is a mismatch: nothing more
goes out in the period and a takeover with the first spare begins. In a voting period with a third voter the majority goes out.
SWAP asks for an exchange at the next boundary, and WAITTICK leaves the engine idle. A mismatch of a pair that does not run, has
failed or is not full does nothing; within a takeover it is part of that, and is a first detection only in a hand-over's voting
period. The checkpoint reaches every engine of the pair once. A record leaves the FIFO for the servo event
stream while that has room. -/
def Obligations.PairsForwardWhatAgrees : Prop :=
  ∀ (s : State) (i : ArcIssue) (rd : ArcReg) (port : BitVec 9) (code : BitVec 11) (p : ArcPair) (report : List ArcEng),
    let e := i.eng.val
    let own := s.dev.runsFor e
    let vs := s.dev.voters own
    let n := (s.dev.arcEng e).posts.length
    let v := (s.dev.arcSees i).reg rd
    let live := (s.dev.arcPair own).quiet = false ∧ s.dev.pairFailed own = false ∧ e ∈ vs
    let goes (x : ArcPost) : Prop := vs = [e] ∨
      (s.dev.arcPair own).fwd ≤ n ∧ (∃ o ∈ vs, o ≠ e ∧ (s.dev.arcEng o).posts[n]? = some x) ∧
        ∀ o ∈ vs, o ≠ e → ∀ y, (s.dev.arcEng o).posts[n]? = some y → y = x
    let wins (x : ArcPost) : Prop := (s.dev.arcPair own).fwd ≤ n ∧ (∃ o ∈ vs, o ≠ e ∧ (s.dev.arcEng o).posts[n]? = some x) ∧
      ∃ t, (s.dev.arcPair own).takeover = some t ∧ t.voting = true ∧ t.spare.isSome = true
    let differs (x : ArcPost) : Prop := vs.length = 2 ∧ (∀ t, (s.dev.arcPair own).takeover = some t → t.voting = true) ∧
      ∃ o ∈ vs, o ≠ e ∧ ∃ y, (s.dev.arcEng o).posts[n]? = some y ∧ y ≠ x
    let upset := s.dev.pairRuns own = true ∧ 2 ≤ (s.dev.pairEngines own).length
    (s.dev.arcActs i = true →
      (Completes (.arcEmit i rd port) s fun d => (d.arcEng e).posts = (s.dev.arcEng e).posts ++ [.emit port v] ∧
        (live → goes (.emit port v) → (d.arcPair own).fwd = n + 1 ∧
          (port.toNat < 0x100 → port.toNat % 0x80 ≤ 1 → d.outPort port.toNat = portInt v (-32767) 32767)) ∧
        (live → wins (.emit port v) → (d.arcPair own).fwd = n + 1 ∧
          (port.toNat < 0x100 → port.toNat % 0x80 ≤ 1 → d.outPort port.toNat = portInt v (-32767) 32767)) ∧
        (live → differs (.emit port v) → upset → (d.arcPair own).quiet = true ∧ (d.arcPair own).takeover.isSome = true ∧
          d.arc.ports = s.dev.arc.ports) ∧
        (¬live → d = { s.dev with
          arc := { s.dev.arc with eng := d.arc.eng }, mot := { s.dev.mot with now := d.mot.now } })) ∧
      (Completes (.arcEvent i rd code) s fun d => (d.arcEng e).posts = (s.dev.arcEng e).posts ++ [.event code v] ∧
        (live → goes (.event code v) → (d.arcPair own).fwd = n + 1 ∧
          (code.toNat < 0x600 → (s.dev.arcPair own).fifo.length < 32 → (d.arcPair own).fifo =
            (s.dev.arcPair own).fifo ++ [⟨s.dev.esn, (s.dev.pairEngines own).headD 0, code.toNat, v⟩])) ∧
        (live → differs (.event code v) → upset → (d.arcPair own).quiet = true ∧ (d.arcPair own).takeover.isSome = true) ∧
        (¬live → d = { s.dev with arc := { s.dev.arc with eng := d.arc.eng } })) ∧
      (Completes (.arcSwap i) s fun d =>
        ((s.dev.arcPair own).quiet = false → e ∈ vs → (d.arcPair own).swapDue = true ∧
          ∀ o ∈ s.dev.pairEngines own, d.bit (Fld.ARC_STATUS_SWAP_PENDING o) = true) ∧
        ((s.dev.arcPair own).quiet = true ∨ e ∉ vs → d = { s.dev with arc := { s.dev.arc with eng := d.arc.eng } })) ∧
      (Completes (.arcWaittick i) s fun d => (d.arcEng e).idle = true)) ∧
    (s.dev.pairRuns p = false ∨ s.dev.pairFailed p = true ∨ (s.dev.pairEngines p).length < 2 →
      exec (.arcMismatch p report) s = .next s) ∧
    (s.dev.pairRuns p = true → s.dev.pairFailed p = false → 2 ≤ (s.dev.pairEngines p).length →
      let found (d : Dev) : Prop := ∀ o ∈ s.dev.pairEngines p, d.bit (Fld.ARC_STATUS_MISMATCH o) = true ∧
        d.reg (Adr.ARC_CNT o 2) = s.dev.counted (Adr.ARC_CNT o 2) 1
      Completes (.arcMismatch p report) s fun d => d.arc.ports = s.dev.arc.ports ∧
        ((s.dev.arcPair p).takeover = none → (d.arcPair p).quiet = true ∧
          (d.arcPair p).takeover = some { spare := s.dev.arcSpare } ∧ found d) ∧
        (∀ t, (s.dev.arcPair p).takeover = some t → t.voting = false → d.arcPair p = s.dev.arcPair p ∧ d.regs = s.dev.regs) ∧
        (∀ t, (s.dev.arcPair p).takeover = some t → t.voting = true →
          (d.arcPair p).takeover = some { t with again := true } ∧
          (d.arcPair p).quiet = ((s.dev.arcPair p).quiet || t.spare.isNone) ∧
          (t.handover = true → t.again = false → found d) ∧ (t.handover = false ∨ t.again = true → d.regs = s.dev.regs))) ∧
    ((∀ t, (s.dev.arcPair p).takeover = some t → t.loaded = true) → exec (.arcCheckpointLoaded p) s = .next s) ∧
    (∀ t, (s.dev.arcPair p).takeover = some t → t.loaded = false → Completes (.arcCheckpointLoaded p) s fun d =>
      (∀ o ∈ s.dev.pairEngines p, (d.arcEng o).ctx = (s.dev.arcPair p).ckpt) ∧
      (d.arcPair p).takeover = some { t with loaded := true } ∧ d = { s.dev with arc := d.arc } ∧ d.arc.ports = s.dev.arc.ports) ∧
    (s.dev.queueFull servoQueue = true ∨ (s.dev.arcPair p).fifo = [] → exec (.arcEventDrain p) s = .next s) ∧
    (∀ r rest, s.dev.queueFull servoQueue = false → (s.dev.arcPair p).fifo = r :: rest → (s.dev.arcPair p).lost = false →
      Completes (.arcEventDrain p) s fun d => (d.arcPair p).fifo = rest ∧
        d.fld (Fld.SPP_Q_PTR_TAIL servoQueue) =
          (s.dev.fld (Fld.SPP_Q_PTR_TAIL servoQueue) + 1) % (2 * s.dev.queueSize servoQueue) % 2 ^ (Fld.SPP_Q_PTR_TAIL 96).width)

/-- Period boundaries and the loader. A pair that runs nothing and has no admitted program does nothing at a tick, but that the time of the
motor outputs goes on where its image has them; one with an admitted program starts it, bank 0. A running pair whose engines idle, without takeover, hand-over or new program, counts the
period and begins it with fresh posts, its banks exchanged where that is due (the clamp bits then entering the arm bits of a
BUMPLESS image) and standing where not; in a held period no port changes, until the checkpoint is loaded and the voting period begins; an
admitted program ends a takeover. A swap request waits for the boundary. A period that
is out of range is discarded; one whose budget the bound does not fit is refused; else it waits for the boundary of a running
pair, or takes force. GO starts the loader unless it is busy; a load ends with its result, and changes the pair only where
that is ADMITTED; a hand-over that cannot be ends with NO_ENGINES. After PAIR_FAILED the engines that failed their test
retire, and the program waits on two engines, or leaves the pair. -/
def Obligations.PairsStepAtBoundaries : Prop :=
  ∀ (s : State) (p : ArcPair) (b : Bool) (e : ArcEng) (v : Word) (failed : List ArcEng),
    let ps := s.dev.arcPair p
    let es := s.dev.pairEngines p
    let own := s.dev.pairOf e
    let pv := v &&& 0x00ff7f03
    let bad := fieldOf pv 0 2 = 3 ∨ fieldOf pv 8 7 = 0 ∨ 64 < fieldOf pv 8 7 ∨ fieldOf pv 16 8 = 0
    let fits := boundFits (s.dev.fld (Fld.ARC_BOUND_BOUND e)) (arcBudget pv)
    let out := fieldOf v 12 3
    let inn := fieldOf v 8 3
    let lp := s.dev.fld Fld.ARC_LDR_CTRL_PAIR
    let r := s.dev.loadResult lp s.dev.imageBytes
    (s.dev.pairRuns p = false → ps.next = none → Completes (.arcPeriodTick p b) s fun d =>
      d = { s.dev with mot := { s.dev.mot with periodAt := d.mot.periodAt, now := d.mot.now } } ∧
      (s.dev.drivesMotor p = false → d = s.dev)) ∧
    (∀ im, s.dev.pairRuns p = false → ps.next = some im → Completes (.arcPeriodTick p b) s fun d =>
      (d.arcPair p).image = some im ∧ (d.arcPair p).next = none ∧ ∀ o ∈ es,
        d.bit (Fld.ARC_STATUS_RUNNING o) = true ∧ d.reg (Adr.ARC_IMAGE o) = im.crc ∧ (d.arcEng o).ctx.regs = im.regs ∧
        (d.arcEng o).ctx.bank = 0 ∧ (d.arcEng o).coef = im.coef) ∧
    (s.dev.pairRuns p = true → ps.next = none → ps.takeover = none → ps.handover = none →
      (∀ o ∈ es, (s.dev.arcEng o).idle = true) → Completes (.arcPeriodTick p b) s fun d =>
        (d.arcPair p).quiet = false ∧ (d.arcPair p).fwd = 0 ∧ ∀ o ∈ es,
          let c := (s.dev.arcEng o).ctx
          let c' := (d.arcEng o).ctx
          c'.pcnt = (c.pcnt + 1) % 2 ^ 32 ∧ c'.regs = c.regs ∧ c'.mem = c.mem ∧ c'.preds = c.preds ∧ c'.clamp = c.clamp ∧
          (d.arcEng o).posts = [] ∧ (d.arcEng o).idle = false ∧
          (ps.swapDue = true → c'.bank = c.bank + 1 ∧ (d.arcEng o).swapped = true ∧
            (ps.image.any (·.bumpless) = true → c'.arm = c.arm ||| c.clamp) ∧
            (ps.image.any (·.bumpless) = false → c'.arm = c.arm)) ∧
          (ps.swapDue = false → c'.bank = c.bank ∧ (d.arcEng o).swapped = false ∧ c'.arm = c.arm)) ∧
    (∀ t, s.dev.pairRuns p = true → ps.takeover = some t → t.voting = false →
      (ps.next = none → t.loaded = false → Completes (.arcPeriodTick p b) s fun d => d.arc.ports = s.dev.arc.ports ∧
        (d.arcPair p).takeover = some t) ∧
      (ps.next = none → t.loaded = true → Completes (.arcPeriodTick p b) s fun d =>
        (d.arcPair p).takeover = some { t with voting := true } ∧ (d.arcPair p).fwd = 0) ∧
      (∀ im, ps.next = some im → ps.handover = none → Completes (.arcPeriodTick p b) s fun d =>
        (d.arcPair p).takeover = none ∧ (d.arcPair p).image = some im ∧ (d.arcPair p).next = none)) ∧
    (Completes (.arcSwapReq e) s fun d => (d.arcPair own).swapDue = true ∧
      (∀ o ∈ s.dev.pairEngines own, d.bit (Fld.ARC_STATUS_SWAP_PENDING o) = true) ∧
      d = { s.dev with regs := d.regs, arc := d.arc }) ∧
    (bad → exec (.arcPeriodWrite e v) s = .next s) ∧
    (¬bad → s.dev.pairRuns own = false → Completes (.arcPeriodWrite e v) s fun d => d.reg (Adr.ARC_PERIOD e) = pv ∧
      d = { s.dev with regs := d.regs } ∧ SameRegs s.dev d [Adr.ARC_PERIOD e]) ∧
    (¬bad → s.dev.pairRuns own = true → fits = true → Completes (.arcPeriodWrite e v) s fun d =>
      (d.arcPair own).periodNext = some pv ∧ d = { s.dev with arc := d.arc }) ∧
    (¬bad → s.dev.pairRuns own = true → fits = false → Completes (.arcPeriodWrite e v) s fun d =>
      (∀ o ∈ s.dev.pairEngines own, d.bit (Fld.ARC_STATUS_PERIOD_REFUSED o) = true ∧
        d.reg (Adr.ARC_PERIOD o) = s.dev.reg (Adr.ARC_PERIOD o)) ∧
      (d.arcPair own).periodNext = (s.dev.arcPair own).periodNext) ∧
    (s.dev.bit Fld.ARC_LDR_STATUS_BUSY = true → exec (.arcLoad v) s = .next s ∧ exec (.arcHandover v) s = .next s) ∧
    (s.dev.bit Fld.ARC_LDR_STATUS_BUSY = false → Completes (.arcLoad v) s fun d => d.arc.loading = some 0 ∧
      d.bit Fld.ARC_LDR_STATUS_BUSY = true ∧ d.fld Fld.ARC_LDR_CTRL_PAIR = fieldOf v 4 2 ∧ d.arc.pair = s.dev.arc.pair) ∧
    (s.dev.bit Fld.ARC_LDR_STATUS_BUSY = false →
      (s.dev.handoverOk (s.dev.pairOf out) out inn = true → Completes (.arcHandover v) s fun d =>
        (d.arcPair (s.dev.pairOf out)).handover = some (out, inn, 0) ∧ d.bit Fld.ARC_LDR_STATUS_BUSY = true) ∧
      (s.dev.handoverOk (s.dev.pairOf out) out inn = false → Completes (.arcHandover v) s fun d =>
        d.arc.pair = s.dev.arc.pair ∧ d.fld Fld.ARC_LDR_STATUS_RESULT = 10 ∧ d.bit Fld.ARC_LDR_STATUS_DONE = true ∧
        d.bit Fld.ARC_LDR_STATUS_BUSY = false)) ∧
    (s.dev.arc.loading ≠ some 0 → exec .arcLoadDone s = .next s) ∧
    (s.dev.arc.loading = some 0 → Completes .arcLoadDone s fun d => d.fld Fld.ARC_LDR_STATUS_RESULT = r ∧
      d.bit Fld.ARC_LDR_STATUS_DONE = true ∧ d.bit Fld.ARC_LDR_STATUS_BUSY = false ∧ d.arc.loading = none ∧
      (r = 0 → (d.arcPair lp).next = some (parseImage s.dev.imageBytes)) ∧ (r ≠ 0 → d.arc.pair = s.dev.arc.pair)) ∧
    (Completes (.arcCntClr e) s fun d => (∀ k < 8, d.reg (Adr.ARC_CNT e k) = 0) ∧ d = { s.dev with regs := d.regs } ∧
      SameRegs s.dev d ((List.range 8).map (Adr.ARC_CNT e))) ∧
    (s.dev.pairFailed p = false → exec (.pairFailedRecovery p failed) s = .next s) ∧
    (s.dev.pairFailed p = true → Completes (.pairFailedRecovery p failed) s fun d =>
      (∀ o ∈ failed, o.val ∈ es ∨ o.val ∈ ps.tested → d.dead 7 o = true ∧ d.arcUp o = false) ∧
      (ps.image = none → (d.arcPair p).image = none ∧ (d.arcPair p).next = none) ∧
      (∀ im, ps.image = some im → (d.arcPair p).next = some { im with keepState := false } ∨ (d.arcPair p).image = none))

/-! ## Spindle, profiler and sleds -/

/-- The spindle. A TARGET above SPN_MAX sets SPEED_REFUSED alone; another is stored, and one that is not 0 takes a stage that is
enabled from OFF to MEASURE, or holds the start while it is disabled, while 0 takes a start in progress to STOPPING with the
winding short. SPN_EN 0 leaves every state but OFF for COAST, with the duties at 0. MEASURE ends in the drive (with a TARGET
of 0, in STOPPING: log 117), REV_BRAKE or PROBE by the crossings seen; REV_BRAKE ends in PROBE, or START_FAIL; the probe ends in KICK at the angle found, or is
doubled and then replaced by the 0° vector; a kick ends in STEP6 at a good crossing, or is repeated up to KICKS. A qualified crossing of STEP6
has the next commutation follow half of T60 later, and one within ZC_BLANK of the last counts for nothing. Six missed
windows or two wrong crossings in a row cost synchronisation, and MEASURE follows. STOPPING ends at rest in OFF, or MEASURE
for a held start. An end of a state that is not the present one changes nothing. -/
def Obligations.SpindleStartsAndStops : Prop :=
  ∀ (s : State) (v : Word) (cr : List Crossing) (z : ZeroCross) (cur : List Nat),
    let st := s.dev.spnState
    let spn := s.dev.mot.spn
    let en := s.dev.bit Fld.MOT_CTRL_SPN_EN
    let stops := s.dev.fld Fld.SPN_TARGET_TARGET == 0
    let t60 := if cr.length ≤ 1 then 0 else
      ((cr.getLast?.map (·.time)).getD 0 - (cr.head?.map (·.time)).getD 0) / (cr.length - 1)
    let r := s.dev.speedOfT60 t60
    let fast := 4 ≤ cr.length ∧ t60 ≠ 0 ∧ s.dev.fld Fld.SPN_LIMIT_STOP_RPM * r.2 < r.1
    let forward := ordered (fun a b => b == nextPhase a) cr
    let g := greatestAt (probeDiffs cur)
    let lost (d : Dev) : Prop := d.bit Fld.MOT_STATUS_SYNC_LOST = true ∧ d.spnState = spnMeasure ∧
      d.reg (Adr.MOT_CNT 6) = s.dev.counted (Adr.MOT_CNT 6) 1
    (s.dev.fld Fld.SPN_LIMIT_SPN_MAX < fieldOf v 0 16 → Completes (.spnTargetWrite v) s fun d =>
      d.bit Fld.MOT_STATUS_SPEED_REFUSED = true ∧ d = { s.dev with regs := d.regs } ∧ SameRegs s.dev d [Adr.MOT_STATUS]) ∧
    (fieldOf v 0 16 ≤ s.dev.fld Fld.SPN_LIMIT_SPN_MAX → Completes (.spnTargetWrite v) s fun d => d.reg Adr.SPN_TARGET = v ∧
      (fieldOf v 0 16 ≠ 0 → st = spnOff → (en = true → d.spnState = spnMeasure) ∧
        (en = false → d.spnState = spnOff ∧ d.mot.spn.held = true)) ∧
      (fieldOf v 0 16 = 0 → st ∈ [spnMeasure, spnRevBrake, spnProbe, spnKick] → d.spnState = spnStopping ∧
        d.mot.spn.short = true)) ∧
    (Completes (.spnEnWrite false) s fun d => d.bit Fld.MOT_CTRL_SPN_EN = false ∧
      d.spnState = (if st = spnOff then spnOff else spnCoast) ∧ ∀ q ∈ [0x100, 0x101, 0x102, 0x103], d.outPort q = 0) ∧
    (Completes (.spnEnWrite true) s fun d => d.bit Fld.MOT_CTRL_SPN_EN = true ∧
      (st = spnOff → spn.held = true → d.spnState = spnMeasure) ∧ (st = spnOff → spn.held = false → d.spnState = spnOff)) ∧
    (st ≠ spnMeasure → exec (.measureEnd cr) s = .next s) ∧
    (st = spnMeasure → fast → forward = true → Completes (.measureEnd cr) s fun d =>
      (stops = false → d.spnState = spnFoc ∨ d.spnState = spnStep6) ∧ (stops = true → d.spnState = spnStopping) ∧
      d.mot.spn.handoverNext = true ∧
      d.reg (Adr.MOT_CNT 1) = s.dev.counted (Adr.MOT_CNT 1) 1) ∧
    (st = spnMeasure → fast → forward = false → ordered (fun a b => a == nextPhase b) cr = true →
      Completes (.measureEnd cr) s fun d => d.spnState = spnRevBrake ∧ d.mot.spn.short = true ∧
        d.reg (Adr.MOT_CNT 2) = s.dev.counted (Adr.MOT_CNT 2) 1) ∧
    (st = spnMeasure → ¬fast → Completes (.measureEnd cr) s fun d => d.spnState = spnProbe) ∧
    (st ≠ spnRevBrake → exec .revBrakeQuiet s = .next s ∧ exec .revBrakeTimeout s = .next s) ∧
    (st = spnRevBrake → (Completes .revBrakeQuiet s fun d => d.spnState = spnProbe ∧ d.mot.spn.short = false) ∧
      Completes .revBrakeTimeout s fun d => d.bit Fld.MOT_STATUS_START_FAIL = true ∧
        (d.spnState = spnOff ∨ d.spnState = spnMeasure)) ∧
    (st ≠ spnProbe ∨ spn.zeroVector = true → exec (.probeDone cur) s = .next s) ∧
    (st = spnProbe → spn.zeroVector = false →
      (s.dev.fld Fld.SPN_START_CFG2_PROBE_MIN ≤ g.2.natAbs → Completes (.probeDone cur) s fun d => d.spnState = spnKick ∧
        d.mot.spn.kicks = spn.kicks + 1 ∧ d.fld Fld.SPN_PROBE_ANGLE =
          ((if 0 < g.2 then 60 * g.1 else 60 * g.1 + 180) + (if cur[7]?.getD 0 < cur[6]?.getD 0 then 15 else 345)) % 360) ∧
      (g.2.natAbs < s.dev.fld Fld.SPN_START_CFG2_PROBE_MIN → Completes (.probeDone cur) s fun d => d.spnState = spnProbe ∧
        (spn.doubled = false → d.mot.spn.doubled = true ∧ d.mot.spn.zeroVector = false) ∧
        (spn.doubled = true → d.mot.spn.zeroVector = true))) ∧
    (st = spnProbe → spn.zeroVector = true → Completes .zeroDegreeVectorEnd s fun d => d.spnState = spnKick ∧
      d.fld Fld.SPN_PROBE_ANGLE = 0 ∧ d.mot.spn.kicks = spn.kicks + 1) ∧
    (st ≠ spnProbe ∨ spn.zeroVector = false → exec .zeroDegreeVectorEnd s = .next s) ∧
    (st ≠ spnKick → exec .kickTimeout s = .next s) ∧
    (st = spnKick → Completes .kickTimeout s fun d =>
      (spn.kicks < s.dev.fld Fld.SPN_START_CFG_KICKS → d.spnState = spnProbe) ∧
      (s.dev.fld Fld.SPN_START_CFG_KICKS ≤ spn.kicks → d.bit Fld.MOT_STATUS_START_FAIL = true)) ∧
    (s.dev.programGoverns = true → z.inWindow = false ∨ s.dev.blanked z = true → exec (.zeroCrossing z) s = .next s) ∧
    (s.dev.programGoverns = true → z.inWindow = true → s.dev.blanked z = false → z.polarity = true →
      Completes (.zeroCrossing z) s fun d => d.mot.spn.missed = 0 ∧ d.mot.spn.wrong = 0 ∧ d.mot.spn.sector = spn.sector ∧
        (st = spnStep6 → d.mot.spn.commute =
          some (meanOf ((z.interval :: spn.intervals).take (6 * s.dev.fld Fld.SPN_CFG_POLE_PAIRS)) / 2))) ∧
    (s.dev.programGoverns = true → z.inWindow = true → s.dev.blanked z = false → z.polarity = false →
      (spn.wrong = 0 → Completes (.zeroCrossing z) s fun d => d.mot.spn.wrong = 1 ∧ d.spnState = st) ∧
      (1 ≤ spn.wrong → Completes (.zeroCrossing z) s lost)) ∧
    (st = spnKick → z.inWindow = true → z.polarity = true → z.interval ≠ 0 → Completes (.zeroCrossing z) s fun d =>
      d.spnState = (if stops then spnStopping else spnStep6) ∧ d.mot.spn.handoverNext = true) ∧
    (s.dev.programGoverns = false → exec .zcWindowClose s = .next s) ∧
    (s.dev.programGoverns = true → spn.missed < 5 → Completes .zcWindowClose s fun d => d.mot.spn.missed = spn.missed + 1 ∧
      d = { s.dev with mot := d.mot }) ∧
    (s.dev.programGoverns = true → 5 ≤ spn.missed → Completes .zcWindowClose s lost) ∧
    (st = spnStopping → spn.short = true → Completes .shortQuietTimeout s fun d => d.fld Fld.SPN_SPEED_RPM = 0 ∧
      d.spnState = (if spn.held = true ∧ en = true then spnMeasure else spnOff)) ∧
    (st ≠ spnStopping ∨ spn.short = false → exec .shortQuietTimeout s = .next s)

/-- The motor supply and the tick. Overcurrent sets OC and cuts its phase until the next tick. The chopper follows its threshold.
OV1 is counted and starts the check, whose end without a chopper current sets CHOP_FAULT and REGEN_INHIBIT and shorts the
winding of a stage that is enabled and has not tripped; the bus below BRK_OFF ends SHORT. OV2, and MOT_FLT as OV2, are counted and leave the spindle in COAST with its duties at
0; OV2 is cleared only while the bus is low. A tick shows the converted bus, and advances each running table along its cubic
to the exact end of its segment; a homed sled inside its limits that runs no HOME stays inside them. CNT_CLR
clears the counters. -/
def Obligations.MotorTicksAndTrips : Prop :=
  ∀ (s : State) (m : MotorSamples) (ph : Phase) (above : Bool) (c : Fin 6) (h : Head) (trip : Instr), trip ∈ [.ov2, .motFlt] →
    let st := s.dev.spnState
    let spn := s.dev.mot.spn
    let x := s.dev.prf c
    let l := s.dev.vlim h.ix
    (Completes (.spindleOvercurrent ph) s fun d => d.bit Fld.MOT_STATUS_OC = true ∧ phaseIx ph ∈ d.mot.spn.cut) ∧
    (Completes (.chopperThreshold above) s fun d => d.mot.spn.chopper = above ∧ d.mot.spn.busLow = !above ∧
      d = { s.dev with mot := d.mot }) ∧
    (Completes .ov1 s fun d => d.bit Fld.MOT_STATUS_OV1 = true ∧ d.mot.spn.chopCheck = true ∧
      d.reg (Adr.MOT_CNT 3) = s.dev.counted (Adr.MOT_CNT 3) 1) ∧
    (spn.chopCheck = false → exec .chopCheckTimeout s = .next s) ∧
    (spn.chopCheck = true → Completes .chopCheckTimeout s fun d => d.bit Fld.MOT_STATUS_CHOP_FAULT = true ∧
      d.bit Fld.MOT_CTRL_REGEN_INHIBIT = true ∧ d.reg (Adr.MOT_CNT 4) = s.dev.counted (Adr.MOT_CNT 4) 1 ∧
      (let off := !s.dev.bit Fld.MOT_CTRL_SPN_EN || (s.dev.bit Fld.MOT_STATUS_OV2 && st == spnCoast)
       (off = false → d.spnState = spnShort ∧ d.mot.spn.short = true) ∧ (off = true → d.spnState = st))) ∧
    (Completes .busBelowBrkOff s fun d => d.mot.spn.busLow = true ∧ d.mot.spn.chopper = false ∧
      (st = spnShort → s.dev.fld Fld.SPN_TARGET_TARGET = 0 → d.spnState = spnStopping) ∧
      (st = spnShort → s.dev.fld Fld.SPN_TARGET_TARGET ≠ 0 → d.spnState =
        if s.dev.bit Fld.MOT_CTRL_SPN_EN then spnMeasure else spnCoast)) ∧
    (Completes trip s fun d => d.bit Fld.MOT_STATUS_OV2 = true ∧ d.spnState = spnCoast ∧ (∀ q ∈ [0x100, 0x101, 0x102, 0x103], d.outPort q = 0) ∧
      d.reg (Adr.MOT_CNT 5) = s.dev.counted (Adr.MOT_CNT 5) 1) ∧
    (spn.busLow = true → Completes .ov2Clear s fun d => d.bit Fld.MOT_STATUS_OV2 = false ∧ d = { s.dev with regs := d.regs } ∧
      SameRegs s.dev d [Adr.MOT_STATUS]) ∧
    (spn.busLow = false → exec .ov2Clear s = .next s) ∧
    (Completes (.spindleCurrentTick m) s fun d => d.fld Fld.MOT_BUS_MON_VBUS = m.bus.toNat ∧
      d.fld Fld.MOT_BUS_MON_CHOP_I = m.chopper.toNat ∧
      (∀ g rest, 2 ≤ c.val → x.segs = g :: rest →
        (x.k + 1 < g.dur → (d.prf c).k = x.k + 1 ∧ (d.prf c).segs = x.segs ∧
          (d.prf c).p = (hermite x.p0 x.v0 (g.pos * 65536) (g.vel * 256) g.dur (x.k + 1)).1) ∧
        (g.dur ≤ x.k + 1 → (d.prf c).p = g.pos * 65536 ∧ (d.prf c).v = g.vel * 256 ∧ (d.prf c).segs = rest ∧
          (rest = [] → d.bit (Fld.PRF_STATUS_DONE c) = true ∧ d.bit (Fld.PRF_STATUS_BUSY c) = false))) ∧
      (s.dev.hasSled h.ix = true → s.dev.bit (Fld.SLD_STATUS_HOMED h.ix) = true → s.dev.sledMode h.ix ≠ sledHome →
        l.1 ≤ (s.dev.prf h.ix).p → (s.dev.prf h.ix).p ≤ l.2 →
        l.1 ≤ (d.prf h.ix).p ∧ (d.prf h.ix).p ≤ l.2)) ∧
    (Completes .motCntClr s fun d => (∀ k < 8, d.reg (Adr.MOT_CNT k) = 0) ∧ d = { s.dev with regs := d.regs } ∧
      SameRegs s.dev d ((List.range 8).map Adr.MOT_CNT))

/-- The profiler and the sleds. A channel or sled that is not there takes no command, and sled B and the channels of odd number take none in KD
mode. GO on channels 2 to 5 starts the table it
names, or sets REFUSED for a channel that is busy and for a table that is not valid; on 0 and 1 it only stores START. STOP ends
a table at once with its position held. A move, track or park of a sled that homes, runs a table or is not homed is refused;
a goal beyond the virtual limits sets VLIM_REFUSED as well. HOME clears HOMED, and is refused by the far switch. STOP comes to
rest. DEC is stored, and acts at once unless the sled brakes. The hold timer acts at rest alone. A switch's transition is
recorded with its position; its edge shows the level, and an active one during a move latches, clears HOMED and is counted. -/
def Obligations.SledsObeyLimits : Prop :=
  ∀ (s : State) (h : Head) (c : Fin 6) (start : BitVec 10) (v : Word) (far level : Bool),
    let n := h.ix
    let mode := s.dev.sledMode n
    let homed := s.dev.bit (Fld.SLD_STATUS_HOMED n)
    let goal := (s.dev.reg (Adr.SLD_TARGET n)).toInt * 65536
    let park := (s.dev.reg (Adr.SLD_PARK_POS n)).toInt * 65536
    let l := s.dev.vlim n
    let table := (s.dev.put (Fld.PRF_CTRL_START c) start.toNat).checkTable c
    let raw := if far then (s.dev.sled n).rawFar else (s.dev.sled n).rawHome
    let refused (cmd : Instr) : Prop := Completes cmd s fun d => d.bit (Fld.SLD_STATUS_CMD_REFUSED n) = true ∧ d.sledMode n = mode ∧
      d.mot = s.dev.mot
    let goes (cmd : Instr) (m : Nat) (aim : Int) : Prop := Completes cmd s fun d => d.sledMode n = m ∧
      d.bit (Fld.SLD_STATUS_BUSY n) = true ∧ (d.sled n).goal = aim ∧ d = { s.dev with regs := d.regs, mot := d.mot } ∧
      SameRegs s.dev d [Adr.SLD_STATUS n]
    (s.dev.hasSled n = false → ∀ cmd ∈ [.sledHome h, .sledMove h, .sledTable h, .sledTrack h, .sledStop h, .sledPark h,
      .sledDecWrite h v, .limitEdge h far, .sledHoldTimer h, .limitRawTransition h far level], exec cmd s = .next s) ∧
    (s.dev.sledTakes n = false → ∀ cmd ∈ [.sledHome h, .sledMove h, .sledTable h, .sledTrack h, .sledStop h, .sledPark h],
      exec cmd s = .next s) ∧
    (s.dev.hasChannel c = false → exec (.prfGo c start) s = .next s) ∧
    (s.dev.hasChannel c = true → Completes (.prfGo c start) s fun d => d.fld (Fld.PRF_CTRL_START c) = start.toNat ∧
      (c.val < 2 ∨ s.dev.profileTakes c = false → d = { s.dev with regs := d.regs }) ∧
      (2 ≤ c.val → s.dev.profileTakes c = true → s.dev.bit (Fld.PRF_STATUS_BUSY c) = true ∨ table = none → d.bit (Fld.PRF_STATUS_REFUSED c) = true ∧
        d.mot = s.dev.mot) ∧
      (∀ t, 2 ≤ c.val → s.dev.profileTakes c = true → s.dev.bit (Fld.PRF_STATUS_BUSY c) = false → table = some t →
        d.bit (Fld.PRF_STATUS_BUSY c) = true ∧ (d.prf c).segs = t ∧ (d.prf c).k = 0 ∧ (d.prf c).p = (s.dev.prf c).p)) ∧
    (c.val < 2 ∨ s.dev.profileTakes c = false ∨ s.dev.bit (Fld.PRF_STATUS_BUSY c) = false → exec (.prfStop c) s = .next s) ∧
    (2 ≤ c.val → s.dev.profileTakes c = true → s.dev.bit (Fld.PRF_STATUS_BUSY c) = true → Completes (.prfStop c) s fun d =>
      d.bit (Fld.PRF_STATUS_BUSY c) = false ∧ d.bit (Fld.PRF_STATUS_DONE c) = true ∧ (d.prf c).segs = [] ∧ (d.prf c).v = 0 ∧
      (d.prf c).p = (s.dev.prf c).p) ∧
    (s.dev.sledTakes n = true →
      (s.dev.sledBusy n = true ∨ homed = false → refused (.sledMove h) ∧ refused (.sledTrack h) ∧ refused (.sledTable h)) ∧
      (s.dev.sledBusy n = false → homed = true → (goal < l.1 ∨ l.2 < goal) → Completes (.sledMove h) s fun d =>
        d.bit (Fld.SLD_STATUS_VLIM_REFUSED n) = true ∧ d.bit (Fld.SLD_STATUS_CMD_REFUSED n) = true ∧ d.mot = s.dev.mot) ∧
      (s.dev.sledBusy n = false → homed = true → l.1 ≤ goal → goal ≤ l.2 → s.dev.towardLimit n goal goal = false →
        goes (.sledMove h) sledMove goal) ∧
      (s.dev.sledBusy n = false → homed = true → l.1 ≤ park → park ≤ l.2 → s.dev.towardLimit n park park = false →
        goes (.sledPark h) sledPark park) ∧
      (s.dev.sledBusy n = false → homed = true →
        s.dev.towardLimit n (clampInt l.1 l.2 (s.dev.trackGoal n)) (clampInt l.1 l.2 (s.dev.trackGoal n)) = false →
        goes (.sledTrack h) sledTrack (clampInt l.1 l.2 (s.dev.trackGoal n))) ∧
      (∀ t, s.dev.sledBusy n = false → homed = true → s.dev.checkTable n = some t →
        (tableExtremes (s.dev.prf n).p (s.dev.prf n).v t).all (fun p => decide (l.1 ≤ p) && decide (p ≤ l.2)) = true →
        s.dev.bit (Fld.SLD_STATUS_LIM_HOME n) = false → s.dev.bit (Fld.SLD_STATUS_LIM_FAR n) = false →
        Completes (.sledTable h) s fun d => d.sledMode n = sledTable ∧ (d.prf n).segs = t ∧
          d.bit (Fld.PRF_STATUS_BUSY n) = true) ∧
      (s.dev.sledBusy n = true → refused (.sledHome h)) ∧
      (s.dev.sledBusy n = false → s.dev.bit (Fld.SLD_STATUS_LIM_FAR n) = true → Completes (.sledHome h) s fun d =>
        d.bit (Fld.SLD_STATUS_HOME_FAIL n) = true ∧ d = { s.dev with regs := d.regs } ∧ d.sledMode n = mode) ∧
      (s.dev.sledBusy n = false → s.dev.bit (Fld.SLD_STATUS_LIM_FAR n) = false → Completes (.sledHome h) s fun d =>
        d.sledMode n = sledHome ∧ d.bit (Fld.SLD_STATUS_HOMED n) = false ∧ (d.sled n).home =
          if s.dev.bit (Fld.SLD_STATUS_LIM_HOME n) then .leave else .inward) ∧
      (Completes (.sledStop h) s fun d => d.sledMode n = (if (s.dev.prf n).v = 0 then sledIdle else sledStop) ∧
        (d.prf n).v = (s.dev.prf n).v)) ∧
    (s.dev.hasSled n = true →
      (Completes (.sledDecWrite h v) s fun d => d.reg (Adr.SLD_DEC n) = v ∧
        ((s.dev.sled n).brakeFrom = 0 → s.dev.sledMode n ≠ sledStop → (d.sled n).dec = v.toNat)) ∧
      ((s.dev.prf n).v = 0 → Completes (.sledHoldTimer h) s fun d => (d.sled n).hold = true ∧ d = { s.dev with mot := d.mot }) ∧
      ((s.dev.prf n).v ≠ 0 → exec (.sledHoldTimer h) s = .next s) ∧
      (Completes (.limitRawTransition h far level) s fun d => d = { s.dev with mot := d.mot } ∧
        let act := level == s.dev.bit (if far then Fld.SLD_LIM_CFG_POL_FAR n else Fld.SLD_LIM_CFG_POL_HOME n)
        (if far then (d.sled n).rawFar else (d.sled n).rawHome) =
          if act = s.dev.bit (if far then Fld.SLD_STATUS_LIM_FAR n else Fld.SLD_STATUS_LIM_HOME n) then none
          else some (act, (s.dev.prf n).p)) ∧
      (raw = none → exec (.limitEdge h far) s = .next s) ∧
      (∀ act pos, raw = some (act, pos) → Completes (.limitEdge h far) s fun d =>
        d.bit (if far then Fld.SLD_STATUS_LIM_FAR n else Fld.SLD_STATUS_LIM_HOME n) = act ∧
        (act = true → mode ∈ [sledMove, sledTable, sledTrack, sledPark] → (s.dev.sled n).ignore = false →
          d.bit (if far then Fld.SLD_STATUS_LIMIT_FAR n else Fld.SLD_STATUS_LIMIT_HOME n) = true ∧
          d.bit (Fld.SLD_STATUS_HOMED n) = false ∧ d.reg (Adr.MOT_CNT 7) = s.dev.counted (Adr.MOT_CNT 7) 1)))

/-! ## Span -/

/-- Span computation and data movement. An instruction that no running task issues changes nothing. Of one that a running task
issues, and that leaves the task in its region: each arithmetic and immediate instruction writes its result to rd, and a
division by 0 gives all ones, its remainder the dividend; CSRR reads the CSR, or a free value for a number that names none,
and CSRW writes it; a load gives the bytes of the buffer, of control space or of TCM, extended as its name says, and one of a
virgin page sets VIRGIN_READ; a store writes
its low bytes there and no other buffer byte, and a narrow one leaves a poisoned word; both reach the buffer through the shared cache, and
what an upset in a frame that they read does is the cache's statement; LQ and SQ move four registers. A write to
s0 is discarded. Registers, CSRs, other tasks and the block stand otherwise. -/
def Obligations.SpanComputesAndMovesData : Prop :=
  ∀ (s : State) (i : SpanIssue) (rd rs1 rs2 : SpanReg) (imm : BitVec 16) (jm : BitVec 21) (sh : BitVec 6) (c : BitVec 8)
    (op : SpanAluOp) (so : ShiftOp) (ao : AmoOp) (q : Fin 128) (k : Fin 8),
    (s.dev.issuer i = none → ∀ cmd ∈ [.spanAlu i op rd rs1 rs2, .spanAddi i rd rs1 imm, .spanAndi i rd rs1 imm,
      .spanOri i rd rs1 imm, .spanXori i rd rs1 imm, .spanShi i so sh rd rs1, .spanLui i rd imm, .spanSlti i rd rs1 imm,
      .spanLd i rd rs1 imm, .spanLwu i rd rs1 imm, .spanLw i rd rs1 imm, .spanLhu i rd rs1 imm, .spanLbu i rd rs1 imm,
      .spanSd i rs2 rs1 imm, .spanSw i rs2 rs1 imm, .spanSh i rs2 rs1 imm, .spanSb i rs2 rs1 imm, .spanLq i rd rs1 imm,
      .spanSq i rs2 rs1 imm, .spanBeq i rs1 rs2 imm, .spanBne i rs1 rs2 imm, .spanBlt i rs1 rs2 imm, .spanBge i rs1 rs2 imm,
      .spanBltu i rs1 rs2 imm, .spanBgeu i rs1 rs2 imm, .spanJal i rd jm, .spanJalr i rd rs1 imm, .spanFence i,
      .spanCsrr i rd c, .spanCsrw i rs1 c, .spanEret i, .spanPop i q rd rs1, .spanPush i q rd rs1, .dmaCopy i rd rs1,
      .dmaFill i rd rs1, .dmaHostIn i rd rs1, .dmaHostOut i rd rs1, .dmaCpl i rd rs1, .dispFrameJob i rd rs1,
      .dispStripeJob i rd rs1, .dispBandWrite i rd rs1, .spanStamp i rd k, .spanWait i rd rs1, .spanAmo i ao rd rs1 rs2,
      .spanCkpt i rd, .spanSignal i rs1], exec cmd s = .next s) ∧
    (∀ t, s.dev.issuer i = some t → s.dev.inRegion t ((s.dev.task t).pc + 4) = true →
      let a := s.dev.sreg t rs1
      let b := s.dev.sreg t rs2
      let adr := s.dev.spanAddr t rs1 imm
      let x := s.dev.task t
      let denied := s.dev.taskUser t = true ∧ c.toNat = csrHandler
      let alu (o : SpanAluOp) (v : DWord) : Prop := SpanTakes (.spanAlu i o rd rs1 rs2) s i t rd v
      let loads (cmd : Instr) (n : Nat) (ext : Nat → DWord) : Prop :=
        (spaceOf adr = spaceBuffer → s.dev.bufFault t adr n = none → s.dev.anyPoison adr.toNat n = false →
          (∀ g ∈ touchedPages adr.toNat n, s.dev.virgin g = false) → s.dev.calmSet adr →
          SpanLoads cmd s i t rd (ext (leValue (s.dev.bufRead adr.toNat n)))) ∧
        (spaceOf adr = spaceBuffer → s.dev.bufFault t adr n = none → s.dev.virgin (adr.toNat / 4096) = true →
          s.dev.anyPoison adr.toNat n = false → s.dev.calmSet adr → Completes cmd s fun d => d.mem = s.dev.mem ∧
            d.sreg t rd = (if rd = 0 then 0 else ext (leValue (s.dev.bufRead adr.toNat n))) ∧
            d.bit Fld.MEM_STATUS_VIRGIN_READ = true ∧ d.fld Fld.MEM_ERR_KIND_KIND = 5) ∧
        (spaceOf adr = spaceTcm →
          SpanTakes cmd s i t rd (ext (leValue (s.dev.tcmRead (s.dev.taskProc t) (adr.toNat % 65536) n)))) ∧
        (spaceOf adr = spaceControl → s.dev.controlFault t adr n = none → controlOff adr ≠ Adr.LOCUS_NOW_LO →
          controlOff adr ≠ Adr.SPP_CNT i.proc 0 → SpanTakes cmd s i t rd (ext (s.dev.busWord (controlOff adr)).toNat))
      let stores (cmd : Instr) (n : Nat) : Prop :=
        (spaceOf adr = spaceBuffer → s.dev.bufFault t adr n = none → n = 8 ∨ s.dev.anyPoison adr.toNat n = false →
          s.dev.calmSet adr → Completes cmd s fun d => d.bufRead adr.toNat n = leBytes n b.toNat ∧
            (∀ y, y < adr.toNat ∨ adr.toNat + n ≤ y → d.bufRead y 1 = s.dev.bufRead y 1) ∧
            d.task t = { x with pc := x.pc + 4 } ∧ (∀ u, u ≠ t → d.task u = s.dev.task u) ∧ d.span.tcm = s.dev.span.tcm ∧
            d = { s.dev with regs := d.regs, span := d.span, mem := d.mem, cache := d.cache } ∧
            SameRegs s.dev d (Adr.SPP_CNT i.proc 0 :: cacheRegs)) ∧
        (spaceOf adr = spaceBuffer → s.dev.bufFault t adr n = none → n < 8 → s.dev.anyPoison adr.toNat n = true → s.dev.calmSet adr →
          Completes cmd s fun d => d.mem = s.dev.mem ∧ d.task t = { x with pc := x.pc + 4 }) ∧
        (spaceOf adr = spaceTcm → Completes cmd s fun d =>
          d.tcmRead (s.dev.taskProc t) (adr.toNat % 65536) n = leBytes n b.toNat ∧ d.mem = s.dev.mem ∧
            d.task t = { x with pc := x.pc + 4 } ∧ SameRegs s.dev d [Adr.SPP_CNT i.proc 0])
      alu .add (a + b) ∧ alu .sub (a - b) ∧ alu .and (a &&& b) ∧ alu .or (a ||| b) ∧ alu .xor (a ^^^ b) ∧
      alu .sll (a <<< (b.toNat % 64)) ∧ alu .srl (a >>> (b.toNat % 64)) ∧ alu .sra (a.sshiftRight (b.toNat % 64)) ∧
      alu .slt (if a.slt b then 1 else 0) ∧ alu .sltu (if a.ult b then 1 else 0) ∧ alu .mul (a * b) ∧
      alu .mulhu (BitVec.ofNat 64 (a.toNat * b.toNat / 2 ^ 64)) ∧
      (b ≠ 0 → alu .divu (a / b) ∧ alu .remu (a % b)) ∧ (b = 0 → alu .divu (BitVec.allOnes 64) ∧ alu .remu a) ∧
      SpanTakes (.spanAddi i rd rs1 imm) s i t rd (a + imm.signExtend 64) ∧
      SpanTakes (.spanAndi i rd rs1 imm) s i t rd (a &&& imm.zeroExtend 64) ∧
      SpanTakes (.spanOri i rd rs1 imm) s i t rd (a ||| imm.zeroExtend 64) ∧
      SpanTakes (.spanXori i rd rs1 imm) s i t rd (a ^^^ imm.zeroExtend 64) ∧
      SpanTakes (.spanShi i .sll sh rd rs1) s i t rd (a <<< sh.toNat) ∧
      SpanTakes (.spanShi i .srl sh rd rs1) s i t rd (a >>> sh.toNat) ∧
      SpanTakes (.spanShi i .sra sh rd rs1) s i t rd (a.sshiftRight sh.toNat) ∧
      SpanTakes (.spanLui i rd imm) s i t rd ((imm ++ (0 : BitVec 16)).signExtend 64) ∧
      SpanTakes (.spanSlti i rd rs1 imm) s i t rd (if a.slt (imm.signExtend 64) then 1 else 0) ∧
      SpanTakes (.spanFence i) s i t 0 0 ∧
      (¬denied → c.toNat ≤ csrAuth → SpanTakes (.spanCsrr i rd c) s i t rd (BitVec.ofNat 64 (s.dev.csrValue t c.toNat))) ∧
      (csrAuth < c.toNat → Completes (.spanCsrr i rd c) s fun d => d.free = s.dev.free + 1 ∧
        d.sreg t rd = if rd = 0 then 0 else Config.freeValue s.dev.free) ∧
      (¬denied → Completes (.spanCsrw i rs1 c) s fun d => d.task t = { x.setCsr c.toNat a.toNat with pc := x.pc + 4 } ∧
        (∀ u, u ≠ t → d.task u = s.dev.task u) ∧ d = { s.dev with regs := d.regs, span := d.span } ∧
        d.span.tcm = s.dev.span.tcm ∧ SameRegs s.dev d [Adr.SPP_CNT i.proc 0]) ∧
      loads (.spanLd i rd rs1 imm) 8 (BitVec.ofNat 64) ∧ loads (.spanLwu i rd rs1 imm) 4 (BitVec.ofNat 64) ∧
      loads (.spanLw i rd rs1 imm) 4 (fun v => (BitVec.ofNat 32 v).signExtend 64) ∧
      loads (.spanLhu i rd rs1 imm) 2 (BitVec.ofNat 64) ∧ loads (.spanLbu i rd rs1 imm) 1 (BitVec.ofNat 64) ∧
      stores (.spanSd i rs2 rs1 imm) 8 ∧ stores (.spanSw i rs2 rs1 imm) 4 ∧ stores (.spanSh i rs2 rs1 imm) 2 ∧
      stores (.spanSb i rs2 rs1 imm) 1 ∧
      (rd ≠ 0 → rd.val % 4 = 0 → spaceOf adr = spaceTcm → adr.toNat % 32 = 0 → Completes (.spanLq i rd rs1 imm) s fun d =>
        (∀ j < 4, d.sreg t (rd.val + j) = BitVec.ofNat 64
          (leValue (s.dev.tcmRead (s.dev.taskProc t) (adr.toNat % 65536 + 8 * j) 8))) ∧ (d.task t).pc = x.pc + 4 ∧ d.mem = s.dev.mem ∧
        (∀ r : SpanReg, r.val / 4 ≠ rd.val / 4 → d.sreg t r = s.dev.sreg t r) ∧ SameRegs s.dev d [Adr.SPP_CNT i.proc 0]) ∧
      (rs2.val % 4 = 0 → spaceOf adr = spaceTcm → adr.toNat % 32 = 0 → Completes (.spanSq i rs2 rs1 imm) s fun d =>
        (∀ j < 4, d.tcmRead (s.dev.taskProc t) (adr.toNat % 65536 + 8 * j) 8 = leBytes 8 (s.dev.sreg t (rs2.val + j)).toNat) ∧
          d.mem = s.dev.mem ∧ d.task t = { x with pc := x.pc + 4 } ∧ SameRegs s.dev d [Adr.SPP_CNT i.proc 0]))

/-- Branches, jumps and exceptions. A branch whose comparison holds goes to its own address plus four times the immediate, else
behind itself; JAL and JALR leave the address behind them in rd; ERET leaves the handler for EPC. A target outside the task's
region raises FETCH_DENIED at the target. The row of unlisted opcodes does nothing with a listed word but DISP of the reserved kind (log 119). An unlisted opcode and a WAIT under no source raise ILLEGAL; HANDLER read or written by
a user task, DENIED; an access outside the spaces or the fitted memory, ADDR; outside a user task's window, DENIED; unaligned,
ALIGN; of a poisoned word, POISON. -/
def Obligations.SpanBranchesAndTraps : Prop :=
  ∀ (s : State) (i : SpanIssue) (t : Nat) (rd rs1 rs2 : SpanReg) (imm : BitVec 16) (jm : BitVec 21) (w : Word),
    s.dev.issuer i = some t →
    let a := s.dev.sreg t rs1
    let b := s.dev.sreg t rs2
    let pc := (s.dev.task t).pc
    let aim (off : Int) : Nat := (((pc : Int) + 4 * off) % 2 ^ 64).toNat
    let adr := s.dev.spanAddr t rs1 imm
    let branch (cmd : Instr) (c : Bool) : Prop := SpanJumps cmd s i t (if c then aim imm.toInt else pc + 4)
    let x := s.dev.task t
    let call (cmd : Instr) (to' : Nat) : Prop :=
      (s.dev.inRegion t to' = true → Completes cmd s fun d => (d.task t).pc = to' ∧
        d.sreg t rd = (if rd = 0 then 0 else BitVec.ofNat 64 (pc + 4)) ∧
        (∀ r : SpanReg, r ≠ rd → d.sreg t r = s.dev.sreg t r) ∧ SpanFrame s.dev d i t) ∧
      (s.dev.inRegion t to' = false → Completes cmd s fun d => (d.task t).cause = causeFetch ∧
        (x.handler = 0 ∨ x.inHandler = true → (d.task t).epc = to' ∧ d.taskState t = taskStopped) ∧
        (x.handler ≠ 0 → x.inHandler = false → s.dev.inRegion t x.handler = true → (d.task t).epc = to' ∧
          (d.task t).pc = x.handler))
    let reach (cmd : Instr) (n : Nat) : Prop :=
      (∀ c, spaceOf adr = spaceBuffer → s.dev.bufFault t adr n = some c → SpanTraps cmd s t c) ∧
      (∀ c, spaceOf adr = spaceControl → s.dev.controlFault t adr n = some c → SpanTraps cmd s t c) ∧
      (spaceOf adr ∉ [spaceBuffer, spaceControl, spaceTcm] → SpanTraps cmd s t causeAddr)
    let loads (cmd : Instr) (n : Nat) : Prop := reach cmd n ∧ (spaceOf adr = spaceBuffer → s.dev.bufFault t adr n = none →
      s.dev.anyPoison adr.toNat n = true → s.dev.calmSet adr → SpanTraps cmd s t causePoison)
    branch (.spanBeq i rs1 rs2 imm) (a == b) ∧ branch (.spanBne i rs1 rs2 imm) (a != b) ∧
    branch (.spanBlt i rs1 rs2 imm) (a.slt b) ∧ branch (.spanBge i rs1 rs2 imm) (!a.slt b) ∧
    branch (.spanBltu i rs1 rs2 imm) (a.ult b) ∧ branch (.spanBgeu i rs1 rs2 imm) (!a.ult b) ∧
    call (.spanJal i rd jm) (aim jm.toInt) ∧ call (.spanJalr i rd rs1 imm) ((a + imm.signExtend 64).toNat / 4 * 4) ∧
    (s.dev.inRegion t (s.dev.task t).epc = true → Completes (.spanEret i) s fun d =>
      (d.task t).pc = (s.dev.task t).epc ∧ (d.task t).inHandler = false ∧ ∀ r : SpanReg, d.sreg t r = s.dev.sreg t r) ∧
    (spanListed w = false → SpanTraps (.spanIllegalOpcode i w) s t causeIllegal) ∧
    (spanListed w = true → ¬(w.toNat / 2 ^ 26 = 0x23 ∧ w.toNat % 2048 = 3) → exec (.spanIllegalOpcode i w) s = .next s) ∧
    (a = 0 → SpanTraps (.spanWait i rd rs1) s t causeIllegal) ∧
    (s.dev.taskUser t = true → SpanTraps (.spanCsrr i rd (BitVec.ofNat 8 csrHandler)) s t causeDenied ∧
      SpanTraps (.spanCsrw i rs1 (BitVec.ofNat 8 csrHandler)) s t causeDenied) ∧
    loads (.spanLd i rd rs1 imm) 8 ∧ loads (.spanLwu i rd rs1 imm) 4 ∧ loads (.spanLw i rd rs1 imm) 4 ∧
    loads (.spanLhu i rd rs1 imm) 2 ∧ loads (.spanLbu i rd rs1 imm) 1 ∧ reach (.spanSd i rs2 rs1 imm) 8 ∧
    reach (.spanSw i rs2 rs1 imm) 4 ∧ reach (.spanSh i rs2 rs1 imm) 2 ∧ reach (.spanSb i rs2 rs1 imm) 1 ∧
    (spaceOf adr ≠ spaceTcm → (rd ≠ 0 → rd.val % 4 = 0 → SpanTraps (.spanLq i rd rs1 imm) s t causeAddr) ∧
      (rs2.val % 4 = 0 → SpanTraps (.spanSq i rs2 rs1 imm) s t causeAddr))

/-- Queues and effects. POP moves the oldest entry of its queue to TCM and gives 0, or gives 1 where there is none. PUSH appends its
64 bytes and gives 0, or 2 where the queue is full. A dispatch gives the ESN of its job (and, for a stripe, its slot), or the
reason of its refusal, BAD_DESC standing before all but DENIED to a user task, and the reserved kind of DISP giving BAD_DESC; the command that a frame
job serves has started; a DMA gives its ESN and tag and is in flight, or is refused;
a CPL is granted its ESN with its entry, and what it gives beside its tag is open (log 170). STAMP
gives a new ESN; an AMO gives the old word and stores its function of it, a CAS that does not match storing nothing; SIGNAL sets the other task's source. An effect that the
log already holds with operands of the same hash gives the logged result and is not performed again; with a full log a checkpoint
begins in its place. A user task reaches its own queues alone. -/
def Obligations.SpanEffectsReplayTheirLog : Prop :=
  ∀ (s : State) (i : SpanIssue) (t : Nat) (rd rs1 rs2 : SpanReg) (q : Fin 128) (k : Fin 8) (op : AmoOp) (dma : Instr) (w : Word),
    s.dev.issuer i = some t → s.dev.inRegion t ((s.dev.task t).pc + 4) = true →
    dma ∈ [.dmaCopy i rd rs1, .dmaFill i rd rs1, .dmaHostIn i rd rs1, .dmaHostOut i rd rs1, .dmaCpl i rd rs1] →
    let x := s.dev.task t
    let a := s.dev.sreg t rs1
    let b := s.dev.sreg t rs2
    let p := s.dev.taskProc t
    let user := s.dev.taskUser t
    let fresh := x.log.length < 64 ∧ ∀ r ∈ x.log, r.num ≠ x.effects
    let l := s.dev.tcmRead p a.toNat 32
    let h := addrSide (fieldAt l 8 4)
    let u := a.toNat % 128
    let gives (cmd : Instr) (v : DWord) (P : Dev → Prop) : Prop := Completes cmd s fun d =>
      d.sreg t rd = (if rd = 0 then 0 else v) ∧ (d.task t).pc = x.pc + 4 ∧ P d
    (user = true → userQueue q = false → q.val ≠ 127 → SpanTraps (.spanPop i q rd rs1) s t causeDenied) ∧
    (user = false → inTcm a = true → q.val ≠ 127 → s.dev.queueCount q = 0 →
      (∀ e ∈ s.dev.span.held, ¬(e.queue = q.val ∧ e.task = t ∧ e.returned = true)) →
      gives (.spanPop i q rd rs1) 1 fun d => d.span.held = s.dev.span.held ∧ d.mem = s.dev.mem) ∧
    (user = false → inTcm a = true → q.val ≠ 127 → 0 < s.dev.queueCount q →
      (∀ e ∈ s.dev.span.held, ¬(e.queue = q.val ∧ e.task = t ∧ e.returned = true)) →
      let entry := s.dev.bufRead (s.dev.queueAddr q (s.dev.fld (Fld.SPP_Q_PTR_HEAD q))) 64
      gives (.spanPop i q rd rs1) 0 fun d => d.tcmRead p a.toNat 64 = entry ∧
        d.span.held = s.dev.span.held ++ [⟨q.val, t, entry, false⟩]) ∧
    (q.val < 64 ∨ q.val = 96 ∨ q.val = 127 ∨ (user = true ∧ userQueue q = false) →
      SpanTraps (.spanPush i q rd rs1) s t causeDenied) ∧
    (user = false → 64 ≤ q.val → q.val ≠ 96 → q.val ≠ 127 → inTcm a = true → fresh →
      (s.dev.queueFull q = true → gives (.spanPush i q rd rs1) 2 fun d => d.mem = s.dev.mem) ∧
      (s.dev.queueFull q = false → gives (.spanPush i q rd rs1) 0 fun d =>
        d.bufRead (s.dev.queueAddr q (s.dev.fld (Fld.SPP_Q_PTR_TAIL q))) 64 = s.dev.tcmRead p a.toNat 64 ∧
        (d.task t).effects = (x.effects + 1) % 2 ^ 32)) ∧
    (inTcm a = true → a.toNat % 32 = 0 → fresh → spanListed w = true → w.toNat / 2 ^ 26 = 0x23 → w.toNat % 2048 = 3 →
      w.toNat / 2 ^ 21 % 32 = rd.val → w.toNat / 2 ^ 16 % 32 = rs1.val →
      gives (.spanIllegalOpcode i w) (BitVec.ofNat 64 (2 ^ 63 + (if user then 2 else 3))) fun d => d.det = s.dev.det ∧ d.wp = s.dev.wp) ∧
    (inTcm a = true → a.toNat % 32 = 0 → fresh → user = true →
      gives (.dispFrameJob i rd rs1) (BitVec.ofNat 64 (2 ^ 63 + 2)) (fun d => d.det = s.dev.det) ∧
      gives (.dispStripeJob i rd rs1) (BitVec.ofNat 64 (2 ^ 63 + 2)) (fun d => d.det = s.dev.det) ∧
      gives (.dispBandWrite i rd rs1) (BitVec.ofNat 64 (2 ^ 63 + 2)) (fun d => d.wp = s.dev.wp)) ∧
    (inTcm a = true → a.toNat % 32 = 0 → fresh → user = false →
      (frameDescOk l = false → gives (.dispFrameJob i rd rs1) (BitVec.ofNat 64 (2 ^ 63 + 3)) fun d => d.det = s.dev.det) ∧
      (frameDescOk l = true → s.dev.headServed h = true → (s.dev.dh h).jobs.length < 256 →
        gives (.dispFrameJob i rd rs1) (s.dev.esn.zeroExtend 64) fun d => ∃ pre, d.log = pre ++
          ⟨s.dev.esn, BitVec.ofNat 48 (fieldAt l 0 6), .frameDispatch, h, 0, [fieldAt l 8 4, fieldAt l 13 1]⟩ :: s.dev.log ∧
            ∀ c ∈ d.host.cmds, c.rcpt = BitVec.ofNat 48 (fieldAt l 0 6) → c.started = true) ∧
      (stripeDescOk l = false → gives (.dispStripeJob i rd rs1) (BitVec.ofNat 64 (2 ^ 63 + 3)) fun d => d.det = s.dev.det) ∧
      (∀ eng slot, stripeDescOk l = true → s.dev.headServed h = true → s.dev.engineFor h = some eng →
        s.dev.freeStripe h = some slot → gives (.dispStripeJob i rd rs1)
          (BitVec.ofNat 64 (s.dev.esn.toNat + slot * 2 ^ 48)) fun d => (d.stripeJob h slot).any (fun j =>
            j.esn == s.dev.esn && j.engine == eng && j.task == t && j.buf == fieldAt l 28 4) = true) ∧
      (bandDescOk l = false → gives (.dispBandWrite i rd rs1) (BitVec.ofNat 64 (2 ^ 63 + 3)) fun d => d.wp = s.dev.wp) ∧
      (bandDescOk l = true → s.dev.headServed h = true → s.dev.bit (Fld.WP_CTRL_ENABLE h) = true →
        (s.dev.wps h).queue.length < 4 → gives (.dispBandWrite i rd rs1) (s.dev.esn.zeroExtend 64) fun d =>
          (s.dev.bandRefused h (fieldAt l 8 4) (BitVec.ofNat 64 (fieldAt l 12 8)) = false →
            s.dev.bandLate h (fieldAt l 8 4) = false → (d.wps h).queue.length = (s.dev.wps h).queue.length + 1)) ∧
      (s.dev.dmaDescOk l = false → gives dma (BitVec.ofNat 64 (2 ^ 63 + 3)) fun d => d.span.dmas = s.dev.span.dmas) ∧
      (s.dev.dmaDescOk l = true → 16 ≤ (s.dev.span.dmas.filter fun y => y.task == t).length →
        gives dma (BitVec.ofNat 64 (2 ^ 63 + 1)) fun d => d.span.dmas = s.dev.span.dmas) ∧
      (s.dev.dmaDescOk l = true → (s.dev.span.dmas.filter fun y => y.task == t).length < 16 →
        let flies (d : Dev) : Prop := d.span.dmas.length = s.dev.span.dmas.length + 1 ∧
          d.span.dmas.getLast?.any (fun y => y.task == t && y.tag == x.tag && y.length == fieldAt l 4 4 && !y.ended) = true
        (fieldAt l 0 1 ≠ dmaCplKind → gives dma (BitVec.ofNat 64 (s.dev.esn.toNat + 2 ^ 48 * x.tag)) flies) ∧
        (fieldAt l 0 1 = dmaCplKind → gives dma (BitVec.ofNat 64 (s.dev.freeBits 48 + 2 ^ 48 * x.tag)) fun d => flies d ∧
          d.log = s.dev.log ∧ d.esn = s.dev.esn ∧ d.free = s.dev.free + 1))) ∧
    (fresh → gives (.spanStamp i rd k) (s.dev.esn.zeroExtend 64) fun d => (d.task t).effects = (x.effects + 1) % 2 ^ 32 ∧
      d.log = ⟨s.dev.esn, 0, .stamp, t, if user then 6 else k.val, []⟩ :: s.dev.log) ∧
    (∀ r, x.log.find? (fun y => y.num == x.effects) = some r → r.kind = effStamp → r.hash = effectHash [k.val] →
      gives (.spanStamp i rd k) r.result fun d => d.log = s.dev.log ∧ d.locus = s.dev.locus) ∧
    (64 ≤ x.log.length → (∀ r ∈ x.log, r.num ≠ x.effects) → Completes (.spanStamp i rd k) s fun d =>
      (d.task t).ckpt.isSome = true ∧ (d.task t).pc = x.pc ∧ ∀ r : SpanReg, d.sreg t r = s.dev.sreg t r) ∧
    (a.toNat / 2 ^ 60 = 0 → s.dev.bufFault t a 8 = none → s.dev.poisoned (a.toNat / 8) = false → s.dev.calmSet a →
      fresh → let old := BitVec.ofNat 64 (leValue (s.dev.bufRead a.toNat 8))
      gives (.spanAmo i op rd rs1 rs2) old fun d =>
        d.bufRead a.toNat 8 = leBytes 8 (amoValue op old b (s.dev.sreg t rd)).toNat ∧
        (∀ y, y < a.toNat ∨ a.toNat + 8 ≤ y → d.bufRead y 1 = s.dev.bufRead y 1) ∧
        (op = .cas → old ≠ s.dev.sreg t rd → d.mem = s.dev.mem)) ∧
    (user = true → ¬(u < 96 ∧ s.dev.taskUser u = true) → SpanTraps (.spanSignal i rs1) s t causeDenied) ∧
    (user = false ∨ (u < 96 ∧ s.dev.taskUser u = true) → fresh → Completes (.spanSignal i rs1) s fun d =>
      (d.task t).pc = x.pc + 4 ∧ (u < 96 → (d.task u).signal = true) ∧ ∀ r : SpanReg, d.sreg t r = s.dev.sreg t r)

/-- Waiting, checkpoints and restarts. A WAIT with a source of its mask ready gives the ready ones and goes on; without one the
context waits until a source is ready. CKPT and the automatic checkpoint take the state, and its completion stores it, empties
the effect log and frees the held entries. A DMA that no earlier one of its task holds back ends: it leaves flight once its record has its
place, and stands ended while the mailbox is full; a CPL stands until its entry is written, and ends with no entry where its pair is off (log 170). A failed host read is retried once, and the second failure ends the DMA and its command. A processor that faults leaves service and its tasks restart on the
spare, or stop; a restarted task resumes from its newest checkpoint, or at its entry point. The watchdog acts on a running task
alone. CNT_CLR clears the processor's counters. -/
def Obligations.SpanTasksWaitAndRestart : Prop :=
  ∀ (s : State) (i : SpanIssue) (rd rs1 : SpanReg) (t : TaskId) (tag : BitVec 16) (bad : List Nat) (p : Proc) (c : Ctx)
    (f : ProcFault),
    let x := s.dev.task t
    let st := s.dev.taskState t
    let ts := s.dev.tasksOf p
    let fault := match f with
      | .mismatch => Fld.SPP_STATUS_MISMATCH p
      | .parity => Fld.SPP_STATUS_PARITY p
      | .tcm => Fld.SPP_STATUS_TCM_ERR p
    let up := s.dev.bit (Fld.SPP_STATUS_FAULT p) = false ∧ s.dev.dead 8 p = false
    let fails (cmd : Instr) (flag : Field) : Prop := Completes cmd s fun d => d.bit flag = true ∧
      d.bit (Fld.SPP_STATUS_FAULT p) = true ∧ d.dead 8 p = true ∧ d.maskBit Fld.SPP_INSERVICE_MASK p = false ∧
      (∀ y, s.dev.spareFor p ts = some y → y < 12 → ∀ u ∈ ts, d.taskState u = taskRestarting ∧ d.taskProc u = y) ∧
      (s.dev.spareFor p ts = none → ts ≠ [] → d.bit Fld.SPP_SPARE_PAIR_LOST = true ∧ ∀ u ∈ ts, d.taskState u = taskStopped)
    let others (d : Dev) : Prop := (d.span.dmas.filter fun y => !(y.task == t.val && y.tag == tag.toNat)) =
      s.dev.span.dmas.filter fun y => !(y.task == t.val && y.tag == tag.toNat)
    let leaves (d : Dev) (op : DmaOp) : Prop := others d ∧
      (op.notify = false ∨ s.dev.mailRoom op.task = true → d.span.dmas.length + 1 = s.dev.span.dmas.length) ∧
      (op.notify = true → s.dev.mailRoom op.task = false → d.span.dmas.length = s.dev.span.dmas.length ∧
        d.findDma t tag.toNat = none ∧ (d.mail op.task).held.length = (s.dev.mail op.task).held.length + 1)
    (∀ w, s.dev.issuer i = some w → s.dev.sreg w rs1 ≠ 0 → s.dev.inRegion w ((s.dev.task w).pc + 4) = true →
      let ready := s.dev.waitSources w &&& (s.dev.sreg w rs1).toNat
      (ready = 0 → Completes (.spanWait i rd rs1) s fun d => d.taskState w = taskWaiting ∧
        (d.task w).waiting = some (rd.val, (s.dev.sreg w rs1).toNat) ∧ (d.task w).pc = (s.dev.task w).pc) ∧
      (ready ≠ 0 → Completes (.spanWait i rd rs1) s fun d => d.taskState w = taskRunning ∧
        d.sreg w rd = (if rd = 0 then 0 else BitVec.ofNat 64 ready) ∧ (d.task w).pc = (s.dev.task w).pc + 4)) ∧
    (∀ w, s.dev.issuer i = some w → s.dev.inRegion w ((s.dev.task w).pc + 4) = true → Completes (.spanCkpt i rd) s fun d =>
      (d.task w).ckpt.isSome = true ∧ (d.task w).pc = (s.dev.task w).pc + 4 ∧
      d.sreg w rd = (if rd = 0 then 0 else BitVec.ofNat 64 (s.dev.nextGen w)) ∧ d.mem = s.dev.mem) ∧
    (x.waiting = none → exec (.waitWake t) s = .next s) ∧
    (∀ r mask, x.waiting = some (r, mask) → s.dev.waitSources t &&& mask = 0 → exec (.waitWake t) s = .next s) ∧
    (∀ r mask, x.waiting = some (r, mask) → s.dev.waitSources t &&& mask ≠ 0 → st = taskWaiting →
      s.dev.inRegion t (x.pc + 4) = true → Completes (.waitWake t) s fun d => d.taskState t = taskRunning ∧
        (d.task t).waiting = none ∧ (r ≠ 0 → d.sreg t r = BitVec.ofNat 64 (s.dev.waitSources t &&& mask)) ∧
        (d.task t).pc = x.pc + 4) ∧
    (s.dev.taskLive t = true → st = taskRunning → x.ckpt = none → Completes (.autoCheckpoint t) s fun d =>
      (d.task t).ckpt.isSome = true ∧ d.mem = s.dev.mem ∧ (d.task t).pc = x.pc ∧
      (∀ r : SpanReg, d.sreg t r = s.dev.sreg t r) ∧ ∀ u, u ≠ t.val → d.task u = s.dev.task u) ∧
    (s.dev.taskLive t = false ∨ st ≠ taskRunning ∨ x.ckpt.isSome = true → exec (.autoCheckpoint t) s = .next s) ∧
    (x.ckpt = none → exec (.checkpointComplete t) s = .next s) ∧
    (∀ k, x.ckpt = some k → Completes (.checkpointComplete t) s fun d => (d.task t).ckpt = none ∧ (d.task t).log = [] ∧
      (∀ e ∈ d.span.held, e.task ≠ t.val ∨ e.returned = true) ∧
      (s.dev.cache.struck = [] → (s.dev.mail t).held = [] → k.bytes.length % 64 = 0 →
        s.dev.slotAddr t k.slot + k.bytes.length ≤ 2 ^ 34 → d.bufRead (s.dev.slotAddr t k.slot) k.bytes.length = k.bytes)) ∧
    (s.dev.findDma t tag.toNat = none → exec (.dmaEnd t tag bad) s = .next s ∧ exec (.hostReadError t tag) s = .next s) ∧
    (∀ op, s.dev.findDma t tag.toNat = some op →
      let alone := ∀ y ∈ s.dev.span.dmas, y.task = t.val → y.tag = tag.toNat → y = op
      (s.dev.dmaBlocked op = true → exec (.dmaEnd t tag bad) s = .next s) ∧
      (s.dev.dmaBlocked op = false → op.kind ∈ [dmaCopyKind, dmaFillKind, dmaInKind, dmaOutKind] →
        Completes (.dmaEnd t tag bad) s fun d => others d ∧ d.findDma t tag.toNat = none) ∧
      (s.dev.dmaBlocked op = false → alone → op.kind = dmaFillKind → Completes (.dmaEnd t tag bad) s fun d => leaves d op ∧
        (op.notify = false → op.dst % 64 = 0 → op.length % 64 = 0 → d.bufRead op.dst op.length = zeroBytes op.length ∧
          (d.task op.task).dmaReady = true)) ∧
      (s.dev.dmaBlocked op = false → alone → op.kind = dmaCplKind →
        let full := s.dev.cqFull op.queue || s.dev.host.held.any fun c => c.qp == op.queue
        (s.dev.pairOn op.queue = true → full = true → Completes (.dmaEnd t tag bad) s fun d =>
          { op with ended := true } ∈ d.span.dmas ∧ d.span.dmas.length = s.dev.span.dmas.length ∧
          d.host.held.length = s.dev.host.held.length + 1) ∧
        (s.dev.pairOn op.queue = true → full = false → Completes (.dmaEnd t tag bad) s fun d => leaves d op ∧
          ((newEvents s.dev d).any fun e => e.kind == .completion && e.unit == op.queue) = true) ∧
        (s.dev.pairOn op.queue = false → Completes (.dmaEnd t tag bad) s fun d => leaves d op ∧ d.host = s.dev.host)) ∧
      (op.retried = false → Completes (.hostReadError t tag) s fun d => d.span.dmas.length = s.dev.span.dmas.length ∧
        { op with retried := true } ∈ d.span.dmas) ∧
      (op.retried = true → alone → Completes (.hostReadError t tag) s fun d => leaves d op ∧ ∀ c ∈ d.host.cmds, c.rcpt = op.rcpt →
        c.verdict = some (badField 24 rsHostMemory))) ∧
    (up → fails (.spanProcessorFault p f) fault) ∧
    (¬up → exec (.spanProcessorFault p f) s = .next s) ∧
    (∀ w, s.dev.taskIn p c = some w → s.dev.taskState w = taskRunning → up → fails (.spanWatchdog p c) (Fld.SPP_STATUS_WATCHDOG p)) ∧
    (s.dev.taskIn p c = none → exec (.spanWatchdog p c) s = .next s) ∧
    (∀ w, s.dev.taskIn p c = some w → s.dev.taskState w ≠ taskRunning → exec (.spanWatchdog p c) s = .next s) ∧
    (st ≠ taskRestarting → exec (.taskRestartDone t) s = .next s) ∧
    (st = taskRestarting → Completes (.taskRestartDone t) s fun d => d.taskState t = taskRunning ∧
      (s.dev.slotGen t 0 = 0 → s.dev.slotGen t 1 = 0 → (d.task t).pc = s.dev.fld (Fld.SPP_TASK_ENTRY t) ∧
        ∀ r : SpanReg, d.sreg t r = 0) ∧
      (s.dev.slotGen t 0 ≠ 0 → s.dev.slotGen t 1 ≤ s.dev.slotGen t 0 → (d.task t).pc = fieldAt (s.dev.slotBytes t 0) 24 4)) ∧
    (Completes (.spnCntClr p) s fun d => (∀ k < 8, d.reg (Adr.SPP_CNT p k) = 0) ∧ d = { s.dev with regs := d.regs } ∧
      SameRegs s.dev d ((List.range 8).map (Adr.SPP_CNT p)))

/-! ## Cache and memory -/

/-- The shared cache. An access beyond the fitted memory changes nothing; a store's bytes reach the buffer as every requester sees
it and no other byte changes; a load changes none. An upset waits in its frame until that is read: a clean sub-block is then refetched and
the frame counts an error. While the cache serves, and no frame's parity fails, an access of one
sub-block that hits keeps the lines held; a load that misses counts and fills the way that may take it, or none; a store that
hits makes its sub-block dirty with a twin in the partner frame; a whole store of a requester that does not fill drops the
copy. While it does not serve, a store drops the copy and a load changes nothing. The patrol refetches a clean word of bad parity,
takes a dirty one from its twin, and marks a word bad in both as poisoned; a frame's third error spares or disables it.
ENABLE is an installer's: 0 begins the disable, whose end leaves no line, and a held enable then serves. A pair reserved to
another requester is refused. -/
def Obligations.CacheHoldsAndDrops : Prop :=
  ∀ (s : State) (r : CacheReq) (bad : List FrameRef) (f : FrameRef) (b w : List (Fin 4 × Fin 8)) (sub : Fin 4) (wd : Fin 8)
    (wr : Writer) (pair : Fin 8) (v : Word),
    let ps := cachePieces r
    let n := (r.store.map List.length).getD r.len
    let a := r.addr.toNat
    let inside := a + n ≤ s.dev.fld Fld.MEM_SIZE_PAGES * pageBytes
    let serves := s.dev.bit Fld.CACHE_STATUS_ENABLED = true ∧ s.dev.bit Fld.CACHE_STATUS_DISABLE_PENDING = false
    let k := frameRefKey f
    let fr := s.dev.frame k
    let on := s.dev.bit Fld.CACHE_CTRL_ENABLE
    (¬inside → exec (.cacheAccess r bad) s = .next s) ∧
    let whole := s.dev.cache.struck = []
    let sound := fr.twin = false ∧ k ∉ s.dev.cache.struck ∧ partnerKey k ∉ s.dev.cache.struck
    (∀ l, inside → whole → r.store = some l → s.dev.anyPoison a n = false → Completes (.cacheAccess r []) s fun d => d.bufRead a n = l ∧
      ∀ y, y < a ∨ a + n ≤ y → d.bufRead y 1 = s.dev.bufRead y 1) ∧
    (inside → whole → r.store = none → Completes (.cacheAccess r []) s fun d => d.mem = s.dev.mem) ∧
    (inside → ¬serves → r.store = none → Completes (.cacheAccess r bad) s fun d =>
      d = { s.dev with cache := { s.dev.cache with struck := s.dev.cache.struck ++ bad.map frameRefKey } }) ∧
    (∀ p, inside → ps = [p] →
      let at_ (way : Nat) : Nat := 16 * lineSet p.line + way
      let single := ∀ x < 16, ∀ y < 16, (s.dev.frame (at_ x)).line.any (fun l => l.tag == lineTag p.line) = true →
        (s.dev.frame (at_ y)).line.any (fun l => l.tag == lineTag p.line) = true → x = y
      (serves → r.store = none → ∀ x l, s.dev.hitWay p = some x → (s.dev.frame (at_ x)).line = some l →
        l.dirty.getLsbD p.sub = false → frameRefKey f = at_ x → fr.twin = false → fr.errors < 2 → 0 < p.len →
        Completes (.cacheAccess r [f]) s fun d => d.bit Fld.CACHE_STATUS_CLEAN_REFETCH = true ∧
          d.reg (Adr.CACHE_CNT 3) = s.dev.counted (Adr.CACHE_CNT 3) 1 ∧ d.frame k = { fr with errors := fr.errors + 1 } ∧
          k ∉ d.cache.struck ∧ d.mem = s.dev.mem) ∧
      (serves → whole → r.store = none → ∀ x, s.dev.hitWay p = some x → Completes (.cacheAccess r []) s fun d =>
        d.cache.frames = s.dev.cache.frames ∧ d.cache.hits = (s.dev.cache.hits + 1) % 1024 ∧ d.mem = s.dev.mem) ∧
      (serves → whole → r.store = none → s.dev.hitWay p = none → Completes (.cacheAccess r []) s fun d =>
        d.cache.misses = (s.dev.cache.misses + 1) % 1024 ∧ d.mem = s.dev.mem ∧
        (s.dev.pieceVirgin p = true ∨ s.dev.fillWay r.req p = none → d.cache.frames = s.dev.cache.frames) ∧
        (∀ x, s.dev.pieceVirgin p = false → s.dev.fillWay r.req p = some x → d.hitWay p = some x)) ∧
      (serves → whole → r.store.isSome = true → s.dev.allocates r.req = true → ∀ x l, s.dev.hitWay p = some x →
        (s.dev.frame (at_ x)).line = some l → (s.dev.frame (partnerKey (at_ x))).off = false →
        Completes (.cacheAccess r []) s fun d => (d.frame (at_ x)).line = some { l with
          owner := r.req, task := r.task.map (·.val), dirty := l.dirty ||| subBit p.sub } ∧
          (l.dirty = 0 → (d.frame (partnerKey (at_ x))).twin = true)) ∧
      (serves → r.store.isSome = true → s.dev.allocates r.req = false → p.len = 64 → single →
        Completes (.cacheAccess r []) s fun d => d.hitWay p = none) ∧
      (¬serves → r.store.isSome = true → single → Completes (.cacheAccess r []) s fun d => d.hitWay p = none)) ∧
    ((fr.line = none ∧ fr.twin = false) ∨ (b = [] ∧ k ∉ s.dev.cache.struck) → Completes (.cachePatrol f b w) s fun d => d = s.dev) ∧
    (∀ l, sound → fr.line = some l → l.valid.getLsbD sub = true → fr.errors < 2 → l.dirty.getLsbD sub = false →
      Completes (.cachePatrol f [(sub, wd)] w) s fun d => d.bit Fld.CACHE_STATUS_CLEAN_REFETCH = true ∧
        d.reg (Adr.CACHE_CNT 3) = s.dev.counted (Adr.CACHE_CNT 3) 1 ∧ d.frame k = { fr with errors := fr.errors + 1 } ∧
        d.mem = s.dev.mem) ∧
    (∀ l, sound → fr.line = some l → l.valid.getLsbD sub = true → fr.errors < 2 → l.dirty.getLsbD sub = true →
      Completes (.cachePatrol f [(sub, wd)] []) s fun d => d.bit Fld.CACHE_STATUS_TWIN_CORRECTED = true ∧
        d.reg (Adr.CACHE_CNT 4) = s.dev.counted (Adr.CACHE_CNT 4) 1 ∧ d.frame k = { fr with errors := fr.errors + 1 } ∧
        d.mem = s.dev.mem) ∧
    (∀ l, sound → fr.line = some l → l.valid.getLsbD sub = true → l.dirty.getLsbD sub = true →
      Completes (.cachePatrol f [(sub, wd)] [(sub, wd)]) s fun d => d.bit Fld.CACHE_STATUS_DOUBLE_FAIL = true ∧
        d.fld Fld.CACHE_ERR_ADDR_LINE = lineOf (k / 16) l.tag % 2 ^ 26 ∧
        d.reg (Adr.CACHE_CNT 5) = s.dev.counted (Adr.CACHE_CNT 5) 1 ∧
        d.poisoned (32 * lineOf (k / 16) l.tag + 8 * sub.val + wd.val) = true ∧
        ∀ x, x / 8 ≠ 32 * lineOf (k / 16) l.tag + 8 * sub.val + wd.val → d.bufRead x 1 = s.dev.bufRead x 1) ∧
    (∀ l, sound → fr.line = some l → l.valid.getLsbD sub = true → 2 ≤ fr.errors → l.dirty.getLsbD sub = false →
      (0 < s.dev.fld (Fld.CACHE_SPARE_FREE f.bank) → Completes (.cachePatrol f [(sub, wd)] w) s fun d =>
        d.fld (Fld.CACHE_SPARE_FREE f.bank) = s.dev.fld (Fld.CACHE_SPARE_FREE f.bank) - 1 ∧
        d.bit Fld.CACHE_STATUS_FRAME_SPARED = true ∧ (d.frame k).line = none ∧ (d.frame k).errors = 0) ∧
      (s.dev.fld (Fld.CACHE_SPARE_FREE f.bank) = 0 → Completes (.cachePatrol f [(sub, wd)] w) s fun d =>
        (d.frame k).off = true ∧ (d.frame k).line = none)) ∧
    (on = false → exec (.cacheDisable wr) s = .next s) ∧ (on = true → exec (.cacheEnable wr) s = .next s) ∧
    (on = true → s.dev.mayWrite wr = true → Completes (.cacheDisable wr) s fun d => d.bit Fld.CACHE_CTRL_ENABLE = false ∧
      d.bit Fld.CACHE_STATUS_ENABLE_HELD = false ∧ d.cache = s.dev.cache ∧ d.bit Fld.CACHE_STATUS_DISABLE_PENDING =
        (s.dev.bit Fld.CACHE_STATUS_ENABLED || s.dev.bit Fld.CACHE_STATUS_DISABLE_PENDING)) ∧
    (on = false → s.dev.mayWrite wr = true → Completes (.cacheEnable wr) s fun d => d.bit Fld.CACHE_CTRL_ENABLE = true ∧
      d.cache = s.dev.cache ∧ if s.dev.bit Fld.CACHE_STATUS_DISABLE_PENDING then d.bit Fld.CACHE_STATUS_ENABLE_HELD = true
        else d.bit Fld.CACHE_STATUS_ENABLED = true) ∧
    (s.dev.mayWrite wr = false → ∀ c ∈ [Instr.cacheDisable wr, .cacheEnable wr], Completes c s fun d =>
      d.bit Fld.CACHE_CTRL_ENABLE = on ∧ d.cache = s.dev.cache ∧
      d.bit Fld.CACHE_STATUS_DISABLE_PENDING = s.dev.bit Fld.CACHE_STATUS_DISABLE_PENDING) ∧
    (s.dev.bit Fld.CACHE_STATUS_DISABLE_PENDING = false → exec .cacheDisableDone s = .next s) ∧
    (s.dev.bit Fld.CACHE_STATUS_DISABLE_PENDING = true → Completes .cacheDisableDone s fun d =>
      (∀ x, (d.frame x).line = none ∧ (d.frame x).twin = false) ∧ d.bit Fld.CACHE_STATUS_DISABLE_PENDING = false ∧
      d.bit Fld.CACHE_STATUS_ENABLED = s.dev.bit Fld.CACHE_STATUS_ENABLE_HELD ∧ d.cache.struck = [] ∧ (whole → d.mem = s.dev.mem)) ∧
    (let en := fieldOf v 31 1
     let held := s.dev.bit (Fld.CACHE_RSV_EN pair) = true ∧ s.dev.fld (Fld.CACHE_RSV_REQ pair) ≠ fieldOf v 0 4
     (en = 1 → held → Completes (.cacheReserve pair v) s fun d => d.bit Fld.CACHE_STATUS_RSV_REFUSED = true ∧
       SameRegs s.dev d [Adr.CACHE_STATUS]) ∧
     (¬(en = 1 ∧ held) → Completes (.cacheReserve pair v) s fun d => d.fld (Fld.CACHE_RSV_EN pair) = en ∧
       d.fld (Fld.CACHE_RSV_REQ pair) = fieldOf v 0 4 ∧ d = { s.dev with regs := d.regs } ∧
       SameRegs s.dev d [Adr.CACHE_RSV pair])) ∧
    (Completes .cacheCntClr s fun d => (∀ j < 8, d.reg (Adr.CACHE_CNT j) = 0) ∧ d = { s.dev with regs := d.regs } ∧
      SameRegs s.dev d ((List.range 8).map Adr.CACHE_CNT))

/-- The buffer's controller. A read beyond the fitted memory changes nothing. A word without a fault is delivered; a poisoned one
gives POISON_DATA, marked; a virgin page gives 0, marked; one wrong data bit or check bit is corrected and counted. A write stores its words,
clears their marks and changes no other word of a memory without faults; a narrow write to such a memory, or to a virgin page, replaces its
bytes, and leaves a poisoned word as it is. A copy of the channel's controller that disagrees on a read or a write changes none of
that; the second time within 1 ms it is retired. A retirement in a memory without faults takes the next spare. A bucket leaks a level, the patrol goes to the next page, a scrub counts a page, a
re-track changes nothing, and CNT_CLR clears the counters. -/
def Obligations.MemoryReadsAndWrites : Prop :=
  ∀ (s : State) (w : Nat) (u : Upset) (bit : Fin 64) (chk : Fin 8) (data : List DWord) (first : Fin 8) (bytes : List Byte)
    (page : Nat) (ch : Fin 2) (copy : Option (Fin 2)),
    let pg := w / 512
    let kept (d : Dev) : Prop := d.mem.bytes = s.dev.mem.bytes ∧ d.mem.touched = s.dev.mem.touched
    let calm := s.dev.upset w = 0 ∧ s.dev.poisoned w = false ∧ s.dev.virgin pg = false
    let part := bytes.take (8 - first.val)
    let narrow := 1 ≤ part.length ∧ part.length < 8
    let free := s.dev.fld Fld.MEM_SPARE_FREE
    let pos := s.dev.fld Fld.MEM_PATROL_POS_PAGE
    let top := s.dev.fld Fld.MEM_SIZE_PAGES
    let whole (d : Dev) : Prop := d = { s.dev with mem := d.mem, copies := d.copies } ∧ kept d
    let unit := s.dev.channelOf w
    let compared : Prop := s.dev.usable w = true ∧ s.dev.retiredCopy unit = none
    let seen (k : Fin 2) := Tab.get (fun _ => 0) s.dev.copies.last (2 * unit + k.val)
    (s.dev.usable w = false → exec (.memRead w u) s = .next s) ∧
    (compared → Completes (.memRead w { u with copy := none }) s fun d => d.copies = s.dev.copies) ∧
    (compared → ∀ k : Fin 2, (seen k = 0 ∨ seen k + 999 < s.dev.locus.micros → Completes (.memRead w { u with copy := some k }) s fun d =>
        d.retiredCopy unit = none ∧ Tab.get (fun _ => 0) d.copies.last (2 * unit + k.val) = s.dev.locus.micros + 1) ∧
      (seen k ≠ 0 → s.dev.locus.micros ≤ seen k + 999 → Completes (.memRead w { u with copy := some k }) s fun d =>
        d.retiredCopy unit = some k.val)) ∧
    (s.dev.usable w = true → s.dev.retiredCopy unit ≠ none → Completes (.memRead w u) s fun d => d.copies = s.dev.copies) ∧
    (s.dev.usable w = true → calm →
      (Completes (.memRead w ⟨0, 0, copy⟩) s fun d => d.mem.resp = ⟨s.dev.memWord w, false, false⟩ ∧ whole d) ∧
      (Completes (.memRead w ⟨1#64 <<< bit.val, 0, copy⟩) s fun d => d.mem.resp = ⟨s.dev.memWord w, false, false⟩ ∧ kept d ∧
        d.reg (Adr.MEM_CNT 0) = s.dev.counted (Adr.MEM_CNT 0) 1) ∧
      (Completes (.memRead w ⟨0, 1#8 <<< chk.val, copy⟩) s fun d => d.mem.resp = ⟨s.dev.memWord w, false, false⟩ ∧ kept d ∧
        d.reg (Adr.MEM_CNT 0) = s.dev.counted (Adr.MEM_CNT 0) 1)) ∧
    (s.dev.usable w = true → s.dev.virgin pg = false → s.dev.poisoned w = true → s.dev.mem.upsets = [] →
      Completes (.memRead w ⟨0, 0, copy⟩) s fun d => d.mem.resp = ⟨poisonData, true, false⟩ ∧ kept d ∧
        d.bit Fld.MEM_STATUS_POISON_READ = true ∧ d.fld Fld.MEM_ERR_KIND_KIND = 4 ∧
        d.reg (Adr.MEM_CNT 3) = s.dev.counted (Adr.MEM_CNT 3) 1) ∧
    (s.dev.usable w = true → s.dev.virgin pg = true → s.dev.poisoned w = false → s.dev.upset w = 0 → s.dev.memWord w = 0 →
      Completes (.memRead w ⟨0, 0, copy⟩) s fun d => d.mem.resp = ⟨0, false, true⟩ ∧ kept d ∧
        d.bit Fld.MEM_STATUS_VIRGIN_READ = true ∧ d.fld Fld.MEM_ERR_KIND_KIND = 5) ∧
    (data = [] ∨ s.dev.usable (w + data.length - 1) = false → exec (.memWrite w ⟨data, copy⟩) s = .next s) ∧
    (data ≠ [] → s.dev.usable (w + data.length - 1) = true → Completes (.memWrite w ⟨data, copy⟩) s fun d =>
      (∀ j, (h : j < data.length) → d.memWord (w + j) = data[j] ∧ d.poisoned (w + j) = false ∧ d.upset (w + j) = 0) ∧
      (s.dev.mem.upsets = [] → ∀ y, y < w ∨ w + data.length ≤ y → d.memWord y = s.dev.memWord y ∧
        d.poisoned y = s.dev.poisoned y)) ∧
    (bytes = [] ∨ s.dev.usable w = false → exec (.memNarrowWrite w first ⟨bytes, copy⟩) s = .next s) ∧
    (part.length = 8 → exec (.memNarrowWrite w first ⟨bytes, copy⟩) s = exec (.memWrite w ⟨[BitVec.ofNat 64 (leValue part)], copy⟩) s) ∧
    (narrow → compared → ∀ k : Fin 2,
      (seen k = 0 ∨ seen k + 999 < s.dev.locus.micros → Completes (.memNarrowWrite w first ⟨bytes, some k⟩) s fun d =>
        d.retiredCopy unit = none ∧ Tab.get (fun _ => 0) d.copies.last (2 * unit + k.val) = s.dev.locus.micros + 1) ∧
      (seen k ≠ 0 → s.dev.locus.micros ≤ seen k + 999 → Completes (.memNarrowWrite w first ⟨bytes, some k⟩) s fun d =>
        d.retiredCopy unit = some k.val)) ∧
    (narrow → s.dev.usable w = true → (s.dev.virgin pg = true ∧ s.dev.poisoned w = false) ∨ (calm ∧ s.dev.mem.upsets = []) → Completes (.memNarrowWrite w first ⟨bytes, copy⟩) s fun d =>
      d.bufRead (8 * w + first.val) part.length = part ∧
      (∀ y, y < 8 * w + first.val ∨ 8 * w + first.val + part.length ≤ y → d.bufRead y 1 = s.dev.bufRead y 1) ∧
      d.mem.resp = s.dev.mem.resp ∧ d.reg (Adr.MEM_CNT 4) = s.dev.counted (Adr.MEM_CNT 4) 1) ∧
    (narrow → s.dev.usable w = true → s.dev.virgin pg = false → s.dev.poisoned w = true → s.dev.mem.upsets = [] →
      Completes (.memNarrowWrite w first ⟨bytes, copy⟩) s fun d => kept d ∧ d.poisoned w = true ∧
        d.reg (Adr.MEM_CNT 5) = s.dev.counted (Adr.MEM_CNT 5) 1) ∧
    (page ∉ s.dev.mem.retiring → exec (.pageRetireDone page) s = .next s) ∧
    (page ∈ s.dev.mem.retiring → s.dev.mem.upsets = [] → Completes (.pageRetireDone page) s fun d => kept d ∧ d.fld Fld.MEM_SPARE_FREE = free - 1 ∧
      d.fld Fld.MEM_SPARE_RETIRED = (s.dev.fld Fld.MEM_SPARE_RETIRED + 1) % 2 ^ 11 ∧ d.bit Fld.MEM_STATUS_RETIRED = true ∧
      Tab.get (fun _ => 0) d.mem.spare page = 1024 - free + 1 ∧ (∀ y, y / 512 = page → d.upset y = 0) ∧
      ∀ b ∈ d.mem.buckets, b.page ≠ page) ∧
    (Completes (.parityWriteback page) s fun d => whole d ∧ d.mem.parity = s.dev.mem.parity.filter (· != page)) ∧
    (Completes .bucketLeak s fun d => whole d ∧
      d.mem.buckets = s.dev.mem.buckets.map fun b => { b with level := b.level - 1 }) ∧
    (Completes .memPatrol s fun d => d.fld Fld.MEM_PATROL_POS_PAGE = (if pos + 1 < top + 1024 then pos + 1 else 0) % 2 ^ 22 ∧
      (s.dev.virgin pos = true → kept d ∧ SameRegs s.dev d [Adr.MEM_PATROL_POS])) ∧
    exec (.wckRetrack ch) s = .next s ∧
    (s.dev.bit Fld.MEM_STATUS_WS_READY = false ∨ s.dev.bit Fld.MEM_STATUS_SCRUB_DONE = true → exec .virginScrub s = .next s) ∧
    (s.dev.bit Fld.MEM_STATUS_WS_READY = true → s.dev.bit Fld.MEM_STATUS_SCRUB_DONE = false → Completes .virginScrub s fun d =>
      d.mem.scrubbed = s.dev.mem.scrubbed + 1 ∧ kept d ∧ d.bit Fld.MEM_STATUS_SCRUB_DONE =
        decide (top + 1024 ≤ s.dev.fld Fld.MEM_WS_PAGES + s.dev.mem.scrubbed + 1)) ∧
    (Completes .memCntClr s fun d => (∀ j < 8, d.reg (Adr.MEM_CNT j) = 0) ∧ d = { s.dev with regs := d.regs } ∧
      SameRegs s.dev d ((List.range 8).map Adr.MEM_CNT))

/-- The buffer memory keeps its canonical form under every row that writes it as a memory: the controller's rows, cache accesses
and the stores (but SW, which reaches control space too), atomics, pops, pushes, checkpoints and transfers of Span tasks. -/
def Obligations.BufferKeepsItsForm : Prop :=
  ∀ (s : State) (c : Instr) (r : CacheReq) (bad : List FrameRef) (f : FrameRef) (b b' : List (Fin 4 × Fin 8)) (w : Nat) (u : Upset)
    (data : List DWord) (i : SpanIssue) (rd rs1 rs2 : SpanReg) (imm : BitVec 16) (op : AmoOp) (q : Fin 128) (t : TaskId)
    (tag : BitVec 16) (words : List Nat) (copy : Option (Fin 2)) (first : Fin 8) (bytes : List Byte), s.dev.mem.wf = true →
    c ∈ [.memRead w u, .memWrite w ⟨data, copy⟩, .memNarrowWrite w first ⟨bytes, copy⟩, .memPatrol, .pageRetireDone w, .parityWriteback w, .bucketLeak, .virginScrub,
      .cacheAccess r bad, .cachePatrol f b b', .spanSd i rs2 rs1 imm, .spanSh i rs2 rs1 imm, .spanSb i rs2 rs1 imm,
      .spanAmo i op rd rs1 rs2, .spanPop i q rd rs1, .spanPush i q rd rs1, .checkpointComplete t,
      .dmaEnd t tag words] → Completes c s fun d => d.mem.wf = true

/-! ## The host attachment -/

/-- The host attachment. A link is shown with its generation and lanes, it ends step 9 of start-up, and in native mode the attachment is
ready. A pair is enabled
only with valid fields under HQ_CTRL.ENABLE, from empty rings and phase 1; else QP_REFUSED is set; an enabled pair keeps its
sizes. EN is cleared only with no command in flight. A doorbell of a pair that is off, beyond its ring, or of a head that passes the
tail, is discarded with DB_ERR; any other is taken. Fetching takes the next entry of the pair whose turn it is, advances its head
and puts the command in flight under its receipt ESN with what its checks found. COAL_US raises the vector. A function reset
stops fetching, and its end disables every pair; a lost tunnel writes no completion. D3hot, idle times and the end of an entry
move between power states. CNT_CLR clears the counters. -/
def Obligations.HostQueuesObeyDoorbells : Prop :=
  ∀ (s : State) (gen : UsbGen) (lanes asym hot on deep : Bool) (q : QPair) (v : Word) (placed : List HostStore),
    let n := q.val
    let off := s.dev.bit (Fld.HQ_QP_CFG_EN n) = false
    let sq := fieldOf v 0 4
    let cq := fieldOf v 8 4
    let valid := s.dev.bit Fld.HQ_CTRL_ENABLE = true ∧ 4 ≤ sq ∧ sq ≤ 10 ∧ cq ≤ 10 ∧ sq ≤ cq
    let resetting := s.dev.bit Fld.HQ_STATUS_RESETTING
    let size (b : Nat) : Nat := 2 ^ b
    let badDb (c : Instr) : Prop := Completes c s fun d => d.bit Fld.HQ_STATUS_DB_ERR = true ∧ d.sqTail n = s.dev.sqTail n ∧
      d.cqHead n = s.dev.cqHead n ∧ d.reg (Adr.HQ_CNT 6) = s.dev.counted (Adr.HQ_CNT 6) 1
    let pending := (s.dev.fld (Fld.HQ_QP_STATUS_CQ_TAIL n) + s.dev.cqSize n - s.dev.cqHead n) % s.dev.cqSize n
    let step' := (v.toNat + s.dev.cqSize n - s.dev.cqHead n) % s.dev.cqSize n
    let us := Tab.get (fun _ => 0) s.dev.host.unsignalled n
    let masked := (s.dev.msixWord (4 * n + 3)).toNat % 2 = 1
    let ps := s.dev.fld Fld.HQ_STATUS_PS
    let ms := if deep then s.dev.host.powerIdle / 2 ^ 32 else s.dev.host.powerIdle % 2 ^ 32
    let target := if deep then 2 else 1
    let starts := ms ≠ 0 ∧ s.dev.host.cmds = [] ∧ s.dev.host.entry = none ∧ ps < target
    (Completes (.usb4LinkUp gen lanes asym) s fun d =>
      d.fld Fld.HQ_LINK_GEN = linkGen gen ∧ d.fld Fld.HQ_LINK_LANES = linkLanes gen lanes ∧ d.bit Fld.HQ_LINK_ASYM = linkAsym gen asym ∧
      d.fld Fld.BOOT_STATUS_STEP = (if s.dev.fld Fld.BOOT_STATUS_STEP = 8 then 9 else s.dev.fld Fld.BOOT_STATUS_STEP) ∧
      d.bit Fld.HQ_LINK_UP = (s.dev.mode == 1) ∧ (s.dev.mode = 1 → d.bit Fld.HQ_STATUS_READY = true) ∧
      d = { s.dev with regs := d.regs }) ∧
    (Completes (.tunnelLoss hot) s fun d => d.bit Fld.HQ_STATUS_RESETTING = true ∧ d.host.silent = true ∧ d.log = s.dev.log ∧
      d.host.mem = s.dev.host.mem ∧ (if hot then d.host.d3hot = false else d.bit Fld.HQ_LINK_UP = false)) ∧
    (off → valid → Completes (.qpEnable q v) s fun d => d.bit (Fld.HQ_QP_CFG_EN n) = true ∧
      d.fld (Fld.HQ_QP_CFG_SQ_LOG2 n) = sq ∧ d.fld (Fld.HQ_QP_CFG_CQ_LOG2 n) = cq ∧
      d.fld (Fld.HQ_QP_CFG_WEIGHT n) = fieldOf v 16 4 ∧ d.sqTail n = 0 ∧ d.cqHead n = 0 ∧ d.fld (Fld.HQ_QP_STATUS_SQ_HEAD n) = 0 ∧
      d.fld (Fld.HQ_QP_STATUS_CQ_TAIL n) = 0 ∧ d.fld (Fld.HQ_QP_STATUS_PHASE n) = 1 ∧ d.queueSize n = size sq) ∧
    (off → ¬valid → Completes (.qpEnable q v) s fun d => d.bit Fld.HQ_STATUS_QP_REFUSED = true ∧
      d = { s.dev with regs := d.regs } ∧ SameRegs s.dev d [Adr.HQ_STATUS]) ∧
    (¬off → Completes (.qpEnable q v) s fun d => d.fld (Fld.HQ_QP_CFG_SQ_LOG2 n) = s.dev.fld (Fld.HQ_QP_CFG_SQ_LOG2 n) ∧
      d.fld (Fld.HQ_QP_CFG_CQ_LOG2 n) = s.dev.fld (Fld.HQ_QP_CFG_CQ_LOG2 n) ∧ d.fld (Fld.HQ_QP_CFG_WEIGHT n) = fieldOf v 16 4 ∧
      d = { s.dev with regs := d.regs } ∧ SameRegs s.dev d [Adr.HQ_QP_CFG n]) ∧
    (s.dev.pairBusy n = true → Completes (.qpDisable q v) s fun d => d.bit Fld.HQ_STATUS_QP_REFUSED = true ∧
      d = { s.dev with regs := d.regs } ∧ SameRegs s.dev d [Adr.HQ_STATUS]) ∧
    (s.dev.pairBusy n = false → Completes (.qpDisable q v) s fun d => d.bit (Fld.HQ_QP_CFG_EN n) = false ∧
      (off → d.fld (Fld.HQ_QP_CFG_SQ_LOG2 n) = sq ∧ d.fld (Fld.HQ_QP_CFG_CQ_LOG2 n) = cq) ∧
      (¬off → d.queueSize n = 0 ∧ d.fld (Fld.HQ_QP_CFG_ROLE n) = roleOperator ∧ d.grantEnd (.pair q) = 0)) ∧
    (off ∨ s.dev.sqSize n ≤ v.toNat → badDb (.sqTailDoorbell q v placed)) ∧
    (¬off → v.toNat < s.dev.sqSize n → Completes (.sqTailDoorbell q v placed) s fun d => d.sqTail n = v.toNat ∧
      d = { s.dev with host := d.host } ∧ d.host.cmds = s.dev.host.cmds) ∧
    (off ∨ s.dev.cqSize n ≤ v.toNat ∨ pending < step' → badDb (.cqHeadDoorbell q v)) ∧
    (¬off → v.toNat < s.dev.cqSize n → step' ≤ pending → Completes (.cqHeadDoorbell q v) s fun d => d.cqHead n = v.toNat ∧
      ((∀ c ∈ s.dev.host.held, c.qp ≠ n) → d.host.held = s.dev.host.held ∧ d.bit (Fld.HQ_QP_STATUS_CQ_FULL n) = false)) ∧
    (s.dev.fetchStopped = true ∨ s.dev.nextPair = none →
      exec .sqFetch s = .next s) ∧
    (∀ p used, s.dev.fetchStopped = false → s.dev.nextPair = some (p, used) → s.dev.host.turn < 64 →
      let head := s.dev.fld (Fld.HQ_QP_STATUS_SQ_HEAD p)
      let l := s.dev.hostRead (s.dev.sqBase p + 64 * head) 64
      let role := s.dev.fld (Fld.HQ_QP_CFG_ROLE p)
      let dup := s.dev.host.cmds.any fun x => x.qp == p && x.tag == entTag l
      Completes .sqFetch s fun d => d.fld (Fld.HQ_QP_STATUS_SQ_HEAD p) = (head + 1) % s.dev.sqSize p % 1024 ∧
        d.reg (Adr.HQ_CNT 0) = s.dev.counted (Adr.HQ_CNT 0) 1 ∧ d.host.turn = p ∧ d.host.turnUsed = used ∧
        (dup = true → d.bit Fld.HQ_STATUS_DUP_TAG = true) ∧
        (dup = false → ∃ w, d.host.cmds = s.dev.host.cmds ++ [⟨p, entTag l, l, s.dev.esn, role, w, false⟩] ∧
          (entOpcode l = 0 ∨ 0xc < entOpcode l → w = some ⟨stInvalidOpcode, 0, 0⟩) ∧
          (1 ≤ entOpcode l → entOpcode l ≤ 0xc → role < roleNeeded l → w = some ⟨stDenied, 0, roleNeeded l⟩))) ∧
    (s.dev.fld (Fld.HQ_QP_COAL_COAL_US n) = 0 ∨ us = 0 → exec (.coalesceTimeout q) s = .next s) ∧
    (s.dev.fld (Fld.HQ_QP_COAL_COAL_US n) ≠ 0 → us ≠ 0 → Completes (.coalesceTimeout q) s fun d =>
      Tab.get (fun _ => 0) d.host.unsignalled n = 0 ∧ Tab.get (fun _ => false) d.host.pba n = decide masked ∧
      (masked → d.host.mem = s.dev.host.mem) ∧ d = { s.dev with host := d.host }) ∧
    (resetting = false → Completes .hqFreset s fun d => d.bit Fld.HQ_STATUS_RESETTING = true ∧
      d.bit Fld.HQ_STATUS_READY = false ∧ d.bit Fld.HQ_CTRL_ENABLE = s.dev.bit Fld.HQ_CTRL_ENABLE ∧
      d.reg (Adr.HQ_CNT 5) = s.dev.counted (Adr.HQ_CNT 5) 1) ∧
    (resetting = false → Completes (.hqEnableWrite on) s fun d => d.bit Fld.HQ_CTRL_ENABLE = on ∧
      d.bit Fld.HQ_STATUS_RESETTING = !on) ∧
    (resetting = false → exec .functionResetDone s = .next s ∧ exec (.completionDropTimeout q) s = .next s) ∧
    (resetting = true → Completes .functionResetDone s fun d => d.bit Fld.HQ_STATUS_RESETTING = false ∧
      d.bit Fld.HQ_STATUS_READY = true ∧ d.host.cmds = [] ∧ d.host.held = [] ∧ d.fld Fld.HQ_INFLIGHT_COUNT = 0 ∧
      ∀ p < 64, d.bit (Fld.HQ_QP_CFG_EN p) = false) ∧
    (resetting = true → Completes (.completionDropTimeout q) s fun d => (∀ c ∈ d.host.held, c.qp ≠ n) ∧
      d.bit (Fld.HQ_QP_STATUS_CQ_FULL n) = false ∧
      d.reg (Adr.HQ_CNT 7) = s.dev.counted (Adr.HQ_CNT 7) (s.dev.host.held.filter fun c => c.qp == n).length) ∧
    (Completes .hqCntClr s fun d => (∀ k < 8, d.reg (Adr.HQ_CNT k) = 0) ∧ d = { s.dev with regs := d.regs } ∧
      SameRegs s.dev d ((List.range 8).map Adr.HQ_CNT)) ∧
    (Completes .d3hotEntry s fun d => d.host.d3hot = true ∧
      (ps < 3 → s.dev.commanded = false → d.bit Fld.HQ_STATUS_PS_ENTRY = true ∧ d.host.entry = some ⟨3, none, false⟩) ∧
      (3 ≤ ps ∨ s.dev.commanded = true → d = { s.dev with host := { s.dev.host with d3hot := true } })) ∧
    (s.dev.host.d3hot = false → exec .d0Return s = .next s) ∧
    (s.dev.host.d3hot = true → Completes .d0Return s fun d => d.host.d3hot = false ∧
      (3 ≤ ps → d.fld Fld.HQ_STATUS_PS = 2 ∧ d.host.entry = s.dev.host.entry) ∧
      (ps < 3 → s.dev.commanded = false → d.fld Fld.HQ_STATUS_PS = ps ∧ d.host.entry = none ∧
        d.bit Fld.HQ_STATUS_PS_ENTRY = false)) ∧
    (¬starts → exec (.powerIdleTimeout deep) s = .next s) ∧
    (starts → Completes (.powerIdleTimeout deep) s fun d => d.bit Fld.HQ_STATUS_PS_ENTRY = true ∧
      d.host.entry = some ⟨target, none, false⟩) ∧
    (s.dev.host.entry = none → exec .psEntryDone s = .next s) ∧
    (∀ p, s.dev.host.entry = some p →
      (p.disturbed = true ∨ (2 ≤ p.target ∧ s.dev.supplyFailed = true) → Completes .psEntryDone s fun d =>
        d.host.entry = some { p with disturbed := false } ∧ d.regs = s.dev.regs) ∧
      (p.disturbed = false → s.dev.supplyFailed = false → s.dev.host.cmds = [] → s.dev.host.d3hot = false → Completes .psEntryDone s fun d =>
        d.fld Fld.HQ_STATUS_PS = p.target % 8 ∧ d.bit Fld.HQ_STATUS_PS_ENTRY = false ∧ d.host.entry = none))

/-- The host's commands on blocks, tests, namespaces and power. A command that names none in flight of its OPCODE, or comes
during a function reset, changes nothing; one that failed a check ends with what the check found, whatever its OPCODE; an
OPCODE that is not listed ends INVALID_OPCODE. A command that needs the medium waits while the spindle starts, and ends NO_MEDIUM where the
start that it waited for has failed. READ delivers its blocks or names the first it lost; WRITE stages its blocks and marks
their stripes written, or waits under a supply alarm with FUA; FLUSH waits for the WRITEs it covers, then none of their blocks is
staged; ABORT ends its target, or MISSED; a self-test starts, is refused while one runs, or stops; namespaces are made of extents
that check, and deleted once quiet, neither under a supply alarm; POWER_STATE begins its entry, or gives way to a later one. -/
def Obligations.HostCommandsEnd : Prop :=
  ∀ (s : State) (c : CmdRef) (ans : List StripeAnswer) (x : HostCmd),
    let rows : List (Instr × Nat) := [(.read c ans, 1), (.write c, 2), (.flush c, 3), (.abort c, 4), (.selfTestShort c, 5),
      (.selfTestExtended c, 5), (.selfTestStop c, 5), (.nsCreate c, 6), (.nsDelete c, 7), (.powerState c, 8),
      (.loadProgramUser c, 9), (.loadProgramXim c, 9), (.getLog c, 0xa), (.setFeaturePowerIdle c, 0xb),
      (.setFeatureIdleRpm c, 0xb), (.setFeatureSparePolicy c, 0xb), (.setFeatureAttention c, 0xb), (.setFeatureAutoConfirm c, 0xb),
      (.setFeatureModeLock c, 0xb), (.setFeatureReadAhead c, 0xb), (.endorseNonce c, 0xc), (.endorseSubmit c, 0xc),
      (.endorseQuote c, 0xc), (.endorseActivate c, 0xc), (.endorseConfirm c, 0xc), (.endorseDropRole c, 0xc),
      (.endorseStageAbort c, 0xc), (.endorseRevert c, 0xc)]
    let l := x.entry
    let named := s.dev.findCmd c = some x
    let quiet := s.dev.bit Fld.HQ_STATUS_RESETTING = false
    let runs (op : Nat) : Prop := named ∧ entOpcode l = op ∧ quiet ∧ x.verdict = none
    let awake := s.dev.ps ≠ 1 ∧ s.dev.ps ≠ 2
    let ends (cmd : Instr) (v : HostStatus) (P : Dev → Prop) : Prop := Completes cmd s fun d => CmdEnds s.dev d x v ∧ P d
    let failed := x.rcpt.toNat < s.dev.mot.spn.failedAt.toNat
    let spun (op : Nat) : Prop := runs op ∧ ¬failed ∧ s.dev.spinStarting = false
    let medium : List (Instr × Nat) := [(.read c ans, 1), (.write c, 2), (.selfTestExtended c, 5), (.nsCreate c, 6), (.nsDelete c, 7)]
    let pages := s.dev.chainPages (entChain l) (entNlb l)
    let ns := entNsid l
    let lost := (List.range (entNlb l)).filter fun i => (s.dev.readBlock ns (entLba l + i) ans).isNone
    let fua := (entFlags l).testBit 0
    let tail := s.dev.cqBase x.qp + 32 * s.dev.fld (Fld.HQ_QP_STATUS_CQ_TAIL x.qp)
    let masked := (s.dev.msixWord (4 * x.qp + 3)).toNat % 2 = 1
    let noDisc : HostStatus := ⟨stNoMedium, 0, 0⟩
    let badChain := badField 24 rsChain
    let test := s.dev.host.test
    let page := s.dev.hostRead ((pages.getD []).headD 0) 4096
    let es := markPairs ((List.range (entArg l 0 1)).map fun i => pageExtent page ns i x.rcpt)
    let held := (s.dev.others x).any fun y => decide (entOpcode y.entry ≤ 3) && entNsid y.entry == ns && y.verdict.isNone
    let later := (s.dev.others x).any fun y => entOpcode y.entry == 8 && y.verdict.isNone && decide (x.rcpt.toNat < y.rcpt.toNat)
    (∀ p ∈ rows, s.dev.findCmd c = none → exec p.1 s = .next s) ∧
    (∀ p ∈ rows, named → entOpcode l ≠ p.2 ∨ ¬quiet → exec p.1 s = .next s) ∧
    (∀ p ∈ rows, ∀ v, named → entOpcode l = p.2 → quiet → x.verdict = some v → ends p.1 v fun _ => True) ∧
    (s.dev.findCmd c = none → exec (.invalidOpcode c) s = .next s) ∧
    (named → (1 ≤ entOpcode l ∧ entOpcode l ≤ 0xc) ∨ ¬quiet → exec (.invalidOpcode c) s = .next s) ∧
    (named → quiet → entOpcode l = 0 ∨ 0xc < entOpcode l → ends (.invalidOpcode c) ⟨stInvalidOpcode, 0, 0⟩ fun _ => True) ∧
    (∀ p ∈ medium, runs p.2 → (failed → ends p.1 noDisc fun _ => True) ∧
      (¬failed → s.dev.spinStarting = true → exec p.1 s = .next s)) ∧
    (spun 1 → (s.dev.outOfService x = true → ends (.read c ans) noDisc fun _ => True) ∧
      (s.dev.outOfService x = false → awake → pages = none → ends (.read c ans) badChain fun _ => True) ∧
      (s.dev.outOfService x = false → awake → pages.isSome = true → ends (.read c ans) (match lost with
          | [] => ⟨stDone, 0, 0⟩
          | i :: _ => ⟨stUnrecovered, entLba l + i, min 65535 lost.length⟩) fun _ => True) ∧
      (∀ p b, s.dev.outOfService x = false → awake → entNlb l = 1 → pages = some [p] →
        s.dev.readBlock ns (entLba l) ans = some b → b.length = 4096 → masked → (tail + 32 ≤ p ∨ p + 4096 ≤ tail) →
        ends (.read c ans) ⟨stDone, 0, 0⟩ fun d => d.hostRead p 4096 = b)) ∧
    (spun 2 → (s.dev.outOfService x = true → ends (.write c) noDisc fun _ => True) ∧
      (s.dev.outOfService x = false → fua = true → s.dev.supplyFailed = true → exec (.write c) s = .next s) ∧
      (s.dev.outOfService x = false → (fua = true → s.dev.supplyFailed = false) → awake →
        (pages = none → ends (.write c) badChain fun _ => True) ∧
        (pages.isSome = true → ends (.write c) ⟨stDone, 0, 0⟩ fun d => ∀ k ∈ nsStripes (entLba l) (entNlb l), ∀ e st,
          walkExtents (s.dev.extents ns) k = some (e, st) → Tab.get (fun _ => false) d.host.written (mapKey e st) = true) ∧
        (∀ p, pages = some [p] → entLba l < 2 ^ 40 → (s.dev.host.blocks.find? fun e => e.1 == blockKey ns (entLba l)).all
            (fun e => decide (e.2.rcpt.toNat ≤ x.rcpt.toNat)) = true →
          ends (.write c) ⟨stDone, 0, 0⟩ fun d =>
            let b := Tab.get (fun _ => (⟨0, 0, false⟩ : BlockSt)) d.host.blocks (blockKey ns (entLba l))
            b.rcpt = x.rcpt ∧ b.staged = !fua ∧ (fua = false → d.bufRead (b.page * pageBytes) 4096 = s.dev.hostRead p 4096)))) ∧
    (runs 3 → (s.dev.flushWaits x = true ∨ s.dev.bit Fld.MON_THERM_TRIP = true ∨ s.dev.supplyFailed = true →
        exec (.flush c) s = .next s) ∧
      (s.dev.flushWaits x = false → s.dev.bit Fld.MON_THERM_TRIP = false → s.dev.supplyFailed = false →
        ends (.flush c) ⟨stDone, 0, 0⟩ fun d => d.host.mapDirty = [] ∧ ∀ b ∈ d.host.blocks,
          ns = 0xffffffff ∨ b.1 / 2 ^ 40 = ns → b.2.rcpt.toNat < x.rcpt.toNat → b.2.staged = false)) ∧
    (runs 4 → let find := s.dev.host.cmds.find? fun y => y.qp == entArg l 0 2 && y.tag == entArg l 2 2
      (find = none → ends (.abort c) ⟨stMissed, 0, 0⟩ fun d => d.reg (Adr.HQ_CNT 4) = s.dev.counted (Adr.HQ_CNT 4) 1) ∧
      (∀ y, find = some y → entOpcode y.entry = 4 → ends (.abort c) (badField 32 rsState) fun _ => True) ∧
      (∀ y, find = some y → entOpcode y.entry ≠ 4 → s.dev.reserved y = true → ends (.abort c) ⟨stMissed, 0, 0⟩ fun d =>
        d.reg (Adr.HQ_CNT 4) = s.dev.counted (Adr.HQ_CNT 4) 1) ∧
      (∀ y, find = some y → entOpcode y.entry ≠ 4 → s.dev.reserved y = false → y.qp ≠ x.qp → y.qp < 64 →
        s.dev.cqFull y.qp = false → s.dev.cqFull x.qp = false → s.dev.host.held = [] → ends (.abort c) ⟨stDone, 0, 0⟩ fun d =>
          CmdEnds s.dev d y ⟨stAborted, 0, 0⟩ ∧ d.reg (Adr.HQ_CNT 3) = s.dev.counted (Adr.HQ_CNT 3) 1)) ∧
    (runs 5 → ∀ k cmd, (k, cmd) ∈ [(1, Instr.selfTestShort c), (2, .selfTestExtended c)] → (k = 2 → s.dev.noMedium 0 = false ∧ spun 5) →
      (entArg l 0 1 ≠ k → exec cmd s = .next s) ∧
      (entArg l 0 1 = k → test.running = true → ends cmd (badField 32 rsState) fun d => d.host.test = test) ∧
      (entArg l 0 1 = k → test.running = false → ends cmd ⟨stDone, 0, 0⟩ fun d =>
        d.host.test = ⟨k, true, false, s.dev.esn, 0⟩)) ∧
    (spun 5 → entArg l 0 1 = 2 → s.dev.noMedium 0 = true → ends (.selfTestExtended c) noDisc fun d => d.host.test = test) ∧
    (runs 5 → entArg l 0 1 ≠ 0xf → exec (.selfTestStop c) s = .next s) ∧
    (runs 5 → entArg l 0 1 = 0xf → ends (.selfTestStop c) ⟨stDone, 0, 0⟩ fun d => d.host.test =
      if test.running then ⟨test.kind, false, true, test.start, s.dev.esn⟩ else test) ∧
    (spun 6 → (pages = none → ends (.nsCreate c) badChain fun d => d.host.ns = s.dev.host.ns) ∧
      (pages.isSome = true → ∀ v, s.dev.checkExtents page es = some v → ends (.nsCreate c) v fun d => d.host.ns = s.dev.host.ns) ∧
      (pages.isSome = true → s.dev.checkExtents page es = none → s.dev.supplyFailed = true → exec (.nsCreate c) s = .next s) ∧
      (pages.isSome = true → s.dev.checkExtents page es = none → s.dev.supplyFailed = false → awake → Completes (.nsCreate c) s fun d =>
        CmdEnds s.dev d x ⟨stDone, d.nsCapacity ns, 0⟩ ∧ d.host.ns = s.dev.host.ns ++ es)) ∧
    (spun 7 → (s.dev.noDiscFor (s.dev.extents ns) = true → ends (.nsDelete c) noDisc fun d => d.host.ns = s.dev.host.ns) ∧
      (s.dev.noDiscFor (s.dev.extents ns) = false → held = true ∨ s.dev.supplyFailed = true → exec (.nsDelete c) s = .next s) ∧
      (s.dev.noDiscFor (s.dev.extents ns) = false → held = false → s.dev.supplyFailed = false → awake →
        ends (.nsDelete c) ⟨stDone, 0, 0⟩ fun d => d.extents ns = [] ∧
        d.host.ns = s.dev.host.ns.filter fun e => e.nsid != ns)) ∧
    (runs 8 → (later = true → ends (.powerState c) ⟨stDone, s.dev.ps, 1⟩ fun d => d.ps = s.dev.ps) ∧
      (later = false → entArg l 0 1 = 0 → Completes (.powerState c) s fun d => d.ps = 0) ∧
      (later = false → entArg l 0 1 = 0 → s.dev.ps = 0 → (∀ y ∈ s.dev.others x, entOpcode y.entry ≠ 8) →
        ends (.powerState c) ⟨stDone, 0, 0⟩ fun d => d.host.entry = none) ∧
      (later = false → entArg l 0 1 ≠ 0 → (∃ p, s.dev.host.entry = some p ∧ p.cmd = some c) → exec (.powerState c) s = .next s) ∧
      (later = false → entArg l 0 1 ≠ 0 → (∀ p, s.dev.host.entry = some p → p.cmd ≠ some c) → Completes (.powerState c) s fun d =>
        d.host.entry = some ⟨entArg l 0 1, some c, false⟩ ∧ d.bit Fld.HQ_STATUS_PS_ENTRY = true))

/-- The commands that read logs, set features, load user programs and change roles. GET_LOG returns the length of its log; a
feature's GET returns its value, and its set stores it; a mode lock needs its authorisation, which it uses up; LOAD_PROGRAM writes
user code, starts its task with START, and is refused over the code of a live task without RELOAD; ENDORSE issues a nonce,
submits a token, quotes the chain and drops a role. A grant, a nonce or an authorisation that runs out ends. Audit records move to
the NOR, a failed write leaves them, and aggregate counts become records. CNT_CLR clears the counters. -/
def Obligations.SettingsRolesAndAudit : Prop :=
  ∀ (s : State) (c : CmdRef) (x : HostCmd) (id : Word) (h : RoleHolder) (ok : Bool) (copy : Option (Fin 2)),
    let l := x.entry
    let runs (op : Nat) : Prop := s.dev.findCmd c = some x ∧ entOpcode l = op ∧ s.dev.bit Fld.HQ_STATUS_RESETTING = false ∧
      x.verdict = none
    let ends (cmd : Instr) (v : HostStatus) (P : Dev → Prop) : Prop := Completes cmd s fun d => CmdEnds s.dev d x v ∧ P d
    let done : HostStatus := ⟨stDone, 0, 0⟩
    let badChain := badField 24 rsChain
    let pages := s.dev.chainPages (entChain l) (entNlb l)
    let a := entArg l 0 1
    let isGet := entArg l 1 1 = 1
    let v := entArg l 8 8
    let cls := entArg l 8 1
    let feature (cmd : Instr) (k now : Nat) (P : Dev → Prop) : Prop := (a ≠ k → exec cmd s = .next s) ∧
      (a = k → isGet → ends cmd ⟨stDone, now, 0⟩ fun _ => True) ∧ (a = k → ¬isGet → ends cmd done P)
    let off := entArg l 8 4
    let len := entArg l 4 4
    let hit := s.dev.userOverlap off len
    let code := (((pages.getD []).map fun p => s.dev.hostRead p 4096).flatten).take len
    let t := entArg l 2 1
    let endorsed (cmd : Instr) (k : Nat) (P : Nat → Prop) : Prop := (a ≠ k → exec cmd s = .next s) ∧
      (a = k → (pages.getD []) = [] → ends cmd badChain fun _ => True) ∧
      (∀ p rest, a = k → pages = some (p :: rest) → P p)
    let q : RoleHolder := .pair (Fin.ofNat 64 x.qp)
    let audit := s.dev.sec.audit
    (runs 0xa → (pages = none → ends (.getLog c) badChain fun _ => True) ∧
      (pages.isSome = true → ends (.getLog c) ⟨stDone, (s.dev.logView a).length, 0⟩ fun _ => True)) ∧
    (runs 0xb → feature (.setFeaturePowerIdle c) 1 s.dev.host.powerIdle (fun d => d.host.powerIdle = v) ∧
      (s.dev.ps ≠ 1 → feature (.setFeatureIdleRpm c) 2 s.dev.host.idleRpm fun d => d.host.idleRpm = v) ∧
      feature (.setFeatureSparePolicy c) 3 (s.dev.fld Fld.SPR_POLICY_POLICY) (fun d => if s.dev.spr.cycle.isSome then
        d.spr.policyNext = some v else d.fld Fld.SPR_POLICY_POLICY = v % 2) ∧
      (1 ≤ cls → cls ≤ 15 → feature (.setFeatureAttention c) 4 (cls + 256 * s.dev.fld (Fld.SPR_CLASS_THR_THRESHOLD (cls - 1)))
        fun d => d.fld (Fld.SPR_CLASS_THR_THRESHOLD (cls - 1)) = entArg l 9 2) ∧
      feature (.setFeatureAutoConfirm c) 5 (s.dev.fld Fld.UPD_CONFIRM_AUTO) (fun d => d.fld Fld.UPD_CONFIRM_AUTO = v % 2) ∧
      feature (.setFeatureReadAhead c) 7 s.dev.host.readAhead (fun d => d.host.readAhead = v) ∧
      (a ≠ 6 → exec (.setFeatureModeLock c) s = .next s) ∧
      (a = 6 → isGet → ends (.setFeatureModeLock c) ⟨stDone, s.dev.lockStatus, 0⟩ fun d => d.sec.lockAuth = s.dev.sec.lockAuth) ∧
      (a = 6 → ¬isGet → s.dev.sec.lockAuth = some v → ends (.setFeatureModeLock c) done fun d =>
        d.fld Fld.KD_STATUS_LOCK_NEXT = v % 4 ∧ d.sec.lockAuth = none) ∧
      (a = 6 → ¬isGet → s.dev.sec.lockAuth ≠ some v → ends (.setFeatureModeLock c) ⟨stDenied, 0, roleInstaller⟩ fun d =>
        d.fld Fld.KD_STATUS_LOCK_NEXT = s.dev.fld Fld.KD_STATUS_LOCK_NEXT)) ∧
    (runs 9 → (a ≠ 1 → exec (.loadProgramUser c) s = .next s) ∧
      (a = 1 → (entArg l 1 1).testBit 1 = false → hit ≠ [] → ends (.loadProgramUser c) (badField 33 rsState) fun d =>
        d.span.code = s.dev.span.code) ∧
      (a = 1 → ((entArg l 1 1).testBit 1 = true ∨ hit = []) → (pages = none → ends (.loadProgramUser c) badChain fun _ => True) ∧
        (pages.isSome = true → ends (.loadProgramUser c) done fun d => Tab.range (fun _ => 0) d.span.code off code.length = code ∧
          ((entArg l 1 1).testBit 0 = true → t < 96 → d.taskLive t = true ∧ d.taskUser t = true ∧ d.taskState t = taskRunning ∧
            (d.task t).pc = entArg l 12 4 % 2 ^ 20 ∧ ∀ r : SpanReg, d.sreg t r = 0)))) ∧
    (runs 0xc →
      endorsed (.endorseNonce c) 1 (fun _ => s.dev.sec.nonces.length < 8 →
        ends (.endorseNonce c) ⟨stDone, s.dev.sec.nextNonce, 0⟩ fun d => d.sec.nextNonce = (s.dev.sec.nextNonce + 1) % 2 ^ 32 ∧
          d.sec.nonces = s.dev.sec.nonces ++ [⟨s.dev.sec.nextNonce, s.dev.esn, s.dev.freeBytes 48, none⟩]) ∧
      endorsed (.endorseSubmit c) 2 (fun p =>
        let tok := s.dev.hostRead p 512
        let reason := s.dev.tokenCheck q tok
        (reason ≠ 0 → ends (.endorseSubmit c) ⟨stDenied, 0, roleOperator⟩ fun d => d.bit Fld.SEC_STATUS_DENIED = true ∧
          d.fld Fld.SEC_STATUS_DENY_REASON = reason) ∧
        (reason = 0 → reqAction (tokRequest tok) = actRoleGrant → ends (.endorseSubmit c) ⟨stDone, 1, tokNonce tok % 65536⟩
          fun d => d.roleOf (targetHolder (reqTarget (tokRequest tok))) = reqParam (tokRequest tok) 0 1)) ∧
      endorsed (.endorseQuote c) 3 (fun _ => ends (.endorseQuote c) done fun _ => True) ∧
      endorsed (.endorseDropRole c) 6 (fun _ => ends (.endorseDropRole c) done fun d => d.roleOf q = roleOperator ∧ d.grantEnd q = 0)) ∧
    (s.dev.grantEnd h = 0 → exec (.roleGrantExpiry h) s = .next s) ∧
    (s.dev.grantEnd h ≠ 0 → Completes (.roleGrantExpiry h) s fun d => d.roleOf h = roleOperator ∧ d.grantEnd h = 0) ∧
    ((∀ n ∈ s.dev.sec.nonces, n.id ≠ id.toNat) → exec (.nonceExpiry id) s = .next s) ∧
    (∀ n ∈ s.dev.sec.nonces, n.id = id.toNat → Completes (.nonceExpiry id) s fun d =>
      d.sec.nonces = s.dev.sec.nonces.filter (fun m => m.id != n.id)) ∧
    (s.dev.sec.lockAuth = none → exec .modeLockAuthExpiry s = .next s) ∧
    (s.dev.sec.lockAuth ≠ none → Completes .modeLockAuthExpiry s fun d => d.sec.lockAuth = none ∧
      d.fld Fld.SEC_AUDIT_SEQ_SEQ = (s.dev.fld Fld.SEC_AUDIT_SEQ_SEQ + 1) % 2 ^ 32) ∧
    (audit.unwritten = [] → exec (.auditNorWrite ⟨ok, copy⟩) s = .next s) ∧
    (audit.unwritten ≠ [] → ok = true → Completes (.auditNorWrite ⟨ok, copy⟩) s fun d => d.sec.audit.unwritten = [] ∧
      d.sec.audit.ring = audit.ring ∧ ∀ r, audit.unwritten = [r] →
        Tab.get (fun _ => []) d.sec.audit.nor (fieldAt r 12 4 % auditCapacity) = r) ∧
    (audit.unwritten ≠ [] → ok = false → Completes (.auditNorWrite ⟨ok, copy⟩) s fun d => d.sec = s.dev.sec ∧
      d.bit Fld.SEC_STATUS_AUDIT_NOR_FAIL = true) ∧
    (Completes .auditAggregate s fun d => d.sec.audit.aggregate = [] ∧
      d.fld Fld.SEC_AUDIT_SEQ_SEQ = (s.dev.fld Fld.SEC_AUDIT_SEQ_SEQ + audit.aggregate.length) % 2 ^ 32) ∧
    (Completes .secCntClr s fun d => (∀ k < 8, d.reg (Adr.SEC_CNT k) = 0) ∧ d = { s.dev with regs := d.regs } ∧
      SameRegs s.dev d ((List.range 8).map Adr.SEC_CNT))

/-! ## KD mode -/

/-- The commands of the KD logical unit. Outside KD mode, during a function reset and while the host path is quiet none has an
effect. A unit attention that waits is reported first, but to INQUIRY, REQUEST SENSE, REPORT LUNS and the other exempt ones. A
command that needs the medium ends NOT READY without one, or while it starts, and after a start that failed begins a new one. Otherwise each ends GOOD with its data, or CHECK
CONDITION with the sense that its rule names: a range beyond the capacity, a field or a page that is not there, a sector not
recovered, a write below the next unrecorded address, an opcode that is not listed. A read with FUA records the staged blocks that it
covers first (log 172). The row of an opcode that is not listed does
nothing with one that is (log 119). A write is staged in the buffer or laid down;
SYNCHRONIZE CACHE leaves no sector staged that it covers; under a supply alarm what needs the medium waits. -/
def Obligations.KdCommandsEnd : Prop :=
  ∀ (s : State) (t : ScsiTask) (m : KdAnswer) (w : KdWritten) (sent : List (List Byte)) (list : List Byte) (rowData : Vector Byte 240),
    let tag := t.tag.toNat
    let f (k n : Nat) : Nat := cdbField t.cdb k n
    let up := s.dev.mode = 2 ∧ s.dev.bit Fld.HQ_STATUS_RESETTING = false ∧ s.dev.bit Fld.HQ_STATUS_QUIESCED = false
    let calm := up ∧ s.dev.kd.attention = none
    let starting := s.dev.kdStarting
    let failed := s.dev.mot.spn.failed = true
    let usable := calm ∧ ¬failed ∧ s.dev.kdNoMedium = false ∧ s.dev.ps ≠ 1 ∧ s.dev.ps ≠ 2 ∧ starting = false
    let free : List (Instr × Nat) := [(.getConfiguration t, f 7 2), (.getEventStatusNotification t, f 7 2),
      (.readBufferCapacity t, f 7 2)]
    let onDisc : List (Instr × Nat) := [(.readTocPmaAtip t, f 7 2), (.readDiscInformation t, f 7 2),
      (.readTrackInformation t, f 7 2), (.getPerformance t, 16 * f 8 2 + 8)]
    let medium : List Instr := [.testUnitReady t, .readCapacity t, .seek10 t, .read10 t m, .read12 t m, .verify10 t m,
      .synchronizeCache t w] ++ onDisc.map (·.1)
    let plain : List Instr := medium ++ [.startStopUnit t, .preventAllowMediumRemoval t, .readBufferCapacity t, .setStreaming t,
      .modeSense10 t, .modeSelect10 t list, .kdErrCounters t, .kdDriveInfo t]
    let exempt : List Instr := [.requestSense t, .inquiry t, .reportLuns t, .getConfiguration t, .getEventStatusNotification t]
    let old := s.dev.kd.replies
    let good (cmd : Instr) (l : List Byte) (P : Dev → Prop) : Prop :=
      Completes cmd s fun d => d.kd.replies = ⟨tag, some 0, l, none⟩ :: old ∧ P d
    let check (cmd : Instr) (l : List Byte) (key asc ascq : Nat) (info : Option Nat) (P : Dev → Prop) : Prop :=
      Completes cmd s fun d => (∃ n, d.kd.sense = ⟨key, asc, ascq, info, n⟩) ∧
        d.kd.replies = ⟨tag, some 2, l, some d.kd.sense⟩ :: old ∧ P d
    let bad (cmd : Instr) : Prop := check cmd [] keyIllegal 0x24 0 none fun _ => True
    let any (_ : Dev) : Prop := True
    let ranged (cmd : Instr) (lba n : Nat) : Prop := usable → s.dev.kd.sectors < lba + n → check cmd [] keyIllegal 0x21 0 none any
    let reads (cmd : Instr) (lba n : Nat) (deliver fua : Bool) : Prop := ranged cmd lba n ∧
      (usable → lba + n ≤ s.dev.kd.sectors →
        let first := s.dev.kdSettle lba n fua
        let got := (List.range n).map fun i => first.1.kdSectorAt lba i m
        let out := if deliver then (got.filterMap id).flatten else []
        (first.2 = false → check cmd [] keyMedium 0x0c 0 none any) ∧
        (∀ i, first.2 = true → i < n → first.1.kdSectorAt lba i m = none → (∀ k < i, first.1.kdSectorAt lba k m ≠ none) →
          check cmd out keyMedium 0x11 0 (some (lba + i)) any) ∧
        (first.2 = true → (∀ i < n, first.1.kdSectorAt lba i m ≠ none) →
          if m.recovered && s.dev.kd.per then check cmd out keyRecovered 0x17 1 none any else good cmd out any))
    let writes (cmd : Instr) (lba len : Nat) : Prop := let data := sectorData len sent
      (¬up → exec cmd s = .next s) ∧ ranged cmd lba data.length ∧
      (usable → lba + data.length ≤ s.dev.kd.sectors → s.dev.supplyFailed = true → cdbFua t.cdb = true →
        Completes cmd s fun d => d.kd = s.dev.kd) ∧
      (usable → lba + data.length ≤ s.dev.kd.sectors → s.dev.supplyFailed = false → lba < s.dev.kd.next →
        check cmd [] keyIllegal 0x21 0 none fun d => d.kd.staged = s.dev.kd.staged) ∧
      (usable → lba + data.length ≤ s.dev.kd.sectors → s.dev.kd.next ≤ lba →
        (s.dev.supplyFailed = true ∧ cdbFua t.cdb = false) ∨ (s.dev.supplyFailed = false ∧ w.cut = [] ∧ s.dev.kdStands = none) →
        (s.dev.kd.staged.map (·.2)).Nodup →
        good cmd [] fun d => d.kd.calibrated = true ∧ ∀ i, (h : i < data.length) → lba + i < d.kd.next ∨
          ∃ p, Tab.get (fun _ => 0) d.kd.staged (lba + i) = p + 1 ∧ d.kdPlaceBytes (p + 1) = (bytesAt data[i] 0 2048, false))
    let enters (target : Nat) : Prop :=
      (target = 0 → good (.startStopUnit t) [] fun d => d.ps = 0 ∧ d.host.entry = none) ∧
      (target ≠ 0 → f 1 1 % 2 = 1 → good (.startStopUnit t) [] fun d => d.host.entry = some ⟨target, none, false⟩) ∧
      (target ≠ 0 → f 1 1 % 2 = 0 → Completes (.startStopUnit t) s fun d => d.host.entry = some ⟨target, none, false⟩ ∧
        d.kd.replies = old ∧ d.kd.starting = s.dev.kd.starting ++ [tag])
    let page := f 2 1 % 64
    (¬up → ∀ cmd ∈ plain ++ exempt, exec cmd s = .next s) ∧
    (∀ asc, up → s.dev.kd.attention = some asc → ∀ cmd ∈ plain, check cmd [] keyAttention asc 0 none fun d => d.kd.attention = none) ∧
    (calm → ¬failed → s.dev.kdNoMedium = true → ∀ cmd ∈ medium, check cmd [] keyNotReady 0x3a 0 none any) ∧
    (calm → ¬failed → s.dev.kdNoMedium = false → s.dev.ps ≠ 1 → s.dev.ps ≠ 2 → starting = true → ∀ cmd ∈ medium,
      check cmd [] keyNotReady 0x04 1 none any) ∧
    (calm → failed → s.dev.kd.present = true → s.dev.bit Fld.MON_THERM_TRIP = false → s.dev.pairUnfilled 0 = false →
      s.dev.pairUnfilled 2 = false → s.dev.ps ≠ 1 → s.dev.ps ≠ 2 → starting = true → s.dev.spnState = spnOff →
      s.dev.mot.spn.held = false → s.dev.fld Fld.SPN_TARGET_TARGET ≠ 0 →
      s.dev.fld Fld.SPN_TARGET_TARGET ≤ s.dev.fld Fld.SPN_LIMIT_SPN_MAX → ∀ cmd ∈ medium,
      check cmd [] keyNotReady 0x04 1 none fun d => d.spnState = spnMeasure ∧ d.mot.spn.failed = false) ∧
    (usable → good (.testUnitReady t) [] any ∧ good (.readCapacity t) (beBytes 4 (s.dev.kd.sectors - 1) ++ beBytes 4 2048) any) ∧
    (up → s.dev.kd.attention = none → good (.requestSense t) ((senseBytes s.dev.kd.sense).take (f 4 1)) fun d => d.kd.sense = {}) ∧
    (∀ asc, up → s.dev.kd.attention = some asc → good (.requestSense t)
      ((senseBytes ⟨keyAttention, asc, 0, none, s.dev.esn⟩).take (f 4 1)) fun d => d.kd.sense = {} ∧ d.kd.attention = none) ∧
    (up → good (.reportLuns t) ((beBytes 4 8 ++ zeroBytes 12).take (f 6 4)) any) ∧
    (up → f 1 1 % 2 = 0 → (f 2 1 = 0 → good (.inquiry t) (s.dev.inquiryData.take (f 3 2)) any) ∧ (f 2 1 ≠ 0 → bad (.inquiry t))) ∧
    (up → f 1 1 % 2 = 1 → (f 2 1 = 0x80 → good (.inquiry t) (([5, 0x80, 0, 16] ++ serialBytes s.dev.sec.dsn).take (f 3 2)) any) ∧
      (f 2 1 = 0 ∨ f 2 1 = 0x83 → ∃ l, good (.inquiry t) l any) ∧ (f 2 1 ∉ [0, 0x80, 0x83] → bad (.inquiry t))) ∧
    (calm → (64 ≤ f 4 1 → bad (.startStopUnit t)) ∧
      (f 4 1 / 16 = 0 → f 4 1 / 2 % 2 = 1 → good (.startStopUnit t) [] fun d => d.ps = s.dev.ps) ∧
      (f 4 1 / 16 = 0 → f 4 1 / 2 % 2 = 0 → enters (if f 4 1 % 2 = 1 then 0 else 2)) ∧
      (f 4 1 / 16 ≠ 0 → f 4 1 / 16 ≤ 3 → enters (f 4 1 / 16 - 1))) ∧
    (calm → good (.preventAllowMediumRemoval t) [] fun d => d.kd.prevent = (f 4 1 % 2 == 1)) ∧
    (ranged (.seek10 t) (f 2 4) 1 ∧ (usable → f 2 4 + 1 ≤ s.dev.kd.sectors → good (.seek10 t) [] any)) ∧
    (∀ p ∈ free, calm → ∃ l, l.length ≤ p.2 ∧ good p.1 l any) ∧ (∀ p ∈ onDisc, usable → ∃ l, l.length ≤ p.2 ∧ good p.1 l any) ∧
    (calm → good (.setStreaming t) [] fun d => d.kd = { s.dev.kd with replies := d.kd.replies }) ∧
    (calm → (page ∉ [1, 0x1a, 0x2a, 0x3f] → bad (.modeSense10 t)) ∧
      (page ∈ [1, 0x1a, 0x2a, 0x3f] → ∃ l, l.length ≤ f 7 2 ∧ good (.modeSense10 t) l any)) ∧
    (calm → let ps := modePages (list.length + 1) (list.drop (8 + cdbField list 6 2))
      (ps = none → bad (.modeSelect10 t list)) ∧ (ps.isSome = true → good (.modeSelect10 t list) [] fun d =>
        ∀ l, ps = some [l] → fieldAt l 0 1 % 64 = 1 → d.kd.per = (fieldAt l 2 1).testBit 2 ∧ d.kd.retries = fieldAt l 3 1)) ∧
    reads (.read10 t m) (f 2 4) (f 7 2) true (cdbFua t.cdb) ∧ reads (.read12 t m) (f 2 4) (f 6 4) true (cdbFua t.cdb) ∧
    reads (.verify10 t m) (f 2 4) (f 7 2) false false ∧
    writes (.write10 t sent w) (f 2 4) (f 7 2) ∧ writes (.write12 t sent w) (f 2 4) (f 6 4) ∧
    (usable → s.dev.supplyFailed = true → Completes (.synchronizeCache t w) s fun d => d.kd = s.dev.kd) ∧
    (usable → s.dev.supplyFailed = false → w.cut = [] → s.dev.kdStands = none → (∀ e ∈ s.dev.kd.staged, s.dev.kd.next ≤ e.1 ∧ e.2 ≠ 0) →
      good (.synchronizeCache t w) [] fun d => ∀ e ∈ d.kd.staged,
        (if f 7 2 = 0 then s.dev.kd.sectors else f 2 4 + f 7 2) ≤ 21 * (e.1 / 21)) ∧
    ((¬up → exec (.kdReadRaw t m rowData) s = .next s) ∧
      ranged (.kdReadRaw t m rowData) (f 2 4) 1 ∧ (usable → f 2 4 + 1 ≤ s.dev.kd.sectors → good (.kdReadRaw t m rowData)
        ((((List.range 21).map fun k => bytesAt (m.sectors.getD k []) 0 2060).flatten ++ rowData.toList).take (f 7 2)) any)) ∧
    (calm → good (.kdErrCounters t) ((((List.range 8).map fun k => leBytes 4 (s.dev.reg (Adr.KD_CNT k)).toNat).flatten).take (f 7 2))
      fun d => ∀ k < 8, d.reg (Adr.KD_CNT k) = if f 1 1 % 2 = 1 then 0 else s.dev.reg (Adr.KD_CNT k)) ∧
    (calm → ∃ l, l.length ≤ f 7 2 ∧ good (.kdDriveInfo t) l any) ∧
    ((¬up → exec (.kdCalibrate t w.errs w.mon) s = .next s) ∧ (usable → ∃ l, good (.kdCalibrate t w.errs w.mon) l fun d =>
      d.kd.calibrated = true ∧ (d.wps 0).swap = true)) ∧
    (scsiOpcodes.contains (f 0 1) = true → exec (.scsiUnsupportedOpcode t) s = .next s) ∧
    (scsiOpcodes.contains (f 0 1) = false → (¬up → exec (.scsiUnsupportedOpcode t) s = .next s) ∧
      (calm → check (.scsiUnsupportedOpcode t) [] keyIllegal 0x20 0 none any))

/-- Task management, USB, calibration and the read path of KD mode; none of it has an effect in another mode. ABORT TASK and ABORT
TASK SET end what waits and report FUNCTION COMPLETE; a unit reset begins a function reset and leaves UNIT ATTENTION 0x29; a port
reset also unconfigures; suspend begins PS3 and resume gives PS2; a device request is answered. A run-in begins a block; a bank swap
that waits is taken at a frame's sync; a sync within the threshold, of the slice's own decisions and flags, places its row, one missed
places it nominally, and three in a row lose sync and search the frame; 240 rows decode, those that fail with the rows of an earlier pass
over the same block, and the rows of a block that is not whole stand for the next pass. Delivery moves between the copies only to one in
service. -/
def Obligations.KdMediumAndUsb : Prop :=
  ∀ (s : State) (tag : BitVec 16) (setup : Vector Byte 8) (errs : Vector Nat 16) (mon : Vector (BitVec 12) 16) (n : Nat)
    (p : PreambleRecord) (fault : Bool),
    let kd := s.dev.mode = 2
    let k := s.dev.kd
    let thr := s.dev.fld (Fld.CHN_SYNC_CFG_THR 4)
    let win := min 8 (s.dev.fld (Fld.CHN_SYNC_CFG_WIN 4))
    let best := kdBest (s.dev.kdDistances (k.expect - win) (2 * win + 1)) win (syncOffsets win)
    let whole := s.dev.kdDistances k.expect 2952
    let row (place : Int) := some (s.dev.kdRowAt place)
    let sync (P : Dev → Prop) : Prop := Completes (.kdFrameSync () ()) s P
    let missed (d : Dev) : Prop := d.reg (Adr.KD_CNT 6) = s.dev.counted (Adr.KD_CNT 6) 1
    let found (off place : Int) (d : Dev) : Prop := d.kd = { k with
      rows := k.rows ++ [row place], missRun := 0, searching := false, offset := off, expect := place + 2952 }
    let block := s.dev.kdPass
    let onStandby := s.dev.bit Fld.KD_STATUS_ON_STANDBY
    let spareDead := s.dev.dead 14 1
    let req := setup.toList
    let ans := s.dev.usbAnswer req
    let value := fieldAt req 2 2
    (¬kd → (∀ c ∈ [Instr.abortTask tag, .abortTaskSet, .logicalUnitReset, .usbPortReset, .usbSuspend, .usbResume, .kdRunIn n p,
      .kdFrameSync () (), .kdBlockDecode, .kdStandbyTakeover fault, .kdTakeover, .kdCalibrationTimer errs mon, .usbDeviceRequest setup],
      exec c s = .next s)) ∧
    (kd → Completes (.abortTask tag) s fun d => d.kd = { k with
      starting := k.starting.filter (· != tag.toNat), replies := ⟨tag.toNat, none, [], none⟩ :: k.replies }) ∧
    (kd → Completes .abortTaskSet s fun d => d.kd = { k with starting := [], replies := ⟨0, none, [], none⟩ :: k.replies }) ∧
    (kd → Completes .logicalUnitReset s fun d => d.bit Fld.HQ_STATUS_RESETTING = true ∧ d.kd.attention = some 0x29 ∧
      d.kd.starting = [] ∧ d.kd.replies = ⟨0, none, [], none⟩ :: k.replies) ∧
    (kd → Completes .usbPortReset s fun d => d.bit Fld.HQ_STATUS_RESETTING = true ∧ d.kd.attention = some 0x29 ∧
      d.kd.config = 0 ∧ d.kd.alternate = 0 ∧ d.kd.suspended = false) ∧
    (kd → Completes .usbSuspend s fun d => d.kd.suspended = true ∧ (s.dev.ps < 3 → d.host.entry = some ⟨3, none, false⟩)) ∧
    (kd → k.suspended = false → exec .usbResume s = .next s) ∧
    (kd → k.suspended = true → Completes .usbResume s fun d => d.kd.suspended = false ∧ d.host.entry = none ∧
      d.ps = if s.dev.ps = 3 then 2 else s.dev.ps) ∧
    (kd → Completes (.usbDeviceRequest setup) s fun d =>
      d.kd.usb = ans.map (fun l => l.take (fieldAt req 6 2)) :: k.usb ∧ d.free = s.dev.free + 13 ∧
      (fieldAt req 1 1 = 9 → value ≤ 1 → d.kd.config = value ∧ d.kd.alternate = 0) ∧
      (fieldAt req 1 1 = 11 → value ≤ 1 → k.config = 1 → d.kd.alternate = value) ∧
      (fieldAt req 1 1 ≠ 9 → d.kd.config = k.config)) ∧
    (kd → s.dev.kdNoMedium = true → exec (.kdCalibrationTimer errs mon) s = .next s) ∧
    (kd → s.dev.kdNoMedium = false → Completes (.kdCalibrationTimer errs mon) s fun d => d.kd = { k with calibrated := true } ∧
      (d.wps 0).swap = true) ∧
    (kd → n < 256 → exec (.kdRunIn n p) s = .next s) ∧
    (kd → 256 ≤ n → Completes (.kdRunIn n p) s fun d =>
      d.kd = { k with rows := [], inBlock := true, missRun := 0, searching := false, offset := 0, expect := d.kd.expect } ∧
      (s.dev.sliceMode 4 ≠ 0 → s.dev.writing 0 = false → (d.slice 4).coldRun = true ∧ (d.slice 4).coldArmed = false) ∧
      d.bit Fld.KD_STATUS_STANDBY_READY = !spareDead) ∧
    (kd → sync fun d => (d.wps 0).swap = false ∧ ((s.dev.wps 0).swap = true → d.bank 0 = 1 - s.dev.bank 0) ∧
      ((s.dev.wps 0).swap = false → d.bank 0 = s.dev.bank 0)) ∧
    (kd → (k.inBlock = false ∨ 240 ≤ k.rows.length → sync fun d => d.kd = k) ∧
      (k.inBlock = true → k.rows = [] → (∀ j, s.dev.kdFirst k.expect = some j → sync (found j (k.expect + j))) ∧
        (s.dev.kdFirst k.expect = none → sync fun d => d.kd = k)) ∧
      (k.inBlock = true → k.rows ≠ [] → k.rows.length < 240 → k.searching = false →
        (best.2 ≤ thr → sync (found best.1 (k.expect + best.1))) ∧
        (thr < best.2 → sync fun d => d.kd = { k with rows := k.rows ++ [row k.expect], missRun := k.missRun + 1
                                                      searching := decide (2 ≤ k.missRun), expect := k.expect + 2952 } ∧
          missed d ∧ (2 ≤ k.missRun → d.bit Fld.KD_STATUS_SYNC_LOST = true))) ∧
      (k.inBlock = true → k.rows ≠ [] → k.rows.length < 240 → k.searching = true →
        let j := leastIndex whole
        (whole.getD j 48 ≤ thr → sync (found j (k.expect + j))) ∧
        (thr < whole.getD j 48 → sync fun d => d.kd = { k with rows := k.rows ++ [none], expect := k.expect + 2952 } ∧ missed d))) ∧
    (kd → k.rows.length < 240 → exec .kdBlockDecode s = .next s) ∧
    (kd → 240 ≤ k.rows.length → Completes .kdBlockDecode s fun d => d.kd.rows = [] ∧ d.kd.inBlock = false ∧
      d.kd.decoded.length = 21 ∧ d.kd.decoded = ((List.range 21).map fun i => ⟨(block.sector i).1, (block.sector i).2⟩) ∧
      d.kd.rowCounts = (block.counts.map fun c => c.getD 0xff) ∧
      ((∀ i < 21, (block.sector i).2 = true) → d.kd.passBlock = none ∧ d.kd.passRows = []) ∧
      (∀ i < 21, (block.sector i).2 = false → d.kd.passBlock = block.address ∧ d.kd.passRows = block.stood) ∧
      (∀ j < 2, d.reg (Adr.KD_CNT j) = s.dev.counted (Adr.KD_CNT j) (if (j == 1) = block.corrected then 1 else 0)) ∧
      d.reg (Adr.KD_CNT 2) = s.dev.counted (Adr.KD_CNT 2) block.erased ∧
      d.reg (Adr.KD_CNT 3) = s.dev.counted (Adr.KD_CNT 3) block.failed ∧
      d.reg (Adr.KD_CNT 4) = s.dev.counted (Adr.KD_CNT 4) (if block.second then 1 else 0)) ∧
    (kd → onStandby = true ∨ spareDead = true → exec (.kdStandbyTakeover fault) s = .next s) ∧
    (kd → onStandby = false → spareDead = false → Completes (.kdStandbyTakeover fault) s fun d =>
      d.bit Fld.KD_STATUS_ON_STANDBY = true ∧ d.bit Fld.KD_STATUS_STANDBY_READY = false ∧
      d.reg (Adr.KD_CNT 7) = s.dev.counted (Adr.KD_CNT 7) 1 ∧ (fault = true → d.dead 14 0 = true)) ∧
    (kd → s.dev.dead 14 (if onStandby then 0 else 1) = true → exec .kdTakeover s = .next s) ∧
    (kd → s.dev.dead 14 (if onStandby then 0 else 1) = false → Completes .kdTakeover s fun d =>
      d.bit Fld.KD_STATUS_ON_STANDBY = !onStandby ∧ d = { s.dev with regs := d.regs } ∧
      SameRegs s.dev d [Adr.KD_STATUS, Adr.KD_CNT 7]) ∧
    (Completes .kdCntClr s fun d => (∀ j < 8, d.reg (Adr.KD_CNT j) = 0) ∧ d = { s.dev with regs := d.regs } ∧
      SameRegs s.dev d ((List.range 8).map Adr.KD_CNT))

/-! ## Updates and the service port -/

/-- Images. A piece is refused, or staged under the staging lock; the last one starts the verification, whose end shows RESULT and
releases the lock on a failure. ACTIVATE needs a verified image and no rival, and begins the activation; its end shows RESULT, runs
the other slot as a trial, or fails. CONFIRM and REVERT act on a trial alone: CONFIRM keeps its slot, REVERT fails it, and a
manifest's REVERT resets the device. A live activation ends once every unit has changed, and fails with a unit that failed. A vendor task moves in its turn. The lock runs out after its time, and a trial under AUTO is
confirmed after 1,440 clean minutes. -/
def Obligations.UpdatesStageAndTry : Prop :=
  ∀ (s : State) (c : CmdRef) (x : HostCmd) (ok : Bool) (t : TaskId),
    let l := x.entry
    let named := s.dev.findCmd c = some x ∧ s.dev.bit Fld.HQ_STATUS_RESETTING = false ∧ x.verdict = none
    let ends (cmd : Instr) (v : HostStatus) (P : Dev → Prop) : Prop := Completes cmd s fun d => CmdEnds s.dev d x v ∧ P d
    let pages := (s.dev.chainPages (entChain l) (entNlb l)).getD []
    let u := s.dev.upd
    let off := entArg l 8 4
    let piece := ((pages.map fun p => s.dev.hostRead p 4096).flatten).take (entArg l 4 4)
    let mine := some x.qp
    let other := s.dev.stagingOther mine
    let busy : HostStatus := ⟨stBusyUpdate, 0, 0⟩
    let done : HostStatus := ⟨stDone, 0, 0⟩
    let any (_ : Dev) : Prop := True
    let endorse (a : Nat) : Prop := named ∧ entOpcode l = 0xc ∧ entArg l 0 1 = a ∧ pages ≠ []
    let activating := s.dev.bit Fld.UPD_STATUS_ACTIVATING
    let trial := s.dev.bit Fld.UPD_STATUS_TRIAL
    let slot := s.dev.trialSlot
    let run' := 1 - s.dev.runningSlot
    let next := s.dev.vendorTasks.find? fun k => !u.moved.contains k
    let turn := activating = true ∧ (u.cls = some 1 ∨ u.cls = some 0x11) ∧ next = some t.val ∧
      s.dev.taskState t = taskWaiting ∧ (∀ o ∈ s.dev.span.dmas, o.task ≠ t.val) ∧ ∀ e ∈ s.dev.span.held, e.task ≠ t.val
    let minutes := s.dev.fld Fld.UPD_CONFIRM_CLEAN_MIN
    let ended (d : Dev) (result : Nat) : Prop := d.fld Fld.UPD_STATUS_RESULT = result ∧
      d.bit Fld.UPD_STATUS_ACTIVATING = false
    (named → entOpcode l = 9 → (entArg l 0 1 ≠ 2 ∨ u.waiter = some (.command c) → exec (.loadProgramXim c) s = .next s) ∧
      (entArg l 0 1 = 2 → u.waiter ≠ some (.command c) →
        (∀ v, s.dev.pieceRefused mine off (entArg l 4 4) = some v → ends (.loadProgramXim c) v fun d => d.upd = u) ∧
        (s.dev.pieceRefused mine off (entArg l 4 4) = none → s.dev.chainPages (entChain l) (entNlb l) = none →
          ends (.loadProgramXim c) (badField 24 rsChain) fun d => d.upd = u) ∧
        (s.dev.pieceRefused mine off (entArg l 4 4) = none → s.dev.chainPages (entChain l) (entNlb l) ≠ none →
          Completes (.loadProgramXim c) s fun d => Tab.range (fun _ => 0) d.upd.stage off piece.length = piece ∧
            d.bit Fld.UPD_STATUS_LOCKED = true ∧ d.bit Fld.UPD_STATUS_VERIFIED = false ∧
            ((entArg l 1 1).testBit 0 = true → d.upd.verifying = true ∧ d.upd.waiter = some (.command c) ∧
              d.upd.length = some (off + entArg l 4 4)) ∧
            ((entArg l 1 1).testBit 0 = false → CmdEnds s.dev d x done)))) ∧
    (u.verifying = false ∨ u.length = none →
      exec .imageVerifyDone s = .next s) ∧
    (∀ n, u.verifying = true → u.length = some n →
      let im := Tab.range (fun _ => (0 : Byte)) u.stage 0 n
      let r := s.dev.verifyXim im
      Completes .imageVerifyDone s fun d => d.fld Fld.UPD_STATUS_RESULT = r ∧ d.upd.verifying = false ∧ d.upd.waiter = none ∧
        (r = 1 → d.bit Fld.UPD_STATUS_VERIFIED = true ∧ d.upd.image = some (parseXim im)) ∧
        (r ≠ 1 → d.bit Fld.UPD_STATUS_LOCKED = false ∧ d.upd.image = none)) ∧
    (endorse 4 → (u.waiter = some (.command c) → exec (.endorseActivate c) s = .next s) ∧
      (u.waiter ≠ some (.command c) → other = true → ends (.endorseActivate c) busy any) ∧
      (u.waiter ≠ some (.command c) → other = false → u.image = none ∨ activating = true ∨ trial = true →
        ends (.endorseActivate c) stateError any) ∧
      (∀ im, u.waiter ≠ some (.command c) → other = false → activating = false → trial = false → u.image = some im →
        im.manifest = true → Completes (.endorseActivate c) s fun d => d.bit Fld.UPD_STATUS_ACTIVATING = true ∧
          d.bit Fld.HQ_STATUS_QUIESCED = true ∧ d.upd.waiter = some (.command c))) ∧
    (endorse 5 → (s.dev.onTrial = true → ends (.endorseConfirm c) done fun d => d.bit Fld.UPD_STATUS_TRIAL = false ∧
        d.fld (Fld.UPD_SLOT_STATE slot) = slotConfirmed) ∧
      (s.dev.onTrial = false → ends (.endorseConfirm c) stateError fun d => d.bit Fld.UPD_STATUS_TRIAL = trial)) ∧
    (endorse 7 → (other = true → ends (.endorseStageAbort c) busy any) ∧
      (other = false → s.dev.bit Fld.UPD_STATUS_LOCKED = true → activating = false → ends (.endorseStageAbort c) done fun d =>
        d.bit Fld.UPD_STATUS_LOCKED = false ∧ d.fld Fld.UPD_STATUS_RESULT = 0xa ∧ d.upd.stage = []) ∧
      (s.dev.bit Fld.UPD_STATUS_LOCKED = false → ends (.endorseStageAbort c) stateError any)) ∧
    (endorse 8 → (s.dev.onTrial = false → ends (.endorseRevert c) stateError any) ∧
      (s.dev.onTrial = true → u.cls = none → Completes (.endorseRevert c) s fun d => d.pwr.held = true ∧
        d.fld (Fld.UPD_SLOT_STATE slot) = slotFailed) ∧
      (s.dev.onTrial = true → u.cls ≠ none → Completes (.endorseRevert c) s fun d => d.upd.revert = true ∧
        d.fld (Fld.UPD_SLOT_STATE slot) = slotFailed)) ∧
    (¬turn → exec (.vendorTaskMove t) s = .next s) ∧
    (turn → Completes (.vendorTaskMove t) s fun d => d.upd.moved = u.moved ++ [t.val] ∧ d.taskState t = taskRunning ∧
      (∀ r : SpanReg, d.sreg t r = 0) ∧ ((∀ k ∈ s.dev.vendorTasks, k ∈ u.moved ++ [t.val]) → d.upd.half.val = 1 - u.half.val)) ∧
    (activating = false → exec (.liveActivationDone ok) s = .next s) ∧
    (activating = true → u.cls = none → ∀ im, u.image = some im →
      (s.dev.pathBusy = true → exec (.liveActivationDone ok) s = .next s) ∧
      (s.dev.pathBusy = false → Completes (.liveActivationDone ok) s fun d => ended d (if ok then 9 else 8) ∧
        d.bit Fld.HQ_STATUS_QUIESCED = false ∧ d.bit Fld.UPD_STATUS_LOCKED = false ∧
        (ok = true → d.bit Fld.UPD_STATUS_TRIAL = true ∧ d.runningSlot = run' % 2) ∧ (ok = false → d.runningSlot = s.dev.runningSlot))) ∧
    (activating = true → ∀ k, u.cls = some k →
      (u.revert = true → Completes (.liveActivationDone ok) s fun d => ended d (if ok then 9 else 8) ∧
        d.bit Fld.UPD_STATUS_TRIAL = false ∧ d.upd.cls = none) ∧
      (u.revert = false → ok = false ∨ u.failed = true → Completes (.liveActivationDone ok) s fun d => ended d 8) ∧
      (u.revert = false → ok = true → u.failed = false → ((k = 1 ∨ k = 0x11) ∧ s.dev.allMoved = false) ∨ s.dev.unitsChanged k = false →
        exec (.liveActivationDone ok) s = .next s) ∧
      (u.revert = false → ok = true → u.failed = false → (k ≠ 1 ∧ k ≠ 0x11) ∨ s.dev.allMoved = true → s.dev.unitsChanged k = true →
        Completes (.liveActivationDone ok) s fun d =>
        ended d 9 ∧ d.runningSlot = run' % 2)) ∧
    (s.dev.bit Fld.UPD_STATUS_LOCKED = false ∨ activating = true → exec .stagingLockTimeout s = .next s) ∧
    (s.dev.bit Fld.UPD_STATUS_LOCKED = true → activating = false → Completes .stagingLockTimeout s fun d =>
      d.bit Fld.UPD_STATUS_LOCKED = false ∧ d.fld Fld.UPD_STATUS_RESULT = 0xb ∧ d.upd.stage = []) ∧
    (s.dev.onTrial = false ∨ s.dev.ps = 4 → exec .cleanMinute s = .next s) ∧
    (s.dev.onTrial = true → s.dev.ps ≠ 4 → Completes .cleanMinute s fun d =>
      d.fld Fld.UPD_CONFIRM_CLEAN_MIN = min 1440 (minutes + 1) ∧ d.bit Fld.UPD_STATUS_TRIAL =
        !(decide (1439 ≤ minutes) && s.dev.bit Fld.UPD_CONFIRM_AUTO) ∧
      (1439 ≤ minutes → s.dev.bit Fld.UPD_CONFIRM_AUTO = true → d.fld (Fld.UPD_SLOT_STATE slot) = slotConfirmed))

/-- The service port. A frame longer than LEN may say is discarded (log 120). A frame changes nothing but what its compared copies show (R8) while the port does not run, and, but for HELLO and REG_READ, while the device did not
start; the recovery ROM answers INVALID_OPCODE to what it does not serve; a role below that of the TYPE, and a full log under HOLD, are
answered PROTECTION_DENIED. Otherwise each TYPE has its effect and one answer in the form of R411. A session that is silent for
10 s ends with its role and its lock, and a frame that stops is discarded. -/
def Obligations.ServiceFramesAnswer : Prop :=
  ∀ (s : State) (f : SvcFrame) (t : Fin 241),
    let seq := f.seq.toNat
    let rows : List (Instr × Nat × Nat) := [(.svcHello f, 1, 0), (.svcNonce f, 2, 1), (.svcToken f, 3, 1), (.svcStage f, 4, 2),
      (.svcStageEnd f, 5, 2), (.svcActivate f, 6, 2), (.svcConfirm f, 7, 2), (.svcStageAbort f, 8, 2), (.svcRevert f, 9, 2),
      (.svcRegRead f, 0xa, 1), (.svcRegWrite f, 0xb, 1), (.svcGetLog f, 0xc, 1), (.svcModeLock f, 0xd, 2), (.svcDropRole f, 0xe, 1),
      (.svcReset f, 0xf, 2)]
    let d0 := s.dev
    let up := d0.svcUp = true
    let rom := d0.bit Fld.BOOT_STATUS_RECOVERY_ROM
    let noStart := d0.bit Fld.BOOT_STATUS_NO_START
    let role := d0.fld Fld.SVC_CFG_ROLE
    let answers (cmd : Instr) (ty st : Nat) (data : List Byte) (P : Dev → Prop) : Prop :=
      Completes cmd s fun d => d.svc.sent = svcFrameBytes ty seq st data :: d0.svc.sent ∧ P d
    let any (_ : Dev) : Prop := True
    let serves (need : Nat) : Prop := up ∧ rom = false ∧ noStart = false ∧ need ≤ role ∧ d0.auditHeld = false
    let a := fieldAt f.payload 0 4
    let u := d0.upd
    let other := d0.stagingOther none
    let activating := d0.bit Fld.UPD_STATUS_ACTIVATING
    let trial := d0.bit Fld.UPD_STATUS_TRIAL
    let result (ty : Nat) : List Byte := d0.resultBytes ty
    let piece := f.payload.drop 8
    let badPiece := f.payload.length < 8 ∨ fieldAt f.payload 4 4 ≠ 0
    let id := fieldAt f.payload 0 1
    let n := fieldAt f.payload 8 2
    let sub := d0.submitToken .service (bytesAt f.payload 0 512)
    let compared := { s with dev := d0.copyDisagrees copiesService f.copy }
    let type := unlistedSvcType t
    (4104 < f.payload.length → (∀ p ∈ rows, exec p.1 s = .next compared) ∧ exec (.svcUnlistedType t f) s = .next compared) ∧
    (f.payload.length ≤ 4104 →
    (∀ p ∈ rows, ¬up → exec p.1 s = .next compared) ∧
    (∀ p ∈ rows, up → rom = true → p.2.1 ∉ [1, 4, 5, 6] → answers p.1 p.2.1 stInvalidOpcode [] any) ∧
    (∀ p ∈ rows, up → rom = false → noStart = true → p.2.1 ≠ 1 → p.2.1 ≠ 0xa → exec p.1 s = .next compared) ∧
    (∀ p ∈ rows, up → rom = false → noStart = false → role < p.2.2 → answers p.1 p.2.1 stDenied [] any) ∧
    (∀ p ∈ rows, up → rom = false → noStart = false → p.2.2 ≤ role → d0.auditHeld = true → p.2.1 ∉ [1, 2, 3, 4, 0xc] →
      answers p.1 p.2.1 stDenied [] fun d => d = { d0 with svc := d.svc, copies := d.copies }) ∧
    (up → ∃ l, answers (.svcHello f) 1 stDone l fun d => d.bit Fld.SVC_CFG_SESSION = true ∧
      d.fld Fld.SVC_CFG_ROLE = 1) ∧
    (serves 1 → d0.sec.nonces.length < 8 → answers (.svcNonce f) 2 stDone
      (nonceRecord ⟨d0.sec.nextNonce, d0.esn, d0.freeBytes 48, none⟩) fun d => d.sec.nonces =
        d0.sec.nonces ++ [⟨d0.sec.nextNonce, d0.esn, d0.freeBytes 48, none⟩]) ∧
    (serves 1 → (∀ k, sub.1 = some k → answers (.svcToken f) 3 stDone (leBytes 4 k) any) ∧
      (sub.1 = none → answers (.svcToken f) 3 stDenied (leBytes 4 0) any)) ∧
    (serves 2 → (badPiece → answers (.svcStage f) 4 stInvalidField [] fun d => d.upd = u) ∧
      (∀ v, ¬badPiece → d0.pieceRefused none a (f.payload.length - 8) = some v → answers (.svcStage f) 4 v.status [] fun d => d.upd = u) ∧
      (¬badPiece → d0.pieceRefused none a (f.payload.length - 8) = none → answers (.svcStage f) 4 stDone [] fun d =>
        Tab.range (fun _ => 0) d.upd.stage a piece.length = piece ∧ d.bit Fld.UPD_STATUS_LOCKED = true)) ∧
    (serves 2 → (other = true → answers (.svcStageEnd f) 5 stBusyUpdate (result 5) any) ∧
      (other = false → d0.bit Fld.UPD_STATUS_LOCKED = false ∨ u.verifying = true ∨ activating = true →
        answers (.svcStageEnd f) 5 stInvalidField (result 5) any) ∧
      (other = false → d0.bit Fld.UPD_STATUS_LOCKED = true → u.verifying = false → activating = false →
        Completes (.svcStageEnd f) s fun d => d.upd.verifying = true ∧ d.upd.length = some a ∧ d.upd.waiter = some (.frame seq 5))) ∧
    (serves 2 → (other = true → answers (.svcActivate f) 6 stBusyUpdate (result 6) any) ∧
      (other = false → u.image = none ∨ activating = true ∨ trial = true → answers (.svcActivate f) 6 stInvalidField (result 6) any) ∧
      (∀ im, other = false → activating = false → trial = false → u.image = some im → im.manifest = true →
        Completes (.svcActivate f) s fun d => d.bit Fld.UPD_STATUS_ACTIVATING = true ∧ d.upd.waiter = some (.frame seq 6))) ∧
    (up → rom = true → (u.image = none → answers (.svcActivate f) 6 stInvalidField (result 6) any) ∧
      (∀ im, u.image = some im → im.manifest = true → Completes (.svcActivate f) s fun d => d.pwr.held = true ∧
        d.bit Fld.RST_CAUSE_RECOVERY = true ∧ d.fld (Fld.UPD_SLOT_STATE d0.recoverySlot) = slotTrial)) ∧
    (serves 2 → (d0.onTrial = true → answers (.svcConfirm f) 7 stDone [] fun d => d.bit Fld.UPD_STATUS_TRIAL = false ∧
        d.fld (Fld.UPD_SLOT_STATE d0.trialSlot) = slotConfirmed) ∧
      (d0.onTrial = false → answers (.svcConfirm f) 7 stInvalidField [] any)) ∧
    (serves 2 → (other = true → answers (.svcStageAbort f) 8 stBusyUpdate [] any) ∧
      (other = false → d0.bit Fld.UPD_STATUS_LOCKED = true → activating = false → answers (.svcStageAbort f) 8 stDone [] fun d =>
        d.bit Fld.UPD_STATUS_LOCKED = false) ∧
      (d0.bit Fld.UPD_STATUS_LOCKED = false → answers (.svcStageAbort f) 8 stInvalidField [] any)) ∧
    (serves 2 → (d0.onTrial = false → answers (.svcRevert f) 9 stInvalidField [] any) ∧
      (d0.onTrial = true → u.cls = none → answers (.svcRevert f) 9 stDone [] fun d => d.pwr.held = true)) ∧
    (serves 1 → (2 ^ 24 ≤ a → answers (.svcRegRead f) 0xa stInvalidField [] any) ∧
      (a < 2 ^ 24 → a % 4 ≠ 0 → answers (.svcRegRead f) 0xa stDone (leBytes 4 0xffffffff) any) ∧
      (a < 2 ^ 24 → a % 4 = 0 → a ≠ Adr.LOCUS_NOW_LO → answers (.svcRegRead f) 0xa stDone (leBytes 4 (d0.busWord a).toNat) any)) ∧
    (serves 1 → (2 ^ 24 ≤ a → answers (.svcRegWrite f) 0xb stInvalidField [] any) ∧
      (a < 2 ^ 24 → a % 4 ≠ 0 → answers (.svcRegWrite f) 0xb stDone [] any) ∧
      (a = Adr.HQ_QP_COAL 0 → answers (.svcRegWrite f) 0xb stDone [] fun d =>
        d.fld (Fld.HQ_QP_COAL_COAL_US 0) = fieldAt f.payload 6 2)) ∧
    (serves 1 → (id = 0 ∨ 7 < id ∨ 4096 < n → answers (.svcGetLog f) 0xc stInvalidField [] any) ∧
      (1 ≤ id → id ≤ 7 → n ≤ 4096 → id ≠ 5 → answers (.svcGetLog f) 0xc stDone (d0.logBytes id (fieldAt f.payload 4 4) n) any)) ∧
    (serves 2 → (d0.sec.lockAuth = some id → answers (.svcModeLock f) 0xd stDone [] fun d =>
        d.fld Fld.KD_STATUS_LOCK_NEXT = id % 4 ∧ d.sec.lockAuth = none) ∧
      (d0.sec.lockAuth ≠ some id → answers (.svcModeLock f) 0xd stDenied [] any)) ∧
    (serves 1 → answers (.svcDropRole f) 0xe stDone [] fun d => d.fld Fld.SVC_CFG_ROLE = 1 ∧ d.grantEnd .service = 0) ∧
    (serves 2 → (d0.supplyFailed = true → Completes (.svcReset f) s fun d =>
        d = { d0 with svc := { d0.svc with reset := some seq }, copies := d.copies }) ∧
      (d0.supplyFailed = false → answers (.svcReset f) 0xf stDone [] fun d => d.pwr.held = true ∧
        d.bit Fld.RST_CAUSE_SERVICE = true)) ∧
    ((¬up → exec (.svcUnlistedType t f) s = .next compared) ∧
      (up → rom = true → answers (.svcUnlistedType t f) type stInvalidOpcode [] any) ∧
      (up → rom = false → noStart = true → exec (.svcUnlistedType t f) s = .next compared) ∧
      (up → rom = false → noStart = false → answers (.svcUnlistedType t f) type (d0.freeBits 16) [] any))) ∧
    (d0.bit Fld.SVC_CFG_SESSION = false → exec .svcSessionTimeout s = .next s) ∧
    (d0.bit Fld.SVC_CFG_SESSION = true → Completes .svcSessionTimeout s fun d => d.bit Fld.SVC_CFG_SESSION = false ∧
      d.fld Fld.SVC_CFG_ROLE = 0 ∧ d.grantEnd .service = 0 ∧ (d0.stagingMine none = true → d.bit Fld.UPD_STATUS_LOCKED = false)) ∧
    exec .svcFrameTimeout s = .next s

/-! ## Reset -/

/-- After reset the queue is empty, the buffer is in its canonical form, the device is held until its reset deasserts, and every
register reads its reset value, among them those that the spec states: 32 spare frames a bank, 1,024 spare pages, the policy
RESERVE, an operator's BAR0 role, records aggregated over 60 s, a patrol every 300 s; and the block idles on an empty queue, which is
the model's own choice (log 1). -/
def Obligations.ResetIsSafeAndIdles : Prop :=
  State.reset.pending = [] ∧ State.reset.queueOk = true ∧ State.reset.dev.mem.wf = true ∧ State.reset.dev.pwr.held = true ∧
  (∀ off, State.reset.dev.reg off = regReset off) ∧ (∀ b < 8, State.reset.dev.fld (Fld.CACHE_SPARE_FREE b) = 32) ∧
  State.reset.dev.fld Fld.MEM_SPARE_FREE = 1024 ∧ State.reset.dev.fld Fld.SPR_POLICY_POLICY = 0 ∧
  State.reset.dev.fld Fld.SEC_CTRL_ROLE_ROLE = 1 ∧ State.reset.dev.fld Fld.SEC_AUDIT_POLICY_AGG_S = 60 ∧
  State.reset.dev.fld Fld.MEM_PATROL_PERIOD_S = 300 ∧ ∀ s : State, s.pending = [] → step s = .next s
end

