-- ==== Sys2Proof/Laws/State.lean ====
section
/-! SUPPORT. What each update of the block leaves as it was: one lemma per part per update, and one lemma per update that says
which part it changes. -/

namespace Sys2Proof.Machine

theorem Dev.setReg_only (d : Dev) (a : Nat) (v : Word) : d.setReg a v = { d with regs := (d.setReg a v).regs } := rfl
@[simp] theorem Dev.setReg_locus (d : Dev) (a : Nat) (v : Word) : (d.setReg a v).locus = d.locus := rfl
@[simp] theorem Dev.setReg_log (d : Dev) (a : Nat) (v : Word) : (d.setReg a v).log = d.log := rfl
@[simp] theorem Dev.setReg_free (d : Dev) (a : Nat) (v : Word) : (d.setReg a v).free = d.free := rfl
@[simp] theorem Dev.setReg_units (d : Dev) (a : Nat) (v : Word) : (d.setReg a v).units = d.units := rfl
@[simp] theorem Dev.setReg_slices (d : Dev) (a : Nat) (v : Word) : (d.setReg a v).slices = d.slices := rfl
@[simp] theorem Dev.setReg_heads (d : Dev) (a : Nat) (v : Word) : (d.setReg a v).heads = d.heads := rfl
@[simp] theorem Dev.setReg_det (d : Dev) (a : Nat) (v : Word) : (d.setReg a v).det = d.det := rfl
@[simp] theorem Dev.setReg_wp (d : Dev) (a : Nat) (v : Word) : (d.setReg a v).wp = d.wp := rfl
@[simp] theorem Dev.setReg_arc (d : Dev) (a : Nat) (v : Word) : (d.setReg a v).arc = d.arc := rfl
@[simp] theorem Dev.setReg_mot (d : Dev) (a : Nat) (v : Word) : (d.setReg a v).mot = d.mot := rfl
@[simp] theorem Dev.setReg_span (d : Dev) (a : Nat) (v : Word) : (d.setReg a v).span = d.span := rfl
@[simp] theorem Dev.setReg_cache (d : Dev) (a : Nat) (v : Word) : (d.setReg a v).cache = d.cache := rfl
@[simp] theorem Dev.setReg_mem (d : Dev) (a : Nat) (v : Word) : (d.setReg a v).mem = d.mem := rfl
@[simp] theorem Dev.setReg_medium (d : Dev) (a : Nat) (v : Word) : (d.setReg a v).medium = d.medium := rfl
@[simp] theorem Dev.setReg_host (d : Dev) (a : Nat) (v : Word) : (d.setReg a v).host = d.host := rfl
@[simp] theorem Dev.setReg_spr (d : Dev) (a : Nat) (v : Word) : (d.setReg a v).spr = d.spr := rfl
@[simp] theorem Dev.setReg_pwr (d : Dev) (a : Nat) (v : Word) : (d.setReg a v).pwr = d.pwr := rfl
@[simp] theorem Dev.setReg_sec (d : Dev) (a : Nat) (v : Word) : (d.setReg a v).sec = d.sec := rfl
@[simp] theorem Dev.setReg_upd (d : Dev) (a : Nat) (v : Word) : (d.setReg a v).upd = d.upd := rfl
@[simp] theorem Dev.setReg_svc (d : Dev) (a : Nat) (v : Word) : (d.setReg a v).svc = d.svc := rfl
@[simp] theorem Dev.setReg_kd (d : Dev) (a : Nat) (v : Word) : (d.setReg a v).kd = d.kd := rfl
@[simp] theorem Dev.setReg_ring (d : Dev) (a : Nat) (v : Word) : (d.setReg a v).ring = d.ring := rfl
@[simp] theorem Dev.setReg_tap (d : Dev) (a : Nat) (v : Word) : (d.setReg a v).tap = d.tap := rfl
@[simp] theorem Dev.setReg_rdata (d : Dev) (a : Nat) (v : Word) : (d.setReg a v).rdata = d.rdata := rfl
@[simp] theorem Dev.setReg_copies (d : Dev) (a : Nat) (v : Word) : (d.setReg a v).copies = d.copies := rfl

theorem Dev.put_only (d : Dev) (f : Field) (v : Nat) : d.put f v = { d with regs := (d.put f v).regs } := rfl
@[simp] theorem Dev.put_locus (d : Dev) (f : Field) (v : Nat) : (d.put f v).locus = d.locus := rfl
@[simp] theorem Dev.put_log (d : Dev) (f : Field) (v : Nat) : (d.put f v).log = d.log := rfl
@[simp] theorem Dev.put_free (d : Dev) (f : Field) (v : Nat) : (d.put f v).free = d.free := rfl
@[simp] theorem Dev.put_units (d : Dev) (f : Field) (v : Nat) : (d.put f v).units = d.units := rfl
@[simp] theorem Dev.put_slices (d : Dev) (f : Field) (v : Nat) : (d.put f v).slices = d.slices := rfl
@[simp] theorem Dev.put_heads (d : Dev) (f : Field) (v : Nat) : (d.put f v).heads = d.heads := rfl
@[simp] theorem Dev.put_det (d : Dev) (f : Field) (v : Nat) : (d.put f v).det = d.det := rfl
@[simp] theorem Dev.put_wp (d : Dev) (f : Field) (v : Nat) : (d.put f v).wp = d.wp := rfl
@[simp] theorem Dev.put_arc (d : Dev) (f : Field) (v : Nat) : (d.put f v).arc = d.arc := rfl
@[simp] theorem Dev.put_mot (d : Dev) (f : Field) (v : Nat) : (d.put f v).mot = d.mot := rfl
@[simp] theorem Dev.put_span (d : Dev) (f : Field) (v : Nat) : (d.put f v).span = d.span := rfl
@[simp] theorem Dev.put_cache (d : Dev) (f : Field) (v : Nat) : (d.put f v).cache = d.cache := rfl
@[simp] theorem Dev.put_mem (d : Dev) (f : Field) (v : Nat) : (d.put f v).mem = d.mem := rfl
@[simp] theorem Dev.put_medium (d : Dev) (f : Field) (v : Nat) : (d.put f v).medium = d.medium := rfl
@[simp] theorem Dev.put_host (d : Dev) (f : Field) (v : Nat) : (d.put f v).host = d.host := rfl
@[simp] theorem Dev.put_spr (d : Dev) (f : Field) (v : Nat) : (d.put f v).spr = d.spr := rfl
@[simp] theorem Dev.put_pwr (d : Dev) (f : Field) (v : Nat) : (d.put f v).pwr = d.pwr := rfl
@[simp] theorem Dev.put_sec (d : Dev) (f : Field) (v : Nat) : (d.put f v).sec = d.sec := rfl
@[simp] theorem Dev.put_upd (d : Dev) (f : Field) (v : Nat) : (d.put f v).upd = d.upd := rfl
@[simp] theorem Dev.put_svc (d : Dev) (f : Field) (v : Nat) : (d.put f v).svc = d.svc := rfl
@[simp] theorem Dev.put_kd (d : Dev) (f : Field) (v : Nat) : (d.put f v).kd = d.kd := rfl
@[simp] theorem Dev.put_ring (d : Dev) (f : Field) (v : Nat) : (d.put f v).ring = d.ring := rfl
@[simp] theorem Dev.put_tap (d : Dev) (f : Field) (v : Nat) : (d.put f v).tap = d.tap := rfl
@[simp] theorem Dev.put_rdata (d : Dev) (f : Field) (v : Nat) : (d.put f v).rdata = d.rdata := rfl
@[simp] theorem Dev.put_copies (d : Dev) (f : Field) (v : Nat) : (d.put f v).copies = d.copies := rfl

theorem Dev.putBit_only (d : Dev) (f : Field) (b : Bool) : d.putBit f b = { d with regs := (d.putBit f b).regs } := rfl
@[simp] theorem Dev.putBit_locus (d : Dev) (f : Field) (b : Bool) : (d.putBit f b).locus = d.locus := rfl
@[simp] theorem Dev.putBit_log (d : Dev) (f : Field) (b : Bool) : (d.putBit f b).log = d.log := rfl
@[simp] theorem Dev.putBit_free (d : Dev) (f : Field) (b : Bool) : (d.putBit f b).free = d.free := rfl
@[simp] theorem Dev.putBit_units (d : Dev) (f : Field) (b : Bool) : (d.putBit f b).units = d.units := rfl
@[simp] theorem Dev.putBit_slices (d : Dev) (f : Field) (b : Bool) : (d.putBit f b).slices = d.slices := rfl
@[simp] theorem Dev.putBit_heads (d : Dev) (f : Field) (b : Bool) : (d.putBit f b).heads = d.heads := rfl
@[simp] theorem Dev.putBit_det (d : Dev) (f : Field) (b : Bool) : (d.putBit f b).det = d.det := rfl
@[simp] theorem Dev.putBit_wp (d : Dev) (f : Field) (b : Bool) : (d.putBit f b).wp = d.wp := rfl
@[simp] theorem Dev.putBit_arc (d : Dev) (f : Field) (b : Bool) : (d.putBit f b).arc = d.arc := rfl
@[simp] theorem Dev.putBit_mot (d : Dev) (f : Field) (b : Bool) : (d.putBit f b).mot = d.mot := rfl
@[simp] theorem Dev.putBit_span (d : Dev) (f : Field) (b : Bool) : (d.putBit f b).span = d.span := rfl
@[simp] theorem Dev.putBit_cache (d : Dev) (f : Field) (b : Bool) : (d.putBit f b).cache = d.cache := rfl
@[simp] theorem Dev.putBit_mem (d : Dev) (f : Field) (b : Bool) : (d.putBit f b).mem = d.mem := rfl
@[simp] theorem Dev.putBit_medium (d : Dev) (f : Field) (b : Bool) : (d.putBit f b).medium = d.medium := rfl
@[simp] theorem Dev.putBit_host (d : Dev) (f : Field) (b : Bool) : (d.putBit f b).host = d.host := rfl
@[simp] theorem Dev.putBit_spr (d : Dev) (f : Field) (b : Bool) : (d.putBit f b).spr = d.spr := rfl
@[simp] theorem Dev.putBit_pwr (d : Dev) (f : Field) (b : Bool) : (d.putBit f b).pwr = d.pwr := rfl
@[simp] theorem Dev.putBit_sec (d : Dev) (f : Field) (b : Bool) : (d.putBit f b).sec = d.sec := rfl
@[simp] theorem Dev.putBit_upd (d : Dev) (f : Field) (b : Bool) : (d.putBit f b).upd = d.upd := rfl
@[simp] theorem Dev.putBit_svc (d : Dev) (f : Field) (b : Bool) : (d.putBit f b).svc = d.svc := rfl
@[simp] theorem Dev.putBit_kd (d : Dev) (f : Field) (b : Bool) : (d.putBit f b).kd = d.kd := rfl
@[simp] theorem Dev.putBit_ring (d : Dev) (f : Field) (b : Bool) : (d.putBit f b).ring = d.ring := rfl
@[simp] theorem Dev.putBit_tap (d : Dev) (f : Field) (b : Bool) : (d.putBit f b).tap = d.tap := rfl
@[simp] theorem Dev.putBit_rdata (d : Dev) (f : Field) (b : Bool) : (d.putBit f b).rdata = d.rdata := rfl
@[simp] theorem Dev.putBit_copies (d : Dev) (f : Field) (b : Bool) : (d.putBit f b).copies = d.copies := rfl

theorem Dev.putMask_only (d : Dev) (f : Field) (k : Nat) (b : Bool) : d.putMask f k b = { d with regs := (d.putMask f k b).regs } := rfl
@[simp] theorem Dev.putMask_locus (d : Dev) (f : Field) (k : Nat) (b : Bool) : (d.putMask f k b).locus = d.locus := rfl
@[simp] theorem Dev.putMask_log (d : Dev) (f : Field) (k : Nat) (b : Bool) : (d.putMask f k b).log = d.log := rfl
@[simp] theorem Dev.putMask_free (d : Dev) (f : Field) (k : Nat) (b : Bool) : (d.putMask f k b).free = d.free := rfl
@[simp] theorem Dev.putMask_units (d : Dev) (f : Field) (k : Nat) (b : Bool) : (d.putMask f k b).units = d.units := rfl
@[simp] theorem Dev.putMask_slices (d : Dev) (f : Field) (k : Nat) (b : Bool) : (d.putMask f k b).slices = d.slices := rfl
@[simp] theorem Dev.putMask_heads (d : Dev) (f : Field) (k : Nat) (b : Bool) : (d.putMask f k b).heads = d.heads := rfl
@[simp] theorem Dev.putMask_det (d : Dev) (f : Field) (k : Nat) (b : Bool) : (d.putMask f k b).det = d.det := rfl
@[simp] theorem Dev.putMask_wp (d : Dev) (f : Field) (k : Nat) (b : Bool) : (d.putMask f k b).wp = d.wp := rfl
@[simp] theorem Dev.putMask_arc (d : Dev) (f : Field) (k : Nat) (b : Bool) : (d.putMask f k b).arc = d.arc := rfl
@[simp] theorem Dev.putMask_mot (d : Dev) (f : Field) (k : Nat) (b : Bool) : (d.putMask f k b).mot = d.mot := rfl
@[simp] theorem Dev.putMask_span (d : Dev) (f : Field) (k : Nat) (b : Bool) : (d.putMask f k b).span = d.span := rfl
@[simp] theorem Dev.putMask_cache (d : Dev) (f : Field) (k : Nat) (b : Bool) : (d.putMask f k b).cache = d.cache := rfl
@[simp] theorem Dev.putMask_mem (d : Dev) (f : Field) (k : Nat) (b : Bool) : (d.putMask f k b).mem = d.mem := rfl
@[simp] theorem Dev.putMask_medium (d : Dev) (f : Field) (k : Nat) (b : Bool) : (d.putMask f k b).medium = d.medium := rfl
@[simp] theorem Dev.putMask_host (d : Dev) (f : Field) (k : Nat) (b : Bool) : (d.putMask f k b).host = d.host := rfl
@[simp] theorem Dev.putMask_spr (d : Dev) (f : Field) (k : Nat) (b : Bool) : (d.putMask f k b).spr = d.spr := rfl
@[simp] theorem Dev.putMask_pwr (d : Dev) (f : Field) (k : Nat) (b : Bool) : (d.putMask f k b).pwr = d.pwr := rfl
@[simp] theorem Dev.putMask_sec (d : Dev) (f : Field) (k : Nat) (b : Bool) : (d.putMask f k b).sec = d.sec := rfl
@[simp] theorem Dev.putMask_upd (d : Dev) (f : Field) (k : Nat) (b : Bool) : (d.putMask f k b).upd = d.upd := rfl
@[simp] theorem Dev.putMask_svc (d : Dev) (f : Field) (k : Nat) (b : Bool) : (d.putMask f k b).svc = d.svc := rfl
@[simp] theorem Dev.putMask_kd (d : Dev) (f : Field) (k : Nat) (b : Bool) : (d.putMask f k b).kd = d.kd := rfl
@[simp] theorem Dev.putMask_ring (d : Dev) (f : Field) (k : Nat) (b : Bool) : (d.putMask f k b).ring = d.ring := rfl
@[simp] theorem Dev.putMask_tap (d : Dev) (f : Field) (k : Nat) (b : Bool) : (d.putMask f k b).tap = d.tap := rfl
@[simp] theorem Dev.putMask_rdata (d : Dev) (f : Field) (k : Nat) (b : Bool) : (d.putMask f k b).rdata = d.rdata := rfl
@[simp] theorem Dev.putMask_copies (d : Dev) (f : Field) (k : Nat) (b : Bool) : (d.putMask f k b).copies = d.copies := rfl

theorem Dev.countBy_only (d : Dev) (a n : Nat) : d.countBy a n = { d with regs := (d.countBy a n).regs } := rfl
@[simp] theorem Dev.countBy_locus (d : Dev) (a n : Nat) : (d.countBy a n).locus = d.locus := rfl
@[simp] theorem Dev.countBy_log (d : Dev) (a n : Nat) : (d.countBy a n).log = d.log := rfl
@[simp] theorem Dev.countBy_free (d : Dev) (a n : Nat) : (d.countBy a n).free = d.free := rfl
@[simp] theorem Dev.countBy_units (d : Dev) (a n : Nat) : (d.countBy a n).units = d.units := rfl
@[simp] theorem Dev.countBy_slices (d : Dev) (a n : Nat) : (d.countBy a n).slices = d.slices := rfl
@[simp] theorem Dev.countBy_heads (d : Dev) (a n : Nat) : (d.countBy a n).heads = d.heads := rfl
@[simp] theorem Dev.countBy_det (d : Dev) (a n : Nat) : (d.countBy a n).det = d.det := rfl
@[simp] theorem Dev.countBy_wp (d : Dev) (a n : Nat) : (d.countBy a n).wp = d.wp := rfl
@[simp] theorem Dev.countBy_arc (d : Dev) (a n : Nat) : (d.countBy a n).arc = d.arc := rfl
@[simp] theorem Dev.countBy_mot (d : Dev) (a n : Nat) : (d.countBy a n).mot = d.mot := rfl
@[simp] theorem Dev.countBy_span (d : Dev) (a n : Nat) : (d.countBy a n).span = d.span := rfl
@[simp] theorem Dev.countBy_cache (d : Dev) (a n : Nat) : (d.countBy a n).cache = d.cache := rfl
@[simp] theorem Dev.countBy_mem (d : Dev) (a n : Nat) : (d.countBy a n).mem = d.mem := rfl
@[simp] theorem Dev.countBy_medium (d : Dev) (a n : Nat) : (d.countBy a n).medium = d.medium := rfl
@[simp] theorem Dev.countBy_host (d : Dev) (a n : Nat) : (d.countBy a n).host = d.host := rfl
@[simp] theorem Dev.countBy_spr (d : Dev) (a n : Nat) : (d.countBy a n).spr = d.spr := rfl
@[simp] theorem Dev.countBy_pwr (d : Dev) (a n : Nat) : (d.countBy a n).pwr = d.pwr := rfl
@[simp] theorem Dev.countBy_sec (d : Dev) (a n : Nat) : (d.countBy a n).sec = d.sec := rfl
@[simp] theorem Dev.countBy_upd (d : Dev) (a n : Nat) : (d.countBy a n).upd = d.upd := rfl
@[simp] theorem Dev.countBy_svc (d : Dev) (a n : Nat) : (d.countBy a n).svc = d.svc := rfl
@[simp] theorem Dev.countBy_kd (d : Dev) (a n : Nat) : (d.countBy a n).kd = d.kd := rfl
@[simp] theorem Dev.countBy_ring (d : Dev) (a n : Nat) : (d.countBy a n).ring = d.ring := rfl
@[simp] theorem Dev.countBy_tap (d : Dev) (a n : Nat) : (d.countBy a n).tap = d.tap := rfl
@[simp] theorem Dev.countBy_rdata (d : Dev) (a n : Nat) : (d.countBy a n).rdata = d.rdata := rfl
@[simp] theorem Dev.countBy_copies (d : Dev) (a n : Nat) : (d.countBy a n).copies = d.copies := rfl

theorem Dev.count_only (d : Dev) (a : Nat) : d.count a = { d with regs := (d.count a).regs } := rfl
@[simp] theorem Dev.count_locus (d : Dev) (a : Nat) : (d.count a).locus = d.locus := rfl
@[simp] theorem Dev.count_log (d : Dev) (a : Nat) : (d.count a).log = d.log := rfl
@[simp] theorem Dev.count_free (d : Dev) (a : Nat) : (d.count a).free = d.free := rfl
@[simp] theorem Dev.count_units (d : Dev) (a : Nat) : (d.count a).units = d.units := rfl
@[simp] theorem Dev.count_slices (d : Dev) (a : Nat) : (d.count a).slices = d.slices := rfl
@[simp] theorem Dev.count_heads (d : Dev) (a : Nat) : (d.count a).heads = d.heads := rfl
@[simp] theorem Dev.count_det (d : Dev) (a : Nat) : (d.count a).det = d.det := rfl
@[simp] theorem Dev.count_wp (d : Dev) (a : Nat) : (d.count a).wp = d.wp := rfl
@[simp] theorem Dev.count_arc (d : Dev) (a : Nat) : (d.count a).arc = d.arc := rfl
@[simp] theorem Dev.count_mot (d : Dev) (a : Nat) : (d.count a).mot = d.mot := rfl
@[simp] theorem Dev.count_span (d : Dev) (a : Nat) : (d.count a).span = d.span := rfl
@[simp] theorem Dev.count_cache (d : Dev) (a : Nat) : (d.count a).cache = d.cache := rfl
@[simp] theorem Dev.count_mem (d : Dev) (a : Nat) : (d.count a).mem = d.mem := rfl
@[simp] theorem Dev.count_medium (d : Dev) (a : Nat) : (d.count a).medium = d.medium := rfl
@[simp] theorem Dev.count_host (d : Dev) (a : Nat) : (d.count a).host = d.host := rfl
@[simp] theorem Dev.count_spr (d : Dev) (a : Nat) : (d.count a).spr = d.spr := rfl
@[simp] theorem Dev.count_pwr (d : Dev) (a : Nat) : (d.count a).pwr = d.pwr := rfl
@[simp] theorem Dev.count_sec (d : Dev) (a : Nat) : (d.count a).sec = d.sec := rfl
@[simp] theorem Dev.count_upd (d : Dev) (a : Nat) : (d.count a).upd = d.upd := rfl
@[simp] theorem Dev.count_svc (d : Dev) (a : Nat) : (d.count a).svc = d.svc := rfl
@[simp] theorem Dev.count_kd (d : Dev) (a : Nat) : (d.count a).kd = d.kd := rfl
@[simp] theorem Dev.count_ring (d : Dev) (a : Nat) : (d.count a).ring = d.ring := rfl
@[simp] theorem Dev.count_tap (d : Dev) (a : Nat) : (d.count a).tap = d.tap := rfl
@[simp] theorem Dev.count_rdata (d : Dev) (a : Nat) : (d.count a).rdata = d.rdata := rfl
@[simp] theorem Dev.count_copies (d : Dev) (a : Nat) : (d.count a).copies = d.copies := rfl

theorem Dev.drew_only (d : Dev) : d.drew = { d with free := (d.drew).free } := rfl
@[simp] theorem Dev.drew_regs (d : Dev) : (d.drew).regs = d.regs := rfl
@[simp] theorem Dev.drew_locus (d : Dev) : (d.drew).locus = d.locus := rfl
@[simp] theorem Dev.drew_log (d : Dev) : (d.drew).log = d.log := rfl
@[simp] theorem Dev.drew_units (d : Dev) : (d.drew).units = d.units := rfl
@[simp] theorem Dev.drew_slices (d : Dev) : (d.drew).slices = d.slices := rfl
@[simp] theorem Dev.drew_heads (d : Dev) : (d.drew).heads = d.heads := rfl
@[simp] theorem Dev.drew_det (d : Dev) : (d.drew).det = d.det := rfl
@[simp] theorem Dev.drew_wp (d : Dev) : (d.drew).wp = d.wp := rfl
@[simp] theorem Dev.drew_arc (d : Dev) : (d.drew).arc = d.arc := rfl
@[simp] theorem Dev.drew_mot (d : Dev) : (d.drew).mot = d.mot := rfl
@[simp] theorem Dev.drew_span (d : Dev) : (d.drew).span = d.span := rfl
@[simp] theorem Dev.drew_cache (d : Dev) : (d.drew).cache = d.cache := rfl
@[simp] theorem Dev.drew_mem (d : Dev) : (d.drew).mem = d.mem := rfl
@[simp] theorem Dev.drew_medium (d : Dev) : (d.drew).medium = d.medium := rfl
@[simp] theorem Dev.drew_host (d : Dev) : (d.drew).host = d.host := rfl
@[simp] theorem Dev.drew_spr (d : Dev) : (d.drew).spr = d.spr := rfl
@[simp] theorem Dev.drew_pwr (d : Dev) : (d.drew).pwr = d.pwr := rfl
@[simp] theorem Dev.drew_sec (d : Dev) : (d.drew).sec = d.sec := rfl
@[simp] theorem Dev.drew_upd (d : Dev) : (d.drew).upd = d.upd := rfl
@[simp] theorem Dev.drew_svc (d : Dev) : (d.drew).svc = d.svc := rfl
@[simp] theorem Dev.drew_kd (d : Dev) : (d.drew).kd = d.kd := rfl
@[simp] theorem Dev.drew_ring (d : Dev) : (d.drew).ring = d.ring := rfl
@[simp] theorem Dev.drew_tap (d : Dev) : (d.drew).tap = d.tap := rfl
@[simp] theorem Dev.drew_rdata (d : Dev) : (d.drew).rdata = d.rdata := rfl
@[simp] theorem Dev.drew_copies (d : Dev) : (d.drew).copies = d.copies := rfl

theorem Dev.setUnit_only (d : Dev) (c u : Nat) (x : UnitState) : d.setUnit c u x = { d with units := (d.setUnit c u x).units } := rfl
@[simp] theorem Dev.setUnit_regs (d : Dev) (c u : Nat) (x : UnitState) : (d.setUnit c u x).regs = d.regs := rfl
@[simp] theorem Dev.setUnit_locus (d : Dev) (c u : Nat) (x : UnitState) : (d.setUnit c u x).locus = d.locus := rfl
@[simp] theorem Dev.setUnit_log (d : Dev) (c u : Nat) (x : UnitState) : (d.setUnit c u x).log = d.log := rfl
@[simp] theorem Dev.setUnit_free (d : Dev) (c u : Nat) (x : UnitState) : (d.setUnit c u x).free = d.free := rfl
@[simp] theorem Dev.setUnit_slices (d : Dev) (c u : Nat) (x : UnitState) : (d.setUnit c u x).slices = d.slices := rfl
@[simp] theorem Dev.setUnit_heads (d : Dev) (c u : Nat) (x : UnitState) : (d.setUnit c u x).heads = d.heads := rfl
@[simp] theorem Dev.setUnit_det (d : Dev) (c u : Nat) (x : UnitState) : (d.setUnit c u x).det = d.det := rfl
@[simp] theorem Dev.setUnit_wp (d : Dev) (c u : Nat) (x : UnitState) : (d.setUnit c u x).wp = d.wp := rfl
@[simp] theorem Dev.setUnit_arc (d : Dev) (c u : Nat) (x : UnitState) : (d.setUnit c u x).arc = d.arc := rfl
@[simp] theorem Dev.setUnit_mot (d : Dev) (c u : Nat) (x : UnitState) : (d.setUnit c u x).mot = d.mot := rfl
@[simp] theorem Dev.setUnit_span (d : Dev) (c u : Nat) (x : UnitState) : (d.setUnit c u x).span = d.span := rfl
@[simp] theorem Dev.setUnit_cache (d : Dev) (c u : Nat) (x : UnitState) : (d.setUnit c u x).cache = d.cache := rfl
@[simp] theorem Dev.setUnit_mem (d : Dev) (c u : Nat) (x : UnitState) : (d.setUnit c u x).mem = d.mem := rfl
@[simp] theorem Dev.setUnit_medium (d : Dev) (c u : Nat) (x : UnitState) : (d.setUnit c u x).medium = d.medium := rfl
@[simp] theorem Dev.setUnit_host (d : Dev) (c u : Nat) (x : UnitState) : (d.setUnit c u x).host = d.host := rfl
@[simp] theorem Dev.setUnit_spr (d : Dev) (c u : Nat) (x : UnitState) : (d.setUnit c u x).spr = d.spr := rfl
@[simp] theorem Dev.setUnit_pwr (d : Dev) (c u : Nat) (x : UnitState) : (d.setUnit c u x).pwr = d.pwr := rfl
@[simp] theorem Dev.setUnit_sec (d : Dev) (c u : Nat) (x : UnitState) : (d.setUnit c u x).sec = d.sec := rfl
@[simp] theorem Dev.setUnit_upd (d : Dev) (c u : Nat) (x : UnitState) : (d.setUnit c u x).upd = d.upd := rfl
@[simp] theorem Dev.setUnit_svc (d : Dev) (c u : Nat) (x : UnitState) : (d.setUnit c u x).svc = d.svc := rfl
@[simp] theorem Dev.setUnit_kd (d : Dev) (c u : Nat) (x : UnitState) : (d.setUnit c u x).kd = d.kd := rfl
@[simp] theorem Dev.setUnit_ring (d : Dev) (c u : Nat) (x : UnitState) : (d.setUnit c u x).ring = d.ring := rfl
@[simp] theorem Dev.setUnit_tap (d : Dev) (c u : Nat) (x : UnitState) : (d.setUnit c u x).tap = d.tap := rfl
@[simp] theorem Dev.setUnit_rdata (d : Dev) (c u : Nat) (x : UnitState) : (d.setUnit c u x).rdata = d.rdata := rfl
@[simp] theorem Dev.setUnit_copies (d : Dev) (c u : Nat) (x : UnitState) : (d.setUnit c u x).copies = d.copies := rfl

theorem Dev.setSlice_only (d : Dev) (n : Nat) (x : SliceSt) : d.setSlice n x = { d with slices := (d.setSlice n x).slices } := rfl
@[simp] theorem Dev.setSlice_regs (d : Dev) (n : Nat) (x : SliceSt) : (d.setSlice n x).regs = d.regs := rfl
@[simp] theorem Dev.setSlice_locus (d : Dev) (n : Nat) (x : SliceSt) : (d.setSlice n x).locus = d.locus := rfl
@[simp] theorem Dev.setSlice_log (d : Dev) (n : Nat) (x : SliceSt) : (d.setSlice n x).log = d.log := rfl
@[simp] theorem Dev.setSlice_free (d : Dev) (n : Nat) (x : SliceSt) : (d.setSlice n x).free = d.free := rfl
@[simp] theorem Dev.setSlice_units (d : Dev) (n : Nat) (x : SliceSt) : (d.setSlice n x).units = d.units := rfl
@[simp] theorem Dev.setSlice_heads (d : Dev) (n : Nat) (x : SliceSt) : (d.setSlice n x).heads = d.heads := rfl
@[simp] theorem Dev.setSlice_det (d : Dev) (n : Nat) (x : SliceSt) : (d.setSlice n x).det = d.det := rfl
@[simp] theorem Dev.setSlice_wp (d : Dev) (n : Nat) (x : SliceSt) : (d.setSlice n x).wp = d.wp := rfl
@[simp] theorem Dev.setSlice_arc (d : Dev) (n : Nat) (x : SliceSt) : (d.setSlice n x).arc = d.arc := rfl
@[simp] theorem Dev.setSlice_mot (d : Dev) (n : Nat) (x : SliceSt) : (d.setSlice n x).mot = d.mot := rfl
@[simp] theorem Dev.setSlice_span (d : Dev) (n : Nat) (x : SliceSt) : (d.setSlice n x).span = d.span := rfl
@[simp] theorem Dev.setSlice_cache (d : Dev) (n : Nat) (x : SliceSt) : (d.setSlice n x).cache = d.cache := rfl
@[simp] theorem Dev.setSlice_mem (d : Dev) (n : Nat) (x : SliceSt) : (d.setSlice n x).mem = d.mem := rfl
@[simp] theorem Dev.setSlice_medium (d : Dev) (n : Nat) (x : SliceSt) : (d.setSlice n x).medium = d.medium := rfl
@[simp] theorem Dev.setSlice_host (d : Dev) (n : Nat) (x : SliceSt) : (d.setSlice n x).host = d.host := rfl
@[simp] theorem Dev.setSlice_spr (d : Dev) (n : Nat) (x : SliceSt) : (d.setSlice n x).spr = d.spr := rfl
@[simp] theorem Dev.setSlice_pwr (d : Dev) (n : Nat) (x : SliceSt) : (d.setSlice n x).pwr = d.pwr := rfl
@[simp] theorem Dev.setSlice_sec (d : Dev) (n : Nat) (x : SliceSt) : (d.setSlice n x).sec = d.sec := rfl
@[simp] theorem Dev.setSlice_upd (d : Dev) (n : Nat) (x : SliceSt) : (d.setSlice n x).upd = d.upd := rfl
@[simp] theorem Dev.setSlice_svc (d : Dev) (n : Nat) (x : SliceSt) : (d.setSlice n x).svc = d.svc := rfl
@[simp] theorem Dev.setSlice_kd (d : Dev) (n : Nat) (x : SliceSt) : (d.setSlice n x).kd = d.kd := rfl
@[simp] theorem Dev.setSlice_ring (d : Dev) (n : Nat) (x : SliceSt) : (d.setSlice n x).ring = d.ring := rfl
@[simp] theorem Dev.setSlice_tap (d : Dev) (n : Nat) (x : SliceSt) : (d.setSlice n x).tap = d.tap := rfl
@[simp] theorem Dev.setSlice_rdata (d : Dev) (n : Nat) (x : SliceSt) : (d.setSlice n x).rdata = d.rdata := rfl
@[simp] theorem Dev.setSlice_copies (d : Dev) (n : Nat) (x : SliceSt) : (d.setSlice n x).copies = d.copies := rfl

theorem Dev.onSlice_only (d : Dev) (n : Nat) (g : SliceSt → SliceSt) : d.onSlice n g = { d with slices := (d.onSlice n g).slices } := rfl
@[simp] theorem Dev.onSlice_regs (d : Dev) (n : Nat) (g : SliceSt → SliceSt) : (d.onSlice n g).regs = d.regs := rfl
@[simp] theorem Dev.onSlice_locus (d : Dev) (n : Nat) (g : SliceSt → SliceSt) : (d.onSlice n g).locus = d.locus := rfl
@[simp] theorem Dev.onSlice_log (d : Dev) (n : Nat) (g : SliceSt → SliceSt) : (d.onSlice n g).log = d.log := rfl
@[simp] theorem Dev.onSlice_free (d : Dev) (n : Nat) (g : SliceSt → SliceSt) : (d.onSlice n g).free = d.free := rfl
@[simp] theorem Dev.onSlice_units (d : Dev) (n : Nat) (g : SliceSt → SliceSt) : (d.onSlice n g).units = d.units := rfl
@[simp] theorem Dev.onSlice_heads (d : Dev) (n : Nat) (g : SliceSt → SliceSt) : (d.onSlice n g).heads = d.heads := rfl
@[simp] theorem Dev.onSlice_det (d : Dev) (n : Nat) (g : SliceSt → SliceSt) : (d.onSlice n g).det = d.det := rfl
@[simp] theorem Dev.onSlice_wp (d : Dev) (n : Nat) (g : SliceSt → SliceSt) : (d.onSlice n g).wp = d.wp := rfl
@[simp] theorem Dev.onSlice_arc (d : Dev) (n : Nat) (g : SliceSt → SliceSt) : (d.onSlice n g).arc = d.arc := rfl
@[simp] theorem Dev.onSlice_mot (d : Dev) (n : Nat) (g : SliceSt → SliceSt) : (d.onSlice n g).mot = d.mot := rfl
@[simp] theorem Dev.onSlice_span (d : Dev) (n : Nat) (g : SliceSt → SliceSt) : (d.onSlice n g).span = d.span := rfl
@[simp] theorem Dev.onSlice_cache (d : Dev) (n : Nat) (g : SliceSt → SliceSt) : (d.onSlice n g).cache = d.cache := rfl
@[simp] theorem Dev.onSlice_mem (d : Dev) (n : Nat) (g : SliceSt → SliceSt) : (d.onSlice n g).mem = d.mem := rfl
@[simp] theorem Dev.onSlice_medium (d : Dev) (n : Nat) (g : SliceSt → SliceSt) : (d.onSlice n g).medium = d.medium := rfl
@[simp] theorem Dev.onSlice_host (d : Dev) (n : Nat) (g : SliceSt → SliceSt) : (d.onSlice n g).host = d.host := rfl
@[simp] theorem Dev.onSlice_spr (d : Dev) (n : Nat) (g : SliceSt → SliceSt) : (d.onSlice n g).spr = d.spr := rfl
@[simp] theorem Dev.onSlice_pwr (d : Dev) (n : Nat) (g : SliceSt → SliceSt) : (d.onSlice n g).pwr = d.pwr := rfl
@[simp] theorem Dev.onSlice_sec (d : Dev) (n : Nat) (g : SliceSt → SliceSt) : (d.onSlice n g).sec = d.sec := rfl
@[simp] theorem Dev.onSlice_upd (d : Dev) (n : Nat) (g : SliceSt → SliceSt) : (d.onSlice n g).upd = d.upd := rfl
@[simp] theorem Dev.onSlice_svc (d : Dev) (n : Nat) (g : SliceSt → SliceSt) : (d.onSlice n g).svc = d.svc := rfl
@[simp] theorem Dev.onSlice_kd (d : Dev) (n : Nat) (g : SliceSt → SliceSt) : (d.onSlice n g).kd = d.kd := rfl
@[simp] theorem Dev.onSlice_ring (d : Dev) (n : Nat) (g : SliceSt → SliceSt) : (d.onSlice n g).ring = d.ring := rfl
@[simp] theorem Dev.onSlice_tap (d : Dev) (n : Nat) (g : SliceSt → SliceSt) : (d.onSlice n g).tap = d.tap := rfl
@[simp] theorem Dev.onSlice_rdata (d : Dev) (n : Nat) (g : SliceSt → SliceSt) : (d.onSlice n g).rdata = d.rdata := rfl
@[simp] theorem Dev.onSlice_copies (d : Dev) (n : Nat) (g : SliceSt → SliceSt) : (d.onSlice n g).copies = d.copies := rfl

theorem Dev.setHead_only (d : Dev) (h : Nat) (x : HeadSt) : d.setHead h x = { d with heads := (d.setHead h x).heads } := rfl
@[simp] theorem Dev.setHead_regs (d : Dev) (h : Nat) (x : HeadSt) : (d.setHead h x).regs = d.regs := rfl
@[simp] theorem Dev.setHead_locus (d : Dev) (h : Nat) (x : HeadSt) : (d.setHead h x).locus = d.locus := rfl
@[simp] theorem Dev.setHead_log (d : Dev) (h : Nat) (x : HeadSt) : (d.setHead h x).log = d.log := rfl
@[simp] theorem Dev.setHead_free (d : Dev) (h : Nat) (x : HeadSt) : (d.setHead h x).free = d.free := rfl
@[simp] theorem Dev.setHead_units (d : Dev) (h : Nat) (x : HeadSt) : (d.setHead h x).units = d.units := rfl
@[simp] theorem Dev.setHead_slices (d : Dev) (h : Nat) (x : HeadSt) : (d.setHead h x).slices = d.slices := rfl
@[simp] theorem Dev.setHead_det (d : Dev) (h : Nat) (x : HeadSt) : (d.setHead h x).det = d.det := rfl
@[simp] theorem Dev.setHead_wp (d : Dev) (h : Nat) (x : HeadSt) : (d.setHead h x).wp = d.wp := rfl
@[simp] theorem Dev.setHead_arc (d : Dev) (h : Nat) (x : HeadSt) : (d.setHead h x).arc = d.arc := rfl
@[simp] theorem Dev.setHead_mot (d : Dev) (h : Nat) (x : HeadSt) : (d.setHead h x).mot = d.mot := rfl
@[simp] theorem Dev.setHead_span (d : Dev) (h : Nat) (x : HeadSt) : (d.setHead h x).span = d.span := rfl
@[simp] theorem Dev.setHead_cache (d : Dev) (h : Nat) (x : HeadSt) : (d.setHead h x).cache = d.cache := rfl
@[simp] theorem Dev.setHead_mem (d : Dev) (h : Nat) (x : HeadSt) : (d.setHead h x).mem = d.mem := rfl
@[simp] theorem Dev.setHead_medium (d : Dev) (h : Nat) (x : HeadSt) : (d.setHead h x).medium = d.medium := rfl
@[simp] theorem Dev.setHead_host (d : Dev) (h : Nat) (x : HeadSt) : (d.setHead h x).host = d.host := rfl
@[simp] theorem Dev.setHead_spr (d : Dev) (h : Nat) (x : HeadSt) : (d.setHead h x).spr = d.spr := rfl
@[simp] theorem Dev.setHead_pwr (d : Dev) (h : Nat) (x : HeadSt) : (d.setHead h x).pwr = d.pwr := rfl
@[simp] theorem Dev.setHead_sec (d : Dev) (h : Nat) (x : HeadSt) : (d.setHead h x).sec = d.sec := rfl
@[simp] theorem Dev.setHead_upd (d : Dev) (h : Nat) (x : HeadSt) : (d.setHead h x).upd = d.upd := rfl
@[simp] theorem Dev.setHead_svc (d : Dev) (h : Nat) (x : HeadSt) : (d.setHead h x).svc = d.svc := rfl
@[simp] theorem Dev.setHead_kd (d : Dev) (h : Nat) (x : HeadSt) : (d.setHead h x).kd = d.kd := rfl
@[simp] theorem Dev.setHead_ring (d : Dev) (h : Nat) (x : HeadSt) : (d.setHead h x).ring = d.ring := rfl
@[simp] theorem Dev.setHead_tap (d : Dev) (h : Nat) (x : HeadSt) : (d.setHead h x).tap = d.tap := rfl
@[simp] theorem Dev.setHead_rdata (d : Dev) (h : Nat) (x : HeadSt) : (d.setHead h x).rdata = d.rdata := rfl
@[simp] theorem Dev.setHead_copies (d : Dev) (h : Nat) (x : HeadSt) : (d.setHead h x).copies = d.copies := rfl

theorem Dev.onHead_only (d : Dev) (h : Nat) (g : HeadSt → HeadSt) : d.onHead h g = { d with heads := (d.onHead h g).heads } := rfl
@[simp] theorem Dev.onHead_regs (d : Dev) (h : Nat) (g : HeadSt → HeadSt) : (d.onHead h g).regs = d.regs := rfl
@[simp] theorem Dev.onHead_locus (d : Dev) (h : Nat) (g : HeadSt → HeadSt) : (d.onHead h g).locus = d.locus := rfl
@[simp] theorem Dev.onHead_log (d : Dev) (h : Nat) (g : HeadSt → HeadSt) : (d.onHead h g).log = d.log := rfl
@[simp] theorem Dev.onHead_free (d : Dev) (h : Nat) (g : HeadSt → HeadSt) : (d.onHead h g).free = d.free := rfl
@[simp] theorem Dev.onHead_units (d : Dev) (h : Nat) (g : HeadSt → HeadSt) : (d.onHead h g).units = d.units := rfl
@[simp] theorem Dev.onHead_slices (d : Dev) (h : Nat) (g : HeadSt → HeadSt) : (d.onHead h g).slices = d.slices := rfl
@[simp] theorem Dev.onHead_det (d : Dev) (h : Nat) (g : HeadSt → HeadSt) : (d.onHead h g).det = d.det := rfl
@[simp] theorem Dev.onHead_wp (d : Dev) (h : Nat) (g : HeadSt → HeadSt) : (d.onHead h g).wp = d.wp := rfl
@[simp] theorem Dev.onHead_arc (d : Dev) (h : Nat) (g : HeadSt → HeadSt) : (d.onHead h g).arc = d.arc := rfl
@[simp] theorem Dev.onHead_mot (d : Dev) (h : Nat) (g : HeadSt → HeadSt) : (d.onHead h g).mot = d.mot := rfl
@[simp] theorem Dev.onHead_span (d : Dev) (h : Nat) (g : HeadSt → HeadSt) : (d.onHead h g).span = d.span := rfl
@[simp] theorem Dev.onHead_cache (d : Dev) (h : Nat) (g : HeadSt → HeadSt) : (d.onHead h g).cache = d.cache := rfl
@[simp] theorem Dev.onHead_mem (d : Dev) (h : Nat) (g : HeadSt → HeadSt) : (d.onHead h g).mem = d.mem := rfl
@[simp] theorem Dev.onHead_medium (d : Dev) (h : Nat) (g : HeadSt → HeadSt) : (d.onHead h g).medium = d.medium := rfl
@[simp] theorem Dev.onHead_host (d : Dev) (h : Nat) (g : HeadSt → HeadSt) : (d.onHead h g).host = d.host := rfl
@[simp] theorem Dev.onHead_spr (d : Dev) (h : Nat) (g : HeadSt → HeadSt) : (d.onHead h g).spr = d.spr := rfl
@[simp] theorem Dev.onHead_pwr (d : Dev) (h : Nat) (g : HeadSt → HeadSt) : (d.onHead h g).pwr = d.pwr := rfl
@[simp] theorem Dev.onHead_sec (d : Dev) (h : Nat) (g : HeadSt → HeadSt) : (d.onHead h g).sec = d.sec := rfl
@[simp] theorem Dev.onHead_upd (d : Dev) (h : Nat) (g : HeadSt → HeadSt) : (d.onHead h g).upd = d.upd := rfl
@[simp] theorem Dev.onHead_svc (d : Dev) (h : Nat) (g : HeadSt → HeadSt) : (d.onHead h g).svc = d.svc := rfl
@[simp] theorem Dev.onHead_kd (d : Dev) (h : Nat) (g : HeadSt → HeadSt) : (d.onHead h g).kd = d.kd := rfl
@[simp] theorem Dev.onHead_ring (d : Dev) (h : Nat) (g : HeadSt → HeadSt) : (d.onHead h g).ring = d.ring := rfl
@[simp] theorem Dev.onHead_tap (d : Dev) (h : Nat) (g : HeadSt → HeadSt) : (d.onHead h g).tap = d.tap := rfl
@[simp] theorem Dev.onHead_rdata (d : Dev) (h : Nat) (g : HeadSt → HeadSt) : (d.onHead h g).rdata = d.rdata := rfl
@[simp] theorem Dev.onHead_copies (d : Dev) (h : Nat) (g : HeadSt → HeadSt) : (d.onHead h g).copies = d.copies := rfl

theorem Dev.onWp_only (d : Dev) (h : Nat) (g : WpSt → WpSt) : d.onWp h g = { d with wp := (d.onWp h g).wp } := rfl
@[simp] theorem Dev.onWp_regs (d : Dev) (h : Nat) (g : WpSt → WpSt) : (d.onWp h g).regs = d.regs := rfl
@[simp] theorem Dev.onWp_locus (d : Dev) (h : Nat) (g : WpSt → WpSt) : (d.onWp h g).locus = d.locus := rfl
@[simp] theorem Dev.onWp_log (d : Dev) (h : Nat) (g : WpSt → WpSt) : (d.onWp h g).log = d.log := rfl
@[simp] theorem Dev.onWp_free (d : Dev) (h : Nat) (g : WpSt → WpSt) : (d.onWp h g).free = d.free := rfl
@[simp] theorem Dev.onWp_units (d : Dev) (h : Nat) (g : WpSt → WpSt) : (d.onWp h g).units = d.units := rfl
@[simp] theorem Dev.onWp_slices (d : Dev) (h : Nat) (g : WpSt → WpSt) : (d.onWp h g).slices = d.slices := rfl
@[simp] theorem Dev.onWp_heads (d : Dev) (h : Nat) (g : WpSt → WpSt) : (d.onWp h g).heads = d.heads := rfl
@[simp] theorem Dev.onWp_det (d : Dev) (h : Nat) (g : WpSt → WpSt) : (d.onWp h g).det = d.det := rfl
@[simp] theorem Dev.onWp_arc (d : Dev) (h : Nat) (g : WpSt → WpSt) : (d.onWp h g).arc = d.arc := rfl
@[simp] theorem Dev.onWp_mot (d : Dev) (h : Nat) (g : WpSt → WpSt) : (d.onWp h g).mot = d.mot := rfl
@[simp] theorem Dev.onWp_span (d : Dev) (h : Nat) (g : WpSt → WpSt) : (d.onWp h g).span = d.span := rfl
@[simp] theorem Dev.onWp_cache (d : Dev) (h : Nat) (g : WpSt → WpSt) : (d.onWp h g).cache = d.cache := rfl
@[simp] theorem Dev.onWp_mem (d : Dev) (h : Nat) (g : WpSt → WpSt) : (d.onWp h g).mem = d.mem := rfl
@[simp] theorem Dev.onWp_medium (d : Dev) (h : Nat) (g : WpSt → WpSt) : (d.onWp h g).medium = d.medium := rfl
@[simp] theorem Dev.onWp_host (d : Dev) (h : Nat) (g : WpSt → WpSt) : (d.onWp h g).host = d.host := rfl
@[simp] theorem Dev.onWp_spr (d : Dev) (h : Nat) (g : WpSt → WpSt) : (d.onWp h g).spr = d.spr := rfl
@[simp] theorem Dev.onWp_pwr (d : Dev) (h : Nat) (g : WpSt → WpSt) : (d.onWp h g).pwr = d.pwr := rfl
@[simp] theorem Dev.onWp_sec (d : Dev) (h : Nat) (g : WpSt → WpSt) : (d.onWp h g).sec = d.sec := rfl
@[simp] theorem Dev.onWp_upd (d : Dev) (h : Nat) (g : WpSt → WpSt) : (d.onWp h g).upd = d.upd := rfl
@[simp] theorem Dev.onWp_svc (d : Dev) (h : Nat) (g : WpSt → WpSt) : (d.onWp h g).svc = d.svc := rfl
@[simp] theorem Dev.onWp_kd (d : Dev) (h : Nat) (g : WpSt → WpSt) : (d.onWp h g).kd = d.kd := rfl
@[simp] theorem Dev.onWp_ring (d : Dev) (h : Nat) (g : WpSt → WpSt) : (d.onWp h g).ring = d.ring := rfl
@[simp] theorem Dev.onWp_tap (d : Dev) (h : Nat) (g : WpSt → WpSt) : (d.onWp h g).tap = d.tap := rfl
@[simp] theorem Dev.onWp_rdata (d : Dev) (h : Nat) (g : WpSt → WpSt) : (d.onWp h g).rdata = d.rdata := rfl
@[simp] theorem Dev.onWp_copies (d : Dev) (h : Nat) (g : WpSt → WpSt) : (d.onWp h g).copies = d.copies := rfl

theorem Dev.setPoison_only (d : Dev) (w : Nat) (b : Bool) : d.setPoison w b = { d with mem := (d.setPoison w b).mem } := rfl
@[simp] theorem Dev.setPoison_regs (d : Dev) (w : Nat) (b : Bool) : (d.setPoison w b).regs = d.regs := rfl
@[simp] theorem Dev.setPoison_locus (d : Dev) (w : Nat) (b : Bool) : (d.setPoison w b).locus = d.locus := rfl
@[simp] theorem Dev.setPoison_log (d : Dev) (w : Nat) (b : Bool) : (d.setPoison w b).log = d.log := rfl
@[simp] theorem Dev.setPoison_free (d : Dev) (w : Nat) (b : Bool) : (d.setPoison w b).free = d.free := rfl
@[simp] theorem Dev.setPoison_units (d : Dev) (w : Nat) (b : Bool) : (d.setPoison w b).units = d.units := rfl
@[simp] theorem Dev.setPoison_slices (d : Dev) (w : Nat) (b : Bool) : (d.setPoison w b).slices = d.slices := rfl
@[simp] theorem Dev.setPoison_heads (d : Dev) (w : Nat) (b : Bool) : (d.setPoison w b).heads = d.heads := rfl
@[simp] theorem Dev.setPoison_det (d : Dev) (w : Nat) (b : Bool) : (d.setPoison w b).det = d.det := rfl
@[simp] theorem Dev.setPoison_wp (d : Dev) (w : Nat) (b : Bool) : (d.setPoison w b).wp = d.wp := rfl
@[simp] theorem Dev.setPoison_arc (d : Dev) (w : Nat) (b : Bool) : (d.setPoison w b).arc = d.arc := rfl
@[simp] theorem Dev.setPoison_mot (d : Dev) (w : Nat) (b : Bool) : (d.setPoison w b).mot = d.mot := rfl
@[simp] theorem Dev.setPoison_span (d : Dev) (w : Nat) (b : Bool) : (d.setPoison w b).span = d.span := rfl
@[simp] theorem Dev.setPoison_cache (d : Dev) (w : Nat) (b : Bool) : (d.setPoison w b).cache = d.cache := rfl
@[simp] theorem Dev.setPoison_medium (d : Dev) (w : Nat) (b : Bool) : (d.setPoison w b).medium = d.medium := rfl
@[simp] theorem Dev.setPoison_host (d : Dev) (w : Nat) (b : Bool) : (d.setPoison w b).host = d.host := rfl
@[simp] theorem Dev.setPoison_spr (d : Dev) (w : Nat) (b : Bool) : (d.setPoison w b).spr = d.spr := rfl
@[simp] theorem Dev.setPoison_pwr (d : Dev) (w : Nat) (b : Bool) : (d.setPoison w b).pwr = d.pwr := rfl
@[simp] theorem Dev.setPoison_sec (d : Dev) (w : Nat) (b : Bool) : (d.setPoison w b).sec = d.sec := rfl
@[simp] theorem Dev.setPoison_upd (d : Dev) (w : Nat) (b : Bool) : (d.setPoison w b).upd = d.upd := rfl
@[simp] theorem Dev.setPoison_svc (d : Dev) (w : Nat) (b : Bool) : (d.setPoison w b).svc = d.svc := rfl
@[simp] theorem Dev.setPoison_kd (d : Dev) (w : Nat) (b : Bool) : (d.setPoison w b).kd = d.kd := rfl
@[simp] theorem Dev.setPoison_ring (d : Dev) (w : Nat) (b : Bool) : (d.setPoison w b).ring = d.ring := rfl
@[simp] theorem Dev.setPoison_tap (d : Dev) (w : Nat) (b : Bool) : (d.setPoison w b).tap = d.tap := rfl
@[simp] theorem Dev.setPoison_rdata (d : Dev) (w : Nat) (b : Bool) : (d.setPoison w b).rdata = d.rdata := rfl
@[simp] theorem Dev.setPoison_copies (d : Dev) (w : Nat) (b : Bool) : (d.setPoison w b).copies = d.copies := rfl

theorem Dev.bufWrite_only (d : Dev) (a : Nat) (l : List Byte) : d.bufWrite a l = { d with mem := (d.bufWrite a l).mem } := rfl
@[simp] theorem Dev.bufWrite_regs (d : Dev) (a : Nat) (l : List Byte) : (d.bufWrite a l).regs = d.regs := rfl
@[simp] theorem Dev.bufWrite_locus (d : Dev) (a : Nat) (l : List Byte) : (d.bufWrite a l).locus = d.locus := rfl
@[simp] theorem Dev.bufWrite_log (d : Dev) (a : Nat) (l : List Byte) : (d.bufWrite a l).log = d.log := rfl
@[simp] theorem Dev.bufWrite_free (d : Dev) (a : Nat) (l : List Byte) : (d.bufWrite a l).free = d.free := rfl
@[simp] theorem Dev.bufWrite_units (d : Dev) (a : Nat) (l : List Byte) : (d.bufWrite a l).units = d.units := rfl
@[simp] theorem Dev.bufWrite_slices (d : Dev) (a : Nat) (l : List Byte) : (d.bufWrite a l).slices = d.slices := rfl
@[simp] theorem Dev.bufWrite_heads (d : Dev) (a : Nat) (l : List Byte) : (d.bufWrite a l).heads = d.heads := rfl
@[simp] theorem Dev.bufWrite_det (d : Dev) (a : Nat) (l : List Byte) : (d.bufWrite a l).det = d.det := rfl
@[simp] theorem Dev.bufWrite_wp (d : Dev) (a : Nat) (l : List Byte) : (d.bufWrite a l).wp = d.wp := rfl
@[simp] theorem Dev.bufWrite_arc (d : Dev) (a : Nat) (l : List Byte) : (d.bufWrite a l).arc = d.arc := rfl
@[simp] theorem Dev.bufWrite_mot (d : Dev) (a : Nat) (l : List Byte) : (d.bufWrite a l).mot = d.mot := rfl
@[simp] theorem Dev.bufWrite_span (d : Dev) (a : Nat) (l : List Byte) : (d.bufWrite a l).span = d.span := rfl
@[simp] theorem Dev.bufWrite_cache (d : Dev) (a : Nat) (l : List Byte) : (d.bufWrite a l).cache = d.cache := rfl
@[simp] theorem Dev.bufWrite_medium (d : Dev) (a : Nat) (l : List Byte) : (d.bufWrite a l).medium = d.medium := rfl
@[simp] theorem Dev.bufWrite_host (d : Dev) (a : Nat) (l : List Byte) : (d.bufWrite a l).host = d.host := rfl
@[simp] theorem Dev.bufWrite_spr (d : Dev) (a : Nat) (l : List Byte) : (d.bufWrite a l).spr = d.spr := rfl
@[simp] theorem Dev.bufWrite_pwr (d : Dev) (a : Nat) (l : List Byte) : (d.bufWrite a l).pwr = d.pwr := rfl
@[simp] theorem Dev.bufWrite_sec (d : Dev) (a : Nat) (l : List Byte) : (d.bufWrite a l).sec = d.sec := rfl
@[simp] theorem Dev.bufWrite_upd (d : Dev) (a : Nat) (l : List Byte) : (d.bufWrite a l).upd = d.upd := rfl
@[simp] theorem Dev.bufWrite_svc (d : Dev) (a : Nat) (l : List Byte) : (d.bufWrite a l).svc = d.svc := rfl
@[simp] theorem Dev.bufWrite_kd (d : Dev) (a : Nat) (l : List Byte) : (d.bufWrite a l).kd = d.kd := rfl
@[simp] theorem Dev.bufWrite_ring (d : Dev) (a : Nat) (l : List Byte) : (d.bufWrite a l).ring = d.ring := rfl
@[simp] theorem Dev.bufWrite_tap (d : Dev) (a : Nat) (l : List Byte) : (d.bufWrite a l).tap = d.tap := rfl
@[simp] theorem Dev.bufWrite_rdata (d : Dev) (a : Nat) (l : List Byte) : (d.bufWrite a l).rdata = d.rdata := rfl
@[simp] theorem Dev.bufWrite_copies (d : Dev) (a : Nat) (l : List Byte) : (d.bufWrite a l).copies = d.copies := rfl

theorem Dev.setMail_only (d : Dev) (t : Nat) (m : MailSt) : d.setMail t m = { d with span := (d.setMail t m).span } := rfl
@[simp] theorem Dev.setMail_regs (d : Dev) (t : Nat) (m : MailSt) : (d.setMail t m).regs = d.regs := rfl
@[simp] theorem Dev.setMail_locus (d : Dev) (t : Nat) (m : MailSt) : (d.setMail t m).locus = d.locus := rfl
@[simp] theorem Dev.setMail_log (d : Dev) (t : Nat) (m : MailSt) : (d.setMail t m).log = d.log := rfl
@[simp] theorem Dev.setMail_free (d : Dev) (t : Nat) (m : MailSt) : (d.setMail t m).free = d.free := rfl
@[simp] theorem Dev.setMail_units (d : Dev) (t : Nat) (m : MailSt) : (d.setMail t m).units = d.units := rfl
@[simp] theorem Dev.setMail_slices (d : Dev) (t : Nat) (m : MailSt) : (d.setMail t m).slices = d.slices := rfl
@[simp] theorem Dev.setMail_heads (d : Dev) (t : Nat) (m : MailSt) : (d.setMail t m).heads = d.heads := rfl
@[simp] theorem Dev.setMail_det (d : Dev) (t : Nat) (m : MailSt) : (d.setMail t m).det = d.det := rfl
@[simp] theorem Dev.setMail_wp (d : Dev) (t : Nat) (m : MailSt) : (d.setMail t m).wp = d.wp := rfl
@[simp] theorem Dev.setMail_arc (d : Dev) (t : Nat) (m : MailSt) : (d.setMail t m).arc = d.arc := rfl
@[simp] theorem Dev.setMail_mot (d : Dev) (t : Nat) (m : MailSt) : (d.setMail t m).mot = d.mot := rfl
@[simp] theorem Dev.setMail_cache (d : Dev) (t : Nat) (m : MailSt) : (d.setMail t m).cache = d.cache := rfl
@[simp] theorem Dev.setMail_mem (d : Dev) (t : Nat) (m : MailSt) : (d.setMail t m).mem = d.mem := rfl
@[simp] theorem Dev.setMail_medium (d : Dev) (t : Nat) (m : MailSt) : (d.setMail t m).medium = d.medium := rfl
@[simp] theorem Dev.setMail_host (d : Dev) (t : Nat) (m : MailSt) : (d.setMail t m).host = d.host := rfl
@[simp] theorem Dev.setMail_spr (d : Dev) (t : Nat) (m : MailSt) : (d.setMail t m).spr = d.spr := rfl
@[simp] theorem Dev.setMail_pwr (d : Dev) (t : Nat) (m : MailSt) : (d.setMail t m).pwr = d.pwr := rfl
@[simp] theorem Dev.setMail_sec (d : Dev) (t : Nat) (m : MailSt) : (d.setMail t m).sec = d.sec := rfl
@[simp] theorem Dev.setMail_upd (d : Dev) (t : Nat) (m : MailSt) : (d.setMail t m).upd = d.upd := rfl
@[simp] theorem Dev.setMail_svc (d : Dev) (t : Nat) (m : MailSt) : (d.setMail t m).svc = d.svc := rfl
@[simp] theorem Dev.setMail_kd (d : Dev) (t : Nat) (m : MailSt) : (d.setMail t m).kd = d.kd := rfl
@[simp] theorem Dev.setMail_ring (d : Dev) (t : Nat) (m : MailSt) : (d.setMail t m).ring = d.ring := rfl
@[simp] theorem Dev.setMail_tap (d : Dev) (t : Nat) (m : MailSt) : (d.setMail t m).tap = d.tap := rfl
@[simp] theorem Dev.setMail_rdata (d : Dev) (t : Nat) (m : MailSt) : (d.setMail t m).rdata = d.rdata := rfl
@[simp] theorem Dev.setMail_copies (d : Dev) (t : Nat) (m : MailSt) : (d.setMail t m).copies = d.copies := rfl

/-! Reads of a part after its update. -/

@[simp] theorem Dev.unit_setReg (d : Dev) (a : Nat) (v : Word) (c u : Nat) : (d.setReg a v).unit c u = d.unit c u := rfl
@[simp] theorem Dev.slice_setReg (d : Dev) (a : Nat) (v : Word) (n : Nat) : (d.setReg a v).slice n = d.slice n := rfl
@[simp] theorem Dev.head_setReg (d : Dev) (a : Nat) (v : Word) (h : Nat) : (d.setReg a v).head h = d.head h := rfl
@[simp] theorem Dev.wps_setReg (d : Dev) (a : Nat) (v : Word) (h : Nat) : (d.setReg a v).wps h = d.wps h := rfl
@[simp] theorem Dev.esn_setReg (d : Dev) (a : Nat) (v : Word) : (d.setReg a v).esn = d.esn := rfl
@[simp] theorem Dev.reg_onSlice (d : Dev) (n : Nat) (g : SliceSt → SliceSt) (a : Nat) : (d.onSlice n g).reg a = d.reg a := rfl
@[simp] theorem Dev.reg_onHead (d : Dev) (h : Nat) (g : HeadSt → HeadSt) (a : Nat) : (d.onHead h g).reg a = d.reg a := rfl
@[simp] theorem Dev.reg_onWp (d : Dev) (h : Nat) (g : WpSt → WpSt) (a : Nat) : (d.onWp h g).reg a = d.reg a := rfl
@[simp] theorem Dev.reg_setUnit (d : Dev) (c u : Nat) (x : UnitState) (a : Nat) : (d.setUnit c u x).reg a = d.reg a := rfl
@[simp] theorem Dev.reg_drew (d : Dev) (a : Nat) : d.drew.reg a = d.reg a := rfl
@[simp] theorem Dev.reg_bufWrite (d : Dev) (b : Nat) (l : List Byte) (a : Nat) : (d.bufWrite b l).reg a = d.reg a := rfl
@[simp] theorem Dev.fld_onSlice (d : Dev) (n : Nat) (g : SliceSt → SliceSt) (f : Field) : (d.onSlice n g).fld f = d.fld f := rfl
@[simp] theorem Dev.fld_onHead (d : Dev) (h : Nat) (g : HeadSt → HeadSt) (f : Field) : (d.onHead h g).fld f = d.fld f := rfl
@[simp] theorem Dev.fld_onWp (d : Dev) (h : Nat) (g : WpSt → WpSt) (f : Field) : (d.onWp h g).fld f = d.fld f := rfl
@[simp] theorem Dev.fld_drew (d : Dev) (f : Field) : d.drew.fld f = d.fld f := rfl

end Sys2Proof.Machine
end

