-- ==== Sys2Proof/Laws/Tab.lean ====
section
/-! SUPPORT. The laws of tables: a read after a write, and that every operation keeps the canonical form. -/

namespace Sys2Proof.Machine

variable {α : Type} {d : Nat → α}

theorem Tab.get_erase_self (t : Tab α) (k : Nat) : Tab.get d (t.erase k) k = d k := by
  induction t with
  | nil => rfl
  | cons e t ih => by_cases h : e.1 = k <;> simp [Tab.erase, Tab.get, h, ih]

theorem Tab.get_erase_ne (t : Tab α) {j k : Nat} (h : j ≠ k) : Tab.get d (t.erase k) j = Tab.get d t j := by
  induction t with
  | nil => rfl
  | cons e t ih =>
    by_cases hk : e.1 = k
    · have : e.1 ≠ j := fun hj => h (hj.symm.trans hk)
      simp [Tab.erase, Tab.get, hk, ih, Ne.symm h]
    · by_cases hj : e.1 = j <;> simp [Tab.erase, Tab.get, hk, hj, ih, h]

theorem Tab.get_place_self (t : Tab α) (k : Nat) (v : α) (h : ∀ e ∈ t, e.1 ≠ k) : Tab.get d (t.place k v) k = v := by
  induction t with
  | nil => simp [Tab.place, Tab.get]
  | cons e t ih =>
    have he := h e (by simp)
    have ht := ih fun x hx => h x (by simp [hx])
    by_cases hk : k < e.1 <;> simp [Tab.place, Tab.get, hk, he, ht]

theorem Tab.get_place_ne (t : Tab α) {j k : Nat} (v : α) (h : j ≠ k) : Tab.get d (t.place k v) j = Tab.get d t j := by
  induction t with
  | nil => simp [Tab.place, Tab.get, Ne.symm h]
  | cons e t ih => by_cases hk : k < e.1 <;> simp [Tab.place, Tab.get, hk, Ne.symm h, ih]

theorem Tab.erase_ne (t : Tab α) (k : Nat) : ∀ e ∈ t.erase k, e.1 ≠ k := by
  induction t with
  | nil => simp [Tab.erase]
  | cons e t ih =>
    by_cases h : e.1 = k
    · simpa [Tab.erase, h] using ih
    · intro x hx
      simp only [Tab.erase, h, if_false, List.mem_cons] at hx
      rcases hx with rfl | hx
      · exact h
      · exact ih x hx

variable [DecidableEq α]

/-- A read of the number that was written gives the value written. -/
@[simp] theorem Tab.get_set_self (t : Tab α) (k : Nat) (v : α) : Tab.get d (Tab.set d t k v) k = v := by
  unfold Tab.set
  split
  · rename_i h; rw [Tab.get_erase_self, h]
  · exact Tab.get_place_self _ _ _ (Tab.erase_ne t k)

/-- A read of any other number gives what it gave. -/
theorem Tab.get_set_ne (t : Tab α) {j k : Nat} (v : α) (h : j ≠ k) : Tab.get d (Tab.set d t k v) j = Tab.get d t j := by
  unfold Tab.set
  split
  · exact Tab.get_erase_ne t h
  · rw [Tab.get_place_ne _ _ h, Tab.get_erase_ne t h]

/-- A read after a write. -/
theorem Tab.get_set (t : Tab α) (j k : Nat) (v : α) :
    Tab.get d (Tab.set d t k v) j = if j = k then v else Tab.get d t j := by
  by_cases h : j = k
  · subst h; simp
  · simp [Tab.get_set_ne t v h, h]

theorem Tab.wfFrom_mono {lo lo' : Nat} (h : lo' ≤ lo) (t : Tab α) (w : Tab.wfFrom d lo t) : Tab.wfFrom d lo' t := by
  cases t with
  | nil => rfl
  | cons e t =>
    simp only [Tab.wfFrom, Bool.and_eq_true, decide_eq_true_eq] at w ⊢
    exact ⟨⟨by omega, w.1.2⟩, w.2⟩

theorem Tab.wfFrom_erase {lo : Nat} (t : Tab α) (k : Nat) (w : Tab.wfFrom d lo t) : Tab.wfFrom d lo (t.erase k) := by
  induction t generalizing lo with
  | nil => rfl
  | cons e t ih =>
    simp only [Tab.wfFrom, Bool.and_eq_true, decide_eq_true_eq] at w
    by_cases h : e.1 = k
    · simpa [Tab.erase, h] using Tab.wfFrom_mono (by omega) _ (ih w.2)
    · simp only [Tab.erase, h, if_false, Tab.wfFrom, Bool.and_eq_true, decide_eq_true_eq]
      exact ⟨w.1, ih w.2⟩

theorem Tab.wfFrom_place {lo : Nat} (t : Tab α) (k : Nat) (v : α) (hk : lo ≤ k) (hv : v ≠ d k) (hn : ∀ e ∈ t, e.1 ≠ k)
    (w : Tab.wfFrom d lo t) : Tab.wfFrom d lo (t.place k v) := by
  induction t generalizing lo with
  | nil => simp [Tab.place, Tab.wfFrom, hk, hv]
  | cons e t ih =>
    simp only [Tab.wfFrom, Bool.and_eq_true, decide_eq_true_eq] at w
    have he := hn e (by simp)
    by_cases h : k < e.1
    · simp only [Tab.place, h, if_true, Tab.wfFrom, Bool.and_eq_true, decide_eq_true_eq]
      exact ⟨⟨hk, hv⟩, ⟨by omega, w.1.2⟩, w.2⟩
    · simp only [Tab.place, h, if_false, Tab.wfFrom, Bool.and_eq_true, decide_eq_true_eq]
      exact ⟨w.1, ih (by omega) (fun x hx => hn x (by simp [hx])) w.2⟩

/-- A write keeps the canonical form. -/
theorem Tab.wf_set (t : Tab α) (k : Nat) (v : α) (w : Tab.wf d t) : Tab.wf d (Tab.set d t k v) := by
  unfold Tab.set
  split
  · exact Tab.wfFrom_erase t k w
  · rename_i h
    exact Tab.wfFrom_place _ k v (Nat.zero_le k) h (Tab.erase_ne t k) (Tab.wfFrom_erase t k w)

theorem Tab.wf_upd (t : Tab α) (k : Nat) (f : α → α) (w : Tab.wf d t) : Tab.wf d (Tab.upd d t k f) := Tab.wf_set t k _ w

/-- A write of a list keeps the canonical form. -/
theorem Tab.wf_write (t : Tab α) (k : Nat) (l : List α) (w : Tab.wf d t) : Tab.wf d (Tab.write d t k l) := by
  induction l generalizing t k with
  | nil => exact w
  | cons v l ih => exact ih _ _ (Tab.wf_set t k v w)

theorem Tab.wfFrom_filter {lo : Nat} (t : Tab α) (p : Nat × α → Bool) (w : Tab.wfFrom d lo t) :
    Tab.wfFrom d lo (t.filter p) := by
  induction t generalizing lo with
  | nil => rfl
  | cons e t ih =>
    simp only [Tab.wfFrom, Bool.and_eq_true, decide_eq_true_eq] at w
    by_cases h : p e
    · simp only [List.filter_cons, h, if_true, Tab.wfFrom, Bool.and_eq_true, decide_eq_true_eq]
      exact ⟨w.1, ih w.2⟩
    · simpa [List.filter_cons, h] using Tab.wfFrom_mono (by omega) _ (ih w.2)

/-- A table from which entries are taken out keeps the canonical form. -/
theorem Tab.wf_filter (t : Tab α) (p : Nat × α → Bool) (w : Tab.wf d t) : Tab.wf d (t.filter p) := Tab.wfFrom_filter t p w

/-- A read after the write of a list: inside it, its element; outside, what it was. -/
theorem Tab.get_write (t : Tab α) (k : Nat) (l : List α) (j : Nat) :
    Tab.get d (Tab.write d t k l) j = if h : k ≤ j ∧ j < k + l.length then l[j - k]'(by omega) else Tab.get d t j := by
  induction l generalizing t k with
  | nil =>
    have : ¬(k ≤ j ∧ j < k + ([] : List α).length) := by simp
    rw [dif_neg this]; rfl
  | cons v l ih =>
    have e : Tab.write d t k (v :: l) = Tab.write d (Tab.set d t k v) (k + 1) l := rfl
    rw [e, ih, Tab.get_set]
    by_cases h1 : k + 1 ≤ j ∧ j < k + 1 + l.length
    · have h2 : k ≤ j ∧ j < k + (v :: l).length := by simp; omega
      rw [dif_pos h1, dif_pos h2]
      have : j - k = (j - (k + 1)) + 1 := by omega
      simp [this]
    · rw [dif_neg h1]
      by_cases hj : j = k
      · subst hj; simp
      · have h2 : ¬(k ≤ j ∧ j < k + (v :: l).length) := by simp; omega
        rw [if_neg hj, dif_neg h2]

end Sys2Proof.Machine
end

