-- ==== Sys2Proof/Laws/Ops.lean ====
section
/-! SUPPORT. The laws of the shared operations on registers, fields, counters, ESNs, unit states and the buffer: each says once
what its operation does. -/

namespace Sys2Proof.Machine

/-! ## Answers -/

theorem State.on_eq (s : State) (f : Dev → Dev) : s.on f = .next { s with dev := f s.dev } := rfl

theorem Dev.when_true (d : Dev) (f : Dev → Dev) : d.when true f = f d := rfl

theorem Dev.when_false (d : Dev) (f : Dev → Dev) : d.when false f = d := rfl

/-- What holds of the block and is kept by each element's change holds at the end. -/
theorem Dev.each_induction {α : Type} (P : Dev → Prop) (f : Dev → α → Dev) (h : ∀ d a, P d → P (f d a)) :
    ∀ (l : List α) (d : Dev), P d → P (d.each l f)
  | [], _, hd => hd
  | a :: l, d, hd => Dev.each_induction P f h l (f d a) (h d a hd)

/-! ## Fields of a value -/

theorem fieldOf_lt (v : Word) (lo w : Nat) : fieldOf v lo w < 2 ^ w := Nat.mod_lt _ (by positivity)

theorem withField_toNat (v : Word) (lo w x : Nat) (h : lo + w ≤ 32) :
    (withField v lo w x).toNat = v.toNat % 2 ^ lo + 2 ^ lo * (x % 2 ^ w + 2 ^ w * (v.toNat / 2 ^ (lo + w))) := by
  have hv := v.isLt
  have h1 : v.toNat % 2 ^ lo < 2 ^ lo := Nat.mod_lt _ (by positivity)
  have h2 : x % 2 ^ w < 2 ^ w := Nat.mod_lt _ (by positivity)
  have e : (2 : Nat) ^ 32 = 2 ^ lo * (2 ^ w * 2 ^ (32 - (lo + w))) := by
    rw [← pow_add, ← pow_add]; congr 1; omega
  have h3 : v.toNat / 2 ^ (lo + w) < 2 ^ (32 - (lo + w)) := by
    apply Nat.div_lt_of_lt_mul
    rw [← pow_add]
    have : lo + w + (32 - (lo + w)) = 32 := by omega
    rw [this]; exact hv
  unfold withField
  rw [BitVec.toNat_ofNat, Nat.mod_eq_of_lt]
  rw [e]
  have h4 : x % 2 ^ w + 2 ^ w * (v.toNat / 2 ^ (lo + w)) + 1 ≤ 2 ^ w * 2 ^ (32 - (lo + w)) := by
    calc x % 2 ^ w + 2 ^ w * (v.toNat / 2 ^ (lo + w)) + 1 ≤ 2 ^ w + 2 ^ w * (v.toNat / 2 ^ (lo + w)) := by omega
      _ = 2 ^ w * (v.toNat / 2 ^ (lo + w) + 1) := by ring
      _ ≤ 2 ^ w * 2 ^ (32 - (lo + w)) := Nat.mul_le_mul_left _ h3
  calc v.toNat % 2 ^ lo + 2 ^ lo * (x % 2 ^ w + 2 ^ w * (v.toNat / 2 ^ (lo + w)))
      < 2 ^ lo + 2 ^ lo * (x % 2 ^ w + 2 ^ w * (v.toNat / 2 ^ (lo + w))) := by omega
    _ = 2 ^ lo * (x % 2 ^ w + 2 ^ w * (v.toNat / 2 ^ (lo + w)) + 1) := by ring
    _ ≤ 2 ^ lo * (2 ^ w * 2 ^ (32 - (lo + w))) := Nat.mul_le_mul_left _ h4

/-- The field that was replaced holds the new value. -/
theorem fieldOf_withField_self (v : Word) (lo w x : Nat) (h : lo + w ≤ 32) : fieldOf (withField v lo w x) lo w = x % 2 ^ w := by
  unfold fieldOf
  rw [withField_toNat v lo w x h, Nat.add_mul_div_left _ _ (by positivity),
    Nat.div_eq_of_lt (Nat.mod_lt _ (by positivity)), Nat.zero_add, Nat.add_mul_mod_self_left, Nat.mod_mod]

theorem div_mod_pow (n a b : Nat) : n / 2 ^ a % 2 ^ b = n % 2 ^ (a + b) / 2 ^ a := by
  rw [pow_add, Nat.mod_mul_right_div_self]

/-- A field that does not overlap it holds what it held. -/
theorem fieldOf_withField_ne (v : Word) (lo w x lo' w' : Nat) (h : lo + w ≤ 32) (hd : lo' + w' ≤ lo ∨ lo + w ≤ lo') :
    fieldOf (withField v lo w x) lo' w' = fieldOf v lo' w' := by
  unfold fieldOf
  rw [withField_toNat v lo w x h]
  rcases hd with hd | hd
  · rw [div_mod_pow, div_mod_pow]
    congr 1
    have e : (2 : Nat) ^ lo = 2 ^ (lo' + w') * 2 ^ (lo - (lo' + w')) := by rw [← pow_add]; congr 1; omega
    rw [e, Nat.mul_assoc, Nat.add_mul_mod_self_left, Nat.mod_mod_of_dvd _ (Dvd.intro _ rfl)]
  · have e : (2 : Nat) ^ lo' = 2 ^ (lo + w) * 2 ^ (lo' - (lo + w)) := by rw [← pow_add]; congr 1; omega
    congr 1
    rw [e, ← Nat.div_div_eq_div_mul, ← Nat.div_div_eq_div_mul]
    congr 1
    rw [pow_add, ← Nat.div_div_eq_div_mul, Nat.add_mul_div_left _ _ (by positivity),
      Nat.div_eq_of_lt (Nat.mod_lt _ (by positivity)), Nat.zero_add, Nat.add_mul_div_left _ _ (by positivity),
      Nat.div_eq_of_lt (Nat.mod_lt _ (by positivity)), Nat.zero_add]

/-! ## Registers -/

theorem Dev.reg_setReg (d : Dev) (a b : Nat) (v : Word) : (d.setReg a v).reg b = if b = a then v else d.reg b :=
  Tab.get_set d.regs b a v

@[simp] theorem Dev.reg_setReg_self (d : Dev) (a : Nat) (v : Word) : (d.setReg a v).reg a = v := by simp [Dev.reg_setReg]

theorem Dev.reg_setReg_ne (d : Dev) {a b : Nat} (v : Word) (h : b ≠ a) : (d.setReg a v).reg b = d.reg b := by
  simp [Dev.reg_setReg, h]

theorem Dev.reg_put (d : Dev) (f : Field) (v b : Nat) :
    (d.put f v).reg b = if b = f.adr then withField (d.reg f.adr) f.lo f.width v else d.reg b := Dev.reg_setReg d f.adr b _

theorem Dev.reg_put_ne (d : Dev) (f : Field) (v : Nat) {b : Nat} (h : b ≠ f.adr) : (d.put f v).reg b = d.reg b :=
  Dev.reg_setReg_ne d _ h

/-- The field that was put holds the value. -/
theorem Dev.fld_put_self (d : Dev) (f : Field) (v : Nat) (h : f.lo + f.width ≤ 32) : (d.put f v).fld f = v % 2 ^ f.width := by
  unfold Dev.fld Dev.put
  rw [Dev.reg_setReg_self, fieldOf_withField_self _ _ _ _ h]

/-- Another field holds what it held. -/
theorem Dev.fld_put_ne (d : Dev) (f g : Field) (v : Nat) (h : f.lo + f.width ≤ 32)
    (hd : g.adr ≠ f.adr ∨ g.lo + g.width ≤ f.lo ∨ f.lo + f.width ≤ g.lo) : (d.put f v).fld g = d.fld g := by
  unfold Dev.fld Dev.put
  by_cases ha : g.adr = f.adr
  · rw [ha, Dev.reg_setReg_self]
    exact fieldOf_withField_ne _ _ _ _ _ _ h (hd.resolve_left (fun hn => hn ha))
  · rw [Dev.reg_setReg_ne _ _ ha]

theorem Dev.fld_setReg_ne (d : Dev) (a : Nat) (v : Word) (g : Field) (h : g.adr ≠ a) : (d.setReg a v).fld g = d.fld g := by
  unfold Dev.fld; rw [Dev.reg_setReg_ne _ _ h]

/-- A counter counts, saturating. -/
theorem Dev.reg_countBy (d : Dev) (a n b : Nat) :
    (d.countBy a n).reg b = if b = a then BitVec.ofNat 32 (min 0xffffffff ((d.reg a).toNat + n)) else d.reg b :=
  Dev.reg_setReg d a b _

/-- Clearing counters: those eight read 0, every other register as before, and nothing else changes. -/
theorem Dev.reg_clearCounters (d : Dev) (adr : Nat → Nat) (b : Nat) :
    (d.clearCounters adr).reg b = if ∃ k ∈ List.range 8, b = adr k then 0 else d.reg b := by
  have step : ∀ (l : List Nat) (d : Dev),
      (d.each l fun d k => d.setReg (adr k) 0).reg b = if ∃ k ∈ l, b = adr k then 0 else d.reg b := by
    intro l
    induction l with
    | nil => intro d; simp [Dev.each]
    | cons k l ih =>
      intro d
      have e : (d.each (k :: l) fun d k => d.setReg (adr k) 0) = (d.setReg (adr k) 0).each l fun d k => d.setReg (adr k) 0 := rfl
      rw [e, ih, Dev.reg_setReg]
      by_cases h1 : ∃ j ∈ l, b = adr j
      · have h2 : ∃ j ∈ k :: l, b = adr j := by
          obtain ⟨j, hj, hb⟩ := h1
          exact ⟨j, by simp [hj], hb⟩
        rw [if_pos h1, if_pos h2]
      · rw [if_neg h1]
        by_cases hb : b = adr k
        · rw [if_pos hb, if_pos ⟨k, by simp, hb⟩]
        · have h2 : ¬∃ j ∈ k :: l, b = adr j := by
            rintro ⟨j, hj, hb'⟩
            rcases List.mem_cons.mp hj with rfl | hj
            · exact hb hb'
            · exact h1 ⟨j, hj, hb'⟩
          rw [if_neg hb, if_neg h2]
  exact step (List.range 8) d

/-! ## The buffer (R296, R299) -/

/-- A read of the buffer after a write that covers no marked word in part: the bytes written where they lie, what was there
elsewhere. -/
theorem Dev.bufByte_bufWrite (d : Dev) (a : Nat) (l : List Byte) (j : Nat)
    (hp : ∀ w, d.poisoned w = true → a < 8 * w + 8 → 8 * w < a + l.length → a ≤ 8 * w ∧ 8 * w + 8 ≤ a + l.length) :
    Tab.get bufDefault (d.bufWrite a l).mem.bytes j =
      if h : a ≤ j ∧ j < a + l.length then l[j - a]'(by omega) else Tab.get bufDefault d.mem.bytes j := by
  have none_kept : [a / 8, (a + l.length) / 8].filter (fun w => d.poisoned w &&
      (decide (a < 8 * w + 8) && decide (8 * w < a + l.length)) && !(decide (a ≤ 8 * w) && decide (8 * w + 8 ≤ a + l.length))) = [] := by
    rw [List.filter_eq_nil_iff]
    intro w _ hw
    simp only [Bool.and_eq_true, Bool.not_eq_true', Bool.and_eq_false_iff, decide_eq_true_eq, decide_eq_false_iff_not] at hw
    have := hp w hw.1.1 hw.1.2.1 hw.1.2.2
    omega
  have bytes : (d.bufWrite a l).mem.bytes = Tab.write bufDefault d.mem.bytes a l := by
    simp only [Dev.bufWrite]
    rw [none_kept]
    rfl
  rw [bytes]
  exact Tab.get_write d.mem.bytes a l j

theorem MemSt.wf_iff (m : MemSt) : m.wf = true ↔
    Tab.wf bufDefault m.bytes = true ∧ Tab.wf (fun _ => false) m.poison = true ∧ Tab.wf (fun _ => false) m.touched = true := by
  simp [MemSt.wf, Bool.and_eq_true, and_assoc]

/-- Every write of the buffer keeps the canonical form. -/
theorem Dev.mem_wf_bufWrite (d : Dev) (a : Nat) (l : List Byte) (h : d.mem.wf = true) : (d.bufWrite a l).mem.wf = true := by
  rw [MemSt.wf_iff] at h ⊢
  have restored : ∀ (ws : List Nat) (t : Tab Byte), Tab.wf bufDefault t = true →
      Tab.wf bufDefault (ws.foldl (fun b w => Tab.write bufDefault b (8 * w) (d.bufRead (8 * w) 8)) t) = true := by
    intro ws
    induction ws with
    | nil => intro t ht; exact ht
    | cons w ws ih => intro t ht; exact ih _ (Tab.wf_write _ _ _ ht)
  refine ⟨restored _ _ (Tab.wf_write _ _ _ h.1), Tab.wf_filter _ _ h.2.1, ?_⟩
  have step : ∀ (ps : List Nat) (t : Tab Bool), Tab.wf (fun _ => false) t = true →
      Tab.wf (fun _ => false) (ps.foldl (fun t p => Tab.set (fun _ => false) t p true) t) = true := by
    intro ps
    induction ps with
    | nil => intro t ht; exact ht
    | cons p ps ih => intro t ht; exact ih _ (Tab.wf_set t p true ht)
  exact step _ _ h.2.2

theorem Dev.mem_wf_setPoison (d : Dev) (w : Nat) (b : Bool) (h : d.mem.wf = true) : (d.setPoison w b).mem.wf = true := by
  rw [MemSt.wf_iff] at h ⊢
  refine ⟨?_, Tab.wf_set _ _ _ h.2.1, h.2.2⟩
  cases b with
  | false => simpa only [Dev.setPoison, Bool.false_eq_true, if_false] using h.1
  | true =>
    simp only [Dev.setPoison, if_true]
    exact Tab.wf_write _ _ _ h.1

theorem Dev.mem_wf_markBytes (d : Dev) (a n : Nat) (h : d.mem.wf = true) : (d.markBytes a n).mem.wf = true :=
  Dev.each_induction (fun d => d.mem.wf = true) _ (fun d w => Dev.mem_wf_setPoison d w true) _ _ h

/-- Noting a virgin read leaves the memory as it is. -/
theorem Dev.noteVirgin_mem (d : Dev) (a n : Nat) : (d.noteVirgin a n).mem = d.mem := by
  unfold Dev.noteVirgin
  split
  · simp only [Dev.put_mem, Dev.putBit_mem]
  · rfl

/-- Memory after reset is in its canonical form. -/
theorem reset_mem_wf : State.reset.dev.mem.wf = true := by decide

end Sys2Proof.Machine
end

