-- ==== Sys2Proof/Tests/Slice0.lean ====
section
/-! SUPPORT. Tests: each check of WellFormed refuses an ill-formed term; for every statement with hypotheses, states and operands
that meet them, clause by clause; and what single commands do, held against the spec's examples. -/

namespace Sys2Proof.Tests
open Sys2Proof Sys2Proof.Machine

-- One proof at a time: each decision is long, and together they would need more threads than the memory has stacks for.
set_option Elab.async false

/-! ## Helpers -/

/-- A state with an empty queue. -/
def st (d : Dev) : State := { dev := d }

/-- The block after a command; the block itself where the command stops. -/
def after (c : Instr) (d : Dev) : Dev :=
  match exec c (st d) with
  | .next t => t.dev
  | .fault _ => d
  | .refused _ => d

/-- The block at reset, in native mode, and in KD mode. -/
def dv : Dev := {}
def nat' : Dev := dv.put Fld.ID_DEVICE_MODE 1
def kdv : Dev := dv.put Fld.ID_DEVICE_MODE 2

/-- The block with its second head fused off. -/
def oneHead : Dev := dv.put Fld.ID_DEVICE_VARIANT 2

def env0 : BootEnv := ⟨true, true, true, [], [], true, true, true, true, 1, 1, [true, true], true, true, 0⟩

def frame0 (n : Nat) : SvcFrame := { seq := 0, payload := List.replicate n 0 }

def task0 (l : List Byte) : ScsiTask := ⟨0, l⟩

def written0 : KdWritten := ⟨[], Vector.replicate 16 0, Vector.replicate 16 0⟩

/-- A ring frame with a type, a destination, and n bytes of payload. -/
def ring0 (type : Nat) (dst : List Byte) (p : List Byte) : RingFrame :=
  ⟨[BitVec.ofNat 8 type, 0] ++ leBytes 2 p.length ++ dst ++ leBytes 8 7 ++ p, true⟩

/-! ## Ill-formed commands -/

/-- One ill-formed command for each check of WellFormed; the check refuses each, and none stops the machine. -/
theorem test_ill_formed_refused : (([.spanIllegalOpcode ⟨0, 0⟩ 0, .memNarrowWrite 0 4 ⟨List.replicate 5 1, none⟩,
    .memNarrowWrite 0 0 ⟨[], none⟩, .memNarrowWrite 0 0 ⟨List.replicate 8 1, none⟩, .write10 (task0 [0x2a, 0, 0, 0, 0, 0, 0, 0, 1, 0]) [] written0,
    .write12 (task0 [0xaa, 0, 0, 0, 0, 0, 0, 0, 0, 1, 0, 0]) [] written0,
    .kdReadRaw (task0 []) ⟨[], [], false⟩ (Vector.replicate 240 0), .scsiUnsupportedOpcode (task0 [0x12]),
    .ringTimeMark (ring0 1 (leBytes 8 0) (List.replicate 7 0)) 40,
    .ringTimeMark (ring0 1 (leBytes 8 0) (List.replicate 8 0)) 39, .ringPresence (ring0 1 (leBytes 8 0) []),
    .ringWake (ring0 2 (leBytes 8 0) []) env0, .ringMgmt ⟨[4, 0], true⟩,
    .ringUnknownFrame ⟨1, ring0 4 (leBytes 8 0) []⟩] : List Instr).all fun c =>
      !c.wellFormed && isNext (exec c State.reset)) = true := by decide +kernel

/-- Frames of the service port with one byte more than their 4,104. -/
theorem test_long_frames_refused : (([.svcHello, .svcNonce, .svcToken, .svcStage, .svcStageEnd, .svcActivate, .svcConfirm,
    .svcStageAbort, .svcRevert, .svcRegRead, .svcRegWrite, .svcGetLog, .svcModeLock, .svcDropRole, .svcReset,
    .svcUnlistedType 0] : List (SvcFrame → Instr)).all fun c =>
      !(c (frame0 4105)).wellFormed && (c (frame0 4104)).wellFormed) = true := by decide +kernel

/-! ## Hypotheses that are met: the queue and the machine as a whole -/

theorem witness_step_runs_front :
    ({ pending := [.locusTick, .locusNowRead] } : State).pending = .locusTick :: [.locusNowRead] := rfl

theorem witness_carried_out : exec .locusTick (st dv) = .next (st (after .locusTick dv)) := rfl

theorem witness_queue_ok : ({ pending := [.locusTick, .memRead 0 ⟨0, 0, none⟩] } : State).queueOk = true ∧
    isNext (step { pending := [.locusNowRead] }) = true := by decide

/-! ## Locus, ring, TAP -/

def early : Dev := { dv with locus := { dv.locus with order := 1022 } }
def guided : Dev := dv.putBit Fld.LOCUS_CTRL_RING_SYNC_EN true
def stepping : Dev := { guided with locus := { dv.locus with stepTo := some 5 } }
def slewing (skip : Bool) : Dev := { guided with locus := { dv.locus with slewTo := some 1, slewSkip := skip } }
def asks : EsnRequest := ⟨.fragment, 3, 5⟩

theorem witness_esn_grants : dv.locus.waiting ++ [] = [] ∧ early.locus.waiting ++ [asks] ≠ [] ∧ early.locus.epoch ≠ 0xffff ∧
    early.locus.order < 1023 ∧ asks ∈ early.locus.waiting ++ [asks] ∧ asks.kind = .fragment := by decide

/-- R254: the STAMP of a user task is granted in class 6, whatever class it names; that of a vendor task in the class that it names. -/
theorem test_stamp_class : ((dv.putBit (Fld.SPP_TASK_USER 3) true).grantClass ⟨.stamp, 3, 2⟩).val = 5 ∧
    (dv.grantClass ⟨.stamp, 3, 2⟩).val = 2 := by decide +kernel

/-- A fragment of a lower slice, and an event of a lower class, are granted first. -/
theorem test_esn_grants : ((after (.esnGrant [asks, ⟨.fragment, 1, 5⟩]) dv).locus.granted.map (·.1.source)) = some 1 ∧
    ((after (.esnGrant [asks, ⟨.wedgeSource, 9, 5⟩]) dv).locus.granted.map (·.1.kind)) = some .wedgeSource := by decide +kernel

theorem witness_ticks : (dv.locus.stepTo = none ∧ dv.locus.slewTo = none ∧ (dv.putBit Fld.LOCUS_CTRL_RING_SYNC_EN false).bit Fld.LOCUS_CTRL_RING_SYNC_EN = false) ∧
    (stepping.locus.stepTo = some 5 ∧ stepping.bit Fld.LOCUS_CTRL_RING_SYNC_EN = true) ∧
    ((slewing true).locus.stepTo = none ∧ (slewing true).locus.slewTo = some 1 ∧ (slewing true).locus.slewSkip = true ∧
      (slewing true).bit Fld.LOCUS_CTRL_RING_SYNC_EN = true) ∧
    ((slewing false).locus.slewSkip = false ∧ (slewing false).locus.slewTo = some 1) := by decide +kernel

/-- An active ring node; one whose RX FIFO has one place left, and one whose FIFO is full. -/
def node (n : Nat) : Dev :=
  { dv.putBit Fld.RING_STATUS_TX_ON true with ring := { dv.ring with rx := List.replicate n [] } }

def fullTx (n : Nat) : Dev := { dv with ring := { dv.ring with tx := List.replicate n [] } }

def here : List Byte := leBytes 8 dv.sec.dsn
def markFrame : RingFrame := ring0 1 (List.replicate 8 0xff) (leBytes 8 0)

theorem witness_ring_frames : Instr.ringPresence (ring0 2 here []) ∈ [Instr.ringPresence (ring0 2 here []), .ringMgmt (ring0 2 here [])] ∧
    (Instr.ringPresence (ring0 2 here [])).wellFormed = true ∧ (Instr.ringMgmt (ring0 4 here [])).wellFormed = true ∧
    (Instr.ringUnknownFrame ⟨1, ring0 5 here []⟩).wellFormed = true ∧ dv.ringActive = false ∧ (node 15).ringActive = true ∧
    (node 15).ring.rx.length < 16 ∧ 16 ≤ (node 16).ring.rx.length ∧ ({ ring0 2 here [] with crcOk := false } : RingFrame).crcOk = false ∧
    rfDst (ring0 2 here []).bytes = dv.sec.dsn ∧ rfSrc (ring0 2 here []).bytes ≠ dv.sec.dsn ∧ rfHops (ring0 2 here []).bytes ≠ 255 ∧
    rfDst (ring0 2 (leBytes 8 9) []).bytes ≠ dv.sec.dsn ∧ rfHops ((ring0 2 here []).bytes.set 1 255) = 255 := by decide +kernel

def synced (b : Bool) : Dev := (node 0).putBit Fld.LOCUS_CTRL_RING_SYNC_EN b

theorem witness_time_mark : (Instr.ringTimeMark markFrame 40).wellFormed = true ∧ (synced true).ringActive = true ∧
    markFrame.crcOk = true ∧ rfSrc markFrame.bytes ≠ (synced true).sec.dsn ∧ rfHops markFrame.bytes < 255 ∧
    rfDst markFrame.bytes = ringAll ∧ (synced true).sec.dsn ≠ ringAll ∧ (synced true).bit Fld.LOCUS_CTRL_RING_SYNC_EN = true ∧
    (synced false).bit Fld.LOCUS_CTRL_RING_SYNC_EN = false ∧ timeAhead 1 dv.locus.time = true ∧ timeAhead 0 dv.locus.time = false := by
  decide

theorem witness_ring_fifos : 16 ≤ (fullTx 16).ring.tx.length ∧ (fullTx 15).ring.tx.length < 16 ∧ (fullTx 15).ringActive = false ∧
    ((node 0).ring.tx = [] ∧ (node 0).ringActive = true) ∧ dv.mayWrite .hardware = true ∧
    dv.bit Fld.RING_CTRL_FORCE_BYPASS = false ∧ (dv.putBit Fld.RING_CTRL_FORCE_BYPASS true).bit Fld.RING_CTRL_FORCE_BYPASS = true ∧
    { dv.ring with opening := true }.opening = true ∧ dv.ring.opening = false ∧
    (dv.putBit Fld.RING_STATUS_SYNC true).bit Fld.RING_STATUS_SYNC = true := by decide

theorem witness_tap : dv.tap.instr = .idcode ∧ 0 < [true].length ∧ TapInstr.bypass ∈ [TapInstr.bypass, .highz, .clamp] ∧
    TapInstr.extest ∈ [TapInstr.extest, .sample] := by decide

/-! ## Clocks, domains, Facet, thermal, supply -/

def locked (core : Nat) : Dev := dv.putBit (lockField core) true
def running (ps : Nat) : Dev := { (dv.put Fld.HQ_STATUS_PS ps) with pwr := { dv.pwr with held := false } }

theorem witness_clocks : (dv.fld Fld.CLK_STATUS_ACTIVE = 0 ∧ (locked 1).bit (lockField 1) = true ∧ (locked 1).dead 12 1 = false) ∧
    dv.bit (lockField 1) = false ∧ dv.bit (lockField 0) = false ∧ (locked 0).bit (lockField 0) = true ∧
    ((running 2).ps < 3 ∧ (running 2).dead 12 1 = false ∧ (running 2).pwr.held = false ∧ (running 2).pwr.stuck = false) ∧
    (dv.setUnit 11 3 .retired).dead 11 3 = true ∧ dv.dead 11 3 = false := by decide +kernel

/-- Domain 95 asked for and barred; domains that ramp. -/
def ramps (l : List Nat) : Dev := { dv with pwr := { dv.pwr with ramping := l } }

/-- A domain of the last word, on and idle; and the domain of a decoder at work. -/
def onIdle : Dev := (dv.putMask (Fld.PWR_ON_PD 2) 31 true).putMask (Fld.PWR_REQ_PD 2) 31 true

theorem witness_domains : ((dv.setUnit 6 0 .retired).domainBarred (unitDomain 6 0 |>.getD 0) = true) ∧
    (dv.domainBarred 8 = false ∧ dv.domainOn 8 = false ∧ 8 ∉ dv.pwr.ramping ∧ 8 ∉ dv.pwr.queue) ∧
    (ramps [1, 2, 3]).pwr.ramping.length < 4 ∧ 4 ≤ (ramps [1, 2, 3, 4]).pwr.ramping.length ∧ 8 ∈ (ramps [8]).pwr.ramping ∧
    8 ∉ (ramps []).pwr.ramping ∧ ((onIdle).domainHolds 95 = false ∧ onIdle.domainAsked 95 = false ∧ onIdle.domainOn 95 = true) ∧
    dv.rampsAsked 8 = false ∧ (nat'.put (Fld.CHN_CTRL_MODE 8) 1).rampsAsked 8 = true ∧ (nat'.put (Fld.CHN_CTRL_MODE 8) 1).domainWanted 8 = true := by
  decide +kernel

def warm (tj step since cool : Nat) : Dev :=
  { ((nat'.put Fld.MON_THERM_TJ tj).put Fld.MON_THERM_GOV_STEP step) with
    pwr := { dv.pwr with sinceStep := since, cool := cool } }

/-- A reading of 105 °C, the threshold of the trip, in 1/64 °C, and one just below it. -/
def hotOnce : Dev := { dv with pwr := { dv.pwr with hot := List.replicate 12 true } }

theorem witness_thermal : let at' (t : BitVec 16) := (((Vector.replicate 12 t).toList.map (·.toInt)).map fun t => decide (6720 ≤ t)).zip hotOnce.pwr.hot
    ((at' 6719).any fun e => e.1 && e.2) = false ∧ ((at' 6720).any fun e => e.1 && e.2) = true ∧ hotOnce.bit Fld.MON_THERM_TRIP = false ∧
    ((List.range 12).all fun k => decide ((dv.put (Fld.MON_SENSOR_TEMP 11) 6080).sfld (Fld.MON_SENSOR_TEMP k) ≤ 6080)) = true ∧
    ((List.range 12).all fun k => decide ((dv.put (Fld.MON_SENSOR_TEMP 11) 6081).sfld (Fld.MON_SENSOR_TEMP k) ≤ 6080)) = false := by
  decide +kernel

/-- A speed step under way: its new step number, the code it posts and its counter; the target not yet reached, or the discs stopped. -/
def speedStep (target : Nat) : Dev :=
  { ((nat'.put Fld.SPN_TARGET_TARGET target).setSpn spnFoc) with pwr := { dv.pwr with govNext := some (3, 0x0f01, 2) } }

theorem witness_governor : dv.mode ≠ 1 ∧ nat'.mode = 1 ∧
    (6400 ≤ (warm 6400 0 0 0).sfld Fld.MON_THERM_TJ ∧ (warm 6400 0 0 0).fld Fld.MON_THERM_GOV_STEP = 0) ∧
    ((warm 6400 1 99 0).fld Fld.MON_THERM_GOV_STEP = 1 ∧ 99 ≤ (warm 6400 1 99 0).pwr.sinceStep ∧ (warm 6400 1 99 0).mode = 1) ∧
    ((warm 6080 2 0 999).sfld Fld.MON_THERM_TJ ≤ 6080 ∧ 999 ≤ (warm 6080 2 0 999).pwr.cool ∧
      (warm 6080 2 0 999).fld Fld.MON_THERM_GOV_STEP = 2) ∧
    ((warm 6080 1 0 999).fld Fld.MON_THERM_GOV_STEP = 1 ∧ 999 ≤ (warm 6080 1 0 999).pwr.cool) ∧
    (6080 < (warm 6081 0 0 0).sfld Fld.MON_THERM_TJ ∧ (warm 6399 0 0 0).sfld Fld.MON_THERM_TJ < 6400) ∧
    ((warm 0 0 0 0).pwr.govTarget = none ∧ (warm 0 0 0 0).pwr.govNext = none) ∧
    ((speedStep 6000).pwr.govTarget = none ∧ (speedStep 6000).pwr.govNext = some (3, 0x0f01, 2) ∧ (speedStep 6000).mode = 1 ∧
      (speedStep 6000).stepSettled = false ∧ (speedStep 0).stepSettled = true) := by decide +kernel

def failing (risen : Bool) : Dev := { dv with pwr := { dv.pwr with failing := true, risen := risen } }

theorem witness_supply : (failing false).pwr.failing = true ∧ dv.pwr.failing = false ∧
    ((failing true).pwr.risen = true ∧ (failing true).svc.reset = none) ∧ dv.pwr.risen = false := by decide +kernel

/-! ## Reset, start-up, wake -/

theorem witness_resets : ((onIdle.putMask (Fld.PWR_ON_PD 2) 11 true).domainOn (75 + 0) = true) ∧ dv.domainOn (75 + 1) = false := by
  decide +kernel

theorem witness_start_up : (dv.pwr.held = true ∧ dv.pwr.refOk = true) ∧
    ({ env0 with core0 := false, core1 := false } : BootEnv).core0 = false ∧
    bistFailed { env0 with bistFail := [88] } 88 = true ∧ ({ env0 with recoveryN := false } : BootEnv).recoveryN = false ∧
    (running 0).pwr.held = false ∧ ((running 4).ps = 4 ∧ (running 4).pwr.refOk = true) ∧ (running 3).ps ≠ 4 := by decide +kernel

theorem witness_wake : (Instr.ringWake (ring0 3 here []) env0).wellFormed = true ∧ (ring0 3 here []).crcOk = true ∧
    rfDst (ring0 3 here []).bytes = dv.sec.dsn ∧ ((running 4).putBit Fld.RING_STATUS_BYPASS true).bit Fld.RING_STATUS_BYPASS = true ∧
    ((running 4).putBit Fld.RING_STATUS_BYPASS true).ps = 4 ∧ ((running 3).putBit Fld.RING_STATUS_BYPASS false).ps = 3 ∧
    (((running 3).putBit Fld.RING_STATUS_BYPASS false).putBit Fld.RING_STATUS_TX_ON true).ringActive = true ∧
    ((running 3).putBit Fld.RING_STATUS_BYPASS false).bit Fld.RING_STATUS_BYPASS = false ∧
    rfSrc (ring0 3 here []).bytes ≠ dv.sec.dsn ∧ rfHops (ring0 3 here []).bytes ≠ 255 := by decide +kernel

/-! ## Facet and sparing -/

def busyFacet : Dev := dv.putBit Fld.FACET_STATUS_BUSY true
def extending : Dev := { dv with pwr := { dv.pwr with test := some .extended } }
def passes : FacetResult := ⟨95, [], misrOf [], true, true⟩

/-- A decoder in a service cycle, in a state of its life, with the test of its domain in progress. -/
def cycling (u : UnitState) (update : Bool) : Dev :=
  { dv.setUnit 6 20 u with spr := { dv.spr with cycle := some ⟨6, 20, update⟩ },
                           pwr := { dv.pwr with test := (unitDomain 6 20).map .domain } }

theorem witness_facet : (dv.putBit Fld.FACET_CTRL_EXT_REQ true).bit Fld.FACET_CTRL_EXT_REQ = true ∧
    (dv.bit Fld.FACET_CTRL_EXT_REQ = false ∧ (running 2).mayWrite .hardware = true ∧ (running 2).ps = 2 ∧
      (running 2).bit Fld.FACET_STATUS_BUSY = false) ∧ (running 1).ps ≠ 2 ∧ (95 : BitVec 7).toNat < 96 ∧
    busyFacet.bit Fld.FACET_STATUS_BUSY = true ∧
    ((cycling .out false).spr.cycle = some ⟨6, 20, false⟩ ∧ (cycling .out false).unit 6 20 = .out ∧
      (unitDomain 6 20).isSome = true) ∧
    (extending.pwr.test = some .extended ∧ extending.host.cmds = [] ∧ [passes].all facetPasses = true) ∧ dv.pwr.test = none := by
  decide +kernel

def rotating : Dev := nat'.put Fld.SPR_POLICY_POLICY 1

theorem witness_cycles_advance : dv.fld Fld.SPR_POLICY_POLICY = 0 ∧ rotating.fld Fld.SPR_POLICY_POLICY ≠ 0 ∧
    ((turnsAfter rotating.spr.lastUnit).find? fun t => rotating.cycleMay t.2.1 t.2.2).isSome = true ∧
    (3 ≤ (6 : Fin 16).val ∧ 23 < classUnits 6 ∧ nat'.unit 6 23 = .spare ∧ nat'.cycleMay 6 23 = true) ∧
    (cycling .draining false).unit 6 20 = .draining ∧ (cycling .draining false).drained 6 20 = true ∧
    (cycling .loading true).unit 6 20 = .loading ∧ (cycling .loading true).bit Fld.FACET_STATUS_BUSY = false := by decide +kernel

theorem witness_cycles_end : ((cycling .testing false).spr.cycle = some ⟨6, 20, false⟩ ∧
      (cycling .testing false).pwr.test = (unitDomain 6 20).map .domain ∧ (unitDomain 6 20).isSome = true ∧
      (cycling .testing false).unit 6 20 = .testing) ∧ dv.pwr.test = none ∧ (cycling .out false).spr.policyNext = none ∧
    dv.spr.cycle = none := by decide +kernel

/-- R440: in PS2 the two engines of pair 2 stay on, and those of pair 0 are held off. -/
theorem test_ps2_keeps_pair_2 :
    let d := nat'.fillPairs
    (d.psHoldsOff 2 51 = false ∧ d.psHoldsOff 2 52 = false) ∧ d.psHoldsOff 2 47 = true ∧ d.psHoldsOff 1 47 = false := by decide +kernel

/-- R441: a domain reads as on while its unit's mode asks for it, and as off afterwards. -/
theorem test_domain_follows_mode :
    let d := (nat'.showDomain 8 true).put (Fld.CHN_CTRL_MODE 8) 1
    (d.onWord 0).getLsbD 8 = true ∧ ((d.put (Fld.CHN_CTRL_MODE 8) 0).onWord 0).getLsbD 8 = false := by decide +kernel

/-! ## Hand-offs -/

/-- SPR_HANDOFF words with GO: class in bits 3:0, IN in bits 15:8, OUT in bits 23:16. -/
def goWord (cls inn out : Nat) : Word := BitVec.ofNat 32 (2 ^ 31 + out * 65536 + inn * 256 + cls)

/-- Slice 0 in Data mode and slice 9 in Shadow mode on the same beam, which it has tracked for 16 wedges. -/
def sliceReady : Dev :=
  (((nat'.put (Fld.CHN_CTRL_MODE 0) 1).put (Fld.CHN_CTRL_MODE 9) 2).put (Fld.CHN_CTRL_BEAM 9) 0).onSlice 9 fun x => { x with okRun := 16 }

/-- Lattice unit 0 Active and unit 1 Shadow on head A, which has a pass to run. -/
def latReady : Dev :=
  { (nat'.put (Fld.LAT_CTRL_MODE 0) 1).put (Fld.LAT_CTRL_MODE 1) 2 with
    det := { heads := [(0, { passes := [(⟨0, 0, 0, 0⟩, 0)] })], lats := [(1, { shadowed := true })] } }

/-- Processor 0 Active with task 3 live on it, and processor 11 Spare. -/
def spanReady : Dev :=
  (((((nat'.put (Fld.SPP_CTRL_ROLE 0) 1).put (Fld.SPP_CTRL_ROLE 11) 3).putBit (Fld.SPP_TASK_LIVE 3) true).put
    (Fld.SPP_TASK_STATE 3) taskRunning).put (Fld.SPP_TASK_PROC 3) 0)

def spanMoving : Dev := ((((dv.putBit Fld.SPR_HANDOFF_BUSY true).put Fld.SPR_HANDOFF_CLASS 8).put Fld.SPR_HANDOFF_OUT 0).put
  Fld.SPR_HANDOFF_IN 11)

theorem witness_handoffs : Instr.latticeHandoff (goWord 5 1 0) ∈ [Instr.sliceHandoff (goWord 5 1 0),
      .latticeHandoff (goWord 5 1 0), .spanHandoff (goWord 5 1 0)] ∧
    (fieldOf (goWord 3 9 0) 31 1 = 1 ∧ fieldOf (goWord 3 9 0) 0 4 = 3 ∧ fieldOf (goWord 3 9 0) 16 8 = 0 ∧
      fieldOf (goWord 3 9 0) 8 8 = 9 ∧ sliceReady.sliceRule 3 0 9 = true ∧ sliceReady.bit Fld.SPR_HANDOFF_BUSY = false) ∧
    (latReady.latticeRule 0 1 = true ∧ (latReady.dh (latReady.fld (Fld.LAT_CTRL_HEAD 0))).passes ≠ []) ∧
    spanReady.spanRule 0 11 = true ∧ spanMoving.bit Fld.SPR_HANDOFF_BUSY = true ∧ fieldOf (goWord 6 0 0) 0 4 = 6 ∧
    (spanMoving.handingOff (spanMoving.fld Fld.SPR_HANDOFF_OUT) = true ∧ spanMoving.tasksOf (spanMoving.fld Fld.SPR_HANDOFF_OUT) = [] ∧
      spanMoving.fld Fld.SPR_HANDOFF_OUT < 12 ∧ spanMoving.fld Fld.SPR_HANDOFF_IN < 12 ∧
      spanMoving.fld Fld.SPR_HANDOFF_OUT ≠ spanMoving.fld Fld.SPR_HANDOFF_IN) ∧
    spanReady.handingOff (spanReady.fld Fld.SPR_HANDOFF_OUT) = false := by decide +kernel

/-! ## Slices, heads, write paths -/

def dataOn (n beam : Nat) : Dev := (nat'.put (Fld.CHN_CTRL_MODE n) 1).put (Fld.CHN_CTRL_BEAM n) beam

theorem witness_slice_controls : oneHead.hasHead (headOfSlice 10) = false ∧ dv.hasHead (headOfSlice 19) = true ∧
    nat'.sliceModeOk 0 1 = true ∧ nat'.sliceModeOk 0 3 = false ∧
    (9 < 10 ∧ 9 ≠ nat'.fld (Fld.CHN_CTRL_BEAM 0) ∧ ¬(nat'.sliceMode 0 = 1 ∧ nat'.beamTaken 0 9 = true)) ∧ 10 ≤ (10 : BitVec 4).toNat ∧
    nat'.sliceBeam 0 = 0 ∧ nat'.sliceLive 0 = false ∧ (dataOn 0 0).sliceLive 0 = true ∧ (dataOn 0 0).sliceBeam 0 < 10 ∧ ((((dataOn 0 0).put (Fld.CHN_CTRL_MODE 1) 1).sliceMode 0 = 1 ∧
      ((dataOn 0 0).put (Fld.CHN_CTRL_MODE 1) 1).beamTaken 0 1 = true)) ∧
    ((dv.onSlice 0 fun x => { x with rejoining := some 0 }).slice 0).rejoining = some 0 ∧
    (dv.slice 0).rejoining ≠ some 0 := by decide +kernel

theorem witness_zone_staging : dv.hasHead (headOfSlice 0) = true ∧ 47 < fieldOf (BitVec.ofNat 32 (48 * 2 ^ 24)) 24 6 ∧
    fieldOf (BitVec.ofNat 32 (47 * 2 ^ 24)) 24 6 ≤ 47 ∧ fieldOf (BitVec.ofNat 32 (32 * 2 ^ 16)) 16 8 < 33 := by decide

/-- A group whose envelope is its own reference, and one far below it. -/
def group0 (env : Nat) : GroupSamples := ⟨Vector.replicate 32 0, env⟩

/-- A Data-mode slice with an envelope reference of 40 units and so many groups outside the limits behind it. -/
def inData (bad : Nat) : Dev := (dataOn 0 0).onSlice 0 fun x => { x with envRef := 40 * 8192, badRun := bad }

theorem witness_group_end : dv.sliceMode 0 = 0 ∧ (inData 0).sliceMode 0 ≠ 0 ∧
    ((inData 0).putBit (Fld.CHN_AGC_CFG_AGC_HOLD 0) true).bit (Fld.CHN_AGC_CFG_AGC_HOLD 0) = true ∧
    (((inData 0).fld (Fld.CHN_DEF_CFG_ENV_LO 0)) * ((inData 0).slice 0).envRef ≤ 32 * 8192 * (group0 40).envelope ∧
      32 * 8192 * (group0 40).envelope ≤ (inData 0).fld (Fld.CHN_DEF_CFG_ENV_HI 0) * ((inData 0).slice 0).envRef ∧
      (inData 0).bit (Fld.CHN_STATUS_DEFECT 0) = false ∧ ((inData 0).slice 0).rejoins = false ∧
      ((inData 0).slice 0).rejoinArmed = false ∧ ((inData 0).slice 0).rejoinNext = false ∧ ((inData 0).slice 0).missErase = false ∧ ((inData 0).slice 0).postLeft = 0 ∧
      ((inData 0).slice 0).coldRun = false ∧ (inData 0).writing 0 = false ∧
      blankCodes ((inData 0).fld (Fld.CHN_DEF_CFG2_BLANK_THR 0)) 40 ((inData 0).fld (Fld.CHN_MON_GAIN 0)) (List.replicate 32 63) = false ∧
      (inData 0).bit (Fld.CHN_AGC_CFG_AGC_HOLD 0) = false) ∧
    (¬(((inData 0).fld (Fld.CHN_DEF_CFG_ENV_LO 0)) * ((inData 0).slice 0).envRef ≤ 32 * 8192 * (group0 0).envelope) ∧
      (inData ((inData 0).fld (Fld.CHN_DEF_CFG_DEF_ON 0))).fld (Fld.CHN_DEF_CFG_DEF_ON 0) ≤
        ((inData ((inData 0).fld (Fld.CHN_DEF_CFG_DEF_ON 0))).slice 0).badRun ∧ (inData 0).sliceMode 0 = 1 ∧
      (inData 0).sliceBeam 0 < 10) := by decide +kernel

/-- A slice in Data mode whose cold acquisition runs, the decisions around the mark of slot 0 in its line; and one whose cold
acquisition is armed. -/
def coldRunning (bits : List Bool) : Dev := (dataOn 0 0).onSlice 0 fun x =>
  { x with coldRun := true, line := List.replicate ((dataOn 0 0).tentDepth 0) noSample ++
      (List.range 64).map fun i => ⟨183 - (i : Int), 0, 0, bits.getD (63 - i) false⟩ }

def coldArmed : Dev := (dataOn 0 0).onSlice 0 fun x => { x with coldArmed := true }

/-- The head of a slice with a band write in progress, or in an OPC run's writing. -/
def writingOn (d : Dev) : Dev := d.onWp 0 fun x => { x with opc := some { phase := .writing } }

theorem witness_sync_search : dv.hasHead (headOfSlice 0) = true ∧ (dataOn 0 0).sliceMode 0 ≠ 0 ∧ (coldArmed.slice 0).coldArmed = true ∧
    coldArmed.heldByWrite 0 = false ∧ (writingOn coldArmed).heldByWrite 0 = true ∧
    ((dataOn 0 0).slice 0).coldArmed = false ∧ dv.sliceMode 0 = 0 ∧ (coldRunning []).sliceLive 0 = true ∧
    ((coldRunning []).slice 0).coldRun = true := by decide +kernel

/-- A slice that finds its mark locks after a cold acquisition, and one that finds nothing fails to. -/
theorem test_sync_search : (after (.syncMarkSearch 0 ()) (coldRunning (List.replicate 8 false ++ syncMark))).bit (Fld.CHN_STATUS_LOCKED 0) = true ∧
    ((after (.syncMarkSearch 0 ()) (coldRunning [])).slice 0).sync = .nominal := by decide +kernel

/-- What a slice converts of a wedge's servo part in zone 0, whose symbols are 859,375/61,440 eighths of a channel bit long, from 4 bits
before its expected place on: 40 in marks and 0 in spaces. -/
def servoWave (marks : List Bool) : SliceWedge :=
  ⟨(List.range 80).map fun b => BitVec.ofNat 7 (5 * ((List.range 8).filter fun k =>
      32 ≤ 8 * b + k && marks.getD ((8 * b + k - 32) * 61440 / 859375) false).length),
    0, Vector.replicate 20 false, Vector.replicate 8 0⟩

/-- R43's preamble, mark and address byte 0x35, in biphase code: 1 is a mark and a space, 0 a space and a mark. -/
def wedgeMarks : List Bool := [true, false, true, false, true, false, true, true, true, false, false, false] ++
  ([false, false, true, true, false, true, false, true].map fun b => [b, !b]).flatten

/-- R78: the mark is found and the address read; with the mark of wedge 0 in its place it is not found in wedge 1. -/
theorem test_wedge_read : (dv.readWedge 0 1 (servoWave wedgeMarks)).found = true ∧
    (dv.readWedge 0 1 (servoWave wedgeMarks)).address = some 0x35 ∧
    (dv.readWedge 0 1 (servoWave [])).found = false := by decide +kernel

/-- R90: the zone word that firmware stages for zone 0: 52 groups a fragment, 21 slots. -/
theorem test_zone_word : (zoneWord 0 6600).toNat % 65536 = 0x3415 := by decide +kernel

def samples0 : ServoSamples := ⟨Vector.replicate 32 0, Vector.replicate 10 ⟨0, 0, 0, 0⟩, Vector.replicate 10 0⟩
def capturedAt (layer band : Nat) : Dev := nat'.onHead 0 fun x => { x with captured := true, layer := layer, band := band }

theorem witness_maps : (dv.hasHead .a = true ∧ nat'.mode ≠ 2 ∧ mapOk 0x76543210 = true) ∧ mapOk 0x16543210 = false ∧ kdv.mode = 2 ∧
    oneHead.hasHead .b = false ∧ (dv.putBit (Fld.SRV_CTRL_AFE_ON 0) true).bit (Fld.SRV_CTRL_AFE_ON 0) = true ∧
    dv.bit (Fld.SRV_CTRL_AFE_ON 0) = false ∧ (Head.b ≠ .a ∧ kdv.mode = 2) ∧
    (∀ b : Fin 10, samples0.mon[b].mark = 0 ∧ samples0.mon[b].lo = 0) ∧ (((capturedAt 0 4).head 0).captured = true ∧ (capturedAt 0 4).mode ≠ 2) ∧ (dv.head 0).captured = false ∧
    (((capturedAt 0 4).onHead 0 fun x => { x with mapNext := some 0x76543210 }).head 0).mapNext.isSome = true ∧
    nat'.dead (sliceClass 0) (sliceUnit 0) = false := by decide +kernel

def sweep0 (n : Nat) : CaptureRecord := ⟨n, n, true, 3, 32, [], none⟩

/-- A capture on a KD medium of 42 sectors, 21 of them recorded. -/
def sweepKd : CaptureRecord := ⟨0, 0, true, 0, 0, [], some (42, 21)⟩

theorem witness_heads : (nat'.hasHead .a = true ∧ nat'.mode = 1 ∧ nat'.rpm ≤ 1800) ∧
    ((8 - (3 : Fin 8).val ≤ (sweep0 5).first ∨ 8 - (3 : Fin 8).val ≤ (sweep0 5).second) ∧ (sweep0 5).quiet = true) ∧
    ¬((8 - (3 : Fin 8).val ≤ (sweep0 4).first ∨ 8 - (3 : Fin 8).val ≤ (sweep0 4).second) ∧ (sweep0 4).quiet = true) ∧
    (kdv.hasHead .a = true ∧ kdv.mode = 2 ∧ kdv.rpm ≤ 1800 ∧ sweepKd.kd = some (42, 21) ∧ sweepKd.quiet = true) ∧
    1800 < (nat'.put Fld.SPN_SPEED_RPM 1801).rpm ∧ (nat'.put Fld.SPN_SPEED_RPM 1800).rpm ≤ 1800 ∧
    (nat'.put (Fld.SRV_DEFECT_MASK 0) 1023).allDefect 0 = true ∧ nat'.allDefect 0 = false ∧
    (((capturedAt 6 0).head 0).captured = true ∧ ((capturedAt 6 0).head 0).layer < 7 ∧ 0 < ((capturedAt 6 0).head 0).layer) ∧
    ((capturedAt 7 0).head 0).layer = 7 ∧ ((capturedAt 0 0).head 0).layer = 0 ∧ (nat'.head 0).captured = false ∧ leadBand ≤ leadBand ∧
    leadBand < leadBand + 1 := by decide +kernel

/-- An OPC run in a phase; an edge that copy 0 reports, and one that neither does. -/
def opcIn (p : OpcPhase) : Dev := (capturedAt 0 0).onWp 0 fun x => { x with opc := some { phase := p } }
def edge0 (reports : Option (Fin 2)) : EdgeRecord := ⟨reports, 0, 0, 3, 0, 0, 1⟩
def swapReady : Dev := kdv.setReg (tableHeader 0 (1 - kdv.bank 0) 4 0) 0x80000000
def oneCopy : Dev := dv.onWp 0 fun x => { x with retiredCopy := some 0 }

theorem witness_write_paths : dv.hasHead .a = true ∧ (capturedAt 0 2).opcRefused 0 = true ∧ (capturedAt 0 1).opcRefused 0 = false ∧
    (dv.wps 0).opc = none ∧ ((opcIn .done).wps 0).opc = some { phase := .done } ∧
    (((opcIn .writing).wps 0).opc = some { phase := .writing } ∧ OpcPhase.writing ≠ .done) ∧ (dv.wps 0).retiredCopy = none ∧
    ((edge0 (some 0)).reports = some 0 ∧ (edge0 none).reports = none) ∧
    (oneCopy.wps 0).retiredCopy.isSome = true ∧
    (swapReady.mode = 2 ∧ swapReady.tableReady 0 = true ∧ (swapReady.wps 0).run = none) ∧ nat'.mode ≠ 2 ∧
    kdv.tableReady 0 = false := by decide +kernel

/-! ## Groups, Lattice units, decoders, stripe engines -/

/-- The whole fragment of a frame at position p. -/
def frag0 (p : Nat) : FragSt := ⟨0, 0, 0, p, p, p, 0, headBits, 0, codeBits, none, false, false, [], false, []⟩

/-- Slot 0 and slot 63 in wedge interval 0, whose bits lie in it and far past it. -/
def passing (slot : Fin 64) : FragmentRecord := ⟨0, slot, Vector.replicate 8 0, Vector.replicate 8 0⟩

/-- A head with one open group, holding the fragments of so many positions. -/
def grouping (n : Nat) : Dev :=
  { dv with det := { heads := [(0, { store := [{ key := ⟨0, 0, 0, 0⟩, frags := (List.range n).map frag0 }] })] } }

/-- A Shadow slice. -/
def shadowOn (n : Nat) : Dev := nat'.put (Fld.CHN_CTRL_MODE n) 2

/-- A Data-mode slice on a beam of the map, on a head with that group open. -/
def delivering : Dev := { dataOn 0 0 with det := (grouping 1).det }

theorem witness_fragments : (dv.hasHead (headOfSlice 0) = true ∧ dv.sliceMode 0 ≠ 1) ∧
    (((dataOn 0 0).onSlice 0 fun x => { x with freqHeld := true }).slice 0).freqHeld = true ∧
    (((dataOn 0 0).onHead 0 fun x => { x with paused := true }).head 0).paused = true ∧ (writingOn (dataOn 0 0)).writing 0 = true ∧
    ((dataOn 0 0).sliceMode 0 = 1 ∧ ((dataOn 0 0).slice 0).freqHeld = false ∧ (dataOn 0 0).writing 0 = false ∧
      ((dataOn 0 0).head 0).paused = false) ∧
    ((dataOn 0 0).fragmentOf 0 0 (passing 63) = none ∧ ((dataOn 0 0).fragmentOf 0 0 (passing 0)).any (fun r => !r.blank) = true) ∧
    ((shadowOn 0).sliceMode 0 = 2 ∧ (shadowOn 0).hasHead (headOfSlice 0) = true ∧
      ((shadowOn 0).fragmentOf 0 0 (passing 0)).isSome = true) ∧
    (dv.sliceMode 0 ≠ 1 ∧ dv.sliceMode 0 ≠ 2) ∧
    ((((dataOn 0 0).onHead 0 fun x => { x with band := 9 }).formatterReads 0 0 = false) ∧ (dataOn 0 0).formatterReads 0 0 = true) ∧
    (((dataOn 0 0).slice 0).births = [] ∧ (((grouping 1).openGroup 0 ⟨0, 0, 0, 0⟩).any fun g => !g.past) = true) ∧
    ((dataOn 0 0).positionOf 0 ((dataOn 0 0).sliceBeam 0) = some 0 ∧ (dataOn 0 9).positionOf 0 ((dataOn 0 9).sliceBeam 0) = none) ∧
    groupOfFrame ((dataOn 0 0).fragmentFrame 0 0 (passing 0)) = ⟨0, 0, 0, 0⟩ ∧ findGroup ((dataOn 0 0).dh 0).store ⟨0, 0, 0, 0⟩ = none ∧
    (delivering.openGroup 0 ⟨0, 0, 0, 0⟩).isSome = true ∧ delivering.sliceMode 0 = 1 ∧
    (([frag0 1] : List FragSt).any fun x => x.pos == 0 && x.wedge == 0) = false := by decide +kernel

theorem witness_groups :
    ((grouping 7).openGroup 0 ⟨0, 0, 0, 0⟩).isSome = true ∧
    ((grouping 8).openGroup 0 ⟨0, 0, 0, 0⟩).any groupWhole = true ∧ ((grouping 7).openGroup 0 ⟨0, 0, 0, 0⟩).any groupWhole = false ∧
    dv.openGroup 0 ⟨0, 0, 0, 0⟩ = none ∧ (latReady.fld (Fld.LAT_CTRL_MODE 1) = 2 ∧
      (shadowGroup (latReady.dh (latReady.fld (Fld.LAT_CTRL_HEAD 1)))).isSome = true ∧ shadowGroup (dv.dh 0) = none) ∧
    (latReady.fld (Fld.LAT_CTRL_MODE 0) = 1 ∧ (latReady.dh (latReady.fld (Fld.LAT_CTRL_HEAD 0))).passes ≠ [] ∧
      (latReady.dh 0).jobs = [] ∧ (latReady.dh 0).handoff = none) ∧ dv.fld (Fld.LAT_CTRL_MODE 2) = 0 ∧
    ((dv.put (Fld.LAT_CTRL_MODE 2) 1).fld (Fld.LAT_CTRL_MODE 2) = 1 ∧ (dv.dh (dv.fld (Fld.LAT_CTRL_HEAD 2))).passes = []) := by
  decide +kernel

def latFailed : Dev := { (latReady.putBit Fld.LAT_SPARE_AUTO true).put Fld.LAT_SPARE_UNIT 1 with
  det := { heads := [(0, { failed := some 0 })] } }

theorem witness_lattice : (dv.setUnit 5 2 .retired).dead 5 2 = true ∧ latReady.dead 5 0 = false ∧
    (latFailed.fld (Fld.LAT_CTRL_MODE 0) = 1 ∧ latFailed.bit Fld.LAT_SPARE_AUTO = true) ∧ (dv.dh 0).failed = none ∧
    ((latFailed.dh 0).failed = some 0 ∧ ((latFailed.dh 0).taker).getD (latFailed.fld Fld.LAT_SPARE_UNIT) = 1 ∧
      latFailed.dead 5 1 = false ∧ latFailed.fld (Fld.LAT_CTRL_MODE 1) ≠ 1) ∧
    ((latFailed.activeLat 0).isSome = true ∧ (latFailed.put (Fld.LAT_CTRL_MODE 0) 0).activeLat 0 = none ∧
      ((latFailed.put (Fld.LAT_CTRL_MODE 0) 0).dh 0).failed = some 0) ∧
    (((latFailed.put Fld.LAT_SPARE_UNIT 0).dh 0).taker).getD ((latFailed.put Fld.LAT_SPARE_UNIT 0).fld Fld.LAT_SPARE_UNIT) = 0 ∧
    latReady.latModeOk 1 1 0 = false ∧ latReady.latModeOk 2 2 1 = true := by decide +kernel

/-- A job, and a head that has it. -/
def job0 (stage : JobStage) : JobSt :=
  { esn := 7, rcpt := 0, parity := true, noSweep := false, scrub := false, frame := 0, stripe := 0, j := 24, iterLim := 0,
    turboLim := 0xff, stage := stage, unit := if stage = .waiting then none else some 3, chan := [], policy := 0x20080800 }

def withJob (j : JobSt) : Dev :=
  { (dv.putMask Fld.DEC_INSERVICE_MASK 3 true).putMask (Fld.DEC_MASK_MASK 0) 3 true with det := { heads := [(0, { jobs := [j] })] } }

/-- Posteriors, one for each block, whose decisions meet every check, and such whose first decision is wrong. -/
def allZero : List (List Int) := List.replicate 76 [1]
def oneWrong : List (List Int) := [-1] :: List.replicate 75 [1]

def decoding (l : List (List Int)) : JobSt := { job0 .decoding with dec := some (l, []) }

theorem witness_decoders : dv.decoderHead 3 = none ∧ ((withJob { job0 .waiting with chan := [1] }).decoderFree 3 = true ∧
      (withJob { job0 .waiting with chan := [1] }).decoderHead 3 = some 0 ∧
      ((withJob { job0 .waiting with chan := [1] }).readyJob 0).isSome = true) ∧ dv.jobOf 3 = none ∧
    ((withJob (decoding allZero)).jobOf 3 = some (0, decoding allZero) ∧ (decoding allZero).stage = .decoding ∧
      (decoding allZero).dec = some (allZero, []) ∧ (decoding allZero).cancelled = false) ∧
    JobSt.withinLimits { decoding oneWrong with iters := (decoding oneWrong).iters + 1 } (withJob (decoding oneWrong)) = true ∧
    ((withJob (job0 .sweeping)).jobOf 3 = some (0, job0 .sweeping) ∧ sweepShifts[(job0 .sweeping).trial]? = some 1 ∧
      (job0 .sweeping).trial < 7 ∧ (job0 .sweeping).cancelled = false ∧
      ((job0 .sweeping).noSweep && (job0 .sweeping).scrub) = false) ∧
    (∀ y ∈ (dv.dh 0).jobs, y.esn ≠ 7) ∧ ((withJob (job0 .waiting)).dh 0).jobs.find? (fun y => y.esn == 7) = some (job0 .waiting) ∧
    (dv.setUnit 6 3 .retired).dead 6 3 = true ∧ dv.dead 6 3 = false := by decide +kernel

/-- The checks in the clauses of an iteration and of a sweep trial that runs none: no wrong decision, and one, which breaks the four
checks of its column (R106). -/
theorem witness_checks : ldpcUsc ((LdpcState.mk allZero []).iterate 12).hard = 0 ∧
    ldpcUsc ((LdpcState.mk oneWrong []).iterate 12).hard = 4 ∧
    ldpcUsc (LdpcState.runUntil 12 0 (LdpcState.start (jobCut 0 [] 1))).1.hard = 0 := by decide +kernel

def stripe0 (op : Nat) (rebuilding : Bool) : StripeJob :=
  { op := op, verify := false, scrub := false, addr := 0, home := 0, nsid := 1, lba0 := 0, buf := 0, rcpt := 0, esn := 0,
    engine := 1, task := 0, rebuilding := rebuilding }

/-- The block with the mailbox of a task full. -/
def fullMail (t : Nat) : Dev := { dv with span := { dv.span with mail := [(t, { count := 32 })] } }

theorem witness_stripes : (∀ j, dv.stripeJob 0 63 = some j → j.op ≠ 2 ∨ j.encoded = true ∨ j.engine ≠ 1) ∧
    ((dv.setStripe 0 63 (some (stripe0 2 false))).stripeJob 0 63 = some (stripe0 2 false) ∧ (stripe0 2 false).op = 2 ∧
      (stripe0 2 false).encoded = false ∧ (stripe0 2 false).engine = 1) ∧
    ((dv.setStripe 1 0 (some (stripe0 0 true))).stripeJob 1 0 = some (stripe0 0 true) ∧ (stripe0 0 true).rebuilding = true ∧
      (stripe0 0 true).engine = 1) ∧
    (dv.mailRoom 0 = true ∧ (fullMail 0).mailRoom 0 = false) ∧
    (dv.setUnit 15 0 .retired).dead 15 0 = true ∧ dv.dead 15 1 = false := by
  refine ⟨fun j h => ?_, ?_⟩
  · simp [dv, Dev.stripeJob, Tab.get] at h
  · decide +kernel

/-! ## Register accesses and roles -/

theorem witness_writes : (1 : BitVec 24).toNat % 4 ≠ 0 ∧ Adr.MON_THERM % 4 = 0 ∧ Adr.MON_THERM + 4 < 2 ^ 24 ∧
    nat'.hidden 0x24200 = true ∧ (findReg regTable 0xffff00 = none ∧ 0x118000 ≤ 0xffff00) ∧
    (Adr.HQ_QP_COAL 0 % 4 = 0 ∧ dv.hidden (Adr.HQ_QP_COAL 0) = false ∧
      (findReg regTable (Adr.HQ_QP_COAL 0)).any (fun r => (effectOf r.1.base).isNone && pairRule r.1.base 5) = true) ∧
    (findReg regTable (Adr.CHN_CTF_CFG 0)).any (fun r => r.1.fields.any (outside .host 61)) = true ∧
    (findReg regTable (Adr.CHN_CTF_CFG 0)).any (fun r => r.1.fields.any (outside .host 60)) = false := by decide +kernel

def mayDo : Writer := .hardware

/-- The shadow bank of engine 0 shown, an exchange pending, the active bank shown. -/
def swapPending : Dev := dv.putBit (Fld.ARC_STATUS_SWAP_PENDING 0) true
def activeView : Dev := dv.putBit (Fld.ARC_CTRL_VIEW 0) true

theorem witness_roles : dv.mayWrite .host = false ∧ dv.mayWrite mayDo = true ∧ dv.bit Fld.RING_CTRL_FORCE_BYPASS ≠ true ∧
    dv.bit Fld.RING_CTRL_FORCE_BYPASS = false ∧ dv.bit Fld.FACET_CTRL_EXT_REQ = false ∧
    dv.bit Fld.CACHE_CTRL_ENABLE = false ∧ (dv.putBit Fld.CACHE_CTRL_ENABLE true).bit Fld.CACHE_CTRL_ENABLE = true ∧
    ((1 : Word).getLsbD 16 = false ∧ fieldOf 1 0 1 ≠ dv.fld Fld.SPR_POLICY_POLICY) ∧
    ((0 : Word).getLsbD 16 = false ∧ fieldOf 0 8 8 = 0 ∧ fieldOf 0 0 1 = dv.fld Fld.SPR_POLICY_POLICY) ∧ dv.spr.cycle = none ∧
    (cycling .out false).spr.cycle.isSome = true ∧
    (fieldOf 23 0 16 ≤ dv.units? (5 + 1) ∧ 23 ≠ dv.fld (Fld.SPR_CLASS_THR_THRESHOLD 5)) ∧ dv.units? (5 + 1) < 25 ∧
    dv.fld (Fld.SPR_CLASS_THR_THRESHOLD 5) ≤ dv.units? (5 + 1) ∧
    (dv.bit (Fld.ARC_CTRL_VIEW 0) = false ∧ dv.coefRead 0 2047 ≠ 1 ∧ dv.bit (Fld.ARC_STATUS_SWAP_PENDING 0) = false) ∧
    activeView.bit (Fld.ARC_CTRL_VIEW 0) = true ∧ swapPending.bit (Fld.ARC_STATUS_SWAP_PENDING 0) = true ∧
    dv.coefRead 0 0 = 0 := by decide +kernel

/-! ## Arc engines, pairs, loader -/

/-- Slot 0 or 1 of engine 0, under p0, which is 1, or its negation. -/
def arc0 (slot : Fin 2) (neg : Bool) : ArcIssue := ⟨0, slot, neg, 0, 0⟩

/-- Engine 0 with values in r1 and r2, clamp bit 0 and arm bit 0. -/
def arcWith (a b : Word) (clamp arm : BitVec 8) : Dev :=
  dv.onEng 0 fun x => { x with ctx := { x.ctx with regs := [(1, a), (2, b)], clamp := clamp, arm := arm } }

theorem witness_arc : dv.arcActs (arc0 0 true) = false ∧ dv.arcActs (arc0 1 true) = false ∧ dv.arcActs (arc0 0 false) = true ∧
    2 ≤ (2 : Fin 8).val ∧ 0 ≤ (15 : BitVec 5).toInt ∧ (16 : BitVec 5).toInt < 0 ∧ ((0 : Word).sle 0 = true) ∧
    ((arcWith 0 0 1 1).arcSees (arc0 0 false)).clamp.getLsbD 0 = true ∧ ((arcWith 0 0 0 1).arcSees (arc0 0 false)).clamp.getLsbD 0 = false ∧
    ((arcWith 0 0 0 1).arcSees (arc0 0 false)).arm.getLsbD 0 = true ∧ ((arcWith 0 0 0 0).arcSees (arc0 0 false)).arm.getLsbD 0 = false := by
  decide +kernel

/-- Pair 1 of engines 2 and 3, running, with state of engine and pair. -/
def pairOn (g : ArcSt → ArcSt) (h : ArcPairSt → ArcPairSt) : Dev :=
  ((((((dv.put (Fld.ARC_CTRL_PAIR 2) 1).put (Fld.ARC_CTRL_ROLE 2) roleLead).put (Fld.ARC_CTRL_PAIR 3) 1).put
    (Fld.ARC_CTRL_ROLE 3) roleCheck).putBit (Fld.ARC_STATUS_RUNNING 2) true).onEng 3 g).onPair 1 h

def running1 : Dev := pairOn id id
def posted (x : ArcPost) : Dev := pairOn (fun a => { a with posts := [x] }) id
def arc2 : ArcIssue := ⟨2, 0, false, 0, 0⟩

/-- A pair of one engine. -/
def alone : Dev := running1.put (Fld.ARC_CTRL_ROLE 3) roleOff

def takingOver (t : ArcTakeover) : Dev := pairOn id fun x => { x with takeover := some t }
/-- A voting period in which engine 6 votes besides engines 2 and 3, these having presented something at their first place. -/
def votes (l : List (Nat × ArcPost)) (h : Bool) : Dev :=
  l.foldl (fun d e => d.onEng e.1 fun a => { a with posts := [e.2] })
    (takingOver { spare := some 6, loaded := true, voting := true, handover := h })
def record0 : ArcRecord := ⟨0, 2, 0, 0⟩
def recorded : Dev := (pairOn id fun x => { x with fifo := [record0] }).put (Fld.SPP_Q_LOG2_LOG2 servoQueue) 4

theorem witness_pairs_forward : running1.arcActs arc2 = true ∧
    ((running1.arcPair (running1.pairOf 2)).quiet = false ∧ running1.pairFailed (running1.pairOf 2) = false ∧
      2 ∈ running1.voters (running1.pairOf 2)) ∧ alone.voters (alone.pairOf 2) = [2] ∧
    ((running1.arcPair 1).fwd ≤ (running1.arcEng 2).posts.length ∧ 3 ∈ running1.voters 1 ∧
      ((posted (.emit 0x80 7)).arcEng 3).posts[0]? = some (.emit 0x80 7)) ∧ (0x7f : Nat) < 0x100 ∧ 0x81 % 0x80 ≤ 1 ∧
    ((posted (.event 1 0)).voters 1).length = 2 ∧ (running1.pairRuns 1 = true ∧ 2 ≤ (running1.pairEngines 1).length) ∧
    0x5ff < 0x600 ∧ (running1.arcPair 1).fifo.length < 32 ∧ dv.pairRuns 1 = false ∧
    (running1.putBit (Fld.ARC_STATUS_PAIR_FAILED 2) true).pairFailed 1 = true ∧ (alone.pairEngines 1).length < 2 ∧
    (running1.arcPair 1).takeover = none ∧ ((takingOver {}).arcPair 1).takeover.isSome = true ∧
    ((takingOver {}).arcPair 1).takeover = some {} ∧ dv.queueFull servoQueue = true ∧ (dv.arcPair 1).fifo = [] ∧
    (let d := votes [(3, .emit 0x80 7), (6, .emit 0x80 8)] false
     d.runsFor 2 = 1 ∧ 2 ∈ d.voters 1 ∧ (d.arcPair 1).fwd ≤ (d.arcEng 2).posts.length ∧ 3 ∈ d.voters 1 ∧
       (d.arcEng 3).posts[0]? = some (.emit 0x80 7) ∧ (d.arcPair 1).takeover.any (fun t => t.voting && t.spare.isSome) = true) ∧
    (let d := posted (.emit 0x80 8)
     (d.voters 1).length = 2 ∧ (∀ t, (d.arcPair 1).takeover = some t → t.voting = true) ∧
       (d.arcEng 3).posts[0]? = some (.emit 0x80 8)) ∧
    (∀ o ∈ running1.voters 1, o ≠ 2 → o = 3) ∧
    (((votes [] true).arcPair 1).takeover.any (fun t => t.voting && t.handover && !t.again) = true ∧
      ((votes [] false).arcPair 1).takeover.any (fun t => t.voting && !t.handover) = true ∧
      ((takingOver { loaded := true, voting := true, again := true }).arcPair 1).takeover.any (fun t => t.voting && t.again) = true ∧
      ((takingOver {}).arcPair 1).takeover.any (fun t => !t.voting) = true) ∧
    (recorded.queueFull servoQueue = false ∧ (recorded.arcPair 1).fifo = [record0] ∧ (recorded.arcPair 1).lost = false) := by
  decide +kernel

def image0 : ArcImage := ⟨true, false, true, [], 0, 1, 0, 0, 0, 255, 0, 0, [], [], []⟩
def idling (due : Bool) (im : ArcImage) : Dev :=
  (pairOn id fun x => { x with swapDue := due, image := some im }).onEng 2 id

theorem witness_pairs_step : dv.pairRuns 0 = false ∧ (dv.arcPair 0).next = none ∧
    (((dv.onPair 0 fun x => { x with next := some image0 }).arcPair 0).next = some image0) ∧
    ((idling true image0).pairRuns 1 = true ∧ ((idling true image0).arcPair 1).next = none ∧
      ((idling true image0).arcPair 1).takeover = none ∧ ((idling true image0).arcPair 1).handover = none ∧
      (∀ o ∈ (idling true image0).pairEngines 1, ((idling true image0).arcEng o).idle = true) ∧
      ((idling true image0).arcPair 1).swapDue = true ∧ ((idling true image0).arcPair 1).image.any (·.bumpless) = true ∧
      ((idling true { image0 with bumpless := false }).arcPair 1).image.any (·.bumpless) = false ∧
      ((idling false image0).arcPair 1).swapDue = false) ∧
    dv.drivesMotor 0 = false ∧
    (((takingOver {}).arcPair 1).takeover = some {} ∧ (takingOver {}).pairRuns 1 = true ∧ ((takingOver {}).arcPair 1).next = none) ∧
    (((takingOver { loaded := true }).arcPair 1).takeover = some { loaded := true }) ∧
    (let d := (takingOver {}).onPair 1 fun x => { x with next := some image0 }
     d.pairRuns 1 = true ∧ (d.arcPair 1).next = some image0 ∧ (d.arcPair 1).handover = none ∧ (d.arcPair 1).takeover = some {}) ∧
    6 ∈ ((running1.onPair 1 fun x => { x with tested := [6] }).arcPair 1).tested ∧
    (let pv : Word := 0x00014000 &&& 0x00ff7f03
     ¬(fieldOf pv 0 2 = 3 ∨ fieldOf pv 8 7 = 0 ∨ 64 < fieldOf pv 8 7 ∨ fieldOf pv 16 8 = 0) ∧ dv.pairRuns (dv.pairOf 0) = false ∧
       boundFits (running1.fld (Fld.ARC_BOUND_BOUND 2)) (arcBudget pv) = true) ∧
    fieldOf ((0x00014003 : Word) &&& 0x00ff7f03) 0 2 = 3 ∧
    boundFits ((running1.put (Fld.ARC_BOUND_BOUND 2) 10000).fld (Fld.ARC_BOUND_BOUND 2)) (arcBudget 0x00010100) = false ∧
    (dv.putBit Fld.ARC_LDR_STATUS_BUSY true).bit Fld.ARC_LDR_STATUS_BUSY = true ∧ dv.bit Fld.ARC_LDR_STATUS_BUSY = false ∧
    ((running1.putMask Fld.ARC_INSERVICE_MASK 7 true).handoverOk 1 2 7 = true) ∧ running1.handoverOk 1 2 3 = false ∧
    dv.arc.loading ≠ some 0 ∧ { dv.arc with loading := some 0 }.loading = some 0 ∧ running1.pairFailed 1 = false ∧
    (running1.putBit (Fld.ARC_STATUS_PAIR_FAILED 2) true).pairFailed 1 = true := by decide +kernel

/-! ## Spindle, profiler, sleds -/

def spn (state : Nat) : Dev := (dv.put Fld.MOT_STATUS_SPN_STATE state).putBit Fld.MOT_CTRL_SPN_EN true

/-- Four crossings in one order of the phases, a sixtieth of a turn of so many cycles apart. -/
def crossings (t : Nat) : List Crossing := [⟨.u, 0⟩, ⟨.v, t⟩, ⟨.w, 2 * t⟩, ⟨.u, 3 * t⟩]
def backwards (t : Nat) : List Crossing := [⟨.w, 0⟩, ⟨.v, t⟩, ⟨.u, 2 * t⟩, ⟨.w, 3 * t⟩]

def good (inWindow polarity : Bool) : ZeroCross := ⟨inWindow, polarity, 1, 0⟩

/-- The limits of native mode (R248). -/
def stop360 : Dev := (dv.put Fld.SPN_LIMIT_STOP_RPM 360).put Fld.SPN_CFG_POLE_PAIRS 6

theorem witness_spindle : (7200 < fieldOf (BitVec.ofNat 32 7201) 0 16 ∧ (nat'.put Fld.SPN_LIMIT_SPN_MAX 7200).fld Fld.SPN_LIMIT_SPN_MAX = 7200) ∧
    fieldOf (BitVec.ofNat 32 7200) 0 16 ≤ (nat'.put Fld.SPN_LIMIT_SPN_MAX 7200).fld Fld.SPN_LIMIT_SPN_MAX ∧ ((spn spnOff).spnState = spnOff ∧
      (spn spnOff).bit Fld.MOT_CTRL_SPN_EN = true ∧ dv.bit Fld.MOT_CTRL_SPN_EN = false) ∧
    (spn spnKick).spnState ∈ [spnMeasure, spnRevBrake, spnProbe, spnKick] ∧
    ((spn spnOff).onSpn fun x => { x with held := true }).mot.spn.held = true ∧ dv.mot.spn.held = false ∧
    ((spn spnMeasure).spnState = spnMeasure ∧ (4 ≤ (crossings 1000).length ∧ 1000 ≠ 0 ∧
      stop360.fld Fld.SPN_LIMIT_STOP_RPM * (stop360.speedOfT60 1000).2 < (stop360.speedOfT60 1000).1) ∧
      ordered (fun a b => b == nextPhase a) (crossings 1000) = true) ∧
    (ordered (fun a b => b == nextPhase a) (backwards 1000) = false ∧ ordered (fun a b => a == nextPhase b) (backwards 1000) = true) ∧
    ¬(4 ≤ ((crossings 1).take 3).length) ∧ (spn spnRevBrake).spnState = spnRevBrake ∧
    ((spn spnProbe).spnState = spnProbe ∧ (spn spnProbe).mot.spn.zeroVector = false ∧ (spn spnProbe).mot.spn.doubled = false) ∧
    dv.fld Fld.SPN_START_CFG2_PROBE_MIN ≤ (greatestAt (probeDiffs [4095, 0])).2.natAbs ∧
    (greatestAt (probeDiffs [])).2.natAbs < dv.fld Fld.SPN_START_CFG2_PROBE_MIN ∧
    (((spn spnProbe).onSpn fun x => { x with doubled := true, zeroVector := true }).mot.spn.zeroVector = true) ∧
    ((spn spnKick).spnState = spnKick ∧ (spn spnKick).mot.spn.kicks < (spn spnKick).fld Fld.SPN_START_CFG_KICKS) ∧
    dv.fld Fld.SPN_START_CFG_KICKS ≤ ((spn spnKick).onSpn fun x => { x with kicks := 15 }).mot.spn.kicks ∧
    ((spn spnStep6).blanked (good true true) = false ∧
      (((spn spnStep6).onSpn fun x => { x with t60 := 1000 }).put Fld.SPN_CFG_ZC_BLANK 30).blanked ⟨true, true, 501, 0⟩ = true) ∧
    ((spn spnStep6).programGoverns = true ∧ (good false true).inWindow = false ∧ (good true true).polarity = true ∧
      (good true false).polarity = false ∧ (spn spnStep6).mot.spn.wrong = 0 ∧ (good true true).interval ≠ 0) ∧
    1 ≤ ((spn spnStep6).onSpn fun x => { x with wrong := 1, missed := 4 }).mot.spn.wrong ∧
    ((spn spnStep6).onSpn fun x => { x with missed := 4 }).mot.spn.missed < 5 ∧ dv.programGoverns = false ∧
    5 ≤ ((spn spnStep6).onSpn fun x => { x with missed := 5 }).mot.spn.missed ∧
    (((spn spnStopping).onSpn fun x => { x with short := true }).mot.spn.short = true ∧ (spn spnStopping).spnState = spnStopping) ∧
    dv.mot.spn.short = false ∧ (spn spnKick).fld Fld.SPN_TARGET_TARGET = 0 ∧
    ((spn spnKick).put Fld.SPN_TARGET_TARGET 7200).fld Fld.SPN_TARGET_TARGET ≠ 0 := by decide +kernel

/-- A profiler channel in a state of its own; one with a table that runs. -/
def onPrf (c : Nat) (g : PrfSt → PrfSt) : Dev := { dv with mot := { dv.mot with prf := [(c, g {})] } }
def table0 (dur k : Nat) : Dev := onPrf 2 fun x => { x with segs := [⟨dur, 10, 0⟩], k := k }
def homedSled : Dev := (dv.putBit (Fld.SLD_STATUS_HOMED 0) true).put (Fld.SLD_STATUS_MODE 0) sledIdle

theorem witness_motor : Instr.ov2 ∈ [Instr.ov2, .motFlt] ∧ dv.mot.spn.chopCheck = false ∧
    (dv.onSpn fun x => { x with chopCheck := true }).mot.spn.chopCheck = true ∧ dv.spnState ≠ spnCoast ∧
    ((spn spnShort).spnState = spnShort ∧ (spn spnShort).fld Fld.SPN_TARGET_TARGET = 0) ∧
    (dv.bit Fld.MOT_CTRL_SPN_EN = false ∧ (spn spnCoast).bit Fld.MOT_CTRL_SPN_EN = true ∧
      ((spn spnCoast).putBit Fld.MOT_STATUS_OV2 true).bit Fld.MOT_STATUS_OV2 = true ∧ (spn spnCoast).bit Fld.MOT_STATUS_OV2 = false) ∧
    ((spn spnShort).put Fld.SPN_TARGET_TARGET 7200).fld Fld.SPN_TARGET_TARGET ≠ 0 ∧
    (dv.onSpn fun x => { x with busLow := true }).mot.spn.busLow = true ∧
    (2 ≤ (2 : Fin 6).val ∧ ((table0 2 0).prf 2).segs = [⟨2, 10, 0⟩] ∧ ((table0 2 0).prf 2).k + 1 < 2 ∧ 2 ≤ ((table0 2 1).prf 2).k + 1) ∧
    (homedSled.hasSled 0 = true ∧ homedSled.bit (Fld.SLD_STATUS_HOMED 0) = true ∧ homedSled.sledMode 0 ≠ sledHome ∧
      homedSled.sledMode 0 ≠ sledTable ∧ (homedSled.vlim 0).1 ≤ (homedSled.prf 0).p ∧ (homedSled.prf 0).p ≤ (homedSled.vlim 0).2) := by
  decide +kernel

/-- A homed sled whose limits are ±1000 steps, with a target, and a table that ends at once. -/
def sledAt (target : Word) : Dev :=
  ((homedSled.setReg (Adr.SLD_VLIM_LO 0) (BitVec.ofInt 32 (-1000))).setReg (Adr.SLD_VLIM_HI 0) 1000).setReg (Adr.SLD_TARGET 0) target
def sledBusy0 : Dev := dv.put (Fld.SLD_STATUS_MODE 0) sledHome
def oneSegment : Dev := (sledAt 0).setReg 0xa4000 0x01000001

theorem witness_sleds : (kdv.hasSled 1 = true ∧ kdv.sledTakes 1 = false ∧ dv.sledTakes 1 = true ∧ kdv.hasChannel 3 = true ∧
      kdv.profileTakes 3 = false ∧ dv.profileTakes 3 = true) ∧ oneHead.hasSled 1 = false ∧ oneHead.hasChannel 1 = false ∧ dv.hasChannel 5 = true ∧
    (2 ≤ (2 : Fin 6).val ∧ (dv.putBit (Fld.PRF_STATUS_BUSY 2) true).bit (Fld.PRF_STATUS_BUSY 2) = true ∧
      dv.bit (Fld.PRF_STATUS_BUSY 2) = false) ∧ dv.checkTable 2 = none ∧ (oneSegment.checkTable 2).isSome = true ∧
    (sledBusy0.sledBusy 0 = true ∧ dv.bit (Fld.SLD_STATUS_HOMED 0) = false) ∧
    ((sledAt 1001).sledBusy 0 = false ∧ (sledAt 1001).bit (Fld.SLD_STATUS_HOMED 0) = true ∧
      ((sledAt 1001).vlim 0).2 < ((sledAt 1001).reg (Adr.SLD_TARGET 0)).toInt * 65536) ∧
    (((sledAt 1000).vlim 0).1 ≤ 1000 * 65536 ∧ 1000 * 65536 ≤ ((sledAt 1000).vlim 0).2 ∧
      (sledAt 1000).towardLimit 0 (1000 * 65536) (1000 * 65536) = false) ∧
    (((sledAt 0).vlim 0).1 ≤ ((sledAt 0).reg (Adr.SLD_PARK_POS 0)).toInt * 65536 ∧
      ((sledAt 0).reg (Adr.SLD_PARK_POS 0)).toInt * 65536 ≤ ((sledAt 0).vlim 0).2) ∧
    (sledAt 0).towardLimit 0 (clampInt ((sledAt 0).vlim 0).1 ((sledAt 0).vlim 0).2 ((sledAt 0).trackGoal 0))
      (clampInt ((sledAt 0).vlim 0).1 ((sledAt 0).vlim 0).2 ((sledAt 0).trackGoal 0)) = false ∧
    ((oneSegment.checkTable 0).any fun t => (tableExtremes (oneSegment.prf 0).p (oneSegment.prf 0).v t).all (fun p =>
      decide ((oneSegment.vlim 0).1 ≤ p) && decide (p ≤ (oneSegment.vlim 0).2))) = true ∧
    (oneSegment.bit (Fld.SLD_STATUS_LIM_HOME 0) = false ∧ oneSegment.bit (Fld.SLD_STATUS_LIM_FAR 0) = false) ∧
    (dv.putBit (Fld.SLD_STATUS_LIM_FAR 0) true).bit (Fld.SLD_STATUS_LIM_FAR 0) = true ∧ (dv.sled 0).brakeFrom = 0 ∧
    (dv.prf 0).v = 0 ∧ ((onPrf 0 fun x => { x with v := 1 }).prf 0).v ≠ 0 ∧ (dv.sled 0).rawFar = none ∧
    ((dv.onSled 0 fun x => { x with rawHome := some (true, 0) }).sled 0).rawHome = some (true, 0) ∧
    ((sledAt 0).put (Fld.SLD_STATUS_MODE 0) sledMove).sledMode 0 ∈ [sledMove, sledTable, sledTrack, sledPark] ∧
    (dv.sled 0).ignore = false := by decide +kernel

/-! ## Span tasks -/

def si : SpanIssue := ⟨0, 3⟩

/-- Task 3 about to issue on processor 0 in a memory of four pages, its state changed; and the same as a user task. -/
def spanOn (g : TaskSt → TaskSt) : Dev := (spanReady.put Fld.MEM_SIZE_PAGES 4).onTask 3 g
def userOn (g : TaskSt → TaskSt) : Dev := ((spanOn g).putBit (Fld.SPP_TASK_USER 3) true).onTask 3 fun x => { x with pc := 0xc0000 }

/-- With rs1 = s1 as given. -/
def rs1Is (v : DWord) : TaskSt → TaskSt := fun x => { x with regs := [(1, v)] }

theorem witness_span_computes : dv.issuer si = none ∧ (spanOn id).issuer si = some 3 ∧
    (spanOn id).inRegion 3 (((spanOn id).task 3).pc + 4) = true ∧ ((spanOn (rs1Is 0)).sreg 3 2 = 0 ∧ (spanOn (rs1Is 5)).sreg 3 1 ≠ 0) ∧
    (spanOn id).taskUser 3 = false ∧ (userOn id).taskUser 3 = true ∧ (5 : BitVec 8).toNat ≤ csrAuth ∧ csrAuth < (10 : BitVec 8).toNat ∧
    (let d := spanOn (rs1Is 0x1ff8)
     spaceOf (d.spanAddr 3 1 0) = spaceBuffer ∧ d.bufFault 3 (d.spanAddr 3 1 0) 8 = none ∧ d.anyPoison 0x1ff8 8 = false ∧
       d.virgin ((d.spanAddr 3 1 0).toNat / 4096) = true) ∧
    (let d := { (spanOn (rs1Is 0x1ff8)) with mem := { (spanOn id).mem with touched := [(1, true)] } }
     d.bufFault 3 (d.spanAddr 3 1 0) 8 = none ∧ ∀ g ∈ touchedPages (d.spanAddr 3 1 0).toNat 8, d.virgin g = false) ∧
    (let d := { (spanOn (rs1Is 8)) with mem := { (spanOn id).mem with poison := [(1, true)] } }
     spaceOf (d.spanAddr 3 1 0) = spaceBuffer ∧ d.bufFault 3 (d.spanAddr 3 1 0) 4 = none ∧ d.anyPoison 8 4 = true) ∧
    spaceOf ((spanOn (rs1Is 0x900000000000ffe0)).spanAddr 3 1 0) = spaceTcm ∧
      ((spanOn (rs1Is 0x900000000000ffe0)).spanAddr 3 1 0).toNat % 32 = 0 ∧
    (let d := spanOn (rs1Is 0x8000000000020000)
     spaceOf (d.spanAddr 3 1 4) = spaceControl ∧ d.controlFault 3 (d.spanAddr 3 1 4) 4 = none ∧
       controlOff (d.spanAddr 3 1 4) ≠ Adr.LOCUS_NOW_LO ∧ controlOff (d.spanAddr 3 1 4) ≠ Adr.SPP_CNT 0 0) ∧
    ((4 : SpanReg) ≠ 0 ∧ (4 : SpanReg).val % 4 = 0) := by decide +kernel

/-- An unlisted word; that of ADD r0, r0, r0; DISP of r2 with the descriptor at r1 and kind 3. -/
theorem witness_listed : spanListed 0xffffffff = false ∧ spanListed 0 = true ∧ spanListed 0x8c410003 = true ∧
    (0x8c410003 : Word).toNat / 2 ^ 26 = 0x23 ∧ (0x8c410003 : Word).toNat % 2048 = 3 ∧
    (0x8c410003 : Word).toNat / 2 ^ 21 % 32 = 2 ∧ (0x8c410003 : Word).toNat / 2 ^ 16 % 32 = 1 := by decide +kernel

/-- Words written out from R255 and R256: ADDI r3, r1, #7 (format I), BEQ r1, r2, #3 and SD r2, 8(r1) (format S), JAL r1, #-1 (format J),
AMO CAS r3, r1, r2 and PUSH r3, r1, #5 (format A), and a FENCE whose unused FN is 1. -/
theorem test_span_words : spanCommand si 0x04610007 = .spanAddi si 3 1 7 ∧ spanCommand si 0x50410003 = .spanBeq si 1 2 3 ∧
    spanCommand si 0x34410008 = .spanSd si 2 1 8 ∧ spanCommand si 0x683fffff = .spanJal si 1 0x1fffff ∧
    spanCommand si 0x98611006 = .spanAmo si .cas 3 1 2 ∧ spanCommand si 0x84610005 = .spanPush si 5 3 1 ∧
    spanCommand si 0x70000001 = .spanIllegalOpcode si 0x70000001 := by decide +kernel

theorem witness_span_branches : (spanOn id).issuer si = some 3 ∧ (spanOn id).inRegion 3 0xbfffc = true ∧
    (spanOn id).inRegion 3 0xc0000 = false ∧ ((spanOn id).task 3).handler = 0 ∧
    (let d := spanOn fun x => { x with handler := 0x100 }
     (d.task 3).handler ≠ 0 ∧ (d.task 3).inHandler = false ∧ d.inRegion 3 (d.task 3).handler = true) ∧
    ((spanOn fun x => { x with inHandler := true }).task 3).inHandler = true ∧
    (spanOn id).inRegion 3 ((spanOn id).task 3).epc = true ∧ spanListed 0xfc000000 = false ∧ (spanOn (rs1Is 0)).sreg 3 1 = 0 ∧
    (userOn id).taskUser 3 = true ∧
    (spaceOf ((spanOn (rs1Is 0x1ffc)).spanAddr 3 1 4) = spaceBuffer ∧
      (spanOn (rs1Is 0x1ffc)).bufFault 3 ((spanOn (rs1Is 0x8000)).spanAddr 3 1 0) 8 = some causeAddr ∧
      (spanOn id).bufFault 3 1 2 = some causeAlign ∧ (userOn id).bufFault 3 0 1 = some causeDenied) ∧
    (spaceOf ((spanOn (rs1Is 0x8000000000000000)).spanAddr 3 1 2) = spaceControl ∧
      (spanOn id).controlFault 3 0x8000000000000002 4 = some causeAlign ∧ (spanOn id).controlFault 3 0x8000000000000000 8 = some causeAddr ∧
      (userOn id).controlFault 3 0x8000000000000000 4 = some causeDenied) ∧
    spaceOf ((spanOn (rs1Is 0x7fffffffffffffff)).spanAddr 3 1 0) ∉ [spaceBuffer, spaceControl, spaceTcm] ∧
    { (spanOn (rs1Is 8)) with mem := { (spanOn id).mem with poison := [(1, true)] } }.anyPoison 8 4 = true := by decide +kernel

/-- TCM in which a descriptor of 32 bytes stands at offset 0; queue 97 of 16 entries with its tail at n. -/
def described (l : List Byte) (g : TaskSt → TaskSt) : Dev := (spanOn fun x => g (rs1Is 0x9000000000000000 x)).tcmWrite 0 0 l
def queueAt (n : Nat) : Dev := ((described [] id).put (Fld.SPP_Q_LOG2_LOG2 97) 4).put (Fld.SPP_Q_PTR_TAIL 97) n
def fullLog (n : Nat) : List EffectRec := (List.range n).map fun k => ⟨k, effStamp, effectHash [0], 0⟩
def frameJob : List Byte := zeroBytes 15 ++ [0xff] ++ zeroBytes 16
def stripeJob0 : List Byte := zeroBytes 6 ++ [1] ++ zeroBytes 25
def fill64 : List Byte := [2, 0, 0, 0, 64] ++ zeroBytes 27
def copy0 (n : Nat) : DmaOp := { task := 3, tag := n, kind := dmaFillKind, notify := false, order := false, queue := 0, length := 64, src := 0,
                                 dst := 0, rcpt := 0, start := 0, esn := 0 }
def cplDesc : List Byte := [5, 0, 0, 0, 32] ++ zeroBytes 10 ++ [0x90] ++ zeroBytes 16
def flying (l : List DmaOp) (d : Dev) : Dev := { d with span := { d.span with dmas := l } }

theorem witness_span_effects : (described frameJob id).issuer si = some 3 ∧
    (described frameJob id).inRegion 3 (((described frameJob id).task 3).pc + 4) = true ∧
    Instr.dmaFill si 1 1 ∈ [Instr.dmaCopy si 1 1, .dmaFill si 1 1, .dmaHostIn si 1 1, .dmaHostOut si 1 1, .dmaCpl si 1 1] ∧
    ((described [] id).task 3).log.length < 64 ∧ inTcm ((described [] id).sreg 3 1) = true ∧
    (userQueue 111 = false ∧ userQueue 112 = true ∧ (userOn id).taskUser 3 = true) ∧
    ((queueAt 0).queueCount 97 = 0 ∧ 0 < (queueAt 1).queueCount 97 ∧ (queueAt 1).span.held = [] ∧ (queueAt 16).queueFull 97 = true ∧
      (queueAt 15).queueFull 97 = false) ∧
    (let d := (userOn (rs1Is 0x9000000000000000))
     d.taskUser 3 = true ∧ inTcm (d.sreg 3 1) = true ∧ (d.sreg 3 1).toNat % 32 = 0 ∧ d.issuer si = some 3) ∧
    (let l := (described frameJob id).tcmRead 0 0 32
     l = frameJob ∧ frameDescOk l = true ∧ frameDescOk fill64 = true ∧ frameDescOk (zeroBytes 6 ++ [8] ++ zeroBytes 25) = false ∧
       (described frameJob id).headServed 0 = true ∧ ((described frameJob id).dh 0).jobs.length < 256) ∧
    (let d := ((described stripeJob0 id).putBit (Fld.STR_CTRL_ENABLE 0) true)
     stripeDescOk (d.tcmRead 0 0 32) = true ∧ stripeDescOk (zeroBytes 32) = false ∧ d.engineFor 0 = some 0 ∧ d.freeStripe 0 = some 0) ∧
    (let d := ((described (zeroBytes 32) id).putBit (Fld.WP_CTRL_ENABLE 0) true)
     bandDescOk (d.tcmRead 0 0 32) = true ∧ bandDescOk stripeJob0 = false ∧ d.bit (Fld.WP_CTRL_ENABLE 0) = true ∧
       (d.wps 0).queue.length < 4) ∧
    (let d := (described (zeroBytes 9 ++ [0x40] ++ zeroBytes 22) id)
     d.bandRefused 0 0x4000 0 = false ∧ d.bandLate 0 0x4000 = false) ∧
    (let d := described fill64 id
     d.dmaDescOk (d.tcmRead 0 0 32) = true ∧ d.dmaDescOk frameJob = false ∧
       fieldAt (d.tcmRead 0 0 32) 0 1 ≠ dmaCplKind ∧
       (let e := described cplDesc id
        e.dmaDescOk (e.tcmRead 0 0 32) = true ∧ fieldAt (e.tcmRead 0 0 32) 0 1 = dmaCplKind) ∧
       16 ≤ ((flying ((List.range 16).map copy0) d).span.dmas.filter fun y => y.task == 3).length ∧
       (d.span.dmas.filter fun y => y.task == 3).length < 16) ∧
    (let x := (spanOn fun x => { x with log := fullLog 64, effects := 64 }).task 3
     64 ≤ x.log.length ∧ ∀ r ∈ x.log, r.num ≠ x.effects) ∧
    (let d := spanOn (rs1Is 0x1ff8)
     (d.sreg 3 1).toNat / 2 ^ 60 = 0 ∧ d.bufFault 3 (d.sreg 3 1) 8 = none ∧ d.poisoned (0x1ff8 / 8) = false ∧ d.cache.struck = [] ∧
       BitVec.ofNat 64 (leValue (d.bufRead 0x1ff8 8)) = d.sreg 3 5 ∧ BitVec.ofNat 64 (leValue (d.bufRead 0x1ff8 8)) ≠ d.sreg 3 1) ∧
    (let d := (userOn (rs1Is 3))
     ((d.sreg 3 1).toNat % 128 < 96 ∧ d.taskUser ((d.sreg 3 1).toNat % 128) = true)) ∧
    (let d := (userOn (rs1Is 96))
     ¬((d.sreg 3 1).toNat % 128 < 96 ∧ d.taskUser ((d.sreg 3 1).toNat % 128) = true)) := by decide +kernel

/-- R269: the log holds the effect of number 0 with operands of the same hash. -/
theorem witness_replay : ((spanOn fun x => { x with log := fullLog 1 }).task 3).effects = 0 ∧
    ((spanOn fun x => { x with log := fullLog 1 }).task 3).log.find? (fun y => y.num == 0) = some ⟨0, effStamp, effectHash [0], 0⟩ :=
  ⟨rfl, rfl⟩

/-- Task 3 in a state of its own. -/
def taskIn (st : Nat) (g : TaskSt → TaskSt) : Dev := (spanOn g).put (Fld.SPP_TASK_STATE 3) st
def waitingFor (mask : Nat) : TaskSt → TaskSt := fun x => { x with waiting := some (2, mask), timer := 0 }

/-- Processor 0 with a spare named. -/
def withSpare : Dev := ((spanOn id).put Fld.SPP_SPARE_FIRST 11).putMask Fld.SPP_INSERVICE_MASK 11 true

def noSpare : Dev := ((spanOn id).put Fld.SPP_SPARE_FIRST 15).put Fld.SPP_SPARE_SECOND 15

/-- CRC-32 byte by byte, each value computed before the next byte. -/
def crcSteps : List Byte → Nat → Nat
  | [], c => c
  | b :: l, c => match crc32Byte c b with
    | 0 => crcSteps l 0
    | n + 1 => crcSteps l (n + 1)

theorem crcSteps_eq (l : List Byte) (c : Nat) : crcSteps l c = l.foldl crc32Byte c := by
  induction l generalizing c with
  | nil => rfl
  | cons b l ih =>
    rw [crcSteps, List.foldl_cons]
    split <;> simp_all

/-- A checkpoint of task 3 of generation 1 in its first slot, with registers of 0; its CRC. -/
def checkpointed : Dev :=
  let d := spanOn id
  { d with mem := { d.mem with bytes := [(24576, 0x53), (24577, 0x50), (24578, 0x43), (24579, 0x4b), (24580, 3), (24584, 1),
    (24888, 63), (24889, 115), (24890, 67), (24891, 148)] } }

theorem checkpointed_bytes : checkpointed.slotBytes 3 0 =
    [0x53, 0x50, 0x43, 0x4b, 3, 0, 0, 0, 1] ++ zeroBytes 303 ++ [63, 115, 67, 148, 0, 0, 0, 0] := by decide +kernel

/-- The checkpoint up to its CRC, and the CRC before its last XOR. -/
def ckptHead : List Byte := [0x53, 0x50, 0x43, 0x4b, 3, 0, 0, 0, 1] ++ zeroBytes 303

theorem ckptHead_crc : crcSteps ckptHead 0xffffffff = 1807518912 := by decide +kernel

theorem checkpointed_valid : checkpointed.slotValid 3 0 = true := by
  have head : (checkpointed.slotBytes 3 0).take 312 ++ (checkpointed.slotBytes 3 0).drop 320 = ckptHead := by decide +kernel
  have crc : ckptCrc (checkpointed.slotBytes 3 0) = 2487448383 := by
    rw [ckptCrc, crc32, head, ← crcSteps_eq, ckptHead_crc]
    decide
  simp only [Dev.slotValid, crc]
  decide +kernel

theorem witness_span_restart : checkpointed.slotGen 3 0 ≠ 0 ∧ checkpointed.slotGen 3 1 ≤ checkpointed.slotGen 3 0 := by
  have other : checkpointed.slotValid 3 1 = false := by decide +kernel
  simp only [Dev.slotGen, checkpointed_valid, other, checkpointed_bytes]
  decide +kernel

theorem witness_span_waits : ((spanOn (rs1Is 4)).issuer si = some 3 ∧ (spanOn (rs1Is 4)).sreg 3 1 ≠ 0 ∧
      (spanOn (rs1Is 4)).inRegion 3 (((spanOn (rs1Is 4)).task 3).pc + 4) = true) ∧
    (spanOn (rs1Is 4)).waitSources 3 &&& 4 ≠ 0 ∧ (spanOn (rs1Is 2)).waitSources 3 &&& 2 = 0 ∧ ((spanOn id).task 3).waiting = none ∧
    (let d := taskIn taskWaiting (waitingFor 4)
     (d.task 3).waiting = some (2, 4) ∧ d.waitSources 3 &&& 4 ≠ 0 ∧ d.taskState 3 = taskWaiting ∧ d.inRegion 3 ((d.task 3).pc + 4) = true) ∧
    (taskIn taskWaiting (waitingFor 2)).waitSources 3 &&& 2 = 0 ∧
    ((spanOn id).taskLive 3 = true ∧ (spanOn id).taskState 3 = taskRunning ∧ ((spanOn id).task 3).ckpt = none) ∧ dv.taskLive 3 = false ∧
    (let k : CkptRun := ⟨1, 0, zeroBytes 320⟩
     let d := spanOn fun x => { x with ckpt := some k }
     (d.task 3).ckpt = some k ∧ d.cache.struck = [] ∧ (d.mail 3).held = [] ∧ k.bytes.length % 64 = 0 ∧
       d.slotAddr 3 k.slot + k.bytes.length ≤ 2 ^ 34) ∧
    (taskIn taskRestarting id).taskState 3 = taskRestarting ∧ (taskIn taskRestarting id).slotGen 3 0 = 0 ∧
    (taskIn taskRestarting id).slotGen 3 1 = 0 := by decide +kernel

/-- Transfers of task 3: alone, behind an earlier one under ORDER, with a record that its mailbox has no room for, of the kinds FILL and
CPL, the latter's pair on and off, its ring full and not, and one whose host read has failed before. -/
theorem witness_span_transfers : (dv.findDma 3 1 = none) ∧
    (let d := flying [copy0 1] dv
     d.findDma 3 1 = some (copy0 1) ∧ (∀ y ∈ d.span.dmas, y.task = 3 → y.tag = 1 → y = copy0 1) ∧ d.dmaBlocked (copy0 1) = false ∧
       (copy0 1).kind ∈ [dmaCopyKind, dmaFillKind, dmaInKind, dmaOutKind] ∧ (copy0 1).kind = dmaFillKind ∧ (copy0 1).dst % 64 = 0 ∧
       (copy0 1).length % 64 = 0 ∧ (copy0 1).notify = false ∧ (copy0 1).retried = false ∧ { copy0 1 with retried := true }.retried = true) ∧
    (flying [copy0 1, { copy0 2 with order := true }] dv).dmaBlocked { copy0 2 with order := true } = true ∧
    ({ copy0 1 with notify := true }.notify = true ∧ dv.mailRoom 3 = true ∧ (fullMail 3).mailRoom 3 = false) ∧
    (let op : DmaOp := { copy0 1 with kind := dmaCplKind }
     let on := (dv.putBit (Fld.HQ_QP_CFG_EN 0) true).put (Fld.HQ_QP_CFG_CQ_LOG2 0) 4
     op.kind = dmaCplKind ∧ on.pairOn op.queue = true ∧ dv.pairOn op.queue = false ∧ on.cqFull op.queue = false ∧ on.host.held = [] ∧
       (on.put (Fld.HQ_QP_STATUS_CQ_TAIL 0) 15).cqFull op.queue = true) := by decide +kernel

theorem witness_span_faults : ((spanOn id).bit (Fld.SPP_STATUS_FAULT 0) = false ∧ (spanOn id).dead 8 0 = false) ∧
    ((spanOn id).putBit (Fld.SPP_STATUS_FAULT 0) true).bit (Fld.SPP_STATUS_FAULT 0) = true ∧
    (spanOn id).tasksOf 0 = [3] ∧ withSpare.spareFor 0 [3] = some 11 ∧ noSpare.spareFor 0 [3] = none ∧
    ((spanOn id).taskIn 0 3 = some 3 ∧ (spanOn id).taskIn 0 4 = none ∧ (taskIn taskWaiting id).taskIn 0 3 = some 3 ∧
      (taskIn taskWaiting id).taskState 3 ≠ taskRunning) := by decide +kernel

/-! ## Cache and memory -/

/-- A memory of four pages written in its first; the cache in service. -/
def memOn : Dev :=
  let d := dv.put Fld.MEM_SIZE_PAGES 4
  { d with mem := { d.mem with touched := [(0, true)] } }
def cached (b : CacheLine) : Dev :=
  let d := memOn.putBit Fld.CACHE_STATUS_ENABLED true
  { d with cache := { d.cache with frames := [(0, { line := some b })] } }
def cleanLine : CacheLine := { tag := 0, valid := 1 }
def dirtyLine : CacheLine := { tag := 0, valid := 1, dirty := 1 }
def fr0 : FrameRef := ⟨0, 0, 0⟩
def reqOf (a : BitVec 34) (l : Option (List Byte)) (n : Nat) (r : Fin 16) : CacheReq := ⟨r, a, n, l, none⟩
def mask0 (d : Dev) : Dev := (d.put (Fld.CACHE_MASK_MASK 0) 0xffff).putBit (Fld.CACHE_MASK_ALLOC 0) true
def noAlloc (d : Dev) : Dev := d.putBit (Fld.CACHE_MASK_ALLOC 0) false
def flag (f : Field) : Dev := dv.putBit f true
abbrev piece0 : CachePiece := { line := 0, sub := 0, byte := 0, len := 64, store := none }
def wornLine : Dev :=
  let d := cached cleanLine
  { d with cache := { d.cache with frames := [(0, { line := some cleanLine, errors := 2 })] } }

theorem witness_cache_pieces : cachePieces (reqOf 0 none 64 0) = [piece0] ∧
    cachePieces (reqOf 0 (some (zeroBytes 64)) 0 0) = [{ piece0 with store := some (zeroBytes 64) }] := ⟨rfl, rfl⟩

theorem witness_cache_single : (∀ x < 16, ∀ y < 16, ((cached cleanLine).frame x).line.any (fun l => l.tag == 0) = true →
      ((cached cleanLine).frame y).line.any (fun l => l.tag == 0) = true → x = y) := by decide +kernel

theorem witness_cache : (memOn.cache.struck = [] ∧ ((cached cleanLine).frame 0).twin = false ∧ (0 : Nat) ∉ memOn.cache.struck ∧ partnerKey 0 ∉ memOn.cache.struck ∧
      cleanLine.dirty.getLsbD 0 = false ∧ (0 : Nat) < piece0.len ∧ frameRefKey fr0 = 16 * lineSet 0 + 0) ∧ ¬(0x3ffffffff + 1 ≤ memOn.fld Fld.MEM_SIZE_PAGES * pageBytes) ∧
    (0x3fff + 1 ≤ memOn.fld Fld.MEM_SIZE_PAGES * pageBytes ∧ (reqOf 0x3fff (some [1]) 0 0).store = some [1] ∧
      (reqOf 0x3fff none 1 0).store = none ∧ memOn.bit Fld.CACHE_STATUS_ENABLED = false) ∧
    ((cached cleanLine).bit Fld.CACHE_STATUS_ENABLED = true ∧ (cached cleanLine).bit Fld.CACHE_STATUS_DISABLE_PENDING = false) ∧
    (cached cleanLine).hitWay piece0 = some 0 ∧ (mask0 (memOn.putBit Fld.CACHE_STATUS_ENABLED true)).hitWay piece0 = none ∧
    (dv.pieceVirgin piece0 = true ∧ (noAlloc memOn).fillWay 0 piece0 = none ∧ (mask0 memOn).pieceVirgin piece0 = false ∧
      (mask0 memOn).fillWay 0 piece0 ≠ none) ∧
    ((mask0 (cached cleanLine)).allocates 0 = true ∧ ((cached cleanLine).frame 0).line = some cleanLine ∧
      ((cached cleanLine).frame (partnerKey 0)).off = false ∧ (noAlloc memOn).allocates 0 = false ∧ piece0.len = 64) ∧
    (dv.frame (frameRefKey fr0)).line = none ∧ ((cached cleanLine).frame (frameRefKey fr0)).line = some cleanLine ∧
    (cleanLine.valid.getLsbD 0 = true ∧ cleanLine.dirty.getLsbD 0 = false ∧ dirtyLine.dirty.getLsbD 0 = true ∧
      ((cached dirtyLine).frame (frameRefKey fr0)).line = some dirtyLine ∧ ((cached dirtyLine).frame (frameRefKey fr0)).errors < 2) ∧
    (2 ≤ (wornLine.frame (frameRefKey fr0)).errors ∧ 0 < wornLine.fld (Fld.CACHE_SPARE_FREE 0) ∧
      (wornLine.put (Fld.CACHE_SPARE_FREE 0) 0).fld (Fld.CACHE_SPARE_FREE 0) = 0) ∧
    (dv.putBit Fld.CACHE_CTRL_ENABLE false).bit Fld.CACHE_CTRL_ENABLE = false ∧ (flag Fld.CACHE_CTRL_ENABLE).bit Fld.CACHE_CTRL_ENABLE = true ∧
    dv.mayWrite .hardware = true ∧ dv.mayWrite .service = false ∧
    (flag Fld.CACHE_STATUS_DISABLE_PENDING).bit Fld.CACHE_STATUS_DISABLE_PENDING = true ∧
    (fieldOf (0x80000001 : Word) 31 1 = 1 ∧ (flag (Fld.CACHE_RSV_EN 0)).bit (Fld.CACHE_RSV_EN 0) = true ∧
      (flag (Fld.CACHE_RSV_EN 0)).fld (Fld.CACHE_RSV_REQ 0) ≠ fieldOf (0x80000001 : Word) 0 4) := by decide +kernel

def poisonedWord : Dev := { memOn with mem := { memOn.mem with poison := [(0, true)] } }

theorem witness_memory : dv.usable 0x1fffffff = false ∧ (memOn.usable 0 = true ∧ memOn.usable 2047 = true ∧ memOn.upset 0 = 0 ∧
      memOn.poisoned 0 = false ∧ memOn.virgin 0 = false) ∧
    (poisonedWord.usable 0 = true ∧ poisonedWord.virgin 0 = false ∧ poisonedWord.poisoned 0 = true ∧ poisonedWord.mem.upsets = []) ∧
    (memOn.usable 512 = true ∧ memOn.virgin 1 = true ∧ memOn.poisoned 512 = false ∧ memOn.upset 512 = 0 ∧ memOn.memWord 512 = 0) ∧
    ([1] : List DWord) ≠ [] ∧ memOn.usable (2047 + [(1 : DWord)].length - 1) = true ∧
    memOn.usable (0x1fffffff + [(1 : DWord)].length - 1) = false ∧
    (1 ≤ (([1, 2] : List Byte).take (8 - (7 : Fin 8).val)).length ∧ (([1, 2] : List Byte).take (8 - (7 : Fin 8).val)).length < 8 ∧
      ((zeroBytes 9).take (8 - (0 : Fin 8).val)).length = 8) ∧
    0 ∉ dv.mem.retiring ∧ 3 ∈ { dv.mem with retiring := [3] }.retiring ∧ dv.virgin (dv.fld Fld.MEM_PATROL_POS_PAGE) = true ∧
    dv.bit Fld.MEM_STATUS_WS_READY = false ∧ ((flag Fld.MEM_STATUS_WS_READY).bit Fld.MEM_STATUS_WS_READY = true ∧
      (flag Fld.MEM_STATUS_WS_READY).bit Fld.MEM_STATUS_SCRUB_DONE = false) ∧
    (dv.mem.wf = true ∧ Instr.bucketLeak ∈ [Instr.bucketLeak]) := by decide +kernel

/-- Copy 1 of a unit has disagreed at 5 µs; it is retired. -/
def disagreed (unit : Nat) (d : Dev) : Dev := { d with copies := { d.copies with last := [(2 * unit + 1, 6)] } }
def retired1 (unit : Nat) (d : Dev) : Dev := { d with copies := { d.copies with retired := [(unit, 2)] } }

theorem witness_compared : (memOn.usable 32 = true ∧ memOn.channelOf 32 = 1 ∧ memOn.retiredCopy 1 = none) ∧
    Tab.get (fun _ => 0) memOn.copies.last (2 * 1 + 1) = 0 ∧ (retired1 1 memOn).retiredCopy 1 = some 1 ∧
    (let d := disagreed 1 { memOn with locus := { memOn.locus with micros := 1006 } }
     Tab.get (fun _ => 0) d.copies.last (2 * 1 + 1) + 999 < d.locus.micros) ∧
    (let d := disagreed 1 { memOn with locus := { memOn.locus with micros := 1005 } }
     Tab.get (fun _ => 0) d.copies.last (2 * 1 + 1) ≠ 0 ∧ d.locus.micros ≤ Tab.get (fun _ => 0) d.copies.last (2 * 1 + 1) + 999) := by
  decide +kernel

/-! ## The host attachment -/

/-- Engines 0 to 5 lead and check the three pairs, and a disc is loaded. -/
def discIn (d : Dev) : Dev :=
  let d := (List.range 6).foldl (fun d e => (d.put (Fld.ARC_CTRL_PAIR e) (e / 2)).put (Fld.ARC_CTRL_ROLE e) (1 + e % 2)) d
  { d with medium := { present := true, layers := [(0, { valid := true })] } }

/-- Pair 0 enabled with rings of 16 entries; an entry placed at host address 0; both. -/
def qpOn (d : Dev) : Dev :=
  (((d.putBit Fld.HQ_CTRL_ENABLE true).putBit (Fld.HQ_QP_CFG_EN 0) true).put (Fld.HQ_QP_CFG_SQ_LOG2 0) 4).put (Fld.HQ_QP_CFG_CQ_LOG2 0) 4
def placed (l : List Byte) (d : Dev) : Dev := (d.setSqTail 0 1).hostWrite 0 l
def fetching (l : List Byte) : Dev := (placed l (qpOn dv)).put (Fld.SPP_Q_LOG2_LOG2 0) 4

/-- An entry of 64 bytes: OPCODE, TAG 7, NSID 1, LBA, NLB, its chain at 0x1000, and ARGS. -/
def entryOf (op : Byte) (lba nlb : Nat) (args : List Byte) : List Byte :=
  [op, 0, 7, 0, 1, 0, 0, 0] ++ leBytes 8 lba ++ leBytes 4 nlb ++ zeroBytes 4 ++ leBytes 8 0x1000 ++ bytesAt args 0 32

/-- A command in flight on pair 0; a chain list of one page at 0x2000 in host memory. -/
def cmdOf (op : Byte) (nlb : Nat) (args : List Byte) : HostCmd := ⟨0, 7, entryOf op 0 nlb args, 5, 3, none, false⟩
def flight (x : HostCmd) (d : Dev) : Dev :=
  ((qpOn d).onHost fun h => { h with cmds := h.cmds ++ [x] }).hostWrite 0x1000 (leBytes 8 0x2000 ++ leBytes 4 1 ++ zeroBytes 4)
def c7 : CmdRef := ⟨0, 7⟩

def qpWord (sq cq : Nat) : Word := BitVec.ofNat 32 (sq + 256 * cq)
def quiet (f : HostSt → HostSt) : Dev := dv.onHost f

theorem witness_queues : (dv.bit (Fld.HQ_QP_CFG_EN 0) = false ∧ (qpOn dv).bit (Fld.HQ_QP_CFG_EN 0) = true) ∧
    ((qpOn dv).bit Fld.HQ_CTRL_ENABLE = true ∧ fieldOf (qpWord 4 4) 0 4 = 4 ∧ fieldOf (qpWord 10 10) 8 4 = 10 ∧
      fieldOf (qpWord 3 4) 0 4 = 3 ∧ fieldOf (qpWord 5 4) 8 4 = 4) ∧
    ((flight (cmdOf 3 0 []) dv).pairBusy 0 = true ∧ (qpOn dv).pairBusy 0 = false) ∧
    ((qpOn dv).sqSize 0 ≤ (16 : Word).toNat ∧ (15 : Word).toNat < (qpOn dv).sqSize 0) ∧
    ((qpOn dv).cqSize 0 ≤ (16 : Word).toNat ∧
      ((qpOn dv).fld (Fld.HQ_QP_STATUS_CQ_TAIL 0) + (qpOn dv).cqSize 0 - (qpOn dv).cqHead 0) % (qpOn dv).cqSize 0 <
        ((1 : Word).toNat + (qpOn dv).cqSize 0 - (qpOn dv).cqHead 0) % (qpOn dv).cqSize 0) ∧
    (dv.fetchStopped = true ∧ (qpOn dv).nextPair = none ∧ (fetching (entryOf 3 0 0 [])).fetchStopped = false ∧
      (fetching (entryOf 3 0 0 [])).nextPair = some (0, 1) ∧ (fetching (entryOf 3 0 0 [])).host.turn < 64) ∧
    ((flight (cmdOf 3 0 []) (fetching (entryOf 3 0 0 []))).host.cmds.any (fun x => x.qp == 0 && x.tag == 7)) = true ∧
    (1 ≤ entOpcode (entryOf 12 0 0 [4]) ∧ entOpcode (entryOf 12 0 0 [4]) ≤ 0xc ∧ roleOperator < roleNeeded (entryOf 12 0 0 [4]) ∧
      entOpcode (entryOf 0 0 0 []) = 0 ∧ 0xc < entOpcode (entryOf 0xd 0 0 [])) ∧
    (dv.fld (Fld.HQ_QP_COAL_COAL_US 0) = 0 ∧ (dv.put (Fld.HQ_QP_COAL_COAL_US 0) 1).fld (Fld.HQ_QP_COAL_COAL_US 0) ≠ 0 ∧
      Tab.get (fun _ => 0) (quiet fun h => { h with unsignalled := [(0, 1)] }).host.unsignalled 0 ≠ 0) ∧
    (dv.bit Fld.HQ_STATUS_RESETTING = false ∧ (flag Fld.HQ_STATUS_RESETTING).bit Fld.HQ_STATUS_RESETTING = true) ∧
    (dv.fld Fld.HQ_STATUS_PS < 3 ∧ 3 ≤ (dv.put Fld.HQ_STATUS_PS 3).fld Fld.HQ_STATUS_PS) ∧
    (dv.host.d3hot = false ∧ (quiet fun h => { h with d3hot := true }).host.d3hot = true) ∧
    (let d := quiet fun h => { h with powerIdle := 2 ^ 32 + 1 }
     d.host.powerIdle / 2 ^ 32 ≠ 0 ∧ d.host.powerIdle % 2 ^ 32 ≠ 0 ∧ d.host.cmds = [] ∧ d.host.entry = none ∧ d.fld Fld.HQ_STATUS_PS < 1) ∧
    (dv.host.entry = none ∧ (quiet fun h => { h with entry := some ⟨2, none, true⟩ }).host.entry = some ⟨2, none, true⟩ ∧
      dv.supplyFailed = false) := by decide +kernel

def failed (d : Dev) : Dev := { d with pwr := { d.pwr with failing := true } }
def ns1 : NsExtent := ⟨1, 0, 0, 0, 0, 2, false, false, 0⟩
def withNs (d : Dev) : Dev := (discIn d).onHost fun h => { h with ns := [ns1] }
def mapped (d : Dev) : Dev := (withNs d).onHost fun h => { h with blocks := [(2 ^ 40, ⟨3, 5, true⟩)] }

theorem witness_read_block : (flight (cmdOf 1 1 []) (withNs dv)).readBlock 1 0 [] = some (zeroBytes 4096) ∧
    (zeroBytes 4096).length = 4096 := by
  have never : (flight (cmdOf 1 1 []) (withNs dv)).stagedBlock 1 0 = none := by decide +kernel
  have place : (flight (cmdOf 1 1 []) (withNs dv)).blockPlace 1 0 = some (ns1, 0, 0) := by decide +kernel
  have zero : Tab.get (fun _ => false) (flight (cmdOf 1 1 []) (withNs dv)).host.written (mapKey ns1 0) = false := by decide +kernel
  refine ⟨?_, List.length_replicate⟩
  rw [Dev.readBlock, never, place]
  simp only [zero, Bool.not_false, if_true]

theorem witness_host_commands : dv.findCmd c7 = none ∧ (flight (cmdOf 1 1 []) dv).findCmd c7 = some (cmdOf 1 1 []) ∧
    ((cmdOf 1 1 []).verdict = none ∧ entOpcode (cmdOf 1 1 []).entry = 1 ∧ { cmdOf 1 1 [] with verdict := some ⟨1, 0, 0⟩ }.verdict = some ⟨1, 0, 0⟩) ∧
    (flight (cmdOf 1 1 []) (flag Fld.HQ_STATUS_RESETTING)).bit Fld.HQ_STATUS_RESETTING = true ∧
    ((flight (cmdOf 1 1 []) (withNs dv)).outOfService (cmdOf 1 1 []) = false ∧ (withNs dv).ps ≠ 1 ∧ (withNs dv).ps ≠ 2 ∧
      (flight (cmdOf 1 1 []) (withNs dv)).chainPages 0x1000 1 = some [0x2000] ∧
      (flight (cmdOf 1 1 []) ((withNs dv).onHost fun h => { h with ns := [ns1] })).chainPages 0x3000 1 = none) ∧
    (flight (cmdOf 1 1 []) (dv.onHost fun h => { h with ns := [ns1] })).outOfService (cmdOf 1 1 []) = true ∧
    (let d := flight (cmdOf 1 1 []) (withNs dv)
     (d.msixWord 3).toNat % 2 = 1 ∧
       d.cqBase 0 + 32 * d.fld (Fld.HQ_QP_STATUS_CQ_TAIL 0) + 32 ≤ 0x2000 ∧ entLba (cmdOf 1 1 []).entry = 0 ∧ entLba (cmdOf 2 1 []).entry < 2 ^ 40 ∧
       entNlb (cmdOf 1 1 []).entry = 1) ∧
    (flight (cmdOf 1 1 []) ((withNs dv).onHost fun h => { h with written := [(0, true)] })).readBlock 1 0 [⟨0, [], 1⟩] = none ∧
    ((failed dv).supplyFailed = true ∧ (5 : Nat).testBit 0 = true) ∧
    (((mapped dv).host.blocks.find? fun e => e.1 == blockKey 1 0).all (fun e => decide (e.2.rcpt.toNat ≤ (cmdOf 2 1 []).rcpt.toNat)) = true ∧
      ((mapped dv).host.blocks.find? fun e => e.1 == blockKey 1 0).isSome = true) ∧
    (dv.spinStarting = false ∧ ((dv.onSpn fun x => { x with held := true }).spinStarting = true) ∧
      ¬((cmdOf 1 1 []).rcpt.toNat < dv.mot.spn.failedAt.toNat) ∧
      (cmdOf 1 1 []).rcpt.toNat < (dv.onSpn fun x => { x with failedAt := 9 }).mot.spn.failedAt.toNat) ∧
    (let d := flight { cmdOf 2 1 [] with rcpt := 4, tag := 8 } (flight (cmdOf 3 0 []) dv)
     d.flushWaits (cmdOf 3 0 []) = true ∧ dv.flushWaits (cmdOf 3 0 []) = false ∧ (flag Fld.MON_THERM_TRIP).bit Fld.MON_THERM_TRIP = true ∧
       dv.bit Fld.MON_THERM_TRIP = false) ∧
    (let y : HostCmd := { cmdOf 3 0 [] with tag := 9, rcpt := 6, qp := 1 }
     let x := cmdOf 4 0 [1, 0, 9, 0]
     let d := (flight y (flight x dv)).put (Fld.HQ_QP_CFG_CQ_LOG2 1) 4
     entArg x.entry 0 2 = 1 ∧ entArg x.entry 2 2 = 9 ∧ d.host.cmds.find? (fun z => z.qp == 1 && z.tag == 9) = some y ∧
       (flight x dv).host.cmds.find? (fun z => z.qp == 1 && z.tag == 9) = none ∧ d.reserved y = false ∧ entOpcode y.entry ≠ 4 ∧
       (d.onHost fun h => { h with held := [⟨1, 9, ⟨0, 0, 0⟩, false, 6, none⟩] }).reserved y = true ∧ y.qp ≠ x.qp ∧ y.qp < 64 ∧
       d.cqFull 1 = false ∧ d.cqFull 0 = false ∧ d.host.held = []) ∧
    entOpcode { cmdOf 4 0 [] with tag := 9 }.entry = 4 ∧
    (entArg (cmdOf 5 0 [1]).entry 0 1 = 1 ∧ entArg (cmdOf 5 0 [0xf]).entry 0 1 = 0xf ∧ dv.host.test.running = false ∧
      (quiet fun h => { h with test := { running := true } }).host.test.running = true ∧ dv.noMedium 0 = true ∧
      (discIn dv).noMedium 0 = false) ∧
    ((withNs dv).noDiscFor ((withNs dv).extents 1) = false ∧ (dv.onHost fun h => { h with ns := [ns1] }).noDiscFor [ns1] = true) ∧
    ((discIn dv).checkExtents (zeroBytes 4096) [ns1] = none ∧
      (discIn dv).checkExtents (zeroBytes 4096) [{ ns1 with count := 0 }] = some (badField 24 rsRange)) ∧
    (let d := flight { cmdOf 2 1 [] with tag := 8, rcpt := 6 } (flight (cmdOf 7 0 []) dv)
     ((d.others (cmdOf 7 0 [])).any fun y => decide (entOpcode y.entry ≤ 3) && entNsid y.entry == 1 && y.verdict.isNone) = true) ∧
    (let d := flight { cmdOf 8 0 [] with tag := 8, rcpt := 6 } (flight (cmdOf 8 0 []) dv)
     ((d.others (cmdOf 8 0 [])).any fun y => entOpcode y.entry == 8 && y.verdict.isNone && decide ((5 : Esn).toNat < y.rcpt.toNat)) = true) ∧
    (entArg (cmdOf 8 0 [2]).entry 0 1 ≠ 0 ∧ entArg (cmdOf 8 0 []).entry 0 1 = 0 ∧ dv.ps = 0) := by decide +kernel

/-- A live user task 90 whose code stands at 0. -/
def userLive : Dev := (dv.putBit (Fld.SPP_TASK_LIVE 90) true).onHost fun h => { h with userCode := [(90, (0, 64))] }
def nonce7 : NonceSt := ⟨7, 0, List.replicate 48 0, none⟩

theorem witness_settings : ((flight (cmdOf 10 1 []) dv).findCmd c7 = some (cmdOf 10 1 []) ∧ entOpcode (cmdOf 0xb 0 []).entry = 0xb ∧
      dv.ps ≠ 1) ∧ entArg (cmdOf 0xb 0 [1, 1]).entry 1 1 = 1 ∧ entArg (cmdOf 0xb 0 [2]).entry 1 1 ≠ 1 ∧
    (1 ≤ entArg (cmdOf 0xb 0 [4, 0, 0, 0, 0, 0, 0, 0, 15]).entry 8 1 ∧ entArg (cmdOf 0xb 0 [4, 0, 0, 0, 0, 0, 0, 0, 15]).entry 8 1 ≤ 15) ∧
    { dv.spr with cycle := some ⟨1, 0, false, ⟩ }.cycle.isSome = true ∧
    ({ dv.sec with lockAuth := some 2 }.lockAuth = some (entArg (cmdOf 0xb 0 [6, 0, 0, 0, 0, 0, 0, 0, 2]).entry 8 8) ∧
      dv.sec.lockAuth ≠ some 0) ∧
    (userLive.userOverlap 63 1 ≠ [] ∧ userLive.userOverlap 64 1 = [] ∧ (entArg (cmdOf 9 1 [1, 2]).entry 1 1).testBit 1 = true ∧
      (entArg (cmdOf 9 1 [1, 1, 90]).entry 1 1).testBit 0 = true ∧ entArg (cmdOf 9 1 [1, 1, 90]).entry 2 1 < 96) ∧
    ((flight (cmdOf 12 1 [1]) dv).chainPages 0x1000 1 = some (0x2000 :: []) ∧ (flight (cmdOf 12 0 [1]) dv).chainPages 0x1000 0 = some [] ∧
      dv.sec.nonces.length < 8) ∧
    dv.tokenCheck (.pair 0) (dv.hostRead 0x2000 512) ≠ 0 ∧
    (dv.grantEnd .bar0 = 0 ∧ { dv with sec := { dv.sec with grants := [(64, 1)] } }.grantEnd .bar0 ≠ 0) ∧
    ((∀ n ∈ dv.sec.nonces, n.id ≠ (7 : Word).toNat) ∧ nonce7 ∈ { dv.sec with nonces := [nonce7] }.nonces ∧ nonce7.id = (7 : Word).toNat) ∧
    (dv.sec.audit.unwritten = [] ∧ { dv.sec.audit with unwritten := [[1]] }.unwritten = [[1]]) := by decide +kernel

/-! ## KD mode -/

/-- KD mode with a medium of 42 sectors, captured and at speed. -/
def kdOn (g : KdSt → KdSt) : Dev :=
  let d := ((discIn kdv).putBit Fld.MOT_STATUS_AT_SPEED true).onHead 0 fun x => { x with captured := true }
  d.onKd fun k => g { k with present := true, sectors := 42, next := 21 }
def calibrated16 : KdWritten := ⟨[], Vector.replicate 16 0, Vector.replicate 16 0⟩
def answer0 (failed : List Nat) (r : Bool) : KdAnswer := ⟨[List.replicate 2048 1], failed, r⟩

theorem witness_kd_start_again :
    (let d := ((kdOn fun k => k).onSpn fun x => { x with failed := true }).putBit Fld.MOT_STATUS_AT_SPEED false
     let e := (d.put Fld.SPN_TARGET_TARGET 3600).put Fld.SPN_LIMIT_SPN_MAX 5000
     e.mot.spn.failed = true ∧ e.kd.present = true ∧ e.bit Fld.MON_THERM_TRIP = false ∧ e.pairUnfilled 0 = false ∧ e.pairUnfilled 2 = false ∧
       e.ps = 0 ∧ e.kdStarting = true ∧ e.spnState = spnOff ∧ e.mot.spn.held = false ∧ e.fld Fld.SPN_TARGET_TARGET ≠ 0 ∧
       e.fld Fld.SPN_TARGET_TARGET ≤ e.fld Fld.SPN_LIMIT_SPN_MAX ∧ e.kd.attention = none ∧ (kdOn id).mot.spn.failed = false) := by decide +kernel

theorem witness_kd_commands : ((kdOn id).mode = 2 ∧ (kdOn id).bit Fld.HQ_STATUS_RESETTING = false ∧
      (kdOn id).bit Fld.HQ_STATUS_QUIESCED = false ∧ (kdOn id).kd.attention = none ∧ (kdOn id).kdNoMedium = false ∧ (kdOn id).ps ≠ 1 ∧
      (kdOn id).ps ≠ 2 ∧ (kdOn id).kdStarting = false) ∧ nat'.mode ≠ 2 ∧ (kdOn fun k => { k with attention := some 0x29 }).kd.attention = some 0x29 ∧
    kdv.kdNoMedium = true ∧ (kdOn id |>.putBit Fld.MOT_STATUS_AT_SPEED false).kdStarting = true ∧
    (calibrated16.cut = [] ∧ (kdOn id).kdStands = none) ∧
    (cdbField [0x12, 0, 0] 1 1 % 2 = 0 ∧ cdbField [0x12, 1, 0x80] 1 1 % 2 = 1 ∧ cdbField [0x12, 1, 0x80] 2 1 = 0x80 ∧
      cdbField [0x12, 0, 1] 2 1 ≠ 0 ∧ cdbField [0x12, 1, 1] 2 1 ∉ [0, 0x80, 0x83]) ∧
    (64 ≤ cdbField [0x1b, 0, 0, 0, 64] 4 1 ∧ cdbField [0x1b, 0, 0, 0, 2] 4 1 / 16 = 0 ∧ cdbField [0x1b, 0, 0, 0, 2] 4 1 / 2 % 2 = 1 ∧
      cdbField [0x1b, 0, 0, 0, 1] 4 1 / 2 % 2 = 0 ∧ cdbField [0x1b, 1, 0, 0, 0x30] 4 1 / 16 = 3 ∧ cdbField [0x1b, 1] 1 1 % 2 = 1) ∧
    ((kdOn id).kd.sectors < 42 + 1 ∧ 41 + 1 ≤ (kdOn id).kd.sectors) ∧
    (cdbField [0x5a, 0, 0x3f] 2 1 % 64 ∈ [1, 0x1a, 0x2a, 0x3f] ∧ cdbField [0x5a, 0, 2] 2 1 % 64 ∉ [1, 0x1a, 0x2a, 0x3f]) ∧
    (modePages 9 [] = some [] ∧ modePages 5 [1, 2, 4, 3] = some [[1, 2, 4, 3]] ∧ modePages 3 [2, 0] = none) ∧
    ((kdOn id).kdSectorAt 0 0 (answer0 [0] false) = none ∧ (kdOn id).kdSectorAt 0 0 (answer0 [] true) ≠ none ∧
      (kdOn fun k => { k with per := true }).kd.per = true) ∧
    (20 < (kdOn id).kd.next ∧ (kdOn id).kd.next ≤ 21 ∧ (failed (kdOn id)).supplyFailed = true ∧ (kdOn id).supplyFailed = false ∧
      cdbFua [0x2a, 8] = true ∧ cdbFua [0x2a, 0] = false ∧ ([zeroBytes 2048] : List (List Byte)).length = cdbField [0x2a, 0, 0, 0, 0, 21, 0, 0, 1] 7 2 ∧
      ([zeroBytes 2048] : List (List Byte)).length = cdbField [0xaa, 0, 0, 0, 0, 21, 0, 0, 0, 1] 6 4) ∧
    ((zeroBytes 240).length = 240 ∧ (List.replicate 21 ([] : List Byte)).length = 21) ∧ scsiOpcodes.contains (cdbField [1] 0 1) = false := by
  decide +kernel

/-- Laying a block that a guard cuts when the list is full answers that it has no room. -/
theorem kdLayBlock_full (d : Dev) (b : Nat) (l : List (List Byte)) (g : KdGuard) (cs : List (Option KdGuard))
    (h : kdReplacements ≤ (d.kdSwap.kdCut g).kd.replaced.length) : (d.kdLayBlock b l false (some g :: cs)).2.2 = false := by
  simp [Dev.kdLayBlock, h]

/-- A staged sector, a guard that stands and a replacement list without room. -/
def kdFull : Dev :=
  (kdOn fun k => { k with staged := [(21, 1)], replaced := List.replicate kdReplacements (0, 0) }).onWp 0 fun x => { x with track := true }

theorem witness_kd_full : (kdFull.kdSettle 21 1 true).2 = false := by
  have hs : kdFull.kd.staged = [(21,1)] := rfl
  have hf : kdFull.supplyFailed = false := by decide +kernel
  have hn : kdFull.kd.next = 21 := rfl
  have hst : kdFull.kdStands = some .track := by decide +kernel
  have hr : (kdFull.kdSwap.kdCut .track).kd.replaced = List.replicate kdReplacements (0, 0) := rfl
  have h : ∀ l, (kdFull.kdLayBlock 1 l false [some .track]).2.2 = false := fun l => kdLayBlock_full kdFull 1 l .track [] (by simp [hr])
  simp [Dev.kdSettle, hs, hf, Dev.kdRecord, hn, hst, leastOf, h]
  rw [if_pos (Or.inr ⟨0, by decide, by decide⟩)]

theorem witness_kd_staged : (∀ e ∈ (kdOn fun k => { k with staged := [(21, 1)] }).kd.staged, (kdOn id).kd.next ≤ e.1 ∧ e.2 ≠ 0) ∧
    ((kdOn id).kd.staged.map (·.2)).Nodup ∧ ((kdOn id).kdSettle 0 1 true).2 = true := by decide +kernel

def kdRows (n : Nat) (g : KdSt → KdSt) : Dev := kdOn fun k => g { k with inBlock := true, rows := List.replicate n none }

theorem witness_kd_medium : dv.mode ≠ 2 ∧ kdv.mode = 2 ∧ ((kdOn fun k => { k with suspended := true }).kd.suspended = true ∧ kdv.kd.suspended = false) ∧
    (fieldAt [0, 9, 1, 0, 0, 0, 0, 0] 1 1 = 9 ∧ fieldAt [0, 9, 1, 0, 0, 0, 0, 0] 2 2 ≤ 1 ∧
      fieldAt [1, 11, 1, 0, 0, 0, 0, 0] 1 1 = 11 ∧ (kdOn fun k => { k with config := 1 }).kd.config = 1) ∧ kdv.kdNoMedium = true ∧
    (kdOn id).kdNoMedium = false ∧ (255 < 256 ∧ 256 ≤ 256) ∧
    ((kdv.put (Fld.CHN_CTRL_MODE 4) 3).sliceMode 4 ≠ 0 ∧ kdv.writing 0 = false) ∧
    ((kdv.onWp 0 fun x => { x with swap := true }).wps 0).swap = true ∧ (kdv.wps 0).swap = false ∧
    (kdv.kd.inBlock = false ∧ 240 ≤ (kdRows 240 id).kd.rows.length ∧ (kdRows 0 id).kd.inBlock = true ∧ (kdRows 0 id).kd.rows = [] ∧
      (kdRows 239 id).kd.rows ≠ [] ∧ (kdRows 239 id).kd.rows.length < 240) ∧
    ((kdRows 1 fun k => { k with searching := true }).kd.searching = true ∧ (kdRows 1 id).kd.searching = false) ∧
    ((flag Fld.KD_STATUS_ON_STANDBY).bit Fld.KD_STATUS_ON_STANDBY = true ∧ kdv.bit Fld.KD_STATUS_ON_STANDBY = false ∧
      kdv.dead 14 1 = false ∧ (kdv.setUnit 14 1 .retired).dead 14 1 = true ∧ kdv.dead 14 0 = false) := by decide +kernel

/-- The KD slice with the decisions from place 0 on of its line. -/
def kdLine (searching : Bool) (bits : List Bool) : Dev :=
  let d := (kdRows 1 fun k => { k with searching := searching }).put (Fld.CHN_CTRL_MODE 4) 3
  d.onSlice 4 fun x => { x with line := List.replicate 64 noSample ++
    ((List.range bits.length).map fun i => ⟨(i : Int), 0, 0, bits.getD i false⟩).reverse }

/-- The sync at its expected place, and a line without it. -/
theorem witness_kd_sync : let yes := kdLine false kdv.kdPattern
    let no := kdLine false []
    let win := min 8 (yes.fld (Fld.CHN_SYNC_CFG_WIN 4))
    let best (d : Dev) := kdBest (d.kdDistances (d.kd.expect - win) (2 * win + 1)) win (syncOffsets win)
    (best yes).2 ≤ yes.fld (Fld.CHN_SYNC_CFG_THR 4) ∧ yes.fld (Fld.CHN_SYNC_CFG_THR 4) < (best no).2 := by decide +kernel

/-! ## Updates and the service port -/

def image1 : XimImage := ⟨true, false, 1, 0, [], []⟩
def staging (holder : Nat) (g : UpdSt → UpdSt) : Dev :=
  ((dv.putBit Fld.UPD_STATUS_LOCKED true).put Fld.UPD_STATUS_HOLDER holder).onUpd g
def activatingD (g : UpdSt → UpdSt) : Dev := (staging 2 g).putBit Fld.UPD_STATUS_ACTIVATING true
def onTrial0 (g : UpdSt → UpdSt) : Dev := ((dv.putBit Fld.UPD_STATUS_TRIAL true).put (Fld.UPD_SLOT_STATE 0) slotTrial).onUpd g
def movingTask : Dev :=
  ((activatingD fun u => { u with cls := some 1 }).putBit (Fld.SPP_TASK_LIVE 3) true).put (Fld.SPP_TASK_STATE 3) taskWaiting

theorem witness_updates : ((flight (cmdOf 9 1 [2]) dv).findCmd c7 = some (cmdOf 9 1 [2]) ∧ entArg (cmdOf 9 1 [2]).entry 0 1 = 2 ∧
      dv.upd.waiter ≠ some (.command c7) ∧ { dv.upd with waiter := some (.command c7) }.waiter = some (.command c7)) ∧
    (dv.pieceRefused (some 0) 0 4096 = none ∧ dv.pieceRefused (some 0) 4096 1 = some stateError ∧
      dv.pieceRefused (some 0) 0 ximLimit = none ∧ dv.pieceRefused (some 0) 0 (ximLimit + 1) = some (badField 40 rsRange)) ∧
    ((flight (cmdOf 9 1 [2]) dv).chainPages 0x1000 1 ≠ none ∧ dv.chainPages 0x3001 1 = none) ∧
    (entArg (cmdOf 9 1 [2, 1]).entry 1 1).testBit 0 = true ∧ (entArg (cmdOf 9 1 [2, 2]).entry 1 1).testBit 0 = false ∧
    (dv.upd.verifying = false ∧ (staging 1 fun u => { u with verifying := true, length := some 64 }).upd.verifying = true) ∧
    (staging 2 id).stagingOther (some 0) = true ∧ (staging 1 id).stagingOther (some 0) = false ∧
    (dv.upd.image = none ∧ (staging 1 fun u => { u with image := some image1 }).upd.image = some image1 ∧ image1.manifest = true) ∧
    ((onTrial0 id).onTrial = true ∧ dv.onTrial = false ∧ (onTrial0 id).upd.cls = none ∧ (onTrial0 fun u => { u with cls := some 1 }).upd.cls ≠ none) ∧
    ((staging 1 id).bit Fld.UPD_STATUS_LOCKED = true ∧ (staging 1 id).bit Fld.UPD_STATUS_ACTIVATING = false ∧ dv.bit Fld.UPD_STATUS_LOCKED = false) ∧
    (movingTask.bit Fld.UPD_STATUS_ACTIVATING = true ∧ movingTask.upd.cls = some 1 ∧
      movingTask.vendorTasks.find? (fun k => !movingTask.upd.moved.contains k) = some 3 ∧ movingTask.taskState 3 = taskWaiting ∧
      movingTask.span.dmas = [] ∧ movingTask.span.held = []) ∧ dv.bit Fld.UPD_STATUS_ACTIVATING = false ∧
    ((flight (cmdOf 1 1 []) (activatingD fun u => { u with image := some image1 })).pathBusy = true ∧ (activatingD id).pathBusy = false ∧
      (activatingD id).bit Fld.UPD_STATUS_ACTIVATING = true ∧ (activatingD id).upd.cls = none) ∧
    ((activatingD fun u => { u with failed := true }).upd.failed = true ∧ (activatingD id).upd.failed = false ∧
      ((activatingD id).put Fld.ID_DEVICE_MODE 1).unitsChanged 4 = false ∧ (activatingD id).unitsChanged 1 = true) ∧
    ((activatingD fun u => { u with cls := some 2, revert := true }).upd.revert = true ∧ movingTask.allMoved = false ∧
      (activatingD id).allMoved = true ∧ movingTask.upd.revert = false) ∧
    (dv.ps ≠ 4 ∧ (dv.put Fld.HQ_STATUS_PS 4).ps = 4 ∧ 1439 ≤ (dv.put Fld.UPD_CONFIRM_CLEAN_MIN 1439).fld Fld.UPD_CONFIRM_CLEAN_MIN ∧
      (flag Fld.UPD_CONFIRM_AUTO).bit Fld.UPD_CONFIRM_AUTO = true) := by decide +kernel

/-- The port up, with a session of a role. -/
def port (role : Nat) (d : Dev) : Dev := { (d.putBit Fld.SVC_CFG_SESSION true).put Fld.SVC_CFG_ROLE role with pwr := { d.pwr with held := false } }
def payload (l : List Byte) : SvcFrame := ⟨9, l, none⟩

theorem witness_service : (payload (zeroBytes 4104)).payload.length ≤ 4104 ∧ 4104 < (payload (zeroBytes 4105)).payload.length ∧ (port 2 dv).svcUp = true ∧ dv.svcUp = false ∧
    (flag Fld.BOOT_STATUS_RECOVERY_ROM).bit Fld.BOOT_STATUS_RECOVERY_ROM = true ∧ (port 2 dv).bit Fld.BOOT_STATUS_RECOVERY_ROM = false ∧
    (flag Fld.BOOT_STATUS_NO_START).bit Fld.BOOT_STATUS_NO_START = true ∧ (port 2 dv).bit Fld.BOOT_STATUS_NO_START = false ∧
    ((port 1 dv).fld Fld.SVC_CFG_ROLE < 2 ∧ 2 ≤ (port 2 dv).fld Fld.SVC_CFG_ROLE ∧ (port 2 dv).auditHeld = false) ∧
    ({ flag Fld.SEC_AUDIT_POLICY_HOLD with sec := { dv.sec with audit := { dv.sec.audit with unwritten := List.replicate ringCapacity [] } } }.auditHeld = true) ∧
    (port 2 dv).sec.nonces.length < 8 ∧ ((port 2 dv).submitToken .service (bytesAt [] 0 512)).1 = none ∧
    (([1] : List Byte).length < 8 ∧ fieldAt (leBytes 8 (2 ^ 32)) 4 4 ≠ 0 ∧ fieldAt (zeroBytes 9) 4 4 = 0 ∧
      (port 2 dv).pieceRefused none 0 1 = none ∧ (port 2 dv).pieceRefused none 1 1 = some stateError) ∧
    ((staging 1 id).stagingOther none = true ∧ (staging 2 id).stagingOther none = false ∧ (staging 2 id).stagingMine none = true) ∧
    (2 ^ 24 ≤ fieldAt (leBytes 4 (2 ^ 24)) 0 4 ∧ fieldAt (leBytes 4 (2 ^ 24 - 1)) 0 4 % 4 ≠ 0 ∧ Adr.HQ_QP_COAL 0 < 2 ^ 24 ∧
      Adr.HQ_QP_COAL 0 ≠ Adr.LOCUS_NOW_LO) ∧
    (fieldAt [7, 0, 0, 0, 0, 0, 0, 0, 0, 0x10] 0 1 ≤ 7 ∧ fieldAt [7, 0, 0, 0, 0, 0, 0, 0, 0, 0x10] 8 2 ≤ 4096 ∧ 7 < fieldAt [8] 0 1 ∧
      4096 < fieldAt [1, 0, 0, 0, 0, 0, 0, 0, 1, 0x10] 8 2) ∧
    ({ dv.sec with lockAuth := some 2 }.lockAuth = some (fieldAt [2] 0 1) ∧ dv.sec.lockAuth ≠ some 0) ∧ (failed dv).supplyFailed = true ∧
    ((0 : Byte) = 0 ∧ 15 < (16 : Byte).toNat) ∧ dv.bit Fld.SVC_CFG_SESSION = false ∧ (port 2 dv).bit Fld.SVC_CFG_SESSION = true := by decide +kernel

theorem witness_reset_idles : State.reset.pending = [] := rfl
/-! ## A token with a signature -/

/-- A grant of the installer's role for 60 s to a target, under nonce 0 and key slot 4, up to its signature (R401, R402). -/
def tokenHead (target : Byte) : List Byte := [0x58, 0x45, 0x4e, 0x44, 1, 0, 0, 4] ++ zeroBytes 56 ++
  [1, 0, 0, 0, 1] ++ zeroBytes 7 ++ [target] ++ zeroBytes 51 ++ [2, 0, 0, 0, 60] ++ zeroBytes 187

/-- A signature r, s and the public key x‖y that it verifies under. -/
structure Signed where
  r : Nat
  s : Nat
  x : Nat
  y : Nat

def forPair : Signed :=
  ⟨0xc3d5ad25e1b12908d6052e309eb92fba64bf72490c628242c560a353d47291e57d10e098988c489b7a1f4e5250b14d58,
   0x61ead692f0d894846b0297184f5c97dd325fb9248631412162b051a9ea3948f2be88704c4c46244dbd0fa7292858a6ac,
   0xc17c52f054811b257df5221d46e92575ad394d9db840cbca3dbd26b672e8579b56de754cd3b268f06d33e400822c4b3b,
   0xf89bea1a5cc17770cb69fec0373a1aa73a24131ee6b054371a15f992d3c3013571ecccb2dfc635a96daed1916830e96f⟩
def forService : Signed :=
  ⟨0x202cf7197991fffa9231b11664262369ce06e14ceffa8c81337743a53243553b3749e229d1116ad37f9a3ec1fc157543,
   0x202cf7197991fffa9231b11664262369ce06e14ceffa8c81337743a53243553b3749e229d1116ad37f9a3ec1fc157543,
   0x8173646a7eb8472d285681db127a9278a132c9b19f96b18d2f34016d824a4642e0439a632d739cb0aa6aed206620b04a,
   0x38ca3c59c7d4dbb57f47d683030a97e17d858b373bec17d47f00c7997ef6260dd60ab82d2cd14c326397aff3efd0bcfc⟩

def tokenOf (target : Byte) (g : Signed) : List Byte := tokenHead target ++ beBytes 48 g.r ++ beBytes 48 g.s ++ zeroBytes 96

/-- The key enrolled as an installer's in slot 4, and nonce 0 outstanding. -/
def enrolled (g : Signed) : Dev :=
  let d := (dv.putMask Fld.SEC_KEYS_INSTALLER 0 true).putBit Fld.SEC_STATUS_KEYS_OK true
  { d with sec := { d.sec with keys := [(4, beBytes 48 g.x ++ beBytes 48 g.y)], nonces := [⟨0, 0, zeroBytes 48, none⟩] } }

theorem witness_grant : (enrolled forPair).tokenCheck (.pair 0) (tokenOf 0 forPair) = 0 := by decide +kernel

theorem witness_grant_page : ((enrolled forPair).hostWrite 0x2000 (tokenOf 0 forPair)).hostRead 0x2000 512 = tokenOf 0 forPair ∧
    reqAction (tokRequest (tokenOf 0 forPair)) = actRoleGrant := by decide +kernel

theorem witness_service_grant : ((enrolled forService).submitToken .service (bytesAt (tokenOf 0x41 forService) 0 512)).1 = some 1 := by
  decide +kernel

/-! ## What the spec's examples say of single commands and of the format -/

/-- The worked example of native addressing: block 70,000 lies in stripe 2,916, in slot 18 of band 142 of zone 0; its frame 16
is 0x0004_703c, with seed 0x0804_703c. -/
theorem test_block_70000 : usableStripes 0 = 3024 ∧ homeOf 0 0 (70000 / 24) = some (stripeAddr 0 0 142 18) ∧ 70000 % 24 = 16 ∧
    frameAddr 0 0 142 18 16 = 0x0004703c ∧ frameSeed 0x0004703c = 0x0804703c ∧ 18 * 39088 = 703584 := by decide +kernel

/-- The dividers that R25 works out, with the exact half that rounds up. -/
theorem test_chan_div : chanDiv 47 4800 = 50 ∧ chanDiv 47 6600 = 36 ∧ chanDiv 0 6600 = 87 ∧ chanDiv 0 2400 = 240 := by decide +kernel

/-- The write-strategy example: index 118, at 0x06_90e8 for beam 3 in bank 0, whose entry gives one pulse from -3/32 to 3 - 5/32 bit. -/
theorem test_strategy : strategyIndex 3 2 6 1 = 118 ∧ tableEntry 0 0 3 118 = 0x690e8 ∧
    strategyPulses 0x00000efd 0 3 = [(-3, 32 * 3 - 5)] := by decide +kernel

/-- The pulses of a mark that R142 splits: three bits, a first pulse of 24/32 bit and later ones of 16/32 bit. -/
theorem test_split_pulses : strategyPulses (BitVec.ofNat 32 (24 * 2 ^ 12 + 16 * 2 ^ 18)) 0 3 =
    [(0, 24), (32, 48), (64, 96)] := by decide +kernel

/-- R142: a low time below 12/32 bit is removed before a short high time is lengthened. -/
theorem test_merged_pulses : shapePulses [(0, 24), (30, 36)] = [(0, 36)] ∧ shapePulses [(0, 4), (30, 36)] = [(0, 12), (30, 42)] := by decide

/-- R289: the word 1 has check byte 0x07, and a flip of its bit 0 is restored. -/
theorem test_word_code : wordCheck 1 = 0x07 ∧ readWord 0 0x07 = .corrected 1 ∧ readWord poisonData (wordCheck poisonData ^^^ 0xff) =
    .candidate ∧ readWord 0 0x0f = .bad := by decide +kernel

/-- The address of R274's example lies in sub-block 2 of bank 7, set 44, with tag 0x48d1. -/
theorem test_cache_place : 0x123456789 / 256 = lineOf (128 * 7 + 44) 0x48d1 ∧ (cachePieces (reqOf 0x123456789 none 8 0)).map
    (fun p => (p.line, p.sub, p.byte, p.len)) = [(lineOf (128 * 7 + 44) 0x48d1, 2, 9, 8)] := by decide +kernel

/-- The 20th and the 40th correction of R303's example: page 0 stands at level 16 with n overflows. -/
def leaky (n : Nat) : Dev := { memOn with mem := { memOn.mem with buckets := [⟨0, 16, n⟩] } }

theorem test_bucket_overflow : let d := after (.memRead 5 ⟨1, 0, none⟩) (leaky 0)
    d.mem.buckets = [⟨0, 0, 1⟩] ∧ d.bit Fld.MEM_STATUS_BUCKET_OVF = true ∧ d.mem.retiring = [] ∧ d.mem.resp = ⟨0, false, false⟩ := by
  decide +kernel

theorem test_second_overflow_retires : let d := after (.pageRetireDone 0) (after (.memRead 5 ⟨1, 0, none⟩) (leaky 1))
    (leaky 1).fld Fld.MEM_SPARE_FREE = 1024 ∧ d.fld Fld.MEM_SPARE_FREE = 1023 ∧ d.bit Fld.MEM_STATUS_RETIRED = true ∧
    d.mem.retiring = [] := by decide +kernel

/-- R301: the third correction of a word rewrites it, and the next one retires its page. -/
theorem test_third_correction : let d := after (.memRead 5 ⟨1, 0, none⟩) { memOn with mem := { memOn.mem with words := [⟨5, 2, false⟩] } }
    d.upset 5 = 0 ∧ d.mem.words = [⟨5, 3, true⟩] ∧ d.mem.retiring = [] ∧
    (after (.memRead 5 ⟨2, 0, none⟩) d).mem.retiring = [0] := by decide +kernel

/-- R293: a page with nine words of two wrong bits each cannot be decoded (36 erasures), and eight can. -/
def broken (n : Nat) : Dev := { memOn with mem := { memOn.mem with upsets := (List.range n).map fun w => (w, 256 * 3) } }

theorem test_page_decode : let d := after (.memRead 0 ⟨0, 0, none⟩) (broken 8)
    d.bit Fld.MEM_STATUS_PAGE_DECODE = true ∧ d.mem.resp = ⟨0, false, false⟩ ∧ d.mem.upsets = [] ∧ d.mem.poison = [] := by
  decide +kernel

theorem test_page_decode_fails : let d := after (.memRead 0 ⟨0, 0, none⟩) (broken 9)
    d.bit Fld.MEM_STATUS_PAGE_DECODE = false ∧ d.bit Fld.MEM_STATUS_POISON_WRITTEN = true ∧ d.mem.resp = ⟨poisonData, true, false⟩ ∧
    d.mem.poison.length = 9 := by decide +kernel

/-- R183: -1 × -1 gives 0x7fff_ffff, with SAT. -/
theorem test_qmul_saturates : let d := after (.arcQmul (arc0 0 false) 3 1 2) (arcWith 0x80000000 0x80000000 0 0)
    (d.arcEng 0).ctx.reg 3 = 0x7fffffff ∧ d.bit (Fld.ARC_STATUS_SAT 0) = true := by decide +kernel

/-- The loop of the vendor intake example: the branch at 0x0_4108 with displacement -2 goes to 0x0_4100, counted from itself. -/
theorem test_bne_target : let d := after (.spanBne ⟨0, 3⟩ 5 0 0xfffe) ((spanReady.setSreg 3 5 1).onTask 3 fun x =>
      { x with pc := 0x4108 })
    (d.task 3).pc = 0x4100 := by decide +kernel

/-- The sled of R238's example: homed and braking from 250 mm/s, at 55.25 mm and 150 mm/s, on its way to 57.5 mm. -/
def brakingSled : Dev :=
  let d := ((dv.putBit (Fld.SLD_STATUS_HOMED 0) true).put (Fld.SLD_STATUS_MODE 0) sledMove).setReg (Adr.SLD_VLIM_HI 0) 25515349
  (d.setPrf 0 { d.prf 0 with p := 24139093 * 65536, v := 152520 * 256 }).onSled 0 fun s =>
    { s with goal := 25122133 * 65536, brakeFrom := 254200 * 256, dec := 11832 }

/-- Its three outcomes: 8,000 mm/s² holds the speed, 4,000 brakes beyond the goal, and 2,000 is deferred. -/
theorem test_dec_write_holds : let d := after (.sledDecWrite .a 18931) brakingSled
    (d.sled 0).dec = 18931 ∧ (d.sled 0).cruise = true ∧ d.bit (Fld.SLD_STATUS_ACC_DEFERRED 0) = false := by decide +kernel

theorem test_dec_write_deferred : (((after (.sledDecWrite .a 9466) brakingSled).sled 0).dec = 9466 ∧
      ((after (.sledDecWrite .a 9466) brakingSled).sled 0).cruise = false) ∧
    ((after (.sledDecWrite .a 4733) brakingSled).sled 0).dec = 11832 ∧
    (after (.sledDecWrite .a 4733) brakingSled).bit (Fld.SLD_STATUS_ACC_DEFERRED 0) = true := by decide +kernel

/-- R236: a sled one step from its goal, whose ACC would carry it past within a tick, comes to rest on it. -/
theorem test_move_lands : let m := moveTick 0 0 65536 10000000 131072 131072 false 0
    moveTick m.1 m.2.1 65536 10000000 131072 131072 false m.2.2.1 = (65536, 0, 0, true) := by decide +kernel

/-- The ring example: the mark arrives with payload a8 02 41 42 0f 1a 0e 00, and after 320 ns carries TICK 1,000,002 and NS 0. -/
theorem test_mark_forwarded :
    (markAdd (zeroBytes 20 ++ [0xa8, 0x02, 0x41, 0x42, 0x0f, 0x1a, 0x0e, 0x00]) 40).drop 20 =
      leBytes 2 0 ++ leBytes 3 1000002 ++ leBytes 2 0x0e1a ++ [0] := by decide +kernel

/-- R303's level after the n-th event, five events to a leak: one leak lowers every level that is not zero. -/
theorem test_bucket_leak : (after .bucketLeak (leaky 0)).mem.buckets = [⟨0, 15, 0⟩] := by decide +kernel

/-- R299: a load from a virgin page gives 0 and records the word. -/
theorem test_load_virgin : let d := after (.spanLd si 2 1 0) (spanOn (rs1Is 0x1ff8))
    d.bit Fld.MEM_STATUS_VIRGIN_READ = true ∧ d.fld Fld.MEM_ERR_ADDR_WORD = 0x3ff ∧ d.fld Fld.MEM_ERR_KIND_KIND = 5 ∧
    d.sreg 3 2 = 0 := by decide +kernel

/-- R265, R297: a copy carries the mark, and its source's page is no virgin one; R294: a narrow store leaves the marked word. -/
def marked : Dev := (spanOn (rs1Is 0x49)).markBytes 8 8

theorem test_copy_carries_mark : let op : DmaOp := { copy0 1 with kind := dmaCopyKind, dst := 64 }
    let d := after (.dmaEnd 3 1 []) (flying [op] marked)
    d.poisoned 9 = true ∧ d.poisoned 8 = false ∧ d.bufRead 72 8 = leBytes 8 poisonData.toNat ∧
    (after (.spanSb si 2 1 0) d).mem = d.mem := by decide +kernel

/-- R296: words of a transfer from the host in a poisoned TLP are marked. -/
theorem test_host_marks : let op : DmaOp := { copy0 1 with kind := dmaInKind, dst := 64 }
    let d := dv.hostMarks op [2, 9]
    d.poisoned 10 = true ∧ d.poisoned 9 = false ∧ d.poisoned 17 = false := by decide +kernel

end Sys2Proof.Tests
end

/-! PROOFS. The laws that the proofs below share: commands that complete, fields of one bit, and what stands among the registers. -/

namespace Sys2Proof.Machine

/-! ## Commands that complete -/

/-- A command whose meaning is the change f of the block completes with what f leaves. -/
theorem Completes.of_on {c : Instr} {s : State} {P : Dev → Prop} (f : Dev → Dev) (h : exec c s = s.on f) (hp : P (f s.dev)) :
    Completes c s P := ⟨f s.dev, h, hp⟩

/-- A change that leaves the block as it is leaves the state as it is. -/
theorem State.on_of_eq_self {s : State} {f : Dev → Dev} (h : f s.dev = s.dev) : s.on f = .next s := by
  rw [State.on_eq, h]

/-! ## Fields -/

theorem Dev.bit_of_fld_eq {d d' : Dev} {f : Field} (h : d'.fld f = d.fld f) : d'.bit f = d.bit f := by
  unfold Dev.bit; rw [h]

/-- A field of one bit that was put holds the bit. -/
theorem Dev.bit_putBit_self (d : Dev) (f : Field) (b : Bool) (hw : f.width = 1 := by rfl)
    (hf : f.lo + f.width ≤ 32 := by exact Nat.le_of_ble_eq_true rfl) : (d.putBit f b).bit f = b := by
  unfold Dev.bit Dev.putBit
  rw [Dev.fld_put_self d f _ hf, hw]
  cases b <;> rfl

/-- Putting a field leaves one that shares no bit with it. -/
theorem Dev.bit_put_ne (d : Dev) (f g : Field) (v : Nat) (hd : g.adr ≠ f.adr ∨ g.lo + g.width ≤ f.lo ∨ f.lo + f.width ≤ g.lo)
    (hf : f.lo + f.width ≤ 32 := by exact Nat.le_of_ble_eq_true rfl) : (d.put f v).bit g = d.bit g :=
  Dev.bit_of_fld_eq (Dev.fld_put_ne d f g v hf hd)

theorem Dev.bit_putBit_ne (d : Dev) (f g : Field) (b : Bool)
    (hd : g.adr ≠ f.adr ∨ g.lo + g.width ≤ f.lo ∨ f.lo + f.width ≤ g.lo)
    (hf : f.lo + f.width ≤ 32 := by exact Nat.le_of_ble_eq_true rfl) : (d.putBit f b).bit g = d.bit g :=
  Dev.bit_put_ne d f g _ hd hf

/-- Registers that stand carry their fields with them. -/
theorem Dev.fld_of_reg_eq {d d' : Dev} {f : Field} (h : d'.reg f.adr = d.reg f.adr) : d'.fld f = d.fld f := by
  unfold Dev.fld; rw [h]

theorem Dev.bit_of_reg_eq {d d' : Dev} {f : Field} (h : d'.reg f.adr = d.reg f.adr) : d'.bit f = d.bit f :=
  Dev.bit_of_fld_eq (Dev.fld_of_reg_eq h)

/-! ## Tables -/

theorem Tab.get_upd_self {α : Type} [DecidableEq α] {r : Nat → α} (t : Tab α) (k : Nat) (f : α → α) :
    Tab.get r (Tab.upd r t k f) k = f (Tab.get r t k) := Tab.get_set_self t k _

/-! ## Registers that stand outside a list -/

section
variable {d d' : Dev} {l : List Nat}

theorem SameRegs.refl (d : Dev) (l : List Nat) : SameRegs d d l := fun _ _ => rfl

theorem SameRegs.of_regs_eq (h : d'.regs = d.regs) : SameRegs d d' l := fun off _ => by
  unfold Dev.reg; rw [h]

theorem SameRegs.trans {d'' : Dev} (h : SameRegs d d' l) (h' : SameRegs d' d'' l) : SameRegs d d'' l :=
  fun off ho => (h' off ho).trans (h off ho)

theorem SameRegs.mono {l' : List Nat} (h : SameRegs d d' l) (hl : l ⊆ l') : SameRegs d d' l' :=
  fun off ho => h off fun hm => ho (hl hm)

theorem SameRegs.setReg (h : SameRegs d d' l) {a : Nat} {v : Word} (ha : a ∈ l) : SameRegs d (d'.setReg a v) l :=
  fun off ho => (Dev.reg_setReg_ne d' v fun he => ho (by rw [he]; exact ha)).trans (h off ho)

theorem SameRegs.put (h : SameRegs d d' l) {f : Field} {v : Nat} (ha : f.adr ∈ l) : SameRegs d (d'.put f v) l := h.setReg ha

theorem SameRegs.putBit (h : SameRegs d d' l) {f : Field} {b : Bool} (ha : f.adr ∈ l) : SameRegs d (d'.putBit f b) l := h.setReg ha

theorem SameRegs.countBy (h : SameRegs d d' l) {a n : Nat} (ha : a ∈ l) : SameRegs d (d'.countBy a n) l := h.setReg ha

theorem SameRegs.count (h : SameRegs d d' l) {a : Nat} (ha : a ∈ l) : SameRegs d (d'.count a) l := h.setReg ha

/-- A change made where a condition holds. -/
theorem SameRegs.when (h : SameRegs d d' l) {c : Bool} {f : Dev → Dev} (hf : SameRegs d' (f d') l) : SameRegs d (d'.when c f) l := by
  cases c with
  | true => exact h.trans hf
  | false => exact h

/-- A change made for every element of a list. -/
theorem SameRegs.each {α : Type} {f : Dev → α → Dev} (xs : List α) (hf : ∀ n, ∀ x ∈ xs, SameRegs n (f n x) l) :
    ∀ d : Dev, SameRegs d (d.each xs f) l := by
  induction xs with
  | nil => exact fun d => SameRegs.refl d l
  | cons x xs ih => exact fun d => (hf d x (by simp)).trans (ih (fun n y hy => hf n y (by simp [hy])) (f d x))

theorem SameRegs.fld (h : SameRegs d d' l) {f : Field} (ha : f.adr ∉ l) : d'.fld f = d.fld f := Dev.fld_of_reg_eq (h _ ha)

theorem SameRegs.bit (h : SameRegs d d' l) {f : Field} (ha : f.adr ∉ l) : d'.bit f = d.bit f := Dev.bit_of_reg_eq (h _ ha)

end

/-! ## Changes of registers alone -/

/-- d' differs from d in its registers alone, and of these in those of a list. -/
def RegFrame (d d' : Dev) (l : List Nat) : Prop := d' = { d with regs := d'.regs } ∧ SameRegs d d' l

section
variable {d d' : Dev} {l : List Nat}

theorem RegFrame.refl (d : Dev) (l : List Nat) : RegFrame d d l := ⟨rfl, SameRegs.refl d l⟩

theorem RegFrame.trans {d'' : Dev} (h : RegFrame d d' l) (h' : RegFrame d' d'' l) : RegFrame d d'' l := by
  obtain ⟨only, same⟩ := h
  obtain ⟨only', same'⟩ := h'
  refine ⟨?_, same.trans same'⟩
  rw [only] at only'
  exact only'

theorem RegFrame.mono {l' : List Nat} (h : RegFrame d d' l) (hl : l ⊆ l') : RegFrame d d' l' := ⟨h.1, h.2.mono hl⟩

theorem RegFrame.setReg (h : RegFrame d d' l) {a : Nat} {v : Word} (ha : a ∈ l) : RegFrame d (d'.setReg a v) l :=
  h.trans ⟨Dev.setReg_only d' a v, (SameRegs.refl d' l).setReg ha⟩

theorem RegFrame.put (h : RegFrame d d' l) {f : Field} {v : Nat} (ha : f.adr ∈ l) : RegFrame d (d'.put f v) l := h.setReg ha

theorem RegFrame.putBit (h : RegFrame d d' l) {f : Field} {b : Bool} (ha : f.adr ∈ l) : RegFrame d (d'.putBit f b) l := h.setReg ha

theorem RegFrame.count (h : RegFrame d d' l) {a : Nat} (ha : a ∈ l) : RegFrame d (d'.count a) l := h.setReg ha

/-- A change made where a condition holds. -/
theorem RegFrame.when (h : RegFrame d d' l) {c : Bool} {f : Dev → Dev} (hf : RegFrame d' (f d') l) : RegFrame d (d'.when c f) l := by
  cases c with
  | true => exact h.trans hf
  | false => exact h

/-- A change made for every element of a list. -/
theorem RegFrame.each {α : Type} {f : Dev → α → Dev} (xs : List α) (hf : ∀ n, ∀ x ∈ xs, RegFrame n (f n x) l) :
    ∀ d : Dev, RegFrame d (d.each xs f) l := by
  induction xs with
  | nil => exact fun d => RegFrame.refl d l
  | cons x xs ih => exact fun d => (hf d x (by simp)).trans (ih (fun n y hy => hf n y (by simp [hy])) (f d x))

end

/-- Clearing counters changes the eight counters alone. -/
theorem Dev.regFrame_clearCounters (d : Dev) (adr : Nat → Nat) : RegFrame d (d.clearCounters adr) ((List.range 8).map adr) :=
  RegFrame.each _ (fun n _ hk => (RegFrame.refl n _).setReg (List.mem_map_of_mem hk)) d

/-- The eight counters read 0. -/
theorem Dev.reg_clearCounters_self (d : Dev) (adr : Nat → Nat) {k : Nat} (hk : k < 8) : (d.clearCounters adr).reg (adr k) = 0 := by
  rw [Dev.reg_clearCounters, if_pos ⟨k, List.mem_range.mpr hk, rfl⟩]

/-! ## ESNs, events and audit records -/

/-- An ORDER past its last value is shown (R31). -/
theorem Dev.regFrame_orderCarry (d : Dev) :
    RegFrame d (d.when (1023 < d.locus.order) fun d => d.putBit Fld.LOCUS_STATUS_ORDER_CARRY true) [Adr.LOCUS_STATUS] :=
  (RegFrame.refl d _).when ((RegFrame.refl d _).putBit (by decide))

/-- The issue of an ESN changes the Locus sequencer, and of the registers LOCUS_STATUS. -/
theorem Dev.issue_only (d : Dev) : d.issue = { d with regs := d.issue.regs, locus := d.issue.locus } := by
  unfold Dev.issue
  rw [(d.regFrame_orderCarry).1]

theorem Dev.sameRegs_issue (d : Dev) : SameRegs d d.issue [Adr.LOCUS_STATUS] :=
  d.regFrame_orderCarry.2.trans (SameRegs.of_regs_eq rfl)

/-- An event changes the Locus sequencer, the log, and of the registers LOCUS_STATUS. -/
theorem Dev.event_only (d : Dev) (kind : EventKind) (unit code : Nat) (detail : List Nat) :
    d.event kind unit code detail = { d with
      regs := (d.event kind unit code detail).regs, locus := (d.event kind unit code detail).locus,
      log := (d.event kind unit code detail).log } := by
  simp only [Dev.event, Dev.eventFor]
  rw [Dev.issue_only]

theorem Dev.sameRegs_event (d : Dev) (kind : EventKind) (unit code : Nat) (detail : List Nat) :
    SameRegs d (d.event kind unit code detail) [Adr.LOCUS_STATUS] := d.sameRegs_issue.trans (SameRegs.of_regs_eq rfl)

/-- The registers that an audit record writes (R406 to R409, R427). -/
def auditRegs : List Nat := [Adr.SEC_STATUS, Adr.SEC_CNT 6, Adr.SEC_AUDIT_SEQ, Adr.LOCUS_STATUS]

section
variable (d : Dev) (prev : List Byte) (source role action outcome keys : Nat) (detail : List Byte)

theorem Dev.sameRegs_judgeAudit : SameRegs d d.judgeAudit auditRegs := (SameRegs.refl d _).putBit (by decide)

theorem Dev.sameRegs_auditLinked : SameRegs d (d.auditLinked prev source role action outcome keys detail) auditRegs := by
  unfold Dev.auditLinked
  refine SameRegs.trans (SameRegs.count (SameRegs.when ?_ ((SameRegs.refl _ _).putBit (by decide))) (by decide))
    (Dev.sameRegs_judgeAudit _)
  have event := (d.sameRegs_event .audit source action [role, outcome, keys]).mono (l' := auditRegs) (by simp [auditRegs])
  exact (event.put (by decide)).trans (SameRegs.of_regs_eq rfl)

/-- An audit record changes the Locus sequencer, the logs and registers. -/
theorem Dev.auditLinked_only : d.auditLinked prev source role action outcome keys detail = { d with
    regs := (d.auditLinked prev source role action outcome keys detail).regs
    locus := (d.auditLinked prev source role action outcome keys detail).locus
    log := (d.auditLinked prev source role action outcome keys detail).log
    sec := { d.sec with audit := (d.auditLinked prev source role action outcome keys detail).sec.audit } } := by
  have lost (n : Dev) (c : Bool) : n.when c (fun d => d.putBit Fld.SEC_STATUS_AUDIT_GAP true) = { n with regs := _ } :=
    ((RegFrame.refl n [Adr.SEC_STATUS]).when ((RegFrame.refl n _).putBit (by decide))).1
  simp only [Dev.auditLinked, Dev.judgeAudit]
  rw [lost, Dev.event_only]
  rfl

theorem Dev.sameRegs_audit : SameRegs d (d.audit source role action outcome detail) auditRegs :=
  d.sameRegs_auditLinked _ _ _ _ _ _ _

end

theorem Dev.sameRegs_auditEvent (d : Dev) (detail : List Byte) : SameRegs d (d.auditEvent detail) auditRegs :=
  d.sameRegs_audit _ _ _ _ _

theorem Dev.auditEvent_only (d : Dev) (detail : List Byte) : d.auditEvent detail = { d with
    regs := (d.auditEvent detail).regs, locus := (d.auditEvent detail).locus, log := (d.auditEvent detail).log
    sec := { d.sec with audit := (d.auditEvent detail).sec.audit } } := d.auditLinked_only _ _ _ _ _ _ _

theorem Dev.sameRegs_auditWrite (d : Dev) (w : Writer) (off : Nat) (v : Word) (took : Bool) :
    SameRegs d (d.auditWrite w off v took) auditRegs := d.sameRegs_audit _ _ _ _ _

end Sys2Proof.Machine

/-! PROOFS. Locus reads and its free running (O7); resets (O17); the reset state (O60). -/

namespace Sys2Proof.Machine

/-! ## Locus -/

/-- The next ESN depends on EPOCH, TICK and ORDER alone (R27). -/
theorem LocusSt.next_congr {l l' : LocusSt} (he : l'.epoch = l.epoch) (ht : l'.tick = l.tick) (ho : l'.order = l.order) :
    l'.next = l.next := by
  unfold LocusSt.next LocusSt.ready LocusSt.advance
  rw [ho]
  split
  · rw [he, ht, ho]
  · simp only [he, ht]

/-- A pending step or slew that is given up shows in LOCUS_STATUS alone (R31). -/
theorem Dev.sameRegs_locusFree (d : Dev) : SameRegs d d.locusFree [Adr.LOCUS_STATUS] :=
  SameRegs.putBit (SameRegs.of_regs_eq rfl) (by simp [Fld.LOCUS_STATUS_SLEWING])

theorem Dev.bit_locusFree_slewing (d : Dev) : d.locusFree.bit Fld.LOCUS_STATUS_SLEWING = false := Dev.bit_putBit_self _ _ _

theorem Dev.bit_locusFree_ne (d : Dev) (g : Field) (hd : g.adr ≠ Adr.LOCUS_STATUS ∨ g.lo + g.width ≤ 1 ∨ 2 ≤ g.lo) :
    d.locusFree.bit g = d.bit g := Dev.bit_putBit_ne (d.onLocus _) Fld.LOCUS_STATUS_SLEWING g false hd

/-- A read of LOCUS_NOW_LO (R31). -/
theorem Dev.regFrame_locusRead (d : Dev) : RegFrame d d.locusRead [Adr.LOCUS_NOW_LO, Adr.LOCUS_NOW_HI] :=
  ((RegFrame.refl d _).setReg (by simp)).setReg (by simp)

theorem completes_locusNowRead (s : State) : Completes .locusNowRead s fun d =>
    d.reg Adr.LOCUS_NOW_LO = s.dev.locus.next.setWidth 32 ∧
    d.reg Adr.LOCUS_NOW_HI = (s.dev.locus.next >>> 32).setWidth 32 ∧
    d = { s.dev with regs := d.regs } ∧ SameRegs s.dev d [Adr.LOCUS_NOW_LO, Adr.LOCUS_NOW_HI] := by
  refine Completes.of_on Dev.locusRead rfl ⟨?_, ?_, s.dev.regFrame_locusRead⟩
  · unfold Dev.locusRead
    rw [Dev.reg_setReg_ne _ _ (by decide), Dev.reg_setReg_self]
    rfl
  · have high : ((s.dev.esn.extractLsb' 32 16).setWidth 32 : Word) = (s.dev.esn >>> 32).setWidth 32 := by
      apply BitVec.eq_of_getLsbD_eq
      intro i hi
      simp only [BitVec.getLsbD_setWidth, BitVec.getLsbD_extractLsb', BitVec.getLsbD_ushiftRight]
      by_cases h16 : i < 16
      · simp [h16]
      · simp [h16, BitVec.getLsbD_of_ge s.dev.esn (32 + i) (by omega)]
    unfold Dev.locusRead
    rw [Dev.reg_setReg_self]
    exact high

/-- A disagreement of the Locus copies is counted, and the voted state stands (R8). -/
theorem completes_locusCopyDisagree (s : State) (copy : Fin 3) : Completes (.locusCopyDisagree copy) s fun d =>
    d.locus.next = s.dev.locus.next ∧ d.locus.micros = s.dev.locus.micros ∧
    Tab.get (fun _ => 0) d.locus.disagreed copy.val = Tab.get (fun _ => 0) s.dev.locus.disagreed copy.val + 1 ∧
    d = { s.dev with locus := d.locus } :=
  Completes.of_on (fun d => d.onLocus fun l => { l with disagreed := Tab.upd (fun _ => 0) l.disagreed copy.val (· + 1) }) rfl
    ⟨LocusSt.next_congr rfl rfl rfl, rfl, Tab.get_upd_self s.dev.locus.disagreed copy.val (· + 1), rfl⟩

/-- 3 ms without a mark: Locus runs free (R469). -/
theorem completes_ringMarkTimeout (s : State) : Completes .ringMarkTimeout s fun d =>
    d.bit Fld.RING_STATUS_MASTER_SEEN = false ∧ d.bit Fld.LOCUS_STATUS_RING_LOCKED = false ∧
    d.bit Fld.LOCUS_STATUS_SLEWING = false ∧ d.locus.stepTo = none ∧ d.locus.slewTo = none ∧
    d.locus.next = s.dev.locus.next ∧
    d = { s.dev with regs := d.regs, locus := d.locus } ∧ SameRegs s.dev d [Adr.RING_STATUS, Adr.LOCUS_STATUS] := by
  refine Completes.of_on
    (fun d => ((d.putBit Fld.RING_STATUS_MASTER_SEEN false).putBit Fld.LOCUS_STATUS_RING_LOCKED false).locusFree) rfl
    ⟨?_, ?_, Dev.bit_locusFree_slewing _, rfl, rfl, LocusSt.next_congr rfl rfl rfl, rfl, ?_⟩
  · rw [Dev.bit_locusFree_ne _ _ (by decide), Dev.bit_putBit_ne _ Fld.LOCUS_STATUS_RING_LOCKED _ _ (by decide)]
    exact Dev.bit_putBit_self _ _ _
  · rw [Dev.bit_locusFree_ne _ _ (by decide)]
    exact Dev.bit_putBit_self _ _ _
  · exact (((SameRegs.refl _ _).putBit (by decide)).putBit (by decide)).trans ((Dev.sameRegs_locusFree _).mono (by simp))

/-- Settles O7: the three commands, one by one. -/
theorem locusReadsAndRunsFree : Obligations.LocusReadsAndRunsFree := fun s copy =>
  ⟨completes_locusNowRead s, completes_locusCopyDisagree s copy, completes_ringMarkTimeout s⟩

/-! ## Resets -/

/-- The block with what a chip reset leaves standing, and every register at its reset value. -/
def Dev.resetBlock (d : Dev) : Dev :=
  { locus := d.locus.afterReset, log := d.log, free := d.free, host := d.host.afterReset,
    medium := { present := d.medium.present, records := d.medium.records, written := d.medium.written, frags := d.medium.frags },
    spr := { retiredBefore := d.spr.retiredBefore }, pwr := d.pwr.afterReset, sec := d.sec.afterReset,
    upd := d.upd.afterReset, svc := { sent := d.svc.sent }, kd := d.kd.afterReset, ring := { out := d.ring.out }, tap := d.tap }

/-- A chip reset by a cause leaves that block but for the registers that show fuses, the NOR, the island or the straps (R428). -/
theorem Dev.regFrame_chipReset (d : Dev) (cause : Option Field) (hc : ∀ f, cause = some f → f.adr = Adr.RST_CAUSE) :
    RegFrame d.resetBlock (d.chipReset cause) (Adr.ID_DEVICE :: keptRegisters) := by
  have kept : RegFrame d.resetBlock (d.resetBlock.each keptRegisters fun n a => n.setReg a (d.reg a))
      (Adr.ID_DEVICE :: keptRegisters) :=
    RegFrame.each _ (fun n a ha => (RegFrame.refl n _).setReg (List.mem_cons_of_mem _ ha)) _
  have fuses := (((kept.put (f := Fld.SEC_AUDIT_SEQ_SEQ) (v := d.sec.audit.newest) (by decide)).put
    (f := Fld.ID_DEVICE_VARIANT) (v := d.fld Fld.ID_DEVICE_VARIANT) (by decide)).put
    (f := Fld.ID_DEVICE_HEADS) (v := d.fld Fld.ID_DEVICE_HEADS) (by decide)).put
    (f := Fld.ID_DEVICE_STEPPING) (v := d.fld Fld.ID_DEVICE_STEPPING) (by decide)
  have lock := ((fuses.setReg (a := Adr.KD_STATUS) (v := 0) (by decide)).put
    (f := Fld.KD_STATUS_LOCK) (v := d.fld Fld.KD_STATUS_LOCK_NEXT) (by decide)).put
    (f := Fld.KD_STATUS_LOCK_NEXT) (v := d.fld Fld.KD_STATUS_LOCK_NEXT) (by decide)
  cases cause with
  | none => exact lock
  | some f => exact lock.putBit (by rw [hc f rfl]; decide)

/-- A chip reset leaves the reset state (R428). -/
theorem ChipReset.of_regFrame {d d' : Dev} (h : RegFrame d.resetBlock d' (Adr.ID_DEVICE :: keptRegisters)) : ChipReset d d' := by
  obtain ⟨only, same⟩ := h
  refine ⟨?_, ?_, ?_, ?_, ?_, ?_, ?_, ?_, ?_, ?_, same⟩
  all_goals rw [only]; rfl

theorem Dev.chipReset_chipReset (d : Dev) (f : Field) (hf : f.adr = Adr.RST_CAUSE) : ChipReset d (d.chipReset (some f)) :=
  ChipReset.of_regFrame (d.regFrame_chipReset (some f) fun _ h => by cases h; exact hf)

/-- The cause of a chip reset is shown (R447). -/
theorem Dev.bit_chipReset_cause (d : Dev) (f : Field) (hw : f.width = 1) (hl : f.lo + f.width ≤ 32) :
    (d.chipReset (some f)).bit f = true := Dev.bit_putBit_self _ f true hw hl

/-- The reference is lost beside a chip reset (R432). -/
theorem ChipReset.loseReference {d d' : Dev} (h : ChipReset d d') : ChipReset d { d' with pwr := { d'.pwr with refOk := false } } := by
  obtain ⟨held, left⟩ := h
  exact ⟨held, left⟩

/-- The loss of a memory channel in service: the reset of a brown-out, with an audit record (R8). -/
theorem completes_memChannelLoss (s : State) (ch : Fin 2) (h : s.dev.domainOn (75 + ch.val) = true) :
    Completes (.memChannelLoss ch) s fun d =>
      d.bit Fld.RST_CAUSE_BROWNOUT = true ∧ d.pwr.held = true ∧ d.mem = {} ∧ d.sec.nonces = [] := by
  obtain ⟨held, mem, nonces, _⟩ := s.dev.chipReset_chipReset Fld.RST_CAUSE_BROWNOUT rfl
  have cause := s.dev.bit_chipReset_cause Fld.RST_CAUSE_BROWNOUT rfl (by decide)
  refine Completes.of_on
    (fun d => if d.domainOn (75 + ch.val) then (d.chipReset (some Fld.RST_CAUSE_BROWNOUT)).auditEvent (leBytes 1 ch.val) else d)
    rfl ?_
  simp only [h, if_true]
  -- From here on, what matters of the reset is what the four facts say.
  generalize s.dev.chipReset (some Fld.RST_CAUSE_BROWNOUT) = n at held mem nonces cause ⊢
  refine ⟨((Dev.sameRegs_auditEvent _ _).bit (by decide)).trans cause, ?_, ?_, ?_⟩
  all_goals rw [Dev.auditEvent_only]
  · exact held
  · exact mem
  · exact nonces

/-- Settles O17: RESET_N, a brown-out and the loss of the reference are chip resets with their causes. -/
theorem resetsLeaveTheResetState : Obligations.ResetsLeaveTheResetState := by
  intro s ch
  have reset (f : Field) (hf : f.adr = Adr.RST_CAUSE) (hw : f.width = 1) (hl : f.lo + f.width ≤ 32) :
      ChipReset s.dev (s.dev.chipReset (some f)) ∧ (s.dev.chipReset (some f)).bit f = true :=
    ⟨s.dev.chipReset_chipReset f hf, s.dev.bit_chipReset_cause f hw hl⟩
  refine ⟨?pin, ?brownOut, ?reference, completes_memChannelLoss s ch, ?outOfService, ?restored⟩
  case pin => exact Completes.of_on (fun d => d.chipReset (some Fld.RST_CAUSE_PIN)) rfl (reset _ rfl rfl (by decide))
  case brownOut => exact Completes.of_on (fun d => d.chipReset (some Fld.RST_CAUSE_BROWNOUT)) rfl (reset _ rfl rfl (by decide))
  case reference =>
    obtain ⟨left, cause⟩ := reset Fld.RST_CAUSE_REF_LOSS rfl rfl (by decide)
    refine ⟨s.dev.loseReference, rfl, ?_⟩
    unfold Dev.loseReference
    generalize s.dev.chipReset (some Fld.RST_CAUSE_REF_LOSS) = n at left cause ⊢
    exact ⟨left.loseReference, cause, rfl⟩
  case outOfService =>
    intro h
    exact State.on_of_eq_self (by simp [h])
  case restored => exact Completes.of_on (fun d => { d with pwr := { d.pwr with refOk := true } }) rfl rfl

/-! ## The reset state -/

/-- An empty queue idles (log 1). -/
theorem step_of_pending_nil {s : State} (h : s.pending = []) : step s = .next s := by
  unfold step; rw [h]

/-- Settles O60: the fields by their reset values, and the idle step. -/
theorem resetIsSafeAndIdles : Obligations.ResetIsSafeAndIdles :=
  ⟨rfl, rfl, reset_mem_wf, rfl, fun _ => rfl, by decide, by decide, by decide, by decide, by decide, by decide,
    fun _ => step_of_pending_nil⟩

end Sys2Proof.Machine

/-! PROOFS. BAR0 accesses (O35): the fields that a write leaves, the register map, and the forms in which an access arrives. -/

namespace Sys2Proof.Machine

/-! ## The fields that a write leaves (R13) -/

/-- A field as a write leaves it, by its access code: of the old value, and of the value written. -/
def takenField (w : Writer) (may : Bool) (old v : Word) (f : FieldDef) : Nat :=
  let x := fieldOf v f.lo f.width
  let stands := fieldOf old f.lo f.width
  match f.acc with
  | .rw => x
  | .w1c => stands &&& (2 ^ f.width - 1 - x)
  | .fw => if isFirmware w then x else stands
  | .rwl => if may then x else stands
  | .ro | .wo | .rwe | .wofw | .arc => stands

/-- Two fields share no bit. -/
def FieldDef.apart (f g : FieldDef) : Prop := f.lo + f.width ≤ g.lo ∨ g.lo + g.width ≤ f.lo

/-- Taking a field leaves the word, or puts what the write leaves of the field. -/
theorem takeField_eq_or (w : Writer) (may : Bool) (old v acc : Word) (f : FieldDef) :
    (takeField w may old v acc f = acc ∧ takenField w may old v f = fieldOf old f.lo f.width) ∨
      takeField w may old v acc f = withField acc f.lo f.width (takenField w may old v f) := by
  unfold takeField takenField
  cases f.acc with
  | rw | w1c => exact .inr rfl
  | ro | wo | rwe | wofw | arc => exact .inl ⟨rfl, rfl⟩
  | fw => cases isFirmware w <;> simp
  | rwl => cases may <;> simp

theorem takenField_lt (w : Writer) (may : Bool) (old v : Word) (f : FieldDef) : takenField w may old v f < 2 ^ f.width := by
  have hx := fieldOf_lt v f.lo f.width
  have ho := fieldOf_lt old f.lo f.width
  unfold takenField
  cases f.acc with
  | rw => exact hx
  | w1c => exact lt_of_le_of_lt Nat.and_le_left ho
  | ro | wo | rwe | wofw | arc => exact ho
  | fw => cases isFirmware w <;> simp [hx, ho]
  | rwl => cases may <;> simp [hx, ho]

section
variable (w : Writer) (may : Bool) (old v : Word)

/-- Taking a field leaves the bits that are not its own. -/
theorem fieldOf_takeField_ne (acc : Word) (f : FieldDef) (lo n : Nat) (hf : f.lo + f.width ≤ 32)
    (hd : lo + n ≤ f.lo ∨ f.lo + f.width ≤ lo) : fieldOf (takeField w may old v acc f) lo n = fieldOf acc lo n := by
  rcases takeField_eq_or w may old v acc f with ⟨h, _⟩ | h
  · rw [h]
  · rw [h, fieldOf_withField_ne _ _ _ _ _ _ hf hd]

/-- A field that holds its old value takes the one that the write leaves. -/
theorem fieldOf_takeField_self (acc : Word) (f : FieldDef) (hf : f.lo + f.width ≤ 32)
    (ha : fieldOf acc f.lo f.width = fieldOf old f.lo f.width) :
    fieldOf (takeField w may old v acc f) f.lo f.width = takenField w may old v f := by
  rcases takeField_eq_or w may old v acc f with ⟨h, ht⟩ | h
  · rw [h, ht, ha]
  · rw [h, fieldOf_withField_self _ _ _ _ hf, Nat.mod_eq_of_lt (takenField_lt w may old v f)]

/-- Bits outside every field of a list stand. -/
theorem fieldOf_foldl_takeField_ne (lo n : Nat) (fs : List FieldDef) (hf : ∀ f ∈ fs, f.lo + f.width ≤ 32)
    (hd : ∀ f ∈ fs, lo + n ≤ f.lo ∨ f.lo + f.width ≤ lo) (acc : Word) :
    fieldOf (fs.foldl (takeField w may old v) acc) lo n = fieldOf acc lo n := by
  induction fs generalizing acc with
  | nil => rfl
  | cons f fs ih =>
    rw [List.foldl_cons, ih (fun g hg => hf g (by simp [hg])) (fun g hg => hd g (by simp [hg]))]
    exact fieldOf_takeField_ne w may old v acc f lo n (hf f (by simp)) (hd f (by simp))

/-- Of fields that share no bit, each takes the value that the write leaves. -/
theorem fieldOf_foldl_takeField_mem (fs : List FieldDef) (hf : ∀ f ∈ fs, f.lo + f.width ≤ 32) (hp : fs.Pairwise FieldDef.apart)
    (acc : Word) (ha : ∀ f ∈ fs, fieldOf acc f.lo f.width = fieldOf old f.lo f.width) :
    ∀ f ∈ fs, fieldOf (fs.foldl (takeField w may old v) acc) f.lo f.width = takenField w may old v f := by
  induction fs generalizing acc with
  | nil => exact fun f h => absurd h List.not_mem_nil
  | cons g fs ih =>
    obtain ⟨first, rest⟩ := List.pairwise_cons.mp hp
    have hg : g.lo + g.width ≤ 32 := hf g (by simp)
    have hfs : ∀ f ∈ fs, f.lo + f.width ≤ 32 := fun f h => hf f (by simp [h])
    intro f h
    rw [List.foldl_cons]
    rcases List.mem_cons.mp h with rfl | h
    · rw [fieldOf_foldl_takeField_ne w may old v _ _ fs hfs (fun g' h' => first g' h')]
      exact fieldOf_takeField_self w may old v acc f hg (ha f (by simp))
    · refine ih hfs rest _ (fun f' h' => ?_) f h
      rw [fieldOf_takeField_ne w may old v acc g _ _ hg (first f' h').symm]
      exact ha f' (by simp [h'])

end

/-- A bit as a field of its own. -/
theorem getLsbD_eq_fieldOf (v : Word) (b : Nat) : v.getLsbD b = decide (fieldOf v b 1 = 1) := by
  unfold fieldOf
  rw [BitVec.getLsbD, Nat.testBit_eq_decide_div_mod_eq, pow_one]

/-- Clearing where ones are written (R13). -/
theorem testBit_cleared {x w b : Nat} (old : Nat) (hx : x < 2 ^ w) (hb : b < w) :
    (old &&& (2 ^ w - 1 - x)).testBit b = (old.testBit b && !x.testBit b) := by
  have e : 2 ^ w - 1 - x = 2 ^ w - (x + 1) := by omega
  rw [Nat.testBit_and, e, Nat.testBit_two_pow_sub_succ hx]
  simp [hb]

/-! ## The register map (R37) -/

/-- The fields of a map lie within the word and share no bit. -/
def RegDef.tidy (r : RegDef) : Bool :=
  r.fields.all (fun f => f.lo + f.width ≤ 32) &&
    decide (r.fields.Pairwise fun f g => f.lo + f.width ≤ g.lo ∨ g.lo + g.width ≤ f.lo)

theorem regTable_tidy : regTable.all RegDef.tidy = true := by decide

theorem RegDef.tidy_iff (r : RegDef) :
    r.tidy = true ↔ (∀ f ∈ r.fields, f.lo + f.width ≤ 32) ∧ r.fields.Pairwise FieldDef.apart := by
  rw [RegDef.tidy, Bool.and_eq_true, List.all_eq_true, decide_eq_true_eq]
  exact and_congr_left fun _ => forall₂_congr fun f _ => decide_eq_true_iff

theorem findReg_mem {l : List RegDef} {off : Nat} {x : RegDef × Nat × Nat} (h : findReg l off = some x) : x.1 ∈ l := by
  induction l with
  | nil => simp [findReg] at h
  | cons r l ih =>
    unfold findReg at h
    cases hi : r.index off with
    | some nk =>
      simp only [hi, Option.some.injEq] at h
      exact h ▸ List.mem_cons_self
    | none => exact List.mem_cons_of_mem _ (ih (by simpa [hi] using h))

/-- The registers that an audit record and a count of refusals write hold no role field. -/
theorem auditRegs_no_roleField : ∀ a ∈ Adr.SEC_CNT 7 :: auditRegs,
    (findReg regTable a).all (fun x => !x.1.fields.any roleField) = true := by decide

/-! ## A write to a register of the map -/

/-- A write discarded whole leaves the register (R478). -/
theorem Dev.reg_discardWrite (d : Dev) (w : Writer) (b : BusReg) (v : Word) (hb : findReg regTable b.off = some (b.map, b.n, b.k)) :
    (d.discardWrite w b v).reg b.off = d.reg b.off := by
  unfold Dev.discardWrite
  cases hr : b.map.fields.any roleField with
  | false => rw [Dev.when_false]
  | true =>
    have apart : b.off ∉ Adr.SEC_CNT 7 :: auditRegs := fun hm => by
      have := auditRegs_no_roleField _ hm
      simp [hb, hr] at this
    rw [Dev.when_true]
    have counted (c : Bool) : SameRegs d (d.when c fun d => d.count (Adr.SEC_CNT 7)) (Adr.SEC_CNT 7 :: auditRegs) :=
      (SameRegs.refl d _).when ((SameRegs.refl d _).count List.mem_cons_self)
    exact ((counted _).trans ((Dev.sameRegs_auditWrite _ w b.off v false).mono (List.subset_cons_self _ _))) _ apart

/-- A write taken gives the register its fields one by one (R13). -/
theorem Dev.reg_takeWrite (d : Dev) (w : Writer) (b : BusReg) (v : Word) :
    (d.takeWrite w b v).reg b.off = b.map.fields.foldl (takeField w (d.mayWrite w) (d.reg b.off) v) (d.reg b.off) := by
  have kept (n : Dev) (c : Bool) : (n.when c fun d => d.keepSetting b.off).reg b.off = n.reg b.off := by
    cases c <;> rfl
  unfold Dev.takeWrite
  rw [kept, Dev.reg_setReg_self]

/-- A register without an effect of its own takes a write that keeps its ranges, and discards another. -/
theorem Dev.busWrite_plain (d : Dev) (w : Writer) {off : Nat} (v : Word) {r : RegDef} {n k : Nat} (hh : d.hidden off = false)
    (hr : findReg regTable off = some (r, n, k)) (he : effectOf r.base = none) (hp : pairRule r.base v = true) :
    d.busWrite w off v = if r.fields.any (outside w v) then d.discardWrite w ⟨off, r, n, k⟩ v else d.takeWrite w ⟨off, r, n, k⟩ v := by
  unfold Dev.busWrite Dev.registerTakes Dev.plainThen
  simp [hh, hr, he, hp]

/-- What a hidden register takes of a write (R2, R370). -/
theorem Dev.busWrite_hidden (d : Dev) (w : Writer) {off : Nat} (v : Word) (hh : d.hidden off = true) : d.busWrite w off v = d := by
  simp [Dev.busWrite, hh]

/-- What an offset that names no register and lies in no window takes of a write (R12). -/
theorem Dev.busWrite_unlisted (d : Dev) (w : Writer) {off : Nat} (v : Word) (hr : findReg regTable off = none)
    (ht : off < 0x60000 ∨ 0xa8000 ≤ off) (hm : off < 0x110000 ∨ 0x118000 ≤ off) : d.busWrite w off v = d := by
  unfold Dev.busWrite
  simp only [hr]
  rw [if_neg (by omega : ¬(0x60000 ≤ off ∧ off < 0x80000 ∧ 0x8000 ≤ off % 0x10000)),
    if_neg (by omega : ¬(0x80000 ≤ off ∧ off < 0xa0000 ∧ 0x2000 ≤ off % 0x4000)),
    if_neg (by omega : ¬(0xa1000 ≤ off ∧ off < 0xa3000)), if_neg (by omega : ¬(0xa4000 ≤ off ∧ off < 0xa8000)),
    if_neg (by omega : ¬(0x110000 ≤ off ∧ off < 0x118000)), ite_self]

/-- The register after a write of values within their fields' ranges: each field by its access code, and a bit of no field as it was. -/
theorem Dev.takeWrite_fields (d : Dev) (w : Writer) (v : Word) {off : Nat} {r : RegDef} {n k : Nat}
    (hr : findReg regTable off = some (r, n, k)) :
    let d' := d.takeWrite w ⟨off, r, n, k⟩ v
    (∀ f ∈ r.fields, fieldOf (d'.reg off) f.lo f.width = takenField w (d.mayWrite w) (d.reg off) v f) ∧
    ∀ b, (∀ f ∈ r.fields, b < f.lo ∨ f.lo + f.width ≤ b) → (d'.reg off).getLsbD b = (d.reg off).getLsbD b := by
  obtain ⟨fits, apart⟩ := r.tidy_iff.mp (List.all_eq_true.mp regTable_tidy r (findReg_mem hr))
  have taken := d.reg_takeWrite w ⟨off, r, n, k⟩ v
  intro d'
  refine ⟨fun f hf => ?_, fun b hb => ?_⟩
  · rw [taken]
    exact fieldOf_foldl_takeField_mem w _ _ v r.fields fits apart _ (fun _ _ => rfl) f hf
  · have bit := fieldOf_foldl_takeField_ne w (d.mayWrite w) (d.reg off) v b 1 r.fields fits
      (fun f hf => (hb f hf).imp_left Nat.succ_le_of_lt) (d.reg off)
    rw [taken, getLsbD_eq_fieldOf, getLsbD_eq_fieldOf, bit]

/-! ## The forms in which an access arrives (R11) -/

/-- A 32-bit write with all its enables, as a command. -/
theorem Dev.hostBusWrite_word (d : Dev) (a : BitVec 24) (v : DWord) (ha : a.toNat % 4 = 0) :
    d.hostBusWrite ⟨a, .b32, 0x0f, v⟩ = d.busWrite .host a.toNat (v.setWidth 32) := by
  simp [Dev.hostBusWrite, ha, Dev.when]

/-- A 32-bit write that the register ignores changes nothing, at whatever offset. -/
theorem Dev.hostBusWrite_ignored (d : Dev) (a : BitVec 24) (v : DWord) (h : d.busWrite .host a.toNat (v.setWidth 32) = d) :
    d.hostBusWrite ⟨a, .b32, 0x0f, v⟩ = d := by
  by_cases ha : a.toNat % 4 = 0
  · rw [d.hostBusWrite_word a v ha, h]
  · simp [Dev.hostBusWrite, ha]

/-- Narrow, misaligned and partly enabled writes are discarded. -/
theorem Dev.hostBusWrite_discarded (d : Dev) (w : BusWrite) (h : w.off.toNat % 4 ≠ 0 ∨ w.size = .b8 ∨ w.size = .b16 ∨
    (w.enables.toNat % 16 ≠ 15 ∧ (w.size = .b32 ∨ w.enables.toNat / 16 ≠ 15))) : d.hostBusWrite w = d := by
  by_cases ha : w.off.toNat % 4 = 0
  · unfold Dev.hostBusWrite
    cases hs : w.size with
    | b8 | b16 => simp
    | b32 =>
      have low : w.enables.toNat % 16 ≠ 15 := by simpa [ha, hs] using h.imp_right (·.imp_right (·.imp_right And.left))
      simp [low, Dev.when]
    | b64 =>
      have part : w.enables.toNat % 16 ≠ 15 ∧ w.enables.toNat / 16 ≠ 15 := by simpa [ha, hs] using h
      simp [part.1, part.2, Dev.when]
  · simp [Dev.hostBusWrite, ha]

/-- A 64-bit write is two of 32 bits, the lower first. -/
theorem Dev.hostBusWrite_double (d : Dev) (a : BitVec 24) (v : DWord) (ha : a.toNat % 4 = 0) (hb : a.toNat + 4 < 2 ^ 24) :
    d.hostBusWrite ⟨a, .b64, 0xff, v⟩ =
      (d.hostBusWrite ⟨a, .b32, 0x0f, v⟩).hostBusWrite ⟨a + 4, .b32, 0x0f, v >>> 32⟩ := by
  have next : (a + 4).toNat = a.toNat + 4 := by
    rw [BitVec.toNat_add]
    exact Nat.mod_eq_of_lt hb
  have high : v.extractLsb' 32 32 = (v >>> 32).setWidth 32 := by
    apply BitVec.eq_of_getLsbD_eq
    intro i hi
    simp [hi]
  rw [d.hostBusWrite_word a v ha, Dev.hostBusWrite_word _ _ _ (by omega), next, ← high]
  unfold Dev.hostBusWrite
  simp only [ha, decide_eq_true hb]
  rfl

theorem Dev.busRead_of_ne (d : Dev) {off : Nat} (h : off ≠ Adr.LOCUS_NOW_LO) : d.busRead off = (d.busWord off, d) := by
  simp [Dev.busRead, Dev.when, h]

/-- Two words read as one double word, the lower address below (R10). -/
theorem ofNat_two_words (lo hi : Word) : BitVec.ofNat 64 (lo.toNat + 2 ^ 32 * hi.toNat) = hi ++ lo := by
  have hl := lo.isLt
  have hh := hi.isLt
  apply BitVec.eq_of_toNat_eq
  rw [BitVec.toNat_ofNat, BitVec.toNat_append, Nat.shiftLeft_eq, Nat.mul_comm, ← Nat.shiftLeft_eq, Nat.add_comm,
    Nat.shiftLeft_add_eq_or_of_lt hl, Nat.mod_eq_of_lt]
  rw [← Nat.shiftLeft_add_eq_or_of_lt hl, Nat.shiftLeft_eq]
  omega

section
variable (d : Dev) (r : BusRead)

/-- Narrow reads return all ones. -/
theorem Dev.hostBusRead_narrow :
    (r.size = .b8 → d.hostBusRead r = { d with rdata := 0xff }) ∧ (r.size = .b16 → d.hostBusRead r = { d with rdata := 0xffff }) := by
  constructor <;> intro h <;> simp [Dev.hostBusRead, h]

/-- Misaligned reads return all ones. -/
theorem Dev.hostBusRead_misaligned (ha : r.off.toNat % 4 ≠ 0) :
    (r.size = .b32 → d.hostBusRead r = { d with rdata := 0xffffffff }) ∧
    (r.size = .b64 → d.hostBusRead r = { d with rdata := 0xffffffffffffffff }) := by
  constructor <;> intro h <;> simp [Dev.hostBusRead, h, ha]

/-- An aligned read of a word. -/
theorem Dev.hostBusRead_word (ha : r.off.toNat % 4 = 0) (hs : r.size = .b32) (hn : r.off.toNat ≠ Adr.LOCUS_NOW_LO) :
    d.hostBusRead r = { d with rdata := (d.busWord r.off.toNat).setWidth 64 } := by
  unfold Dev.hostBusRead
  simp only [hs, ha, d.busRead_of_ne hn]
  rw [← BitVec.ofNat_toNat]
  rfl

/-- An aligned read of two words. -/
theorem Dev.hostBusRead_double (ha : r.off.toNat % 4 = 0) (hs : r.size = .b64) (hn : r.off.toNat ≠ Adr.LOCUS_NOW_LO)
    (hn' : r.off.toNat + 4 ≠ Adr.LOCUS_NOW_LO) (hb : r.off.toNat + 4 < 2 ^ 24) :
    d.hostBusRead r = { d with rdata := d.busWord (r.off.toNat + 4) ++ d.busWord r.off.toNat } := by
  unfold Dev.hostBusRead
  simp only [hs, ha, d.busRead_of_ne hn, d.busRead_of_ne hn', if_pos hb]
  rw [← ofNat_two_words]
  rfl

end

/-! ## The obligation -/

/-- A command whose bus access changes the block to d'. -/
theorem exec_registerWrite (s : State) (b : BusAccess) {d : Dev} (h : s.dev.hostBus b = d) :
    exec (.registerWrite b) s = .next { s with dev := d } := by
  rw [← h]; rfl

theorem exec_registerWrite_same (s : State) (b : BusAccess) (h : s.dev.hostBus b = s.dev) : exec (.registerWrite b) s = .next s :=
  exec_registerWrite s b h

/-- A 32-bit write of a word at an aligned offset. -/
theorem completes_wordWrite (s : State) (a : BitVec 24) (v : Word) (ha : a.toNat % 4 = 0) {P : Dev → Prop}
    (h : P (s.dev.busWrite .host a.toNat v)) : Completes (.registerWrite (.write ⟨a, .b32, 0x0f, v.setWidth 64⟩)) s P := by
  refine ⟨s.dev.busWrite .host a.toNat v, exec_registerWrite s _ ?_, h⟩
  have word : (v.setWidth 64).setWidth 32 = v := by simp
  exact (s.dev.hostBusWrite_word a _ ha).trans (by rw [word])

/-- Each access code as the statement words it (R13), of the host's writes. -/
theorem takenField_host (may : Bool) (old v : Word) (f : FieldDef) :
    let x := fieldOf v f.lo f.width
    let stands := fieldOf old f.lo f.width
    let new := takenField .host may old v f
    (f.acc = .rw → new = x) ∧
    (f.acc = .w1c → ∀ b < f.width, new.testBit b = (stands.testBit b && !x.testBit b)) ∧
    (f.acc = .rwl → new = if may then x else stands) ∧
    (f.acc ∈ [.ro, .wo, .rwe, .fw, .wofw, .arc] → new = stands) := by
  have hx := fieldOf_lt v f.lo f.width
  refine ⟨fun h => ?_, fun h b hb => ?_, fun h => ?_, fun h => ?_⟩
  · simp [takenField, h]
  · simp only [takenField, h]
    exact testBit_cleared _ hx hb
  · simp [takenField, h]
  · rcases f with ⟨lo, width, acc, reset, range⟩
    cases acc with
    | rw | w1c | rwl => simp at h
    | ro | wo | rwe | fw | wofw | arc => rfl

/-- Settles O35: the forms of an access, then the register that it reaches. -/
theorem writesObeyAccessCodes : Obligations.WritesObeyAccessCodes := by
  intro s a v data w r copy
  refine ⟨rfl, ?b8, ?b16, ?odd32, ?odd64, ?word, ?double, ?discarded, ?two, ?hidden, ?unlisted, ?plain⟩
  case b8 => exact fun h => exec_registerWrite s _ ((s.dev.hostBusRead_narrow r).1 h)
  case b16 => exact fun h => exec_registerWrite s _ ((s.dev.hostBusRead_narrow r).2 h)
  case odd32 => exact fun ha h => exec_registerWrite s _ ((s.dev.hostBusRead_misaligned r ha).1 h)
  case odd64 => exact fun ha h => exec_registerWrite s _ ((s.dev.hostBusRead_misaligned r ha).2 h)
  case word => exact fun ha hs hn => exec_registerWrite s _ (s.dev.hostBusRead_word r ha hs hn)
  case double => exact fun ha hs hn hn' hb => exec_registerWrite s _ (s.dev.hostBusRead_double r ha hs hn hn' hb)
  case discarded => exact fun h => exec_registerWrite_same s _ (s.dev.hostBusWrite_discarded w h)
  case two =>
    intro ha hb
    refine ⟨{ s with dev := s.dev.hostBusWrite ⟨a, .b32, 0x0f, data⟩ }, rfl, ?_⟩
    exact exec_registerWrite s _ (s.dev.hostBusWrite_double a data ha hb)
  case hidden =>
    exact fun h => exec_registerWrite_same s _ (s.dev.hostBusWrite_ignored a _ (s.dev.busWrite_hidden _ _ h))
  case unlisted =>
    exact fun hr ht hm => exec_registerWrite_same s _ (s.dev.hostBusWrite_ignored a _ (s.dev.busWrite_unlisted _ _ hr ht hm))
  case plain =>
    intro r n k ha hh hr he hp
    have plain := s.dev.busWrite_plain .host v hh hr he hp
    refine ⟨fun ho => completes_wordWrite s a v ha ?_, fun ho => completes_wordWrite s a v ha ?_⟩
    · rw [plain, if_pos ho]
      exact s.dev.reg_discardWrite .host ⟨a.toNat, r, n, k⟩ v hr
    · rw [plain, if_neg (by simp [ho])]
      obtain ⟨fields, bits⟩ := s.dev.takeWrite_fields .host v hr
      refine ⟨fun f hf => ?_, fun b _ hb => bits b hb⟩
      intro x old new
      have new_eq : new = takenField .host (s.dev.mayWrite .host) (s.dev.reg a.toNat) v f := fields f hf
      rw [new_eq]
      exact takenField_host _ _ v f

end Sys2Proof.Machine

/-! PROOFS. Write paths (O30): what guards change of a write path, the end of an OPC run, and the exchange of banks. -/

namespace Sys2Proof.Machine

/-! ## A write path among the block's parts -/

@[simp] theorem Dev.wps_onWp_self (d : Dev) (h : Nat) (g : WpSt → WpSt) : (d.onWp h g).wps h = g (d.wps h) :=
  Tab.get_set_self _ _ _

@[simp] theorem Dev.wps_countBy (d : Dev) (a n h : Nat) : (d.countBy a n).wps h = d.wps h := rfl

/-- A write path that differs in its running band write and its OPC run alone: every guard condition stands. -/
def WpSt.GuardsStand (w w' : WpSt) : Prop := w' = { w with run := w'.run, opc := w'.opc }

theorem WpSt.GuardsStand.refl (w : WpSt) : w.GuardsStand w := rfl

theorem WpSt.GuardsStand.trans {w w' w'' : WpSt} (h : w.GuardsStand w') (h' : w'.GuardsStand w'') : w.GuardsStand w'' := by
  unfold WpSt.GuardsStand at *
  rw [h] at h'
  exact h'

theorem WpSt.GuardsStand.of_eq {w w' : WpSt} (h : w' = w) : w.GuardsStand w' := h ▸ WpSt.GuardsStand.refl w

/-- A change of a write path's run and OPC run. -/
theorem Dev.guardsStand_onWp (d : Dev) (h : Nat) (g : WpSt → WpSt) (hg : ∀ w : WpSt, w.GuardsStand (g w)) :
    (d.wps h).GuardsStand ((d.onWp h g).wps h) := by
  rw [Dev.wps_onWp_self]; exact hg _

section
variable (d : Dev) (h : Nat)

theorem Dev.guardsStand_opcInvalid (beams : List Nat) : (d.wps h).GuardsStand ((d.opcInvalid h beams).wps h) := by
  unfold Dev.opcInvalid
  split
  · split
    · exact d.guardsStand_onWp h _ fun _ => rfl
    · exact .refl _
  · exact .refl _

theorem Dev.wps_event (kind : EventKind) (unit code : Nat) (detail : List Nat) : (d.event kind unit code detail).wps h = d.wps h := by
  rw [Dev.event_only]; rfl

theorem Dev.guardsStand_inhibitPost (code : Nat) (beams : List Nat) (counter : Option Nat) :
    (d.wps h).GuardsStand ((d.inhibitPost h code beams counter).wps h) := by
  unfold Dev.inhibitPost
  refine WpSt.GuardsStand.trans (.of_eq ?_) (Dev.guardsStand_opcInvalid _ h beams)
  rw [← d.wps_event h .guardInhibit h code beams]
  cases counter <;> rfl

theorem Dev.guardsStand_holdShut (ps : List Nat) (bit : Nat) : (d.wps h).GuardsStand ((d.holdShut h ps bit).wps h) := by
  unfold Dev.holdShut
  split
  · exact .refl _
  · exact d.guardsStand_onWp h _ fun _ => rfl

theorem Dev.guardsStand_shutFrom (ps : List Nat) (bit : Nat) : (d.wps h).GuardsStand ((d.shutFrom h ps bit).wps h) := by
  unfold Dev.shutFrom
  split
  · exact d.guardsStand_onWp h _ fun _ => rfl
  · refine (d.guardsStand_holdShut h (ps.filter fun p => d.beamAt h p != 15) bit).trans ?_
    simp only [Dev.wps_countBy, Dev.wps_onWp_self]
    rfl

/-- A guard that closes gates leaves the guard conditions (R148). -/
theorem Dev.guardsStand_inhibit (code : Nat) (beams : List Nat) (counter : Option Nat) :
    (d.wps h).GuardsStand ((d.inhibit h code beams counter).wps h) := by
  unfold Dev.inhibit
  cases d.writing h with
  | false => exact .refl _
  | true => exact (d.guardsStand_inhibitPost h code beams counter).trans (Dev.guardsStand_shutFrom _ h _ _)

/-- WP_STATUS is all that showing a write path writes. -/
theorem Dev.regFrame_showWp : RegFrame d (d.showWp h) [Adr.WP_STATUS h] :=
  (((RegFrame.refl d _).put (by simp [Fld.WP_STATUS_QUEUED_N])).putBit (by simp [Fld.WP_STATUS_QUEUED])).putBit
    (by simp [Fld.WP_STATUS_BUSY]) |>.putBit (by simp [Fld.WP_STATUS_INHIBIT])

@[simp] theorem Dev.wps_showWp (k : Nat) : (d.showWp h).wps k = d.wps k := rfl

theorem Dev.bit_showWp_busy : (d.showWp h).bit (Fld.WP_STATUS_BUSY h) = d.wpBusy h := by
  unfold Dev.showWp
  rw [Dev.bit_putBit_ne _ (Fld.WP_STATUS_INHIBIT h) (Fld.WP_STATUS_BUSY h) _ (.inr (.inl (Nat.le_of_ble_eq_true rfl)))]
  exact Dev.bit_putBit_self _ _ _

theorem Dev.bit_showWp_inhibit :
    (d.showWp h).bit (Fld.WP_STATUS_INHIBIT h) = ((d.wps h).headClosed || !(d.wps h).closedBeams.isEmpty) :=
  Dev.bit_putBit_self _ _ _

/-- Fields of WP_STATUS that showing a write path does not write. -/
theorem Dev.bit_showWp_ne (f : Field) (lo : 3 ≤ f.lo) (hi : f.lo + f.width ≤ 10) : (d.showWp h).bit f = d.bit f := by
  unfold Dev.showWp
  rw [Dev.bit_putBit_ne _ (Fld.WP_STATUS_INHIBIT h) f _ (.inr (.inr lo)),
    Dev.bit_putBit_ne _ (Fld.WP_STATUS_BUSY h) f _ (.inr (.inr (le_trans (Nat.le_of_ble_eq_true rfl) lo))),
    Dev.bit_putBit_ne _ (Fld.WP_STATUS_QUEUED h) f _ (.inr (.inr (le_trans (Nat.le_of_ble_eq_true rfl) lo))),
    Dev.bit_put_ne _ (Fld.WP_STATUS_QUEUED_N h) f _ (.inr (.inl hi))]

end

/-! ## OPC (R146) -/

/-- Entries taken out of a table read as its default. -/
theorem Tab.get_filter_of_not {α : Type} {r : Nat → α} (t : Tab α) (p : Nat × α → Bool) {k : Nat}
    (h : ∀ e : Nat × α, e.1 = k → p e = false) : Tab.get r (t.filter p) k = r k := by
  induction t with
  | nil => rfl
  | cons e t ih =>
    cases hp : p e with
    | false => rw [List.filter_cons_of_neg (by simp [hp]), ih]
    | true =>
      have apart : e.1 ≠ k := fun he => by simp [h e he] at hp
      rw [List.filter_cons_of_pos hp]
      simpa [Tab.get, apart] using ih

/-- An OPC run that is refused (R146). -/
theorem completes_opcGo_refused (s : State) (h : Head) (hh : s.dev.hasHead h = true) (hr : s.dev.opcRefused h.ix = true) :
    Completes (.opcGo h) s fun d => d.bit (Fld.WP_STATUS_OPC_REFUSED h.ix) = true ∧
      d = { s.dev with regs := d.regs } ∧ SameRegs s.dev d [Adr.WP_STATUS h.ix] := by
  refine Completes.of_on (fun d => d.when (d.hasHead h) fun d => d.opcGo h.ix) rfl ?_
  rw [hh, Dev.when_true, Dev.opcGo, if_pos hr]
  exact ⟨Dev.bit_putBit_self _ _ _, (RegFrame.refl _ _).putBit (by simp [Fld.WP_STATUS_OPC_REFUSED])⟩

/-- A fresh OPC run in a write path, as its status shows it. -/
theorem Dev.opcBegins_eq (n : Dev) (h : Nat) :
    let d := (n.onWp h fun w => { w with opc := some {} }).showWp h
    (d.wps h).opc = some {} ∧ d.bit (Fld.WP_STATUS_BUSY h) = true ∧ d = { n with regs := d.regs, wp := d.wp } ∧
      SameRegs n d [Adr.WP_STATUS h] := by
  have run : ((n.onWp h fun w => { w with opc := some {} }).wps h).opc = some {} := by rw [Dev.wps_onWp_self]
  intro d
  refine ⟨run, ?_, ?_, SameRegs.trans (SameRegs.of_regs_eq rfl) (Dev.regFrame_showWp _ h).2⟩
  · rw [Dev.bit_showWp_busy, Dev.wpBusy, run, Option.isSome_some, Bool.or_true]
  · exact (Dev.regFrame_showWp (n.onWp h fun w => { w with opc := some {} }) h).1

/-- An OPC run that starts, a band write of its own for the laser faults (R146, R381). -/
theorem completes_opcGo_starts (s : State) (h : Head) (hh : s.dev.hasHead h = true) (hr : s.dev.opcRefused h.ix = false) :
    Completes (.opcGo h) s fun d => (d.wps h.ix).opc = some {} ∧
      d.bit (Fld.WP_STATUS_BUSY h.ix) = true ∧ (∀ b < 10, Tab.get (fun _ => 0) d.spr.laserFaults (16 * h.ix + b) = 0) ∧
      d = { s.dev with regs := d.regs, wp := d.wp, spr := { s.dev.spr with laserFaults := d.spr.laserFaults } } ∧
      SameRegs s.dev d [Adr.WP_STATUS h.ix] := by
  refine Completes.of_on (fun d => d.when (d.hasHead h) fun d => d.opcGo h.ix) rfl ?_
  rw [hh, Dev.when_true, Dev.opcGo, if_neg (by simp [hr])]
  obtain ⟨run, busy, only, same⟩ := Dev.opcBegins_eq
    { s.dev with spr := { s.dev.spr with laserFaults := s.dev.spr.laserFaults.filter fun e => e.1 / 16 != h.ix } } h.ix
  refine ⟨run, busy, fun b hb => ?_, only, SameRegs.trans (SameRegs.of_regs_eq rfl) same⟩
  refine Tab.get_filter_of_not s.dev.spr.laserFaults _ fun e he => ?_
  have own : e.1 / 16 = h.ix := by omega
  simp [own]

/-- The parts of the block that an OPC result touches: its two registers, and the free values that stand for means of no sample. -/
def OpcFrame (h : Nat) (d d' : Dev) : Prop :=
  d' = { d with regs := d'.regs, free := d'.free } ∧ ∀ k < 8, d'.reg (Adr.WP_CNT h k) = d.reg (Adr.WP_CNT h k)

section
variable {h : Nat} {d d' : Dev}

theorem OpcFrame.refl (h : Nat) (d : Dev) : OpcFrame h d d := ⟨rfl, fun _ _ => rfl⟩

theorem OpcFrame.trans {d'' : Dev} (h1 : OpcFrame h d d') (h2 : OpcFrame h d' d'') : OpcFrame h d d'' := by
  obtain ⟨only, counters⟩ := h1
  obtain ⟨only', counters'⟩ := h2
  refine ⟨?_, fun k hk => (counters' k hk).trans (counters k hk)⟩
  rw [only] at only'
  exact only'

theorem OpcFrame.when_drew (c : Bool) : OpcFrame h d (d.when c fun d => d.drew) := by
  cases c with
  | true => exact ⟨rfl, fun _ _ => rfl⟩
  | false => exact .refl h d

theorem OpcFrame.setReg {a : Nat} {v : Word} (ha : ∀ k < 8, Adr.WP_CNT h k ≠ a) : OpcFrame h d (d.setReg a v) :=
  ⟨rfl, fun k hk => Dev.reg_setReg_ne d v (ha k hk)⟩

theorem OpcFrame.each {α : Type} {f : Dev → α → Dev} (hf : ∀ n x, OpcFrame h n (f n x)) (xs : List α) :
    ∀ d : Dev, OpcFrame h d (d.each xs f) := by
  induction xs with
  | nil => exact fun d => .refl h d
  | cons x xs ih => exact fun d => (hf d x).trans (ih (f d x))

end

/-- The registers of OPC results are no counters. -/
theorem wpCnt_ne_wpOpc (h b j : Nat) : ∀ k < 8, Adr.WP_CNT h k ≠ Adr.WP_OPC h b j ∧ Adr.WP_CNT h k ≠ Adr.WP_OPC_MON h b j := by
  intro k hk
  unfold Adr.WP_CNT Adr.WP_OPC Adr.WP_OPC_MON
  omega

theorem Dev.opcFrame_opcResult (d : Dev) (h b k : Nat) (o : OpcRun) : OpcFrame h d (d.opcResult h b k o) := by
  unfold Dev.opcResult
  exact ((OpcFrame.when_drew _).trans (OpcFrame.when_drew _)).trans
    ((OpcFrame.setReg fun c hc => (wpCnt_ne_wpOpc h b k c hc).1).trans (OpcFrame.setReg fun c hc => (wpCnt_ne_wpOpc h b k c hc).2))

/-- An end of no OPC run that has been read back (R146). -/
theorem exec_opcDone_of_not_done (s : State) (h : Head) (ho : ∀ o, (s.dev.wps h.ix).opc = some o → o.phase ≠ .done) :
    exec (.opcDone h ()) s = .next s := by
  show execOpcDone h () s = _
  unfold execOpcDone
  refine State.on_of_eq_self ?_
  cases hc : (s.dev.wps h.ix).opc with
  | none => simp
  | some o => simp [ho o hc]

/-- The results of an OPC run reach the registers. -/
def Dev.opcResults (d : Dev) (h : Nat) (o : OpcRun) : Dev :=
  d.each (d.mapBeams h) fun d b => d.each (List.range (d.fld (Fld.WP_OPC_CFG_STEPS h))) fun d k => d.opcResult h b k o

theorem Dev.opcFrame_opcResults (d : Dev) (h : Nat) (o : OpcRun) : OpcFrame h d (d.opcResults h o) :=
  OpcFrame.each (fun n b => OpcFrame.each (fun n k => n.opcFrame_opcResult h b k o) _ n) _ d

/-- An OPC run leaves its write path, counted and shown. -/
def Dev.opcEnds (n : Dev) (h : Nat) : Dev :=
  (((n.onWp h fun w => { w with opc := none }).count (Adr.WP_CNT h 7)).putBit (Fld.WP_STATUS_OPC_DONE h) true).showWp h

theorem exec_opcDone_of_done (s : State) (h : Head) (o : OpcRun) (ho : (s.dev.wps h.ix).opc = some o) (hp : o.phase = .done) :
    exec (.opcDone h ()) s = .next { s with dev := (s.dev.opcResults h.ix o).opcEnds h.ix } := by
  show execOpcDone h () s = _
  unfold execOpcDone
  rw [State.on_eq]
  simp only [ho, hp]
  rfl

theorem Dev.opcEnds_eq (n : Dev) (h : Nat) :
    ((n.opcEnds h).wps h).opc = none ∧ (n.opcEnds h).bit (Fld.WP_STATUS_OPC_DONE h) = true ∧
      (n.opcEnds h).reg (Adr.WP_CNT h 7) = n.counted (Adr.WP_CNT h 7) 1 ∧
      n.opcEnds h = { n with regs := (n.opcEnds h).regs, wp := (n.opcEnds h).wp, free := (n.opcEnds h).free } := by
  unfold Dev.opcEnds
  have shown := Dev.regFrame_showWp
    (((n.onWp h fun w => { w with opc := none }).count (Adr.WP_CNT h 7)).putBit (Fld.WP_STATUS_OPC_DONE h) true) h
  refine ⟨?_, ?_, ?_, shown.1⟩
  · rw [Dev.wps_showWp]
    exact congrArg WpSt.opc (n.wps_onWp_self h fun w => { w with opc := none })
  · rw [Dev.bit_showWp_ne _ _ _ (Nat.le_of_ble_eq_true rfl) (Nat.le_of_ble_eq_true rfl)]
    exact Dev.bit_putBit_self _ _ _
  · have apart : Adr.WP_CNT h 7 ≠ Adr.WP_STATUS h := by unfold Adr.WP_CNT Adr.WP_STATUS; omega
    rw [shown.2 _ (by simp [apart]), Dev.putBit, Dev.reg_put_ne _ _ _ apart, Dev.count, Dev.reg_countBy, if_pos rfl, Dev.reg_onWp]
    rfl

/-- The end of an OPC run: its results are recorded, and it is counted (R146, R153). -/
theorem completes_opcDone (s : State) (h : Head) (o : OpcRun) (ho : (s.dev.wps h.ix).opc = some o) (hp : o.phase = .done) :
    Completes (.opcDone h ()) s fun d => (d.wps h.ix).opc = none ∧
      d.bit (Fld.WP_STATUS_OPC_DONE h.ix) = true ∧ d.reg (Adr.WP_CNT h.ix 7) = s.dev.counted (Adr.WP_CNT h.ix 7) 1 ∧
      d = { s.dev with regs := d.regs, wp := d.wp, free := d.free } := by
  obtain ⟨resultsOnly, counters⟩ := s.dev.opcFrame_opcResults h.ix o
  obtain ⟨ended, shown, counted, only⟩ := (s.dev.opcResults h.ix o).opcEnds_eq h.ix
  refine ⟨_, exec_opcDone_of_done s h o ho hp, ended, shown, ?_, ?_⟩
  · rw [counted, Dev.counted, counters 7 (by decide)]
    rfl
  · generalize (s.dev.opcResults h.ix o).opcEnds h.ix = d at only ⊢
    generalize s.dev.opcResults h.ix o = n at resultsOnly only
    rw [resultsOnly] at only
    exact only

/-! ## Guards, copies and banks (R8, R148, R152) -/

/-- A head-wide guard condition closes the gate of every beam (R148). -/
theorem Dev.gateOpen_of_headClosed (d : Dev) (h b : Nat) (hc : (d.wps h).headClosed = true) : d.gateOpen h b = false := by
  simp [Dev.gateOpen, hc]

theorem WpSt.headClosed_of_silence {w : WpSt} (h : w.silence = true) : w.headClosed = true := by
  simp [WpSt.headClosed, h]

theorem WpSt.GuardsStand.silence {w w' : WpSt} (h : w.GuardsStand w') : w'.silence = w.silence := by
  rw [h]

theorem WpSt.GuardsStand.retiredCopy {w w' : WpSt} (h : w.GuardsStand w') : w'.retiredCopy = w.retiredCopy := by
  rw [h]

/-- OFFTRACK is a bit of WP_STATUS. -/
theorem Dev.wps_offtrack (d : Dev) (h : Nat) : (d.offtrack h).wps h = d.wps h := by
  unfold Dev.offtrack
  cases d.writing h <;> rfl

/-- A tracking, focus or silence condition that rises leaves the guard conditions. -/
theorem Dev.guardsStand_rise (d : Dev) (h code : Nat) (c : Bool) :
    (d.wps h).GuardsStand ((d.when c fun d => (d.inhibit h code (d.mapBeams h) (some 3)).offtrack h).wps h) := by
  cases c with
  | false => exact .refl _
  | true =>
    rw [Dev.when_true, Dev.wps_offtrack]
    exact d.guardsStand_inhibit h code _ _

/-- A silent head, shown: INHIBIT is set, and no gate is open. -/
theorem Dev.showWp_of_silence (d : Dev) (h : Nat) (hs : (d.wps h).silence = true) :
    ((d.showWp h).wps h).silence = true ∧ (d.showWp h).bit (Fld.WP_STATUS_INHIBIT h) = true ∧
      ∀ b < 10, (d.showWp h).gateOpen h b = false := by
  have closed := WpSt.headClosed_of_silence hs
  refine ⟨hs, ?_, fun b _ => Dev.gateOpen_of_headClosed _ h b closed⟩
  rw [Dev.bit_showWp_inhibit, closed, Bool.true_or]

/-- The silence of a head's guards stands, and closes its gates where it is new. -/
def Dev.fallSilent (d : Dev) (h : Nat) : Dev :=
  (d.onWp h fun w => { w with silence := true }).when (!(d.wps h).silence) fun d =>
    (d.inhibit h inhSilence (d.mapBeams h) (some 3)).offtrack h

theorem Dev.silence_fallSilent (d : Dev) (h : Nat) : ((d.fallSilent h).wps h).silence = true :=
  (Dev.guardsStand_rise _ h inhSilence _).silence.trans (congrArg WpSt.silence (d.wps_onWp_self h _))

theorem exec_guardSilence (s : State) (h : Head) (hh : s.dev.hasHead h = true) :
    exec (.guardSilence h) s = .next { s with dev := (s.dev.fallSilent h.ix).showWp h.ix } := by
  show execGuardSilence h s = _
  unfold execGuardSilence
  rw [State.on_eq]
  simp only [hh]
  rfl

/-- Two ticks without a guard sample (R148). -/
theorem completes_guardSilence (s : State) (h : Head) (hh : s.dev.hasHead h = true) :
    Completes (.guardSilence h) s fun d => (d.wps h.ix).silence = true ∧ d.bit (Fld.WP_STATUS_INHIBIT h.ix) = true ∧
      ∀ b < 10, d.gateOpen h.ix b = false :=
  ⟨_, exec_guardSilence s h hh, Dev.showWp_of_silence _ _ (s.dev.silence_fallSilent h.ix)⟩

/-- The copy of a write path that a mismatch shows to be at fault (R8; log 27). -/
def Dev.faultyCopy (d : Dev) (h : Nat) (e : EdgeRecord) : Fin 2 :=
  match e.reports with
  | some c => c
  | none => if d.thirdEdge h e = some e.first then 1 else 0

/-- A copy of a write path is retired, and every gate closes (R8). -/
def Dev.retireCopy (d : Dev) (h : Nat) (c : Fin 2) : Dev :=
  ((d.onWp h fun w => { w with retiredCopy := some c }).inhibit h inhCopy (d.mapBeams h) (some 3)).event .writePath h 0 [c.val]

theorem Dev.wps_retireCopy (d : Dev) (h : Nat) (c : Fin 2) : ((d.retireCopy h c).wps h).retiredCopy = some c := by
  unfold Dev.retireCopy
  rw [Dev.wps_event]
  exact (Dev.guardsStand_inhibit _ h _ _ _).retiredCopy.trans (congrArg WpSt.retiredCopy (d.wps_onWp_self h _))

theorem exec_writePathMismatch_of_none (s : State) (h : Head) (e : EdgeRecord) (hh : s.dev.hasHead h = true)
    (hn : (s.dev.wps h.ix).retiredCopy = none) :
    exec (.writePathMismatch h e) s = .next { s with dev := s.dev.retireCopy h.ix (s.dev.faultyCopy h.ix e) } := by
  show execWritePathMismatch h e s = _
  unfold execWritePathMismatch
  rw [State.on_eq]
  simp only [hh, hn]
  rfl

/-- A mismatch of the two copies retires the one at fault (R8). -/
theorem completes_writePathMismatch (s : State) (h : Head) (e : EdgeRecord) (hh : s.dev.hasHead h = true)
    (hn : (s.dev.wps h.ix).retiredCopy = none) : Completes (.writePathMismatch h e) s fun d =>
      (∀ c, e.reports = some c → (d.wps h.ix).retiredCopy = some c) ∧
      (e.reports = none → (d.wps h.ix).retiredCopy = some (if s.dev.thirdEdge h.ix e = some e.first then 1 else 0)) := by
  have left := s.dev.wps_retireCopy h.ix (s.dev.faultyCopy h.ix e)
  refine ⟨_, exec_writePathMismatch_of_none s h e hh hn, fun c hc => left.trans ?_, fun hc => left.trans ?_⟩
  all_goals simp only [Dev.faultyCopy, hc]

/-- A write path with one copy left compares nothing (R8). -/
theorem exec_writePathMismatch_of_retired (s : State) (h : Head) (e : EdgeRecord)
    (hr : (s.dev.wps h.ix).retiredCopy.isSome = true) : exec (.writePathMismatch h e) s = .next s := by
  show execWritePathMismatch h e s = _
  unfold execWritePathMismatch
  exact State.on_of_eq_self (by simp [hr])

/-- A swap waits for the next recording frame (R152). -/
theorem completes_bankSwap (s : State) (hm : s.dev.mode = 2) (ht : s.dev.tableReady 0 = true) (hr : (s.dev.wps 0).run = none) :
    Completes .bankSwap s fun d => (d.wps 0).swap = true ∧ d = { s.dev with wp := d.wp } := by
  refine Completes.of_on Dev.bankSwap rfl ?_
  have taken : s.dev.bankSwap = s.dev.onWp 0 fun w => { w with swap := true } := by
    simp [Dev.bankSwap, Dev.when, hm, ht, hr]
  rw [taken, Dev.wps_onWp_self]
  exact ⟨rfl, rfl⟩

/-- A swap that the mode, the next bank or a block being written forbids is discarded (R152). -/
theorem exec_bankSwap_discarded (s : State)
    (h : s.dev.mode ≠ 2 ∨ s.dev.tableReady 0 = false ∨ (s.dev.wps 0).run.isSome = true) : exec .bankSwap s = .next s := by
  show s.on Dev.bankSwap = _
  refine State.on_of_eq_self ?_
  have discarded : (s.dev.mode == 2 && s.dev.tableReady 0 && (s.dev.wps 0).run.isNone) = false := by
    rcases h with h | h | h
    · simp [h]
    · simp [h]
    · simp [← Option.not_isSome, h]
  rw [Dev.bankSwap, discarded, Dev.when_false]

/-- The counters of a write path are cleared (R153). -/
theorem completes_wpCntClr (s : State) (h : Head) (hh : s.dev.hasHead h = true) : Completes (.wpCntClr h) s fun d =>
    (∀ k < 8, d.reg (Adr.WP_CNT h.ix k) = 0) ∧ d = { s.dev with regs := d.regs } ∧
      SameRegs s.dev d ((List.range 8).map (Adr.WP_CNT h.ix)) := by
  refine Completes.of_on (fun d => if d.hasHead h then d.clearCounters (Adr.WP_CNT h.ix) else d) rfl ?_
  rw [hh]
  exact ⟨fun k hk => s.dev.reg_clearCounters_self _ hk, s.dev.regFrame_clearCounters _⟩

/-- Settles O30: the commands of a write path, one by one. -/
theorem writePathsGuardAndCalibrate : Obligations.WritePathsGuardAndCalibrate := fun s h e hh =>
  ⟨completes_opcGo_refused s h hh, completes_opcGo_starts s h hh, exec_opcDone_of_not_done s h, completes_opcDone s h,
    completes_guardSilence s h hh, completes_writePathMismatch s h e hh, exec_writePathMismatch_of_retired s h e,
    completes_bankSwap s, exec_bankSwap_discarded s, completes_wpCntClr s h hh⟩

end Sys2Proof.Machine

/-! PROOFS. ESN grants (O5) and the ticks of the Locus sequencer (O6). -/

namespace Sys2Proof.Machine

/-! ## The next ESN (R27) -/

theorem LocusSt.ready_of_le {l : LocusSt} (h : l.order ≤ 1023) : l.ready = l := if_pos h

theorem LocusSt.ready_of_lt {l : LocusSt} (h : 1023 < l.order) : l.ready = l.advance := if_neg (by omega)

/-- ORDER lies within its 1,023 once the sequencer is ready. -/
theorem LocusSt.order_ready_le (l : LocusSt) : l.ready.order ≤ 1023 := by
  rcases Nat.lt_or_ge 1023 l.order with h | h
  · rw [LocusSt.ready_of_lt h]; exact Nat.zero_le _
  · rwa [LocusSt.ready_of_le h]

/-- An ORDER past its last value is the first of the next TICK (R27). -/
theorem LocusSt.esnOf_advance (l : LocusSt) :
    esnOf l.advance.epoch.toNat l.advance.tick.toNat 0 = esnOf l.epoch.toNat l.tick.toNat 1024 := by
  have he := l.epoch.isLt
  have ht := l.tick.isLt
  unfold esnOf LocusSt.advance
  apply BitVec.eq_of_toNat_eq
  simp only [BitVec.toNat_ofNat]
  by_cases h : l.tick = 0x3fffff
  · simp only [h, if_true, BitVec.toNat_add]
    simp
    omega
  · have ht' : l.tick.toNat ≠ 4194303 := fun hn => h (BitVec.eq_of_toNat_eq hn)
    simp only [h, if_false, BitVec.toNat_add]
    simp
    omega

/-- With one more issued, the next ESN is the one after it (R27). -/
theorem LocusSt.next_issued (l : LocusSt) : ({ l.ready with order := l.ready.order + 1 } : LocusSt).next = l.next + 1 := by
  have step (e t o : Nat) : esnOf e t (o + 1) = esnOf e t o + 1 := by
    unfold esnOf; rw [← Nat.add_assoc, BitVec.ofNat_add]; rfl
  rcases Nat.lt_or_ge l.ready.order 1023 with h | h
  · unfold LocusSt.next
    rw [LocusSt.ready_of_le (l := { l.ready with order := _ }) h, step]
  · have last : l.ready.order = 1023 := Nat.le_antisymm l.order_ready_le h
    unfold LocusSt.next
    rw [LocusSt.ready_of_lt (l := { l.ready with order := _ }) (Nat.lt_succ_of_le h)]
    exact (LocusSt.esnOf_advance _).trans (last ▸ step _ _ 1023)

theorem Dev.next_issue (d : Dev) : d.issue.locus.next = d.locus.next + 1 := by
  have stands (c : Bool) : (d.when c fun d => d.putBit Fld.LOCUS_STATUS_ORDER_CARRY true).locus = d.locus := by cases c <;> rfl
  unfold Dev.issue
  dsimp only
  rw [stands, LocusSt.next_issued]

/-- The last ESN of all belongs to the last EPOCH. -/
theorem LocusSt.next_toNat_lt {l : LocusSt} (h : l.epoch ≠ 0xffff) : l.next.toNat + 1 < 2 ^ 48 := by
  have he := l.epoch.isLt
  have he' : l.epoch.toNat ≠ 65535 := fun hn => h (BitVec.eq_of_toNat_eq hn)
  have ht := l.tick.isLt
  rcases Nat.lt_or_ge 1023 l.order with ho | ho
  · have low : l.advance.order = 0 := rfl
    rw [LocusSt.next, LocusSt.ready_of_lt ho, low, esnOf, BitVec.toNat_ofNat]
    omega
  · rw [LocusSt.next, LocusSt.ready_of_le ho, esnOf, BitVec.toNat_ofNat]
    omega

theorem LocusSt.next_lt_next_add_one {l : LocusSt} (h : l.epoch ≠ 0xffff) : l.next < l.next + 1 := by
  have last := LocusSt.next_toNat_lt h
  bv_omega

/-! ## The order of grants (R28) -/

/-- A request's place in the order of grants: ranks compare by the class, and then by the slice. -/
def Dev.grantPlace (d : Dev) (r : EsnRequest) : Lex (Nat × Nat) := toLex (d.grantRank r)

theorem Dev.grantBefore_iff (d : Dev) (x r : EsnRequest) : d.grantBefore x r = true ↔ d.grantPlace x < d.grantPlace r := by
  rw [Dev.grantPlace, Dev.grantPlace, Prod.Lex.toLex_lt_toLex]
  simp [Dev.grantBefore]

theorem Dev.grantPlace_le_iff (d : Dev) (x r : EsnRequest) : d.grantPlace x ≤ d.grantPlace r ↔
    (d.grantRank x).1 < (d.grantRank r).1 ∨ (d.grantRank x).1 = (d.grantRank r).1 ∧ (d.grantRank x).2 ≤ (d.grantRank r).2 :=
  Prod.Lex.toLex_le_toLex

/-- The class decides first. -/
theorem Dev.grantClass_le {d : Dev} {x r : EsnRequest} (h : d.grantPlace x ≤ d.grantPlace r) :
    (d.grantClass x).val ≤ (d.grantClass r).val :=
  ((d.grantPlace_le_iff x r).mp h).elim le_of_lt fun h => le_of_eq h.1

/-- Fragments go by their slices. -/
theorem Dev.source_le {d : Dev} {x r : EsnRequest} (h : d.grantPlace x ≤ d.grantPlace r) (hx : x.kind = .fragment)
    (hr : r.kind = .fragment) : x.source ≤ r.source := by
  simpa [Dev.grantPlace_le_iff, Dev.grantRank, Dev.grantClass, hx, hr] using h

/-- One of the requests is granted next, where there is any. -/
theorem Dev.nextRequest_isSome (d : Dev) {l : List EsnRequest} (h : l ≠ []) : ∃ r, d.nextRequest l = some r := by
  cases l with
  | nil => exact absurd rfl h
  | cons r rs =>
    unfold Dev.nextRequest
    cases d.nextRequest rs with
    | none => exact ⟨r, rfl⟩
    | some x => exact ⟨if d.grantBefore x r then x else r, (apply_ite some _ _ _).symm⟩

/-- The request that is granted next is one of the list, and none ranks before it. -/
theorem Dev.nextRequest_least (d : Dev) {l : List EsnRequest} {r : EsnRequest} (h : d.nextRequest l = some r) :
    r ∈ l ∧ ∀ x ∈ l, d.grantPlace r ≤ d.grantPlace x := by
  induction l generalizing r with
  | nil => cases h
  | cons y ys ih =>
    unfold Dev.nextRequest at h
    cases hy : d.nextRequest ys with
    | none =>
      have empty : ys = [] := by
        by_contra hne
        obtain ⟨x, hx⟩ := d.nextRequest_isSome hne
        rw [hy] at hx; cases hx
      rw [hy] at h
      cases h
      simp [empty]
    | some x =>
      obtain ⟨mem, least⟩ := ih hy
      simp only [hy] at h
      cases hb : d.grantBefore x y with
      | true =>
        simp only [hb, if_true, Option.some.injEq] at h
        subst h
        exact ⟨List.mem_cons_of_mem _ mem, List.forall_mem_cons.mpr ⟨le_of_lt ((d.grantBefore_iff _ _).mp hb), least⟩⟩
      | false =>
        simp only [hb, Bool.false_eq_true, if_false, Option.some.injEq] at h
        subst h
        have before := not_lt.mp fun hlt => Bool.false_ne_true (hb.symm.trans ((d.grantBefore_iff _ _).mpr hlt))
        exact ⟨List.mem_cons_self, List.forall_mem_cons.mpr ⟨le_rfl, fun z hz => before.trans (least z hz)⟩⟩

/-! ## ESN_GRANT -/

/-- Without a request nothing is granted. -/
theorem exec_esnGrant_of_nil {s : State} {arrivals : List EsnRequest} (h : s.dev.locus.waiting ++ arrivals = []) :
    exec (.esnGrant arrivals) s = .next s := by
  show execEsnGrant arrivals s = _
  refine State.on_of_eq_self ?_
  simp only [h]
  rfl

/-- The request that is next is granted the next ESN, and the others wait. -/
theorem exec_esnGrant_of_next {s : State} {arrivals : List EsnRequest} {r : EsnRequest}
    (h : s.dev.nextRequest (s.dev.locus.waiting ++ arrivals) = some r) :
    exec (.esnGrant arrivals) s = .next { s with dev := s.dev.issue.onLocus fun l =>
      { l with waiting := (s.dev.locus.waiting ++ arrivals).erase r, granted := some (r, s.dev.locus.next) } } := by
  show execEsnGrant arrivals s = _
  unfold execEsnGrant
  rw [State.on_eq]
  simp only [h]
  rfl

/-- What waits and what was granted have no part in the next ESN. -/
theorem LocusSt.next_grant (l : LocusSt) (w : List EsnRequest) (g : Option (EsnRequest × Esn)) :
    ({ l with waiting := w, granted := g } : LocusSt).next = l.next := LocusSt.next_congr rfl rfl rfl

/-- Settles O5: the least of the requests by class and slice is granted, and the issue of its ESN moves the next one on by 1. -/
theorem esnGrantsGoInClassOrder : Obligations.EsnGrantsGoInClassOrder := by
  intro s arrivals all
  refine ⟨exec_esnGrant_of_nil, fun hne => ?_⟩
  obtain ⟨r, hr⟩ := s.dev.nextRequest_isSome hne
  obtain ⟨mem, least⟩ := s.dev.nextRequest_least hr
  have moved (w : List EsnRequest) (g : Option (EsnRequest × Esn)) :
      (s.dev.issue.onLocus fun l => { l with waiting := w, granted := g }).locus.next = s.dev.locus.next + 1 :=
    (LocusSt.next_grant _ w g).trans s.dev.next_issue
  refine ⟨_, exec_esnGrant_of_next hr, ⟨r, rfl, ?_, ?_, ?_⟩, ?_, fun _ => moved _ _, ?_, ?_⟩
  · exact fun x hx => Dev.grantClass_le (least x hx)
  · exact fun x hx => Dev.source_le (least x hx)
  · exact (List.perm_cons_erase mem).symm
  · exact fun he => lt_of_lt_of_eq (LocusSt.next_lt_next_add_one he) (moved _ _).symm
  · rw [Dev.issue_only]; rfl
  · exact s.dev.sameRegs_issue.trans (SameRegs.of_regs_eq rfl)

/-! ## Ticks (R27, R30, R31) -/

@[simp] theorem LocusSt.time_setTime (l : LocusSt) (v : BitVec 38) : (l.setTime v).time = v := by
  unfold LocusSt.time LocusSt.setTime
  apply BitVec.eq_of_getLsbD_eq
  intro i hi
  simp only [BitVec.getLsbD_append, BitVec.getLsbD_setWidth, BitVec.getLsbD_extractLsb']
  by_cases h : i < 22
  · simp [h]
  · simp [h, show i - 22 < 16 by omega, show 22 + (i - 22) = i by omega]

@[simp] theorem Dev.bit_onLocus (d : Dev) (g : LocusSt → LocusSt) (f : Field) : (d.onLocus g).bit f = d.bit f := rfl

@[simp] theorem Dev.locus_onLocus (d : Dev) (g : LocusSt → LocusSt) : (d.onLocus g).locus = g d.locus := rfl

/-- The block with one interval more behind it. -/
def Dev.intervalEnds (d : Dev) : Dev := d.onLocus fun l => { l with micros := l.micros + 1 }

/-- What a tick changes: the Locus sequencer, and of the registers LOCUS_STATUS. -/
def LocusFrame (d d' : Dev) : Prop := d' = { d with regs := d'.regs, locus := d'.locus } ∧ SameRegs d d' [Adr.LOCUS_STATUS]

section
variable {d d' : Dev}

theorem LocusFrame.onLocus (h : LocusFrame d d') (g : LocusSt → LocusSt) : LocusFrame d (d'.onLocus g) := by
  obtain ⟨only, same⟩ := h
  exact ⟨by rw [only]; rfl, same.trans (SameRegs.of_regs_eq rfl)⟩

theorem LocusFrame.putBit (h : LocusFrame d d') {f : Field} {b : Bool} (hf : f.adr = Adr.LOCUS_STATUS) :
    LocusFrame d (d'.putBit f b) := by
  obtain ⟨only, same⟩ := h
  exact ⟨by rw [only]; rfl, same.putBit (by simp [hf])⟩

theorem LocusFrame.when (h : LocusFrame d d') {c : Bool} {f : Dev → Dev} (hf : LocusFrame d (f d')) : LocusFrame d (d'.when c f) := by
  cases c with
  | true => exact hf
  | false => exact h

theorem LocusFrame.refl (d : Dev) : LocusFrame d d := ⟨rfl, SameRegs.refl d _⟩

end

/-- A tick of a time that runs free by the settings (R31). -/
theorem Dev.locusTick_free {d : Dev} (h : d.bit Fld.LOCUS_CTRL_RING_SYNC_EN = false) :
    d.locusTick = (d.intervalEnds.when (d.locus.stepTo.isSome || d.locus.slewTo.isSome) fun d => d.locusFree).onLocus
      fun l => l.setTime (d.locus.time + 1) := by
  simp only [Dev.locusTick, Dev.bit_onLocus, h, Bool.not_false, if_true]
  rfl

section
variable {d : Dev} (h : d.bit Fld.LOCUS_CTRL_RING_SYNC_EN = true)
include h

/-- A tick that follows no mark. -/
theorem Dev.locusTick_plain (hs : d.locus.stepTo = none) (hl : d.locus.slewTo = none) :
    d.locusTick = d.intervalEnds.onLocus fun l => l.setTime (d.locus.time + 1) := by
  simp only [Dev.locusTick, Dev.bit_onLocus, Dev.locus_onLocus, h, Bool.not_true, Bool.false_eq_true, if_false, hs, hl]
  rfl

/-- A tick at which a mark asks for a step (R30). -/
theorem Dev.locusTick_step {v : BitVec 38} (hs : d.locus.stepTo = some v) :
    d.locusTick = (d.intervalEnds.onLocus fun l =>
      { l.setTime (if timeAhead v (d.locus.time + 1) then v else d.locus.time + 1) with stepTo := none }).when
        (timeAhead v (d.locus.time + 1)) fun d => d.putBit Fld.LOCUS_STATUS_STEPPED true := by
  simp only [Dev.locusTick, Dev.bit_onLocus, Dev.locus_onLocus, h, Bool.not_true, Bool.false_eq_true, if_false, hs]
  rfl

/-- A tick of a time that slews (R30). -/
theorem Dev.locusTick_slew {mark : BitVec 38} (hs : d.locus.stepTo = none) (hl : d.locus.slewTo = some mark) :
    d.locusTick = d.intervalEnds.slewTick mark := by
  simp only [Dev.locusTick, Dev.bit_onLocus, Dev.locus_onLocus, h, Bool.not_true, Bool.false_eq_true, if_false, hs, hl]
  rfl

end

section
variable (d : Dev) (mark : BitVec 38)

/-- The time behind an interval of a slew (R30). -/
def Dev.slewNow : BitVec 38 := if d.locus.slewSkip then d.locus.time + 1 else d.locus.time

/-- The Locus sequencer behind an interval of a slew (R30). -/
theorem Dev.locus_slewTick : (d.slewTick mark).locus =
    { (if d.locus.slewSkip then d.locus.setTime d.slewNow else d.locus) with
      slewTo := if timeAhead d.slewNow (mark + 1) then some (mark + 1) else none
      slewSkip := timeAhead d.slewNow (mark + 1) && !d.locus.slewSkip } := by
  cases hk : d.locus.slewSkip <;> simp [Dev.slewTick, Dev.slewNow, hk, LocusSt.setTime]

theorem Dev.time_slewTick : (d.slewTick mark).locus.time = d.slewNow := by
  rw [Dev.locus_slewTick, Dev.slewNow]
  cases d.locus.slewSkip with
  | true => exact LocusSt.time_setTime d.locus _
  | false => rfl

theorem Dev.order_slewTick : (d.slewTick mark).locus.order = if d.locus.slewSkip then 0 else d.locus.order := by
  rw [Dev.locus_slewTick]
  cases d.locus.slewSkip <;> rfl

theorem Dev.micros_slewTick : (d.slewTick mark).locus.micros = d.locus.micros := by
  rw [Dev.locus_slewTick]
  cases d.locus.slewSkip <;> rfl

end

/-- The interval is counted, and nothing but the Locus sequencer and LOCUS_STATUS changes. -/
def TickFrame (d d' : Dev) : Prop := d'.locus.micros = d.locus.micros + 1 ∧ LocusFrame d d'

theorem Dev.locusFrame_intervalEnds (d : Dev) : LocusFrame d d.intervalEnds := (LocusFrame.refl d).onLocus _

theorem Dev.tickFrame_locusTick (d : Dev) : TickFrame d d.locusTick := by
  have begins := d.locusFrame_intervalEnds
  cases hm : d.bit Fld.LOCUS_CTRL_RING_SYNC_EN with
  | false =>
    rw [Dev.locusTick_free hm]
    refine ⟨?_, LocusFrame.onLocus (begins.when ((begins.onLocus _).putBit rfl)) _⟩
    cases d.locus.stepTo.isSome || d.locus.slewTo.isSome <;> rfl
  | true =>
    cases hs : d.locus.stepTo with
    | some v =>
      rw [Dev.locusTick_step hm hs]
      refine ⟨?_, (begins.onLocus _).when ((begins.onLocus _).putBit rfl)⟩
      cases timeAhead v (d.locus.time + 1) <;> rfl
    | none =>
      cases hl : d.locus.slewTo with
      | none =>
        rw [Dev.locusTick_plain hm hs hl]
        exact ⟨rfl, begins.onLocus _⟩
      | some mark =>
        rw [Dev.locusTick_slew hm hs hl]
        exact ⟨Dev.micros_slewTick _ mark, LocusFrame.putBit ((begins.onLocus _).onLocus _) rfl⟩

/-- A tick of a free time, or without a mark. -/
theorem Dev.locusTick_of_no_mark {d : Dev} (hs : d.locus.stepTo = none) (hl : d.locus.slewTo = none) :
    d.locusTick = d.intervalEnds.onLocus fun l => l.setTime (d.locus.time + 1) := by
  cases hm : d.bit Fld.LOCUS_CTRL_RING_SYNC_EN with
  | false => rw [Dev.locusTick_free hm, hs, hl]; rfl
  | true => exact Dev.locusTick_plain hm hs hl

/-- Settles O6: the tick by the way in which the time advances. -/
theorem ticksAdvanceStepOrSlew : Obligations.TicksAdvanceStepOrSlew := by
  intro s l
  obtain ⟨micros, frame⟩ := s.dev.tickFrame_locusTick
  refine Completes.of_on Dev.locusTick rfl ⟨micros, ?plain, ?free, ?step, ?slew, frame⟩
  case plain =>
    intro hs hl
    rw [Dev.locusTick_of_no_mark hs hl]
    exact ⟨LocusSt.time_setTime _ _, rfl, rfl⟩
  case free =>
    intro hm
    rw [Dev.locusTick_free hm]
    refine ⟨LocusSt.time_setTime _ _, rfl, ?_⟩
    cases hp : s.dev.locus.stepTo.isSome || s.dev.locus.slewTo.isSome with
    | true => exact ⟨rfl, rfl, fun _ => Dev.bit_locusFree_slewing _⟩
    | false =>
      simp only [Bool.or_eq_false_iff, Option.isSome_eq_false_iff, Option.isNone_iff_eq_none] at hp
      obtain ⟨hs, hl⟩ := hp
      exact ⟨hs, hl, fun pending => (pending.elim (· hs) (· hl)).elim⟩
  case step =>
    intro hm v hs
    rw [Dev.locusTick_step hm hs]
    cases timeAhead v (s.dev.locus.time + 1) with
    | true => exact ⟨LocusSt.time_setTime s.dev.intervalEnds.locus _, rfl, rfl, Dev.bit_putBit_self _ _ _⟩
    | false => exact ⟨LocusSt.time_setTime s.dev.intervalEnds.locus _, rfl, rfl, (Bool.false_or _).symm⟩
  case slew =>
    intro hm hs mark hl now on
    rw [Dev.locusTick_slew hm hs hl]
    exact ⟨Dev.time_slewTick _ mark, Dev.order_slewTick _ mark, rfl, congrArg LocusSt.slewSkip (Dev.locus_slewTick _ mark),
      Dev.bit_putBit_self _ _ _⟩

end Sys2Proof.Machine

/-! PROOFS. Sparing: what its operations change, and that a unit that does no work stays so; ROOT cores and crossbar quadrants
(O12). -/

namespace Sys2Proof.Machine

/-! ## Units that do no work (R380) -/

theorem Dev.dead_congr {d d' : Dev} (h : d'.units = d.units) (c u : Nat) : d'.dead c u = d.dead c u := by
  unfold Dev.dead Dev.unit; rw [h]

theorem Dev.units_event (d : Dev) (kind : EventKind) (unit code : Nat) (detail : List Nat) :
    (d.event kind unit code detail).units = d.units := by rw [Dev.event_only]

theorem Dev.pwr_event (d : Dev) (kind : EventKind) (unit code : Nat) (detail : List Nat) :
    (d.event kind unit code detail).pwr = d.pwr := by rw [Dev.event_only]

theorem Dev.dead_of_retired {d : Dev} {c u : Nat} (h : d.unit c u = .retired) : d.dead c u = true := by rw [Dev.dead, h]

theorem Dev.unit_setUnit (d : Dev) (c u : Nat) (x : UnitState) (c' u' : Nat) :
    (d.setUnit c u x).unit c' u' = if unitKey c' u' = unitKey c u then x else d.unit c' u' := Tab.get_set d.units _ _ x

theorem Dev.dead_setUnit_retired (d : Dev) (c u : Nat) : (d.setUnit c u .retired).dead c u = true :=
  Dev.dead_of_retired ((d.unit_setUnit c u .retired c u).trans (if_pos rfl))

/-- A unit that takes a state leaves every other. -/
theorem Dev.dead_setUnit_of_ne (d : Dev) {c u c' u' : Nat} (x : UnitState) (h : unitKey c' u' ≠ unitKey c u) :
    (d.setUnit c u x).dead c' u' = d.dead c' u' := by
  rw [Dev.dead, Dev.dead, Dev.unit_setUnit, if_neg h]

/-- A unit that takes a state, where it does work, leaves those that do none. -/
theorem Dev.dead_setUnit_of_not_dead {d : Dev} {c u : Nat} (h : d.dead c u = false) (x : UnitState) {c' u' : Nat}
    (hd : d.dead c' u' = true) : (d.setUnit c u x).dead c' u' = true := by
  have apart : unitKey c' u' ≠ unitKey c u := fun hk => by
    unfold Dev.dead Dev.unit at h hd
    rw [hk, h] at hd
    exact Bool.false_ne_true hd
  rw [Dev.dead_setUnit_of_ne d x apart, hd]

/-- A retirement leaves those that do none already. -/
theorem Dev.dead_setUnit_retired_of_dead {d : Dev} (c u : Nat) {c' u' : Nat} (hd : d.dead c' u' = true) :
    (d.setUnit c u .retired).dead c' u' = true := by
  by_cases hk : unitKey c' u' = unitKey c u
  · exact Dev.dead_of_retired ((d.unit_setUnit c u .retired c' u').trans (if_pos hk))
  · rw [Dev.dead_setUnit_of_ne d _ hk, hd]

/-! ## What sparing changes -/

/-- d' differs from d in what sparing changes: the registers of a list, the Locus sequencer, the log, the host's part, the sparing
state, the settings kept, and units, of which those that do no work go on doing none. -/
structure SparingFrame (d d' : Dev) (l : List Nat) : Prop where
  only : d' = { d with regs := d'.regs, locus := d'.locus, log := d'.log, units := d'.units, host := d'.host, spr := d'.spr,
                       upd := d'.upd }
  regs : SameRegs d d' l
  dead : ∀ c u, d.dead c u = true → d'.dead c u = true

section
variable {d d' : Dev} {l : List Nat}

theorem SparingFrame.trans {d'' : Dev} (h : SparingFrame d d' l) (h' : SparingFrame d' d'' l) : SparingFrame d d'' l := by
  obtain ⟨only, regs, dead⟩ := h
  obtain ⟨only', regs', dead'⟩ := h'
  refine ⟨?_, regs.trans regs', fun c u hd => dead' c u (dead c u hd)⟩
  rw [only] at only'
  exact only'

theorem SparingFrame.mono {l' : List Nat} (h : SparingFrame d d' l) (hl : l ⊆ l') : SparingFrame d d' l' :=
  ⟨h.only, h.regs.mono hl, h.dead⟩

theorem SparingFrame.pwr (h : SparingFrame d d' l) : d'.pwr = d.pwr := by rw [h.only]

theorem SparingFrame.of_regFrame (h : RegFrame d d' l) : SparingFrame d d' l := by
  obtain ⟨only, same⟩ := h
  refine ⟨by rw [only], same, fun c u hd => ?_⟩
  rwa [Dev.dead_congr (by rw [only])]

theorem SparingFrame.refl (d : Dev) (l : List Nat) : SparingFrame d d l := .of_regFrame (.refl d l)

theorem SparingFrame.setReg (h : SparingFrame d d' l) {a : Nat} {v : Word} (ha : a ∈ l) : SparingFrame d (d'.setReg a v) l :=
  h.trans (.of_regFrame ((RegFrame.refl d' l).setReg ha))

theorem SparingFrame.put (h : SparingFrame d d' l) {f : Field} {v : Nat} (ha : f.adr ∈ l) : SparingFrame d (d'.put f v) l :=
  h.setReg ha

theorem SparingFrame.putBit (h : SparingFrame d d' l) {f : Field} {b : Bool} (ha : f.adr ∈ l) : SparingFrame d (d'.putBit f b) l :=
  h.setReg ha

theorem SparingFrame.putMask (h : SparingFrame d d' l) {f : Field} {k : Nat} {b : Bool} (ha : f.adr ∈ l) :
    SparingFrame d (d'.putMask f k b) l := h.setReg ha

theorem SparingFrame.count (h : SparingFrame d d' l) {a : Nat} (ha : a ∈ l) : SparingFrame d (d'.count a) l := h.setReg ha

theorem SparingFrame.setSpr (h : SparingFrame d d' l) (x : SpareSt) : SparingFrame d { d' with spr := x } l :=
  h.trans ⟨rfl, SameRegs.of_regs_eq rfl, fun _ _ hd => hd⟩

theorem SparingFrame.setUpd (h : SparingFrame d d' l) (x : UpdSt) : SparingFrame d { d' with upd := x } l :=
  h.trans ⟨rfl, SameRegs.of_regs_eq rfl, fun _ _ hd => hd⟩

/-- A unit takes a state that leaves those that do no work. -/
theorem SparingFrame.setUnit (h : SparingFrame d d' l) {c u : Nat} {x : UnitState}
    (hx : ∀ c' u', d'.dead c' u' = true → (d'.setUnit c u x).dead c' u' = true) : SparingFrame d (d'.setUnit c u x) l :=
  h.trans ⟨rfl, SameRegs.of_regs_eq rfl, hx⟩

theorem SparingFrame.event (h : SparingFrame d d' l) {kind : EventKind} {unit code : Nat} {detail : List Nat}
    (hl : Adr.LOCUS_STATUS ∈ l) : SparingFrame d (d'.event kind unit code detail) l := by
  refine h.trans ⟨?_, (d'.sameRegs_event kind unit code detail).mono (by simpa using hl), fun c u hd => ?_⟩
  · rw [Dev.event_only]
  · rwa [Dev.dead_congr (d'.units_event ..)]

theorem SparingFrame.sparingEvent (h : SparingFrame d d' l) {code c left entered st : Nat} {cause : Esn}
    (hl : Adr.LOCUS_STATUS ∈ l) : SparingFrame d (d'.sparingEvent code c left entered cause st) l := h.event hl

/-- A vector raised changes the host's part alone (R312). -/
theorem SparingFrame.raise (h : SparingFrame d d' l) (v : Nat) : SparingFrame d (d'.raise v) l := by
  refine h.trans ?_
  unfold Dev.raise
  split <;> exact ⟨rfl, SameRegs.of_regs_eq rfl, fun _ _ hd => hd⟩

/-- A change made where a condition holds. -/
theorem SparingFrame.when (h : SparingFrame d d' l) {c : Bool} {f : Dev → Dev} (hf : ∀ n, SparingFrame n (f n) l) :
    SparingFrame d (d'.when c f) l := by
  cases c with
  | true => exact h.trans (hf d')
  | false => exact h

/-- A change made for every element of a list. -/
theorem SparingFrame.each (h : SparingFrame d d' l) {α : Type} {f : Dev → α → Dev} (xs : List α)
    (hf : ∀ n, ∀ x, SparingFrame n (f n x) l) : SparingFrame d (d'.each xs f) l :=
  Dev.each_induction (SparingFrame d · l) f (fun n x hn => hn.trans (hf n x)) xs d' h

end

/-- The registers that judging a class writes (R383, R391). -/
def judgeRegs (c : Nat) : List Nat :=
  [Adr.LOCUS_STATUS, Adr.SPR_CLASS_CNT (c - 1), Adr.SPR_STATUS, Adr.SPR_EVENTS, Adr.SPR_CNT 7]

theorem mem_judgeRegs (c : Nat) : Adr.LOCUS_STATUS ∈ judgeRegs c ∧ Adr.SPR_CLASS_CNT (c - 1) ∈ judgeRegs c ∧
    Adr.SPR_STATUS ∈ judgeRegs c ∧ Adr.SPR_EVENTS ∈ judgeRegs c ∧ Adr.SPR_CNT 7 ∈ judgeRegs c := by simp [judgeRegs]

/-- Judging a class shows its counts and posts what changed (R383, R391). -/
theorem Dev.sparingFrame_judge (d : Dev) (c : Nat) : SparingFrame d (d.judge c) (judgeRegs c) := by
  obtain ⟨locus, counts, status, events, counter⟩ := mem_judgeRegs c
  have self (n : Dev) : SparingFrame n n (judgeRegs c) := .refl n _
  have shown := ((self d).put (f := Fld.SPR_CLASS_CNT_SPARES (c - 1)) (v := d.spares c) counts).put
    (f := Fld.SPR_CLASS_CNT_IN_SERVICE (c - 1)) (v := d.inService c) counts
  unfold Dev.judge
  exact (((shown.putMask status).when fun n => ((((self n).putMask events).count counter).sparingEvent locus).raise 64).when
    fun n => (self n).sparingEvent locus).putMask status |>.when fun n => (((self n).putMask events).sparingEvent locus).raise 64

/-- The registers that a policy writes as it takes effect (R376). -/
def policyRegs : List Nat := [Adr.SPR_POLICY, Adr.DEC_MASK 0, Adr.DEC_MASK 1]

/-- A policy sets the masks, and moves decoders that do work between service and the spare role (R376). -/
theorem Dev.sparingFrame_takePolicy (d : Dev) (p : Nat) : SparingFrame d (d.takePolicy p) policyRegs := by
  have set := (((SparingFrame.refl d policyRegs).put (f := Fld.SPR_POLICY_POLICY) (v := p) (by decide)).setUpd
    ((d.put Fld.SPR_POLICY_POLICY p).keepSetting Adr.SPR_POLICY).upd)
  unfold Dev.takePolicy
  refine SparingFrame.each ((set.put (f := Fld.DEC_MASK_MASK 0) (by decide)).put (f := Fld.DEC_MASK_MASK 1) (by decide)) _
    fun n u => ?_
  generalize (if p = 0 then _ else _ : List Nat) = work
  have moves (x : UnitState) (h : n.dead 6 u = false) : SparingFrame n (n.setUnit 6 u x) policyRegs :=
    (SparingFrame.refl n _).setUnit fun _ _ => Dev.dead_setUnit_of_not_dead h x
  cases hu : n.unit 6 u with
  | inService =>
    cases hw : work.contains u with
    | true => simpa only [hw, if_true] using SparingFrame.refl n _
    | false => simpa only [hw, Bool.false_eq_true, if_false] using moves _ (by simp [Dev.dead, hu])
  | spare =>
    cases hw : work.contains u with
    | true => simpa only [hw, if_true] using moves _ (by simp [Dev.dead, hu])
    | false => simpa only [hw, Bool.false_eq_true, if_false] using SparingFrame.refl n _
  | draining | out | loading | testing | retired | absent => exact .refl n _

/-- The registers that the end of a cycle writes (R376, R379). -/
def cycleRegs : List Nat := Adr.SPR_OUT :: policyRegs

theorem Dev.sparingFrame_cycleEnds (d : Dev) : SparingFrame d d.cycleEnds cycleRegs := by
  have ended := (((SparingFrame.refl d cycleRegs).putBit (f := Fld.SPR_OUT_ACTIVE) (b := false) (by decide)).put
    (f := Fld.SPR_OUT_STATE) (v := 0) (by decide)).putBit (f := Fld.SPR_OUT_UPDATE) (b := false) (by decide)
  have takes (n : Dev) (p : Nat) : SparingFrame n (n.takePolicy p) cycleRegs :=
    (n.sparingFrame_takePolicy p).mono (List.subset_cons_self ..)
  cases hn : d.spr.policyNext with
  | none => simpa only [Dev.cycleEnds, Dev.putBit_spr, Dev.put_spr, hn] using ended.setSpr _
  | some p => simpa only [Dev.cycleEnds, Dev.putBit_spr, Dev.put_spr, hn] using (ended.setSpr _).trans (takes _ p)

/-- The registers that the retirement of a unit writes (R380). -/
def retireRegs (c u : Nat) : List Nat :=
  Adr.SPR_CNT 1 :: (unitDomain c u).toList.map (fun pd => Adr.PWR_ON (pd / 32)) ++ cycleRegs ++ judgeRegs c

/-- A retirement ends the unit's cycle and its domain, is counted and posted, and its class judged (R379, R380); the unit does no
work from then on. -/
theorem Dev.retireUnit_spec (d : Dev) (c u : Nat) (cause : Esn) :
    SparingFrame d (d.retireUnit c u cause) (retireRegs c u) ∧ (d.retireUnit c u cause).dead c u = true := by
  cases hd : d.dead c u with
  | true =>
    have same : d.retireUnit c u cause = d := by rw [Dev.retireUnit, if_pos hd]
    rw [same]
    exact ⟨.refl d _, hd⟩
  | false =>
    have locus : Adr.LOCUS_STATUS ∈ retireRegs c u := by simp [retireRegs, judgeRegs]
    have counter : Adr.SPR_CNT 1 ∈ retireRegs c u := List.mem_cons_self
    have ends (n : Dev) : SparingFrame n n.cycleEnds (retireRegs c u) :=
      n.sparingFrame_cycleEnds.mono fun a ha => by simp [retireRegs, ha]
    have judged (n : Dev) : SparingFrame n (n.judge c) (retireRegs c u) :=
      (n.sparingFrame_judge c).mono fun a ha => by simp [retireRegs, ha]
    have ended := (SparingFrame.refl (d.setUnit c u .retired) (retireRegs c u)).when
      (c := (d.setUnit c u .retired).inCycle c u) ends
    have after : SparingFrame (d.setUnit c u .retired) (d.retireUnit c u cause) (retireRegs c u) := by
      cases hp : unitDomain c u with
      | none =>
        simp only [Dev.retireUnit, hd, Bool.false_eq_true, if_false, hp]
        exact (((ended.setSpr _).count counter).sparingEvent locus).trans (judged _)
      | some pd =>
        have power : Adr.PWR_ON (pd / 32) ∈ retireRegs c u := by simp [retireRegs, hp]
        simp only [Dev.retireUnit, hd, Bool.false_eq_true, if_false, hp]
        exact ((((ended.putMask power).setSpr _).count counter).sparingEvent locus).trans (judged _)
    have retired := (SparingFrame.refl d (retireRegs c u)).setUnit fun _ _ => Dev.dead_setUnit_retired_of_dead c u
    exact ⟨retired.trans after, after.dead c u (d.dead_setUnit_retired c u)⟩

theorem Dev.sparingFrame_retireUnit (d : Dev) (c u : Nat) (cause : Esn) :
    SparingFrame d (d.retireUnit c u cause) (retireRegs c u) := (d.retireUnit_spec c u cause).1

theorem Dev.dead_retireUnit (d : Dev) (c u : Nat) (cause : Esn) : (d.retireUnit c u cause).dead c u = true :=
  (d.retireUnit_spec c u cause).2

/-- The registers that a substitution writes (R381, R425). -/
def substituteRegs : List Nat := [Adr.LOCUS_STATUS, Adr.UPD_CONFIRM, Adr.SPR_CNT 0]

/-- A unit that does work takes over, which is counted and posted (R381). -/
theorem Dev.sparingFrame_substitute (d : Dev) (c left entered : Nat) (cause : Esn) (h : d.dead c entered = false) :
    SparingFrame d (d.substitute c left entered cause) substituteRegs := by
  have restarted := (SparingFrame.refl d substituteRegs).when (c := d.trialChanged c) (f := fun d => d.cleanRestart)
    fun n => (SparingFrame.refl n _).put (by decide)
  have works : (d.when (d.trialChanged c) fun d => d.cleanRestart).dead c entered = false := by
    rw [← h]; cases d.trialChanged c <;> rfl
  have entered := restarted.setUnit fun _ _ => Dev.dead_setUnit_of_not_dead works .inService
  exact ((entered.sparingEvent (by decide)).count (by decide)).setSpr _

/-! ## ROOT cores (R34, R432, R442) -/

theorem lockField_adr (core : Nat) : (lockField core).adr = Adr.CLK_STATUS := by unfold lockField; split <;> rfl

theorem lockField_width (core : Nat) : (lockField core).width = 1 := by unfold lockField; split <;> rfl

/-- The lock fields are bits 1 and 2 of CLK_STATUS. -/
theorem lockField_lo (core : Nat) : 1 ≤ (lockField core).lo ∧ (lockField core).lo ≤ 2 := by
  unfold lockField; split <;> decide

theorem lockField_fits (core : Nat) : (lockField core).lo + (lockField core).width ≤ 32 := by
  have := lockField_lo core
  rw [lockField_width]; omega

/-- The loss of core a's lock is posted and counted, and core b shows as the active one (R34). -/
def Dev.switchCore (d : Dev) (a b : Nat) : Dev :=
  let d := ((d.event .rootPll a 0 [b]).count (Adr.PWR_CNT 5)).putBit Fld.CLK_STATUS_SWITCHED true
  ((d.put Fld.CLK_STATUS_ACTIVE b).putBit (lockField a) false).putBit Fld.CLK_STATUS_RETIRED true

section
variable (d : Dev) (a b : Nat)

theorem Dev.fld_switchCore_active (hb : b < 2) : (d.switchCore a b).fld Fld.CLK_STATUS_ACTIVE = b := by
  obtain ⟨lo, _⟩ := lockField_lo a
  unfold Dev.switchCore
  rw [Dev.putBit, Dev.fld_put_ne _ _ _ _ (by decide) (by decide), Dev.putBit,
    Dev.fld_put_ne _ (lockField a) Fld.CLK_STATUS_ACTIVE _ (lockField_fits a) (.inr (.inl lo)),
    Dev.fld_put_self _ _ _ (by decide)]
  exact Nat.mod_eq_of_lt hb

theorem Dev.bit_switchCore_lock : (d.switchCore a b).bit (lockField a) = false := by
  obtain ⟨_, hi⟩ := lockField_lo a
  unfold Dev.switchCore
  rw [Dev.bit_putBit_ne _ _ _ _ (.inr (.inl ?_)) (by decide), Dev.bit_putBit_self _ _ _ (lockField_width a) (lockField_fits a)]
  rw [lockField_width]
  exact Nat.succ_le_succ hi

theorem Dev.bit_switchCore_retired : (d.switchCore a b).bit Fld.CLK_STATUS_RETIRED = true := Dev.bit_putBit_self _ _ _

theorem Dev.bit_switchCore_switched : (d.switchCore a b).bit Fld.CLK_STATUS_SWITCHED = true := by
  obtain ⟨_, hi⟩ := lockField_lo a
  have above : (lockField a).lo + (lockField a).width ≤ Fld.CLK_STATUS_SWITCHED.lo := by
    rw [lockField_width]
    exact le_trans (Nat.succ_le_succ hi) (by decide)
  unfold Dev.switchCore
  rw [Dev.bit_putBit_ne _ _ _ _ (by decide) (by decide), Dev.bit_putBit_ne _ _ _ _ (.inr (.inr above)) (lockField_fits a),
    Dev.bit_put_ne _ _ _ _ (by decide) (by decide)]
  exact Dev.bit_putBit_self _ _ _

/-- The loss of a core's lock is counted once. -/
theorem Dev.reg_switchCore_counter : (d.switchCore a b).reg (Adr.PWR_CNT 5) = d.counted (Adr.PWR_CNT 5) 1 := by
  have clk : Adr.PWR_CNT 5 ≠ (lockField a).adr := by rw [lockField_adr]; decide
  have stands : (d.event .rootPll a 0 [b]).reg (Adr.PWR_CNT 5) = d.reg (Adr.PWR_CNT 5) := d.sameRegs_event _ _ _ _ _ (by decide)
  unfold Dev.switchCore
  rw [Dev.putBit, Dev.reg_put_ne _ _ _ (by decide), Dev.putBit, Dev.reg_put_ne _ _ _ clk, Dev.reg_put_ne _ _ _ (by decide),
    Dev.putBit, Dev.reg_put_ne _ _ _ (by decide), Dev.count, Dev.reg_countBy, if_pos rfl, stands]
  rfl

end

/-- What the loss of core a's lock to core b leaves, before slices are armed (R34). -/
def Dev.loseCore (d : Dev) (a b : Nat) : Dev := ((d.switchCore a b).substitute 12 a b d.esn).retireUnit 12 a d.esn

theorem Dev.dead_switchCore (d : Dev) (a b c u : Nat) : (d.switchCore a b).dead c u = d.dead c u :=
  Dev.dead_congr (d.units_event .rootPll a 0 [b]) c u

/-- Sparing writes neither CLK_STATUS nor the count of lost locks. -/
theorem rootRegs_no_clock (a : Nat) : Adr.CLK_STATUS ∉ substituteRegs ++ retireRegs 12 a ∧
    Adr.PWR_CNT 5 ∉ substituteRegs ++ retireRegs 12 a := by
  have one : retireRegs 12 a = retireRegs 12 0 := rfl
  rw [one]
  decide

/-- The standby core's substitution and the lost core's retirement leave the clocks as the switch did. -/
theorem Dev.sameRegs_loseCore (d : Dev) (a b : Nat) (h : d.dead 12 b = false) :
    SameRegs (d.switchCore a b) (d.loseCore a b) (substituteRegs ++ retireRegs 12 a) := by
  have entered := (d.switchCore a b).sparingFrame_substitute 12 a b d.esn ((d.dead_switchCore a b 12 b).trans h)
  exact (entered.regs.mono (List.subset_append_left ..)).trans
    ((Dev.sparingFrame_retireUnit _ 12 a d.esn).regs.mono (List.subset_append_right ..))

/-! ## Slices that acquire again (R34) -/

section
variable (g : SliceSt → SliceSt)

theorem Dev.slice_onSlice (d : Dev) (n k : Nat) : (d.onSlice n g).slice k = if k = n then g (d.slice n) else d.slice k :=
  Tab.get_set d.slices k n _

theorem Dev.each_onSlice_only (l : List Nat) (d : Dev) :
    d.each l (fun d n => d.onSlice n g) = { d with slices := (d.each l fun d n => d.onSlice n g).slices } :=
  Dev.each_induction (fun d' => d' = { d with slices := d'.slices }) _ (fun d' n h => by rw [h]; rfl) l d rfl

/-- A property that g brings about holds of every slice of the list. -/
theorem Dev.slice_each_onSlice {P : SliceSt → Prop} (hg : ∀ x, P (g x)) {k : Nat} (l : List Nat) (d : Dev)
    (h : k ∈ l ∨ P (d.slice k)) : P ((d.each l fun d n => d.onSlice n g).slice k) := by
  induction l generalizing d with
  | nil => exact h.resolve_left List.not_mem_nil
  | cons n l ih =>
    refine ih (d.onSlice n g) ?_
    by_cases hk : k = n
    · exact .inr (by rw [Dev.slice_onSlice, if_pos hk]; exact hg _)
    · rw [Dev.slice_onSlice, if_neg hk]
      exact h.imp_left fun hm => (List.mem_cons.mp hm).resolve_left hk

end

/-- Every live slice is armed to acquire again. -/
def Dev.armLive (d : Dev) : Dev :=
  d.each ((List.range 20).filter d.sliceLive) fun d n => d.onSlice n fun s => { s with rejoinArmed := true }

theorem Dev.armLive_only (d : Dev) : d.armLive = { d with slices := d.armLive.slices } := Dev.each_onSlice_only _ _ d

theorem Dev.regs_armLive (d : Dev) : d.armLive.regs = d.regs := by rw [Dev.armLive_only]

theorem Dev.units_armLive (d : Dev) : d.armLive.units = d.units := by rw [Dev.armLive_only]

theorem Dev.rejoinArmed_armLive (d : Dev) {n : Nat} (hn : n < 20) (hl : d.armLive.sliceLive n = true) :
    (d.armLive.slice n).rejoinArmed = true := by
  rw [Dev.armLive_only] at hl
  exact Dev.slice_each_onSlice _ (P := fun x => x.rejoinArmed = true) (fun _ => rfl) _ d
    (.inl (List.mem_filter.mpr ⟨List.mem_range.mpr hn, hl⟩))

/-! ## The commands -/

section
variable (s : State)

/-- The standby core takes over (R34). -/
theorem exec_rootLockLoss_of_standby (hl : s.dev.bit (lockField (1 - s.dev.fld Fld.CLK_STATUS_ACTIVE)) = true)
    (hw : s.dev.dead 12 (1 - s.dev.fld Fld.CLK_STATUS_ACTIVE) = false) : exec .rootLockLoss s = .next { s with
      dev := (s.dev.loseCore (s.dev.fld Fld.CLK_STATUS_ACTIVE) (1 - s.dev.fld Fld.CLK_STATUS_ACTIVE)).armLive } := by
  show execRootLockLoss s = _
  unfold execRootLockLoss
  rw [State.on_eq]
  simp only [hl, hw]
  rfl

/-- Without a core that is locked the reference is lost (R432). -/
theorem exec_rootLockLoss_of_no_standby (h : s.dev.bit (lockField (1 - s.dev.fld Fld.CLK_STATUS_ACTIVE)) = false) :
    exec .rootLockLoss s = exec .referenceLoss s := by
  show execRootLockLoss s = execReferenceLoss s
  unfold execRootLockLoss execReferenceLoss
  rw [State.on_eq, State.on_eq]
  simp only [h, Bool.false_and, Bool.false_eq_true, if_false]

theorem completes_rootLockLoss (hl : s.dev.bit (lockField (1 - s.dev.fld Fld.CLK_STATUS_ACTIVE)) = true)
    (hw : s.dev.dead 12 (1 - s.dev.fld Fld.CLK_STATUS_ACTIVE) = false) : Completes .rootLockLoss s fun d =>
      d.fld Fld.CLK_STATUS_ACTIVE = 1 - s.dev.fld Fld.CLK_STATUS_ACTIVE ∧ d.bit Fld.CLK_STATUS_SWITCHED = true ∧
      d.bit Fld.CLK_STATUS_RETIRED = true ∧ d.bit (lockField (s.dev.fld Fld.CLK_STATUS_ACTIVE)) = false ∧
      d.dead 12 (s.dev.fld Fld.CLK_STATUS_ACTIVE) = true ∧ d.reg (Adr.PWR_CNT 5) = s.dev.counted (Adr.PWR_CNT 5) 1 ∧
      ∀ n < 20, d.sliceLive n = true → (d.slice n).rejoinArmed = true := by
  refine ⟨_, exec_rootLockLoss_of_standby s hl hw, ?_⟩
  generalize s.dev.fld Fld.CLK_STATUS_ACTIVE = a at hw ⊢
  obtain ⟨clock, counter⟩ := rootRegs_no_clock a
  have same := (s.dev.sameRegs_loseCore a (1 - a) hw).trans
    (SameRegs.of_regs_eq (Dev.regs_armLive _))
  have dead : (s.dev.loseCore a (1 - a)).armLive.dead 12 a = true :=
    (Dev.dead_congr (Dev.units_armLive _) 12 a).trans (Dev.dead_retireUnit _ 12 a _)
  refine ⟨(same.fld clock).trans ?_, (same.bit clock).trans ?_, (same.bit clock).trans ?_, (same.bit ?_).trans ?_, dead,
    (same _ counter).trans ?_, fun n hn hlive => Dev.rejoinArmed_armLive _ hn hlive⟩
  · exact s.dev.fld_switchCore_active a (1 - a) (by omega)
  · exact s.dev.bit_switchCore_switched a (1 - a)
  · exact s.dev.bit_switchCore_retired a (1 - a)
  · rw [lockField_adr]; exact clock
  · exact s.dev.bit_switchCore_lock a (1 - a)
  · exact s.dev.reg_switchCore_counter a (1 - a)

/-- A core that has not locked uses up a retry (R432). -/
theorem completes_pllLockTimeout (core : Fin 2) (h : s.dev.bit (lockField core.val) = false) :
    Completes (.pllLockTimeout core) s fun d =>
      d.pwr.retries = (if core.val = 0 then (s.dev.pwr.retries.1 - 1, s.dev.pwr.retries.2)
        else (s.dev.pwr.retries.1, s.dev.pwr.retries.2 - 1)) ∧ d = { s.dev with pwr := d.pwr } := by
  refine Completes.of_on _ rfl ?_
  rw [h]
  exact ⟨rfl, rfl⟩

/-- A core that has locked is not tried again. -/
theorem exec_pllLockTimeout_of_locked (core : Fin 2) (h : s.dev.bit (lockField core.val) = true) :
    exec (.pllLockTimeout core) s = .next s := by
  show execPllLockTimeout core s = _
  exact State.on_of_eq_self (by rw [h]; rfl)

/-- The standby core locks again (R442). -/
theorem completes_standbyCoreRelock (hp : s.dev.ps < 3) (hw : s.dev.dead 12 (1 - s.dev.fld Fld.CLK_STATUS_ACTIVE) = false)
    (hh : s.dev.pwr.held = false) (hs : s.dev.pwr.stuck = false) : Completes .standbyCoreRelock s fun d =>
      d.bit (lockField (1 - s.dev.fld Fld.CLK_STATUS_ACTIVE)) = true ∧ d = { s.dev with regs := d.regs } ∧
        SameRegs s.dev d [Adr.CLK_STATUS] := by
  refine Completes.of_on (fun d => d.when (d.ps < 3 && !d.dead 12 (1 - d.fld Fld.CLK_STATUS_ACTIVE) && !d.pwr.held &&
    !d.pwr.stuck) fun n => n.putBit (lockField (1 - d.fld Fld.CLK_STATUS_ACTIVE)) true) rfl ?_
  simp only [hp, hw, hh, hs, decide_true, Bool.not_false, Bool.and_self, Dev.when_true]
  exact ⟨Dev.bit_putBit_self _ _ _ (lockField_width _) (lockField_fits _),
    (RegFrame.refl s.dev _).putBit (by simp [lockField_adr])⟩

/-! ## Crossbar quadrants (R36) -/

theorem exec_quadrantFail_of_dead (q : Fin 4) (h : s.dev.dead 11 q.val = true) : exec (.quadrantFail q) s = .next s := by
  show execQuadrantFail q s = _
  exact State.on_of_eq_self (by rw [Dev.quadrantFails, if_pos h])

end

/-- The quadrant among those that failed, its ports at their alternates (R36). -/
def Dev.quadrantLeaves (d : Dev) (q : Nat) : Dev :=
  ((d.event .crossbar q 0 []).onPwr fun p => { p with quadrants := p.quadrants ++ [q] }).movePorts q

theorem Dev.units_quadrantLeaves (d : Dev) (q : Nat) : (d.quadrantLeaves q).units = d.units :=
  d.units_event .crossbar q 0 []

theorem Dev.quadrants_quadrantLeaves (d : Dev) (q : Nat) : (d.quadrantLeaves q).pwr.quadrants = d.pwr.quadrants ++ [q] := by
  show (d.event .crossbar q 0 []).pwr.quadrants ++ [q] = _
  rw [Dev.pwr_event]

theorem Dev.unit_spareOf {d : Dev} {c v : Nat} (h : d.spareOf c = some v) : d.unit c v = .spare := by
  simpa using List.find?_some h

/-- A quadrant that fails leaves, a spare one takes over, and it is retired (R36, R381). -/
theorem Dev.quadrantFails_of_works (d : Dev) (q : Nat) (h : d.dead 11 q = false) :
    ∃ d', SparingFrame (d.quadrantLeaves q) d' substituteRegs ∧ d.quadrantFails q = d'.retireUnit 11 q d.esn := by
  unfold Dev.quadrantFails
  simp only [h, Bool.false_eq_true, if_false]
  cases hv : d.spareOf 11 with
  | none => exact ⟨_, .refl _ _, rfl⟩
  | some v =>
    have works : (d.quadrantLeaves q).dead 11 v = false := by
      rw [Dev.dead_congr (d.units_quadrantLeaves q), Dev.dead, Dev.unit_spareOf hv]
    by_cases hq : v = q
    · simp only [hq, if_true]
      exact ⟨_, .refl _ _, rfl⟩
    · simp only [hq, if_false]
      exact ⟨_, Dev.sparingFrame_substitute _ 11 q v d.esn works, rfl⟩

theorem completes_quadrantFail (s : State) (q : Fin 4) (h : s.dev.dead 11 q.val = false) : Completes (.quadrantFail q) s fun d =>
    d.pwr.quadrants = s.dev.pwr.quadrants ++ [q.val] ∧ d.dead 11 q.val = true := by
  refine Completes.of_on (fun d => d.quadrantFails q.val) rfl ?_
  obtain ⟨d', frame, eq⟩ := s.dev.quadrantFails_of_works q.val h
  rw [eq]
  refine ⟨?_, Dev.dead_retireUnit d' 11 q.val _⟩
  rw [(Dev.sparingFrame_retireUnit d' 11 q.val _).pwr, frame.pwr, Dev.quadrants_quadrantLeaves]

/-- Settles O12: the commands one by one, each where it takes effect and where it does not. -/
theorem clocksAndQuadrantsFailOver : Obligations.ClocksAndQuadrantsFailOver := fun s core q =>
  ⟨completes_rootLockLoss s, exec_rootLockLoss_of_no_standby s, completes_pllLockTimeout s core,
    exec_pllLockTimeout_of_locked s core, completes_standbyCoreRelock s, exec_quadrantFail_of_dead s q,
    completes_quadrantFail s q⟩

end Sys2Proof.Machine

/-! PROOFS. Read channel slices: what a command on a slice changes; the controls of a slice (O24) and its staged zone (O25). -/

namespace Sys2Proof.Machine

/-! ## Commands on a slice (R2) -/

section
variable {s : State} {n : Nat} {f : Dev → Dev}

/-- A slice that the fuses disable takes no command. -/
theorem State.onSlice_of_fused (h : s.dev.hasHead (headOfSlice n) = false) : s.onSlice n f = .next s :=
  State.on_of_eq_self (if_neg (by simp [h]))

theorem State.onSlice_of_hasHead (h : s.dev.hasHead (headOfSlice n) = true) :
    s.onSlice n f = .next { s with dev := f s.dev } := by
  rw [State.onSlice, State.on_eq, if_pos h]

/-- A command that leaves the block as it is, on whatever slice. -/
theorem State.onSlice_of_eq_self (h : f s.dev = s.dev) : s.onSlice n f = .next s :=
  State.on_of_eq_self (by rw [h, ite_self])

/-- A command on a slice that the variant has completes with what it makes of the block. -/
theorem Completes.of_onSlice {c : Instr} {P : Dev → Prop} (hc : exec c s = s.onSlice n f)
    (hh : s.dev.hasHead (headOfSlice n) = true) (hp : P (f s.dev)) : Completes c s P :=
  ⟨f s.dev, hc.trans (State.onSlice_of_hasHead hh), hp⟩

end

/-! ## Changes of one slice and of registers -/

theorem Dev.slice_onSlice_self (d : Dev) (n : Nat) (g : SliceSt → SliceSt) : (d.onSlice n g).slice n = g (d.slice n) := by
  rw [Dev.slice_onSlice, if_pos rfl]

theorem Dev.slice_onSlice_ne (d : Dev) {n k : Nat} (g : SliceSt → SliceSt) (h : k ≠ n) : (d.onSlice n g).slice k = d.slice k := by
  rw [Dev.slice_onSlice, if_neg h]

@[simp] theorem Dev.bit_onSlice (d : Dev) (n : Nat) (g : SliceSt → SliceSt) (f : Field) : (d.onSlice n g).bit f = d.bit f := rfl

/-- d' differs from d in registers of a list and in slice n alone. -/
structure SliceFrame (n : Nat) (l : List Nat) (d d' : Dev) : Prop where
  only : d' = { d with regs := d'.regs, slices := d'.slices }
  others : ∀ m, m ≠ n → d'.slice m = d.slice m
  regs : SameRegs d d' l

section
variable {n : Nat} {l : List Nat} {d d' : Dev}

theorem SliceFrame.trans {d'' : Dev} (h : SliceFrame n l d d') (h' : SliceFrame n l d' d'') : SliceFrame n l d d'' := by
  obtain ⟨only, others, regs⟩ := h
  obtain ⟨only', others', regs'⟩ := h'
  refine ⟨?_, fun m hm => (others' m hm).trans (others m hm), regs.trans regs'⟩
  rw [only] at only'
  exact only'

/-- A change of registers alone leaves every slice. -/
theorem RegFrame.slice (h : RegFrame d d' l) (m : Nat) : d'.slice m = d.slice m := by
  rw [h.1]; rfl

theorem SliceFrame.of_regFrame (h : RegFrame d d' l) : SliceFrame n l d d' :=
  ⟨by rw [h.1], fun m _ => h.slice m, h.2⟩

theorem SliceFrame.refl (n : Nat) (l : List Nat) (d : Dev) : SliceFrame n l d d := .of_regFrame (.refl d l)

theorem SliceFrame.mono {l' : List Nat} (h : SliceFrame n l d d') (hl : l ⊆ l') : SliceFrame n l' d d' :=
  ⟨h.only, h.others, h.regs.mono hl⟩

theorem SliceFrame.setReg (h : SliceFrame n l d d') {a : Nat} {v : Word} (ha : a ∈ l) : SliceFrame n l d (d'.setReg a v) :=
  h.trans (.of_regFrame ((RegFrame.refl d' l).setReg ha))

theorem SliceFrame.put (h : SliceFrame n l d d') {f : Field} {v : Nat} (ha : f.adr ∈ l) : SliceFrame n l d (d'.put f v) :=
  h.setReg ha

theorem SliceFrame.putBit (h : SliceFrame n l d d') {f : Field} {b : Bool} (ha : f.adr ∈ l) : SliceFrame n l d (d'.putBit f b) :=
  h.setReg ha

theorem SliceFrame.count (h : SliceFrame n l d d') {a : Nat} (ha : a ∈ l) : SliceFrame n l d (d'.count a) := h.setReg ha

theorem SliceFrame.onSlice (h : SliceFrame n l d d') (g : SliceSt → SliceSt) : SliceFrame n l d (d'.onSlice n g) :=
  h.trans ⟨rfl, fun _ hm => d'.slice_onSlice_ne g hm, SameRegs.of_regs_eq rfl⟩

/-- A change made where a condition holds. -/
theorem SliceFrame.when (h : SliceFrame n l d d') {c : Bool} {f : Dev → Dev} (hf : SliceFrame n l d' (f d')) :
    SliceFrame n l d (d'.when c f) := by
  cases c with
  | true => exact h.trans hf
  | false => exact h

end

/-- DEFECT of a head is all that showing it writes (R85). -/
theorem Dev.regFrame_showDefect (d : Dev) (h : Nat) : RegFrame d (d.showDefect h) [Adr.SRV_DEFECT h] :=
  ((RegFrame.refl d _).put (by simp [Fld.SRV_DEFECT_MASK])).putBit (by simp [Fld.SRV_DEFECT_ANY])

/-- f is set in the slice and shown in MON (R69). -/
theorem Dev.sliceFrame_setF (d : Dev) (n : Nat) (f : Int) : SliceFrame n [Adr.CHN_MON n] d (d.setF n f) :=
  ((SliceFrame.refl n _ d).onSlice _).put (by simp [Fld.CHN_MON_F])

/-- LOCKED falls, and a cold acquisition is armed (R75). -/
theorem Dev.sliceFrame_loseLock (d : Dev) (n : Nat) : SliceFrame n [Adr.CHN_STATUS n] d (d.loseLock n) :=
  ((SliceFrame.refl n _ d).putBit (by simp [Fld.CHN_STATUS_LOCKED])).onSlice _

/-- LOCKED rises (R77). -/
theorem Dev.sliceFrame_gainLock (d : Dev) (n : Nat) : SliceFrame n [Adr.CHN_STATUS n] d (d.gainLock n) :=
  ((SliceFrame.refl n _ d).putBit (by simp [Fld.CHN_STATUS_LOCKED])).onSlice _

/-! ## MODE (R65) -/

/-- The registers that a slice writes as it leaves or enters Off. -/
def modeRegs (n : Nat) : List Nat := [Adr.CHN_ZONE_CUR n, Adr.CHN_CTF_CFG n, Adr.CHN_MON n, Adr.CHN_STATUS n]

/-- What a change of MODE brings about in the slice: it leaves Off, enters it, or neither (R65, R75). -/
def Dev.modeBegins (d : Dev) (n was mode : Nat) : Dev :=
  if was = 0 ∧ mode ≠ 0 then d.sliceLeaveOff n else if mode = 0 then d.sliceEnterOff n else d

theorem Dev.sliceSetMode_of_ok {d : Dev} {n mode : Nat} (h : d.sliceModeOk n mode = true) :
    d.sliceSetMode n mode =
      ((d.put (Fld.CHN_CTRL_MODE n) mode).modeBegins n (d.sliceMode n) mode).showDefect (n / 10) := if_pos h

section
variable (d : Dev) (n : Nat)

theorem Dev.sliceFrame_sliceTakeZone (zone : Word) (boost : Nat) (preset : Int) :
    SliceFrame n (modeRegs n) d (d.sliceTakeZone n zone boost preset) := by
  have fields := ((SliceFrame.refl n (modeRegs n) d).setReg (a := Adr.CHN_ZONE_CUR n) (v := zone &&& 0x3fffffff)
    (by simp [modeRegs])).put (f := Fld.CHN_CTF_CFG_BOOST n) (v := boost) (by simp [modeRegs, Fld.CHN_CTF_CFG_BOOST])
  exact (fields.trans ((Dev.sliceFrame_setF _ n preset).mono (by simp [modeRegs]))).onSlice _

theorem Dev.sliceFrame_sliceLeaveOff : SliceFrame n (modeRegs n) d (d.sliceLeaveOff n) := by
  unfold Dev.sliceLeaveOff
  exact (d.sliceFrame_sliceTakeZone n _ _ _).onSlice _

theorem Dev.coldArmed_sliceLeaveOff : ((d.sliceLeaveOff n).slice n).coldArmed = true := by
  rw [Dev.sliceLeaveOff, Dev.slice_onSlice_self]

theorem Dev.sliceFrame_sliceEnterOff : SliceFrame n (modeRegs n) d (d.sliceEnterOff n) :=
  (((SliceFrame.refl n _ d).putBit (by simp [modeRegs, Fld.CHN_STATUS_LOCKED])).putBit
    (by simp [modeRegs, Fld.CHN_STATUS_DEFECT])).onSlice _

theorem Dev.bit_sliceEnterOff_locked : (d.sliceEnterOff n).bit (Fld.CHN_STATUS_LOCKED n) = false := by
  rw [Dev.sliceEnterOff, Dev.bit_onSlice, Dev.bit_putBit_ne _ _ _ _ (.inr (.inl (Nat.le_of_ble_eq_true rfl)))]
  exact Dev.bit_putBit_self _ _ _

theorem Dev.bit_modeBegins_off (was : Nat) : (d.modeBegins n was 0).bit (Fld.CHN_STATUS_LOCKED n) = false := by
  rw [Dev.modeBegins, if_neg (by simp), if_pos rfl]
  exact d.bit_sliceEnterOff_locked n

theorem Dev.sliceFrame_modeBegins (was mode : Nat) : SliceFrame n (modeRegs n) d (d.modeBegins n was mode) := by
  unfold Dev.modeBegins
  split
  · exact d.sliceFrame_sliceLeaveOff n
  · split
    · exact d.sliceFrame_sliceEnterOff n
    · exact .refl n _ d

end

/-- No MODE field is among the registers that a change of mode writes beside it. -/
theorem chnCtrl_notMem_modeRegs (n m : Slice) : Adr.CHN_CTRL m ∉ Adr.SRV_DEFECT (n.val / 10) :: modeRegs n := by
  have hm := m.isLt
  simp only [modeRegs, List.mem_cons, List.not_mem_nil, or_false, Adr.CHN_CTRL, Adr.SRV_DEFECT, Adr.CHN_ZONE_CUR, Adr.CHN_CTF_CFG,
    Adr.CHN_MON, Adr.CHN_STATUS]
  omega

/-- A mode that is taken shows in MODE of its slice, and in no other (R65). -/
theorem Dev.sliceMode_sliceSetMode (d : Dev) (n m : Slice) (mode : BitVec 2) (h : d.sliceModeOk n mode.toNat = true) :
    (d.sliceSetMode n mode.toNat).sliceMode m = if m = n then mode.toNat else d.sliceMode m := by
  have begun := ((d.put (Fld.CHN_CTRL_MODE n) mode.toNat).sliceFrame_modeBegins n (d.sliceMode n) mode.toNat).regs
  have same := (begun.mono (l' := Adr.SRV_DEFECT (n.val / 10) :: modeRegs n) (by simp)).trans
    ((Dev.regFrame_showDefect _ (n.val / 10)).2.mono (by simp))
  have stands : (d.sliceSetMode n mode.toNat).sliceMode m = (d.put (Fld.CHN_CTRL_MODE n) mode.toNat).sliceMode m := by
    rw [Dev.sliceSetMode_of_ok h]
    exact same.fld (chnCtrl_notMem_modeRegs n m)
  rw [stands]
  split
  · next he =>
    subst he
    exact (Dev.fld_put_self _ _ _ (Nat.le_of_ble_eq_true rfl)).trans (Nat.mod_eq_of_lt mode.isLt)
  · next he =>
    have apart : Adr.CHN_CTRL m ≠ Adr.CHN_CTRL n := fun ha => he (Fin.ext (by unfold Adr.CHN_CTRL at ha; omega))
    exact Dev.fld_put_ne _ _ _ _ (Nat.le_of_ble_eq_true rfl) (.inl apart)

/-- A slice that leaves Off arms a cold acquisition (R75). -/
theorem Dev.coldArmed_sliceSetMode (d : Dev) (n : Nat) {mode : Nat} (h : d.sliceModeOk n mode = true) (was : d.sliceMode n = 0)
    (hm : mode ≠ 0) : ((d.sliceSetMode n mode).slice n).coldArmed = true := by
  rw [Dev.sliceSetMode_of_ok h, Dev.modeBegins, if_pos ⟨was, hm⟩, (Dev.regFrame_showDefect _ _).slice]
  exact Dev.coldArmed_sliceLeaveOff _ n

/-- A slice in Off is not locked. -/
theorem Dev.bit_sliceSetMode_off (d : Dev) (n : Slice) : (d.sliceSetMode n 0).bit (Fld.CHN_STATUS_LOCKED n) = false := by
  have apart : Adr.CHN_STATUS n ∉ [Adr.SRV_DEFECT (n.val / 10)] := by
    have hn := n.isLt
    simp only [List.mem_singleton, Adr.CHN_STATUS, Adr.SRV_DEFECT]
    omega
  have off : d.sliceModeOk n 0 = true := if_pos rfl
  rw [Dev.sliceSetMode_of_ok off]
  exact ((Dev.regFrame_showDefect _ _).2.bit apart).trans (Dev.bit_modeBegins_off _ n _)

section
variable (s : State) (n : Slice)

theorem completes_sliceSetMode (mode : BitVec 2) (hh : s.dev.hasHead (headOfSlice n) = true)
    (h : s.dev.sliceModeOk n mode.toNat = true) :
    Completes (.sliceSetMode n mode) s fun d => d.sliceMode n = mode.toNat ∧
      (s.dev.sliceMode n = 0 → mode ≠ 0 → (d.slice n).coldArmed = true) ∧
      (mode = 0 → d.bit (Fld.CHN_STATUS_LOCKED n) = false) ∧ ∀ m : Slice, m ≠ n → d.sliceMode m = s.dev.sliceMode m := by
  refine Completes.of_onSlice (f := fun d => d.sliceSetMode n mode.toNat) rfl hh ⟨?own, ?leaves, ?enters, ?others⟩
  case own => rw [Dev.sliceMode_sliceSetMode _ n n mode h, if_pos rfl]
  case leaves =>
    exact fun was hm => s.dev.coldArmed_sliceSetMode n h was fun h0 => hm (BitVec.eq_of_toNat_eq h0)
  case enters =>
    intro hm
    subst hm
    exact s.dev.bit_sliceSetMode_off n
  case others => exact fun m hm => by rw [Dev.sliceMode_sliceSetMode _ n m mode h, if_neg hm]

theorem exec_sliceSetMode_discarded (mode : BitVec 2) (h : s.dev.sliceModeOk n mode.toNat = false) :
    exec (.sliceSetMode n mode) s = .next s :=
  State.onSlice_of_eq_self (f := fun d => d.sliceSetMode n mode.toNat) (if_neg (by simp [h]))

/-! ## BEAM (R64) -/

/-- A beam that is taken shows at once, and is served from the next wedge field on (R64). -/
theorem completes_sliceSetBeam (beam : BitVec 4) (hh : s.dev.hasHead (headOfSlice n) = true) (hb : beam.toNat < 10)
    (new : beam.toNat ≠ s.dev.fld (Fld.CHN_CTRL_BEAM n))
    (free : ¬(s.dev.sliceMode n = 1 ∧ s.dev.beamTaken n beam.toNat = true)) :
    Completes (.sliceSetBeam n beam) s fun d => d.fld (Fld.CHN_CTRL_BEAM n) = beam.toNat ∧
      (s.dev.sliceBeam n < 10 → d.sliceBeam n = s.dev.sliceBeam n) ∧
      d = { s.dev with regs := d.regs, slices := d.slices } ∧ SameRegs s.dev d [Adr.CHN_CTRL n] := by
  have taken : s.dev.sliceSetBeam n beam.toNat = (s.dev.put (Fld.CHN_CTRL_BEAM n) beam.toNat).onSlice n fun x =>
      { x with served := some (Fin.ofNat 10 (s.dev.sliceBeam n)) } := if_neg (by
    rintro (h | h | h)
    · exact absurd hb (not_lt.mpr h)
    · exact new h
    · exact free h)
  refine Completes.of_onSlice (f := fun d => d.sliceSetBeam n beam.toNat) rfl hh ?_
  rw [taken]
  refine ⟨?_, fun old => ?_, rfl, (SameRegs.refl s.dev _).put (by simp [Fld.CHN_CTRL_BEAM])⟩
  · exact (Dev.fld_put_self _ _ _ (Nat.le_of_ble_eq_true rfl)).trans (Nat.mod_eq_of_lt beam.isLt)
  · rw [Dev.sliceBeam, Dev.slice_onSlice_self]
    exact Nat.mod_eq_of_lt old

theorem exec_sliceSetBeam_discarded (beam : BitVec 4) (h : 10 ≤ beam.toNat ∨ beam.toNat = s.dev.fld (Fld.CHN_CTRL_BEAM n) ∨
    (s.dev.sliceMode n = 1 ∧ s.dev.beamTaken n beam.toNat = true)) : exec (.sliceSetBeam n beam) s = .next s :=
  State.onSlice_of_eq_self (f := fun d => d.sliceSetBeam n beam.toNat) (if_pos h)

/-! ## COLD, CNT_CLR and the end of a rejoin (R75, R76, R93) -/

theorem completes_sliceCold (hh : s.dev.hasHead (headOfSlice n) = true) : Completes (.sliceCold n) s fun d =>
    (d.slice n).coldArmed = true ∧ d = { s.dev with slices := d.slices } ∧ ∀ m, m ≠ n.val → d.slice m = s.dev.slice m :=
  Completes.of_onSlice (f := fun d => d.onSlice n fun x => { x with coldArmed := true }) rfl hh
    ⟨by rw [Dev.slice_onSlice_self], rfl, fun _ hm => Dev.slice_onSlice_ne _ _ hm⟩

theorem completes_sliceCntClr (hh : s.dev.hasHead (headOfSlice n) = true) : Completes (.sliceCntClr n) s fun d =>
    (∀ k < 8, d.reg (Adr.CHN_CNT n k) = 0) ∧ d = { s.dev with regs := d.regs } ∧
      SameRegs s.dev d ((List.range 8).map (Adr.CHN_CNT n)) :=
  Completes.of_onSlice (f := fun d => d.clearCounters (Adr.CHN_CNT n)) rfl hh
    ⟨fun _ hk => Dev.reg_clearCounters_self _ _ hk, Dev.regFrame_clearCounters _ _⟩

/-- A slice at the end of a rejoin: it waits for the next resync field where its groups are over, and goes on where not (R76). -/
def SliceSt.rejoinEnds (x : SliceSt) : SliceSt := if x.rejoining = some 0 then { x with rejoining := none, rejoinDone := true } else x

theorem completes_rejoinEnd (hh : s.dev.hasHead (headOfSlice n) = true) : Completes (.rejoinEnd n) s fun d =>
    ((s.dev.slice n).rejoining = some 0 → (d.slice n).rejoining = none ∧ (d.slice n).rejoinDone = true) ∧
    ((s.dev.slice n).rejoining ≠ some 0 → d.slice n = s.dev.slice n) ∧
    d = { s.dev with slices := d.slices } ∧ ∀ m, m ≠ n.val → d.slice m = s.dev.slice m := by
  refine Completes.of_onSlice (f := fun d => d.onSlice n SliceSt.rejoinEnds) rfl hh
    ⟨fun ended => ?_, fun runs => ?_, rfl, fun _ hm => Dev.slice_onSlice_ne _ _ hm⟩
  · rw [Dev.slice_onSlice_self, SliceSt.rejoinEnds, if_pos ended]
    exact ⟨rfl, rfl⟩
  · rw [Dev.slice_onSlice_self, SliceSt.rejoinEnds, if_neg runs]

end

/-- The controls of a slice act on it alone, and only where the variant has it. -/
theorem sliceControls_onSlice (s : State) (n : Slice) (mode : BitVec 2) (beam : BitVec 4) :
    ∀ c ∈ [Instr.sliceSetMode n mode, .sliceSetBeam n beam, .sliceCold n, .sliceCntClr n, .rejoinEnd n, .sliceSelfCheckFault n],
      ∃ f, exec c s = s.onSlice n f := by
  simp only [List.forall_mem_cons]
  exact ⟨⟨fun d => d.sliceSetMode n mode.toNat, rfl⟩, ⟨fun d => d.sliceSetBeam n beam.toNat, rfl⟩,
    ⟨fun d => d.onSlice n fun x => { x with coldArmed := true }, rfl⟩, ⟨fun d => d.clearCounters (Adr.CHN_CNT n), rfl⟩,
    ⟨fun d => d.onSlice n SliceSt.rejoinEnds, rfl⟩, ⟨fun d => if d.mode = 2 then d else d.sliceFaulted n, rfl⟩,
    fun _ h => absurd h List.not_mem_nil⟩

/-- Settles O24: the commands one by one, each where it is taken and where it is discarded. -/
theorem sliceControlsTakeOrDiscard : Obligations.SliceControlsTakeOrDiscard := by
  intro s n mode beam
  refine ⟨fun fused c hc => ?_, fun hh => ⟨completes_sliceSetMode s n mode hh, exec_sliceSetMode_discarded s n mode,
    completes_sliceSetBeam s n beam hh, exec_sliceSetBeam_discarded s n beam, completes_sliceCold s n hh,
    completes_sliceCntClr s n hh, completes_rejoinEnd s n hh⟩⟩
  obtain ⟨f, acts⟩ := sliceControls_onSlice s n mode beam c hc
  exact acts.trans (State.onSlice_of_fused fused)

/-! ## Zone staging (R90) -/

/-- The divider of a staged zone is judged: a low one is flagged, and ZONE_READY shown (R90). -/
def Dev.judgeStaged (d : Dev) (n : Nat) (v : Word) : Dev :=
  (d.when (fieldOf v 16 8 < 33) fun d => d.putBit (Fld.CHN_STATUS_INVALID_DIV n) true).putBit (Fld.CHN_STATUS_ZONE_READY n)
    (decide (fieldOf v 31 1 ≠ 0) && decide (33 ≤ fieldOf v 16 8))

/-- A zone that is stored (R90). -/
theorem Dev.sliceStage_of_le (d : Dev) (n : Nat) (v : Word) (hz : fieldOf v 24 6 ≤ 47) :
    d.sliceStage n v = (d.setReg (Adr.CHN_ZONE_NEXT n) v).judgeStaged n v := by
  have apart : Adr.CHN_ZONE_NEXT n ≠ Adr.CHN_STATUS n := by unfold Adr.CHN_ZONE_NEXT Adr.CHN_STATUS; omega
  have flagged := ((RegFrame.refl (d.setReg (Adr.CHN_ZONE_NEXT n) v) [Adr.CHN_STATUS n]).when (c := fieldOf v 16 8 < 33)
    (f := fun d => d.putBit (Fld.CHN_STATUS_INVALID_DIV n) true)
    ((RegFrame.refl _ _).putBit (by simp [Fld.CHN_STATUS_INVALID_DIV]))).2
  have staged := (flagged (Adr.CHN_ZONE_NEXT n) (by simp [apart])).trans (Dev.reg_setReg_self d _ v)
  rw [Dev.sliceStage, if_neg (by omega)]
  simp only [Dev.judgeStaged, Dev.zoneReady, Dev.bit, Dev.fld, Fld.CHN_ZONE_NEXT_VALID, Fld.CHN_ZONE_NEXT_CHAN_DIV, staged]
  congr 1
  simp [bne, beq_eq_decide]

theorem Dev.regFrame_judgeStaged (d : Dev) (n : Nat) (v : Word) : RegFrame d (d.judgeStaged n v) [Adr.CHN_STATUS n] :=
  ((RegFrame.refl d _).when ((RegFrame.refl _ _).putBit (by simp [Fld.CHN_STATUS_INVALID_DIV]))).putBit
    (by simp [Fld.CHN_STATUS_ZONE_READY])

theorem Dev.bit_judgeStaged (d : Dev) (n : Nat) (v : Word) :
    (fieldOf v 16 8 < 33 → (d.judgeStaged n v).bit (Fld.CHN_STATUS_INVALID_DIV n) = true) ∧
    (d.judgeStaged n v).bit (Fld.CHN_STATUS_ZONE_READY n) = (decide (fieldOf v 31 1 ≠ 0) && decide (33 ≤ fieldOf v 16 8)) := by
  refine ⟨fun low => ?_, Dev.bit_putBit_self _ _ _⟩
  rw [Dev.judgeStaged, Dev.bit_putBit_ne _ _ _ _ (.inr (.inr (Nat.le_of_ble_eq_true rfl))), decide_eq_true low, Dev.when_true]
  exact Dev.bit_putBit_self _ _ _

/-- TBL_READY is all that showing a table writes (R143). -/
theorem Dev.regFrame_showTable (d : Dev) (h : Nat) : RegFrame d (d.showTable h) [Adr.WP_STATUS h] :=
  (RegFrame.refl d _).putBit (by simp [Fld.WP_STATUS_TBL_READY])

/-- The registers of a slice's staged zone and status are no write path's. -/
theorem wpStatus_ne_chn (n : Slice) : Adr.CHN_ZONE_NEXT n ∉ [Adr.WP_STATUS (n.val / 10)] ∧ Adr.CHN_STATUS n ∉ [Adr.WP_STATUS (n.val / 10)] := by
  have hn := n.isLt
  simp only [List.mem_singleton, Adr.CHN_ZONE_NEXT, Adr.CHN_STATUS, Adr.WP_STATUS]
  omega

section
variable (s : State) (n : Slice) (v : Word) (hh : s.dev.hasHead (headOfSlice n) = true)
include hh

theorem completes_sliceZoneStage_refused (hz : 47 < fieldOf v 24 6) : Completes (.sliceZoneStage n v) s fun d =>
    d.reg (Adr.CHN_ZONE_NEXT n) = s.dev.reg (Adr.CHN_ZONE_NEXT n) ∧ d = { s.dev with regs := d.regs } ∧
      SameRegs s.dev d [Adr.WP_STATUS (n.val / 10)] := by
  have stands : s.dev.sliceStage n v = s.dev := if_pos hz
  obtain ⟨only, same⟩ := s.dev.regFrame_showTable (n.val / 10)
  refine Completes.of_onSlice (f := fun d => (d.sliceStage n v).showTable (n.val / 10)) rfl hh ?_
  rw [stands]
  exact ⟨same _ (wpStatus_ne_chn n).1, only, same⟩

theorem completes_sliceZoneStage_stored (hz : fieldOf v 24 6 ≤ 47) : Completes (.sliceZoneStage n v) s fun d =>
    d.reg (Adr.CHN_ZONE_NEXT n) = v ∧ (fieldOf v 16 8 < 33 → d.bit (Fld.CHN_STATUS_INVALID_DIV n) = true) ∧
      d.bit (Fld.CHN_STATUS_ZONE_READY n) = (decide (fieldOf v 31 1 ≠ 0) && decide (33 ≤ fieldOf v 16 8)) ∧
      d = { s.dev with regs := d.regs } ∧
      SameRegs s.dev d [Adr.CHN_ZONE_NEXT n, Adr.CHN_STATUS n, Adr.WP_STATUS (n.val / 10)] := by
  refine Completes.of_onSlice (f := fun d => (d.sliceStage n v).showTable (n.val / 10)) rfl hh ?_
  rw [Dev.sliceStage_of_le _ _ _ hz]
  have judged := (s.dev.setReg (Adr.CHN_ZONE_NEXT n) v).regFrame_judgeStaged n v
  obtain ⟨low, ready⟩ := (s.dev.setReg (Adr.CHN_ZONE_NEXT n) v).bit_judgeStaged n v
  have shown := ((s.dev.setReg (Adr.CHN_ZONE_NEXT n) v).judgeStaged n v).regFrame_showTable (n.val / 10)
  obtain ⟨next, status⟩ := wpStatus_ne_chn n
  have apart : Adr.CHN_ZONE_NEXT n ≠ Adr.CHN_STATUS n := by unfold Adr.CHN_ZONE_NEXT Adr.CHN_STATUS; omega
  refine ⟨(shown.2 _ next).trans ((judged.2 _ (by simp [apart])).trans (Dev.reg_setReg_self _ _ _)),
    fun h => (shown.2.bit status).trans (low h), (shown.2.bit status).trans ready, ?_⟩
  exact (((RegFrame.refl s.dev _).setReg (by simp)).trans (judged.mono (by simp))).trans (shown.mono (by simp))

end

/-- Settles O25: a zone that is refused, and one that is stored. -/
theorem zoneStagingChecksDivider : Obligations.ZoneStagingChecksDivider := fun s n v hh =>
  ⟨completes_sliceZoneStage_refused s n v hh, completes_sliceZoneStage_stored s n v hh⟩

end Sys2Proof.Machine

/-! PROOFS. Preambles and sync marks (O27): what the search accepts, and what its class brings about. -/

namespace Sys2Proof.Machine

/-! ## The search (R81, R82) -/

/-- Of some offsets the search keeps one of least distance. -/
theorem bestHard_least (w : SyncWindow) {l : List Int} (hl : l ≠ []) : ∃ k ∈ l, bestHard w l = some (k, syncDistance w k) ∧
    ∀ j ∈ l, syncDistance w k ≤ syncDistance w j := by
  induction l with
  | nil => exact absurd rfl hl
  | cons a l ih =>
    by_cases hn : l = []
    · subst hn
      exact ⟨a, by simp, rfl, by simp⟩
    · obtain ⟨k, mem, best, least⟩ := ih hn
      simp only [bestHard, best]
      by_cases ha : syncDistance w a ≤ syncDistance w k
      · refine ⟨a, by simp, by rw [if_pos ha], fun j hj => ?_⟩
        rcases List.mem_cons.mp hj with rfl | hj
        · exact le_rfl
        · exact ha.trans (least j hj)
      · refine ⟨k, by simp [mem], by rw [if_neg ha], fun j hj => ?_⟩
        rcases List.mem_cons.mp hj with rfl | hj
        · omega
        · exact least j hj

theorem syncOffsets_ne_nil (n : Nat) : syncOffsets n ≠ [] := by cases n <;> simp [syncOffsets]

section
variable (thr win softMin : Nat) (softEn : Bool) (g : List Int) (w : SyncWindow)

/-- The search accepts HARD where some offset lies within the threshold, and then at one of least distance (R81); NOMINAL is the
expected place (R82). -/
theorem syncOutcome_spec :
    ((syncOutcome thr win softMin softEn g w).1 = .hard ↔ ∃ k ∈ syncOffsets (min win 8), syncDistance w k ≤ thr) ∧
    ((syncOutcome thr win softMin softEn g w).1 = .hard → (syncOutcome thr win softMin softEn g w).2.1 ∈ syncOffsets (min win 8) ∧
      ∀ k ∈ syncOffsets (min win 8), syncDistance w (syncOutcome thr win softMin softEn g w).2.1 ≤ syncDistance w k) ∧
    ((syncOutcome thr win softMin softEn g w).1 = .nominal → (syncOutcome thr win softMin softEn g w).2.1 = 0) := by
  obtain ⟨k, mem, best, least⟩ := bestHard_least w (syncOffsets_ne_nil (min win 8))
  by_cases hk : syncDistance w k ≤ thr
  · have hard : syncOutcome thr win softMin softEn g w = (.hard, k, syncDistance w k) := by
      simp only [syncOutcome, best, if_pos hk]
    rw [hard]
    exact ⟨iff_of_true rfl ⟨k, mem, hk⟩, fun _ => ⟨mem, least⟩, fun h => by cases h⟩
  · have far : ¬∃ j ∈ syncOffsets (min win 8), syncDistance w j ≤ thr := fun ⟨j, hj, hd⟩ => hk ((least j hj).trans hd)
    have other : (syncOutcome thr win softMin softEn g w).1 ≠ .hard ∧
        ((syncOutcome thr win softMin softEn g w).1 = .nominal → (syncOutcome thr win softMin softEn g w).2.1 = 0) := by
      simp only [syncOutcome, best, if_neg hk]
      split
      · simp
      · split
        · simp
        · split <;> simp
    exact ⟨iff_of_false other.1 far, fun h => absurd h other.1, other.2⟩

end

/-! ## What the class brings about (R74, R82, R93) -/

/-- A search is counted by its class, and SYNC_FALLBACK shows one that was not HARD (R82, R93). -/
def Dev.syncCounted (d : Dev) (n : Nat) : SyncClass → Dev
  | .hard => d.count (Adr.CHN_CNT n 0)
  | .soft => (d.count (Adr.CHN_CNT n 1)).putBit (Fld.CHN_STATUS_SYNC_FALLBACK n) true
  | .nominal => (d.count (Adr.CHN_CNT n 2)).putBit (Fld.CHN_STATUS_SYNC_FALLBACK n) true

/-- A cold acquisition that found no mark has failed (R74). -/
def Dev.acqFails (d : Dev) (n : Nat) : Dev :=
  ((d.putBit (Fld.CHN_STATUS_ACQ_FAIL n) true).count (Adr.CHN_CNT n 7)).when (d.bit (Fld.CHN_STATUS_LOCKED n)) fun d => d.loseLock n

/-- The end of a cold acquisition by the class of its search (R74). -/
def Dev.coldEnds (d : Dev) (n : Nat) (c : SyncClass) : Dev := if c = .nominal then d.acqFails n else d.gainLock n

/-- The outcome that a slice's search finds (R81, R82). -/
def Dev.syncFound (d : Dev) (n : Nat) : SyncClass × Int × Nat :=
  syncOutcome (d.fld (Fld.CHN_SYNC_CFG_THR n)) (d.fld (Fld.CHN_SYNC_CFG_WIN n)) (d.fld (Fld.CHN_SYNC_CFG_SOFT_MIN n))
    (d.bit (Fld.CHN_SYNC_CFG_SOFT_EN n)) (d.target n) (d.syncWindow n (d.syncSlot n))

section
variable (d : Dev) (n : Nat)

theorem Dev.syncFound_spec :
    let w := d.syncWindow n (d.syncSlot n)
    let offs := syncOffsets (min (d.fld (Fld.CHN_SYNC_CFG_WIN n)) 8)
    ((d.syncFound n).1 = .hard ↔ ∃ k ∈ offs, syncDistance w k ≤ d.fld (Fld.CHN_SYNC_CFG_THR n)) ∧
    ((d.syncFound n).1 = .hard → (d.syncFound n).2.1 ∈ offs ∧ ∀ k ∈ offs, syncDistance w (d.syncFound n).2.1 ≤ syncDistance w k) ∧
    ((d.syncFound n).1 = .nominal → (d.syncFound n).2.1 = 0) := syncOutcome_spec _ _ _ _ _ _

theorem Dev.regFrame_syncCounted (c : SyncClass) :
    RegFrame d (d.syncCounted n c) [Adr.CHN_CNT n 0, Adr.CHN_CNT n 1, Adr.CHN_CNT n 2, Adr.CHN_STATUS n] := by
  have fallback : (Fld.CHN_STATUS_SYNC_FALLBACK n).adr = Adr.CHN_STATUS n := rfl
  cases c with
  | hard => exact (RegFrame.refl d _).count (by simp)
  | soft => exact ((RegFrame.refl d _).count (by simp)).putBit (by simp [fallback])
  | nominal => exact ((RegFrame.refl d _).count (by simp)).putBit (by simp [fallback])

/-- The counter of a class of search (R93). -/
def syncCounter : SyncClass → Nat
  | .hard => 0
  | .soft => 1
  | .nominal => 2

theorem chnCnt_ne_chnStatus (k : Nat) : Adr.CHN_CNT n k ≠ Adr.CHN_STATUS n := by
  unfold Adr.CHN_CNT Adr.CHN_STATUS; omega

theorem Dev.reg_syncCounted (c : SyncClass) : (d.syncCounted n c).reg (Adr.CHN_CNT n (syncCounter c)) =
    d.counted (Adr.CHN_CNT n (syncCounter c)) 1 := by
  have counts (k : Nat) : (d.count (Adr.CHN_CNT n k)).reg (Adr.CHN_CNT n k) = d.counted (Adr.CHN_CNT n k) 1 := by
    rw [Dev.count, Dev.reg_countBy, if_pos rfl, Dev.counted]
  cases c with
  | hard => exact counts 0
  | soft => exact (Dev.reg_put_ne _ _ _ (chnCnt_ne_chnStatus n 1)).trans (counts 1)
  | nominal => exact (Dev.reg_put_ne _ _ _ (chnCnt_ne_chnStatus n 2)).trans (counts 2)

theorem Dev.bit_syncCounted_fallback {c : SyncClass} (h : c ≠ .hard) :
    (d.syncCounted n c).bit (Fld.CHN_STATUS_SYNC_FALLBACK n) = true := by
  cases c with
  | hard => exact absurd rfl h
  | soft | nominal => exact Dev.bit_putBit_self _ _ _

theorem Dev.sliceFrame_acqFails : SliceFrame n [Adr.CHN_CNT n 7, Adr.CHN_STATUS n] d (d.acqFails n) :=
  (((SliceFrame.refl n _ d).putBit (by simp [Fld.CHN_STATUS_ACQ_FAIL])).count (by simp)).when
    ((Dev.sliceFrame_loseLock _ n).mono (by simp))

theorem Dev.sliceFrame_coldEnds (c : SyncClass) : SliceFrame n [Adr.CHN_CNT n 7, Adr.CHN_STATUS n] d (d.coldEnds n c) := by
  unfold Dev.coldEnds
  split
  · exact d.sliceFrame_acqFails n
  · exact (d.sliceFrame_gainLock n).mono (by simp)

/-- A field of CHN_STATUS other than LOCKED and ACQ_FAIL stands at the end of a cold acquisition. -/
theorem Dev.bit_coldEnds_fallback (c : SyncClass) :
    (d.coldEnds n c).bit (Fld.CHN_STATUS_SYNC_FALLBACK n) = d.bit (Fld.CHN_STATUS_SYNC_FALLBACK n) := by
  have locked (e : Dev) (b : Bool) : (e.putBit (Fld.CHN_STATUS_LOCKED n) b).bit (Fld.CHN_STATUS_SYNC_FALLBACK n) =
      e.bit (Fld.CHN_STATUS_SYNC_FALLBACK n) := Dev.bit_putBit_ne _ _ _ _ (.inr (.inr (Nat.le_of_ble_eq_true rfl)))
  unfold Dev.coldEnds
  split
  · have failed : ((d.putBit (Fld.CHN_STATUS_ACQ_FAIL n) true).count (Adr.CHN_CNT n 7)).bit (Fld.CHN_STATUS_SYNC_FALLBACK n) =
        d.bit (Fld.CHN_STATUS_SYNC_FALLBACK n) :=
      (Dev.bit_of_reg_eq (Dev.reg_setReg_ne _ _ (chnCnt_ne_chnStatus n 7).symm)).trans
        (Dev.bit_putBit_ne _ _ _ _ (.inr (.inr (Nat.le_of_ble_eq_true rfl))))
    unfold Dev.acqFails
    cases d.bit (Fld.CHN_STATUS_LOCKED n) with
    | true => exact (locked _ false).trans failed
    | false => exact failed
  · exact locked d true

/-- LOCKED falls, ACQ_FAIL is set, and the failure is counted (R74). -/
theorem Dev.acqFails_spec : (d.acqFails n).bit (Fld.CHN_STATUS_LOCKED n) = false ∧
    (d.acqFails n).bit (Fld.CHN_STATUS_ACQ_FAIL n) = true ∧
    (d.acqFails n).reg (Adr.CHN_CNT n 7) = d.counted (Adr.CHN_CNT n 7) 1 := by
  have status : Adr.CHN_STATUS n ≠ Adr.CHN_CNT n 7 := (chnCnt_ne_chnStatus n 7).symm
  have failed : ((d.putBit (Fld.CHN_STATUS_ACQ_FAIL n) true).count (Adr.CHN_CNT n 7)).bit (Fld.CHN_STATUS_ACQ_FAIL n) = true :=
    (Dev.bit_of_reg_eq (Dev.reg_setReg_ne _ _ status)).trans (Dev.bit_putBit_self _ _ _)
  have counted : ((d.putBit (Fld.CHN_STATUS_ACQ_FAIL n) true).count (Adr.CHN_CNT n 7)).reg (Adr.CHN_CNT n 7) =
      d.counted (Adr.CHN_CNT n 7) 1 := by
    rw [Dev.count, Dev.reg_countBy, if_pos rfl, Dev.putBit, Dev.reg_put_ne _ _ _ (chnCnt_ne_chnStatus n 7)]
    rfl
  unfold Dev.acqFails
  cases hl : d.bit (Fld.CHN_STATUS_LOCKED n) with
  | true =>
    refine ⟨Dev.bit_putBit_self _ _ _, ?_, ?_⟩
    · exact (Dev.bit_putBit_ne _ _ _ _ (.inr (.inr (Nat.le_of_ble_eq_true rfl)))).trans failed
    · exact (Dev.reg_put_ne _ _ _ (chnCnt_ne_chnStatus n 7)).trans counted
  | false =>
    refine ⟨?_, failed, counted⟩
    refine (Dev.bit_of_reg_eq (Dev.reg_setReg_ne _ _ status)).trans ?_
    exact (Dev.bit_putBit_ne _ _ _ _ (.inr (.inl (Nat.le_of_ble_eq_true rfl)))).trans hl

theorem Dev.bit_gainLock : (d.gainLock n).bit (Fld.CHN_STATUS_LOCKED n) = true := Dev.bit_putBit_self _ _ _

end

/-- What a search of a class leaves of the block, but for its outcome in the slice. -/
def Dev.searched (d : Dev) (n : Nat) (cold : Bool) (c : SyncClass) : Dev := (d.syncCounted n c).when cold fun d => d.coldEnds n c

/-- A slice with the outcome of a slot's search as its newest; no cold acquisition runs any more. -/
def SliceSt.found (slot : Nat) (r : SyncClass × Int × Nat) (x : SliceSt) : SliceSt :=
  { x with syncs := (slot, r) :: (x.syncs.filter fun e => e.1 != slot).take 3, coldRun := false }

@[simp] theorem SliceSt.sync_found (slot : Nat) (r : SyncClass × Int × Nat) (x : SliceSt) : (x.found slot r).sync = r.1 := rfl

@[simp] theorem SliceSt.syncOff_found (slot : Nat) (r : SyncClass × Int × Nat) (x : SliceSt) : (x.found slot r).syncOff = r.2.1 := rfl

@[simp] theorem SliceSt.coldRun_found (slot : Nat) (r : SyncClass × Int × Nat) (x : SliceSt) : (x.found slot r).coldRun = false := rfl

/-- A search of a live slice: its class is counted, it ends a cold acquisition, and the outcome is the newest of the slice. -/
theorem Dev.syncSearch_of_live {d : Dev} {n : Nat} (h : d.sliceLive n = true) : ∃ slot, d.syncSearch n =
    (d.searched n (d.slice n).coldRun (d.syncFound n).1).onSlice n (SliceSt.found slot (d.syncFound n)) := by
  rw [Dev.syncSearch, if_pos h]
  exact ⟨(d.searched n (d.slice n).coldRun (d.syncFound n).1).syncSlot n, rfl⟩

section
variable (d : Dev) (n : Nat) {cold : Bool} {c : SyncClass}

theorem Dev.sliceFrame_searched (cold : Bool) (c : SyncClass) : SliceFrame n [Adr.CHN_CNT n 0, Adr.CHN_CNT n 1, Adr.CHN_CNT n 2, Adr.CHN_CNT n 7, Adr.CHN_STATUS n]
    d (d.searched n cold c) :=
  (SliceFrame.of_regFrame ((d.regFrame_syncCounted n c).mono (by simp))).when ((Dev.sliceFrame_coldEnds _ n c).mono (by simp))

/-- The search is counted by its class alone (R93). -/
theorem Dev.reg_searched_counter {k : Nat} (hk : syncCounter c = k) :
    (d.searched n cold c).reg (Adr.CHN_CNT n k) = d.counted (Adr.CHN_CNT n k) 1 := by
  subst hk
  have apart : Adr.CHN_CNT n (syncCounter c) ∉ [Adr.CHN_CNT n 7, Adr.CHN_STATUS n] := by
    have seven : Adr.CHN_CNT n (syncCounter c) ≠ Adr.CHN_CNT n 7 := by cases c <;> simp [Adr.CHN_CNT, syncCounter]
    simp [seven, chnCnt_ne_chnStatus]
  have ends := (SliceFrame.refl n _ (d.syncCounted n c)).when (c := cold) (f := fun d => d.coldEnds n c)
    (Dev.sliceFrame_coldEnds _ n c)
  exact (ends.regs _ apart).trans (d.reg_syncCounted n c)

theorem Dev.bit_searched_fallback (h : c ≠ .hard) : (d.searched n cold c).bit (Fld.CHN_STATUS_SYNC_FALLBACK n) = true := by
  unfold Dev.searched
  cases cold with
  | true => exact (Dev.bit_coldEnds_fallback _ n c).trans (d.bit_syncCounted_fallback n h)
  | false => exact d.bit_syncCounted_fallback n h

/-- A cold acquisition that found its mark has LOCKED (R74; log 17). -/
theorem Dev.bit_searched_locked (hc : cold = true) (h : c ≠ .nominal) :
    (d.searched n cold c).bit (Fld.CHN_STATUS_LOCKED n) = true := by
  rw [Dev.searched, hc, Dev.when_true, Dev.coldEnds, if_neg h]
  exact Dev.bit_gainLock _ n

/-- A cold acquisition that found none has failed (R74). -/
theorem Dev.searched_failed (hc : cold = true) (h : c = .nominal) :
    (d.searched n cold c).bit (Fld.CHN_STATUS_LOCKED n) = false ∧
    (d.searched n cold c).bit (Fld.CHN_STATUS_ACQ_FAIL n) = true ∧
    (d.searched n cold c).reg (Adr.CHN_CNT n 7) = d.counted (Adr.CHN_CNT n 7) 1 := by
  subst hc h
  obtain ⟨locked, failed, counted⟩ := (d.syncCounted n .nominal).acqFails_spec n
  have stands : (d.syncCounted n .nominal).reg (Adr.CHN_CNT n 7) = d.reg (Adr.CHN_CNT n 7) :=
    (d.regFrame_syncCounted n .nominal).2 _ (by simp [Adr.CHN_CNT, Adr.CHN_STATUS]; omega)
  refine ⟨locked, failed, counted.trans ?_⟩
  rw [Dev.counted, Dev.counted, stands]

end

/-! ## The commands -/

section
variable (s : State) (n : Slice) (p : PreambleRecord)

/-- An armed cold acquisition takes its gain and its phase from the preamble (R73). -/
theorem Dev.preamble_of_armed {d : Dev} {n : Nat} (p : PreambleRecord) (live : d.sliceMode n ≠ 0)
    (armed : (d.slice n).coldArmed = true) (free : d.heldByWrite n = false) : ∃ (hold : Bool) (gain : Nat) (phase : SliceSt → Int),
    d.preamble n p =
      (d.when hold fun d => d.put (Fld.CHN_MON_GAIN n) gain).onSlice n fun x =>
        { x with coldArmed := false, coldRun := true, freqOk := true, phase := phase x } := by
  rw [Dev.preamble, if_pos ⟨live, armed, by simp [free]⟩]
  exact ⟨_, _, fun x => _, rfl⟩

/-- A preamble without an armed cold acquisition that may run changes nothing (R75, R137). -/
theorem Dev.preamble_of_not {d : Dev} {n : Nat} (p : PreambleRecord)
    (h : d.sliceMode n = 0 ∨ (d.slice n).coldArmed = false ∨ d.heldByWrite n = true) : d.preamble n p = d := by
  refine if_neg ?_
  rintro ⟨live, armed, free⟩
  rcases h with h | h | h
  · exact live h
  · simp [h] at armed
  · simp [h] at free

theorem exec_framePreamble_of_not (h : s.dev.sliceMode n = 0 ∨ (s.dev.slice n).coldArmed = false ∨ s.dev.heldByWrite n = true) :
    exec (.framePreamble n p) s = .next s :=
  State.onSlice_of_eq_self (f := fun d => d.preamble n p) (s.dev.preamble_of_not p h)

theorem exec_syncMarkSearch_of_off (h : s.dev.sliceMode n = 0) : exec (.syncMarkSearch n ()) s = .next s :=
  State.onSlice_of_eq_self (f := fun d => d.syncSearch n) (if_neg (by simp [Dev.sliceLive, h]))

theorem completes_framePreamble (hh : s.dev.hasHead (headOfSlice n) = true) (live : s.dev.sliceMode n ≠ 0)
    (armed : (s.dev.slice n).coldArmed = true) (free : s.dev.heldByWrite n = false) :
    Completes (.framePreamble n p) s fun d => (d.slice n).coldRun = true ∧ (d.slice n).coldArmed = false ∧
      (∀ m, m ≠ n.val → d.slice m = s.dev.slice m) ∧
      d = { s.dev with regs := d.regs, slices := d.slices } ∧ SameRegs s.dev d [Adr.CHN_MON n] := by
  obtain ⟨hold, gain, phase, eq⟩ := Dev.preamble_of_armed p live armed free
  refine Completes.of_onSlice (f := fun d => d.preamble n p) rfl hh ?_
  rw [eq]
  obtain ⟨only, others, same⟩ := SliceFrame.onSlice (n := n) ((SliceFrame.refl n [Adr.CHN_MON n] s.dev).when (c := hold)
    (f := fun d => d.put (Fld.CHN_MON_GAIN n) gain) ((SliceFrame.refl n _ _).put (by simp [Fld.CHN_MON_GAIN])))
    fun x => { x with coldArmed := false, coldRun := true, freqOk := true, phase := phase x }
  exact ⟨by rw [Dev.slice_onSlice_self], by rw [Dev.slice_onSlice_self], others, only, same⟩

/-- The search of a live slice, by its outcome. -/
theorem completes_syncMarkSearch (hh : s.dev.hasHead (headOfSlice n) = true) (live : s.dev.sliceLive n = true) :
    let offs := syncOffsets (min (s.dev.fld (Fld.CHN_SYNC_CFG_WIN n)) 8)
    let thr := s.dev.fld (Fld.CHN_SYNC_CFG_THR n)
    let cold := (s.dev.slice n).coldRun
    let w := s.dev.syncWindow n (s.dev.syncSlot n)
    Completes (.syncMarkSearch n ()) s fun d =>
      ((d.slice n).sync = .hard ↔ ∃ k ∈ offs, syncDistance w k ≤ thr) ∧
      ((d.slice n).sync = .hard → (d.slice n).syncOff ∈ offs ∧ ∀ k ∈ offs, syncDistance w (d.slice n).syncOff ≤ syncDistance w k) ∧
      ((d.slice n).sync = .hard → d.reg (Adr.CHN_CNT n 0) = s.dev.counted (Adr.CHN_CNT n 0) 1) ∧
      ((d.slice n).sync = .soft → d.reg (Adr.CHN_CNT n 1) = s.dev.counted (Adr.CHN_CNT n 1) 1) ∧
      ((d.slice n).sync = .nominal → d.reg (Adr.CHN_CNT n 2) = s.dev.counted (Adr.CHN_CNT n 2) 1 ∧ (d.slice n).syncOff = 0) ∧
      ((d.slice n).sync ≠ .hard → d.bit (Fld.CHN_STATUS_SYNC_FALLBACK n) = true) ∧
      (cold = true → (d.slice n).sync ≠ .nominal → d.bit (Fld.CHN_STATUS_LOCKED n) = true) ∧
      (cold = true → (d.slice n).sync = .nominal → d.bit (Fld.CHN_STATUS_LOCKED n) = false ∧
        d.bit (Fld.CHN_STATUS_ACQ_FAIL n) = true ∧ d.reg (Adr.CHN_CNT n 7) = s.dev.counted (Adr.CHN_CNT n 7) 1) ∧
      (d.slice n).coldRun = false ∧ d = { s.dev with regs := d.regs, slices := d.slices } := by
  intro offs thr cold w
  obtain ⟨slot, eq⟩ := Dev.syncSearch_of_live live
  obtain ⟨hard, least, nominal⟩ := s.dev.syncFound_spec n
  refine Completes.of_onSlice (f := fun d => d.syncSearch n) rfl hh ?_
  simp only [eq, Dev.slice_onSlice_self, SliceSt.sync_found, SliceSt.syncOff_found, SliceSt.coldRun_found, Dev.bit_onSlice,
    Dev.reg_onSlice]
  exact ⟨hard, least, fun h => s.dev.reg_searched_counter n (congrArg syncCounter h),
    fun h => s.dev.reg_searched_counter n (congrArg syncCounter h),
    fun h => ⟨s.dev.reg_searched_counter n (congrArg syncCounter h), nominal h⟩, s.dev.bit_searched_fallback n,
    s.dev.bit_searched_locked n, s.dev.searched_failed n, trivial, ((s.dev.sliceFrame_searched n _ _).onSlice _).only⟩

end

/-- Settles O27: the preamble and the search, each by the state that it finds. -/
theorem syncSearchAcceptsByDistance : Obligations.SyncSearchAcceptsByDistance := fun s n p hh =>
  ⟨completes_framePreamble s n p hh, fun h => exec_framePreamble_of_not s n p (.inr h),
    fun h => ⟨exec_framePreamble_of_not s n p (.inl h), exec_syncMarkSearch_of_off s n h⟩, completes_syncMarkSearch s n hh⟩

end Sys2Proof.Machine

/-! PROOFS. The end of a 32-bit group (O26): births, the defect detector, the timing loop and the AGC. -/

namespace Sys2Proof.Machine

/-! ## What the end of a group changes -/

/-- d' differs from d in registers of a list, in slice n, in the log and the Locus sequencer alone. -/
structure GroupFrame (n : Nat) (l : List Nat) (d d' : Dev) : Prop where
  only : d' = { d with regs := d'.regs, slices := d'.slices, log := d'.log, locus := d'.locus }
  others : ∀ m, m ≠ n → d'.slice m = d.slice m
  regs : SameRegs d d' l

section
variable {n : Nat} {l : List Nat} {d d' : Dev}

theorem GroupFrame.trans {d'' : Dev} (h : GroupFrame n l d d') (h' : GroupFrame n l d' d'') : GroupFrame n l d d'' := by
  obtain ⟨only, others, regs⟩ := h
  obtain ⟨only', others', regs'⟩ := h'
  refine ⟨?_, fun m hm => (others' m hm).trans (others m hm), regs.trans regs'⟩
  rw [only] at only'
  exact only'

theorem GroupFrame.of_sliceFrame (h : SliceFrame n l d d') : GroupFrame n l d d' := ⟨by rw [h.only], h.others, h.regs⟩

theorem GroupFrame.refl (n : Nat) (l : List Nat) (d : Dev) : GroupFrame n l d d := .of_sliceFrame (.refl n l d)

theorem GroupFrame.mono {l' : List Nat} (h : GroupFrame n l d d') (hl : l ⊆ l') : GroupFrame n l' d d' :=
  ⟨h.only, h.others, h.regs.mono hl⟩

theorem GroupFrame.onSlice (h : GroupFrame n l d d') (g : SliceSt → SliceSt) : GroupFrame n l d (d'.onSlice n g) :=
  h.trans (.of_sliceFrame ((SliceFrame.refl n l d').onSlice g))

theorem GroupFrame.putBit (h : GroupFrame n l d d') {f : Field} {b : Bool} (ha : f.adr ∈ l) : GroupFrame n l d (d'.putBit f b) :=
  h.trans (.of_sliceFrame ((SliceFrame.refl n l d').putBit ha))

theorem GroupFrame.count (h : GroupFrame n l d d') {a : Nat} (ha : a ∈ l) : GroupFrame n l d (d'.count a) :=
  h.trans (.of_sliceFrame ((SliceFrame.refl n l d').count ha))

/-- A change made where a condition holds. -/
theorem GroupFrame.when (h : GroupFrame n l d d') {c : Bool} {f : Dev → Dev} (hf : GroupFrame n l d' (f d')) :
    GroupFrame n l d (d'.when c f) := by
  cases c with
  | true => exact h.trans hf
  | false => exact h

theorem GroupFrame.issue (h : GroupFrame n l d d') (hl : Adr.LOCUS_STATUS ∈ l) : GroupFrame n l d d'.issue := by
  refine h.trans ⟨?_, fun m _ => ?_, d'.sameRegs_issue.mono (by simpa using hl)⟩
  · rw [Dev.issue_only]
  · rw [Dev.issue_only]; rfl

theorem GroupFrame.event (h : GroupFrame n l d d') {kind : EventKind} {unit code : Nat} {detail : List Nat}
    (hl : Adr.LOCUS_STATUS ∈ l) : GroupFrame n l d (d'.event kind unit code detail) := by
  refine h.trans ⟨?_, fun m _ => ?_, (d'.sameRegs_event kind unit code detail).mono (by simpa using hl)⟩
  · rw [Dev.event_only]
  · rw [Dev.event_only]; rfl

theorem GroupFrame.showDefect (h : GroupFrame n l d d') {k : Nat} (hl : Adr.SRV_DEFECT k ∈ l) : GroupFrame n l d (d'.showDefect k) :=
  h.trans (.of_sliceFrame (.of_regFrame ((d'.regFrame_showDefect k).mono (by simpa using hl))))

theorem GroupFrame.wp (h : GroupFrame n l d d') : d'.wp = d.wp := by rw [h.only]

end

theorem Dev.slice_issue (d : Dev) (n : Nat) : d.issue.slice n = d.slice n := by rw [Dev.issue_only]; rfl

/-! ## Births (R83) -/

/-- The births of a group change LOCUS_STATUS, and of the slice its births alone (R83). -/
theorem Dev.bear_spec (d : Dev) (n k : Nat) : GroupFrame n [Adr.LOCUS_STATUS] d (d.bear n k) ∧
    ∃ b, (d.bear n k).slice n = { d.slice n with births := b } := by
  have none_born : GroupFrame n [Adr.LOCUS_STATUS] d d ∧ ∃ b, d.slice n = { d.slice n with births := b } :=
    ⟨.refl n _ d, _, rfl⟩
  unfold Dev.bear
  split
  · exact none_born
  · refine Dev.each_induction (fun d' => GroupFrame n [Adr.LOCUS_STATUS] d d' ∧ ∃ b, d'.slice n = { d.slice n with births := b })
      _ (fun d' slot ⟨frame, b, born⟩ => ⟨(frame.issue (by simp)).onSlice _, ?_⟩) _ d none_born
    rw [Dev.slice_onSlice_self, Dev.slice_issue, born]
    exact ⟨_, rfl⟩

/-! ## The defect detector (R85, R86) -/

/-- The registers that the defect detector of a slice writes. -/
def defectRegs (n : Nat) : List Nat := [Adr.CHN_STATUS n, Adr.CHN_CNT n 5, Adr.SRV_DEFECT (n / 10), Adr.LOCUS_STATUS]

section
variable (d : Dev) (n : Nat)

theorem Dev.groupFrame_flagBack (l : List Nat) (g : Nat) (first : Int) : GroupFrame n l d (d.flagBack n g first) := by
  unfold Dev.flagBack
  exact (GroupFrame.refl n l d).onSlice _

theorem Dev.groupFrame_defectStart : GroupFrame n (defectRegs n) d (d.defectStart n) := by
  unfold Dev.defectStart
  exact (((((GroupFrame.refl n (defectRegs n) d).putBit (by simp [defectRegs, Fld.CHN_STATUS_DEFECT])).count
    (by simp [defectRegs])).showDefect (by simp [defectRegs])).event (by simp [defectRegs])).onSlice _

theorem Dev.groupFrame_defectEnd : GroupFrame n (defectRegs n) d (d.defectEnd n) := by
  unfold Dev.defectEnd
  exact ((((GroupFrame.refl n (defectRegs n) d).putBit (by simp [defectRegs, Fld.CHN_STATUS_DEFECT])).showDefect
    (by simp [defectRegs])).event (by simp [defectRegs])).onSlice _

theorem Dev.groupFrame_defectGroup (g : Nat) (inside : Bool) : GroupFrame n (defectRegs n) d (d.defectGroup n g inside) := by
  unfold Dev.defectGroup
  split
  · exact (((GroupFrame.refl n _ d).when (Dev.groupFrame_flagBack _ n _ g _)).onSlice _).when (Dev.groupFrame_defectEnd _ n)
  · exact ((GroupFrame.refl n _ d).onSlice _).when ((Dev.groupFrame_defectStart _ n).trans (Dev.groupFrame_flagBack _ n _ g _))

/-- A good group outside a defect (R85). -/
theorem Dev.defectGroup_inside (g : Nat) (h : d.bit (Fld.CHN_STATUS_DEFECT n) = false) :
    d.defectGroup n g true = d.onSlice n fun x => { x with badRun := 0 } := by
  have none_bad : ((d.onSlice n fun x => { x with badRun := 0 }).slice n).badRun = 0 := by rw [Dev.slice_onSlice_self]
  simp only [Dev.defectGroup, h, Bool.false_eq_true, if_false, if_true, none_bad]
  rfl

/-- The bad group with which a defect begins (R85). -/
theorem Dev.defectGroup_begins (g : Nat) (h : d.bit (Fld.CHN_STATUS_DEFECT n) = false)
    (hb : d.fld (Fld.CHN_DEF_CFG_DEF_ON n) ≤ (d.slice n).badRun) : ∃ first, d.defectGroup n g false =
      ((d.onSlice n fun x => { x with badRun := x.badRun + 1 }).defectStart n).flagBack n g first := by
  have bad : ((d.onSlice n fun x => { x with badRun := x.badRun + 1 }).slice n).badRun = (d.slice n).badRun + 1 := by
    rw [Dev.slice_onSlice_self]
  simp only [Dev.defectGroup, h, Bool.false_eq_true, if_false, bad, Dev.fld_onSlice, decide_eq_true (Nat.succ_le_succ hb)]
  exact ⟨_, rfl⟩

end

/-- The bits of an OR of powers of two: those of the start, and those of the list. -/
theorem testBit_foldl_or_pow {l : List Nat} {e : Nat → Nat} {m : Nat} (h : m ∈ l) (acc : Nat) :
    (l.foldl (fun acc m => acc ||| 2 ^ e m) acc).testBit (e m) = true := by
  have kept (l : List Nat) : ∀ acc : Nat, acc.testBit (e m) = true → (l.foldl (fun acc m => acc ||| 2 ^ e m) acc).testBit (e m) = true := by
    induction l with
    | nil => exact fun _ ha => ha
    | cons a l ih => exact fun acc ha => ih _ (by simp [ha])
  induction l generalizing acc with
  | nil => simp at h
  | cons a l ih =>
    rcases List.mem_cons.mp h with rfl | h
    · exact kept l _ (by simp)
    · exact ih h _

/-- A Data-mode slice in a defect shows it for its beam to the head (R22, R85). -/
theorem Dev.maskBit_showDefect (d : Dev) (n : Slice) (hm : d.sliceMode n = 1) (hd : d.bit (Fld.CHN_STATUS_DEFECT n) = true)
    (hb : d.sliceBeam n < 10) : (d.showDefect (n.val / 10)).maskBit (Fld.SRV_DEFECT_MASK (n.val / 10)) (d.sliceBeam n) = true := by
  have own : n.val ∈ (headSlices (n.val / 10)).filter fun m =>
      (d.sliceMode m == 1 || d.sliceMode m == 3) && d.bit (Fld.CHN_STATUS_DEFECT m) := by
    refine List.mem_filter.mpr ⟨List.mem_map.mpr ⟨n.val % 10, List.mem_range.mpr (by omega), by omega⟩, ?_⟩
    simp [hm, hd]
  unfold Dev.showDefect Dev.maskBit
  dsimp only
  rw [Dev.putBit, Dev.fld_put_ne _ _ _ _ (Nat.le_of_ble_eq_true rfl) (.inr (.inl (Nat.le_of_ble_eq_true rfl))),
    Dev.fld_put_self _ _ _ (Nat.le_of_ble_eq_true rfl), Nat.testBit_mod_two_pow, testBit_foldl_or_pow own]
  simp [Fld.SRV_DEFECT_MASK, hb]

/-- The beam that a slice serves depends on BEAM and on the slice (R64). -/
theorem Dev.sliceBeam_congr {d d' : Dev} {n : Nat} (hs : d'.slice n = d.slice n)
    (hr : d'.reg (Adr.CHN_CTRL n) = d.reg (Adr.CHN_CTRL n)) : d'.sliceBeam n = d.sliceBeam n := by
  unfold Dev.sliceBeam
  rw [hs, Dev.fld_of_reg_eq (f := Fld.CHN_CTRL_BEAM n) hr]

/-- Registers of a slice are no register of the head or of Locus. -/
theorem chn_notMem_head (n : Slice) : Adr.CHN_STATUS n ∉ [Adr.SRV_DEFECT (n.val / 10), Adr.LOCUS_STATUS] ∧
    Adr.CHN_CNT n 5 ∉ [Adr.SRV_DEFECT (n.val / 10), Adr.LOCUS_STATUS] := by
  have hn := n.isLt
  simp only [List.mem_cons, List.not_mem_nil, or_false, Adr.CHN_STATUS, Adr.CHN_CNT, Adr.SRV_DEFECT, Adr.LOCUS_STATUS]
  omega

/-- A defect that begins is shown, counted, and raised to the head for a Data-mode slice (R85, R22). -/
theorem Dev.defectStart_spec (d : Dev) (n : Slice) : (d.defectStart n).bit (Fld.CHN_STATUS_DEFECT n) = true ∧
    (d.defectStart n).reg (Adr.CHN_CNT n 5) = d.counted (Adr.CHN_CNT n 5) 1 ∧
    (d.sliceMode n = 1 → d.sliceBeam n < 10 →
      (d.defectStart n).maskBit (Fld.SRV_DEFECT_MASK (n.val / 10)) (d.sliceBeam n) = true) := by
  obtain ⟨status, counter⟩ := chn_notMem_head n
  have flagged : ((d.putBit (Fld.CHN_STATUS_DEFECT n) true).count (Adr.CHN_CNT n 5)).bit (Fld.CHN_STATUS_DEFECT n) = true :=
    (Dev.bit_of_reg_eq (Dev.reg_setReg_ne _ _ (chnCnt_ne_chnStatus n 5).symm)).trans (Dev.bit_putBit_self _ _ _)
  have counted : ((d.putBit (Fld.CHN_STATUS_DEFECT n) true).count (Adr.CHN_CNT n 5)).reg (Adr.CHN_CNT n 5) =
      d.counted (Adr.CHN_CNT n 5) 1 := by
    rw [Dev.count, Dev.reg_countBy, if_pos rfl, Dev.putBit, Dev.reg_put_ne _ _ _ (chnCnt_ne_chnStatus n 5)]
    rfl
  have ctrl : ((d.putBit (Fld.CHN_STATUS_DEFECT n) true).count (Adr.CHN_CNT n 5)).reg (Adr.CHN_CTRL n) = d.reg (Adr.CHN_CTRL n) := by
    refine (((SameRegs.refl d [Adr.CHN_STATUS n, Adr.CHN_CNT n 5]).putBit (by simp [Fld.CHN_STATUS_DEFECT])).count (by simp)) _ ?_
    simp only [List.mem_cons, List.not_mem_nil, or_false, Adr.CHN_CTRL, Adr.CHN_STATUS, Adr.CHN_CNT]
    omega
  have beam : ((d.putBit (Fld.CHN_STATUS_DEFECT n) true).count (Adr.CHN_CNT n 5)).sliceBeam n = d.sliceBeam n :=
    Dev.sliceBeam_congr rfl ctrl
  have mode : ((d.putBit (Fld.CHN_STATUS_DEFECT n) true).count (Adr.CHN_CNT n 5)).sliceMode n = d.sliceMode n :=
    Dev.fld_of_reg_eq ctrl
  unfold Dev.defectStart
  dsimp only
  -- From here on, what matters of the block with the defect shown and counted is what these facts say.
  generalize (d.putBit (Fld.CHN_STATUS_DEFECT n) true).count (Adr.CHN_CNT n 5) = d1 at *
  have event := ((d1.showDefect (n.val / 10)).sameRegs_event .defectStart n 0 [(d1.showDefect (n.val / 10)).sliceBeam n])
  have same : SameRegs d1 ((d1.showDefect (n.val / 10)).event .defectStart n 0 [(d1.showDefect (n.val / 10)).sliceBeam n])
      [Adr.SRV_DEFECT (n.val / 10), Adr.LOCUS_STATUS] :=
    ((d1.regFrame_showDefect (n.val / 10)).2.mono (by simp)).trans (event.mono (by simp))
  refine ⟨(same.bit status).trans flagged, (same _ counter).trans counted, fun hm hb => ?_⟩
  have mask := Dev.maskBit_showDefect d1 n (mode.trans hm) flagged (beam.symm ▸ hb)
  rw [beam] at mask
  refine Eq.trans ?_ mask
  unfold Dev.maskBit
  rw [Dev.fld_onSlice, event.fld (by simp [Fld.SRV_DEFECT_MASK, Adr.SRV_DEFECT, Adr.LOCUS_STATUS]; omega)]

/-! ## The timing loop and the adaptation (R66 to R72, R77) -/

/-- What a slice keeps of a run through the bits of a group: taps, line, detector and loop, and f within its range (R69 to R73). -/
def Dev.keepLoop (d : Dev) (n : Nat) (r : GroupRun) : Dev :=
  ((d.each (List.zip (List.range 16) r.taps) fun d p => d.put (Fld.CHN_FIR_TAP_COEF n p.1) (codeOf 10 p.2)).onSlice n fun s =>
    { s with phase := r.phase % 2 ^ 20, line := r.line, vit := r.vit, fastLeft := s.fastLeft - r.fast }).setF n r.f

/-- What a slice keeps of a run, with FREQ_LIMIT where f met its limit (R77). -/
def Dev.keepRun (d : Dev) (n : Nat) (r : GroupRun) : Dev := (d.keepLoop n r).when r.limit fun d => d.freqLimit n

theorem Dev.runGroup_keeps (d : Dev) (n k : Nat) (adc : List Int) (hold : Bool) : ∃ r, d.runGroup n k adc hold = d.keepRun n r :=
  ⟨_, rfl⟩

/-- The registers of a slice's taps. -/
def tapRegs (n : Nat) : List Nat := (List.range 16).map (Adr.CHN_FIR_TAP n)

theorem mem_tapRegs {n k : Nat} (h : k < 16) : Adr.CHN_FIR_TAP n k ∈ tapRegs n := List.mem_map_of_mem (List.mem_range.mpr h)

/-- An address outside the taps of a slice. -/
theorem notMem_tapRegs {n a : Nat} (h : a < 0x20080 + 0x1000 * n ∨ 0x200c0 + 0x1000 * n ≤ a) : a ∉ tapRegs n := by
  intro hm
  obtain ⟨k, hk, rfl⟩ := List.mem_map.mp hm
  have := List.mem_range.mp hk
  unfold Adr.CHN_FIR_TAP at h
  omega

section
variable (d : Dev) (n : Nat)

theorem Dev.regFrame_keepTaps (taps : List Int) : RegFrame d (d.each (List.zip (List.range 16) taps) fun d p =>
    d.put (Fld.CHN_FIR_TAP_COEF n p.1) (codeOf 10 p.2)) (tapRegs n) :=
  RegFrame.each _ (fun e _ hp => (RegFrame.refl e _).put (mem_tapRegs (List.mem_range.mp (List.of_mem_zip hp).1))) d

theorem Dev.sliceFrame_freqLimit : SliceFrame n [Adr.CHN_STATUS n] d (d.freqLimit n) :=
  (((SliceFrame.refl n _ d).putBit (by simp [Fld.CHN_STATUS_FREQ_LIMIT])).trans (Dev.sliceFrame_loseLock _ n)).onSlice _

theorem Dev.sliceFrame_keepLoop (r : GroupRun) : SliceFrame n (Adr.CHN_MON n :: tapRegs n) d (d.keepLoop n r) := by
  have taps := SliceFrame.of_regFrame (n := n) ((d.regFrame_keepTaps n r.taps).mono (List.subset_cons_self (Adr.CHN_MON n) _))
  exact (taps.onSlice _).trans ((Dev.sliceFrame_setF _ n r.f).mono (by simp))

theorem Dev.sliceFrame_keepRun (r : GroupRun) :
    SliceFrame n (Adr.CHN_STATUS n :: Adr.CHN_MON n :: tapRegs n) d (d.keepRun n r) :=
  ((d.sliceFrame_keepLoop n r).mono (List.subset_cons_self ..)).when ((Dev.sliceFrame_freqLimit _ n).mono (by simp))

theorem Dev.f_freqLimit : ((d.freqLimit n).slice n).f = (d.slice n).f := by
  unfold Dev.freqLimit Dev.loseLock
  rw [Dev.slice_onSlice_self, Dev.slice_onSlice_self]
  rfl

theorem natAbs_clampInt_le (f : Int) : (clampInt (-32768) 32768 f).natAbs ≤ 32768 := by
  unfold clampInt
  split
  · decide
  · split
    · decide
    · omega

theorem Dev.f_setF (f : Int) : ((d.setF n f).slice n).f.natAbs ≤ 32768 := by
  have set : (d.setF n f).slice n = (d.onSlice n fun s => { s with f := clampInt (-32768) 32768 f }).slice n := rfl
  rw [set, Dev.slice_onSlice_self]
  exact natAbs_clampInt_le f

/-- f stays within ±2^-5 (R77). -/
theorem Dev.f_keepRun (r : GroupRun) : ((d.keepRun n r).slice n).f.natAbs ≤ 32768 := by
  unfold Dev.keepRun
  cases r.limit with
  | true => rw [Dev.when_true, Dev.f_freqLimit]; exact Dev.f_setF _ n r.f
  | false => exact Dev.f_setF _ n r.f

/-- A run leaves the gain. -/
theorem Dev.gain_keepRun (r : GroupRun) : (d.keepRun n r).fld (Fld.CHN_MON_GAIN n) = d.fld (Fld.CHN_MON_GAIN n) := by
  have limit : (d.keepRun n r).fld (Fld.CHN_MON_GAIN n) = (d.keepLoop n r).fld (Fld.CHN_MON_GAIN n) :=
    ((SliceFrame.refl n [Adr.CHN_STATUS n] (d.keepLoop n r)).when (f := fun d => d.freqLimit n)
      (Dev.sliceFrame_freqLimit _ n)).regs.fld (by simp [Fld.CHN_MON_GAIN, Adr.CHN_MON, Adr.CHN_STATUS])
  have loop : (d.keepLoop n r).fld (Fld.CHN_MON_GAIN n) = (d.each (List.zip (List.range 16) r.taps) fun d p =>
      d.put (Fld.CHN_FIR_TAP_COEF n p.1) (codeOf 10 p.2)).fld (Fld.CHN_MON_GAIN n) :=
    Dev.fld_put_ne _ (Fld.CHN_MON_F n) _ _ (Nat.le_of_ble_eq_true rfl) (.inr (.inl (Nat.le_of_ble_eq_true rfl)))
  have taps := (d.regFrame_keepTaps n r.taps).2.fld (f := Fld.CHN_MON_GAIN n)
    (notMem_tapRegs (by simp only [Fld.CHN_MON_GAIN, Adr.CHN_MON]; omega))
  exact limit.trans (loop.trans taps)

/-- A run leaves DEFECT. -/
theorem Dev.defect_keepRun (r : GroupRun) : (d.keepRun n r).bit (Fld.CHN_STATUS_DEFECT n) = d.bit (Fld.CHN_STATUS_DEFECT n) := by
  have limit (e : Dev) : (e.freqLimit n).bit (Fld.CHN_STATUS_DEFECT n) = e.bit (Fld.CHN_STATUS_DEFECT n) :=
    (Dev.bit_putBit_ne _ (Fld.CHN_STATUS_LOCKED n) _ _ (.inr (.inr (Nat.le_of_ble_eq_true rfl)))).trans
      (Dev.bit_putBit_ne _ (Fld.CHN_STATUS_FREQ_LIMIT n) _ _ (.inr (.inl (Nat.le_of_ble_eq_true rfl))))
  have apart : Adr.CHN_STATUS n ∉ Adr.CHN_MON n :: tapRegs n := by
    have mon : Adr.CHN_STATUS n ≠ Adr.CHN_MON n := by unfold Adr.CHN_STATUS Adr.CHN_MON; omega
    simp only [List.mem_cons, mon, false_or]
    exact notMem_tapRegs (by unfold Adr.CHN_STATUS; omega)
  have loop := (d.sliceFrame_keepLoop n r).regs.bit (f := Fld.CHN_STATUS_DEFECT n) apart
  unfold Dev.keepRun
  cases r.limit with
  | true => exact (limit _).trans loop
  | false => exact loop

end

/-! ## The end of a group (R66, R85) -/

/-- A group inside both limits of the envelope (R85). -/
def Dev.envelopeInside (d : Dev) (n env : Nat) : Bool :=
  let ref := if (d.slice n).envRef = 0 then env * 8192 else (d.slice n).envRef
  d.fld (Fld.CHN_DEF_CFG_ENV_LO n) * ref ≤ 32 * 8192 * env && 32 * 8192 * env ≤ d.fld (Fld.CHN_DEF_CFG_ENV_HI n) * ref

/-- The block behind the births and the defect detector of a group. -/
def Dev.judgeGroup (d : Dev) (n env : Nat) : Dev :=
  (d.bear n (d.slice n).groupNow).defectGroup n (d.slice n).groupNow (d.envelopeInside n env)

/-- The AGC and the adaptation are frozen in a group: under an erasure flag, in a blank one, in a defect, and while a Data-mode slice's
head writes (R67, R87, R137); `was` says that the defect was active as the group began. -/
def Dev.groupFrozen (d : Dev) (n env : Nat) (was : Bool) (codes : List Int) : Bool :=
  d.groupFlagged n was || blankCodes (d.fld (Fld.CHN_DEF_CFG2_BLANK_THR n)) env (d.fld (Fld.CHN_MON_GAIN n)) codes || was ||
    d.bit (Fld.CHN_STATUS_DEFECT n) || d.heldByWrite n

/-- The AGC takes its step, unless it is held (R66). -/
def Dev.agcGroup (d : Dev) (n gain : Nat) (hold : Bool) (codes : List Int) : Dev :=
  d.when (!hold) fun d =>
    d.put (Fld.CHN_MON_GAIN n) (agcStep gain (d.fld (Fld.CHN_AGC_CFG_TARGET n)) (d.fld (Fld.CHN_AGC_CFG_AGC_K n)) codes)

/-- A slice's own note of the group k that has ended: the envelope's average, its flag and its blank, and the counts that go on. -/
def SliceSt.groupNoted (envRef k : Nat) (flagged blank was : Bool) (x : SliceSt) : SliceSt :=
  { x with
    envRef := envRef
    erased := withGroup x.erased k flagged
    blanks := withGroup x.blanks k blank
    groupNow := k + 1
    postLeft := if was then x.postLeft else x.postLeft - 1
    rejoining := x.rejoining.map (· - 1) }

/-- The end of a group of a slice that works: births and the defect detector, the run through the bits, the AGC, and the slice's own
note of the group. -/
theorem Dev.groupEnd_of_live {d : Dev} {n : Nat} (g : GroupSamples) (h : d.sliceMode n ≠ 0) :
    let codes := g.adc.toList.map BitVec.toInt
    let d1 := d.judgeGroup n g.envelope
    let was := d.bit (Fld.CHN_STATUS_DEFECT n)
    let frozen := d1.groupFrozen n g.envelope was codes
    let d2 := d1.runGroup n (d.slice n).groupNow codes frozen
    ∃ envRef flagged blank, d.groupEnd n g =
      (d2.agcGroup n (d1.fld (Fld.CHN_MON_GAIN n)) (frozen || d2.bit (Fld.CHN_AGC_CFG_AGC_HOLD n) || (d.slice n).coldRun)
        codes).onSlice n (SliceSt.groupNoted envRef (d.slice n).groupNow flagged blank was) := by
  rw [Dev.groupEnd, if_neg h]
  exact ⟨_, _, _, rfl⟩

/-- The AGC's step keeps the gain within its eight bits. -/
theorem agcStep_lt (gain target k : Nat) (codes : List Int) : agcStep gain target k codes < 2 ^ 8 := by
  unfold agcStep clampInt
  split
  · decide
  · split
    · decide
    · omega

section
variable (d : Dev) (n : Nat)

theorem Dev.regFrame_agcGroup (gain : Nat) (hold : Bool) (codes : List Int) :
    RegFrame d (d.agcGroup n gain hold codes) [Adr.CHN_MON n] :=
  (RegFrame.refl d _).when ((RegFrame.refl d _).put (by simp [Fld.CHN_MON_GAIN]))

/-- The gain stands where the AGC is held, and takes its step where not. -/
theorem Dev.gain_agcGroup (gain : Nat) (hold : Bool) (codes : List Int) : (d.agcGroup n gain hold codes).fld (Fld.CHN_MON_GAIN n) =
    if hold then d.fld (Fld.CHN_MON_GAIN n)
    else agcStep gain (d.fld (Fld.CHN_AGC_CFG_TARGET n)) (d.fld (Fld.CHN_AGC_CFG_AGC_K n)) codes := by
  cases hold with
  | true => rfl
  | false => exact (Dev.fld_put_self _ _ _ (Nat.le_of_ble_eq_true rfl)).trans (Nat.mod_eq_of_lt (agcStep_lt ..))

/-- The registers that the run through a group's bits and the AGC write. -/
def runRegs (n : Nat) : List Nat := Adr.CHN_STATUS n :: Adr.CHN_MON n :: tapRegs n

/-- The registers that the end of a group writes. -/
def groupRegs (n : Nat) : List Nat := runRegs n ++ defectRegs n

theorem Dev.groupFrame_judgeGroup (env : Nat) : GroupFrame n (defectRegs n) d (d.judgeGroup n env) :=
  ((d.bear_spec n _).1.mono (by simp [defectRegs])).trans (Dev.groupFrame_defectGroup _ n _ _)

theorem Dev.sliceFrame_runGroup (k : Nat) (codes : List Int) (hold : Bool) :
    SliceFrame n (runRegs n) d (d.runGroup n k codes hold) := by
  obtain ⟨r, eq⟩ := d.runGroup_keeps n k codes hold
  rw [eq]
  exact d.sliceFrame_keepRun n r

end

/-- Registers of a slice are no register of Locus. -/
theorem chn_ne_locusStatus (n : Slice) : Adr.CHN_STATUS n ∉ [Adr.LOCUS_STATUS] ∧ Adr.CHN_DEF_CFG2 n ∉ [Adr.LOCUS_STATUS] ∧
    Adr.CHN_MON n ∉ [Adr.LOCUS_STATUS] ∧ Adr.CHN_DEF_CFG n ∉ [Adr.LOCUS_STATUS] := by
  have hn := n.isLt
  simp only [List.mem_singleton, Adr.CHN_STATUS, Adr.CHN_DEF_CFG2, Adr.CHN_MON, Adr.CHN_DEF_CFG, Adr.LOCUS_STATUS]
  omega

/-- Outside a defect a group is flagged in a rejoin or before one, after a second miss, and past a defect (R76, R80, R86). -/
theorem Dev.groupFlagged_of_calm (d : Dev) (n : Nat) (h : d.bit (Fld.CHN_STATUS_DEFECT n) = false) : d.groupFlagged n false =
    ((d.slice n).rejoins || (d.slice n).rejoinArmed || (d.slice n).rejoinNext || (d.slice n).missErase ||
      decide (0 < (d.slice n).postLeft)) := by
  simp [Dev.groupFlagged, h]

section
variable (d : Dev) (n : Slice) (env : Nat) (calm : d.bit (Fld.CHN_STATUS_DEFECT n) = false)
include calm

/-- A good group outside a defect: what the detector leaves. -/
theorem Dev.judgeGroup_of_inside (inside : d.envelopeInside n env = true) :
    d.judgeGroup n env = (d.bear n (d.slice n).groupNow).onSlice n fun x => { x with badRun := 0 } := by
  have born := (d.bear_spec n (d.slice n).groupNow).1.regs.bit (f := Fld.CHN_STATUS_DEFECT n) (chn_ne_locusStatus n).1
  rw [Dev.judgeGroup, inside]
  exact Dev.defectGroup_inside _ n _ (born.trans calm)

/-- The group with which a defect begins: it shows, is counted, and is raised to the head for a Data-mode slice (R85, R22). -/
theorem Dev.judgeGroup_of_outside (outside : d.envelopeInside n env = false)
    (bad : d.fld (Fld.CHN_DEF_CFG_DEF_ON n) ≤ (d.slice n).badRun) :
    (d.judgeGroup n env).bit (Fld.CHN_STATUS_DEFECT n) = true ∧
    (d.judgeGroup n env).reg (Adr.CHN_CNT n 5) = d.counted (Adr.CHN_CNT n 5) 1 ∧
    (d.sliceMode n = 1 → d.sliceBeam n < 10 →
      (d.judgeGroup n env).maskBit (Fld.SRV_DEFECT_MASK (n.val / 10)) (d.sliceBeam n) = true) := by
  obtain ⟨frame, b, births⟩ := d.bear_spec n (d.slice n).groupNow
  obtain ⟨status, -, -, cfg⟩ := chn_ne_locusStatus n
  have bad' : (d.bear n (d.slice n).groupNow).fld (Fld.CHN_DEF_CFG_DEF_ON n) ≤ ((d.bear n (d.slice n).groupNow).slice n).badRun := by
    rw [frame.regs.fld (f := Fld.CHN_DEF_CFG_DEF_ON n) cfg, births]
    exact bad
  obtain ⟨first, eq⟩ := Dev.defectGroup_begins (d.bear n (d.slice n).groupNow) n (d.slice n).groupNow
    ((frame.regs.bit status).trans calm) bad'
  rw [Dev.judgeGroup, outside, eq]
  have ctrl : (d.bear n (d.slice n).groupNow).reg (Adr.CHN_CTRL n) = d.reg (Adr.CHN_CTRL n) := by
    refine frame.regs _ ?_
    simp only [List.mem_singleton, Adr.CHN_CTRL, Adr.LOCUS_STATUS]
    omega
  have counter : (d.bear n (d.slice n).groupNow).counted (Adr.CHN_CNT n 5) 1 = d.counted (Adr.CHN_CNT n 5) 1 := by
    have stands := frame.regs (Adr.CHN_CNT n 5) (by simp only [List.mem_singleton, Adr.CHN_CNT, Adr.LOCUS_STATUS]; omega)
    rw [Dev.counted, Dev.counted, stands]
  have beam : ((d.bear n (d.slice n).groupNow).onSlice n fun x => { x with badRun := x.badRun + 1 }).sliceBeam n = d.sliceBeam n := by
    unfold Dev.sliceBeam
    rw [Dev.slice_onSlice_self, births, Dev.fld_onSlice, Dev.fld_of_reg_eq (f := Fld.CHN_CTRL_BEAM n) ctrl]
  obtain ⟨shown, counted, raised⟩ :=
    Dev.defectStart_spec ((d.bear n (d.slice n).groupNow).onSlice n fun x => { x with badRun := x.badRun + 1 }) n
  rw [beam] at raised
  refine ⟨shown, counted.trans counter, fun hm hb => raised ((Dev.fld_of_reg_eq ctrl).trans hm) hb⟩

/-- A good group of a slice without a defect, a rejoin, a miss or a blank, whose head does not write, is not frozen (R67). -/
theorem Dev.groupFrozen_judgeGroup_of_clean (codes : List Int) (inside : d.envelopeInside n env = true)
    (rejoins : (d.slice n).rejoins = false) (armed : (d.slice n).rejoinArmed = false) (next : (d.slice n).rejoinNext = false)
    (miss : (d.slice n).missErase = false) (post : (d.slice n).postLeft = 0) (free : d.writing (n.val / 10) = false)
    (full : blankCodes (d.fld (Fld.CHN_DEF_CFG2_BLANK_THR n)) env (d.fld (Fld.CHN_MON_GAIN n)) codes = false) :
    (d.judgeGroup n env).groupFrozen n env false codes = false ∧
      (d.judgeGroup n env).bit (Fld.CHN_STATUS_DEFECT n) = false := by
  obtain ⟨frame, b, births⟩ := d.bear_spec n (d.slice n).groupNow
  obtain ⟨status, thr, mon, -⟩ := chn_ne_locusStatus n
  rw [Dev.judgeGroup_of_inside d n env calm inside]
  generalize d.bear n (d.slice n).groupNow = e at frame births
  have calm' : e.bit (Fld.CHN_STATUS_DEFECT n) = false := (frame.regs.bit status).trans calm
  have free' : e.writing (n.val / 10) = false := by
    rw [← free]; unfold Dev.writing Dev.wps; rw [frame.wp]
  have slice : (e.onSlice n fun x => { x with badRun := 0 }).slice n = { d.slice n with births := b, badRun := 0 } := by
    rw [Dev.slice_onSlice_self, births]
  have flagged : (e.onSlice n fun x => { x with badRun := 0 }).groupFlagged n false = false := by
    rw [Dev.groupFlagged_of_calm _ n (by rw [Dev.bit_onSlice]; exact calm'), slice]
    change ((d.slice n).rejoins || (d.slice n).rejoinArmed || (d.slice n).rejoinNext || (d.slice n).missErase ||
      decide (0 < (d.slice n).postLeft)) = false
    simp [rejoins, armed, next, miss, post]
  have full' : blankCodes (e.fld (Fld.CHN_DEF_CFG2_BLANK_THR n)) env (e.fld (Fld.CHN_MON_GAIN n)) codes = false := by
    rw [frame.regs.fld (f := Fld.CHN_DEF_CFG2_BLANK_THR n) thr, frame.regs.fld (f := Fld.CHN_MON_GAIN n) mon]
    exact full
  have held : e.heldByWrite n = false := by simp [Dev.heldByWrite, free']
  refine ⟨?_, calm'⟩
  simp only [Dev.groupFrozen, flagged, Dev.fld_onSlice, full', Dev.bit_onSlice, calm', Bool.false_or]
  exact held

end

/-! ## The obligation -/

theorem Dev.envelopeInside_iff (d : Dev) (n env : Nat) :
    let ref := if (d.slice n).envRef = 0 then env * 8192 else (d.slice n).envRef
    d.envelopeInside n env = true ↔ d.fld (Fld.CHN_DEF_CFG_ENV_LO n) * ref ≤ 32 * 8192 * env ∧
      32 * 8192 * env ≤ d.fld (Fld.CHN_DEF_CFG_ENV_HI n) * ref := by
  simp only [Dev.envelopeInside, Bool.and_eq_true, decide_eq_true_eq]

/-- Registers that the end of a group does not write. -/
theorem chn_notMem_groupRegs (n : Slice) : Adr.CHN_AGC_CFG n ∉ groupRegs n ∧ Adr.CHN_MON n ∉ defectRegs n := by
  have hn := n.isLt
  constructor
  · have taps : Adr.CHN_AGC_CFG n ∉ tapRegs n := notMem_tapRegs (by unfold Adr.CHN_AGC_CFG; omega)
    simp only [groupRegs, runRegs, defectRegs, List.mem_append, List.mem_cons, List.not_mem_nil, or_false, taps]
    simp only [Adr.CHN_AGC_CFG, Adr.CHN_MON, Adr.CHN_STATUS, Adr.CHN_CNT, Adr.SRV_DEFECT, Adr.LOCUS_STATUS]
    omega
  · simp only [defectRegs, List.mem_cons, List.not_mem_nil, or_false, Adr.CHN_MON, Adr.CHN_STATUS, Adr.CHN_CNT, Adr.SRV_DEFECT,
      Adr.LOCUS_STATUS]
    omega

/-- What stands of the defect detector's work at the end of the group: the counter of defects and the head's mask (R85). -/
theorem chnCnt_notMem_runRegs (n : Slice) : Adr.CHN_CNT n 5 ∉ runRegs n ∧
    Adr.SRV_DEFECT (n.val / 10) ∉ runRegs n := by
  have hn := n.isLt
  have counter : Adr.CHN_CNT n 5 ∉ tapRegs n := notMem_tapRegs (by unfold Adr.CHN_CNT; omega)
  have mask : Adr.SRV_DEFECT (n.val / 10) ∉ tapRegs n := notMem_tapRegs (by unfold Adr.SRV_DEFECT; omega)
  simp only [runRegs, List.mem_cons, counter, mask, or_false]
  simp only [Adr.CHN_CNT, Adr.CHN_STATUS, Adr.CHN_MON, Adr.SRV_DEFECT]
  omega

/-- The end of a group: the frame of what it changes, f within its range, and the gain's step where nothing holds it (R66, R77). -/
theorem Dev.groupEnd_spec (d : Dev) (n : Slice) (g : GroupSamples) (h : d.sliceMode n ≠ 0) :
    let codes := g.adc.toList.map BitVec.toInt
    let d1 := d.judgeGroup n g.envelope
    let frozen := d1.groupFrozen n g.envelope (d.bit (Fld.CHN_STATUS_DEFECT n)) codes
    let gain := d.fld (Fld.CHN_MON_GAIN n)
    let d' := d.groupEnd n g
    (d'.slice n).f.natAbs ≤ 32768 ∧ (d'.slice n).groupNow = (d.slice n).groupNow + 1 ∧
    d'.fld (Fld.CHN_MON_GAIN n) = (if frozen || d.bit (Fld.CHN_AGC_CFG_AGC_HOLD n) || (d.slice n).coldRun then gain
      else agcStep gain (d.fld (Fld.CHN_AGC_CFG_TARGET n)) (d.fld (Fld.CHN_AGC_CFG_AGC_K n)) codes) ∧
    d'.bit (Fld.CHN_STATUS_DEFECT n) = d1.bit (Fld.CHN_STATUS_DEFECT n) ∧
    SameRegs d1 d' (runRegs n) ∧ GroupFrame n (groupRegs n) d d' := by
  intro codes d1 frozen gain d'
  obtain ⟨cfg, mon⟩ := chn_notMem_groupRegs n
  obtain ⟨envRef, flagged, blank, eq⟩ : ∃ _ _ _, d' = _ := Dev.groupEnd_of_live g h
  obtain ⟨r, ran⟩ := d1.runGroup_keeps n (d.slice n).groupNow codes frozen
  -- What stands behind the defect detector, behind the run through the bits, and behind the AGC.
  have judged : GroupFrame n (defectRegs n) d d1 := d.groupFrame_judgeGroup n g.envelope
  have run : SliceFrame n (runRegs n) d1 _ := d1.sliceFrame_runGroup n (d.slice n).groupNow codes frozen
  have both := (judged.mono (List.subset_append_right (runRegs n) _)).trans
    (.of_sliceFrame (run.mono (List.subset_append_left _ (defectRegs n))))
  have gain1 : d1.fld (Fld.CHN_MON_GAIN n) = gain := judged.regs.fld mon
  have gain2 := d1.gain_keepRun n r
  have f2 := d1.f_keepRun n r
  have defect2 := d1.defect_keepRun n r
  rw [← ran] at gain2 f2 defect2
  generalize d1.runGroup n (d.slice n).groupNow codes frozen = d2 at *
  rw [eq, gain1]
  have agc := d2.regFrame_agcGroup n gain (frozen || d2.bit (Fld.CHN_AGC_CFG_AGC_HOLD n) || (d.slice n).coldRun) codes
  have step := d2.gain_agcGroup n gain (frozen || d2.bit (Fld.CHN_AGC_CFG_AGC_HOLD n) || (d.slice n).coldRun) codes
  rw [both.regs.fld (f := Fld.CHN_AGC_CFG_TARGET n) cfg, both.regs.fld (f := Fld.CHN_AGC_CFG_AGC_K n) cfg, gain2, gain1] at step
  rw [both.regs.bit (f := Fld.CHN_AGC_CFG_AGC_HOLD n) cfg] at agc step ⊢
  refine ⟨?f, ?groupNow, step, ?defect, ?same, ?frame⟩
  case f => rw [Dev.slice_onSlice_self, agc.slice]; exact f2
  case groupNow => rw [Dev.slice_onSlice_self]; rfl
  case defect =>
    refine (agc.2.bit ?_).trans defect2
    simp [Fld.CHN_STATUS_DEFECT, Adr.CHN_STATUS, Adr.CHN_MON]
  case same => exact run.regs.trans (agc.2.mono (by simp [runRegs]))
  case frame => exact (both.trans (.of_sliceFrame (.of_regFrame (agc.mono (by simp [runRegs]))))).onSlice _

/-- The end of a group, clause by clause (R66, R77, R85). -/
theorem completes_sliceGroupEnd (s : State) (n : Slice) (g : GroupSamples) (hh : s.dev.hasHead (headOfSlice n) = true)
    (live : s.dev.sliceMode n ≠ 0) :
    let sl := s.dev.slice n
    let ref := if sl.envRef = 0 then g.envelope * 8192 else sl.envRef
    let inside := s.dev.fld (Fld.CHN_DEF_CFG_ENV_LO n) * ref ≤ 32 * 8192 * g.envelope ∧
      32 * 8192 * g.envelope ≤ s.dev.fld (Fld.CHN_DEF_CFG_ENV_HI n) * ref
    let gain := s.dev.fld (Fld.CHN_MON_GAIN n)
    let codes := g.adc.toList.map BitVec.toInt
    Completes (.sliceGroupEnd n g) s fun d =>
      (d.slice n).f.natAbs ≤ 32768 ∧ (d.slice n).groupNow = sl.groupNow + 1 ∧
      (s.dev.bit (Fld.CHN_AGC_CFG_AGC_HOLD n) = true → d.fld (Fld.CHN_MON_GAIN n) = gain) ∧
      (inside → s.dev.bit (Fld.CHN_STATUS_DEFECT n) = false → sl.rejoins = false → sl.rejoinArmed = false → sl.rejoinNext = false →
        sl.missErase = false →
        sl.postLeft = 0 → sl.coldRun = false → s.dev.writing (n.val / 10) = false →
        blankCodes (s.dev.fld (Fld.CHN_DEF_CFG2_BLANK_THR n)) g.envelope gain codes = false →
        s.dev.bit (Fld.CHN_AGC_CFG_AGC_HOLD n) = false →
        d.fld (Fld.CHN_MON_GAIN n) = agcStep gain (s.dev.fld (Fld.CHN_AGC_CFG_TARGET n)) (s.dev.fld (Fld.CHN_AGC_CFG_AGC_K n)) codes ∧
        d.bit (Fld.CHN_STATUS_DEFECT n) = false) ∧
      (¬inside → s.dev.bit (Fld.CHN_STATUS_DEFECT n) = false → s.dev.fld (Fld.CHN_DEF_CFG_DEF_ON n) ≤ sl.badRun →
        d.bit (Fld.CHN_STATUS_DEFECT n) = true ∧ d.reg (Adr.CHN_CNT n 5) = s.dev.counted (Adr.CHN_CNT n 5) 1 ∧
        d.fld (Fld.CHN_MON_GAIN n) = gain ∧
        (s.dev.sliceMode n = 1 → s.dev.sliceBeam n < 10 →
          d.maskBit (Fld.SRV_DEFECT_MASK (n.val / 10)) (s.dev.sliceBeam n) = true)) ∧
      (∀ m, m ≠ n.val → d.slice m = s.dev.slice m) ∧
      d = { s.dev with regs := d.regs, slices := d.slices, log := d.log, locus := d.locus } := by
  intro sl ref inside gain codes
  obtain ⟨f, groupNow, step, defect, same, frame⟩ := s.dev.groupEnd_spec n g live
  obtain ⟨counter, mask⟩ := chnCnt_notMem_runRegs n
  have within : s.dev.envelopeInside n g.envelope = true ↔ inside := s.dev.envelopeInside_iff n g.envelope
  refine Completes.of_onSlice (f := fun d => d.groupEnd n g) rfl hh ⟨f, groupNow, ?held, ?clean, ?bad, frame.others, frame.only⟩
  case held => exact fun hold => by rw [step, hold]; simp [gain]
  case clean =>
    intro hi calm rejoins armed next miss post cold free full hold
    obtain ⟨thawed, none⟩ := s.dev.groupFrozen_judgeGroup_of_clean n g.envelope calm codes (within.mpr hi) rejoins armed next miss
      post free full
    refine ⟨?_, defect.trans none⟩
    rw [step, calm, thawed, hold, cold]
    rfl
  case bad =>
    intro ho calm run
    obtain ⟨shown, counted, raised⟩ := s.dev.judgeGroup_of_outside n g.envelope calm
      (Bool.eq_false_iff.mpr fun h => ho (within.mp h)) run
    refine ⟨defect.trans shown, (same _ counter).trans counted, ?_, fun hm hb => ?_⟩
    · rw [step, Dev.groupFrozen, shown]
      simp [gain]
    · rw [← raised hm hb, Dev.maskBit, Dev.maskBit, same.fld (f := Fld.SRV_DEFECT_MASK (n.val / 10)) mask]

/-- A slice in Off takes no notice of a group. -/
theorem exec_sliceGroupEnd_of_off (s : State) (n : Slice) (g : GroupSamples) (h : s.dev.sliceMode n = 0) :
    exec (.sliceGroupEnd n g) s = .next s :=
  State.onSlice_of_eq_self (f := fun d => d.groupEnd n g) (if_pos h)

/-- Settles O26: a slice in Off, and one that works. -/
theorem groupEndRunsAgcAndDefects : Obligations.GroupEndRunsAgcAndDefects := fun s n g hh =>
  ⟨exec_sliceGroupEnd_of_off s n g, completes_sliceGroupEnd s n g hh⟩

end Sys2Proof.Machine

/-! PROOFS. Group stores and Lattice passes (O31): what the work on groups and jobs changes, how fragments fill a group, when it is
complete, and what a pass leaves. -/

namespace Sys2Proof.Machine

/-! ## Changes of registers alone -/

/-- d' differs from d in its registers alone. -/
def RegsOnly (d d' : Dev) : Prop := d' = { d with regs := d'.regs }

section
variable {d d' : Dev}

theorem RegsOnly.refl (d : Dev) : RegsOnly d d := rfl

theorem RegsOnly.trans {d'' : Dev} (h : RegsOnly d d') (h' : RegsOnly d' d'') : RegsOnly d d'' := by
  unfold RegsOnly at *
  rw [h] at h'
  exact h'

theorem RegsOnly.setReg (h : RegsOnly d d') (a : Nat) (v : Word) : RegsOnly d (d'.setReg a v) := h.trans rfl

theorem RegsOnly.put (h : RegsOnly d d') (f : Field) (v : Nat) : RegsOnly d (d'.put f v) := h.trans rfl

theorem RegsOnly.putBit (h : RegsOnly d d') (f : Field) (b : Bool) : RegsOnly d (d'.putBit f b) := h.trans rfl

theorem RegsOnly.count (h : RegsOnly d d') (a : Nat) : RegsOnly d (d'.count a) := h.trans rfl

/-- A change made where a condition holds. -/
theorem RegsOnly.when (h : RegsOnly d d') {c : Bool} {f : Dev → Dev} (hf : RegsOnly d' (f d')) : RegsOnly d (d'.when c f) := by
  cases c with
  | true => exact h.trans hf
  | false => exact h

/-- A change made for every element of a list. -/
theorem RegsOnly.each {α : Type} {f : Dev → α → Dev} (xs : List α) (hf : ∀ n x, RegsOnly n (f n x)) : RegsOnly d (d.each xs f) :=
  Dev.each_induction (RegsOnly d) f (fun n x hn => hn.trans (hf n x)) xs d rfl

theorem RegsOnly.det (h : RegsOnly d d') : d'.det = d.det := by rw [h]

theorem RegsOnly.dh (h : RegsOnly d d') (x : Nat) : d'.dh x = d.dh x := by rw [Dev.dh, h.det]; rfl

end

section
variable (d : Dev)

theorem Dev.regsOnly_showLat (h : Nat) : RegsOnly d (d.showLat h) := by
  unfold Dev.showLat
  refine RegsOnly.each _ fun n u => ?_
  split
  · exact ((RegsOnly.refl n).put _ _).putBit _ _
  · exact .refl n

theorem Dev.regsOnly_showQueue (h : Nat) : RegsOnly d (d.showQueue h) := ((RegsOnly.refl d).put _ _).putBit _ _

theorem Dev.regsOnly_showStripes : RegsOnly d d.showStripes := by
  unfold Dev.showStripes
  exact RegsOnly.each _ fun n e => ((RegsOnly.refl n).put _ _).putBit _ _

theorem Dev.regsOnly_showTaps (u : Nat) : RegsOnly d (d.showTaps u) := by
  unfold Dev.showTaps
  exact RegsOnly.each _ fun n p => (((RegsOnly.refl n).setReg _ _).setReg _ _).put _ _

theorem Dev.regsOnly_freeDecoder (u : Option Nat) : RegsOnly d (d.freeDecoder u) := by
  cases u with
  | none => exact .refl d
  | some n => exact (((RegsOnly.refl d).putBit _ _).putBit _ _).put _ _

theorem Dev.regsOnly_showSweeps (h : Nat) : RegsOnly d (d.showSweeps h) := by
  unfold Dev.showSweeps
  refine RegsOnly.each _ fun n j => ?_
  split
  · exact (RegsOnly.refl n).putBit _ _
  · exact .refl n

theorem Dev.regsOnly_latFlag (h : Nat) (f : Nat → Field) : RegsOnly d (d.latFlag h f) := by
  unfold Dev.latFlag
  split
  · exact (RegsOnly.refl d).putBit _ _
  · exact .refl d

end

/-! ## What the work on groups and jobs changes -/

/-- d' differs from d in what the work on groups, frame jobs and stripe jobs changes, and the log has grown in front alone: slices,
heads, write paths, the medium and the rest stand. -/
structure DetectFrame (d d' : Dev) : Prop where
  only : d' = { d with regs := d'.regs, locus := d'.locus, log := d'.log, units := d'.units, det := d'.det, span := d'.span,
                       mem := d'.mem, free := d'.free }
  log : d.log <:+ d'.log

section
variable {d d' : Dev}

theorem DetectFrame.trans {d'' : Dev} (h : DetectFrame d d') (h' : DetectFrame d' d'') : DetectFrame d d'' := by
  obtain ⟨only, log⟩ := h
  obtain ⟨only', log'⟩ := h'
  refine ⟨?_, log.trans log'⟩
  rw [only] at only'
  exact only'

theorem DetectFrame.of_regsOnly (h : RegsOnly d d') : DetectFrame d d' := ⟨by rw [h], by rw [h]⟩

theorem DetectFrame.refl (d : Dev) : DetectFrame d d := .of_regsOnly rfl

theorem DetectFrame.regs (h : DetectFrame d d') {d'' : Dev} (hr : RegsOnly d' d'') : DetectFrame d d'' := h.trans (.of_regsOnly hr)

theorem DetectFrame.count (h : DetectFrame d d') (a : Nat) : DetectFrame d (d'.count a) := h.regs rfl

theorem DetectFrame.putBit (h : DetectFrame d d') (f : Field) (b : Bool) : DetectFrame d (d'.putBit f b) := h.regs rfl

theorem DetectFrame.put (h : DetectFrame d d') (f : Field) (v : Nat) : DetectFrame d (d'.put f v) := h.regs rfl

theorem DetectFrame.onDh (h : DetectFrame d d') (k : Nat) (g : DetHead → DetHead) : DetectFrame d (d'.onDh k g) :=
  h.trans ⟨rfl, List.suffix_rfl⟩

theorem DetectFrame.onLat (h : DetectFrame d d') (u : Nat) (g : LatSt → LatSt) : DetectFrame d (d'.onLat u g) :=
  h.trans ⟨rfl, List.suffix_rfl⟩

theorem DetectFrame.setStripe (h : DetectFrame d d') (k slot : Nat) (j : Option StripeJob) : DetectFrame d (d'.setStripe k slot j) :=
  h.trans ⟨rfl, List.suffix_rfl⟩

theorem DetectFrame.bufWrite (h : DetectFrame d d') (a : Nat) (l : List Byte) : DetectFrame d (d'.bufWrite a l) :=
  h.trans ⟨rfl, List.suffix_rfl⟩

theorem DetectFrame.setSpan (h : DetectFrame d d') (x : SpanSt) : DetectFrame d { d' with span := x } :=
  h.trans ⟨rfl, List.suffix_rfl⟩

theorem DetectFrame.setMail (h : DetectFrame d d') (t : Nat) (m : MailSt) : DetectFrame d (d'.setMail t m) := h.setSpan _

theorem DetectFrame.setUnit (h : DetectFrame d d') (c u : Nat) (x : UnitState) : DetectFrame d (d'.setUnit c u x) :=
  h.trans ⟨rfl, List.suffix_rfl⟩

theorem DetectFrame.drew (h : DetectFrame d d') : DetectFrame d d'.drew := h.trans ⟨rfl, List.suffix_rfl⟩

theorem DetectFrame.issue (h : DetectFrame d d') : DetectFrame d d'.issue := by
  refine h.trans ⟨?_, ?_⟩
  · rw [Dev.issue_only]
  · rw [Dev.issue_only]

theorem DetectFrame.eventFor (h : DetectFrame d d') (rcpt : Esn) (kind : EventKind) (unit code : Nat) (detail : List Nat) :
    DetectFrame d (d'.eventFor rcpt kind unit code detail) := by
  refine h.trans ⟨?_, List.suffix_cons _ _⟩
  unfold Dev.eventFor
  rw [Dev.issue_only]

/-- A change made where a condition holds. -/
theorem DetectFrame.when (h : DetectFrame d d') {c : Bool} {f : Dev → Dev} (hf : ∀ n, DetectFrame n (f n)) :
    DetectFrame d (d'.when c f) := by
  cases c with
  | true => exact h.trans (hf d')
  | false => exact h

/-- A change made for every element of a list. -/
theorem DetectFrame.each (h : DetectFrame d d') {α : Type} {f : Dev → α → Dev} (xs : List α) (hf : ∀ n x, DetectFrame n (f n x)) :
    DetectFrame d (d'.each xs f) := Dev.each_induction (DetectFrame d) f (fun n x hn => hn.trans (hf n x)) xs d' h

theorem DetectFrame.slice (h : DetectFrame d d') (n : Nat) : d'.slice n = d.slice n := by rw [h.only]; rfl

end

section
variable (d : Dev)

/-! ### Mailboxes and stripe jobs (R124 to R128, R262) -/

theorem Dev.detectFrame_dmaLeaves (t tag : Nat) : DetectFrame d (d.dmaLeaves t tag) := by
  unfold Dev.dmaLeaves
  split
  · exact ((DetectFrame.refl d).setSpan _).when fun n => (DetectFrame.refl n).setSpan _
  · exact .refl d

theorem Dev.detectFrame_mailEnds (t : Nat) (x : MailEnd) : DetectFrame d (d.mailEnds t x) := by
  cases x with
  | nothing => exact .refl d
  | dma tag => exact d.detectFrame_dmaLeaves t tag
  | stripe slot => exact ((DetectFrame.refl d).setStripe 0 slot none).regs (Dev.regsOnly_showStripes _)

theorem Dev.detectFrame_postMailWith (t : Nat) (r : List Byte) (x : MailEnd) : DetectFrame d (d.postMailWith t r x) := by
  unfold Dev.postMailWith Dev.placeMail
  split
  · exact (((DetectFrame.refl d).bufWrite _ _).setMail _ _).trans (Dev.detectFrame_mailEnds _ t x)
  · exact ((DetectFrame.refl d).setMail _ _).count _

/-- A result is born: with an event where it is logged, else with its ESN alone. -/
theorem Dev.detectFrame_born (quiet : Prop) [Decidable quiet] (rcpt : Esn) (kind : EventKind) (unit code : Nat) (detail : List Nat) :
    DetectFrame d (if quiet then d.issue else d.eventFor rcpt kind unit code detail) := by
  split
  · exact (DetectFrame.refl d).issue
  · exact (DetectFrame.refl d).eventFor ..

theorem Dev.detectFrame_stripeEnd (h slot : Nat) (j : StripeJob) (status : Nat) (erased : List Nat) (fail : Nat) :
    DetectFrame d (d.stripeEnd h slot j status erased fail) := by
  unfold Dev.stripeEnd
  exact (((d.detectFrame_born (status = 0) j.rcpt _ _ _ _).setStripe _ _ _).trans (Dev.detectFrame_postMailWith _ _ _ _)).regs
    (Dev.regsOnly_showStripes _)

theorem Dev.detectFrame_releaseGroup (h : Nat) (k : GroupKey) : DetectFrame d (d.releaseGroup h k) :=
  (DetectFrame.refl d).when fun n => (DetectFrame.refl n).onDh _ _

theorem Dev.detectFrame_cancelParity (h slot : Nat) : DetectFrame d (d.cancelParity h slot) := by
  unfold Dev.cancelParity
  have freed := (DetectFrame.refl d).each (f := fun d (j : JobSt) => ((d.freeDecoder j.unit).issue).count (Adr.DEC_CNT h 6))
    ((d.dh h).jobs.filter fun j => (j.stripe == slot && j.parity) && (j.stage == .waiting || j.stage == .turbo))
    fun n j => (((DetectFrame.refl n).regs (n.regsOnly_freeDecoder j.unit)).issue).count _
  exact ((freed.onDh _ _).each _ fun n j => n.detectFrame_releaseGroup h _).regs (Dev.regsOnly_showQueue _ h)

theorem Dev.detectFrame_stripeEvaluate (h slot : Nat) : DetectFrame d (d.stripeEvaluate h slot) := by
  unfold Dev.stripeEvaluate
  have clean (s : StripeJob) : DetectFrame d ((d.count (Adr.STR_CNT s.engine 0)).stripeEnd h slot s 0 [] 0) :=
    ((DetectFrame.refl d).count _).trans (Dev.detectFrame_stripeEnd ..)
  split
  · exact .refl d
  next s _ =>
    split
    · exact .refl d
    · dsimp only
      split
      · exact (clean s).trans (Dev.detectFrame_cancelParity _ h slot)
      · split
        · exact clean s
        · split
          · exact d.detectFrame_stripeEnd ..
          · split
            · exact ((DetectFrame.refl d).setStripe _ _ _).regs (Dev.regsOnly_showStripes _)
            · exact .refl d

theorem Dev.detectFrame_setFrameBytes (buf j : Nat) (l : List Byte) : DetectFrame d (d.setFrameBytes buf j l) := by
  unfold Dev.setFrameBytes
  dsimp only
  split
  · exact ((DetectFrame.refl d).bufWrite _ _).bufWrite _ _
  · exact (DetectFrame.refl d).bufWrite _ _

theorem Dev.detectFrame_stripeResult (h slot : Nat) (r : FrameResult) (info : List Byte) :
    DetectFrame d (d.stripeResult h slot r info) := by
  unfold Dev.stripeResult
  split
  · exact .refl d
  · exact ((((DetectFrame.refl d).when fun n => n.detectFrame_setFrameBytes ..).when fun n =>
      ((DetectFrame.refl n).putBit _ _).count _).setStripe _ _ _).trans (Dev.detectFrame_stripeEvaluate _ h slot)

/-! ### Frame jobs and blank frames (R111, R118 to R121) -/

theorem Dev.detectFrame_askTurbo (h : Nat) (k : GroupKey) : DetectFrame d (d.askTurbo h k) :=
  (DetectFrame.refl d).when fun n => (DetectFrame.refl n).onDh _ _

theorem Dev.detectFrame_noteConverged (h : Nat) (j : JobSt) (shift : Int) (hard : List Bool) :
    DetectFrame d (d.noteConverged h j shift hard) := by
  unfold Dev.noteConverged Dev.onGroupOf
  exact (DetectFrame.refl d).onDh _ _

theorem Dev.detectFrame_endJob (h : Nat) (j : JobSt) (status : Nat) (shift : Int) (hard : List Bool) :
    DetectFrame d (d.endJob h j status shift hard) := by
  unfold Dev.endJob
  dsimp only
  exact ((((((((DetectFrame.refl d).when (c := status ≤ 1) fun n => n.detectFrame_noteConverged h j shift hard).trans
    (Dev.detectFrame_born _ _ _ _ _ _ _)).regs (Dev.regsOnly_freeDecoder _ j.unit)).when fun n =>
    (DetectFrame.refl n).count _).onDh h _).trans (Dev.detectFrame_stripeResult _ h j.stripe _ _)).trans
    (Dev.detectFrame_askTurbo _ h _)).trans (Dev.detectFrame_releaseGroup _ h _) |>.regs
    (Dev.regsOnly_showQueue _ h) |>.regs (Dev.regsOnly_showLat _ h)

theorem Dev.detectFrame_endBlank (h : Nat) (k : GroupKey) : DetectFrame d (d.endBlank h k) := by
  unfold Dev.endBlank
  split
  · exact .refl d
  · exact (DetectFrame.refl d).each _ fun n j => n.detectFrame_endJob ..

/-- Without frame jobs no blank frame ends one. -/
theorem Dev.endBlank_of_no_jobs {h : Nat} (k : GroupKey) (hj : (d.dh h).jobs = []) : d.endBlank h k = d := by
  unfold Dev.endBlank
  split
  · rfl
  · rw [hj]; rfl

end

/-! ## Heads and Lattice units (R94 to R104) -/

section
variable (d : Dev)

@[simp] theorem Dev.dh_onDh_self (h : Nat) (g : DetHead → DetHead) : (d.onDh h g).dh h = g (d.dh h) := Tab.get_set_self ..

theorem Dev.dh_onDh (h x : Nat) (g : DetHead → DetHead) : (d.onDh h g).dh x = if x = h then g (d.dh h) else d.dh x := Tab.get_set ..

@[simp] theorem Dev.lat_onLat_self (u : Nat) (g : LatSt → LatSt) : (d.onLat u g).lat u = g (d.lat u) := Tab.get_set_self ..

theorem Dev.dh_of_det_eq {d d' : Dev} (h : d'.det = d.det) (x : Nat) : d'.dh x = d.dh x := by rw [Dev.dh, h]; rfl

/-- A change of every element of a list leaves what the heads and units hold. -/
theorem Dev.det_each {α : Type} {f : Dev → α → Dev} (xs : List α) (hf : ∀ n x, (f n x).det = n.det) : (d.each xs f).det = d.det :=
  Dev.each_induction (fun n => n.det = d.det) f (fun n x hn => (hf n x).trans hn) xs d rfl

/-! ### Groups spill and leave (R95, R114) -/

theorem Dev.detectFrame_spillGroup (h slot : Nat) (g : GroupSt) : DetectFrame d (d.spillGroup h slot g) :=
  (DetectFrame.refl d).each _ fun n _ => (DetectFrame.refl n).each _ fun m _ => (DetectFrame.refl m).bufWrite _ _

/-- Groups spill to the buffer, and what the heads hold stands. -/
theorem Dev.det_spillGroup (h slot : Nat) (g : GroupSt) : (d.spillGroup h slot g).det = d.det := by
  unfold Dev.spillGroup
  exact d.det_each _ fun n p => n.det_each _ fun _ _ => rfl

theorem Dev.detectFrame_evictGroup (h : Nat) (g : GroupSt) : DetectFrame d (d.evictGroup h g) := by
  unfold Dev.evictGroup
  dsimp only
  split
  · exact ((DetectFrame.refl d).onDh _ _).onDh _ _
  · split
    · exact (((DetectFrame.refl d).onDh _ _).trans (Dev.detectFrame_spillGroup _ h _ g)).onDh _ _
    · exact ((((DetectFrame.refl d).onDh _ _).onDh _ _).onDh _ _ |>.regs (Dev.regsOnly_showSweeps _ h)).regs
        (Dev.regsOnly_latFlag _ h _)

theorem Dev.detectFrame_evict (h : Nat) : DetectFrame d (d.evict h) := by
  unfold Dev.evict
  split
  · exact d.detectFrame_evictGroup h _
  · exact .refl d

/-- A group of an earlier pass gives way to one of its key (log 154). -/
def Dev.dropPast (d : Dev) (h : Nat) (k : GroupKey) : Dev :=
  match findGroup (d.dh h).store k with
  | some g => d.when (g.past && (jobsOf (d.dh h).jobs k).all fun j => j.stage == .waiting && j.chan.isEmpty) fun d => d.evictGroup h g
  | none => d

/-- The group k is the youngest in a store that had room for it, or makes it. -/
def Dev.addGroup (d : Dev) (h : Nat) (k : GroupKey) : Dev :=
  (d.when (8 ≤ (d.dh h).store.length) fun d => d.evict h).onDh h fun s => { s with store := s.store ++ [{ key := k }] }

theorem Dev.enterGroup_eq (h : Nat) (k : GroupKey) : d.enterGroup h k =
    if (findGroup ((d.dropPast h k).dh h).store k).isSome then d.dropPast h k else (d.dropPast h k).addGroup h k := rfl

theorem Dev.detectFrame_enterGroup (h : Nat) (k : GroupKey) : DetectFrame d (d.enterGroup h k) := by
  have past : DetectFrame d (d.dropPast h k) := by
    unfold Dev.dropPast
    split
    · exact (DetectFrame.refl d).when fun n => n.detectFrame_evictGroup h _
    · exact .refl d
  rw [Dev.enterGroup_eq]
  split
  · exact past
  · exact (past.when fun n => n.detectFrame_evict h).onDh _ _

end

/-! ### Groups of a store, by their keys -/

theorem findGroup_onGroup (l : List GroupSt) (k : GroupKey) {f : GroupSt → GroupSt} (hf : ∀ g, (f g).key = g.key) :
    findGroup (onGroup l k f) k = (findGroup l k).map f := by
  unfold findGroup onGroup
  rw [List.find?_map]
  have keys : ((fun g : GroupSt => g.key == k) ∘ fun g => if g.key = k then f g else g) = fun g => g.key == k := by
    funext g
    by_cases hk : g.key = k <;> simp [hk, hf]
  rw [keys]
  cases hg : l.find? fun g => g.key == k with
  | none => rfl
  | some g =>
    have hk : g.key = k := by simpa using List.find?_some hg
    simp [hk]

theorem findGroup_append_of_none {l : List GroupSt} {k : GroupKey} (h : findGroup l k = none) (g : GroupSt) (hg : g.key = k) :
    findGroup (l ++ [g]) k = some g := by
  unfold findGroup at *
  rw [List.find?_append, h]
  simp [hg]

/-- No group comes in as groups leave. -/
theorem findGroup_filter_of_none {l : List GroupSt} {k : GroupKey} (h : findGroup l k = none) (p : GroupSt → Bool) :
    findGroup (l.filter p) k = none := by
  unfold findGroup at *
  rw [List.find?_eq_none] at *
  exact fun g hg => h g (List.mem_of_mem_filter hg)

section
variable (d : Dev) (h : Nat)

theorem DetHead.store_saw (s : DetHead) (g : GroupSt) : (s.saw g).store = s.store := by
  unfold DetHead.saw
  split <;> rfl

/-- Of the store, only the groups of g's key leave. -/
theorem Dev.store_evictGroup (g : GroupSt) :
    ((d.evictGroup h g).dh h).store = (d.dh h).store.filter fun x => x.key != g.key := by
  unfold Dev.evictGroup
  dsimp only
  split
  · simp [DetHead.store_saw]
  · split
    · simp [DetHead.store_saw, Dev.dh_of_det_eq (Dev.det_spillGroup _ h _ g)]
    · rw [(Dev.regsOnly_latFlag _ h _).dh, (Dev.regsOnly_showSweeps _ h).dh]
      simp [DetHead.store_saw]

theorem Dev.findGroup_evict_of_none {k : GroupKey} (hk : findGroup (d.dh h).store k = none) :
    findGroup ((d.evict h).dh h).store k = none := by
  unfold Dev.evict
  split
  · rw [Dev.store_evictGroup]
    exact findGroup_filter_of_none hk _
  · exact hk

/-- A group of the pass in progress takes its further fragments. -/
theorem Dev.enterGroup_of_found {k : GroupKey} {g : GroupSt} (hg : findGroup (d.dh h).store k = some g) (hp : g.past = false) :
    d.enterGroup h k = d := by
  have stays : d.dropPast h k = d := by
    rw [Dev.dropPast, hg]
    simp [hp, Dev.when_false]
  rw [Dev.enterGroup_eq, stays, hg]
  rfl

/-- The first fragment of a group enters it, empty. -/
theorem Dev.findGroup_enterGroup_of_none {k : GroupKey} (hk : findGroup (d.dh h).store k = none) :
    findGroup ((d.enterGroup h k).dh h).store k = some { key := k } := by
  have stays : d.dropPast h k = d := by rw [Dev.dropPast, hk]
  rw [Dev.enterGroup_eq, stays, hk, if_neg (by simp), Dev.addGroup, Dev.dh_onDh_self]
  refine findGroup_append_of_none ?_ _ rfl
  rw [Dev.when]
  split
  · exact d.findGroup_evict_of_none h hk
  · exact hk

end

/-! ## Fragments (R83, R95) -/

/-- A group with a fragment that it takes: the open one of the pass in progress takes each once. -/
def GroupSt.taking (r : FragSt) (g : GroupSt) : GroupSt :=
  if g.complete || g.past || g.frags.any (fun x => x.pos == r.pos && x.wedge == r.wedge) then g else { g with frags := g.frags ++ [r] }

theorem GroupSt.key_taking (r : FragSt) (g : GroupSt) : (g.taking r).key = g.key := by
  unfold GroupSt.taking
  split <;> rfl

/-- BLANK follows the frame that ends with a fragment. -/
def Dev.showBlank (d : Dev) (n : Nat) (r : FragSt) : Dev :=
  d.when (r.hi == codeBits) fun d => d.putBit (Fld.CHN_STATUS_BLANK n) r.blank

/-- A fragment that left its slice reaches the store of head h. -/
def Dev.storeFragment (d : Dev) (h : Nat) (k : GroupKey) (r : FragSt) : Dev :=
  (((d.enterGroup h k).onDh h fun s => { s with store := onGroup s.store k (·.taking r) }).when r.blank fun d => d.endBlank h k).showLat h

section
variable (d : Dev) (n : Nat) (f : FragmentRecord) (r : FragSt)

theorem Dev.regsOnly_showBlank : RegsOnly d (d.showBlank n r) := (RegsOnly.refl d).when ((RegsOnly.refl d).putBit _ _)

theorem Dev.sameRegs_showBlank : SameRegs d (d.showBlank n r) [Adr.CHN_STATUS n] :=
  (SameRegs.refl d _).when ((SameRegs.refl d _).putBit (by simp [Fld.CHN_STATUS_BLANK]))

theorem Dev.bit_showBlank (hr : r.hi = codeBits) : (d.showBlank n r).bit (Fld.CHN_STATUS_BLANK n) = r.blank := by
  rw [Dev.showBlank, beq_iff_eq.2 hr, Dev.when_true]
  exact Dev.bit_putBit_self _ _ _

theorem Dev.sliceMode_showBlank : (d.showBlank n r).sliceMode n = d.sliceMode n :=
  (d.sameRegs_showBlank n r).fld (by simp [Fld.CHN_CTRL_MODE, Adr.CHN_CTRL, Adr.CHN_STATUS])

/-- A fragment leaves its slice, and no group knows of it yet. -/
theorem Dev.fragmentLeaves_only : d.fragmentLeaves n f r = { d with
    regs := (d.fragmentLeaves n f r).regs, locus := (d.fragmentLeaves n f r).locus, slices := (d.fragmentLeaves n f r).slices } := by
  unfold Dev.fragmentLeaves
  dsimp only
  split
  · rfl
  · rw [Dev.issue_only]; rfl

theorem Dev.esn_fragmentLeaves : ((d.fragmentLeaves n f r).slice n).esn = r.esn := by
  unfold Dev.fragmentLeaves
  rw [Dev.slice_onSlice_self]

variable {d n f r}

theorem Dev.deliver_of_shadow (hm : d.sliceMode n = 2)
    (hf : d.fragmentOf n ((d.positionOf (n / 10) (d.sliceBeam n)).getD 0) f = some r) : d.deliver n f = d.showBlank n r := by
  have mode : (d.showBlank n r).sliceMode n = 2 := (d.sliceMode_showBlank n r).trans hm
  unfold Dev.deliver
  dsimp only
  rw [if_neg (by simp [hm]), hf]
  exact if_pos mode

/-- What leaves a Data-mode slice reaches a group where its beam stands in the map and its slot is read for data. -/
theorem Dev.deliver_of_data (hd : d.delivers n = true) (hm : d.sliceMode n = 1)
    (hf : d.fragmentOf n ((d.positionOf (n / 10) (d.sliceBeam n)).getD 0) f = some r) :
    d.deliver n f = if (d.positionOf (n / 10) (d.sliceBeam n)).isNone || !d.formatterReads (n / 10) f.slot then
        (d.showBlank n r).fragmentLeaves n f r
      else ((d.showBlank n r).fragmentLeaves n f r).storeFragment (n / 10)
        (groupOfFrame (d.fragmentFrame (n / 10) ((d.positionOf (n / 10) (d.sliceBeam n)).getD 0) f)) r := by
  have mode : (d.showBlank n r).sliceMode n ≠ 2 := by rw [d.sliceMode_showBlank, hm]; decide
  have reads : ((d.showBlank n r).fragmentLeaves n f r).formatterReads (n / 10) f.slot = d.formatterReads (n / 10) f.slot := by
    rw [Dev.fragmentLeaves_only, d.regsOnly_showBlank n r]; rfl
  have frame : (d.showBlank n r).fragmentFrame (n / 10) ((d.positionOf (n / 10) (d.sliceBeam n)).getD 0) f =
      d.fragmentFrame (n / 10) ((d.positionOf (n / 10) (d.sliceBeam n)).getD 0) f := by
    rw [d.regsOnly_showBlank n r]; rfl
  rw [← reads, ← frame]
  unfold Dev.deliver
  dsimp only
  rw [if_neg (by simp [hd]), hf]
  exact if_neg mode

theorem Dev.deliver_of_none (hf : d.fragmentOf n ((d.positionOf (n / 10) (d.sliceBeam n)).getD 0) f = none) : d.deliver n f = d := by
  unfold Dev.deliver
  dsimp only
  rw [hf, ite_self]

theorem Dev.deliver_of_silent (hd : d.delivers n = false) (hm : d.sliceMode n ≠ 2) : d.deliver n f = d :=
  if_pos (by simp [hd, hm])

/-- The ESN of a fragment without a birth is the next one. -/
theorem Dev.esn_of_fragmentOf {p : Nat} (hf : d.fragmentOf n p f = some r)
    (hb : ∀ e ∈ (d.slice n).births, ¬(e.1 = f.wedge.val ∧ e.2.1 = f.slot.val)) : r.esn = d.esn := by
  have none_born : ((d.slice n).births.find? fun e => e.1 == f.wedge.val && e.2.1 == f.slot.val) = none := by
    rw [List.find?_eq_none]
    exact fun e he => by simpa using hb e he
  unfold Dev.fragmentOf at hf
  dsimp only at hf
  split at hf
  · cases hf
  · rw [none_born] at hf
    obtain rfl := Option.some.inj hf
    rfl

/-! ### What the store holds of a fragment -/

variable {h : Nat} {k : GroupKey}

theorem Dev.detectFrame_storeFragment : DetectFrame d (d.storeFragment h k r) :=
  (((d.detectFrame_enterGroup h k).onDh h _).when fun x => x.detectFrame_endBlank h k).regs (Dev.regsOnly_showLat _ h)

theorem Dev.findGroup_storeFragment (hr : r.blank = false) : findGroup ((d.storeFragment h k r).dh h).store k =
    (findGroup ((d.enterGroup h k).dh h).store k).map (·.taking r) := by
  rw [Dev.storeFragment, (Dev.regsOnly_showLat _ h).dh, hr, Dev.when_false, Dev.dh_onDh_self]
  exact findGroup_onGroup _ k (GroupSt.key_taking r)

/-- A fragment stands last in the open group of its frame. -/
theorem Dev.storeFragment_appends {g : GroupSt} (hg : d.openGroup h k = some g) (hp : g.past = false)
    (new : (g.frags.any fun x => x.pos == r.pos && x.wedge == r.wedge) = false) (hr : r.blank = false) :
    findGroup ((d.storeFragment h k r).dh h).store k = some { g with frags := g.frags ++ [r] } := by
  obtain ⟨found, isOpen⟩ := Option.filter_eq_some_iff.1 hg
  have taken : g.taking r = { g with frags := g.frags ++ [r] } := if_neg (by rw [hp, new]; simpa using isOpen)
  rw [Dev.findGroup_storeFragment hr, d.enterGroup_of_found h found hp, found, Option.map_some, taken]

theorem Dev.storeFragment_enters (hk : findGroup (d.dh h).store k = none) (hr : r.blank = false) :
    findGroup ((d.storeFragment h k r).dh h).store k = some { key := k, frags := [r] } := by
  rw [Dev.findGroup_storeFragment hr, d.findGroup_enterGroup_of_none h hk]
  rfl

end

/-! ### The clauses of a fragment -/

section
variable {s : State} {n : Slice} {f : FragmentRecord} {r : FragSt}

theorem exec_fragment_of_nothing (h : (s.dev.delivers n = false ∧ s.dev.sliceMode n ≠ 2) ∨
    s.dev.fragmentOf n ((s.dev.positionOf (n.val / 10) (s.dev.sliceBeam n)).getD 0) f = none) :
    exec (.fragment n f) s = .next s :=
  State.onSlice_of_eq_self (f := fun d => d.deliver n f) (h.elim (fun ⟨hd, hm⟩ => Dev.deliver_of_silent hd hm) Dev.deliver_of_none)

theorem completes_fragment_of_shadow (hh : s.dev.hasHead (headOfSlice n) = true) (hm : s.dev.sliceMode n = 2)
    (hf : s.dev.fragmentOf n ((s.dev.positionOf (n.val / 10) (s.dev.sliceBeam n)).getD 0) f = some r) :
    Completes (.fragment n f) s fun d => (r.hi = codeBits → d.bit (Fld.CHN_STATUS_BLANK n) = r.blank) ∧
      d = { s.dev with regs := d.regs } ∧ SameRegs s.dev d [Adr.CHN_STATUS n] := by
  refine Completes.of_onSlice (f := fun d => d.deliver n f) rfl hh ?_
  rw [Dev.deliver_of_shadow hm hf]
  exact ⟨s.dev.bit_showBlank n r, s.dev.regsOnly_showBlank n r, s.dev.sameRegs_showBlank n r⟩

/-- What is left of a slice whose fragment has left: the store of no head has changed. -/
theorem Dev.det_leaves (d : Dev) (n : Nat) (f : FragmentRecord) (r : FragSt) : ((d.showBlank n r).fragmentLeaves n f r).det = d.det := by
  rw [Dev.fragmentLeaves_only]
  exact (d.regsOnly_showBlank n r).det

theorem Dev.esn_deliver {d : Dev} {n : Nat} (hd : d.delivers n = true) (hm : d.sliceMode n = 1)
    (hf : d.fragmentOf n ((d.positionOf (n / 10) (d.sliceBeam n)).getD 0) f = some r) : ((d.deliver n f).slice n).esn = r.esn := by
  rw [Dev.deliver_of_data hd hm hf]
  split
  · exact Dev.esn_fragmentLeaves ..
  · rw [Dev.detectFrame_storeFragment.slice]
    exact Dev.esn_fragmentLeaves ..

theorem completes_fragment_of_data (hh : s.dev.hasHead (headOfSlice n) = true) (hd : s.dev.delivers n = true) (hm : s.dev.sliceMode n = 1)
    (hf : s.dev.fragmentOf n ((s.dev.positionOf (n.val / 10) (s.dev.sliceBeam n)).getD 0) f = some r) :
    let fh := n.val / 10
    let pos := s.dev.positionOf fh (s.dev.sliceBeam n)
    let own := groupOfFrame (s.dev.fragmentFrame fh (pos.getD 0) f)
    Completes (.fragment n f) s fun d => (d.slice n).esn = r.esn ∧
      ((∀ e ∈ (s.dev.slice n).births, ¬(e.1 = f.wedge.val ∧ e.2.1 = f.slot.val)) → r.esn = s.dev.esn) ∧
      (pos = none ∨ s.dev.formatterReads fh f.slot = false → d.det = s.dev.det) ∧
      (∀ g, pos.isSome = true → s.dev.formatterReads fh f.slot = true → r.blank = false → s.dev.openGroup fh own = some g → g.past = false →
        (g.frags.any fun x => x.pos == r.pos && x.wedge == r.wedge) = false →
        findGroup (d.dh fh).store own = some { g with frags := g.frags ++ [r] }) ∧
      (pos.isSome = true → s.dev.formatterReads fh f.slot = true → r.blank = false → findGroup (s.dev.dh fh).store own = none →
        findGroup (d.dh fh).store own = some { key := own, frags := [r] }) := by
  intro fh pos own
  have left := Dev.dh_of_det_eq (s.dev.det_leaves n f r) fh
  have reaches (hp : pos.isSome = true) (hr : s.dev.formatterReads fh f.slot = true) :
      s.dev.deliver n f = ((s.dev.showBlank n r).fragmentLeaves n f r).storeFragment fh own r := by
    rw [Dev.deliver_of_data hd hm hf]
    exact if_neg (by simpa [fh, pos, Option.isSome_iff_ne_none] using And.intro hp hr)
  refine Completes.of_onSlice (f := fun d => d.deliver n f) rfl hh
    ⟨Dev.esn_deliver hd hm hf, Dev.esn_of_fragmentOf hf, fun out => ?outside, fun g hp hr hb hg hpast new => ?appended,
      fun hp hr hb hk => ?entered⟩
  case outside =>
    rw [Dev.deliver_of_data hd hm hf, if_pos (by simpa using out)]
    exact s.dev.det_leaves n f r
  case appended =>
    rw [reaches hp hr]
    refine Dev.storeFragment_appends ?_ hpast new hb
    rw [Dev.openGroup, left]
    exact hg
  case entered =>
    rw [reaches hp hr]
    refine Dev.storeFragment_enters ?_ hb
    rw [left]
    exact hk

end

/-! ## Complete groups (R96) -/

section
variable (d : Dev)

/-- Taps and variances go to their unit and its registers: what the heads hold stands. -/
theorem Dev.heads_setTaps (u : Nat) (i o : List (List Int)) (sigma : List Nat) : (d.setTaps u i o sigma).det.heads = d.det.heads := by
  rw [Dev.setTaps, (Dev.regsOnly_showTaps _ u).det]
  rfl

theorem Dev.heads_onLat (u : Nat) (g : LatSt → LatSt) : (d.onLat u g).det.heads = d.det.heads := rfl

theorem Dev.heads_beginGroup (u : Nat) : (d.beginGroup u).det.heads = d.det.heads := by
  unfold Dev.beginGroup
  dsimp only
  split
  · rw [Dev.heads_onLat, Dev.heads_setTaps]
  · rfl

theorem Dev.dh_of_heads_eq {d d' : Dev} (h : d'.det.heads = d.det.heads) (x : Nat) : d'.dh x = d.dh x := by rw [Dev.dh, h]; rfl

/-- A head as a group of it is complete: its pass waits behind those that wait. -/
def DetHead.completing (k : GroupKey) (s : DetHead) : DetHead :=
  { s with store := onGroup s.store k fun g => { g with complete := true }, passes := s.passes ++ [(k, 0)] }

theorem Dev.dh_completeGroup (h : Nat) (k : GroupKey) : (d.completeGroup h k).dh h = (d.dh h).completing k := by
  unfold Dev.completeGroup
  dsimp only
  rw [(Dev.regsOnly_showLat _ h).dh, ← Dev.dh_onDh_self d h (DetHead.completing k), Dev.when]
  refine Dev.dh_of_heads_eq ?_ h
  split
  · split
    · exact Dev.heads_beginGroup _ _
    · rfl
  · rfl

theorem Dev.passes_completeGroup (h : Nat) (k : GroupKey) : ((d.completeGroup h k).dh h).passes = (d.dh h).passes ++ [(k, 0)] := by
  rw [Dev.dh_completeGroup]; rfl

variable {d} {h : Nat} {k : GroupKey} {x : GroupSt}

theorem Dev.findGroup_completeGroup (hx : d.openGroup h k = some x) :
    findGroup ((d.completeGroup h k).dh h).store k = some { x with complete := true } := by
  obtain ⟨found, -⟩ := Option.filter_eq_some_iff.1 hx
  rw [Dev.dh_completeGroup]
  exact (findGroup_onGroup _ k (f := fun g => { g with complete := true }) fun _ => rfl).trans (by rw [found]; rfl)

theorem Dev.openGroup_completeGroup (hx : d.openGroup h k = some x) : (d.completeGroup h k).openGroup h k = none := by
  rw [Dev.openGroup, Dev.findGroup_completeGroup hx]
  rfl

end

section
variable {s : State} {h : Head} {k : GroupKey} {x : GroupSt}

theorem exec_groupDeadline_of_open (hx : s.dev.openGroup h.ix k = some x) :
    exec (.groupDeadline h k) s = .next { s with dev := s.dev.completeGroup h.ix k } := by
  change execGroupDeadline h k s = _
  unfold execGroupDeadline
  rw [State.on_eq]
  rw [hx]

theorem exec_groupDeadline_of_none (hx : s.dev.openGroup h.ix k = none) : exec (.groupDeadline h k) s = .next s := by
  change execGroupDeadline h k s = _
  unfold execGroupDeadline
  exact State.on_of_eq_self (by rw [hx])

theorem exec_groupComplete_of_open (hx : s.dev.openGroup h.ix k = some x) : exec (.groupComplete h k) s =
    .next { s with dev := if groupWhole x then s.dev.completeGroup h.ix k else s.dev } := by
  change execGroupComplete h k s = _
  unfold execGroupComplete
  rw [State.on_eq]
  rw [hx]

theorem exec_groupComplete_of_none (hx : s.dev.openGroup h.ix k = none) : exec (.groupComplete h k) s = .next s := by
  change execGroupComplete h k s = _
  unfold execGroupComplete
  exact State.on_of_eq_self (by rw [hx])

theorem completes_groupDeadline (hx : s.dev.openGroup h.ix k = some x) : Completes (.groupDeadline h k) s fun d =>
    (d.dh h.ix).passes = (s.dev.dh h.ix).passes ++ [(k, 0)] ∧ d.openGroup h.ix k = none ∧
      findGroup (d.dh h.ix).store k = some { x with complete := true } :=
  ⟨_, exec_groupDeadline_of_open hx, s.dev.passes_completeGroup _ k, Dev.openGroup_completeGroup hx, Dev.findGroup_completeGroup hx⟩

theorem completes_groupComplete (hx : s.dev.openGroup h.ix k = some x) (whole : groupWhole x = true) :
    Completes (.groupComplete h k) s fun d => (d.dh h.ix).passes = (s.dev.dh h.ix).passes ++ [(k, 0)] ∧
      findGroup (d.dh h.ix).store k = some { x with complete := true } :=
  ⟨_, by rw [exec_groupComplete_of_open hx, if_pos whole], s.dev.passes_completeGroup _ k, Dev.findGroup_completeGroup hx⟩

theorem exec_groupComplete_of_part (hx : s.dev.openGroup h.ix k = some x) (part : groupWhole x = false) :
    exec (.groupComplete h k) s = .next s := by
  rw [exec_groupComplete_of_open hx, if_neg (by simp [part])]

end

/-! ## Passes of a Lattice unit (R97 to R103, R111) -/

/-- A pass leaves a head's queue of passes and its hand-off, and changes its jobs one by one: none of them where the unit does not
deliver. -/
def PassedHead (active : Bool) (s s' : DetHead) : Prop :=
  s'.passes = s.passes ∧ s'.handoff = s.handoff ∧ ∃ f : JobSt → JobSt, (active = false → f = id) ∧ s'.jobs = s.jobs.map f

/-- d' differs from d in what a pass changes. -/
structure PassFrame (active : Bool) (d d' : Dev) : Prop where
  only : d' = { d with regs := d'.regs, det := d'.det, mem := d'.mem }
  heads : ∀ x, PassedHead active (d.dh x) (d'.dh x)

section
variable {active : Bool}

theorem PassedHead.refl (s : DetHead) : PassedHead active s s := ⟨rfl, rfl, id, fun _ => rfl, s.jobs.map_id.symm⟩

theorem PassedHead.trans {s s' s'' : DetHead} (h : PassedHead active s s') (h' : PassedHead active s' s'') :
    PassedHead active s s'' := by
  obtain ⟨passes, handoff, f, quiet, jobs⟩ := h
  obtain ⟨passes', handoff', f', quiet', jobs'⟩ := h'
  refine ⟨passes'.trans passes, handoff'.trans handoff, f' ∘ f, fun h => ?_, by rw [jobs', jobs, List.map_map]⟩
  rw [quiet h, quiet' h]; rfl

/-- A change of the groups of a head alone. -/
theorem PassedHead.of_jobs_eq {s s' : DetHead} (hp : s'.passes = s.passes) (hh : s'.handoff = s.handoff) (hj : s'.jobs = s.jobs) :
    PassedHead active s s' := ⟨hp, hh, id, fun _ => rfl, by rw [hj, List.map_id]⟩

theorem PassedHead.saw (s : DetHead) (g : GroupSt) : PassedHead active s (s.saw g) := by
  unfold DetHead.saw
  split
  · exact .refl s
  · exact .of_jobs_eq rfl rfl rfl

theorem PassedHead.quiet {s s' : DetHead} (h : PassedHead false s s') : s'.jobs = s.jobs ∧ s'.passes = s.passes := by
  obtain ⟨passes, -, f, quiet, jobs⟩ := h
  exact ⟨by rw [jobs, quiet rfl, List.map_id], passes⟩

variable {d d' : Dev}

theorem PassFrame.trans {d'' : Dev} (h : PassFrame active d d') (h' : PassFrame active d' d'') : PassFrame active d d'' := by
  obtain ⟨only, heads⟩ := h
  obtain ⟨only', heads'⟩ := h'
  refine ⟨?_, fun x => (heads x).trans (heads' x)⟩
  rw [only] at only'
  exact only'

theorem PassFrame.of_heads_eq (h : d' = { d with regs := d'.regs, det := d'.det, mem := d'.mem })
    (hd : d'.det.heads = d.det.heads) : PassFrame active d d' :=
  ⟨h, fun x => by rw [Dev.dh_of_heads_eq hd]; exact .refl _⟩

theorem PassFrame.of_regsOnly (h : RegsOnly d d') : PassFrame active d d' := .of_heads_eq (by rw [h]) (by rw [h])

theorem PassFrame.refl (d : Dev) : PassFrame active d d := .of_regsOnly rfl

theorem PassFrame.regs {d'' : Dev} (h : PassFrame active d d') (hr : RegsOnly d' d'') : PassFrame active d d'' := h.trans (.of_regsOnly hr)

theorem PassFrame.putBit (h : PassFrame active d d') (f : Field) (b : Bool) : PassFrame active d (d'.putBit f b) := h.regs rfl

theorem PassFrame.onLat (h : PassFrame active d d') (u : Nat) (g : LatSt → LatSt) : PassFrame active d (d'.onLat u g) :=
  h.trans (.of_heads_eq rfl rfl)

theorem PassFrame.bufWrite (h : PassFrame active d d') (a : Nat) (l : List Byte) : PassFrame active d (d'.bufWrite a l) :=
  h.trans (.of_heads_eq rfl rfl)

theorem PassFrame.onDh (h : PassFrame active d d') (k : Nat) {g : DetHead → DetHead} (hg : ∀ s, PassedHead active s (g s)) :
    PassFrame active d (d'.onDh k g) := by
  refine h.trans ⟨rfl, fun x => ?_⟩
  rw [Dev.dh_onDh]
  split
  next hx => exact hx ▸ hg _
  · exact .refl _

/-- A change made where a condition holds. -/
theorem PassFrame.when (h : PassFrame active d d') {c : Bool} {f : Dev → Dev} (hf : c = true → ∀ n, PassFrame active n (f n)) :
    PassFrame active d (d'.when c f) := by
  cases c with
  | true => exact h.trans (hf rfl d')
  | false => exact h

/-- A change made for every element of a list. -/
theorem PassFrame.each (h : PassFrame active d d') {α : Type} {f : Dev → α → Dev} (xs : List α) (hf : ∀ n x, PassFrame active n (f n x)) :
    PassFrame active d (d'.each xs f) := Dev.each_induction (PassFrame active d) f (fun n x hn => hn.trans (hf n x)) xs d' h

theorem PassFrame.detectFrame (h : PassFrame active d d') : DetectFrame d d' := ⟨by rw [h.only], by rw [h.only]⟩

/-- A head without jobs has none after a pass. -/
theorem PassFrame.idle (h : PassFrame active d d') {x : Nat} (hj : (d.dh x).jobs = []) : (d'.dh x).jobs = [] := by
  obtain ⟨-, -, f, -, jobs⟩ := h.heads x
  rw [jobs, hj]; rfl

end

section
variable {active : Bool} (d : Dev)

theorem Dev.passFrame_setTaps (u : Nat) (i o : List (List Int)) (sigma : List Nat) : PassFrame active d (d.setTaps u i o sigma) :=
  ((PassFrame.refl d).onLat u _).regs (Dev.regsOnly_showTaps _ u)

theorem Dev.passFrame_beginGroup (u : Nat) : PassFrame active d (d.beginGroup u) := by
  unfold Dev.beginGroup
  dsimp only
  split
  · exact (d.passFrame_setTaps u _ _ _).onLat u _
  · exact .refl d

theorem Dev.passFrame_adaptLat (u place : Nat) (turbo : Bool) (models : List LatModel) (rows : List (List LatBit))
    (decided : List (List Int)) : PassFrame active d (d.adaptLat u place turbo models rows decided) := by
  unfold Dev.adaptLat
  exact ((PassFrame.refl d).when fun _ n => (PassFrame.refl n).putBit _ true).trans (Dev.passFrame_setTaps ..)

theorem Dev.passFrame_onGroupOf (h : Nat) (k : GroupKey) (f : GroupSt → GroupSt) : PassFrame active d (d.onGroupOf h k f) :=
  (PassFrame.refl d).onDh h fun _ => .of_jobs_eq rfl rfl rfl

theorem Dev.passFrame_keepOut0 (h : Nat) (g : GroupSt) (out : List (List Int)) : PassFrame active d (d.keepOut0 h g out) := by
  unfold Dev.keepOut0
  split
  · exact d.passFrame_onGroupOf h _ _
  · exact ((PassFrame.refl d).each _ fun n p => (PassFrame.refl n).bufWrite _ _).trans (Dev.passFrame_onGroupOf ..)

theorem PassedHead.map_jobs (s : DetHead) (f : JobSt → JobSt) : PassedHead true s { s with jobs := s.jobs.map f } :=
  ⟨rfl, rfl, f, nofun, rfl⟩

theorem Dev.passFrame_deliverRound0 (h : Nat) (g : GroupSt) (out : List (List Int)) : PassFrame true d (d.deliverRound0 h g out) := by
  unfold Dev.deliverRound0
  exact (d.passFrame_keepOut0 h g out).onDh h fun s => (PassedHead.map_jobs s _).trans (.saw _ g)

theorem Dev.passFrame_deliverTurbo (h : Nat) (k : GroupKey) (out : List (List Int)) : PassFrame true d (d.deliverTurbo h k out) := by
  unfold Dev.deliverTurbo
  exact (PassFrame.refl d).onDh h fun s => .map_jobs s _

theorem Dev.passFrame_runPass (u h : Nat) (k : GroupKey) (round : Nat) (lost : LostWords) :
    PassFrame active d (d.runPass u h k round active lost) := by
  have erased := (PassFrame.refl (active := active) d).onDh h
    (g := fun s => { s with store := onGroup s.store k fun g => { g with lost := g.lost ++ lost.map fun e => (e.1.val, e.2.val) } })
    fun s => .of_jobs_eq rfl rfl rfl
  unfold Dev.runPass
  dsimp only
  split
  · exact erased
  · refine ((erased.when fun _ n => (PassFrame.refl n).putBit _ true).when fun ha n => ?_).trans (Dev.passFrame_adaptLat ..)
    subst ha
    split
    · exact n.passFrame_deliverTurbo h k _
    · exact n.passFrame_deliverRound0 h _ _

end

/-! ## Hand-offs of Lattice units (R386, R388) -/

section
variable (d : Dev)

theorem Dev.detectFrame_swapUnits (c out inn : Nat) : DetectFrame d (d.swapUnits c out inn) := by
  have entered : DetectFrame d (if d.unit c inn = .spare then d.setUnit c inn .inService else d) := by
    split
    · exact (DetectFrame.refl d).setUnit ..
    · exact .refl d
  unfold Dev.swapUnits
  dsimp only
  generalize (if d.unit c inn = .spare then d.setUnit c inn .inService else d) = d' at entered
  split
  · exact entered.setUnit ..
  · exact entered

theorem Dev.detectFrame_handoffDone (c out inn : Nat) : DetectFrame d (d.handoffDone c out inn) := by
  unfold Dev.handoffDone
  exact ((((((DetectFrame.refl d).putBit _ _).putBit _ _).count _).trans (Dev.detectFrame_swapUnits _ c out inn)).eventFor ..).drew

theorem Dev.detectFrame_latticeHandoff (h : Nat) : DetectFrame d (d.latticeHandoff h) := by
  unfold Dev.latticeHandoff
  split
  · exact .refl d
  · dsimp only
    split
    · exact (((((DetectFrame.refl d).onDh h _).put _ _).put _ _).trans (Dev.detectFrame_handoffDone _ 5 _ _)).regs
        (Dev.regsOnly_showLat _ h)
    · exact (((DetectFrame.refl d).onDh h _).putBit _ _).putBit _ _ |>.count _

theorem Dev.latticeHandoff_of_none {h : Nat} (hn : (d.dh h).handoff = none) : d.latticeHandoff h = d := by
  unfold Dev.latticeHandoff
  rw [hn]

end

/-! ## The end of a pass -/

/-- The Active unit u of head h has run its pass in front: it is an event, and its outputs are delivered. -/
def Dev.passRun (d : Dev) (u h : Nat) (k : GroupKey) (round : Nat) (lost : LostWords) : Dev :=
  (d.event .latticeResult u 0 [k.band, k.quad, k.slot, round]).runPass u h k round true lost

/-- The pass that comes next is one of round 0. -/
def roundZeroNext : List (GroupKey × Nat) → Bool
  | (_, 0) :: _ => true
  | _ => false

/-- The pass of group k in front of head h is done, and `rest` waits: blank frames end, and the next group begins. -/
def Dev.passLeaves (d : Dev) (u h : Nat) (k : GroupKey) (rest : List (GroupKey × Nat)) : Dev :=
  ((d.onDh h fun s => { s with passes := rest }).endBlank h k).when (roundZeroNext rest) fun d => d.beginGroup u

section
variable {d : Dev} {u h : Nat} {k : GroupKey} {round : Nat} {rest : List (GroupKey × Nat)} {lost : LostWords}

theorem Dev.passDone_of_active (hm : d.fld (Fld.LAT_CTRL_MODE u) = 1) (hp : (d.dh (d.fld (Fld.LAT_CTRL_HEAD u))).passes = (k, round) :: rest) :
    d.passDone u lost = (((d.passRun u (d.fld (Fld.LAT_CTRL_HEAD u)) k round lost).passLeaves u (d.fld (Fld.LAT_CTRL_HEAD u)) k
      rest).latticeHandoff (d.fld (Fld.LAT_CTRL_HEAD u))).showLat (d.fld (Fld.LAT_CTRL_HEAD u)) := by
  unfold Dev.passDone
  dsimp only
  rw [if_neg (by rw [hm]; decide), if_pos hm, hp]
  rfl

theorem Dev.passDone_of_shadow (hm : d.fld (Fld.LAT_CTRL_MODE u) = 2) (hk : shadowGroup (d.dh (d.fld (Fld.LAT_CTRL_HEAD u))) = some k) :
    d.passDone u lost = ((d.beginGroup u).runPass u (d.fld (Fld.LAT_CTRL_HEAD u)) k 0 false lost).onLat u
      fun s => { s with shadowed := true } := by
  unfold Dev.passDone
  dsimp only
  rw [if_pos hm, hk]

theorem Dev.passDone_of_nothing (hn : d.fld (Fld.LAT_CTRL_MODE u) = 0 ∨
    d.fld (Fld.LAT_CTRL_MODE u) = 1 ∧ (d.dh (d.fld (Fld.LAT_CTRL_HEAD u))).passes = [] ∨
    d.fld (Fld.LAT_CTRL_MODE u) = 2 ∧ shadowGroup (d.dh (d.fld (Fld.LAT_CTRL_HEAD u))) = none) : d.passDone u lost = d := by
  unfold Dev.passDone
  dsimp only
  rcases hn with off | ⟨active, idle⟩ | ⟨shadow, empty⟩
  · rw [if_neg (by rw [off]; decide), if_neg (by rw [off]; decide)]
  · rw [if_neg (by rw [active]; decide), if_pos active, idle]
  · rw [if_pos shadow, empty]

theorem Dev.detectFrame_passLeaves : DetectFrame d (d.passLeaves u h k rest) :=
  (((DetectFrame.refl d).onDh h _).trans (Dev.detectFrame_endBlank _ h k)).when fun n => n.passFrame_beginGroup (active := true) u |>.detectFrame

theorem Dev.dh_when_beginGroup (c : Bool) (x : Nat) : (d.when c fun d => d.beginGroup u).dh x = d.dh x := by
  cases c with
  | true => exact Dev.dh_of_heads_eq (d.heads_beginGroup u) x
  | false => rfl

/-- Without frame jobs, the head goes on with the passes that wait and nothing else. -/
theorem Dev.dh_passLeaves (hj : (d.dh h).jobs = []) : (d.passLeaves u h k rest).dh h = { d.dh h with passes := rest } := by
  have idle : ((d.onDh h fun s => { s with passes := rest }).dh h).jobs = [] := by rw [Dev.dh_onDh_self]; exact hj
  rw [Dev.passLeaves, Dev.endBlank_of_no_jobs _ k idle, Dev.dh_when_beginGroup, Dev.dh_onDh_self]

theorem Dev.passFrame_passRun : PassFrame true (d.event .latticeResult u 0 [k.band, k.quad, k.slot, round]) (d.passRun u h k round lost) :=
  Dev.passFrame_runPass ..

theorem Dev.head_passRun : PassedHead true (d.dh h) ((d.passRun u h k round lost).dh h) := by
  have same : (d.event .latticeResult u 0 [k.band, k.quad, k.slot, round]).dh h = d.dh h :=
    Dev.dh_of_det_eq (by rw [Dev.event_only]) h
  exact same ▸ Dev.passFrame_passRun.heads h

/-- The event of a pass is in the log before all that follows from the pass. -/
theorem Dev.log_passDone (hm : d.fld (Fld.LAT_CTRL_MODE u) = 1)
    (hp : (d.dh (d.fld (Fld.LAT_CTRL_HEAD u))).passes = (k, round) :: rest) :
    (⟨d.esn, 0, .latticeResult, u, 0, [k.band, k.quad, k.slot, round]⟩ :: d.log) <:+ (d.passDone u lost).log := by
  rw [Dev.passDone_of_active hm hp]
  exact ((Dev.passFrame_passRun.detectFrame.trans Dev.detectFrame_passLeaves).trans (Dev.detectFrame_latticeHandoff _ _)).regs
    (Dev.regsOnly_showLat _ _) |>.log

/-- Where no job and no hand-off waits, the pass in front is done. -/
theorem Dev.passes_passDone (hm : d.fld (Fld.LAT_CTRL_MODE u) = 1)
    (hp : (d.dh (d.fld (Fld.LAT_CTRL_HEAD u))).passes = (k, round) :: rest) (hj : (d.dh (d.fld (Fld.LAT_CTRL_HEAD u))).jobs = [])
    (hn : (d.dh (d.fld (Fld.LAT_CTRL_HEAD u))).handoff = none) :
    ((d.passDone u lost).dh (d.fld (Fld.LAT_CTRL_HEAD u))).passes = rest := by
  rw [Dev.passDone_of_active hm hp]
  generalize d.fld (Fld.LAT_CTRL_HEAD u) = h at hj hn
  obtain ⟨-, handoff, f, -, jobs⟩ := d.head_passRun (u := u) (h := h) (k := k) (round := round) (lost := lost)
  have idle : ((d.passRun u h k round lost).dh h).jobs = [] := by rw [jobs, hj]; rfl
  have left := Dev.dh_passLeaves (u := u) (k := k) (rest := rest) idle
  rw [(Dev.regsOnly_showLat _ h).dh, Dev.latticeHandoff_of_none _ (by rw [left]; exact handoff.trans hn), left]

end

/-! ## Obligation O31 -/

section
variable {s : State} {u : LatUnit} {lost : LostWords}

theorem completes_latticePassDone_of_shadow (hm : s.dev.fld (Fld.LAT_CTRL_MODE u) = 2)
    (hg : (shadowGroup (s.dev.dh (s.dev.fld (Fld.LAT_CTRL_HEAD u)))).isSome = true) :
    Completes (.latticePassDone u lost) s fun d => (d.lat u).shadowed = true ∧
      (∀ x, (d.dh x).jobs = (s.dev.dh x).jobs ∧ (d.dh x).passes = (s.dev.dh x).passes) ∧
      d.log = s.dev.log ∧ d.locus = s.dev.locus := by
  obtain ⟨k, hk⟩ := Option.isSome_iff_exists.1 hg
  refine Completes.of_on (fun d => d.passDone u lost) rfl ?_
  rw [Dev.passDone_of_shadow hm hk]
  have passed := ((s.dev.passFrame_beginGroup (active := false) u).trans
    (Dev.passFrame_runPass _ u (s.dev.fld (Fld.LAT_CTRL_HEAD u)) k 0 lost)).onLat u fun s => { s with shadowed := true }
  exact ⟨by rw [Dev.lat_onLat_self], fun x => (passed.heads x).quiet, by rw [passed.only], by rw [passed.only]⟩

theorem completes_latticePassDone_of_active {p : GroupKey × Nat} {rest : List (GroupKey × Nat)}
    (hm : s.dev.fld (Fld.LAT_CTRL_MODE u) = 1) (hp : (s.dev.dh (s.dev.fld (Fld.LAT_CTRL_HEAD u))).passes = p :: rest) :
    Completes (.latticePassDone u lost) s fun d =>
      (⟨s.dev.esn, 0, .latticeResult, u, 0, [p.1.band, p.1.quad, p.1.slot, p.2]⟩ :: s.dev.log) <:+ d.log ∧
      ((s.dev.dh (s.dev.fld (Fld.LAT_CTRL_HEAD u))).jobs = [] → (s.dev.dh (s.dev.fld (Fld.LAT_CTRL_HEAD u))).handoff = none →
        (d.dh (s.dev.fld (Fld.LAT_CTRL_HEAD u))).passes = rest) :=
  Completes.of_on (fun d => d.passDone u lost) rfl ⟨Dev.log_passDone hm hp, Dev.passes_passDone hm hp⟩

theorem exec_latticePassDone_of_nothing (hn : s.dev.fld (Fld.LAT_CTRL_MODE u) = 0 ∨
    s.dev.fld (Fld.LAT_CTRL_MODE u) = 1 ∧ (s.dev.dh (s.dev.fld (Fld.LAT_CTRL_HEAD u))).passes = [] ∨
    s.dev.fld (Fld.LAT_CTRL_MODE u) = 2 ∧ shadowGroup (s.dev.dh (s.dev.fld (Fld.LAT_CTRL_HEAD u))) = none) :
    exec (.latticePassDone u lost) s = .next s :=
  State.on_of_eq_self (f := fun d => d.passDone u lost) (Dev.passDone_of_nothing hn)

end

/-- A slice delivers where none of what silences one holds. -/
theorem Dev.delivers_eq_false_iff (d : Dev) (n : Nat) : d.delivers n = false ↔
    d.sliceMode n ≠ 1 ∨ (d.slice n).freqHeld = true ∨ d.writing (n / 10) = true ∨ (d.head (n / 10)).paused = true := by
  simp only [Dev.delivers, Bool.and_eq_false_iff, Bool.not_eq_false', beq_eq_false_iff_ne, or_assoc]

/-- Settles O31, a clause at a time: what leaves a slice and which group takes it, when a group is complete, and what a pass of a
Shadow and of an Active unit changes. -/
theorem groupsFillAndComplete : Obligations.GroupsFillAndComplete := by
  intro s n f h k u lost fh pos own silent lh waits
  have delivers : s.dev.delivers n = false ↔ silent := s.dev.delivers_eq_false_iff n
  refine ⟨fun hn => exec_fragment_of_nothing (hn.imp_left fun ⟨hs, hm⟩ => ⟨delivers.2 hs, hm⟩),
    fun r hh hm hf => completes_fragment_of_shadow hh hm hf, fun r hh hs hf => ?data,
    fun x hx => ⟨completes_groupDeadline hx, completes_groupComplete hx, exec_groupComplete_of_part hx⟩,
    fun hx => ⟨exec_groupComplete_of_none hx, exec_groupDeadline_of_none hx⟩, completes_latticePassDone_of_shadow,
    fun p rest => completes_latticePassDone_of_active, exec_latticePassDone_of_nothing⟩
  case data =>
    have active : s.dev.sliceMode n = 1 := not_not.1 fun hm => hs (.inl hm)
    exact completes_fragment_of_data hh (by simpa using mt delivers.1 hs) active hf

end Sys2Proof.Machine

/-! PROOFS. Lattice units (O32): faults, takeovers and modes. -/

namespace Sys2Proof.Machine

/-! ## Registers that heads and Lattice units show -/

/-- The registers in which Lattice units show GROUPS and BUSY. -/
def latStatusRegs : List Nat := (List.range 3).map Adr.LAT_STATUS

/-- The registers in which a Lattice unit shows its taps and variances (R97). -/
def latTapRegs (u : Nat) : List Nat := (List.range 8).flatMap fun p => [Adr.LAT_ITI_I u p, Adr.LAT_ITI_O u p, Adr.LAT_SIGMA u p]

section
variable (d : Dev)

theorem Dev.sameRegs_showLat (h : Nat) : SameRegs d (d.showLat h) latStatusRegs := by
  unfold Dev.showLat
  refine SameRegs.each _ (fun n u hu => ?_) d
  have shown : Adr.LAT_STATUS u ∈ latStatusRegs := List.mem_map_of_mem hu
  split
  · exact ((SameRegs.refl n _).put shown).putBit shown
  · exact .refl n _

theorem Dev.sameRegs_showTaps (u : Nat) : SameRegs d (d.showTaps u) (latTapRegs u) := by
  unfold Dev.showTaps
  refine SameRegs.each _ (fun n p hp => ?_) d
  have shown : ∀ a ∈ [Adr.LAT_ITI_I u p, Adr.LAT_ITI_O u p, Adr.LAT_SIGMA u p], a ∈ latTapRegs u :=
    fun a ha => List.mem_flatMap.2 ⟨p, hp, ha⟩
  exact (((SameRegs.refl n _).setReg (shown _ (by simp))).setReg (shown _ (by simp))).put (shown _ (by simp [Fld.LAT_SIGMA_VAR]))

end

theorem headIx_lt (h : Head) : h.ix < 2 := by cases h <;> decide

/-! ## Faults (R104, R380) -/

/-- The unit u shows its fault and is Off. -/
def Dev.latticeOff (d : Dev) (u : Nat) : Dev :=
  (((d.putBit (Fld.LAT_STATUS_FAULT u) true).event .latticeFault u 0 []).put (Fld.LAT_CTRL_MODE u) 0).putBit (Fld.LAT_STATUS_BUSY u) false

/-- The hand-off of head k fails. -/
def Dev.headHandoffFails (d : Dev) (k : Nat) : Dev := d.handoffFails.onDh k fun s => { s with handoff := none }

/-- The hand-offs of heads fail. -/
def Dev.handoffsFail (d : Dev) (l : List Nat) : Dev := d.each l Dev.headHandoffFails

/-- The unit of head h that a fault leaves to take its place, if any. -/
def Dev.takerOf (d : Dev) (h u : Nat) : Option Nat :=
  match (d.dh h).handoff with
  | some (inn, out) => if out = u then some inn else none
  | none => none

/-- The hand-off of head k names unit u. -/
def Dev.handoffNames (d : Dev) (u k : Nat) : Bool :=
  match (d.dh k).handoff with
  | some p => p.1 == u || p.2 == u
  | none => false

section
variable (d : Dev)

/-- What a fault of unit u of head h leaves: the unit retired, the hand-offs that name it ended, and the unit of its own kept. -/
def Dev.latticeLeft (d : Dev) (u h : Nat) (cause : Esn) : Dev :=
  let off := (d.latticeOff u).retireUnit 5 u cause
  (off.handoffsFail ([0, 1].filter (off.handoffNames u))).onDh h fun s => { s with taker := off.takerOf h u }

/-- Head h waits for a takeover from unit u. -/
def Dev.awaitTakeover (d : Dev) (h u : Nat) : Dev := d.onDh h fun s => { s with failed := some u }

theorem Dev.latticeFault_of_works {u : Nat} (h : d.dead 5 u = false) :
    let head := d.fld (Fld.LAT_CTRL_HEAD u)
    let left := d.latticeLeft u head d.esn
    d.latticeFault u = left.when (d.fld (Fld.LAT_CTRL_MODE u) == 1 && (left.bit Fld.LAT_SPARE_AUTO ||
      (((d.latticeOff u).retireUnit 5 u d.esn).takerOf head u).isSome)) fun d => d.awaitTakeover head u := by
  unfold Dev.latticeFault
  rw [if_neg (by simp [h])]
  rfl

theorem Dev.units_handoffsFail (l : List Nat) : (d.handoffsFail l).units = d.units :=
  Dev.each_induction (fun n => n.units = d.units) Dev.headHandoffFails (fun _ _ hn => hn) l d rfl

theorem Dev.sameRegs_headHandoffFails (k : Nat) : SameRegs d (d.headHandoffFails k) [Adr.SPR_HANDOFF, Adr.SPR_CNT 3] := by
  have fails : SameRegs d d.handoffFails [Adr.SPR_HANDOFF, Adr.SPR_CNT 3] :=
    (((SameRegs.refl d _).putBit (by decide)).putBit (by decide)).count (by decide)
  exact fails.trans (SameRegs.of_regs_eq rfl)

theorem Dev.sameRegs_handoffsFail (l : List Nat) : SameRegs d (d.handoffsFail l) [Adr.SPR_HANDOFF, Adr.SPR_CNT 3] :=
  SameRegs.each l (fun n k _ => n.sameRegs_headHandoffFails k) d

/-- The registers that a fault writes once its unit is Off. -/
def latticeLeftRegs (u : Nat) : List Nat := retireRegs 5 u ++ [Adr.SPR_HANDOFF, Adr.SPR_CNT 3]

theorem Dev.dead_latticeLeft (u h : Nat) (cause : Esn) : (d.latticeLeft u h cause).dead 5 u = true :=
  (Dev.dead_congr (Dev.units_handoffsFail _ _) 5 u).trans (Dev.dead_retireUnit ..)

theorem Dev.sameRegs_latticeLeft (u h : Nat) (cause : Esn) :
    SameRegs (d.latticeOff u) (d.latticeLeft u h cause) (latticeLeftRegs u) :=
  ((Dev.sparingFrame_retireUnit _ 5 u cause).regs.mono (List.subset_append_left ..)).trans
    ((Dev.sameRegs_handoffsFail _ _).mono (List.subset_append_right ..)) |>.trans (SameRegs.of_regs_eq rfl)

theorem latRegs_notMem_left (u : LatUnit) : Adr.LAT_STATUS u ∉ latticeLeftRegs u ∧ Adr.LAT_CTRL u ∉ latticeLeftRegs u ∧
    Adr.LAT_SPARE ∉ latticeLeftRegs u := by
  revert u; decide

theorem Dev.sameRegs_latticeOff (u : Nat) :
    SameRegs d (d.latticeOff u) [Adr.LAT_STATUS u, Adr.LAT_CTRL u, Adr.LOCUS_STATUS] := by
  have flagged := (SameRegs.refl d [Adr.LAT_STATUS u, Adr.LAT_CTRL u, Adr.LOCUS_STATUS]).putBit (f := Fld.LAT_STATUS_FAULT u)
    (b := true) (by simp [Fld.LAT_STATUS_FAULT])
  exact ((flagged.trans ((Dev.sameRegs_event _ _ _ _ _).mono (by simp))).put (by simp [Fld.LAT_CTRL_MODE])).putBit
    (by simp [Fld.LAT_STATUS_BUSY])

theorem Dev.fld_latticeOff_mode (u : LatUnit) : (d.latticeOff u).fld (Fld.LAT_CTRL_MODE u) = 0 := by
  unfold Dev.latticeOff Dev.putBit
  rw [Dev.fld_put_ne _ _ _ _ (by simp [Fld.LAT_STATUS_BUSY])
      (.inl (by simp [Fld.LAT_CTRL_MODE, Fld.LAT_STATUS_BUSY, Adr.LAT_CTRL, Adr.LAT_STATUS])),
    Dev.fld_put_self _ _ _ (by simp [Fld.LAT_CTRL_MODE])]
  rfl

theorem Dev.bit_latticeOff_fault (u : LatUnit) : (d.latticeOff u).bit (Fld.LAT_STATUS_FAULT u) = true := by
  have apart : (Fld.LAT_STATUS_FAULT u).adr ≠ (Fld.LAT_CTRL_MODE u).adr ∧ (Fld.LAT_STATUS_FAULT u).adr ∉ [Adr.LOCUS_STATUS] := by
    revert u; decide
  unfold Dev.latticeOff
  rw [Dev.bit_putBit_ne _ _ _ _ (.inr (.inr (by simp [Fld.LAT_STATUS_FAULT, Fld.LAT_STATUS_BUSY])))
      (by simp [Fld.LAT_STATUS_BUSY]), Dev.bit_put_ne _ _ _ _ (.inl apart.1) (by simp [Fld.LAT_CTRL_MODE]),
    (Dev.sameRegs_event _ _ _ _ _).bit apart.2]
  exact Dev.bit_putBit_self _ _ _ rfl (by simp [Fld.LAT_STATUS_FAULT])

theorem latSpare_notMem_off (u : LatUnit) : Adr.LAT_SPARE ∉ [Adr.LAT_STATUS u, Adr.LAT_CTRL u, Adr.LOCUS_STATUS] := by
  revert u; decide

end

section
variable {s : State} {u : LatUnit}

theorem exec_latticeFault_of_dead (hd : s.dev.dead 5 u = true) : exec (.latticeFault u) s = .next s :=
  State.on_of_eq_self (f := fun d => d.latticeFault u) (if_pos hd)

theorem completes_latticeFault (hd : s.dev.dead 5 u = false) : Completes (.latticeFault u) s fun d =>
    d.dead 5 u = true ∧ d.bit (Fld.LAT_STATUS_FAULT u) = true ∧ d.fld (Fld.LAT_CTRL_MODE u) = 0 ∧
    (s.dev.fld (Fld.LAT_CTRL_MODE u) = 1 → s.dev.bit Fld.LAT_SPARE_AUTO = true →
      (d.dh (s.dev.fld (Fld.LAT_CTRL_HEAD u))).failed = some u.val) := by
  obtain ⟨status, ctrl, spare⟩ := latRegs_notMem_left u
  have off := s.dev.sameRegs_latticeOff u
  have left := s.dev.sameRegs_latticeLeft u (s.dev.fld (Fld.LAT_CTRL_HEAD u)) s.dev.esn
  refine Completes.of_on (fun d => d.latticeFault u) rfl ?_
  rw [Dev.latticeFault_of_works _ hd]
  set n := s.dev.latticeLeft u (s.dev.fld (Fld.LAT_CTRL_HEAD u)) s.dev.esn with hn
  have dead : n.dead 5 u = true := Dev.dead_latticeLeft ..
  have stands {c : Bool} : SameRegs (s.dev.latticeOff u) (n.when c fun d => d.awaitTakeover (s.dev.fld (Fld.LAT_CTRL_HEAD u)) u)
      (latticeLeftRegs u) := left.when (SameRegs.of_regs_eq rfl)
  refine ⟨?_, ?_, ?_, fun active auto => ?_⟩
  · rw [Dev.when]
    split <;> exact dead
  · exact (stands.bit status).trans (s.dev.bit_latticeOff_fault u)
  · exact (stands.fld ctrl).trans (s.dev.fld_latticeOff_mode u)
  · have waits : n.bit Fld.LAT_SPARE_AUTO = true := by
      rw [left.bit spare, off.bit (latSpare_notMem_off u), auto]
    clear_value n
    rw [active, waits, Bool.true_or, Bool.and_true, beq_self_eq_true, Dev.when_true, Dev.awaitTakeover, Dev.dh_onDh_self]

end

/-! ## Takeovers (R104, R485) -/

section
variable (d : Dev)

theorem Dev.sameRegs_setTaps (u : Nat) (i o : List (List Int)) (sigma : List Nat) :
    SameRegs d (d.setTaps u i o sigma) (latTapRegs u) := by
  have kept : SameRegs d (d.onLat u fun s => { s with inner := i, outer := o, sigma := sigma }) (latTapRegs u) :=
    SameRegs.of_regs_eq rfl
  exact kept.trans (Dev.sameRegs_showTaps _ u)

theorem Dev.units_setTaps (u : Nat) (i o : List (List Int)) (sigma : List Nat) : (d.setTaps u i o sigma).units = d.units := by
  rw [Dev.setTaps, Dev.regsOnly_showTaps]
  rfl

/-- The Shadow role of a head is filled by a unit that had no role: one that has a role keeps MODE and HEAD (R485). -/
theorem Dev.reg_refillShadow (h : Nat) {v : Nat} (hv : d.fld (Fld.LAT_CTRL_MODE v) ≠ 0) (hl : v < 3) :
    (d.refillShadow h).reg (Adr.LAT_CTRL v) = d.reg (Adr.LAT_CTRL v) := by
  unfold Dev.refillShadow
  split
  next u hu =>
    have idle : d.fld (Fld.LAT_CTRL_MODE u) = 0 := by
      have found := List.find?_some hu
      simp only [Bool.and_eq_true, beq_iff_eq] at found
      exact found.1
    have apart : Adr.LAT_CTRL v ≠ Adr.LAT_CTRL u := fun he => hv (by
      have : v = u := by unfold Adr.LAT_CTRL at he; omega
      rw [this, idle])
    have spare : Adr.LAT_CTRL v ≠ Adr.LAT_SPARE := by unfold Adr.LAT_CTRL Adr.LAT_SPARE; omega
    calc _ = (((d.put (Fld.LAT_CTRL_MODE u) 2).put (Fld.LAT_CTRL_HEAD u) h).put Fld.LAT_SPARE_UNIT u).reg (Adr.LAT_CTRL v) := rfl
      _ = d.reg (Adr.LAT_CTRL v) := by rw [Dev.reg_put_ne _ _ _ spare, Dev.reg_put_ne _ _ _ apart, Dev.reg_put_ne _ _ _ apart]
  next => rfl

theorem Dev.failed_refillShadow (h : Nat) : ((d.refillShadow h).dh h).failed = (d.dh h).failed := by
  unfold Dev.refillShadow
  split
  · rw [Dev.dh_onDh_self]; rfl
  · rw [Dev.dh_onDh_self]

/-- Unit v is Active on head h in the place of unit u, with its taps and variances. -/
def Dev.takesOver (d : Dev) (h u v : Nat) : Dev :=
  let t := d.lat u
  ((((d.put (Fld.LAT_CTRL_MODE v) 1).put (Fld.LAT_CTRL_HEAD v) h).setTaps v t.inner t.outer t.sigma).substitute 5 u v 0).onDh h
    fun s => { s with failed := none, taker := none }

/-- The unit that takes over from a failed one, as a take-over of head h would find it. -/
def Dev.takerFor (d : Dev) (h : Nat) : Nat := ((d.dh h).taker).getD (d.fld Fld.LAT_SPARE_UNIT)

variable {d} {h u : Nat}

theorem Dev.takeover_of_none (hf : (d.dh h).failed = none) : d.takeover h = d := by
  unfold Dev.takeover
  rw [hf]

theorem Dev.takeover_of_active (hf : (d.dh h).failed = some u) (ha : (d.activeLat h).isSome = true) :
    d.takeover h = d.onDh h fun s => { s with failed := none, taker := none } := by
  unfold Dev.takeover
  rw [hf]
  exact if_pos ha

theorem Dev.takeover_of_unfit (hf : (d.dh h).failed = some u) (ha : d.activeLat h = none)
    (hv : d.dead 5 (d.takerFor h) = true ∨ d.takerFor h = u ∨ d.fld (Fld.LAT_CTRL_MODE (d.takerFor h)) = 1) : d.takeover h = d := by
  unfold Dev.takeover
  rw [hf]
  exact (if_neg (by simp [ha])).trans (if_pos hv)

theorem Dev.takeover_of_fit (hf : (d.dh h).failed = some u) (ha : d.activeLat h = none)
    (hv : ¬(d.dead 5 (d.takerFor h) = true ∨ d.takerFor h = u ∨ d.fld (Fld.LAT_CTRL_MODE (d.takerFor h)) = 1)) :
    d.takeover h = ((((d.takesOver h u (d.takerFor h)).refillShadow h).judge 5).showLat h) := by
  unfold Dev.takeover
  rw [hf]
  exact (if_neg (by simp [ha])).trans (if_neg hv)

theorem latCtrl_notMem (v : LatUnit) : Adr.LAT_CTRL v ∉ substituteRegs ∧ Adr.LAT_CTRL v ∉ latTapRegs v ∧
    Adr.LAT_CTRL v ∉ judgeRegs 5 ∧ Adr.LAT_CTRL v ∉ latStatusRegs := by
  revert v; decide

/-- MODE and HEAD of a unit that is written Active on head h, or in another mode. -/
theorem Dev.fld_lat_put (d : Dev) (v : Nat) {mode h : Nat} (hm : mode < 4) (hh : h < 2) :
    let n := (d.put (Fld.LAT_CTRL_MODE v) mode).put (Fld.LAT_CTRL_HEAD v) h
    n.fld (Fld.LAT_CTRL_MODE v) = mode ∧ n.fld (Fld.LAT_CTRL_HEAD v) = h := by
  intro n
  constructor
  · rw [Dev.fld_put_ne _ _ _ _ (by simp [Fld.LAT_CTRL_HEAD]) (.inr (.inl (by simp [Fld.LAT_CTRL_MODE, Fld.LAT_CTRL_HEAD]))),
      Dev.fld_put_self _ _ _ (by simp [Fld.LAT_CTRL_MODE])]
    exact Nat.mod_eq_of_lt hm
  · rw [Dev.fld_put_self _ _ _ (by simp [Fld.LAT_CTRL_HEAD])]
    exact Nat.mod_eq_of_lt hh

theorem Dev.takesOver_spec (v : LatUnit) (hh : h < 2) (hd : d.dead 5 v = false) :
    (d.takesOver h u v).fld (Fld.LAT_CTRL_MODE v) = 1 ∧ (d.takesOver h u v).fld (Fld.LAT_CTRL_HEAD v) = h ∧
      ((d.takesOver h u v).dh h).failed = none := by
  obtain ⟨counted, taps, -⟩ := latCtrl_notMem v
  obtain ⟨mode, head⟩ := d.fld_lat_put v (mode := 1) (h := h) (by decide) hh
  set n := (d.put (Fld.LAT_CTRL_MODE v) 1).put (Fld.LAT_CTRL_HEAD v) h
  have works : (n.setTaps v (d.lat u).inner (d.lat u).outer (d.lat u).sigma).dead 5 v = false :=
    (Dev.dead_congr (Dev.units_setTaps ..) 5 v).trans hd
  have same : (d.takesOver h u v).reg (Adr.LAT_CTRL v) = n.reg (Adr.LAT_CTRL v) :=
    ((Dev.sparingFrame_substitute _ 5 u v 0 works).regs _ counted).trans (n.sameRegs_setTaps _ _ _ _ _ taps)
  refine ⟨(Dev.fld_of_reg_eq same).trans mode, (Dev.fld_of_reg_eq same).trans head, ?_⟩
  rw [Dev.takesOver, Dev.dh_onDh_self]

end

section
variable {s : State} {h : Head} {u : Nat}

theorem exec_latticeTakeover_of_none (hf : (s.dev.dh h.ix).failed = none) : exec (.latticeTakeover h) s = .next s :=
  State.on_of_eq_self (f := fun d => d.takeover h.ix) (Dev.takeover_of_none hf)

theorem completes_latticeTakeover_of_active (hf : (s.dev.dh h.ix).failed = some u) (ha : (s.dev.activeLat h.ix).isSome = true) :
    Completes (.latticeTakeover h) s fun d => (d.dh h.ix).failed = none ∧ d.activeLat h.ix = s.dev.activeLat h.ix ∧
      d = { s.dev with det := d.det } := by
  refine Completes.of_on (fun d => d.takeover h.ix) rfl ?_
  rw [Dev.takeover_of_active hf ha]
  exact ⟨by rw [Dev.dh_onDh_self], rfl, rfl⟩

theorem exec_latticeTakeover_of_unfit (hf : (s.dev.dh h.ix).failed = some u) (ha : s.dev.activeLat h.ix = none)
    (hv : s.dev.dead 5 (s.dev.takerFor h.ix) = true ∨ s.dev.takerFor h.ix = u ∨ s.dev.fld (Fld.LAT_CTRL_MODE (s.dev.takerFor h.ix)) = 1) :
    exec (.latticeTakeover h) s = .next s :=
  State.on_of_eq_self (f := fun d => d.takeover h.ix) (Dev.takeover_of_unfit hf ha hv)

theorem completes_latticeTakeover_of_fit (hf : (s.dev.dh h.ix).failed = some u) (ha : s.dev.activeLat h.ix = none)
    (hl : s.dev.takerFor h.ix < 3) (hd : s.dev.dead 5 (s.dev.takerFor h.ix) = false) (hu : s.dev.takerFor h.ix ≠ u)
    (hm : s.dev.fld (Fld.LAT_CTRL_MODE (s.dev.takerFor h.ix)) ≠ 1) : Completes (.latticeTakeover h) s fun d =>
      d.fld (Fld.LAT_CTRL_MODE (s.dev.takerFor h.ix)) = 1 ∧ d.fld (Fld.LAT_CTRL_HEAD (s.dev.takerFor h.ix)) = h.ix ∧
      (d.dh h.ix).failed = none := by
  refine Completes.of_on (fun d => d.takeover h.ix) rfl ?_
  rw [Dev.takeover_of_fit hf ha (by simp [hd, hu, hm])]
  generalize hv : s.dev.takerFor h.ix = v at hl hd hu hm
  lift v to LatUnit using hl
  obtain ⟨-, -, judged, shown⟩ := latCtrl_notMem v
  obtain ⟨mode, head, failed⟩ := Dev.takesOver_spec (u := u) v (headIx_lt h) hd
  set n := s.dev.takesOver h.ix u v
  have judge := (n.refillShadow h.ix).sparingFrame_judge 5
  have same : ((((n.refillShadow h.ix).judge 5).showLat h.ix)).reg (Adr.LAT_CTRL v) = n.reg (Adr.LAT_CTRL v) :=
    ((Dev.sameRegs_showLat _ _ _ shown).trans (judge.regs _ judged)).trans (n.reg_refillShadow h.ix (by simp [mode]) v.isLt)
  refine ⟨(Dev.fld_of_reg_eq same).trans mode, (Dev.fld_of_reg_eq same).trans head, ?_⟩
  rw [(Dev.regsOnly_showLat _ _).dh, Dev.dh_of_det_eq (d := n.refillShadow h.ix) (by rw [judge.only]), Dev.failed_refillShadow, failed]

end

/-! ## Modes and reseeds (R102, R103) -/

section
variable {s : State} {u : LatUnit} {h : Head} {mode : BitVec 2}

theorem completes_latticeSetMode (ok : s.dev.latModeOk u mode.toNat h.ix = true) : Completes (.latticeSetMode u mode h) s fun d =>
    d.fld (Fld.LAT_CTRL_MODE u) = mode.toNat ∧ d.fld (Fld.LAT_CTRL_HEAD u) = h.ix ∧
    d = { s.dev with regs := d.regs, det := d.det } := by
  obtain ⟨-, -, -, shown⟩ := latCtrl_notMem u
  refine Completes.of_on (fun d => d.latSetMode u mode.toNat h.ix) rfl ?_
  rw [Dev.latSetMode, if_pos ok]
  dsimp only
  generalize s.dev.fld (Fld.LAT_CTRL_HEAD u) = was
  generalize (s.dev.fld (Fld.LAT_CTRL_MODE u) != mode.toNat || was != h.ix) = c
  generalize hm : (s.dev.when c fun d => d.onLat u fun s => { s with shadowed := false }) = m
  have cleared : m = { s.dev with det := m.det } := by
    subst hm
    cases c <;> rfl
  obtain ⟨isMode, isHead⟩ := m.fld_lat_put u mode.isLt (headIx_lt h)
  set n := (m.put (Fld.LAT_CTRL_MODE u) mode.toNat).put (Fld.LAT_CTRL_HEAD u) h.ix
  have same : ((n.showLat was).showLat h.ix).reg (Adr.LAT_CTRL u) = n.reg (Adr.LAT_CTRL u) :=
    (Dev.sameRegs_showLat _ _ _ shown).trans (Dev.sameRegs_showLat _ _ _ shown)
  refine ⟨(Dev.fld_of_reg_eq same).trans isMode, (Dev.fld_of_reg_eq same).trans isHead, ?_⟩
  have after : RegsOnly m ((n.showLat was).showLat h.ix) :=
    ((((RegsOnly.refl m).put _ _).put _ _).trans (n.regsOnly_showLat was)).trans (Dev.regsOnly_showLat _ h.ix)
  rw [after, cleared]

theorem exec_latticeSetMode_discarded (ok : s.dev.latModeOk u mode.toNat h.ix = false) :
    exec (.latticeSetMode u mode h) s = .next s :=
  State.on_of_eq_self (f := fun d => d.latSetMode u mode.toNat h.ix) (if_neg (by simp [ok]))

theorem completes_itiReseed : Completes (.itiReseed u) s fun d => (d.lat u).reseed = true ∧ d.det.heads = s.dev.det.heads ∧
    d = { s.dev with det := d.det } ∧ ∀ w, w ≠ u.val → d.lat w = s.dev.lat w :=
  Completes.of_on (fun d => d.onLat u fun s => { s with reseed := true }) rfl
    ⟨by rw [Dev.lat_onLat_self], rfl, rfl, fun _ hw => Tab.get_set_ne _ _ hw⟩

end

/-- Settles O32, a clause at a time: what a fault of a unit leaves, the cases of a takeover, and a unit's mode and reseed. -/
theorem latticeUnitsFailOver : Obligations.LatticeUnitsFailOver := by
  intro s u h mode lh v
  exact ⟨exec_latticeFault_of_dead, completes_latticeFault, exec_latticeTakeover_of_none,
    fun x hf ha => completes_latticeTakeover_of_active hf ha,
    fun x hf ha hl => ⟨completes_latticeTakeover_of_fit hf ha hl, exec_latticeTakeover_of_unfit hf ha⟩,
    completes_latticeSetMode, exec_latticeSetMode_discarded, completes_itiReseed⟩

end Sys2Proof.Machine

/-! PROOFS. Frame jobs and stripe jobs: what their ends write, and what they leave of the other registers, of the tasks and of the
jobs. -/

namespace Sys2Proof.Machine

/-! ## Registers -/

/-- The registers of fixed place that the end of a frame job of head h writes: its decoder and the stripe engine aside. -/
def jobRegs (h : Nat) : List Nat :=
  [Adr.LOCUS_STATUS, Adr.DEC_CNT h 6, Adr.DEC_QSTAT h, Adr.STR_STATUS 0, Adr.STR_STATUS 1] ++ latStatusRegs ++
    (List.range 16).map fun p => Adr.SPP_CNT p 7

theorem mem_jobRegs (h : Nat) : Adr.LOCUS_STATUS ∈ jobRegs h ∧ Adr.DEC_CNT h 6 ∈ jobRegs h ∧ Adr.DEC_QSTAT h ∈ jobRegs h ∧
    (∀ e < 2, Adr.STR_STATUS e ∈ jobRegs h) ∧ latStatusRegs ⊆ jobRegs h ∧ ∀ p < 16, Adr.SPP_CNT p 7 ∈ jobRegs h := by
  refine ⟨by simp [jobRegs], by simp [jobRegs], by simp [jobRegs], fun e he => ?_, ?_, fun p hp => ?_⟩
  · interval_cases e <;> simp [jobRegs]
  · exact fun a ha => List.mem_append_left _ (List.mem_append_right _ ha)
  · exact List.mem_append_right _ (List.mem_map.2 ⟨p, List.mem_range.2 hp, rfl⟩)

/-- d' differs from d in what the end of a frame job of head h writes besides its decoder's and the stripe engine's registers: tasks keep
their place, and no frame job comes in. -/
structure JobFrame (h : Nat) (d d' : Dev) : Prop where
  regs : SameRegs d d' (jobRegs h)
  pcs : ∀ t, (d'.task t).pc = (d.task t).pc
  jobs : ∀ x, ∀ y ∈ (d'.dh x).jobs, ∃ z ∈ (d.dh x).jobs, z.esn = y.esn

section
variable {h : Nat} {d d' : Dev}

theorem JobFrame.trans {d'' : Dev} (h1 : JobFrame h d d') (h2 : JobFrame h d' d'') : JobFrame h d d'' := by
  refine ⟨h1.regs.trans h2.regs, fun t => (h2.pcs t).trans (h1.pcs t), fun x y hy => ?_⟩
  obtain ⟨z, hz, e⟩ := h2.jobs x y hy
  obtain ⟨w, hw, e'⟩ := h1.jobs x z hz
  exact ⟨w, hw, e'.trans e⟩

/-- A change that leaves tasks and heads. -/
theorem JobFrame.of_sameRegs (hr : SameRegs d d' (jobRegs h)) (ht : d'.span.tasks = d.span.tasks) (hd : d'.det.heads = d.det.heads) :
    JobFrame h d d' :=
  ⟨hr, fun t => by rw [Dev.task, ht]; rfl, fun x y hy => ⟨y, by rwa [Dev.dh_of_heads_eq hd] at hy, rfl⟩⟩

theorem JobFrame.refl (h : Nat) (d : Dev) : JobFrame h d d := .of_sameRegs (.refl d _) rfl rfl

theorem JobFrame.of_regsOnly (ho : RegsOnly d d') (hr : SameRegs d d' (jobRegs h)) : JobFrame h d d' :=
  .of_sameRegs hr (by rw [ho]) (by rw [ho])

theorem JobFrame.setReg (h1 : JobFrame h d d') {a : Nat} {v : Word} (ha : a ∈ jobRegs h) : JobFrame h d (d'.setReg a v) :=
  h1.trans (.of_regsOnly rfl ((SameRegs.refl d' _).setReg ha))

theorem JobFrame.count (h1 : JobFrame h d d') {a : Nat} (ha : a ∈ jobRegs h) : JobFrame h d (d'.count a) := h1.setReg ha

/-- A head whose frame jobs are of those that it had. -/
theorem JobFrame.onDh (h1 : JobFrame h d d') (k : Nat) {g : DetHead → DetHead}
    (hg : ∀ y ∈ (g (d'.dh k)).jobs, ∃ z ∈ (d'.dh k).jobs, z.esn = y.esn) : JobFrame h d (d'.onDh k g) := by
  refine h1.trans ⟨SameRegs.of_regs_eq rfl, fun _ => rfl, fun x y hy => ?_⟩
  rw [Dev.dh_onDh] at hy
  split at hy
  next hx => exact hx ▸ hg y hy
  · exact ⟨y, hy, rfl⟩

theorem JobFrame.setStripe (h1 : JobFrame h d d') (k slot : Nat) (j : Option StripeJob) : JobFrame h d (d'.setStripe k slot j) :=
  h1.trans (.of_sameRegs (SameRegs.of_regs_eq rfl) rfl rfl)

theorem JobFrame.bufWrite (h1 : JobFrame h d d') (a : Nat) (l : List Byte) : JobFrame h d (d'.bufWrite a l) :=
  h1.trans (.of_sameRegs (SameRegs.of_regs_eq rfl) rfl rfl)

theorem JobFrame.setMail (h1 : JobFrame h d d') (t : Nat) (m : MailSt) : JobFrame h d (d'.setMail t m) :=
  h1.trans (.of_sameRegs (SameRegs.of_regs_eq rfl) rfl rfl)

theorem JobFrame.issue (h1 : JobFrame h d d') : JobFrame h d d'.issue :=
  h1.trans (.of_sameRegs (d'.sameRegs_issue.mono (by simpa using (mem_jobRegs h).1)) (by rw [Dev.issue_only]) (by rw [Dev.issue_only]))

theorem JobFrame.eventFor (h1 : JobFrame h d d') (rcpt : Esn) (kind : EventKind) (unit code : Nat) (detail : List Nat) :
    JobFrame h d (d'.eventFor rcpt kind unit code detail) :=
  h1.issue.trans (.of_sameRegs (SameRegs.of_regs_eq rfl) rfl rfl)

/-- A change made where a condition holds. -/
theorem JobFrame.when (h1 : JobFrame h d d') {c : Bool} {f : Dev → Dev} (hf : JobFrame h d' (f d')) : JobFrame h d (d'.when c f) := by
  cases c with
  | true => exact h1.trans hf
  | false => exact h1

theorem Dev.task_onTask (d : Dev) (t u : Nat) (g : TaskSt → TaskSt) : (d.onTask t g).task u = if u = t then g (d.task t) else d.task u :=
  Tab.get_set ..

/-- A task's state changes, and it keeps its place. -/
theorem JobFrame.onTask (h1 : JobFrame h d d') (t : Nat) {g : TaskSt → TaskSt} (hg : ∀ x, (g x).pc = x.pc) :
    JobFrame h d (d'.onTask t g) := by
  refine h1.trans ⟨SameRegs.of_regs_eq rfl, fun u => ?_, fun x y hy => ⟨y, hy, rfl⟩⟩
  rw [Dev.task_onTask]
  split
  next hu => rw [hg, hu]
  · rfl

end

section
variable (d : Dev) (h : Nat)

theorem Dev.sameRegs_showStripes : SameRegs d d.showStripes [Adr.STR_STATUS 0, Adr.STR_STATUS 1] := by
  unfold Dev.showStripes
  refine SameRegs.each _ (fun n e he => ?_) d
  have shown : Adr.STR_STATUS e ∈ [Adr.STR_STATUS 0, Adr.STR_STATUS 1] := by
    have : e < 2 := List.mem_range.1 he
    interval_cases e <;> simp
  exact ((SameRegs.refl n _).put shown).putBit shown

theorem Dev.jobFrame_showStripes : JobFrame h d d.showStripes := by
  obtain ⟨-, -, -, status, -⟩ := mem_jobRegs h
  exact .of_regsOnly d.regsOnly_showStripes (d.sameRegs_showStripes.mono (by simp [status 0, status 1]))

theorem Dev.jobFrame_showLat (x : Nat) : JobFrame h d (d.showLat x) :=
  .of_regsOnly (d.regsOnly_showLat x) ((d.sameRegs_showLat x).mono (mem_jobRegs h).2.2.2.2.1)

theorem Dev.jobFrame_showQueue : JobFrame h d (d.showQueue h) := by
  obtain ⟨-, -, shown, -⟩ := mem_jobRegs h
  exact .of_regsOnly (d.regsOnly_showQueue h) (((SameRegs.refl d _).put shown).putBit shown)

theorem Dev.jobFrame_dmaLeaves (t tag : Nat) : JobFrame h d (d.dmaLeaves t tag) := by
  unfold Dev.dmaLeaves
  split
  next op _ =>
    have left : JobFrame h d { d with span := { d.span with dmas := d.span.dmas.erase op } } :=
      .of_sameRegs (SameRegs.of_regs_eq rfl) rfl rfl
    exact left.when ((JobFrame.refl h _).onTask t fun _ => rfl)
  · exact .refl h d

theorem Dev.jobFrame_mailEnds (t : Nat) (x : MailEnd) : JobFrame h d (d.mailEnds t x) := by
  cases x with
  | nothing => exact .refl h d
  | dma tag => exact d.jobFrame_dmaLeaves h t tag
  | stripe slot => exact ((JobFrame.refl h d).setStripe 0 slot none).trans (Dev.jobFrame_showStripes _ h)

theorem Dev.jobFrame_postMailWith (t : Nat) (r : List Byte) (x : MailEnd) : JobFrame h d (d.postMailWith t r x) := by
  obtain ⟨-, -, -, -, -, counted⟩ := mem_jobRegs h
  unfold Dev.postMailWith Dev.placeMail
  split
  · exact (((JobFrame.refl h d).bufWrite _ _).setMail _ _).trans (Dev.jobFrame_mailEnds _ h t x)
  · exact ((JobFrame.refl h d).setMail _ _).count (counted _ (fieldOf_lt _ 20 4))

/-- A result is born: with an event where it is logged, else with its ESN alone. -/
theorem Dev.jobFrame_born (quiet : Prop) [Decidable quiet] (rcpt : Esn) (kind : EventKind) (unit code : Nat) (detail : List Nat) :
    JobFrame h d (if quiet then d.issue else d.eventFor rcpt kind unit code detail) := by
  split
  · exact (JobFrame.refl h d).issue
  · exact (JobFrame.refl h d).eventFor ..

theorem Dev.jobFrame_stripeEnd (x slot : Nat) (j : StripeJob) (status : Nat) (erased : List Nat) (fail : Nat) :
    JobFrame h d (d.stripeEnd x slot j status erased fail) := by
  unfold Dev.stripeEnd
  exact (((d.jobFrame_born h (status = 0) j.rcpt _ _ _ _).setStripe _ _ _).trans (Dev.jobFrame_postMailWith _ h _ _ _)).trans
    (Dev.jobFrame_showStripes _ h)

theorem Dev.jobFrame_releaseGroup (k : GroupKey) : JobFrame h d (d.releaseGroup h k) :=
  (JobFrame.refl h d).when ((JobFrame.refl h d).onDh h fun y hy => ⟨y, hy, rfl⟩)

theorem Dev.jobFrame_askTurbo (k : GroupKey) : JobFrame h d (d.askTurbo h k) := by
  unfold Dev.askTurbo
  exact (JobFrame.refl h d).when ((JobFrame.refl h d).onDh h fun y hy => ⟨y, hy, rfl⟩)

theorem Dev.jobFrame_noteConverged (j : JobSt) (shift : Int) (hard : List Bool) : JobFrame h d (d.noteConverged h j shift hard) := by
  unfold Dev.noteConverged Dev.onGroupOf
  exact (JobFrame.refl h d).onDh h fun y hy => ⟨y, hy, rfl⟩

theorem Dev.jobFrame_setFrameBytes (buf j : Nat) (l : List Byte) : JobFrame h d (d.setFrameBytes buf j l) := by
  unfold Dev.setFrameBytes
  dsimp only
  split
  · exact ((JobFrame.refl h d).bufWrite _ _).bufWrite _ _
  · exact (JobFrame.refl h d).bufWrite _ _

end

/-! ## What stands through the end of a frame job -/

/-- P is kept by each thing that the end of a frame job of head h does, P (n + 1) holding where P n did and a stripe engine has counted. -/
structure KeptByJobs (h : Nat) (P : Nat → Dev → Prop) : Prop where
  frame : ∀ {n d d'}, JobFrame h d d' → P n d → P n d'
  free : ∀ {n d} (u : Nat), P n d → P n (d.freeDecoder (some u))
  misplaced : ∀ {n d} (e : Nat), P n d → P n (d.putBit (Fld.STR_STATUS_MISPLACED e) true)
  stripe : ∀ {n d} (e k : Nat), P n d → P (n + 1) (d.count (Adr.STR_CNT e k))
  mono : ∀ {n d}, P n d → P (n + 1) d

section
variable {h : Nat} {P : Nat → Dev → Prop} (kept : KeptByJobs h P) {n : Nat} {d : Dev}

include kept

theorem KeptByJobs.freeDecoder (u : Option Nat) (hp : P n d) : P n (d.freeDecoder u) := by
  cases u with
  | none => exact hp
  | some u => exact kept.free u hp

theorem KeptByJobs.cancelParity (slot : Nat) (hp : P n d) : P n (d.cancelParity h slot) := by
  unfold Dev.cancelParity
  dsimp only
  refine kept.frame (Dev.jobFrame_showQueue _ h) ?_
  refine Dev.each_induction (P n) _ (fun d j hd => kept.frame (d.jobFrame_releaseGroup h _) hd) _ _ ?_
  refine kept.frame ((JobFrame.refl h _).onDh h fun y hy => ?cut) ?_
  case cut =>
    obtain ⟨z, hz, rfl⟩ := List.mem_map.1 hy
    exact ⟨z, List.mem_of_mem_filter hz, rfl⟩
  refine Dev.each_induction (P n) _ (fun d j hd => ?_) _ _ hp
  exact kept.frame ((JobFrame.refl h _).issue.count (mem_jobRegs h).2.1) (kept.freeDecoder j.unit hd)

theorem KeptByJobs.stripeEvaluate (slot : Nat) (hp : P n d) : P (n + 1) (d.stripeEvaluate h slot) := by
  have clean (s : StripeJob) : P (n + 1) ((d.count (Adr.STR_CNT s.engine 0)).stripeEnd h slot s 0 [] 0) :=
    kept.frame (Dev.jobFrame_stripeEnd _ h h slot s 0 [] 0) (kept.stripe s.engine 0 hp)
  unfold Dev.stripeEvaluate
  split
  · exact kept.mono hp
  next s _ =>
    split
    · exact kept.mono hp
    · dsimp only
      split
      · exact kept.cancelParity slot (clean s)
      · split
        · exact clean s
        · split
          · exact kept.frame (Dev.jobFrame_stripeEnd _ h h slot s 2 [] 0) (kept.mono hp)
          · split
            · exact kept.frame (((JobFrame.refl h d).setStripe _ _ _).trans (Dev.jobFrame_showStripes _ h)) (kept.mono hp)
            · exact kept.mono hp

theorem KeptByJobs.stripeResult (slot : Nat) (r : FrameResult) (info : List Byte) (hp : P n d) :
    P (n + 2) (d.stripeResult h slot r info) := by
  unfold Dev.stripeResult
  split
  · exact kept.mono (kept.mono hp)
  next s _ =>
    have written (c : Bool) (buf : Nat) : P n (d.when c fun d => d.setFrameBytes buf r.j info) :=
      kept.frame ((JobFrame.refl h d).when (d.jobFrame_setFrameBytes h buf r.j info)) hp
    have flagged (m : Dev) (c : Bool) (e : Nat) (hm : P n m) :
        P (n + 1) (m.when c fun d => (d.putBit (Fld.STR_STATUS_MISPLACED e) true).count (Adr.STR_CNT e 6)) := by
      cases c with
      | true => exact kept.stripe e 6 (kept.misplaced e hm)
      | false => exact kept.mono hm
    exact kept.stripeEvaluate slot (kept.frame ((JobFrame.refl h _).setStripe _ _ _) (flagged _ _ _ (written _ _)))

end

/-- What a job of group k leaves to do once it has left the jobs of head h: its stripe takes the result, and its group goes on. -/
def Dev.jobSettled (d : Dev) (h : Nat) (k : GroupKey) (stripe : Nat) (r : FrameResult) (info : List Byte) : Dev :=
  ((((d.stripeResult h stripe r info).askTurbo h k).releaseGroup h k).showQueue h).showLat h

theorem KeptByJobs.jobSettled {h : Nat} {P : Nat → Dev → Prop} (kept : KeptByJobs h P) {n : Nat} {d : Dev} (k : GroupKey) (stripe : Nat)
    (r : FrameResult) (info : List Byte) (hp : P n d) : P (n + 2) (d.jobSettled h k stripe r info) :=
  kept.frame ((((Dev.jobFrame_askTurbo _ h k).trans (Dev.jobFrame_releaseGroup _ h k)).trans (Dev.jobFrame_showQueue _ h)).trans
    (Dev.jobFrame_showLat _ h h)) (kept.stripeResult stripe r info hp)

/-- The result record of a job that ends. -/
def Dev.jobResult (d : Dev) (h : Nat) (j : JobSt) (status : Nat) (shift : Int) (hard : List Bool) : FrameResult :=
  ⟨d.esn, j.rcpt, status, j.iters, j.rounds, if status = 1 then shift else 0, if hard.isEmpty then 0 else ldpcUsc (chunks 512 76 hard),
    d.jobFlagged h j, if hard.isEmpty then 0 else jobFlips j.frame j.chan0 shift hard, j.j⟩

/-- The result of a job is born. -/
def Dev.jobBorn (d : Dev) (h : Nat) (j : JobSt) (status : Nat) (shift : Int) (hard : List Bool) : Dev :=
  let d := d.when (status ≤ 1) fun d => d.noteConverged h j shift hard
  let r := d.jobResult h j status shift hard
  if (status = 0 ∧ j.rounds = 0) ∨ j.quiet then d.issue
  else d.eventFor j.rcpt .decoderResult (j.unit.getD 0) status [j.iters, j.rounds, codeOf 8 r.shift, r.usc, r.flagged, r.flips, j.j]

/-- A job frees its decoder, is counted, and leaves the jobs of its head. -/
def Dev.jobLeaves (d : Dev) (h : Nat) (j : JobSt) (status : Nat) : Dev :=
  ((d.freeDecoder j.unit).when (statusCounter status j.rounds < 8) fun d => d.count (Adr.DEC_CNT h (statusCounter status j.rounds))).onDh h
    fun s => { s with jobs := s.jobs.filter (fun x => x.esn != j.esn) }

theorem Dev.endJob_eq (d : Dev) (h : Nat) (j : JobSt) (status : Nat) (shift : Int) (hard : List Bool) : d.endJob h j status shift hard =
    ((d.jobBorn h j status shift hard).jobLeaves h j status).jobSettled h (groupOfFrame j.frame) j.stripe
      ((d.when (status ≤ 1) fun d => d.noteConverged h j shift hard).jobResult h j status shift hard)
      (if status ≤ 1 then bytesOfBits (hard.take 33280) else []) := rfl

theorem Dev.jobFrame_jobBorn (d : Dev) (h : Nat) (j : JobSt) (status : Nat) (shift : Int) (hard : List Bool) :
    JobFrame h d (d.jobBorn h j status shift hard) :=
  ((JobFrame.refl h d).when (d.jobFrame_noteConverged h j shift hard)).trans (Dev.jobFrame_born ..)

section
variable (d : Dev)

theorem Dev.sameRegs_freeDecoder (u : Nat) : SameRegs d (d.freeDecoder (some u)) [Adr.DECU_STATUS u] :=
  (((SameRegs.refl d _).putBit (by simp [Fld.DECU_STATUS_BUSY])).putBit (by simp [Fld.DECU_STATUS_SWEEP])).put
    (by simp [Fld.DECU_STATUS_ITER])

theorem Dev.bit_freeDecoder_busy (u : Nat) : (d.freeDecoder (some u)).bit (Fld.DECU_STATUS_BUSY u) = false := by
  unfold Dev.freeDecoder
  dsimp only
  rw [Dev.bit_put_ne _ _ _ _ (.inr (.inl (by simp [Fld.DECU_STATUS_BUSY, Fld.DECU_STATUS_ITER]))) (by simp [Fld.DECU_STATUS_ITER]),
    Dev.bit_putBit_ne _ _ _ _ (.inr (.inl (by simp [Fld.DECU_STATUS_BUSY, Fld.DECU_STATUS_SWEEP]))) (by simp [Fld.DECU_STATUS_SWEEP])]
  exact Dev.bit_putBit_self _ _ _ rfl (by simp [Fld.DECU_STATUS_BUSY])

/-- The registers of fixed place are none of the decoders' in service, and no counters of frame jobs but that of cancelled ones. -/
theorem notMem_jobRegs (h : Nat) {a : Nat}
    (ha : (∃ u < 24, a = Adr.DECU_STATUS u) ∨ ∃ x < 2, ∃ k < 8, k ≠ 6 ∧ a = Adr.DEC_CNT x k) : a ∉ jobRegs h := by
  have lat : ∀ a ∈ latStatusRegs, a < 0x50000 := by decide
  have spp : ∀ a ∈ (List.range 16).map fun p => Adr.SPP_CNT p 7, 0xc0000 ≤ a := by decide
  have range : 0x50120 ≤ a ∧ a < 0x52800 ∧ a ≠ Adr.DEC_CNT h 6 ∧ a ≠ Adr.DEC_QSTAT h := by
    rcases ha with ⟨u, hu, rfl⟩ | ⟨x, hx, k, hk, h6, rfl⟩
    · simp only [Adr.DECU_STATUS, Adr.DEC_CNT, Adr.DEC_QSTAT]; omega
    · simp only [Adr.DEC_CNT, Adr.DEC_QSTAT]; omega
  obtain ⟨lo, hi, counter, queue⟩ := range
  unfold jobRegs
  simp only [List.mem_append, List.mem_cons, List.not_mem_nil, or_false, not_or]
  refine ⟨⟨⟨?_, counter, queue, ?_, ?_⟩, fun hm => ?_⟩, fun hm => ?_⟩
  · simp only [Adr.LOCUS_STATUS]; omega
  · simp only [Adr.STR_STATUS]; omega
  · simp only [Adr.STR_STATUS]; omega
  · have := lat a hm; omega
  · have := spp a hm; omega

/-- A decoder that is free stays free as jobs end. -/
theorem keptByJobs_free (h : Nat) {u : Nat} (hu : u < 24) : KeptByJobs h fun _ d => d.bit (Fld.DECU_STATUS_BUSY u) = false where
  frame hf hp := (hf.regs.bit (notMem_jobRegs h (.inl ⟨u, hu, rfl⟩))).trans hp
  free v hp := by
    by_cases hv : v = u
    · rw [hv]
      exact Dev.bit_freeDecoder_busy _ u
    · refine ((Dev.sameRegs_freeDecoder _ v).bit ?_).trans hp
      simp only [Fld.DECU_STATUS_BUSY, Adr.DECU_STATUS, List.mem_singleton]
      omega
  misplaced e hp := by
    refine (Dev.bit_put_ne _ _ _ _ (.inl ?_) (by simp [Fld.STR_STATUS_MISPLACED])).trans hp
    simp only [Fld.DECU_STATUS_BUSY, Fld.STR_STATUS_MISPLACED, Adr.DECU_STATUS, Adr.STR_STATUS]
    omega
  stripe e k hp := by
    refine (Dev.bit_of_reg_eq (Dev.reg_setReg_ne _ _ ?_)).trans hp
    simp only [Fld.DECU_STATUS_BUSY, Adr.DECU_STATUS, Adr.STR_CNT]
    omega
  mono hp := hp

/-- The counters of frame jobs but that of cancelled ones stand as jobs settle. -/
theorem keptByJobs_counter (h : Nat) {x k : Nat} (hx : x < 2) (hk : k < 8) (h6 : k ≠ 6) (v : Word) :
    KeptByJobs h fun _ d => d.reg (Adr.DEC_CNT x k) = v where
  frame hf hp := (hf.regs _ (notMem_jobRegs h (.inr ⟨x, hx, k, hk, h6, rfl⟩))).trans hp
  free v hp := by
    refine (Dev.sameRegs_freeDecoder _ v _ ?_).trans hp
    simp only [Adr.DEC_CNT, Adr.DECU_STATUS, List.mem_singleton]
    omega
  misplaced e hp := by
    refine (Dev.reg_put_ne _ _ _ ?_).trans hp
    simp only [Fld.STR_STATUS_MISPLACED, Adr.DEC_CNT, Adr.STR_STATUS]
    omega
  stripe e k hp := by
    refine (Dev.reg_setReg_ne _ _ ?_).trans hp
    simp only [Adr.DEC_CNT, Adr.STR_CNT]
    omega
  mono hp := hp

/-- A frame job that has left stays away as jobs settle. -/
theorem keptByJobs_gone (h x : Nat) (e : Esn) : KeptByJobs h fun _ d => ∀ y ∈ (d.dh x).jobs, y.esn ≠ e where
  frame hf hp y hy := by
    obtain ⟨z, hz, hzy⟩ := hf.jobs x y hy
    exact hzy ▸ hp z hz
  free u hp y hy := hp y (by rwa [(Dev.regsOnly_freeDecoder _ (some u)).dh] at hy)
  misplaced _ hp := hp
  stripe _ _ hp := hp
  mono hp := hp

end

/-! ## The end of a frame job (R110, R119 to R121) -/

section
variable (d : Dev) {h : Nat} (j : JobSt) (status : Nat) (shift : Int) (hard : List Bool)

theorem Dev.jobLeaves_jobs : ∀ y ∈ ((d.jobLeaves h j status).dh h).jobs, y.esn ≠ j.esn := by
  unfold Dev.jobLeaves
  rw [Dev.dh_onDh_self]
  exact fun y hy => by simpa using (List.mem_filter.1 hy).2

/-- A job that has ended is among the jobs of its head no more. -/
theorem Dev.endJob_jobs : ∀ y ∈ ((d.endJob h j status shift hard).dh h).jobs, y.esn ≠ j.esn := by
  rw [Dev.endJob_eq]
  exact (keptByJobs_gone h h j.esn).jobSettled (n := 0) _ _ _ _ (Dev.jobLeaves_jobs _ j status)

variable {j} {u : Nat} (hh : h < 2) (hj : j.unit = some u) (hu : u < 24)
include hh hj hu

omit hh in
/-- The decoder of a job that has ended is free. -/
theorem Dev.endJob_busy : (d.endJob h j status shift hard).bit (Fld.DECU_STATUS_BUSY u) = false := by
  rw [Dev.endJob_eq]
  refine (keptByJobs_free h hu).jobSettled (n := 0) _ _ _ _ ?_
  unfold Dev.jobLeaves
  rw [hj]
  have freed := Dev.bit_freeDecoder_busy (d.jobBorn h j status shift hard) u
  refine Eq.trans (Dev.bit_of_reg_eq ?_) freed
  change Dev.reg (Dev.when _ _ _) _ = _
  by_cases hc : statusCounter status j.rounds < 8
  · rw [decide_eq_true hc, Dev.when_true]
    refine Dev.reg_setReg_ne _ _ ?_
    simp only [Fld.DECU_STATUS_BUSY, Adr.DECU_STATUS, Adr.DEC_CNT]
    omega
  · rw [decide_eq_false hc, Dev.when_false]

omit hu in
/-- A job that ends is counted by its status. -/
theorem Dev.endJob_counted {c : Nat} (hc : statusCounter status j.rounds = c) (h8 : c < 8) (h6 : c ≠ 6) :
    (d.endJob h j status shift hard).reg (Adr.DEC_CNT h c) = d.counted (Adr.DEC_CNT h c) 1 := by
  rw [Dev.endJob_eq]
  refine (keptByJobs_counter h hh h8 h6 _).jobSettled (n := 0) _ _ _ _ ?_
  have outside := notMem_jobRegs h (.inr ⟨h, hh, c, h8, h6, rfl⟩)
  have born : (d.jobBorn h j status shift hard).reg (Adr.DEC_CNT h c) = d.reg (Adr.DEC_CNT h c) :=
    (d.jobFrame_jobBorn h j status shift hard).regs _ outside
  have freed : ((d.jobBorn h j status shift hard).freeDecoder (some u)).reg (Adr.DEC_CNT h c) = d.reg (Adr.DEC_CNT h c) :=
    (Dev.sameRegs_freeDecoder _ u _ (by simp only [Adr.DEC_CNT, Adr.DECU_STATUS, List.mem_singleton]; omega)).trans born
  unfold Dev.jobLeaves
  rw [hj, hc, decide_eq_true h8, Dev.when_true]
  refine (Dev.reg_setReg_self _ _ _).trans ?_
  rw [freed]
  rfl

end

end Sys2Proof.Machine

/-! PROOFS. Decoders (O33): how they start jobs, iterate and sweep, and what cancels and faults leave. -/

namespace Sys2Proof.Machine

/-! ## Masks -/

/-- A bit of a mask that was put holds the bit. -/
theorem Dev.maskBit_putMask_self (d : Dev) (f : Field) {k : Nat} (b : Bool) (hk : k < f.width) (hf : f.lo + f.width ≤ 32) :
    (d.putMask f k b).maskBit f k = b := by
  unfold Dev.maskBit Dev.putMask
  rw [Dev.fld_put_self _ _ _ hf, Nat.testBit_mod_two_pow, decide_eq_true hk, Bool.true_and, Nat.testBit_eq_decide_div_mod_eq]
  generalize d.fld f = v
  set p := 2 ^ k with hp
  have pos : 0 < p := by positivity
  have split : v - v / p % 2 * p + (if b then p else 0) = p * (v / p / 2 * 2 + if b then 1 else 0) + v % p := by
    have parts : p * (v / p / 2 * 2) + v / p % 2 * p + v % p = v := by
      rw [Nat.mul_comm _ p, ← Nat.mul_add, Nat.mul_comm (v / p / 2), Nat.div_add_mod, Nat.div_add_mod]
    generalize v / p % 2 * p = x at parts ⊢
    rw [Nat.mul_add]
    cases b
    · simp only [Bool.false_eq_true, if_false, Nat.mul_zero]; omega
    · simp only [if_true, Nat.mul_one]; omega
  rw [split, Nat.mul_add_div pos, Nat.div_eq_of_lt (Nat.mod_lt _ pos), Nat.add_zero]
  cases b
  · simp
  · simp

theorem Dev.maskBit_of_reg_eq {d d' : Dev} {f : Field} (k : Nat) (h : d'.reg f.adr = d.reg f.adr) : d'.maskBit f k = d.maskBit f k := by
  unfold Dev.maskBit
  rw [Dev.fld_of_reg_eq h]

theorem SameRegs.maskBit {d d' : Dev} {l : List Nat} (h : SameRegs d d' l) {f : Field} (k : Nat) (ha : f.adr ∉ l) :
    d'.maskBit f k = d.maskBit f k := Dev.maskBit_of_reg_eq k (h _ ha)

/-! ## Jobs of a head -/

/-- The jobs of a head with that of an ESN replaced hold the new one. -/
theorem mem_onJob {l : List JobSt} {j : JobSt} (hj : j ∈ l) (f : JobSt → JobSt) : f j ∈ onJob l j.esn f :=
  List.mem_map.2 ⟨j, hj, if_pos rfl⟩

theorem Dev.mem_of_jobOf {d : Dev} {u x : Nat} {j : JobSt} (h : d.jobOf u = some (x, j)) :
    x < 2 ∧ j ∈ (d.dh x).jobs ∧ j.unit = some u := by
  obtain ⟨y, hy, found⟩ := List.exists_of_findSome?_eq_some h
  obtain ⟨z, hz, e⟩ := Option.map_eq_some_iff.1 found
  obtain ⟨rfl, rfl⟩ := Prod.mk.inj e
  refine ⟨?_, List.mem_of_find?_eq_some hz, by simpa using List.find?_some hz⟩
  have : y = 0 ∨ y = 1 := by simpa using hy
  omega

theorem Dev.jobOf_of_det_eq {d d' : Dev} (h : d'.det = d.det) (u : Nat) : d'.jobOf u = d.jobOf u := by
  unfold Dev.jobOf
  simp only [Dev.dh_of_det_eq h]

/-! ## Starts (R117) -/

/-- A job as decoder u starts it: from round 0, a capped one in its sweep. -/
def JobSt.started (j : JobSt) (u : Nat) (policy : Word) (dec : List (List Int) × List (List (List Int))) : JobSt :=
  { j with stage := if j.capped then .sweeping else .decoding, unit := some u, policy := policy, dec := some dec }

/-- The state in which a decoder starts a job. -/
def JobSt.fresh (j : JobSt) : LdpcState := LdpcState.start (jobCut j.frame j.chan 0)

/-- Decoder u shows that it runs job j of head x. -/
def Dev.showJob (d : Dev) (u x : Nat) (j : JobSt) : Dev :=
  let d := ((d.putBit (Fld.DECU_STATUS_BUSY u) true).put (Fld.DECU_STATUS_HEAD u) x).put (Fld.DECU_STATUS_ITER u) 0
  (d.putBit (Fld.DECU_STATUS_SWEEP u) j.capped).setReg (Adr.DECU_JOB u) (BitVec.ofNat 32 j.esn.toNat)

section
variable {d : Dev} {u x : Nat} {j : JobSt}

theorem Dev.jobStart_of_nothing (h : d.decoderFree u = false ∨ d.decoderHead u = none) : d.jobStart u = d := by
  unfold Dev.jobStart
  rcases h with busy | idle
  · rw [if_neg (by simp [busy])]
  · rw [idle, ite_self]

theorem Dev.jobStart_of_ready (hf : d.decoderFree u = true) (hx : d.decoderHead u = some x) (hj : d.readyJob x = some j) :
    d.jobStart u = (d.onDh x fun s => { s with
      jobs := onJob s.jobs j.esn fun y => y.started u (d.reg (Adr.DEC_POLICY x)) (j.fresh.l, j.fresh.r) }).showJob u x j := by
  unfold Dev.jobStart
  rw [if_pos hf, hx]
  dsimp only
  rw [hj]
  rfl

theorem Dev.showJob_spec (d : Dev) (u x : Nat) (j : JobSt) : (d.showJob u x j).bit (Fld.DECU_STATUS_BUSY u) = true ∧
    (d.showJob u x j).fld (Fld.DECU_STATUS_HEAD u) = x % 2 ∧ (d.showJob u x j).bit (Fld.DECU_STATUS_SWEEP u) = j.capped ∧
    (d.showJob u x j).reg (Adr.DECU_JOB u) = j.esn.setWidth 32 := by
  have job : Adr.DECU_STATUS u ≠ Adr.DECU_JOB u := by simp only [Adr.DECU_STATUS, Adr.DECU_JOB]; omega
  have fits : (Fld.DECU_STATUS_BUSY u).lo + (Fld.DECU_STATUS_BUSY u).width ≤ 32 ∧
      (Fld.DECU_STATUS_HEAD u).lo + (Fld.DECU_STATUS_HEAD u).width ≤ 32 ∧
      (Fld.DECU_STATUS_ITER u).lo + (Fld.DECU_STATUS_ITER u).width ≤ 32 ∧
      (Fld.DECU_STATUS_SWEEP u).lo + (Fld.DECU_STATUS_SWEEP u).width ≤ 32 := by
    simp [Fld.DECU_STATUS_BUSY, Fld.DECU_STATUS_HEAD, Fld.DECU_STATUS_ITER, Fld.DECU_STATUS_SWEEP]
  obtain ⟨busy, head, iter, sweep⟩ := fits
  unfold Dev.showJob
  refine ⟨?_, ?_, ?_, ?_⟩
  · rw [Dev.bit_of_reg_eq (Dev.reg_setReg_ne _ _ job),
      Dev.bit_putBit_ne _ _ _ _ (.inr (.inl (by simp [Fld.DECU_STATUS_BUSY, Fld.DECU_STATUS_SWEEP]))) sweep,
      Dev.bit_put_ne _ _ _ _ (.inr (.inl (by simp [Fld.DECU_STATUS_BUSY, Fld.DECU_STATUS_ITER]))) iter,
      Dev.bit_put_ne _ _ _ _ (.inr (.inl (by simp [Fld.DECU_STATUS_BUSY, Fld.DECU_STATUS_HEAD]))) head]
    exact Dev.bit_putBit_self _ _ _ rfl busy
  · rw [Dev.fld_of_reg_eq (Dev.reg_setReg_ne _ _ job), Dev.putBit,
      Dev.fld_put_ne _ _ _ _ sweep (.inr (.inl (by simp [Fld.DECU_STATUS_HEAD, Fld.DECU_STATUS_SWEEP]))),
      Dev.fld_put_ne _ _ _ _ iter (.inr (.inl (by simp [Fld.DECU_STATUS_HEAD, Fld.DECU_STATUS_ITER]))), Dev.fld_put_self _ _ _ head]
    rfl
  · rw [Dev.bit_of_reg_eq (Dev.reg_setReg_ne _ _ job)]
    exact Dev.bit_putBit_self _ _ _ rfl sweep
  · rw [Dev.reg_setReg_self]
    exact BitVec.eq_of_toNat_eq (by simp)

theorem Dev.regsOnly_showJob (d : Dev) (u x : Nat) (j : JobSt) : RegsOnly d (d.showJob u x j) := rfl

theorem Dev.mem_of_readyJob (h : d.readyJob x = some j) : j ∈ (d.dh x).jobs := List.mem_of_find?_eq_some h

end

section
variable {s : State} {u : DecUnit} {x : Nat} {j : JobSt}

theorem exec_decoderJobStart_of_nothing (h : s.dev.decoderFree u = false ∨ s.dev.decoderHead u = none) :
    exec (.decoderJobStart u) s = .next s := State.on_of_eq_self (f := fun d => d.jobStart u) (Dev.jobStart_of_nothing h)

theorem completes_decoderJobStart (hf : s.dev.decoderFree u = true) (hx : s.dev.decoderHead u = some x)
    (hj : s.dev.readyJob x = some j) : Completes (.decoderJobStart u) s fun d =>
      d.bit (Fld.DECU_STATUS_BUSY u) = true ∧ d.fld (Fld.DECU_STATUS_HEAD u) = x % 2 ∧
      d.bit (Fld.DECU_STATUS_SWEEP u) = j.capped ∧ d.reg (Adr.DECU_JOB u) = j.esn.setWidth 32 ∧
      (∃ y ∈ (d.dh x).jobs, y.esn = j.esn ∧ y.unit = some u.val ∧ y.stage = if j.capped then .sweeping else .decoding) ∧
      d = { s.dev with regs := d.regs, det := d.det } := by
  refine Completes.of_on (fun d => d.jobStart u) rfl ?_
  rw [Dev.jobStart_of_ready hf hx hj]
  set give : JobSt → JobSt := fun y => y.started u (s.dev.reg (Adr.DEC_POLICY x)) (j.fresh.l, j.fresh.r)
  obtain ⟨busy, head, sweep, job⟩ := (s.dev.onDh x fun s => { s with jobs := onJob s.jobs j.esn give }).showJob_spec u x j
  refine ⟨busy, head, sweep, job, ⟨give j, ?_, rfl, rfl, rfl⟩, ?_⟩
  · rw [(Dev.regsOnly_showJob _ u x j).dh, Dev.dh_onDh_self]
    exact mem_onJob (Dev.mem_of_readyJob hj) give
  · rw [Dev.regsOnly_showJob]
    rfl

end

end Sys2Proof.Machine

/-! PROOFS. Decoders (O33), continued: iterations, sweeps, cancels, faults and counters. -/

namespace Sys2Proof.Machine

/-! ## Iterations (R109 to R113) -/

/-- The messages after one iteration of job j from those in w. -/
def JobSt.nextWords (j : JobSt) (w : List (List Int) × List (List (List Int))) : LdpcState :=
  (LdpcState.mk w.1 w.2).iterate (polNorm j.policy)

/-- Job j after that iteration. -/
def JobSt.iterated (j : JobSt) (w : List (List Int) × List (List (List Int))) : JobSt :=
  { j with iters := j.iters + 1, dec := some ((j.nextWords w).l, (j.nextWords w).r) }

/-- The block after that iteration on decoder u, before what it decides. -/
def Dev.iterated (d : Dev) (u x : Nat) (j : JobSt) (w : List (List Int) × List (List (List Int))) : Dev :=
  (d.onDh x fun s => { s with jobs := onJob s.jobs j.esn fun _ => j.iterated w }).put (Fld.DECU_STATUS_ITER u) (j.iters + 1)

/-- What follows a stage of job j that ended short of convergence (R111). -/
def Dev.stageEnds (d : Dev) (u x : Nat) (j : JobSt) (hard : List (List Bool)) : Dev :=
  match d.nextStage x j (ldpcUsc hard) with
  | .turbo =>
    ((d.onDh x fun s => { s with jobs := onJob s.jobs j.esn fun j => { j with stage := .turbo } }).askTurbo x
      (groupOfFrame j.frame)).showLat x
  | .sweep =>
    ((d.onDh x fun s => { s with jobs := onJob s.jobs j.esn fun j => { j with stage := .sweeping } }).putBit
      (Fld.DECU_STATUS_SWEEP u) true).askTurbo x (groupOfFrame j.frame)
  | .fail => d.endJob x j 2 0 hard.flatten

section
variable {d : Dev} {u x : Nat} {j : JobSt} {w : List (List Int) × List (List (List Int))}

theorem Dev.jobs_of_jobOf_none (h : d.jobOf u = none) : d.iteration u = d ∧ d.sweep u = d := by
  unfold Dev.iteration Dev.sweep
  rw [h]
  exact ⟨rfl, rfl⟩

section
variable (hj : d.jobOf u = some (x, j)) (stage : j.stage = .decoding) (dec : j.dec = some w) (live : j.cancelled = false)
include hj stage dec live

/-- What an iteration of a job that decodes decides. -/
theorem Dev.iteration_of_decoding : d.iteration u =
    if ldpcUsc (j.nextWords w).hard = 0 then
      if j.parity || frameCrcOk (infoBytes (j.nextWords w).hard) then
        (d.iterated u x j w).endJob x (j.iterated w) 0 0 (j.nextWords w).hard.flatten
      else (d.iterated u x j w).endJob x (j.iterated w) 3 0 (j.nextWords w).hard.flatten
    else if (j.iterated w).withinLimits (d.iterated u x j w) then d.iterated u x j w
    else (d.iterated u x j w).stageEnds u x (j.iterated w) (j.nextWords w).hard := by
  unfold Dev.iteration
  rw [hj]
  dsimp only
  rw [if_neg (not_not.2 stage), dec]
  exact if_neg (by rw [live]; exact Bool.false_ne_true)

/-- An iteration that meets every check ends the job, by its CRC. -/
theorem Dev.iteration_of_converged (usc : ldpcUsc (j.nextWords w).hard = 0) : d.iteration u =
    (d.iterated u x j w).endJob x (j.iterated w) (if j.parity || frameCrcOk (infoBytes (j.nextWords w).hard) then 0 else 3) 0
      (j.nextWords w).hard.flatten := by
  rw [Dev.iteration_of_decoding hj stage dec live, if_pos usc]
  cases j.parity || frameCrcOk (infoBytes (j.nextWords w).hard) <;> rfl

/-- One that does not, within the limits, goes on. -/
theorem Dev.iteration_of_within (usc : ldpcUsc (j.nextWords w).hard ≠ 0)
    (limits : (j.iterated w).withinLimits (d.iterated u x j w) = true) : d.iteration u = d.iterated u x j w := by
  rw [Dev.iteration_of_decoding hj stage dec live, if_neg usc, if_pos limits]

end

variable (d u x j w)

theorem Dev.sameRegs_iterated : SameRegs d (d.iterated u x j w) [Adr.DECU_STATUS u] := by
  have moved : SameRegs d (d.onDh x fun s => { s with jobs := onJob s.jobs j.esn fun _ => j.iterated w }) [Adr.DECU_STATUS u] :=
    .of_regs_eq rfl
  exact moved.put (by simp [Fld.DECU_STATUS_ITER])

/-- The limits do not read the decoder's status, nor the messages. -/
theorem Dev.withinLimits_iterated (hu : u < 24) : (j.iterated w).withinLimits (d.iterated u x j w) =
    JobSt.withinLimits { j with iters := j.iters + 1 } d := by
  have other {f : Field} (hf : f.adr ≠ Adr.DECU_STATUS u) : (d.iterated u x j w).fld f = d.fld f :=
    (d.sameRegs_iterated u x j w).fld (by simpa using hf)
  have depleted : (d.iterated u x j w).maskBit Fld.SPR_STATUS_DEPLETED 6 = d.maskBit Fld.SPR_STATUS_DEPLETED 6 := by
    refine (d.sameRegs_iterated u x j w).maskBit 6 ?_
    simp only [Fld.SPR_STATUS_DEPLETED, Adr.SPR_STATUS, Adr.DECU_STATUS, List.mem_singleton]; omega
  unfold JobSt.withinLimits Dev.iterLimit Dev.turboLimit
  rw [other (f := Fld.DEC_CAP_ITER_CAP) (by simp only [Fld.DEC_CAP_ITER_CAP, Adr.DEC_CAP, Adr.DECU_STATUS]; omega),
    other (f := Fld.DEC_CAP_TURBO_CAP) (by simp only [Fld.DEC_CAP_TURBO_CAP, Adr.DEC_CAP, Adr.DECU_STATUS]; omega), depleted]
  rfl

end

/-- A job within its limits has an iteration count of 8 bits. -/
theorem JobSt.iters_lt_of_withinLimits {j : JobSt} {d : Dev} (h : j.withinLimits d = true) : j.iters < 256 := by
  unfold JobSt.withinLimits Dev.iterLimit at h
  have top : polIterMax j.policy < 256 := fieldOf_lt _ 24 8
  have lt := of_decide_eq_true (Bool.and_eq_true_iff.1 (Bool.and_eq_true_iff.1 h).1).1
  dsimp only at lt
  split at lt <;> omega

section
variable {s : State} {u : DecUnit} {x : Nat} {j : JobSt} {w : List (List Int) × List (List (List Int))}
  (hj : s.dev.jobOf u = some (x, j)) (stage : j.stage = .decoding) (dec : j.dec = some w) (live : j.cancelled = false)
include hj stage dec live

theorem completes_decoderIteration_of_converged {ok : Bool} (hok : (j.parity || frameCrcOk (infoBytes (j.nextWords w).hard)) = ok)
    (usc : ldpcUsc (j.nextWords w).hard = 0) : Completes (.decoderIteration u) s fun d =>
      (∀ y ∈ (d.dh x).jobs, y.esn ≠ j.esn) ∧ d.bit (Fld.DECU_STATUS_BUSY u) = false ∧
      d.reg (Adr.DEC_CNT x (if ok then (if j.rounds = 0 then 0 else 1) else 4)) =
        s.dev.counted (Adr.DEC_CNT x (if ok then (if j.rounds = 0 then 0 else 1) else 4)) 1 := by
  obtain ⟨hx, -, unit⟩ := Dev.mem_of_jobOf hj
  refine Completes.of_on (fun d => d.iteration u) rfl ?_
  rw [Dev.iteration_of_converged hj stage dec live usc, hok]
  have counter : statusCounter (if ok then 0 else 3) (j.iterated w).rounds = if ok then (if j.rounds = 0 then 0 else 1) else 4 := by
    cases ok <;> rfl
  set c := if ok then (if j.rounds = 0 then 0 else 1) else 4 with hc
  have range : c < 8 ∧ c ≠ 6 := by rw [hc]; split_ifs <;> decide
  refine ⟨Dev.endJob_jobs _ (j.iterated w) _ _ _, Dev.endJob_busy (j := j.iterated w) _ _ _ _ unit u.isLt, ?_⟩
  rw [Dev.endJob_counted (j := j.iterated w) _ _ _ _ hx unit counter range.1 range.2, Dev.counted, Dev.counted,
    s.dev.sameRegs_iterated u x j w _ (by simp only [Adr.DEC_CNT, Adr.DECU_STATUS, List.mem_singleton]; omega)]

theorem completes_decoderIteration_of_within (usc : ldpcUsc (j.nextWords w).hard ≠ 0)
    (limits : JobSt.withinLimits { j with iters := j.iters + 1 } s.dev = true) : Completes (.decoderIteration u) s fun d =>
      d.fld (Fld.DECU_STATUS_ITER u) = j.iters + 1 ∧
      (∃ y ∈ (d.dh x).jobs, y.esn = j.esn ∧ y.iters = j.iters + 1 ∧ y.dec = some ((j.nextWords w).l, (j.nextWords w).r)) ∧
      d = { s.dev with regs := d.regs, det := d.det } ∧ SameRegs s.dev d [Adr.DECU_STATUS u] := by
  obtain ⟨-, mem, -⟩ := Dev.mem_of_jobOf hj
  refine Completes.of_on (fun d => d.iteration u) rfl ?_
  rw [Dev.iteration_of_within hj stage dec live usc ((s.dev.withinLimits_iterated u x j w u.isLt).trans limits)]
  refine ⟨?_, ⟨j.iterated w, ?_, rfl, rfl, rfl⟩, rfl, s.dev.sameRegs_iterated u x j w⟩
  · unfold Dev.iterated
    rw [Dev.fld_put_self _ _ _ (by simp [Fld.DECU_STATUS_ITER])]
    exact Nat.mod_eq_of_lt (JobSt.iters_lt_of_withinLimits limits)
  · have shown : (s.dev.iterated u x j w).dh x =
      (s.dev.onDh x fun s => { s with jobs := onJob s.jobs j.esn fun _ => j.iterated w }).dh x := rfl
    rw [shown, Dev.dh_onDh_self]
    exact mem_onJob mem fun _ => j.iterated w

end

/-! ## Sweep trials (R116) -/

/-- What decoder u finds in the trial of job j at shift k. -/
def Dev.trialHard (d : Dev) (x : Nat) (j : JobSt) (k : Int) : List (List Bool) :=
  (LdpcState.runUntil (polNorm j.policy) (if d.heavyErased x j then 1 else d.fld (Fld.DEC_SWEEP_SWEEP_ITER x))
    (LdpcState.start (jobCut j.frame j.chan k))).1.hard

section
variable {d : Dev} {u x : Nat} {j : JobSt} {k : Int} (hj : d.jobOf u = some (x, j)) (stage : j.stage = .sweeping)
  (live : j.cancelled = false) (may : (j.noSweep && j.scrub) = false) (shift : sweepShifts[j.trial]? = some k)
include hj stage live may shift

theorem Dev.sweep_of_converged (usc : ldpcUsc (d.trialHard x j k) = 0)
    (ok : (j.parity || frameCrcOk (infoBytes (d.trialHard x j k))) = true) :
    d.sweep u = d.endJob x j 1 k (d.trialHard x j k).flatten := by
  unfold Dev.sweep
  rw [hj]
  simp only [stage, live, may, shift, ne_eq, not_true_eq_false, if_false, Bool.false_eq_true]
  exact (if_pos usc).trans (if_pos ok)

theorem Dev.sweep_of_missed (usc : ldpcUsc (d.trialHard x j k) ≠ 0) (early : j.trial < 7) :
    d.sweep u = d.onDh x fun s => { s with jobs := onJob s.jobs j.esn fun j => { j with trial := j.trial + 1 } } := by
  unfold Dev.sweep
  rw [hj]
  simp only [stage, live, may, shift, ne_eq, not_true_eq_false, if_false, Bool.false_eq_true]
  exact (if_neg usc).trans (if_neg (Nat.ne_of_lt early))

end

section
variable {s : State} {u : DecUnit} {x : Nat} {j : JobSt} {k : Int} (hj : s.dev.jobOf u = some (x, j)) (stage : j.stage = .sweeping)
  (live : j.cancelled = false) (may : (j.noSweep && j.scrub) = false) (shift : sweepShifts[j.trial]? = some k)
include hj stage live may shift

theorem completes_sweepTrial_of_converged (usc : ldpcUsc (s.dev.trialHard x j k) = 0)
    (ok : (j.parity || frameCrcOk (infoBytes (s.dev.trialHard x j k))) = true) : Completes (.sweepTrial u) s fun d =>
      (∀ y ∈ (d.dh x).jobs, y.esn ≠ j.esn) ∧ d.reg (Adr.DEC_CNT x 2) = s.dev.counted (Adr.DEC_CNT x 2) 1 := by
  obtain ⟨hx, -, unit⟩ := Dev.mem_of_jobOf hj
  refine Completes.of_on (fun d => d.sweep u) rfl ?_
  rw [Dev.sweep_of_converged hj stage live may shift usc ok]
  exact ⟨Dev.endJob_jobs _ _ _ _ _, Dev.endJob_counted _ _ _ _ hx unit rfl (by decide) (by decide)⟩

theorem completes_sweepTrial_of_missed (usc : ldpcUsc (s.dev.trialHard x j k) ≠ 0) (early : j.trial < 7) :
    Completes (.sweepTrial u) s fun d =>
      (∃ y ∈ (d.dh x).jobs, y.esn = j.esn ∧ y.trial = j.trial + 1) ∧ d = { s.dev with det := d.det } := by
  obtain ⟨-, mem, -⟩ := Dev.mem_of_jobOf hj
  refine Completes.of_on (fun d => d.sweep u) rfl ?_
  rw [Dev.sweep_of_missed hj stage live may shift usc early]
  refine ⟨⟨{ j with trial := j.trial + 1 }, ?_, rfl, rfl⟩, rfl⟩
  rw [Dev.dh_onDh_self]
  exact mem_onJob mem fun j => { j with trial := j.trial + 1 }

end

/-! ## Cancels (R119) -/

/-- A JOB_CANCEL (R119). -/
def Dev.jobCancel (d : Dev) (x : Nat) (e : Esn) : Dev :=
  match (d.dh x).jobs.find? fun j => j.esn == e with
  | none => d
  | some j =>
    if j.stage = .waiting ∨ j.stage = .turbo then d.endJob x j 6 0 []
    else d.onDh x fun s => { s with jobs := onJob s.jobs e fun j => { j with cancelled := true } }

theorem exec_jobCancel (s : State) (h : Head) (e : Esn) : exec (.jobCancel h e) s = s.on fun d => d.jobCancel h.ix e := rfl

section
variable {s : State} {h : Head} {e : Esn}

theorem exec_jobCancel_of_absent (absent : ∀ y ∈ (s.dev.dh h.ix).jobs, y.esn ≠ e) : exec (.jobCancel h e) s = .next s := by
  rw [exec_jobCancel]
  refine State.on_of_eq_self ?_
  have none : (s.dev.dh h.ix).jobs.find? (fun j => j.esn == e) = none :=
    List.find?_eq_none.2 fun y hy => by simpa using absent y hy
  unfold Dev.jobCancel
  rw [none]

variable {j : JobSt} (found : (s.dev.dh h.ix).jobs.find? (fun y => y.esn == e) = some j)
include found

theorem completes_jobCancel_of_idle (idle : j.stage = .waiting ∨ j.stage = .turbo) :
    Completes (.jobCancel h e) s fun d => ∀ y ∈ (d.dh h.ix).jobs, y.esn ≠ e := by
  have esn : j.esn = e := by simpa using List.find?_some found
  refine Completes.of_on _ (exec_jobCancel s h e) ?_
  unfold Dev.jobCancel
  rw [found]
  dsimp only
  rw [if_pos idle, ← esn]
  exact Dev.endJob_jobs _ _ _ _ _

theorem completes_jobCancel_of_running (running : j.stage = .decoding ∨ j.stage = .sweeping) : Completes (.jobCancel h e) s fun d =>
    (∃ y ∈ (d.dh h.ix).jobs, y.esn = e ∧ y.cancelled = true) ∧ d = { s.dev with det := d.det } := by
  have esn : j.esn = e := by simpa using List.find?_some found
  refine Completes.of_on _ (exec_jobCancel s h e) ?_
  unfold Dev.jobCancel
  rw [found]
  dsimp only
  rw [if_neg (by rcases running with r | r <;> simp [r])]
  refine ⟨⟨{ j with cancelled := true }, ?_, esn, rfl⟩, rfl⟩
  rw [Dev.dh_onDh_self, ← esn]
  exact mem_onJob (List.mem_of_find?_eq_some found) fun j => { j with cancelled := true }

end

/-! ## Faults (R120, R374, R381) and counters (R131) -/

/-- A decoder that fails shows it, and is in service no more. -/
def Dev.decoderLeaves (d : Dev) (u : Nat) : Dev :=
  (((d.putBit (Fld.DECU_STATUS_FAULT u) true).event .decoderFault u 0 []).putMask Fld.DEC_FAULT_MASK u true).putMask
    Fld.DEC_INSERVICE_MASK u false

/-- Its job goes back to the queue of its head, and is counted. -/
def Dev.jobReturns (d : Dev) (u : Nat) : Dev :=
  match d.jobOf u with
  | some (h, j) => (d.onDh h fun s => { s with jobs := requeue s.jobs j.esn }).count (Adr.DEC_CNT h 7)
  | none => d

/-- A spare decoder, if there is one and the one that failed was none, takes its place and serves both heads. -/
def Dev.spareDecodes (d : Dev) (u : Nat) (wasSpare : Bool) (e : Esn) : Dev :=
  match (if wasSpare then none else d.spareOf 6) with
  | some v => ((d.substitute 6 u v e).putMask (Fld.DEC_MASK_MASK 0) v true).putMask (Fld.DEC_MASK_MASK 1) v true
  | none => d

/-- The registers that a decoder's retirement writes. -/
def decoderRegs (u : Nat) : List Nat :=
  Adr.DECU_STATUS u :: Adr.DEC_MASK 0 :: Adr.DEC_MASK 1 :: retireRegs 6 u ++ substituteRegs

section
variable (d : Dev) (u : Nat)

theorem Dev.decoderFault_of_works (h : d.dead 6 u = false) : d.decoderFault u =
    ((((d.decoderLeaves u).jobReturns u).freeDecoder (some u)).retireUnit 6 u d.esn).spareDecodes u
      (((d.decoderLeaves u).jobReturns u).unit 6 u == .spare) d.esn :=
  if_neg (by rw [h]; exact Bool.false_ne_true)

theorem Dev.sparingFrame_spareDecodes (wasSpare : Bool) (e : Esn) :
    SparingFrame d (d.spareDecodes u wasSpare e) (decoderRegs u) := by
  cases wasSpare with
  | true => exact .refl d _
  | false =>
    unfold Dev.spareDecodes
    cases hv : d.spareOf 6 with
    | none => exact .refl d _
    | some v =>
      have works : d.dead 6 v = false := by rw [Dev.dead, Dev.unit_spareOf hv]
      have taken := (d.sparingFrame_substitute 6 u v e works).mono (l' := decoderRegs u)
        fun a ha => List.mem_append_right _ ha
      exact (taken.putMask (by simp [decoderRegs, Fld.DEC_MASK_MASK])).putMask (by simp [decoderRegs, Fld.DEC_MASK_MASK])

/-- A decoder that is freed and retired, and its spare. -/
theorem Dev.sparingFrame_decoderRetires (wasSpare : Bool) (e : Esn) :
    SparingFrame d (((d.freeDecoder (some u)).retireUnit 6 u e).spareDecodes u wasSpare e) (decoderRegs u) := by
  have freed : SparingFrame d (d.freeDecoder (some u)) (decoderRegs u) :=
    (((SparingFrame.refl d _).putBit (by simp [decoderRegs, Fld.DECU_STATUS_BUSY])).putBit
      (by simp [decoderRegs, Fld.DECU_STATUS_SWEEP])).put (by simp [decoderRegs, Fld.DECU_STATUS_ITER])
  have retired := (Dev.sparingFrame_retireUnit (d.freeDecoder (some u)) 6 u e).mono (l' := decoderRegs u)
    fun a ha => List.mem_append_left _ (List.mem_cons_of_mem _ (List.mem_cons_of_mem _ (List.mem_cons_of_mem _ ha)))
  exact (freed.trans retired).trans (Dev.sparingFrame_spareDecodes _ u wasSpare e)

/-- A job that returns leaves the registers but its counter. -/
theorem Dev.sameRegs_jobReturns : SameRegs d (d.jobReturns u) [Adr.DEC_CNT 0 7, Adr.DEC_CNT 1 7] := by
  unfold Dev.jobReturns
  split
  next x j hj =>
    have moved : SameRegs d (d.onDh x fun s => { s with jobs := requeue s.jobs j.esn }) [Adr.DEC_CNT 0 7, Adr.DEC_CNT 1 7] :=
      .of_regs_eq rfl
    obtain ⟨hx, -, -⟩ := Dev.mem_of_jobOf hj
    refine moved.count ?_
    interval_cases x <;> simp
  · exact .refl d _

theorem Dev.det_decoderLeaves : (d.decoderLeaves u).det = d.det := by
  have shown := (d.putBit (Fld.DECU_STATUS_FAULT u) true).event_only .decoderFault u 0 []
  show ((d.putBit (Fld.DECU_STATUS_FAULT u) true).event .decoderFault u 0 []).det = d.det
  rw [shown]
  rfl

/-- A job that returns waits, from the beginning. -/
theorem Dev.jobReturns_job {x : Nat} {j : JobSt} (hj : d.jobOf u = some (x, j)) : ∃ y ∈ ((d.jobReturns u).dh x).jobs,
    y.esn = j.esn ∧ y.stage = .waiting ∧ y.unit = none ∧ y.iters = 0 ∧ y.rounds = 0 := by
  obtain ⟨-, mem, -⟩ := Dev.mem_of_jobOf hj
  unfold Dev.jobReturns
  rw [hj]
  refine ⟨{ j with stage := .waiting, unit := none, iters := 0, rounds := 0, trial := 0, chan := j.chan0, dec := none }, ?_,
    rfl, rfl, rfl, rfl, rfl⟩
  show _ ∈ ((d.onDh x fun s => { s with jobs := requeue s.jobs j.esn }).dh x).jobs
  rw [Dev.dh_onDh_self]
  exact List.mem_append_left _ (List.mem_map.2 ⟨j, List.mem_filter.2 ⟨mem, by simp⟩, rfl⟩)

theorem Dev.decoderLeaves_masks (hu : u < 24) : (d.decoderLeaves u).maskBit Fld.DEC_INSERVICE_MASK u = false ∧
    (d.decoderLeaves u).maskBit Fld.DEC_FAULT_MASK u = true := by
  refine ⟨Dev.maskBit_putMask_self _ _ _ hu (by decide), ?_⟩
  refine (Dev.maskBit_of_reg_eq u (Dev.reg_setReg_ne _ _ (by decide))).trans ?_
  exact Dev.maskBit_putMask_self _ _ _ hu (by decide)

end

theorem notMem_decoderRegs (u : DecUnit) : Adr.DEC_INSERVICE ∉ decoderRegs u ∧ Adr.DEC_FAULT ∉ decoderRegs u := by
  revert u; decide

theorem exec_decoderFault_of_dead {s : State} {u : DecUnit} (h : s.dev.dead 6 u = true) : exec (.decoderFault u) s = .next s :=
  State.on_of_eq_self (f := fun d => d.decoderFault u) (if_pos h)

theorem completes_decoderFault {s : State} {u : DecUnit} (h : s.dev.dead 6 u = false) : Completes (.decoderFault u) s fun d =>
    d.dead 6 u = true ∧ d.maskBit Fld.DEC_INSERVICE_MASK u = false ∧ d.maskBit Fld.DEC_FAULT_MASK u = true ∧
    d.decoderFree u = false ∧ ∀ x j, s.dev.jobOf u = some (x, j) → ∃ y ∈ (d.dh x).jobs, y.esn = j.esn ∧ y.stage = .waiting ∧
      y.unit = none ∧ y.iters = 0 ∧ y.rounds = 0 := by
  refine Completes.of_on (fun d => d.decoderFault u) rfl ?_
  rw [Dev.decoderFault_of_works s.dev u h]
  obtain ⟨inService, fault⟩ := notMem_decoderRegs u
  obtain ⟨left, shown⟩ := s.dev.decoderLeaves_masks u u.isLt
  have returned := (s.dev.decoderLeaves u).sameRegs_jobReturns u
  have retires := ((s.dev.decoderLeaves u).jobReturns u).sparingFrame_decoderRetires u
    (((s.dev.decoderLeaves u).jobReturns u).unit 6 u == .spare) s.dev.esn
  have dead := (Dev.sparingFrame_spareDecodes _ u (((s.dev.decoderLeaves u).jobReturns u).unit 6 u == .spare) s.dev.esn).dead 6 u
    (Dev.dead_retireUnit (((s.dev.decoderLeaves u).jobReturns u).freeDecoder (some u.val)) 6 u s.dev.esn)
  have out := (retires.regs.maskBit u.val inService).trans ((returned.maskBit u.val (by decide)).trans left)
  refine ⟨dead, out, (retires.regs.maskBit u.val fault).trans ((returned.maskBit u.val (by decide)).trans shown), ?_, ?_⟩
  · unfold Dev.decoderFree
    rw [out, Bool.false_and, Bool.false_and]
  · intro x j hj
    rw [Dev.dh_of_det_eq (by rw [retires.only])]
    exact Dev.jobReturns_job _ u ((Dev.jobOf_of_det_eq (s.dev.det_decoderLeaves u) u).trans hj)

theorem completes_decCntClr (s : State) : Completes .decCntClr s fun d =>
    (∀ x < 2, ∀ k < 8, d.reg (Adr.DEC_CNT x k) = 0) ∧ d = { s.dev with regs := d.regs } ∧
    SameRegs s.dev d (((List.range 8).map (Adr.DEC_CNT 0)) ++ (List.range 8).map (Adr.DEC_CNT 1)) := by
  refine Completes.of_on (fun d => (d.clearCounters (Adr.DEC_CNT 0)).clearCounters (Adr.DEC_CNT 1)) rfl ⟨?_, ?_⟩
  · intro x hx k hk
    interval_cases x
    · have other : Adr.DEC_CNT 0 k ∉ (List.range 8).map (Adr.DEC_CNT 1) := by
        simp only [List.mem_map, List.mem_range, Adr.DEC_CNT, not_exists, not_and]; omega
      rw [(Dev.regFrame_clearCounters _ _).2 _ other]
      exact Dev.reg_clearCounters_self _ _ hk
    · exact Dev.reg_clearCounters_self _ _ hk
  · exact ((Dev.regFrame_clearCounters _ _).mono (List.subset_append_left ..)).trans
      ((Dev.regFrame_clearCounters _ _).mono (List.subset_append_right ..))

/-- Settles O33: starts, iterations, sweep trials, cancels, faults and CNT_CLR, each where it takes effect and where it does not. -/
theorem decodersRunJobs : Obligations.DecodersRunJobs := fun s u _ _ =>
  ⟨exec_decoderJobStart_of_nothing, fun _ _ free head ready => completes_decoderJobStart free head ready,
    fun idle => ⟨State.on_of_eq_self (f := fun d => d.iteration u) (Dev.jobs_of_jobOf_none idle).1,
      State.on_of_eq_self (f := fun d => d.sweep u) (Dev.jobs_of_jobOf_none idle).2⟩,
    fun _ _ _ hj stage dec live => ⟨completes_decoderIteration_of_converged hj stage dec live rfl,
      completes_decoderIteration_of_within hj stage dec live⟩,
    fun _ _ _ hj stage live may shift => ⟨completes_sweepTrial_of_converged hj stage live may shift,
      completes_sweepTrial_of_missed hj stage live may shift⟩,
    exec_jobCancel_of_absent, fun _ found => ⟨completes_jobCancel_of_idle found, completes_jobCancel_of_running found⟩,
    exec_decoderFault_of_dead, completes_decoderFault, completes_decCntClr s⟩

end Sys2Proof.Machine

/-! PROOFS. Stripe engines (O34): the ends of their jobs, their faults and their counters. -/

namespace Sys2Proof.Machine

/-! ## Registers and the buffer -/

/-- d' differs from d in registers of a list and in the buffer. -/
structure BufFrame (d d' : Dev) (l : List Nat) : Prop where
  only : d' = { d with regs := d'.regs, mem := d'.mem }
  regs : SameRegs d d' l

section
variable {d d' : Dev} {l : List Nat}

theorem BufFrame.trans {d'' : Dev} (h : BufFrame d d' l) (h' : BufFrame d' d'' l) : BufFrame d d'' l := by
  obtain ⟨only, regs⟩ := h
  obtain ⟨only', regs'⟩ := h'
  refine ⟨?_, regs.trans regs'⟩
  rw [only] at only'
  exact only'

theorem BufFrame.refl (d : Dev) (l : List Nat) : BufFrame d d l := ⟨rfl, .refl d l⟩

theorem BufFrame.setReg (h : BufFrame d d' l) {a : Nat} {v : Word} (ha : a ∈ l) : BufFrame d (d'.setReg a v) l :=
  h.trans ⟨rfl, (SameRegs.refl d' l).setReg ha⟩

theorem BufFrame.bufWrite (h : BufFrame d d' l) (a : Nat) (x : List Byte) : BufFrame d (d'.bufWrite a x) l :=
  h.trans ⟨rfl, SameRegs.of_regs_eq rfl⟩

theorem BufFrame.setFrameBytes (h : BufFrame d d' l) (buf j : Nat) (x : List Byte) : BufFrame d (d'.setFrameBytes buf j x) l := by
  unfold Dev.setFrameBytes
  dsimp only
  split
  · exact (h.bufWrite _ _).bufWrite _ _
  · exact h.bufWrite _ _

/-- A change made where a condition holds. -/
theorem BufFrame.when (h : BufFrame d d' l) {c : Bool} {f : Dev → Dev} (hf : BufFrame d' (f d') l) : BufFrame d (d'.when c f) l := by
  cases c with
  | true => exact h.trans hf
  | false => exact h

/-- A change made for every element of a list. -/
theorem BufFrame.each (h : BufFrame d d' l) {α : Type} {f : Dev → α → Dev} (xs : List α) (hf : ∀ n x, BufFrame n (f n x) l) :
    BufFrame d (d'.each xs f) l :=
  Dev.each_induction (BufFrame d · l) f (fun n x hn => hn.trans (hf n x)) xs d' h

theorem BufFrame.stripeJob (h : BufFrame d d' l) (x slot : Nat) : d'.stripeJob x slot = d.stripeJob x slot := by rw [h.only]; rfl

theorem BufFrame.mailRoom (h : BufFrame d d' l) (t : Nat) : d'.mailRoom t = d.mailRoom t := by rw [h.only]; rfl

end

/-- The registers in which a first read of a page shows. -/
def virginRegs : List Nat := [Adr.MEM_STATUS, Adr.MEM_ERR_ADDR, Adr.MEM_ERR_KIND]

theorem Dev.bufFrame_noteVirgin (d : Dev) (a n : Nat) : BufFrame d (d.noteVirgin a n) virginRegs := by
  unfold Dev.noteVirgin
  split
  · exact (((BufFrame.refl d _).setReg (by decide)).setReg (by decide)).setReg (by decide)
  · exact .refl d _

/-! ## The end of a stripe job (R127, R128, R262) -/

/-- What a stripe job leaves in its slot as it ends with a status. -/
def StripeJob.kept (j : StripeJob) (status : Nat) : StripeJob :=
  if status = 4 then { j with encoded := true } else { j with ended := true, rebuilding := false, held := !(status == 3 || status == 4) }

/-- The result of a stripe job is born. -/
def Dev.stripeBorn (d : Dev) (j : StripeJob) (status : Nat) (erased : List Nat) (fail : Nat) : Dev :=
  if status = 0 then d.issue else d.eventFor j.rcpt .stripeResult j.engine status [erased.length, maskOf erased, fail]

theorem Dev.stripeEnd_eq (d : Dev) (x slot : Nat) (j : StripeJob) (status : Nat) (erased : List Nat) (fail : Nat) :
    d.stripeEnd x slot j status erased fail = (((d.stripeBorn j status erased fail).setStripe x slot (some (j.kept status))).postMailWith
      j.task ([0x02] ++ zeroBytes 7 ++ stripeRecord d.esn j.rcpt status erased fail)
      (if status == 3 || status == 4 then .nothing else .stripe (64 * x + slot))).showStripes := rfl

section
variable (d : Dev)

@[simp] theorem Dev.stripeJob_setStripe_self (x slot : Nat) (j : Option StripeJob) : (d.setStripe x slot j).stripeJob x slot = j := by
  unfold Dev.stripeJob Dev.setStripe
  exact Tab.get_set_self ..

theorem Dev.stripeJob_showStripes (x slot : Nat) : d.showStripes.stripeJob x slot = d.stripeJob x slot := by
  rw [Dev.stripeJob, d.regsOnly_showStripes.det]; rfl

/-- A result's birth leaves the mailboxes. -/
theorem Dev.mailRoom_stripeBorn (j : StripeJob) (status : Nat) (erased : List Nat) (fail t : Nat) :
    (d.stripeBorn j status erased fail).mailRoom t = d.mailRoom t := by
  unfold Dev.stripeBorn
  split
  · rw [Dev.issue_only]; rfl
  · show d.issue.mailRoom t = _
    rw [Dev.issue_only]; rfl

/-- A record with which nothing more ends leaves the stripe slots. -/
theorem Dev.stripeJob_postMail (t : Nat) (r : List Byte) (x slot : Nat) :
    (d.postMailWith t r .nothing).stripeJob x slot = d.stripeJob x slot := by
  unfold Dev.postMailWith
  split <;> rfl

/-- The record of a stripe job frees its slot where it has its place. -/
theorem Dev.stripeJob_postMail_stripe (t : Nat) (r : List Byte) (x slot : Nat) :
    (d.postMailWith t r (.stripe (64 * x + slot))).stripeJob x slot = if d.mailRoom t then none else d.stripeJob x slot := by
  have place : 64 * 0 + (64 * x + slot) = 64 * x + slot := by omega
  unfold Dev.postMailWith Dev.mailEnds
  split
  · rw [Dev.stripeJob_showStripes, Dev.stripeJob, Dev.setStripe, place]
    exact Tab.get_set_self _ _ none
  · rfl

/-- An UNRECOVERED job and an ENCODED one keep their slot. -/
theorem Dev.stripeEnd_job_of_stays (x slot : Nat) (j : StripeJob) {status : Nat} (hs : status = 3 ∨ status = 4) (erased : List Nat)
    (fail : Nat) : (d.stripeEnd x slot j status erased fail).stripeJob x slot = some (j.kept status) := by
  have stays : (status == 3 || status == 4) = true := by simpa using hs
  rw [Dev.stripeEnd_eq, if_pos stays, Dev.stripeJob_showStripes, Dev.stripeJob_postMail, Dev.stripeJob_setStripe_self]

/-- Any other frees it, unless its mailbox has no room. -/
theorem Dev.stripeEnd_job_of_leaves (x slot : Nat) (j : StripeJob) {status : Nat} (h3 : status ≠ 3) (h4 : status ≠ 4)
    (erased : List Nat) (fail : Nat) : (d.stripeEnd x slot j status erased fail).stripeJob x slot =
      if d.mailRoom j.task then none else some (j.kept status) := by
  have leaves : (status == 3 || status == 4) = false := by simp [h3, h4]
  have room : ((d.stripeBorn j status erased fail).setStripe x slot (some (j.kept status))).mailRoom j.task = d.mailRoom j.task :=
    d.mailRoom_stripeBorn ..
  rw [Dev.stripeEnd_eq, if_neg (by rw [leaves]; exact Bool.false_ne_true), Dev.stripeJob_showStripes, Dev.stripeJob_postMail_stripe,
    Dev.stripeJob_setStripe_self, room]

/-- What the stripe engines' slots show leaves the other bits of their status. -/
theorem Dev.bit_showStripes (f : Field) (hf : 1 ≤ f.lo ∧ f.lo + f.width ≤ 8) : d.showStripes.bit f = d.bit f := by
  unfold Dev.showStripes
  refine Dev.each_induction (fun n => n.bit f = d.bit f) _ (fun n e hn => ?_) _ _ rfl
  rw [Dev.bit_putBit_ne _ _ _ _ (.inr (.inr (by simpa [Fld.STR_STATUS_BUSY] using hf.1))) (by simp [Fld.STR_STATUS_BUSY]),
    Dev.bit_put_ne _ _ _ _ (.inr (.inl (by simpa [Fld.STR_STATUS_OPEN] using hf.2))) (by simp [Fld.STR_STATUS_OPEN]), hn]

/-- The end of a job that keeps its slot leaves the other bits of its engine's status. -/
theorem Dev.bit_stripeEnd (x slot : Nat) (j : StripeJob) {status : Nat} (hs : status = 3 ∨ status = 4) (erased : List Nat) (fail : Nat)
    (f : Field) {e : Nat} (ha : f.adr = Adr.STR_STATUS e) (he : e < 2) (hf : 1 ≤ f.lo ∧ f.lo + f.width ≤ 8) :
    (d.stripeEnd x slot j status erased fail).bit f = d.bit f := by
  have stays : (status == 3 || status == 4) = true := by simpa using hs
  have born : SameRegs d (d.stripeBorn j status erased fail) [Adr.LOCUS_STATUS] := by
    unfold Dev.stripeBorn
    split
    · exact d.sameRegs_issue
    · exact d.sameRegs_issue.trans (.of_regs_eq rfl)
  rw [Dev.stripeEnd_eq, if_pos stays, Dev.bit_showStripes _ f hf]
  refine (Dev.bit_of_reg_eq ?_).trans (born.bit (by rw [ha]; simp only [Adr.STR_STATUS, Adr.LOCUS_STATUS, List.mem_singleton]; omega))
  unfold Dev.postMailWith
  split
  · rfl
  · refine Dev.reg_setReg_ne _ _ ?_
    rw [ha]
    simp only [Adr.STR_STATUS, Adr.SPP_CNT]
    omega

end

/-! ## Encode and rebuild jobs (R125, R126) -/

/-- The counters of the stripe engines, and their control, are none of the registers that the end of a job writes. -/
theorem notMem_jobRegs_strCnt {e k : Nat} (he : e < 2) (hk : k < 8) : Adr.STR_CNT e k ∉ jobRegs 0 := by
  interval_cases e <;> interval_cases k <;> decide

/-- The registers that a rebuild writes before its end. -/
def rebuildRegs (e : Nat) : List Nat := [Adr.STR_STATUS e, Adr.STR_CNT e 1, Adr.STR_CNT e 2, Adr.STR_CNT e 3, Adr.STR_CNT e 5]

theorem strCnt_notMem (e : StrUnit) : Adr.STR_CNT e 7 ∉ virginRegs ∧ Adr.STR_CNT e 4 ∉ rebuildRegs e ∧
    Adr.STR_CNT e 4 ≠ Adr.STR_STATUS e := by
  revert e; decide

section
variable {s : State} {e : StrUnit} {h : Head} {slot : Fin 64}

theorem exec_encodeDone_of_other (other : ∀ j, s.dev.stripeJob h.ix slot = some j → j.op ≠ 2 ∨ j.encoded = true ∨ j.engine ≠ e.val) :
    exec (.encodeDone e h slot) s = .next s := by
  refine State.on_of_eq_self (f := fun d => d.encodeDone e h.ix slot) ?_
  unfold Dev.encodeDone
  split
  · rfl
  next j hj => exact if_pos (other j hj)

theorem exec_stripeRebuildDone_of_other (other : ∀ j, s.dev.stripeJob h.ix slot = some j → j.rebuilding = false ∨ j.engine ≠ e.val) :
    exec (.stripeRebuildDone e h slot) s = .next s := by
  refine State.on_of_eq_self (f := fun d => d.rebuildDone e h.ix slot) ?_
  unfold Dev.rebuildDone
  split
  · rfl
  next j hj => exact if_pos (by simpa using other j hj)

end

/-- The buffer with an encode job's metadata and parity written. -/
def Dev.encodeWritten (d : Dev) (s : StripeJob) : Dev :=
  let frames := (List.range 24).map (d.encodeFrame s)
  let d := d.noteVirgin (s.buf * pageBytes) (24 * pageBytes)
  let d := d.each (List.zip (List.range 24) frames) fun d p =>
    d.bufWrite (s.buf * pageBytes + 24 * pageBytes + 64 * p.1) (bytesAt p.2 4096 64)
  d.each (List.zip (List.range 8) (stripeEncode frames)) fun d p => d.setFrameBytes s.buf (24 + p.1) p.2

theorem Dev.bufFrame_encodeWritten (d : Dev) (s : StripeJob) : BufFrame d (d.encodeWritten s) virginRegs := by
  unfold Dev.encodeWritten
  exact ((d.bufFrame_noteVirgin _ _).each _ fun n p => (BufFrame.refl n _).bufWrite _ _).each _
    fun n p => (BufFrame.refl n _).setFrameBytes _ _ _

theorem Dev.encodeDone_of_job {d : Dev} {e h slot : Nat} {j : StripeJob} (hj : d.stripeJob h slot = some j) (op : j.op = 2)
    (pending : j.encoded = false) (engine : j.engine = e) :
    d.encodeDone e h slot = ((d.encodeWritten j).count (Adr.STR_CNT e 7)).stripeEnd h slot j 4 [] 0 := by
  unfold Dev.encodeDone
  rw [hj]
  exact if_neg (by simp [op, pending, engine])

theorem completes_encodeDone {s : State} {e : StrUnit} {h : Head} {slot : Fin 64} {j : StripeJob}
    (hj : s.dev.stripeJob h.ix slot = some j) (op : j.op = 2) (pending : j.encoded = false) (engine : j.engine = e.val) :
    Completes (.encodeDone e h slot) s fun d => d.stripeJob h.ix slot = some { j with encoded := true } ∧
      d.reg (Adr.STR_CNT e 7) = s.dev.counted (Adr.STR_CNT e 7) 1 := by
  refine Completes.of_on (fun d => d.encodeDone e h.ix slot) rfl ?_
  rw [Dev.encodeDone_of_job hj op pending engine]
  refine ⟨Dev.stripeEnd_job_of_stays _ _ _ j (.inr rfl) _ _, ?_⟩
  rw [(Dev.jobFrame_stripeEnd _ 0 h.ix slot j 4 [] 0).regs _ (notMem_jobRegs_strCnt e.isLt (by decide))]
  refine (Dev.reg_setReg_self _ _ _).trans ?_
  unfold Dev.counted
  rw [(s.dev.bufFrame_encodeWritten j).regs _ (strCnt_notMem e).1]

/-- The generations of a stripe's frames are noted where they differ. -/
def Dev.rebuildMarked (d : Dev) (e : Nat) (s : StripeJob) : Dev :=
  d.when (2 ≤ (generations s ((List.range 32).map (d.frameBytes s.buf))).length) fun d =>
    (d.putBit (Fld.STR_STATUS_MIXED_WESN e) true).count (Adr.STR_CNT e 5)

/-- The recoveries that engine e tries: one, or one for each generation. -/
def Dev.rebuildTries (d : Dev) (e : Nat) (s : StripeJob) : List Recovery :=
  let frames := (List.range 32).map (d.frameBytes s.buf)
  let en := (d.rebuildMarked e s).bit (Fld.STR_CTRL_ERRORS_EN e)
  if 2 ≤ (generations s frames).length then (generations s frames).map fun w => recoverStripe en (lostTo s frames w) frames
  else [recoverStripe en s.failed frames]

/-- The frames that those tries located are counted, up to the first that succeeds. -/
def Dev.rebuildSearched (d : Dev) (e : Nat) (s : StripeJob) : Dev :=
  let tries := d.rebuildTries e s
  let run := match tries.findIdx? (·.ok) with
    | some i => tries.take (i + 1)
    | none => tries
  (d.rebuildMarked e s).countBy (Adr.STR_CNT e 3) ((run.map fun r => r.located.length).foldl (· + ·) 0)

/-- The frames in the erased set of recovery r that fail their CRC or identity. -/
def Dev.rebuildBad (d : Dev) (e : Nat) (s : StripeJob) (r : Recovery) : List Nat :=
  (r.erased.filter (· < 24)).filter fun j =>
    let l := r.frames[j]?.getD []
    !frameCrcOk l || (d.bit (Fld.STR_CTRL_ID_CHECK e) && !s.identity j l)

/-- The others are written, and all counted. -/
def Dev.rebuildWritten (d : Dev) (e : Nat) (s : StripeJob) (r : Recovery) : Dev :=
  let bad := d.rebuildBad e s r
  (d.each (r.erased.filter fun j => !bad.contains j) fun d j => d.setFrameBytes s.buf j (r.frames[j]?.getD [])).countBy
    (Adr.STR_CNT e 2) r.erased.length

/-- A job that stays UNRECOVERED is counted, and shows. -/
def Dev.unrecovered (d : Dev) (e : Nat) : Dev := (d.count (Adr.STR_CNT e 4)).putBit (Fld.STR_STATUS_UNRECOVERED e) true

theorem Dev.bufFrame_rebuildSearched (d : Dev) (e : Nat) (s : StripeJob) : BufFrame d (d.rebuildSearched e s) (rebuildRegs e) := by
  have marked : BufFrame d (d.rebuildMarked e s) (rebuildRegs e) :=
    (BufFrame.refl d _).when (((BufFrame.refl d _).setReg (by simp [rebuildRegs, Fld.STR_STATUS_MIXED_WESN])).setReg
      (by simp [rebuildRegs]))
  exact marked.setReg (by simp [rebuildRegs])

theorem Dev.bufFrame_rebuildWritten (d : Dev) (e : Nat) (s : StripeJob) (r : Recovery) :
    BufFrame d (d.rebuildWritten e s r) (rebuildRegs e) :=
  ((BufFrame.refl d _).each _ fun n _ => (BufFrame.refl n _).setFrameBytes _ _ _).setReg (by simp [rebuildRegs])

/-- The frames that a rebuild without a recovery gives as lost, and of these the data frames. -/
def Dev.rebuildLost (d : Dev) (e : Nat) (s : StripeJob) : List Nat × Nat :=
  let frames := (List.range 32).map (d.frameBytes s.buf)
  let mixed := 2 ≤ (generations s frames).length
  let era := if mixed then lostTo s frames ((generations s frames).headD 0) else ((d.rebuildTries e s).map (·.erased)).headD []
  (era, if mixed then 0xffffff else maskOf (era.filter (· < 24)))

/-- How the end of a rebuild follows from its recovery. -/
def Dev.rebuildEnds (d : Dev) (e h slot : Nat) (s : StripeJob) (lost : List Nat × Nat) : Option Recovery → Dev
  | some r =>
    if (d.rebuildBad e s r).isEmpty then ((d.rebuildWritten e s r).count (Adr.STR_CNT e 1)).stripeEnd h slot s 1 r.erased 0
    else ((d.rebuildWritten e s r).unrecovered e).stripeEnd h slot s 3 r.erased (maskOf (d.rebuildBad e s r))
  | none => (d.unrecovered e).stripeEnd h slot s 3 lost.1 lost.2

theorem Dev.rebuildDone_eq {d : Dev} {e h slot : Nat} {j : StripeJob} (hj : d.stripeJob h slot = some j) (runs : j.rebuilding = true)
    (engine : j.engine = e) : d.rebuildDone e h slot =
      (d.rebuildSearched e j).rebuildEnds e h slot j (d.rebuildLost e j) ((d.rebuildTries e j).find? (·.ok)) := by
  unfold Dev.rebuildDone
  rw [hj]
  exact if_neg (by simp [runs, engine])

/-- A rebuild ends recovered, or UNRECOVERED and counted, the buffer written. -/
theorem Dev.rebuildEnds_cases (d : Dev) (e h slot : Nat) (j : StripeJob) (lost : List Nat × Nat) (o : Option Recovery) :
    ∃ n, BufFrame d n (rebuildRegs e) ∧ ((∃ erased, d.rebuildEnds e h slot j lost o = n.stripeEnd h slot j 1 erased 0) ∨
      ∃ erased fail, d.rebuildEnds e h slot j lost o = (n.unrecovered e).stripeEnd h slot j 3 erased fail) := by
  cases o with
  | none => exact ⟨d, .refl d _, .inr ⟨_, _, rfl⟩⟩
  | some r =>
    have written := d.bufFrame_rebuildWritten e j r
    by_cases bad : (d.rebuildBad e j r).isEmpty = true
    · exact ⟨_, written.setReg (a := Adr.STR_CNT e 1) (by simp [rebuildRegs]), .inl ⟨_, if_pos bad⟩⟩
    · exact ⟨_, written, .inr ⟨_, _, if_neg bad⟩⟩

theorem completes_stripeRebuildDone {s : State} {e : StrUnit} {h : Head} {slot : Fin 64} {j : StripeJob}
    (hj : s.dev.stripeJob h.ix slot = some j) (runs : j.rebuilding = true) (engine : j.engine = e.val) :
    Completes (.stripeRebuildDone e h slot) s fun d => d.stripeJob h.ix slot =
        (if s.dev.mailRoom j.task then none else some { j with ended := true, rebuilding := false, held := true }) ∨
      d.stripeJob h.ix slot = some { j with ended := true, rebuilding := false, held := false } ∧
        d.bit (Fld.STR_STATUS_UNRECOVERED e) = true ∧ d.reg (Adr.STR_CNT e 4) = s.dev.counted (Adr.STR_CNT e 4) 1 := by
  refine Completes.of_on (fun d => d.rebuildDone e h.ix slot) rfl ?_
  rw [Dev.rebuildDone_eq hj runs engine]
  obtain ⟨n, written, ⟨erased, eq⟩ | ⟨erased, fail, eq⟩⟩ := (s.dev.rebuildSearched e j).rebuildEnds_cases e h.ix slot j
    (s.dev.rebuildLost e j) ((s.dev.rebuildTries e j).find? (·.ok))
  all_goals have searched := (s.dev.bufFrame_rebuildSearched e j).trans written
  · left
    rw [eq, Dev.stripeEnd_job_of_leaves _ _ _ j (by decide) (by decide), searched.mailRoom]
    rfl
  · right
    obtain ⟨-, counter, status⟩ := strCnt_notMem e
    rw [eq]
    refine ⟨Dev.stripeEnd_job_of_stays _ _ _ j (.inl rfl) _ _, ?_, ?_⟩
    · refine (Dev.bit_stripeEnd _ h.ix slot j (.inl rfl) erased fail _ rfl e.isLt (by simp [Fld.STR_STATUS_UNRECOVERED])).trans ?_
      exact Dev.bit_putBit_self _ _ _ rfl (by simp [Fld.STR_STATUS_UNRECOVERED])
    · rw [(Dev.jobFrame_stripeEnd _ 0 h.ix slot j 3 erased fail).regs _ (notMem_jobRegs_strCnt e.isLt (by decide))]
      refine (Dev.reg_setReg_ne _ _ status).trans ((Dev.reg_setReg_self _ _ _).trans ?_)
      unfold Dev.counted
      rw [searched.regs _ counter]

/-! ## Faults (R129) -/

/-- The entries of a table after a value was placed: that one, and the others as they were. -/
theorem Tab.mem_place {α : Type} {k : Nat} {v : α} {p : Nat × α} : ∀ {t : Tab α}, p ∈ t.place k v → p = (k, v) ∨ p ∈ t
  | [], hp => .inl (List.mem_singleton.1 hp)
  | e :: t, hp => by
    unfold Tab.place at hp
    split at hp
    · exact List.mem_cons.1 hp
    · rcases List.mem_cons.1 hp with rfl | hp
      · exact .inr List.mem_cons_self
      · exact (Tab.mem_place hp).imp_right (List.mem_cons_of_mem _)

theorem Tab.mem_of_mem_erase {α : Type} {k : Nat} {p : Nat × α} : ∀ {t : Tab α}, p ∈ t.erase k → p ∈ t
  | e :: t, hp => by
    unfold Tab.erase at hp
    split at hp
    · exact List.mem_cons_of_mem _ (Tab.mem_of_mem_erase hp)
    · exact (List.mem_cons.1 hp).elim (fun h => h ▸ List.mem_cons_self) fun h => List.mem_cons_of_mem _ (Tab.mem_of_mem_erase h)

/-- The stripe jobs held after one was set: that one, and the others as they were. -/
theorem Dev.mem_stripeJobs_setStripe {d : Dev} {x slot : Nat} {j : StripeJob} {p : Nat × StripeJob}
    (hp : p ∈ (d.setStripe x slot (some j)).stripeJobs) : p = (64 * x + slot, j) ∨ p ∈ d.stripeJobs ∧ p.1 ≠ 64 * x + slot := by
  obtain ⟨r, hr, eq⟩ := List.mem_filterMap.1 hp
  obtain ⟨y, hy, rfl⟩ := Option.map_eq_some_iff.1 eq
  unfold Dev.setStripe Tab.set at hr
  rw [if_neg (Option.some_ne_none j)] at hr
  rcases Tab.mem_place hr with rfl | hr
  · exact .inl (by rw [Option.some.inj hy])
  · exact .inr ⟨List.mem_filterMap.2 ⟨r, Tab.mem_of_mem_erase hr, by rw [hy]; rfl⟩, Tab.erase_ne _ _ r hr⟩

/-- Job p of engine e moves to the other engine. -/
def Dev.jobMoves (e : Nat) (d : Dev) (p : Nat × StripeJob) : Dev :=
  if p.2.engine = e then d.setStripe (p.1 / 64) (p.1 % 64) (some { p.2 with engine := 1 - e }) else d

/-- Once those of a list have moved, the jobs of engine e are those left to move. -/
theorem Dev.stripeJobs_jobsMove {e : Nat} (he : 1 - e ≠ e) : ∀ (l : List (Nat × StripeJob)) (d : Dev),
    (∀ p ∈ d.stripeJobs, p.2.engine = e → p ∈ l) → ∀ p ∈ (d.each l (Dev.jobMoves e)).stripeJobs, p.2.engine ≠ e
  | [], _, inList, p, hp, engine => List.not_mem_nil (inList p hp engine)
  | q :: l, d, inList, p, hp, engine => by
    refine Dev.stripeJobs_jobsMove he l (d.jobMoves e q) (fun r hr engine => ?_) p hp engine
    unfold Dev.jobMoves at hr
    split at hr
    next moved =>
      have place : 64 * (q.1 / 64) + q.1 % 64 = q.1 := Nat.div_add_mod ..
      rcases Dev.mem_stripeJobs_setStripe hr with rfl | ⟨old, ne⟩
      · exact absurd engine he
      · rcases List.mem_cons.1 (inList r old engine) with rfl | rest
        · exact absurd place.symm ne
        · exact rest
    next other =>
      rcases List.mem_cons.1 (inList r hr engine) with rfl | rest
      · exact absurd engine other
      · exact rest

theorem Dev.jobsMove_only (e : Nat) (d : Dev) (l : List (Nat × StripeJob)) :
    d.each l (Dev.jobMoves e) = { d with det := (d.each l (Dev.jobMoves e)).det } := by
  refine Dev.each_induction (fun n => n = { d with det := n.det }) _ (fun n p hn => ?_) l d rfl
  unfold Dev.jobMoves
  split
  · rw [hn]; rfl
  · exact hn

/-- A stripe engine that fails shows it, and is retired. -/
def Dev.engineLeaves (d : Dev) (e : Nat) : Dev :=
  ((d.putBit (Fld.STR_STATUS_FAULT e) true).event .stripeFault e 0 []).retireUnit 15 e d.esn

/-- The other engine, if it works, takes its place. -/
def Dev.engineTakesOver (d : Dev) (e : Nat) (cause : Esn) : Dev :=
  if d.dead 15 (1 - e) then d else d.substitute 15 e (1 - e) cause

theorem Dev.stripeFault_of_works (d : Dev) (e : Nat) (h : d.dead 15 e = false) : d.stripeFault e =
    (((d.engineLeaves e).each (d.engineLeaves e).stripeJobs (Dev.jobMoves e)).engineTakesOver e d.esn).showStripes :=
  if_neg (by rw [h]; exact Bool.false_ne_true)

theorem Dev.sparingFrame_engineTakesOver (d : Dev) (e : Nat) (cause : Esn) :
    SparingFrame d (d.engineTakesOver e cause) substituteRegs := by
  unfold Dev.engineTakesOver
  split
  · exact .refl d _
  next works => exact d.sparingFrame_substitute 15 e (1 - e) cause (Bool.eq_false_iff.2 works)

theorem strStatus_notMem (e : StrUnit) : Adr.STR_STATUS e ∉ retireRegs 15 e ∧ Adr.STR_STATUS e ∉ substituteRegs := by
  revert e; decide

theorem exec_stripeEngineFault_of_dead {s : State} {e : StrUnit} (h : s.dev.dead 15 e = true) :
    exec (.stripeEngineFault e) s = .next s :=
  State.on_of_eq_self (f := fun d => d.stripeFault e) (if_pos h)

theorem completes_stripeEngineFault {s : State} {e : StrUnit} (h : s.dev.dead 15 e = false) :
    Completes (.stripeEngineFault e) s fun d => d.dead 15 e = true ∧ d.bit (Fld.STR_STATUS_FAULT e) = true ∧
      ∀ p ∈ d.stripeJobs, p.2.engine ≠ e.val := by
  refine Completes.of_on (fun d => d.stripeFault e) rfl ?_
  rw [Dev.stripeFault_of_works s.dev e h]
  obtain ⟨retiring, substituting⟩ := strStatus_notMem e
  have other : 1 - e.val ≠ e.val := by omega
  set left := s.dev.engineLeaves e with hleft
  set moved := left.each left.stripeJobs (Dev.jobMoves e) with hmoved
  have movedOnly : moved = { left with det := moved.det } := left.jobsMove_only e _
  have taken := moved.sparingFrame_engineTakesOver e s.dev.esn
  have shown : RegsOnly (moved.engineTakesOver e s.dev.esn) (moved.engineTakesOver e s.dev.esn).showStripes := Dev.regsOnly_showStripes _
  refine ⟨?_, ?_, fun p hp => ?_⟩
  · have retired : moved.dead 15 e = true := by rw [movedOnly]; exact Dev.dead_retireUnit ..
    rw [Dev.dead_congr (by rw [shown])]
    exact taken.dead 15 e retired
  · rw [Dev.bit_showStripes _ _ (by simp [Fld.STR_STATUS_FAULT]), taken.regs.bit substituting, movedOnly]
    refine ((Dev.sparingFrame_retireUnit _ 15 e s.dev.esn).regs.bit (f := Fld.STR_STATUS_FAULT e) retiring).trans ?_
    refine ((Dev.sameRegs_event _ .stripeFault e 0 []).bit ?_).trans ?_
    · simp only [Fld.STR_STATUS_FAULT, Adr.STR_STATUS, Adr.LOCUS_STATUS, List.mem_singleton]; omega
    · exact Dev.bit_putBit_self _ _ _ rfl (by simp [Fld.STR_STATUS_FAULT])
  · refine Dev.stripeJobs_jobsMove other left.stripeJobs left (fun _ hr _ => hr) p ?_
    have stripes : (moved.engineTakesOver e s.dev.esn).showStripes.stripeJobs = moved.stripeJobs := by
      unfold Dev.stripeJobs
      rw [shown.det, taken.only]
    rwa [stripes] at hp

/-! ## Counters and enables (R131, R132, R488) -/

theorem completes_strCntClr (s : State) (e : StrUnit) : Completes (.strCntClr e) s fun d =>
    (∀ k < 8, d.reg (Adr.STR_CNT e k) = 0) ∧ d = { s.dev with regs := d.regs } ∧
    SameRegs s.dev d ((List.range 8).map (Adr.STR_CNT e)) :=
  Completes.of_on (fun d => d.clearCounters (Adr.STR_CNT e)) rfl
    ⟨fun _ hk => Dev.reg_clearCounters_self _ _ hk, Dev.regFrame_clearCounters _ _⟩

theorem completes_strEnable (s : State) (e : StrUnit) (on : Bool) : Completes (.strEnable e on) s fun d =>
    d.bit (Fld.STR_CTRL_ENABLE e) = on ∧ d = { s.dev with regs := d.regs } ∧ SameRegs s.dev d [Adr.STR_CTRL e] :=
  Completes.of_on (fun d => d.putBit (Fld.STR_CTRL_ENABLE e) on) rfl
    ⟨Dev.bit_putBit_self _ _ _ rfl (by simp [Fld.STR_CTRL_ENABLE]), (RegFrame.refl s.dev _).putBit (by simp [Fld.STR_CTRL_ENABLE])⟩

/-- Settles O34: the ends of encode and rebuild jobs, the fault, CNT_CLR and ENABLE of a stripe engine. -/
theorem stripeEnginesEndJobs : Obligations.StripeEnginesEndJobs := fun s e _ _ on =>
  ⟨exec_encodeDone_of_other, fun _ hj op pending engine => completes_encodeDone hj op pending engine,
    exec_stripeRebuildDone_of_other, fun _ hj runs engine => completes_stripeRebuildDone hj runs engine,
    exec_stripeEngineFault_of_dead, completes_stripeEngineFault, completes_strCntClr s e, completes_strEnable s e on⟩

end Sys2Proof.Machine

/-! PROOFS. Span tasks: what an instruction's issue, its retirement and its exceptions change; the queues and effects (O48) rest on this. -/

namespace Sys2Proof.Machine

/-! ## The state of one task -/

/-- d' differs from d in the state of task t alone. -/
structure TaskMoved (t : Nat) (d d' : Dev) : Prop where
  only : d' = { d with span := { d.span with tasks := d'.span.tasks } }
  others : ∀ u, u ≠ t → d'.task u = d.task u

section
variable {t : Nat} {d d' : Dev}

theorem TaskMoved.refl (t : Nat) (d : Dev) : TaskMoved t d d := ⟨rfl, fun _ _ => rfl⟩

theorem TaskMoved.trans {d'' : Dev} (h : TaskMoved t d d') (h' : TaskMoved t d' d'') : TaskMoved t d d'' := by
  obtain ⟨only, others⟩ := h
  obtain ⟨only', others'⟩ := h'
  refine ⟨?_, fun u hu => (others' u hu).trans (others u hu)⟩
  rw [only] at only'
  exact only'

@[simp] theorem Dev.task_onTask_self (d : Dev) (t : Nat) (g : TaskSt → TaskSt) : (d.onTask t g).task t = g (d.task t) := by
  rw [Dev.task_onTask, if_pos rfl]

theorem TaskMoved.onTask (h : TaskMoved t d d') (g : TaskSt → TaskSt) : TaskMoved t d (d'.onTask t g) :=
  h.trans ⟨rfl, fun u hu => by rw [Dev.task_onTask, if_neg hu]⟩

theorem TaskMoved.reg (h : TaskMoved t d d') (a : Nat) : d'.reg a = d.reg a := by rw [h.only]; rfl

theorem TaskMoved.log (h : TaskMoved t d d') : d'.log = d.log := by rw [h.only]

theorem TaskMoved.det (h : TaskMoved t d d') : d'.det = d.det := by rw [h.only]

theorem TaskMoved.wp (h : TaskMoved t d d') : d'.wp = d.wp := by rw [h.only]

theorem TaskMoved.mem (h : TaskMoved t d d') : d'.mem = d.mem := by rw [h.only]

theorem TaskMoved.host (h : TaskMoved t d d') : d'.host = d.host := by rw [h.only]

theorem TaskMoved.locus (h : TaskMoved t d d') : d'.locus = d.locus := by rw [h.only]

theorem TaskMoved.free (h : TaskMoved t d d') : d'.free = d.free := by rw [h.only]

theorem TaskMoved.dmas (h : TaskMoved t d d') : d'.span.dmas = d.span.dmas := by rw [h.only]

theorem TaskMoved.inRegion (h : TaskMoved t d d') (u pc : Nat) : d'.inRegion u pc = d.inRegion u pc := by rw [h.only]; rfl

end

/-- A register of a task's state: s0 reads as 0. -/
def TaskSt.reg (x : TaskSt) (r : Nat) : DWord := if r = 0 then 0 else Tab.get (fun _ => 0) x.regs r

/-- The state with a register written; writes to s0 are discarded. -/
def TaskSt.withReg (x : TaskSt) (r : Nat) (v : DWord) : TaskSt :=
  if r = 0 then x else { x with regs := Tab.set (fun _ => 0) x.regs r v }

theorem Dev.sreg_eq (d : Dev) (t r : Nat) : d.sreg t r = (d.task t).reg r := rfl

theorem TaskSt.reg_withReg_self (x : TaskSt) (r : Nat) (v : DWord) : (x.withReg r v).reg r = if r = 0 then 0 else v := by
  unfold TaskSt.withReg TaskSt.reg
  split
  · rfl
  · exact Tab.get_set_self ..

@[simp] theorem TaskSt.withReg_zero (x : TaskSt) (v : DWord) : x.withReg 0 v = x := rfl

@[simp] theorem TaskSt.withReg_pc (x : TaskSt) (r : Nat) (v : DWord) : (x.withReg r v).pc = x.pc := by
  unfold TaskSt.withReg; split <;> rfl

@[simp] theorem TaskSt.withReg_effects (x : TaskSt) (r : Nat) (v : DWord) : (x.withReg r v).effects = x.effects := by
  unfold TaskSt.withReg; split <;> rfl

@[simp] theorem TaskSt.withReg_signal (x : TaskSt) (r : Nat) (v : DWord) : (x.withReg r v).signal = x.signal := by
  unfold TaskSt.withReg; split <;> rfl

section
variable (d : Dev) (t r : Nat) (v : DWord)

theorem Dev.setSreg_spec : TaskMoved t d (d.setSreg t r v) ∧ (d.setSreg t r v).task t = (d.task t).withReg r v := by
  unfold Dev.setSreg TaskSt.withReg
  split
  · exact ⟨.refl t d, rfl⟩
  · exact ⟨(TaskMoved.refl t d).onTask _, Dev.task_onTask_self ..⟩

/-- An instruction that writes a register and stays in its region goes on with the next one. -/
theorem Dev.retire_spec (region : d.inRegion t ((d.task t).pc + 4) = true) : TaskMoved t d (d.retire t r v) ∧
    (d.retire t r v).task t = { (d.task t).withReg r v with pc := (d.task t).pc + 4 } := by
  obtain ⟨moved, written⟩ := d.setSreg_spec t r v
  have goes : (d.setSreg t r v).inRegion t (((d.setSreg t r v).task t).pc + 4) = true := by
    rw [moved.inRegion, written, TaskSt.withReg_pc, region]
  unfold Dev.retire Dev.next4 Dev.jump
  rw [if_pos goes, Dev.task_onTask_self, written, TaskSt.withReg_pc]
  exact ⟨moved.onTask _, rfl⟩

end

/-! ## Issue (R249, R284) -/

/-- n differs from d in what the count of an issue by processor p writes. -/
structure IssueFrame (p : Nat) (d n : Dev) : Prop where
  only : n = { d with regs := n.regs, span := { d.span with issued := n.span.issued } }
  regs : SameRegs d n [Adr.SPP_CNT p 0]

theorem Dev.issueFrame_countIssue (d : Dev) (p : Nat) : IssueFrame p d (d.countIssue p) := by
  have counted (n : Dev) (c : Bool) : n.when c (fun d => d.count (Adr.SPP_CNT p 0)) =
      { n with regs := (n.when c fun d => d.count (Adr.SPP_CNT p 0)).regs } := by cases c <;> rfl
  refine ⟨?_, ?_⟩
  · unfold Dev.countIssue
    dsimp only
    rw [counted]
  · have same : SameRegs d { d with span := { d.span with
        issued := Tab.set (fun _ => 0) d.span.issued p ((Tab.get (fun _ => 0) d.span.issued p + 1) % 1024) } } [Adr.SPP_CNT p 0] :=
      .of_regs_eq rfl
    exact same.when ((SameRegs.refl _ _).count (by simp))

theorem Dev.span1_of_issuer {d : Dev} {i : SpanIssue} {t : Nat} (h : d.issuer i = some t) (f : Dev → Nat → Dev) :
    d.span1 i f = f (d.countIssue i.proc.val) t := by
  unfold Dev.span1
  rw [h]

/-- The task that issues is one of the 96, and runs. -/
theorem Dev.issuer_spec {d : Dev} {i : SpanIssue} {t : Nat} (h : d.issuer i = some t) : t < 96 ∧ d.taskState t = taskRunning := by
  obtain ⟨found, runs⟩ := Option.filter_eq_some_iff.1 h
  have listed := List.mem_of_find?_eq_some found
  refine ⟨List.mem_range.1 (List.mem_filter.1 listed).1, ?_⟩
  simp only [Bool.and_eq_true, beq_iff_eq] at runs
  exact runs.1.1

section
variable {p t : Nat} {d n : Dev} (h : IssueFrame p d n)
include h

theorem IssueFrame.task (u : Nat) : n.task u = d.task u := by rw [h.only]; rfl

theorem IssueFrame.sreg (u r : Nat) : n.sreg u r = d.sreg u r := by rw [h.only]; rfl

theorem IssueFrame.tcmRead (q a k : Nat) : n.tcmRead q a k = d.tcmRead q a k := by rw [h.only]; rfl

theorem IssueFrame.bufRead (a k : Nat) : n.bufRead a k = d.bufRead a k := by rw [h.only]; rfl

theorem IssueFrame.esn : n.esn = d.esn := by rw [h.only]; rfl

variable (hp : p < 12)
include hp

theorem IssueFrame.reg {a : Nat} (ha : a < 0xc0000 ∨ 0xcc000 ≤ a) : n.reg a = d.reg a := by
  refine h.regs a ?_
  simp only [Adr.SPP_CNT, List.mem_singleton]
  omega

theorem IssueFrame.fld {f : Field} (ha : f.adr < 0xc0000 ∨ 0xcc000 ≤ f.adr) : n.fld f = d.fld f := Dev.fld_of_reg_eq (h.reg hp ha)

theorem IssueFrame.bit {f : Field} (ha : f.adr < 0xc0000 ∨ 0xcc000 ≤ f.adr) : n.bit f = d.bit f := Dev.bit_of_fld_eq (h.fld hp ha)

theorem IssueFrame.taskUser (u : Nat) : n.taskUser u = d.taskUser u :=
  h.bit hp (.inr (by simp only [Fld.SPP_TASK_USER, Adr.SPP_TASK]; omega))

theorem IssueFrame.taskProc (u : Nat) : n.taskProc u = d.taskProc u :=
  h.fld hp (.inr (by simp only [Fld.SPP_TASK_PROC, Adr.SPP_TASK]; omega))

theorem IssueFrame.taskState (u : Nat) : n.taskState u = d.taskState u :=
  h.fld hp (.inr (by simp only [Fld.SPP_TASK_STATE, Adr.SPP_TASK]; omega))

theorem IssueFrame.inRegion (u pc : Nat) : n.inRegion u pc = d.inRegion u pc := by
  unfold Dev.inRegion
  rw [h.taskUser hp]

end

/-! ## Exceptions (R259) -/

/-- The state of a task as an exception at an address is recorded. -/
def TaskSt.faulted (x : TaskSt) (cause epc : Nat) : TaskSt := { x with epc := epc, cause := cause }

section
variable (d : Dev) (t cause epc : Nat)

theorem Dev.task_event (kind : EventKind) (unit code : Nat) (detail : List Nat) (u : Nat) :
    (d.event kind unit code detail).task u = d.task u := by rw [Dev.event_only]; rfl

theorem Dev.task_count (a u : Nat) : (d.count a).task u = d.task u := rfl

theorem Dev.task_recordException : (d.recordException t cause epc).task t = (d.task t).faulted cause epc := by
  unfold Dev.recordException
  rw [Dev.task_event, Dev.task_count, Dev.task_onTask_self]
  rfl

theorem Dev.mem_recordException : (d.recordException t cause epc).mem = d.mem := by
  unfold Dev.recordException
  rw [Dev.event_only]
  rfl

/-- Of the registers, an exception's record writes LOCUS_STATUS and a counter. -/
theorem Dev.reg_recordException {a : Nat} (ha : 0xd0000 ≤ a) (hl : a ≠ Adr.LOCUS_STATUS) :
    (d.recordException t cause epc).reg a = d.reg a := by
  have proc : d.taskProc t < 16 := fieldOf_lt _ 20 4
  unfold Dev.recordException
  rw [Dev.sameRegs_event _ _ _ _ _ a (by simpa using hl)]
  refine (Dev.reg_setReg_ne _ _ ?_).trans rfl
  show a ≠ Adr.SPP_CNT (d.taskProc t) 3
  simp only [Adr.SPP_CNT]
  omega

/-- A put under a condition changes the registers alone. -/
theorem Dev.when_put_only (c : Bool) (f : Field) (v : Nat) :
    d.when c (fun d => d.put f v) = { d with regs := (d.when c fun d => d.put f v).regs } := by cases c <;> rfl

/-- The record of a stop. -/
def Dev.stopRecord : Dev :=
  (d.setTaskState t taskStopped).auditEvent (leBytes 2 t ++ leBytes 2 cause ++ leBytes 4 ((d.setTaskState t taskStopped).task t).epc)

theorem Dev.stopTask_eq : d.stopTask t cause = (d.stopRecord t cause).when (t < 88) fun d => d.put Fld.UPD_CONFIRM_CLEAN_MIN 0 := rfl

/-- A stop leaves the tasks' own state and the buffer. -/
theorem Dev.stopTask_keeps : (∀ u, (d.stopTask t cause).task u = d.task u) ∧ (d.stopTask t cause).mem = d.mem := by
  have stopped : (d.stopTask t cause).span = d.span ∧ (d.stopTask t cause).mem = d.mem := by
    rw [Dev.stopTask_eq, Dev.when_put_only, Dev.stopRecord, Dev.auditEvent_only]
    exact ⟨rfl, rfl⟩
  exact ⟨fun u => by rw [Dev.task, stopped.1]; rfl, stopped.2⟩

theorem Dev.taskState_stopTask (ht : t < 96) : (d.stopTask t cause).taskState t = taskStopped := by
  have audit : Adr.SPP_TASK t ∉ auditRegs := by
    simp only [auditRegs, List.mem_cons, List.not_mem_nil, or_false, not_or, Adr.SPP_TASK, Adr.SEC_STATUS, Adr.SEC_CNT,
      Adr.SEC_AUDIT_SEQ, Adr.LOCUS_STATUS]
    omega
  have stopped : (d.setTaskState t taskStopped).taskState t = taskStopped :=
    (Dev.fld_put_self _ _ _ (by simp [Fld.SPP_TASK_STATE])).trans rfl
  have confirm : Adr.SPP_TASK t ≠ Adr.UPD_CONFIRM := by simp only [Adr.SPP_TASK, Adr.UPD_CONFIRM]; omega
  have recorded : SameRegs (d.setTaskState t taskStopped) (d.stopTask t cause) (Adr.UPD_CONFIRM :: auditRegs) := by
    rw [Dev.stopTask_eq]
    exact ((Dev.sameRegs_auditEvent _ _).mono (List.subset_cons_self ..)).when ((SameRegs.refl _ _).put (by decide))
  refine Eq.trans (recorded.fld ?_) stopped
  simpa [Fld.SPP_TASK_STATE] using ⟨confirm, audit⟩

variable {d t cause}

/-- An exception of a task keeps its registers and the buffer, and goes to the handler or stops the task. -/
theorem Dev.exception_spec (ht : t < 96) : (∀ r, (d.exception t cause epc).sreg t r = d.sreg t r) ∧
    (d.exception t cause epc).mem = d.mem ∧
    ((d.task t).handler ≠ 0 → (d.task t).inHandler = false → d.inRegion t (d.task t).handler = true →
      (d.exception t cause epc).task t = { (d.task t).faulted cause epc with inHandler := true, pc := (d.task t).handler }) ∧
    ((d.task t).handler = 0 ∨ (d.task t).inHandler = true →
      (d.exception t cause epc).task t = (d.task t).faulted cause epc ∧ (d.exception t cause epc).taskState t = taskStopped) := by
  set n := d.recordException t cause epc with hn
  have task : n.task t = (d.task t).faulted cause epc := d.task_recordException t cause epc
  have mem : n.mem = d.mem := d.mem_recordException t cause epc
  have region : n.inRegion t (d.task t).handler = d.inRegion t (d.task t).handler := by
    unfold Dev.inRegion Dev.taskUser
    rw [Dev.bit_of_reg_eq (d.reg_recordException t cause epc (by simp only [Fld.SPP_TASK_USER, Adr.SPP_TASK]; omega)
      (by simp only [Fld.SPP_TASK_USER, Adr.SPP_TASK, Adr.LOCUS_STATUS]; omega))]
  unfold Dev.exception
  dsimp only
  rw [← hn]
  by_cases stops : ((d.task t).handler = 0 || (d.task t).inHandler) = true
  · obtain ⟨tasks, mem'⟩ := n.stopTask_keeps t cause
    rw [if_pos stops]
    refine ⟨fun r => by rw [Dev.sreg_eq, tasks, task]; rfl, mem'.trans mem, fun h0 hin _ => ?_, fun _ =>
      ⟨(tasks t).trans task, n.taskState_stopTask t cause ht⟩⟩
    simp [h0, hin] at stops
  · have goes : ¬((d.task t).handler = 0 ∨ (d.task t).inHandler = true) := by simpa using stops
    rw [if_neg stops]
    by_cases inside : d.inRegion t (d.task t).handler = true
    · rw [if_pos (region.trans inside)]
      refine ⟨fun r => ?_, mem, fun _ _ _ => ?_, fun h => absurd h goes⟩
      · rw [Dev.sreg_eq, Dev.task_onTask_self, task]; rfl
      · rw [Dev.task_onTask_self, task]; rfl
    · obtain ⟨tasks, mem'⟩ := (n.recordException t causeFetch (d.task t).handler).stopTask_keeps t causeFetch
      rw [if_neg (by rw [region]; exact inside)]
      refine ⟨fun r => ?_, ?_, fun _ _ h => absurd h inside, fun h => absurd h goes⟩
      · rw [Dev.sreg_eq, tasks, Dev.task_recordException, task]; rfl
      · rw [mem', Dev.mem_recordException, mem]

end

/-- An instruction that traps. -/
theorem spanTraps_of_trap {c : Instr} {s : State} {i : SpanIssue} {t cause : Nat} {f : Dev → Nat → Dev} (hi : s.dev.issuer i = some t)
    (hc : exec c s = s.on fun d => d.span1 i f)
    (hf : f (s.dev.countIssue i.proc.val) t = (s.dev.countIssue i.proc.val).trap t cause) : SpanTraps c s t cause := by
  have issued := s.dev.issueFrame_countIssue i.proc.val
  set n := s.dev.countIssue i.proc.val with hn
  have task : n.task t = s.dev.task t := issued.task t
  obtain ⟨regs, mem, handled, stopped⟩ := n.exception_spec (cause := cause) (s.dev.task t).pc (Dev.issuer_spec hi).1
  rw [task, issued.inRegion i.proc.isLt] at handled
  rw [task] at stopped
  refine Completes.of_on _ hc ?_
  rw [Dev.span1_of_issuer hi, ← hn, hf, Dev.trap, task]
  exact ⟨fun r => (regs r).trans (issued.sreg t r), mem.trans (by rw [issued.only]), handled, stopped⟩

end Sys2Proof.Machine

/-! PROOFS. Effects of the Span tasks: the effect log, the queues, stamps and signals (O48). -/

namespace Sys2Proof.Machine

/-! ## Effects (R268, R269) -/

/-- A task's state once an effect has been performed and logged. -/
def TaskSt.logged (x : TaskSt) (num kind : Nat) (ops : List Nat) (v : DWord) : TaskSt :=
  { x with effects := (num + 1) % 2 ^ 32, log := x.log ++ [⟨num, kind, effectHash ops, v⟩] }

/-- The log of a task has room, and does not hold its next effect. -/
def TaskSt.fresh (x : TaskSt) : Prop := x.log.length < 64 ∧ ∀ r ∈ x.log, r.num ≠ x.effects

section
variable {d : Dev} {t kind rd : Nat} {ops : List Nat} {perform : Dev → DWord × Dev}

theorem Dev.effectsFull_of_room (room : (d.task t).log.length < 64) : d.effectsFull t = false := by
  unfold Dev.effectsFull
  dsimp only
  rw [decide_eq_false (Nat.not_le.2 room), Bool.false_and]

/-- A new effect with room in the log is performed, logged and retired. -/
theorem Dev.effect_of_fresh (fresh : (d.task t).fresh) : d.effect t kind rd ops perform =
    ((perform d).2.onTask t fun x => x.logged (d.task t).effects kind ops (perform d).1).retire t rd (perform d).1 := by
  obtain ⟨room, new⟩ := fresh
  have absent : (d.task t).log.find? (fun r => r.num == (d.task t).effects) = none :=
    List.find?_eq_none.2 fun r hr => by simpa using new r hr
  unfold Dev.effect Dev.filterEffect
  rw [if_neg (by rw [Dev.effectsFull_of_room room]; exact Bool.false_ne_true)]
  dsimp only
  rw [absent]
  rfl

/-- The task once such an effect has been retired: performed as m, from pc on. -/
def TaskSt.after (x : TaskSt) (num kind : Nat) (ops : List Nat) (rd : Nat) (v : DWord) (pc : Nat) : TaskSt :=
  { (x.logged num kind ops v).withReg rd v with pc := pc + 4 }

theorem Dev.effect_spec (fresh : (d.task t).fresh) (pc : ((perform d).2.task t).pc = (d.task t).pc)
    (region : (perform d).2.inRegion t ((d.task t).pc + 4) = true) :
    TaskMoved t (perform d).2 (d.effect t kind rd ops perform) ∧ (d.effect t kind rd ops perform).task t =
      ((perform d).2.task t).after (d.task t).effects kind ops rd (perform d).1 (d.task t).pc := by
  rw [Dev.effect_of_fresh fresh]
  set m := (perform d).2.onTask t fun x => x.logged (d.task t).effects kind ops (perform d).1 with hm
  have moved : TaskMoved t (perform d).2 m := (TaskMoved.refl t _).onTask _
  have task : m.task t = ((perform d).2.task t).logged (d.task t).effects kind ops (perform d).1 := Dev.task_onTask_self ..
  have pc' : (m.task t).pc = (d.task t).pc := by rw [task]; exact pc
  obtain ⟨moved', task'⟩ := m.retire_spec t rd (perform d).1 (by rw [pc', moved.inRegion, region])
  refine ⟨moved.trans moved', ?_⟩
  rw [task', pc', task]
  rfl

theorem TaskSt.after_effects (x : TaskSt) (num kind : Nat) (ops : List Nat) (rd : Nat) (v : DWord) (pc : Nat) :
    (x.after num kind ops rd v pc).effects = (num + 1) % 2 ^ 32 :=
  TaskSt.withReg_effects ..

theorem TaskSt.after_reg (x : TaskSt) (num kind : Nat) (ops : List Nat) (rd : Nat) (v : DWord) (pc : Nat) :
    (x.after num kind ops rd v pc).reg rd = if rd = 0 then 0 else v :=
  TaskSt.reg_withReg_self (x.logged num kind ops v) rd v

end

/-! ## Instructions that give a value -/

/-- The command gives task t the value v in rd and goes on with the next instruction, where P then holds. -/
def Gives (c : Instr) (s : State) (t : Nat) (rd : SpanReg) (v : DWord) (P : Dev → Prop) : Prop := Completes c s fun d =>
  d.sreg t rd = (if rd = 0 then 0 else v) ∧ (d.task t).pc = (s.dev.task t).pc + 4 ∧ P d

theorem ite_spanReg (rd : SpanReg) (v : DWord) : (if rd.val = 0 then 0 else v) = if rd = 0 then 0 else v := by
  simp only [Fin.val_eq_zero_iff]

section
variable {c : Instr} {s : State} {i : SpanIssue} {t : Nat} {rd : SpanReg} {v : DWord} {P : Dev → Prop} {f : Dev → Nat → Dev}
  (hi : s.dev.issuer i = some t) (region : s.dev.inRegion t ((s.dev.task t).pc + 4) = true)
  (hc : exec c s = s.on fun d => d.span1 i f)
include hi region hc

/-- One that leaves m and retires. -/
theorem gives_of_retire {m : Dev} (hf : f (s.dev.countIssue i.proc.val) t = m.retire t rd v) (pc : (m.task t).pc = (s.dev.task t).pc)
    (user : m.taskUser t = s.dev.taskUser t) (hP : ∀ d, TaskMoved t m d → P d) : Gives c s t rd v P := by
  have inside : m.inRegion t ((m.task t).pc + 4) = true := by
    rw [pc, ← region]; unfold Dev.inRegion; rw [user]
  obtain ⟨moved, task⟩ := m.retire_spec t rd v inside
  refine Completes.of_on _ hc ?_
  rw [Dev.span1_of_issuer hi, hf]
  refine ⟨?_, ?_, hP _ moved⟩
  · rw [Dev.sreg_eq, task, ← ite_spanReg]
    exact TaskSt.reg_withReg_self (m.task t) rd v
  · rw [task, pc]

/-- One whose effect is new. -/
theorem gives_of_effect {kind : Nat} {ops : List Nat} {perform : Dev → DWord × Dev} (fresh : (s.dev.task t).fresh)
    (hf : f (s.dev.countIssue i.proc.val) t = (s.dev.countIssue i.proc.val).effect t kind rd ops perform)
    (hv : (perform (s.dev.countIssue i.proc.val)).1 = v)
    (pc : ((perform (s.dev.countIssue i.proc.val)).2.task t).pc = (s.dev.task t).pc)
    (user : (perform (s.dev.countIssue i.proc.val)).2.taskUser t = s.dev.taskUser t)
    (hP : ∀ d, TaskMoved t (perform (s.dev.countIssue i.proc.val)).2 d →
      d.task t = ((perform (s.dev.countIssue i.proc.val)).2.task t).after (s.dev.task t).effects kind ops rd v (s.dev.task t).pc → P d) :
    Gives c s t rd v P := by
  have issued := s.dev.issueFrame_countIssue i.proc.val
  set n := s.dev.countIssue i.proc.val with hn
  have same : n.task t = s.dev.task t := issued.task t
  have inside : (perform n).2.inRegion t ((n.task t).pc + 4) = true := by
    rw [same, ← region]; unfold Dev.inRegion; rw [user]
  obtain ⟨moved, task⟩ := Dev.effect_spec (d := n) (t := t) (kind := kind) (rd := rd) (ops := ops) (perform := perform)
    (by rwa [same]) (by rw [pc, same]) inside
  rw [hv, same] at task
  refine Completes.of_on _ hc ?_
  rw [Dev.span1_of_issuer hi, ← hn, hf]
  refine ⟨?_, ?_, hP _ moved task⟩
  · rw [Dev.sreg_eq, task, ← ite_spanReg]
    exact TaskSt.after_reg ..
  · rw [task]
    rfl

end

/-! ## Tightly coupled memory and the buffer -/

/-- The entries of bytes at places k, k + 1 and so on of a TCM from offset a, which do not wrap onto one another. -/
theorem tcm_get_foldl (p a : Nat) : ∀ (l : List Byte) (k : Nat) (t : Tab Byte) (i : Nat), k + l.length ≤ 65536 → i < k + l.length →
    Tab.get (fun _ => 0) ((l.zipIdx k).foldl (fun t e => Tab.set (fun _ => 0) t (65536 * p + (a + e.2) % 65536) e.1) t)
      (65536 * p + (a + i) % 65536) = if k ≤ i then l.getD (i - k) 0 else Tab.get (fun _ => 0) t (65536 * p + (a + i) % 65536)
  | [], k, t, i, _, hi => by rw [if_neg (by simpa using hi)]; rfl
  | v :: l, k, t, i, hl, hi => by
    rw [List.length_cons] at hl hi
    rw [List.zipIdx_cons, List.foldl_cons, tcm_get_foldl p a l (k + 1) _ i (by omega) (by omega)]
    rcases Nat.lt_trichotomy i k with lt | rfl | gt
    · rw [if_neg (by omega), if_neg (by omega)]
      exact Tab.get_set_ne _ _ (by dsimp only; omega)
    · rw [if_neg (by omega), if_pos (Nat.le_refl _), Nat.sub_self]
      exact Tab.get_set_self ..
    · obtain ⟨m, rfl⟩ : ∃ m, i = k + 1 + m := ⟨i - (k + 1), by omega⟩
      rw [if_pos (by omega), if_pos (by omega), show k + 1 + m - k = m + 1 by omega, show k + 1 + m - (k + 1) = m by omega]
      rfl

/-- The bytes written to TCM, as long as they do not wrap onto one another, are read back. -/
theorem Dev.tcmRead_tcmWrite (d : Dev) (p a : Nat) (l : List Byte) (hl : l.length ≤ 65536) :
    (d.tcmWrite p a l).tcmRead p a l.length = l := by
  have entries : (d.tcmWrite p a l).tcmRead p a l.length = (List.range l.length).map fun i => l.getD i 0 := by
    refine List.map_congr_left fun i hi => ?_
    have lt := List.mem_range.1 hi
    exact (tcm_get_foldl p a l 0 _ i (by omega) (by omega)).trans (by rw [if_pos (Nat.zero_le _), Nat.sub_zero])
  rw [entries]
  refine List.ext_getElem (by simp) fun i hi hi' => ?_
  rw [List.getElem_map, List.getElem_range]
  exact List.getD_eq_getElem _ _ hi'

/-- Whole words written to the buffer are read back. -/
theorem Dev.bufRead_bufWrite_self (d : Dev) {a : Nat} {l : List Byte} (ha : a % 8 = 0) (hl : l.length % 8 = 0) :
    (d.bufWrite a l).bufRead a l.length = l := by
  unfold Dev.bufRead Tab.range
  refine List.ext_getElem (by simp) fun k hk hk' => ?_
  rw [List.getElem_map, List.getElem_range, Dev.bufByte_bufWrite d a l _ (fun w _ _ _ => by omega), dif_pos (by omega)]
  simp

/-- The other bytes stand. -/
theorem Dev.bufRead_bufWrite_other (d : Dev) {a y k : Nat} {l : List Byte} (ha : a % 8 = 0) (hl : l.length % 8 = 0)
    (apart : y + k ≤ a ∨ a + l.length ≤ y) : (d.bufWrite a l).bufRead y k = d.bufRead y k := by
  unfold Dev.bufRead Tab.range
  refine List.map_congr_left fun j hj => ?_
  have := List.mem_range.1 hj
  rw [Dev.bufByte_bufWrite d a l _ (fun w _ _ _ => by omega), dif_neg (by omega)]

/-! ## Queues (R260, R261) -/

/-- The issue of an instruction leaves the queues. -/
theorem IssueFrame.queues {p : Nat} {d n : Dev} (h : IssueFrame p d n) (hp : p < 12) (q : Nat) :
    n.queueSize q = d.queueSize q ∧ n.queueCount q = d.queueCount q ∧ n.queueFull q = d.queueFull q ∧
    (∀ ptr, n.queueAddr q ptr = d.queueAddr q ptr) ∧ n.fld (Fld.SPP_Q_PTR_HEAD q) = d.fld (Fld.SPP_Q_PTR_HEAD q) ∧
    n.fld (Fld.SPP_Q_PTR_TAIL q) = d.fld (Fld.SPP_Q_PTR_TAIL q) := by
  have log2 := h.fld hp (f := Fld.SPP_Q_LOG2_LOG2 q) (.inr (by simp only [Fld.SPP_Q_LOG2_LOG2, Adr.SPP_Q_LOG2]; omega))
  have base := h.fld hp (f := Fld.SPP_Q_BASE_BASE q) (.inr (by simp only [Fld.SPP_Q_BASE_BASE, Adr.SPP_Q_BASE]; omega))
  have head := h.fld hp (f := Fld.SPP_Q_PTR_HEAD q) (.inr (by simp only [Fld.SPP_Q_PTR_HEAD, Adr.SPP_Q_PTR]; omega))
  have tail := h.fld hp (f := Fld.SPP_Q_PTR_TAIL q) (.inr (by simp only [Fld.SPP_Q_PTR_TAIL, Adr.SPP_Q_PTR]; omega))
  have held := h.fld hp (f := Fld.SPP_Q_HELD_HELD q) (.inr (by simp only [Fld.SPP_Q_HELD_HELD, Adr.SPP_Q_HELD]; omega))
  have size : n.queueSize q = d.queueSize q := by unfold Dev.queueSize; rw [log2]
  have count : n.queueCount q = d.queueCount q := by unfold Dev.queueCount; rw [size, head, tail]
  refine ⟨size, count, ?_, fun ptr => ?_, head, tail⟩
  · unfold Dev.queueFull; rw [size, count, held]
  · unfold Dev.queueAddr; rw [size, base]

theorem Dev.length_tcmRead (d : Dev) (p a k : Nat) : (d.tcmRead p a k).length = k := by simp [Dev.tcmRead]

theorem Dev.length_bufRead (d : Dev) (a k : Nat) : (d.bufRead a k).length = k := by simp [Dev.bufRead, Tab.range]

/-- An entry's address is a multiple of 64. -/
theorem Dev.queueAddr_mod (d : Dev) (q ptr : Nat) : d.queueAddr q ptr % 8 = 0 := by
  unfold Dev.queueAddr pageBytes
  omega

/-- The bytes of a list from its first on. -/
theorem bytesAt_zero_length (l : List Byte) : bytesAt l 0 l.length = l := by simp [bytesAt]

section
variable {s : State} {i : SpanIssue} {t : Nat} {q : Fin 128} {rd rs1 : SpanReg} (hi : s.dev.issuer i = some t)
include hi

theorem spanTraps_spanPop (user : s.dev.taskUser t = true) (other : userQueue q = false) (mail : q.val ≠ 127) :
    SpanTraps (.spanPop i q rd rs1) s t causeDenied := by
  refine spanTraps_of_trap (f := fun d t => d.popInstr t q.val rd.val (d.sreg t rs1.val)) hi rfl (if_pos ?_)
  rw [(s.dev.issueFrame_countIssue _).taskUser i.proc.isLt, user, other]
  simpa using mail

theorem spanTraps_spanPush (barred : q.val < 64 ∨ q.val = 96 ∨ q.val = 127 ∨ (s.dev.taskUser t = true ∧ userQueue q = false)) :
    SpanTraps (.spanPush i q rd rs1) s t causeDenied := by
  refine spanTraps_of_trap (f := fun d t => d.pushInstr t q.val rd.val (d.sreg t rs1.val)) hi rfl (if_pos ?_)
  rw [(s.dev.issueFrame_countIssue _).taskUser i.proc.isLt]
  simpa [or_assoc] using barred

end

/-- The block with the oldest entry of a queue popped by task t, and held for it (R261). -/
def Dev.popped (d : Dev) (q t : Nat) : Dev :=
  let l := d.bufRead (d.queueAddr q (d.fld (Fld.SPP_Q_PTR_HEAD q))) 64
  let d := d.put (Fld.SPP_Q_PTR_HEAD q) ((d.fld (Fld.SPP_Q_PTR_HEAD q) + 1) % (2 * d.queueSize q))
  let d := { d with span := { d.span with held := d.span.held ++ [(⟨q, t, l, false⟩ : HeldEntry)] } }
  d.put (Fld.SPP_Q_HELD_HELD q) (d.fld (Fld.SPP_Q_HELD_HELD q) + 1)

section
variable {d : Dev} {t q rd : Nat} {a : DWord} (user : d.taskUser t = false) (tcm : inTcm a = true) (hq : q ≠ 127)
  (kept : ∀ e ∈ d.span.held, ¬(e.queue = q ∧ e.task = t ∧ e.returned = true))
include user tcm hq kept

/-- A POP of a vendor task to which no entry of the queue was returned. -/
theorem Dev.popInstr_of_vendor : d.popInstr t q rd a = if d.queueCount q = 0 then d.retire t rd 1 else
    ((d.popped q t).tcmWrite ((d.popped q t).taskProc t) a.toNat (d.bufRead (d.queueAddr q (d.fld (Fld.SPP_Q_PTR_HEAD q))) 64)).retire
      t rd 0 := by
  have absent : d.span.held.find? (fun e => e.queue == q && e.task == t && e.returned) = none :=
    List.find?_eq_none.2 fun e he => by simpa [and_assoc] using kept e he
  unfold Dev.popInstr
  rw [user, tcm, if_neg hq, Dev.queuePop, absent]
  by_cases empty : d.queueCount q = 0
  · simp only [empty, if_true]
    rfl
  · simp only [empty, if_false]
    rfl

end

theorem Dev.popped_only (d : Dev) (q t : Nat) : d.popped q t = { d with
    regs := (d.popped q t).regs, span := { d.span with held := d.span.held ++
      [⟨q, t, d.bufRead (d.queueAddr q (d.fld (Fld.SPP_Q_PTR_HEAD q))) 64, false⟩] } } := rfl

theorem Dev.sameRegs_popped (d : Dev) (q t : Nat) : SameRegs d (d.popped q t) [Adr.SPP_Q_PTR q, Adr.SPP_Q_HELD q] := by
  have moved : SameRegs d (d.put (Fld.SPP_Q_PTR_HEAD q) ((d.fld (Fld.SPP_Q_PTR_HEAD q) + 1) % (2 * d.queueSize q)))
      [Adr.SPP_Q_PTR q, Adr.SPP_Q_HELD q] := (SameRegs.refl d _).put (by simp [Fld.SPP_Q_PTR_HEAD])
  exact (moved.trans (.of_regs_eq rfl)).put (by simp [Fld.SPP_Q_HELD_HELD])

section
variable {s : State} {i : SpanIssue} {t : Nat} {q : Fin 128} {rd rs1 : SpanReg} (hi : s.dev.issuer i = some t)
  (region : s.dev.inRegion t ((s.dev.task t).pc + 4) = true) (user : s.dev.taskUser t = false)
  (tcm : inTcm (s.dev.sreg t rs1) = true)
include hi region user tcm

section
variable (hq : q.val ≠ 127) (kept : ∀ e ∈ s.dev.span.held, ¬(e.queue = q.val ∧ e.task = t ∧ e.returned = true))
include hq kept

omit region in
/-- The POP of a vendor task, as its instruction has been issued. -/
theorem popInstr_issued : (s.dev.countIssue i.proc.val).popInstr t q.val rd.val ((s.dev.countIssue i.proc.val).sreg t rs1.val) =
    if s.dev.queueCount q = 0 then (s.dev.countIssue i.proc.val).retire t rd 1 else
      (((s.dev.countIssue i.proc.val).popped q t).tcmWrite (s.dev.taskProc t) (s.dev.sreg t rs1).toNat
        (s.dev.bufRead (s.dev.queueAddr q (s.dev.fld (Fld.SPP_Q_PTR_HEAD q))) 64)).retire t rd 0 := by
  have issued := s.dev.issueFrame_countIssue i.proc.val
  set n := s.dev.countIssue i.proc.val with hn
  obtain ⟨-, count, -, adr, head, -⟩ := issued.queues i.proc.isLt q
  have ht := (Dev.issuer_spec hi).1
  have proc : (n.popped q t).taskProc t = s.dev.taskProc t := by
    refine Eq.trans ((n.sameRegs_popped q t).fld ?_) (issued.taskProc i.proc.isLt t)
    simp only [Fld.SPP_TASK_PROC, Adr.SPP_TASK, Adr.SPP_Q_PTR, Adr.SPP_Q_HELD, List.mem_cons, List.not_mem_nil, or_false]
    omega
  rw [Dev.popInstr_of_vendor (by rw [issued.taskUser i.proc.isLt, user]) (by rw [issued.sreg, tcm]) hq
    (by rw [issued.only]; exact kept), count, issued.sreg, issued.bufRead, adr, head, proc]

theorem gives_spanPop_of_empty (empty : s.dev.queueCount q = 0) :
    Gives (.spanPop i q rd rs1) s t rd 1 fun d => d.span.held = s.dev.span.held ∧ d.mem = s.dev.mem := by
  have issued := s.dev.issueFrame_countIssue i.proc.val
  refine gives_of_retire (f := fun d t => d.popInstr t q.val rd.val (d.sreg t rs1.val)) (m := s.dev.countIssue i.proc.val) hi region rfl
    ?_ (by rw [issued.task]) (issued.taskUser i.proc.isLt t) fun d moved => ?_
  · exact (popInstr_issued hi user tcm hq kept).trans (if_pos empty)
  · rw [moved.only, issued.only]
    exact ⟨rfl, rfl⟩

theorem gives_spanPop_of_entry (filled : 0 < s.dev.queueCount q) : Gives (.spanPop i q rd rs1) s t rd 0 fun d =>
    d.tcmRead (s.dev.taskProc t) (s.dev.sreg t rs1).toNat 64 =
      s.dev.bufRead (s.dev.queueAddr q (s.dev.fld (Fld.SPP_Q_PTR_HEAD q))) 64 ∧
    d.span.held = s.dev.span.held ++ [⟨q.val, t, s.dev.bufRead (s.dev.queueAddr q (s.dev.fld (Fld.SPP_Q_PTR_HEAD q))) 64, false⟩] := by
  have issued := s.dev.issueFrame_countIssue i.proc.val
  have ht := (Dev.issuer_spec hi).1
  obtain ⟨-, -, -, adr, head, -⟩ := issued.queues i.proc.isLt q
  refine gives_of_retire (f := fun d t => d.popInstr t q.val rd.val (d.sreg t rs1.val)) hi region rfl
    ((popInstr_issued hi user tcm hq kept).trans (if_neg (by omega))) ?_ ?_ fun d moved => ?_
  · exact congrArg TaskSt.pc (issued.task t)
  · refine Eq.trans ?_ (issued.taskUser i.proc.isLt t)
    refine (Dev.sameRegs_popped (s.dev.countIssue i.proc.val) q t).bit ?_
    simp only [Fld.SPP_TASK_USER, Adr.SPP_TASK, Adr.SPP_Q_PTR, Adr.SPP_Q_HELD, List.mem_cons, List.not_mem_nil, or_false]
    omega
  · rw [moved.only]
    refine ⟨?_, ?_⟩
    · have whole := Dev.tcmRead_tcmWrite ((s.dev.countIssue i.proc.val).popped q t) (s.dev.taskProc t) (s.dev.sreg t rs1).toNat
        (s.dev.bufRead (s.dev.queueAddr q (s.dev.fld (Fld.SPP_Q_PTR_HEAD q))) 64) (by rw [Dev.length_bufRead]; decide)
      rw [Dev.length_bufRead] at whole
      exact whole
    · show ((s.dev.countIssue i.proc.val).popped q t).span.held = _
      rw [Dev.popped_only, adr, head, issued.bufRead, issued.only]

end

omit hi region in
/-- The PUSH of a vendor task to a queue that it may fill. -/
theorem pushInstr_issued (h64 : 64 ≤ q.val) (h96 : q.val ≠ 96) (h127 : q.val ≠ 127) :
    (s.dev.countIssue i.proc.val).pushInstr t q.val rd.val ((s.dev.countIssue i.proc.val).sreg t rs1.val) =
    (s.dev.countIssue i.proc.val).effect t effPush rd
      (q.val :: (s.dev.tcmRead (s.dev.taskProc t) (s.dev.sreg t rs1).toNat 64).map (·.toNat)) fun d =>
        if d.queueFull q then (2, d) else (0, d.queuePush q (s.dev.tcmRead (s.dev.taskProc t) (s.dev.sreg t rs1).toNat 64)) := by
  have issued := s.dev.issueFrame_countIssue i.proc.val
  have may : ¬(decide (q.val < 64) || q.val == 96 || q.val == 127 || (false && !userQueue q.val)) = true := by
    simp [h64, h96, h127]
  unfold Dev.pushInstr
  rw [issued.taskUser i.proc.isLt, user, if_neg may, issued.sreg, tcm, issued.taskProc i.proc.isLt, issued.tcmRead]
  rfl

variable (h64 : 64 ≤ q.val) (h96 : q.val ≠ 96) (h127 : q.val ≠ 127) (fresh : (s.dev.task t).fresh)
include h64 h96 h127 fresh

theorem gives_spanPush_of_full (full : s.dev.queueFull q = true) :
    Gives (.spanPush i q rd rs1) s t rd 2 fun d => d.mem = s.dev.mem := by
  have issued := s.dev.issueFrame_countIssue i.proc.val
  obtain ⟨-, -, same, -⟩ := issued.queues i.proc.isLt q
  have full' : (s.dev.countIssue i.proc.val).queueFull q = true := same.trans full
  refine gives_of_effect (f := fun d t => d.pushInstr t q.val rd.val (d.sreg t rs1.val)) hi region rfl fresh
    (pushInstr_issued user tcm h64 h96 h127) ?_ ?_ ?_ fun d moved _ => ?_
  · rw [if_pos full']
  · rw [if_pos full', issued.task]
  · rw [if_pos full', issued.taskUser i.proc.isLt]
  · rw [moved.only, if_pos full', issued.only]

theorem gives_spanPush_of_room (room : s.dev.queueFull q = false) : Gives (.spanPush i q rd rs1) s t rd 0 fun d =>
    d.bufRead (s.dev.queueAddr q (s.dev.fld (Fld.SPP_Q_PTR_TAIL q))) 64 = s.dev.tcmRead (s.dev.taskProc t) (s.dev.sreg t rs1).toNat 64 ∧
    (d.task t).effects = ((s.dev.task t).effects + 1) % 2 ^ 32 := by
  have issued := s.dev.issueFrame_countIssue i.proc.val
  have ht := (Dev.issuer_spec hi).1
  obtain ⟨-, -, same, adr, -, tail⟩ := issued.queues i.proc.isLt q
  have room' : ¬(s.dev.countIssue i.proc.val).queueFull q = true := by rw [same, room]; exact Bool.false_ne_true
  have length := s.dev.length_tcmRead (s.dev.taskProc t) (s.dev.sreg t rs1).toNat 64
  refine gives_of_effect (f := fun d t => d.pushInstr t q.val rd.val (d.sreg t rs1.val)) hi region rfl fresh
    (pushInstr_issued user tcm h64 h96 h127) ?_ ?_ ?_ fun d moved task => ?_
  · rw [if_neg room']
  · rw [if_neg room']
    exact congrArg TaskSt.pc (issued.task t)
  · rw [if_neg room']
    refine Eq.trans (Dev.bit_of_reg_eq (Dev.reg_put_ne _ _ _ ?_)) (issued.taskUser i.proc.isLt t)
    simp only [Fld.SPP_TASK_USER, Adr.SPP_TASK, Fld.SPP_Q_PTR_TAIL, Adr.SPP_Q_PTR]
    omega
  · refine ⟨?_, by rw [task, TaskSt.after_effects]⟩
    rw [moved.only, if_neg room']
    generalize s.dev.tcmRead (s.dev.taskProc t) (s.dev.sreg t rs1).toNat 64 = l at length
    show ((s.dev.countIssue i.proc.val).bufWrite ((s.dev.countIssue i.proc.val).queueAddr q
      ((s.dev.countIssue i.proc.val).fld (Fld.SPP_Q_PTR_TAIL q))) (bytesAt l 0 64)).bufRead _ 64 = l
    rw [adr, tail, ← length, bytesAt_zero_length]
    exact Dev.bufRead_bufWrite_self _ (Dev.queueAddr_mod ..) (by rw [length])

end

end Sys2Proof.Machine

/-! PROOFS. Effects of the Span tasks, continued: stamps and their replay, signals, and what a dispatch gives (O48). -/

namespace Sys2Proof.Machine

/-! ## Stamps and the effect log (R264, R268, R269) -/

theorem TaskSt.after_signal (x : TaskSt) (num kind : Nat) (ops : List Nat) (rd : Nat) (v : DWord) (pc : Nat) :
    (x.after num kind ops rd v pc).signal = x.signal :=
  TaskSt.withReg_signal ..

section
variable {s : State} {i : SpanIssue} {t : Nat} {rd : SpanReg} {k : Fin 8} (hi : s.dev.issuer i = some t)
  (region : s.dev.inRegion t ((s.dev.task t).pc + 4) = true)
include hi

/-- What STAMP does as its effect is performed. -/
def Dev.stamped (d : Dev) (t k : Nat) : DWord × Dev := (d.esn.zeroExtend 64, d.event .stamp t (if d.taskUser t then 6 else k) [])

omit hi in
theorem exec_spanStamp : exec (.spanStamp i rd k) s =
    s.on fun d => d.span1 i fun d t => d.effect t effStamp rd.val [k.val] fun d => d.stamped t k.val := rfl

omit hi in
/-- A task's state bits stand through what writes LOCUS_STATUS alone. -/
theorem Dev.taskUser_event (d : Dev) {t : Nat} (ht : t < 96) (kind : EventKind) (unit code : Nat) (detail : List Nat) :
    (d.event kind unit code detail).taskUser t = d.taskUser t := by
  refine (d.sameRegs_event kind unit code detail).bit ?_
  simp only [Fld.SPP_TASK_USER, Adr.SPP_TASK, Adr.LOCUS_STATUS, List.mem_singleton]
  omega

include region in
theorem gives_spanStamp_of_fresh (fresh : (s.dev.task t).fresh) : Gives (.spanStamp i rd k) s t rd (s.dev.esn.zeroExtend 64) fun d =>
    (d.task t).effects = ((s.dev.task t).effects + 1) % 2 ^ 32 ∧
    d.log = ⟨s.dev.esn, 0, .stamp, t, if s.dev.taskUser t then 6 else k.val, []⟩ :: s.dev.log := by
  have issued := s.dev.issueFrame_countIssue i.proc.val
  have user := issued.taskUser i.proc.isLt t
  refine gives_of_effect hi region exec_spanStamp fresh rfl ?_ ?_ ?_ fun d moved task => ⟨by rw [task, TaskSt.after_effects], ?_⟩
  · exact congrArg (BitVec.zeroExtend 64) issued.esn
  · exact congrArg TaskSt.pc ((Dev.task_event ..).trans (issued.task t))
  · exact (Dev.taskUser_event _ (Dev.issuer_spec hi).1 ..).trans user
  · rw [moved.only]
    show (⟨(s.dev.countIssue i.proc.val).esn, 0, .stamp, t, if (s.dev.countIssue i.proc.val).taskUser t then 6 else k.val, []⟩ : Event) ::
      (s.dev.countIssue i.proc.val).log = _
    rw [issued.esn, user, issued.only]

end

/-- An effect that the log holds with the same operands gives the logged result, and the count goes on. -/
theorem Dev.effect_of_logged {d : Dev} {t kind rd : Nat} {ops : List Nat} {perform : Dev → DWord × Dev} {r : EffectRec}
    (found : (d.task t).log.find? (fun y => y.num == (d.task t).effects) = some r) (hk : r.kind = kind) (hh : r.hash = effectHash ops) :
    d.effect t kind rd ops perform =
      ((d.onTask t fun x => { x with effects := ((d.task t).effects + 1) % 2 ^ 32 }).count (Adr.SPP_CNT (d.taskProc t) 5)).retire
        t rd r.result := by
  have held : (d.task t).log.any (fun r => r.num == (d.task t).effects) = true :=
    List.any_eq_true.2 ⟨r, List.mem_of_find?_eq_some found, List.find?_some (p := fun y : EffectRec => y.num == (d.task t).effects) found⟩
  have room : d.effectsFull t = false := by
    unfold Dev.effectsFull
    dsimp only
    rw [held, Bool.not_true, Bool.and_false]
  unfold Dev.effect Dev.filterEffect
  rw [if_neg (by rw [room]; exact Bool.false_ne_true)]
  dsimp only
  rw [found]
  dsimp only
  rw [if_pos ⟨hk, hh⟩]

/-- A new effect with a full log begins a checkpoint in its place. -/
theorem Dev.effect_of_full {d : Dev} {t kind rd : Nat} {ops : List Nat} {perform : Dev → DWord × Dev}
    (full : 64 ≤ (d.task t).log.length) (new : ∀ r ∈ (d.task t).log, r.num ≠ (d.task t).effects) :
    d.effect t kind rd ops perform = d.startCkpt t := by
  refine if_pos ?_
  have absent : (d.task t).log.any (fun r => r.num == (d.task t).effects) = false :=
    List.any_eq_false.2 fun r hr => by simpa using new r hr
  unfold Dev.effectsFull
  dsimp only
  rw [decide_eq_true full, absent]
  rfl

section
variable {s : State} {i : SpanIssue} {t : Nat} {rd : SpanReg} {k : Fin 8} (hi : s.dev.issuer i = some t)
include hi

theorem gives_spanStamp_of_logged (region : s.dev.inRegion t ((s.dev.task t).pc + 4) = true) {r : EffectRec}
    (found : (s.dev.task t).log.find? (fun y => y.num == (s.dev.task t).effects) = some r) (hk : r.kind = effStamp)
    (hh : r.hash = effectHash [k.val]) :
    Gives (.spanStamp i rd k) s t rd r.result fun d => d.log = s.dev.log ∧ d.locus = s.dev.locus := by
  have issued := s.dev.issueFrame_countIssue i.proc.val
  have proc : s.dev.taskProc t < 16 := fieldOf_lt _ 20 4
  refine gives_of_retire hi region exec_spanStamp
    (Dev.effect_of_logged (d := s.dev.countIssue i.proc.val) (by rw [issued.task]; exact found) hk hh) ?_ ?_ fun d moved => ?_
  · rw [Dev.task_count, Dev.task_onTask_self, issued.task]
  · refine Eq.trans (Dev.bit_of_reg_eq (Dev.reg_setReg_ne _ _ ?_)) (issued.taskUser i.proc.isLt t)
    rw [issued.taskProc i.proc.isLt]
    simp only [Fld.SPP_TASK_USER, Adr.SPP_TASK, Adr.SPP_CNT]
    omega
  · rw [moved.only]
    show (s.dev.countIssue i.proc.val).log = _ ∧ (s.dev.countIssue i.proc.val).locus = _
    rw [issued.only]
    exact ⟨rfl, rfl⟩

theorem completes_spanStamp_of_full (full : 64 ≤ (s.dev.task t).log.length)
    (new : ∀ r ∈ (s.dev.task t).log, r.num ≠ (s.dev.task t).effects) : Completes (.spanStamp i rd k) s fun d =>
      (d.task t).ckpt.isSome = true ∧ (d.task t).pc = (s.dev.task t).pc ∧ ∀ r : SpanReg, d.sreg t r = s.dev.sreg t r := by
  have issued := s.dev.issueFrame_countIssue i.proc.val
  refine Completes.of_on _ exec_spanStamp ?_
  rw [Dev.span1_of_issuer hi, Dev.effect_of_full (by rw [issued.task]; exact full) (by rw [issued.task]; exact new)]
  unfold Dev.startCkpt
  refine ⟨?_, ?_, fun r => ?_⟩
  · rw [Dev.task_onTask_self]
    rfl
  · rw [Dev.task_onTask_self, Dev.task_event, issued.task]
  · rw [Dev.sreg_eq, Dev.task_onTask_self, Dev.task_event, issued.task]
    rfl

end

/-! ## Signals (R263) -/

section
variable {s : State} {i : SpanIssue} {t : Nat} {rs1 : SpanReg} (hi : s.dev.issuer i = some t)
include hi

/-- What SIGNAL does to task u as its effect is performed; a number beyond 95 names none. -/
def Dev.signalled (d : Dev) (u : Nat) : DWord × Dev := (0, d.when (u < 96) fun d => d.onTask u fun x => { x with signal := true })

/-- SIGNAL of a task that names task u. -/
def Dev.signalInstr (d : Dev) (t u : Nat) : Dev :=
  if d.taskUser t && !(u < 96 && d.taskUser u) then d.trap t causeDenied else d.effect t effSignal 0 [u] fun d => d.signalled u

omit hi in
theorem exec_spanSignal : exec (.spanSignal i rs1) s =
    s.on fun d => d.span1 i fun d t => d.signalInstr t ((d.sreg t rs1.val).toNat % 128) := rfl

theorem spanTraps_spanSignal (user : s.dev.taskUser t = true)
    (other : ¬((s.dev.sreg t rs1).toNat % 128 < 96 ∧ s.dev.taskUser ((s.dev.sreg t rs1).toNat % 128) = true)) :
    SpanTraps (.spanSignal i rs1) s t causeDenied := by
  have issued := s.dev.issueFrame_countIssue i.proc.val
  refine spanTraps_of_trap hi exec_spanSignal (if_pos ?_)
  have off : (decide ((s.dev.sreg t rs1).toNat % 128 < 96) && s.dev.taskUser ((s.dev.sreg t rs1).toNat % 128)) = false :=
    Bool.eq_false_iff.2 (by simpa using other)
  rw [issued.sreg, issued.taskUser i.proc.isLt, issued.taskUser i.proc.isLt, user, off]
  rfl

omit hi in
/-- A signal changes no task but the one named, and of it the signal alone. -/
theorem Dev.task_signalled (d : Dev) (u t : Nat) : ∃ b, ((d.signalled u).2.task t) = { d.task t with signal := b } ∧
    (t = u → u < 96 → b = true) := by
  by_cases hu : u < 96
  · have on : (d.signalled u).2 = d.onTask u fun x => { x with signal := true } := by
      unfold Dev.signalled; rw [decide_eq_true hu]; rfl
    rw [on, Dev.task_onTask]
    by_cases ht : t = u
    · exact ⟨true, by rw [if_pos ht, ht], fun _ _ => rfl⟩
    · exact ⟨(d.task t).signal, by rw [if_neg ht], fun h => absurd h ht⟩
  · have off : (d.signalled u).2 = d := by unfold Dev.signalled; rw [decide_eq_false hu]; rfl
    rw [off]
    exact ⟨(d.task t).signal, rfl, fun _ h => absurd h hu⟩

theorem completes_spanSignal (region : s.dev.inRegion t ((s.dev.task t).pc + 4) = true)
    (may : s.dev.taskUser t = false ∨
      ((s.dev.sreg t rs1).toNat % 128 < 96 ∧ s.dev.taskUser ((s.dev.sreg t rs1).toNat % 128) = true))
    (fresh : (s.dev.task t).fresh) : Completes (.spanSignal i rs1) s fun d => (d.task t).pc = (s.dev.task t).pc + 4 ∧
      ((s.dev.sreg t rs1).toNat % 128 < 96 → (d.task ((s.dev.sreg t rs1).toNat % 128)).signal = true) ∧
      ∀ r : SpanReg, d.sreg t r = s.dev.sreg t r := by
  have issued := s.dev.issueFrame_countIssue i.proc.val
  set n := s.dev.countIssue i.proc.val with hn
  set u := (s.dev.sreg t rs1).toNat % 128 with hu
  have open' : ¬(n.taskUser t && !(decide (u < 96) && n.taskUser u)) = true := by
    rw [issued.taskUser i.proc.isLt, issued.taskUser i.proc.isLt]
    rcases may with h | ⟨h, h'⟩
    · simp [h]
    · simp [h, h']
  obtain ⟨b, own, signals⟩ := n.task_signalled u t
  have user : (n.signalled u).2.taskUser t = n.taskUser t := by unfold Dev.signalled Dev.when; split <;> rfl
  obtain ⟨moved, task⟩ := Dev.effect_spec (d := n) (t := t) (kind := effSignal) (rd := 0) (ops := [u])
    (perform := fun d => d.signalled u) (by rw [issued.task]; exact fresh) (by rw [own])
    (by rw [issued.task, ← region, ← issued.inRegion i.proc.isLt]; unfold Dev.inRegion; rw [user])
  refine Completes.of_on _ exec_spanSignal ?_
  rw [Dev.span1_of_issuer hi, ← hn, issued.sreg, ← hu, Dev.signalInstr, if_neg open']
  refine ⟨by rw [task, issued.task]; rfl, fun lt => ?_, fun r => ?_⟩
  · by_cases ht : u = t
    · refine (congrArg (fun w => ((n.effect t effSignal 0 [u] fun d => d.signalled u).task w).signal) ht).trans ?_
      rw [task, TaskSt.after_signal, own]
      exact signals ht.symm lt
    · obtain ⟨b', named, signals'⟩ := n.task_signalled u u
      rw [moved.others u ht, named]
      exact signals' rfl lt
  · rw [Dev.sreg_eq, task, own, issued.task]
    rfl

end

/-! ## Dispatches (R264) -/

/-- What a dispatch of descriptor l does as its effect is performed, run being its kind's. -/
def Dev.dispatched (d : Dev) (t : Nat) (l : List Byte) (run : Dev → List Byte → Nat × Dev) : Nat × Dev :=
  if d.taskUser t then (refuse reasonDenied, d)
  else ((run d l).1, (run d l).2.when ((run d l).1 < 2 ^ 63) fun d => d.markStarted (BitVec.ofNat 48 (fieldAt l 0 6)))

section
variable {d : Dev} {t k rd : Nat} {a : DWord} {run : Dev → List Byte → Nat × Dev}

theorem Dev.dispInstr_of_aligned (tcm : inTcm a = true) (aligned : a.toNat % 32 = 0) : d.dispInstr t k rd a run =
    d.effect t effDisp rd (k :: (d.tcmRead (d.taskProc t) a.toNat 32).map (·.toNat)) fun n =>
      (BitVec.ofNat 64 (n.dispatched t (d.tcmRead (d.taskProc t) a.toNat 32) run).1,
        (n.dispatched t (d.tcmRead (d.taskProc t) a.toNat 32) run).2) := by
  unfold Dev.dispInstr
  rw [tcm, if_neg (not_not.2 aligned)]
  rfl

end

section
variable {c : Instr} {s : State} {i : SpanIssue} {t : Nat} {rd rs1 : SpanReg} {k : Nat}
  {run : Nat → Dev → List Byte → Nat × Dev} (hi : s.dev.issuer i = some t) (region : s.dev.inRegion t ((s.dev.task t).pc + 4) = true)
  (hc : exec c s = s.on fun d => d.span1 i fun d t => d.dispInstr t k rd.val (d.sreg t rs1.val) (run t))
  (tcm : inTcm (s.dev.sreg t rs1) = true) (aligned : (s.dev.sreg t rs1).toNat % 32 = 0) (fresh : (s.dev.task t).fresh)
include hi region hc tcm aligned fresh

/-- A dispatch gives what its kind gives of the descriptor. -/
theorem gives_of_dispatch {l : List Byte} (hl : s.dev.tcmRead (s.dev.taskProc t) (s.dev.sreg t rs1).toNat 32 = l) {v : Nat} {m : Dev}
    {P : Dev → Prop} (hr : (s.dev.countIssue i.proc.val).dispatched t l (run t) = (v, m)) (pc : (m.task t).pc = (s.dev.task t).pc)
    (user : m.taskUser t = s.dev.taskUser t) (hP : ∀ d, TaskMoved t m d → P d) : Gives c s t rd (BitVec.ofNat 64 v) P := by
  have issued := s.dev.issueFrame_countIssue i.proc.val
  have read : (s.dev.countIssue i.proc.val).tcmRead ((s.dev.countIssue i.proc.val).taskProc t)
      ((s.dev.countIssue i.proc.val).sreg t rs1.val).toNat 32 = l := by
    rw [issued.tcmRead, issued.taskProc i.proc.isLt, issued.sreg, hl]
  refine gives_of_effect hi region hc fresh
    (Dev.dispInstr_of_aligned (d := s.dev.countIssue i.proc.val) (by rw [issued.sreg]; exact tcm) (by rw [issued.sreg]; exact aligned))
    ?_ ?_ ?_ fun d moved _ => hP d ?_
  · rw [read, hr]
  · rw [read, hr, pc]
  · rw [read, hr, user]
  · rwa [read, hr] at moved

/-- A user task's is refused. -/
theorem gives_dispatch_of_user (user : s.dev.taskUser t = true) : Gives c s t rd (BitVec.ofNat 64 (2 ^ 63 + 2)) fun d =>
    d.det = s.dev.det ∧ d.wp = s.dev.wp := by
  have issued := s.dev.issueFrame_countIssue i.proc.val
  refine gives_of_dispatch hi region hc tcm aligned fresh rfl (v := 2 ^ 63 + 2) (m := s.dev.countIssue i.proc.val) (if_pos ?_) ?_
    (issued.taskUser i.proc.isLt t) fun d moved => ?_
  · rw [issued.taskUser i.proc.isLt, user]
  · rw [issued.task]
  · rw [moved.only, issued.only]
    exact ⟨rfl, rfl⟩

variable (vendor : s.dev.taskUser t = false)
include vendor

/-- A vendor task's is refused where its kind refuses it and leaves the block. -/
theorem gives_dispatch_of_refused {v : Nat} (hv : 2 ^ 63 ≤ v)
    (hr : run t (s.dev.countIssue i.proc.val) (s.dev.tcmRead (s.dev.taskProc t) (s.dev.sreg t rs1).toNat 32) =
      (v, s.dev.countIssue i.proc.val)) :
    Gives c s t rd (BitVec.ofNat 64 v) fun d => d.det = s.dev.det ∧ d.wp = s.dev.wp := by
  have issued := s.dev.issueFrame_countIssue i.proc.val
  have barred : ¬(s.dev.countIssue i.proc.val).taskUser t = true := by
    rw [issued.taskUser i.proc.isLt, vendor]; exact Bool.false_ne_true
  refine gives_of_dispatch hi region hc tcm aligned fresh rfl (v := v) (m := s.dev.countIssue i.proc.val) ?_ ?_
    (issued.taskUser i.proc.isLt t) fun d moved => ?_
  · unfold Dev.dispatched
    rw [if_neg barred, hr, decide_eq_false (Nat.not_lt.2 hv)]
    rfl
  · rw [issued.task]
  · rw [moved.only, issued.only]
    exact ⟨rfl, rfl⟩

/-- One that its kind takes marks the command that it serves as started. -/
theorem gives_dispatch_of_taken {l : List Byte} (hl : s.dev.tcmRead (s.dev.taskProc t) (s.dev.sreg t rs1).toNat 32 = l) {v : Nat}
    {m : Dev} {P : Dev → Prop} (hv : v < 2 ^ 63) (hr : run t (s.dev.countIssue i.proc.val) l = (v, m))
    (pc : (m.task t).pc = (s.dev.task t).pc) (user : m.taskUser t = false)
    (hP : ∀ d, TaskMoved t (m.markStarted (BitVec.ofNat 48 (fieldAt l 0 6))) d → P d) : Gives c s t rd (BitVec.ofNat 64 v) P := by
  have issued := s.dev.issueFrame_countIssue i.proc.val
  have barred : ¬(s.dev.countIssue i.proc.val).taskUser t = true := by
    rw [issued.taskUser i.proc.isLt, vendor]; exact Bool.false_ne_true
  refine gives_of_dispatch hi region hc tcm aligned fresh hl (v := v) (m := m.markStarted (BitVec.ofNat 48 (fieldAt l 0 6))) ?_ pc
    (user.trans vendor.symm) hP
  unfold Dev.dispatched
  rw [if_neg barred, hr, decide_eq_true hv]
  rfl

end

/-! ## The reserved kind of DISP -/

/-- DISP of kind 3 is a dispatch that is always refused. -/
theorem exec_spanIllegalOpcode_of_disp {s : State} {i : SpanIssue} {rd rs1 : SpanReg} {w : Word} (listed : spanListed w = true)
    (op : w.toNat / 2 ^ 26 = 0x23) (kind : w.toNat % 2048 = 3) (hrd : w.toNat / 2 ^ 21 % 32 = rd.val)
    (hrs : w.toNat / 2 ^ 16 % 32 = rs1.val) : exec (.spanIllegalOpcode i w) s = s.on fun d => d.span1 i fun d t =>
      d.dispInstr t 3 rd.val (d.sreg t rs1.val) fun d _ => (refuse reasonBadDesc, d) := by
  show execSpanIllegalOpcode i w s = _
  unfold execSpanIllegalOpcode
  refine congrArg s.on (funext fun d => ?_)
  dsimp only
  rw [listed, op, kind, hrd, hrs]
  rfl

end Sys2Proof.Machine

/-! PROOFS. Effects of the Span tasks, continued: dispatches of frame jobs, stripe jobs and band writes (O48). -/

namespace Sys2Proof.Machine

theorem addrSide_lt (a : Nat) : addrSide a < 2 := by
  unfold addrSide bitsOf
  exact Nat.mod_lt _ (by decide)

/-! ## A task through the end of a frame job -/

/-- Task t, which is none of a user, stands at pc and runs: bits 28 and 27 of its register are 01, but for what n counts by a stripe
engine of a number that no engine has could add below them. -/
def Dev.taskStands (t pc n : Nat) (d : Dev) : Prop :=
  n ≤ 2 → (d.task t).pc = pc ∧ d.taskUser t = false ∧ (d.reg (Adr.SPP_TASK t)).toNat % 2 ^ 29 < 2 ^ 28 + n

section
variable {t pc n : Nat} {d d' : Dev}

theorem Dev.taskStands.of_reg (h : d.taskStands t pc n) (task : (d'.task t).pc = (d.task t).pc)
    (reg : d'.reg (Adr.SPP_TASK t) = d.reg (Adr.SPP_TASK t)) : d'.taskStands t pc n := fun hn => by
  obtain ⟨hpc, user, low⟩ := h hn
  exact ⟨task.trans hpc, (Dev.bit_of_reg_eq reg).trans user, by rwa [reg]⟩

/-- Clearing one of the fields of a decoder's status makes no low part of a register greater. -/
theorem withField_zero_mod_le (v : Word) {lo w : Nat} (h : lo = 0 ∧ w = 1 ∨ lo = 3 ∧ w = 1 ∨ lo = 8 ∧ w = 8) :
    (withField v lo w 0).toNat % 2 ^ 29 ≤ v.toNat % 2 ^ 29 := by
  rw [withField_toNat v lo w 0 (by omega)]
  rcases h with ⟨rfl, rfl⟩ | ⟨rfl, rfl⟩ | ⟨rfl, rfl⟩
  · norm_num; omega
  · norm_num; omega
  · norm_num; omega

/-- Clearing such a field leaves the task where it stands. -/
theorem Dev.taskStands.clear (h : d.taskStands t pc n) (f : Field)
    (hf : f.lo = 0 ∧ f.width = 1 ∨ f.lo = 3 ∧ f.width = 1 ∨ f.lo = 8 ∧ f.width = 8) : (d.put f 0).taskStands t pc n := fun hn => by
  obtain ⟨hpc, user, low⟩ := h hn
  refine ⟨hpc, ?_, ?_⟩
  · exact (Dev.bit_put_ne d f _ 0 (.inr (.inr (by simp only [Fld.SPP_TASK_USER]; omega))) (by omega)).trans user
  · rw [Dev.reg_put]
    split
    next ha =>
      rw [ha] at low
      exact Nat.lt_of_le_of_lt (withField_zero_mod_le (d.reg f.adr) hf) low
    · exact low

/-- A register whose low part leaves room counts without a carry into its high part. -/
theorem counted_parts (v : Word) {n : Nat} (hn : n ≤ 1) (low : v.toNat % 2 ^ 29 < 2 ^ 28 + n) :
    fieldOf (BitVec.ofNat 32 (min 0xffffffff (v.toNat + 1))) 30 1 = fieldOf v 30 1 ∧
    (BitVec.ofNat 32 (min 0xffffffff (v.toNat + 1))).toNat % 2 ^ 29 < 2 ^ 28 + (n + 1) := by
  have hv := v.isLt
  unfold fieldOf
  rw [BitVec.toNat_ofNat]
  omega

/-- A count leaves it too, one higher. -/
theorem Dev.taskStands.count (h : d.taskStands t pc n) (a : Nat) : (d.count a).taskStands t pc (n + 1) := fun hn => by
  obtain ⟨hpc, user, low⟩ := h (by omega)
  obtain ⟨high, low'⟩ := counted_parts _ (by omega) low
  by_cases ha : Adr.SPP_TASK t = a
  · have counted : (d.count a).reg (Adr.SPP_TASK t) = BitVec.ofNat 32 (min 0xffffffff ((d.reg (Adr.SPP_TASK t)).toNat + 1)) := by
      rw [ha]; exact Dev.reg_setReg_self ..
    refine ⟨hpc, ?_, by rwa [counted]⟩
    refine Eq.trans (Dev.bit_of_fld_eq (d := d) ?_) user
    show fieldOf ((d.count a).reg (Adr.SPP_TASK t)) 30 1 = fieldOf (d.reg (Adr.SPP_TASK t)) 30 1
    rw [counted, high]
  · have other : (d.count a).reg (Adr.SPP_TASK t) = d.reg (Adr.SPP_TASK t) := Dev.reg_setReg_ne _ _ ha
    exact ⟨hpc, (Dev.bit_of_reg_eq other).trans user, by rw [other]; omega⟩

/-- One of another register leaves it as it is. -/
theorem Dev.taskStands.count_ne (h : d.taskStands t pc n) {a : Nat} (ha : Adr.SPP_TASK t ≠ a) : (d.count a).taskStands t pc n :=
  h.of_reg rfl (Dev.reg_setReg_ne _ _ ha)

end

theorem sppTask_notMem_jobRegs {h t : Nat} (hh : h < 2) (ht : t < 96) : Adr.SPP_TASK t ∉ jobRegs h := by
  have lat : ∀ a ∈ latStatusRegs, a < 0x50000 := by decide
  have spp : ∀ a ∈ (List.range 16).map fun p => Adr.SPP_CNT p 7, a < 0xd0000 := by decide
  have range : 0xd1000 ≤ Adr.SPP_TASK t ∧ Adr.SPP_TASK t < 0xd2000 := by simp only [Adr.SPP_TASK]; omega
  obtain ⟨lo, hi⟩ := range
  unfold jobRegs
  simp only [List.mem_append, List.mem_cons, List.not_mem_nil, or_false, not_or]
  refine ⟨⟨⟨?_, ?_, ?_, ?_, ?_⟩, fun hm => ?_⟩, fun hm => ?_⟩
  · simp only [Adr.LOCUS_STATUS]; omega
  · simp only [Adr.DEC_CNT]; omega
  · simp only [Adr.DEC_QSTAT]; omega
  · simp only [Adr.STR_STATUS]; omega
  · simp only [Adr.STR_STATUS]; omega
  · have := lat _ hm; omega
  · have := spp _ hm; omega

/-- A task of a vendor stands as jobs end. -/
theorem keptByJobs_task {h t : Nat} (hh : h < 2) (ht : t < 96) (pc : Nat) : KeptByJobs h (Dev.taskStands t pc) where
  frame hf hp := by
    refine hp.of_reg (hf.pcs t) (hf.regs _ (sppTask_notMem_jobRegs hh ht))
  free u hp := by
    have busy := hp.clear (Fld.DECU_STATUS_BUSY u) (by simp [Fld.DECU_STATUS_BUSY])
    have sweep := busy.clear (Fld.DECU_STATUS_SWEEP u) (by simp [Fld.DECU_STATUS_SWEEP])
    exact sweep.clear (Fld.DECU_STATUS_ITER u) (by simp [Fld.DECU_STATUS_ITER])
  misplaced e hp := by
    refine hp.of_reg rfl (Dev.reg_put_ne _ _ _ ?_)
    simp only [Fld.STR_STATUS_MISPLACED, Adr.SPP_TASK, Adr.STR_STATUS]
    omega
  stripe e k hp := hp.count _
  mono hp hn := by
    obtain ⟨hpc, user, low⟩ := hp (by omega)
    exact ⟨hpc, user, by omega⟩

section
variable {d : Dev} {h t pc : Nat} (hh : h < 2) (ht : t < 96)
include hh ht

/-- A task of a vendor stands through the end of a frame job. -/
theorem Dev.taskStands.endJob (hs : d.taskStands t pc 0) (j : JobSt) (status : Nat) (shift : Int) (hard : List Bool) :
    (d.endJob h j status shift hard).taskStands t pc 2 := by
  have kept := keptByJobs_task hh ht pc
  rw [Dev.endJob_eq]
  refine kept.jobSettled _ _ _ _ ?_
  have freed := kept.freeDecoder j.unit (kept.frame (d.jobFrame_jobBorn h j status shift hard) hs)
  unfold Dev.jobLeaves
  refine Dev.taskStands.of_reg (d := Dev.when _ _ _) ?_ rfl rfl
  unfold Dev.when
  split
  next hc =>
    have counter := of_decide_eq_true hc
    exact freed.count_ne (by simp only [Adr.SPP_TASK, Adr.DEC_CNT]; omega)
  · exact freed

end

/-! ## Frame jobs (R117, R118) -/

/-- The frame job that a descriptor dispatches. -/
def Dev.newJob (d : Dev) (l : List Byte) : JobSt :=
  { esn := d.esn, rcpt := BitVec.ofNat 48 (fieldAt l 0 6), parity := (fieldAt l 6 2).testBit 0, noSweep := (fieldAt l 6 2).testBit 1,
    scrub := (fieldAt l 6 2).testBit 2, frame := fieldAt l 8 4, stripe := fieldAt l 12 1, j := fieldAt l 13 1,
    iterLim := fieldAt l 14 1, turboLim := fieldAt l 15 1 }

/-- The stripe to which a frame job belongs takes note of it. -/
def Dev.stripeNotes (d : Dev) (h : Nat) (j : JobSt) : Dev :=
  match (d.stripeJob h j.stripe).filter fun s => !s.held with
  | some s => d.setStripe h j.stripe (some { s with ended := false, reread := s.reread || s.ended, flying := s.flying ++ [j.j] })
  | none => d

/-- The job is logged, and among the jobs of its head. -/
def Dev.jobAccepted (d : Dev) (h : Nat) (j : JobSt) : Dev :=
  ((d.eventFor j.rcpt .frameDispatch h 0 [j.frame, j.j]).stripeNotes h j).onDh h fun s => { s with jobs := s.jobs ++ [j] }

/-- A job whose group the pass has seen already, or that is blank in it, ends at once. -/
def Dev.jobJudged (d : Dev) (h : Nat) (j : JobSt) : Dev :=
  if (d.dh h).seen.contains (groupOfFrame j.frame) then d.endJob h j 5 0 []
  else match findGroup (d.dh h).store (groupOfFrame j.frame) with
    | some g => if !g.past && g.blanks.contains (framePos j.frame) then d.endJob h j 4 0 [] else d
    | none => d

/-- The block with job j of head h dispatched. -/
def Dev.jobDispatched (d : Dev) (h : Nat) (j : JobSt) : Dev := (((d.jobAccepted h j).jobJudged h j).showQueue h).showStripes

section
variable (d : Dev) (l : List Byte)

theorem Dev.dispFrame_of_bad (bad : frameDescOk l = false) : d.dispFrame l = (refuse reasonBadDesc, d) := by
  unfold Dev.dispFrame
  rw [bad]
  rfl

theorem Dev.dispFrame_of_ok (ok : frameDescOk l = true) (served : d.headServed (addrSide (fieldAt l 8 4)) = true)
    (room : (d.dh (addrSide (fieldAt l 8 4))).jobs.length < 256) : 
    d.dispFrame l = (d.esn.toNat, d.jobDispatched (addrSide (fieldAt l 8 4)) (d.newJob l)) := by
  unfold Dev.dispFrame
  dsimp only
  rw [ok, served, if_neg (Nat.not_le.2 room)]
  rfl

theorem Dev.detectFrame_jobAccepted (h : Nat) (j : JobSt) :
    DetectFrame (d.eventFor j.rcpt .frameDispatch h 0 [j.frame, j.j]) (d.jobAccepted h j) := by
  unfold Dev.jobAccepted Dev.stripeNotes
  split
  · exact ((DetectFrame.refl _).setStripe ..).onDh ..
  · exact (DetectFrame.refl _).onDh ..

theorem Dev.detectFrame_jobJudged (h : Nat) (j : JobSt) : DetectFrame d (d.jobJudged h j) := by
  unfold Dev.jobJudged
  split
  · exact d.detectFrame_endJob ..
  · split
    · split
      · exact d.detectFrame_endJob ..
      · exact .refl d
    · exact .refl d

theorem Dev.detectFrame_jobDispatched (h : Nat) (j : JobSt) :
    DetectFrame (d.eventFor j.rcpt .frameDispatch h 0 [j.frame, j.j]) (d.jobDispatched h j) := by
  have judged := (d.detectFrame_jobAccepted h j).trans (Dev.detectFrame_jobJudged _ h j)
  exact (judged.regs (Dev.regsOnly_showQueue _ h)).regs (Dev.regsOnly_showStripes _)

variable {d} {t pc : Nat} (ht : t < 96)
include ht

omit ht in
theorem Dev.taskStands.more {n : Nat} (hs : d.taskStands t pc n) : d.taskStands t pc (n + 1) := fun hn => by
  obtain ⟨hpc, user, low⟩ := hs (by omega)
  exact ⟨hpc, user, by omega⟩

/-- A task of a vendor stands through a frame job's dispatch. -/
theorem Dev.taskStands.jobDispatched (hs : d.taskStands t pc 0) {h : Nat} (hh : h < 2) (j : JobSt) :
    (d.jobDispatched h j).taskStands t pc 2 := by
  have kept := keptByJobs_task hh ht pc
  have logged : (d.eventFor j.rcpt .frameDispatch h 0 [j.frame, j.j]).taskStands t pc 0 :=
    kept.frame ((JobFrame.refl h d).eventFor ..) hs
  have accepted : (d.jobAccepted h j).taskStands t pc 0 := by
    unfold Dev.jobAccepted Dev.stripeNotes
    split
    · exact logged.of_reg rfl rfl
    · exact logged.of_reg rfl rfl
  refine kept.frame ((Dev.jobFrame_showQueue _ _).trans (Dev.jobFrame_showStripes _ _)) ?_
  unfold Dev.jobJudged
  split
  · exact accepted.endJob hh ht _ _ _ _
  · split
    · split
      · exact accepted.endJob hh ht _ _ _ _
      · exact accepted.more.more
    · exact accepted.more.more

end

/-! ## What dispatches give -/

/-- What the issue of an instruction leaves of a head's service and its jobs. -/
theorem IssueFrame.headServed {p : Nat} {d n : Dev} (h : IssueFrame p d n) (hp : p < 12) (x : Nat) :
    n.headServed x = d.headServed x := by
  unfold Dev.headServed Dev.mode Dev.variantS
  rw [h.fld hp (f := Fld.ID_DEVICE_MODE) (.inl (by decide)), h.fld hp (f := Fld.ID_DEVICE_VARIANT) (.inl (by decide))]

theorem IssueFrame.det {p : Nat} {d n : Dev} (h : IssueFrame p d n) : n.det = d.det := by rw [h.only]

theorem Dev.log_eventFor (d : Dev) (rcpt : Esn) (kind : EventKind) (unit code : Nat) (detail : List Nat) :
    (d.eventFor rcpt kind unit code detail).log = ⟨d.esn, rcpt, kind, unit, code, detail⟩ :: d.log := rfl

theorem Dev.log_markStarted (d : Dev) (rcpt : Esn) : (d.markStarted rcpt).log = d.log := rfl

theorem Dev.det_markStarted (d : Dev) (rcpt : Esn) : (d.markStarted rcpt).det = d.det := rfl

theorem Dev.wp_markStarted (d : Dev) (rcpt : Esn) : (d.markStarted rcpt).wp = d.wp := rfl

theorem Dev.stripeJob_congr {d d' : Dev} (h : d'.det = d.det) (x slot : Nat) : d'.stripeJob x slot = d.stripeJob x slot := by
  unfold Dev.stripeJob
  rw [h]

/-- The commands of a receipt that has been marked have started. -/
theorem Dev.markStarted_started (d : Dev) (rcpt : Esn) : ∀ c ∈ (d.markStarted rcpt).host.cmds, c.rcpt = rcpt → c.started = true := by
  intro c hc own
  obtain ⟨y, -, rfl⟩ := List.mem_map.1 hc
  split at own
  next h => rw [if_pos h]
  next h => exact absurd own h

theorem esn_lt (e : Esn) : e.toNat < 2 ^ 63 := Nat.lt_trans e.isLt (by decide)

theorem ofNat_esn (e : Esn) : BitVec.ofNat 64 e.toNat = e.zeroExtend 64 := BitVec.eq_of_toNat_eq (by simp)

section
variable {s : State} {i : SpanIssue} {t : Nat} {rd rs1 : SpanReg} (hi : s.dev.issuer i = some t)
  (region : s.dev.inRegion t ((s.dev.task t).pc + 4) = true)
  (tcm : inTcm (s.dev.sreg t rs1) = true) (aligned : (s.dev.sreg t rs1).toNat % 32 = 0) (fresh : (s.dev.task t).fresh)
  (vendor : s.dev.taskUser t = false)

include hi vendor in
/-- The task of a vendor that issues stands. -/
theorem taskStands_issued : (s.dev.countIssue i.proc.val).taskStands t (s.dev.task t).pc 0 := fun _ => by
  have issued := s.dev.issueFrame_countIssue i.proc.val
  have runs : (s.dev.reg (Adr.SPP_TASK t)).toNat / 2 ^ 27 % 2 ^ 2 = 1 := (Dev.issuer_spec hi).2
  have reg : (s.dev.countIssue i.proc.val).reg (Adr.SPP_TASK t) = s.dev.reg (Adr.SPP_TASK t) :=
    issued.reg i.proc.isLt (.inr (by simp only [Adr.SPP_TASK]; omega))
  refine ⟨by rw [issued.task], (issued.taskUser i.proc.isLt t).trans vendor, ?_⟩
  rw [reg]
  omega

include hi region tcm aligned fresh vendor

section
variable {l : List Byte} (hl : s.dev.tcmRead (s.dev.taskProc t) (s.dev.sreg t rs1).toNat 32 = l)
include hl

theorem gives_dispFrameJob_of_bad (bad : frameDescOk l = false) :
    Gives (.dispFrameJob i rd rs1) s t rd (BitVec.ofNat 64 (2 ^ 63 + 3)) fun d => d.det = s.dev.det ∧ d.wp = s.dev.wp :=
  gives_dispatch_of_refused (k := 0) (run := fun _ d l => d.dispFrame l) hi region rfl tcm aligned fresh vendor
    (by decide) (by rw [hl]; exact Dev.dispFrame_of_bad _ l bad)

theorem gives_dispFrameJob_of_ok (ok : frameDescOk l = true) (served : s.dev.headServed (addrSide (fieldAt l 8 4)) = true)
    (room : (s.dev.dh (addrSide (fieldAt l 8 4))).jobs.length < 256) :
    Gives (.dispFrameJob i rd rs1) s t rd (s.dev.esn.zeroExtend 64) fun d => ∃ pre, d.log = pre ++
      ⟨s.dev.esn, BitVec.ofNat 48 (fieldAt l 0 6), .frameDispatch, addrSide (fieldAt l 8 4), 0, [fieldAt l 8 4, fieldAt l 13 1]⟩ ::
        s.dev.log ∧ ∀ c ∈ d.host.cmds, c.rcpt = BitVec.ofNat 48 (fieldAt l 0 6) → c.started = true := by
  have issued := s.dev.issueFrame_countIssue i.proc.val
  have stands := taskStands_issued hi vendor
  set n := s.dev.countIssue i.proc.val with hn
  have hh := addrSide_lt (fieldAt l 8 4)
  have taken : n.dispFrame l = (s.dev.esn.toNat, n.jobDispatched (addrSide (fieldAt l 8 4)) (n.newJob l)) := by
    rw [Dev.dispFrame_of_ok n l ok ((issued.headServed i.proc.isLt _).trans served) (by rw [Dev.dh_of_det_eq issued.det]; exact room),
      issued.esn]
  obtain ⟨pc, user, -⟩ := stands.jobDispatched (Dev.issuer_spec hi).1 hh (n.newJob l) (Nat.le_refl 2)
  obtain ⟨pre, hpre⟩ := (n.detectFrame_jobDispatched (addrSide (fieldAt l 8 4)) (n.newJob l)).log
  have log : n.log = s.dev.log := by rw [issued.only]
  rw [Dev.log_eventFor, issued.esn, log] at hpre
  rw [← ofNat_esn]
  refine gives_dispatch_of_taken (k := 0) (run := fun _ d l => d.dispFrame l) hi region rfl tcm aligned fresh vendor hl (esn_lt _) taken
    pc user fun d moved => ?_
  rw [moved.log, moved.host, Dev.log_markStarted]
  exact ⟨pre, hpre.symm, Dev.markStarted_started _ _⟩

end

end

end Sys2Proof.Machine

/-! PROOFS. Effects of the Span tasks, continued: dispatches of stripe jobs and band writes (O48). -/

namespace Sys2Proof.Machine

/-! ## Stripe jobs (R124, R264) -/

/-- The stripe job that a descriptor of a task dispatches to an engine. -/
def Dev.newStripe (d : Dev) (task eng : Nat) (l : List Byte) : StripeJob :=
  { op := fieldAt l 6 1, verify := (fieldAt l 7 1).testBit 0, scrub := (fieldAt l 7 1).testBit 1, addr := fieldAt l 8 4,
    home := fieldAt l 12 4, nsid := fieldAt l 16 4, lba0 := fieldAt l 20 8, buf := fieldAt l 28 4,
    rcpt := BitVec.ofNat 48 (fieldAt l 0 6), esn := d.esn, engine := eng, task := task }

/-- The block with stripe job j in a slot of head h. -/
def Dev.stripeDispatched (d : Dev) (h slot : Nat) (j : StripeJob) : Dev :=
  ((d.eventFor j.rcpt .stripeDispatch j.engine j.op [j.addr, slot]).setStripe h slot (some j)).showStripes

section
variable (d : Dev) (task : Nat) (l : List Byte)

theorem Dev.dispStripe_of_bad (bad : stripeDescOk l = false) : d.dispStripe task l = (refuse reasonBadDesc, d) := by
  unfold Dev.dispStripe
  rw [bad]
  rfl

theorem Dev.dispStripe_of_ok {eng slot : Nat} (ok : stripeDescOk l = true) (served : d.headServed (addrSide (fieldAt l 8 4)) = true)
    (engine : d.engineFor (addrSide (fieldAt l 8 4)) = some eng) (place : d.freeStripe (addrSide (fieldAt l 8 4)) = some slot) :
    d.dispStripe task l =
      (d.esn.toNat + slot * 2 ^ 48, d.stripeDispatched (addrSide (fieldAt l 8 4)) slot (d.newStripe task eng l)) := by
  unfold Dev.dispStripe
  dsimp only
  rw [ok, served, engine]
  dsimp only
  rw [place]
  rfl

theorem Dev.freeStripe_lt {h slot : Nat} (place : d.freeStripe h = some slot) : slot < 64 := by
  unfold Dev.freeStripe at place
  rcases (Option.orElse_eq_some _ _ _).1 place with found | ⟨-, found⟩
  · exact List.mem_range.1 (List.mem_of_find?_eq_some found)
  · exact List.mem_range.1 (List.mem_of_find?_eq_some found)

end

theorem IssueFrame.engineFor {p : Nat} {d n : Dev} (h : IssueFrame p d n) (hp : p < 12) {x : Nat} (hx : x < 2) :
    n.engineFor x = d.engineFor x := by
  have dead (e : Nat) : n.dead 15 e = d.dead 15 e := Dev.dead_congr (by rw [h.only]) 15 e
  have takes {e : Nat} (he : e < 2) : n.engineTakes e = d.engineTakes e := by
    unfold Dev.engineTakes
    rw [dead, h.bit hp (.inl (by simp only [Fld.STR_CTRL_ENABLE, Adr.STR_CTRL]; omega))]
  have variant : n.variantS = d.variantS := by
    unfold Dev.variantS
    rw [h.fld hp (f := Fld.ID_DEVICE_VARIANT) (.inl (by decide))]
  unfold Dev.engineFor
  rw [takes hx, takes (by omega : 1 - x < 2), variant, dead]

theorem IssueFrame.freeStripe {p : Nat} {d n : Dev} (h : IssueFrame p d n) (x : Nat) : n.freeStripe x = d.freeStripe x := by
  unfold Dev.freeStripe Dev.stripeJob
  rw [h.det]

/-- The job stands in its slot. -/
theorem Dev.stripeJob_stripeDispatched (d : Dev) (h slot : Nat) (j : StripeJob) :
    (d.stripeDispatched h slot j).stripeJob h slot = some j :=
  (Dev.stripeJob_showStripes _ h slot).trans (Dev.stripeJob_setStripe_self ..)

theorem Dev.jobFrame_stripeDispatched (d : Dev) (h slot : Nat) (j : StripeJob) : JobFrame 0 d (d.stripeDispatched h slot j) :=
  (((JobFrame.refl 0 d).eventFor ..).setStripe ..).trans (Dev.jobFrame_showStripes _ 0)

/-! ## Band writes (R134, R135) -/

/-- The band write that a descriptor of a task dispatches. -/
def Dev.newBand (d : Dev) (task : Nat) (l : List Byte) : BandJob :=
  ⟨d.esn, BitVec.ofNat 48 (fieldAt l 0 6), task, fieldAt l 8 4, BitVec.ofNat 64 (fieldAt l 12 8)⟩

/-- The block with band write j of head h accepted, and then refused, late or in its queue. -/
def Dev.bandJudged (d : Dev) (h : Nat) (j : BandJob) : Dev :=
  if d.bandRefused h j.addr j.mask then d.bandResult h j 2 0 0 0
  else if d.bandLate h j.addr then d.bandResult h j 3 0 0 0
  else (d.onWp h fun s => { s with queue := s.queue ++ [j] }).showWp h

/-- What such a band write gives, whichever holds. -/
theorem Dev.bandJudged_pair (d : Dev) (h : Nat) (j : BandJob) (e : Nat) :
    (if d.bandRefused h j.addr j.mask then (e, d.bandResult h j 2 0 0 0)
      else if d.bandLate h j.addr then (e, d.bandResult h j 3 0 0 0)
      else (e, (d.onWp h fun s => { s with queue := s.queue ++ [j] }).showWp h)) = (e, d.bandJudged h j) := by
  unfold Dev.bandJudged
  split
  · rfl
  · split
    · rfl
    · rfl

section
variable (d : Dev) (task : Nat) (l : List Byte)

theorem Dev.dispBand_of_bad (bad : bandDescOk l = false) : d.dispBand task l = (refuse reasonBadDesc, d) := by
  unfold Dev.dispBand
  rw [bad]
  rfl

theorem Dev.dispBand_of_ok (ok : bandDescOk l = true) (served : d.headServed (addrSide (fieldAt l 8 4)) = true)
    (enabled : d.bit (Fld.WP_CTRL_ENABLE (addrSide (fieldAt l 8 4))) = true)
    (room : (d.wps (addrSide (fieldAt l 8 4))).queue.length < 4) : d.dispBand task l = (d.esn.toNat,
      (d.eventFor (d.newBand task l).rcpt .bandAccept (addrSide (fieldAt l 8 4)) 0
        [(d.newBand task l).addr, (d.newBand task l).mask.toNat]).bandJudged (addrSide (fieldAt l 8 4)) (d.newBand task l)) := by
  unfold Dev.dispBand
  dsimp only
  rw [ok, served, enabled, if_neg (Nat.not_le.2 room)]
  simp only [Bool.not_true, Bool.or_self, Bool.false_eq_true, if_false]
  exact Dev.bandJudged_pair _ _ (d.newBand task l) d.esn.toNat

end

section
variable {d d' : Dev} (h : Nat) (j : BandJob)

/-- Whether a band write is refused rests on the medium and the stripe jobs. -/
theorem Dev.bandRefused_congr (medium : d'.medium = d.medium) (det : d'.det = d.det) (a : Nat) (mask : BitVec 64) :
    d'.bandRefused h a mask = d.bandRefused h a mask := by
  unfold Dev.bandRefused Dev.retiredSlot Dev.encodedFor Dev.layer Dev.stripeJobs
  rw [medium, det]

/-- Whether it is late rests on its head and the speed. -/
theorem Dev.bandLate_congr (heads : d'.heads = d.heads) (rpm : d'.rpm = d.rpm) (a : Nat) : d'.bandLate h a = d.bandLate h a := by
  unfold Dev.bandLate Dev.head
  rw [heads, rpm]

theorem Dev.jobFrame_bandResult (status inhibited uncovered fault : Nat) :
    JobFrame 0 d (d.bandResult h j status inhibited uncovered fault) :=
  ((JobFrame.refl 0 d).eventFor ..).trans (Dev.jobFrame_postMailWith _ 0 ..)

/-- A band write that is neither waits. -/
theorem Dev.wps_bandJudged (served : d.bandRefused h j.addr j.mask = false) (early : d.bandLate h j.addr = false) :
    ((d.bandJudged h j).wps h).queue = (d.wps h).queue ++ [j] := by
  unfold Dev.bandJudged
  rw [served, early]
  show ((d.onWp h fun s => { s with queue := s.queue ++ [j] }).wps h).queue = _
  unfold Dev.onWp
  exact congrArg WpSt.queue (Tab.get_set_self ..)

variable {t pc n : Nat} (ht : t < 96)
include ht

theorem Dev.taskStands.jobFrame (hs : d.taskStands t pc n) (frame : JobFrame 0 d d') : d'.taskStands t pc n :=
  (keptByJobs_task (by decide) ht pc).frame frame hs

theorem Dev.taskStands.bandJudged (hs : d.taskStands t pc n) : (d.bandJudged h j).taskStands t pc n := by
  unfold Dev.bandJudged
  split
  · exact hs.jobFrame ht (Dev.jobFrame_bandResult h j 2 0 0 0)
  · split
    · exact hs.jobFrame ht (Dev.jobFrame_bandResult h j 3 0 0 0)
    · refine hs.of_reg rfl ?_
      refine ((Dev.regFrame_showWp (d.onWp h fun s => { s with queue := s.queue ++ [j] }) h).2 _ ?_).trans rfl
      simp only [Adr.SPP_TASK, Adr.WP_STATUS, List.mem_singleton]
      omega

end

/-! ## What they give -/

theorem Dev.eventFor_only (d : Dev) (rcpt : Esn) (kind : EventKind) (unit code : Nat) (detail : List Nat) :
    d.eventFor rcpt kind unit code detail = { d with
      regs := (d.eventFor rcpt kind unit code detail).regs, locus := (d.eventFor rcpt kind unit code detail).locus,
      log := (d.eventFor rcpt kind unit code detail).log } := by
  unfold Dev.eventFor
  rw [Dev.issue_only]

section
variable {s : State} {i : SpanIssue} {t : Nat} {rd rs1 : SpanReg} (hi : s.dev.issuer i = some t)
  (region : s.dev.inRegion t ((s.dev.task t).pc + 4) = true)
  (tcm : inTcm (s.dev.sreg t rs1) = true) (aligned : (s.dev.sreg t rs1).toNat % 32 = 0) (fresh : (s.dev.task t).fresh)
  (vendor : s.dev.taskUser t = false) {l : List Byte} (hl : s.dev.tcmRead (s.dev.taskProc t) (s.dev.sreg t rs1).toNat 32 = l)
include hi region tcm aligned fresh vendor hl

theorem gives_dispStripeJob_of_bad (bad : stripeDescOk l = false) :
    Gives (.dispStripeJob i rd rs1) s t rd (BitVec.ofNat 64 (2 ^ 63 + 3)) fun d => d.det = s.dev.det ∧ d.wp = s.dev.wp :=
  gives_dispatch_of_refused (k := 1) (run := fun t d l => d.dispStripe t l) hi region rfl tcm aligned fresh vendor
    (by decide) (by rw [hl]; exact Dev.dispStripe_of_bad _ t l bad)

theorem gives_dispStripeJob_of_ok {eng slot : Nat} (ok : stripeDescOk l = true)
    (served : s.dev.headServed (addrSide (fieldAt l 8 4)) = true) (engine : s.dev.engineFor (addrSide (fieldAt l 8 4)) = some eng)
    (place : s.dev.freeStripe (addrSide (fieldAt l 8 4)) = some slot) :
    Gives (.dispStripeJob i rd rs1) s t rd (BitVec.ofNat 64 (s.dev.esn.toNat + slot * 2 ^ 48)) fun d =>
      (d.stripeJob (addrSide (fieldAt l 8 4)) slot).any (fun j =>
        j.esn == s.dev.esn && j.engine == eng && j.task == t && j.buf == fieldAt l 28 4) = true := by
  have issued := s.dev.issueFrame_countIssue i.proc.val
  have stands := taskStands_issued hi vendor
  set n := s.dev.countIssue i.proc.val with hn
  have hh := addrSide_lt (fieldAt l 8 4)
  have lt := Dev.freeStripe_lt s.dev place
  have taken := n.dispStripe_of_ok t l ok ((issued.headServed i.proc.isLt _).trans served)
    ((issued.engineFor i.proc.isLt hh).trans engine) ((issued.freeStripe _).trans place)
  rw [issued.esn] at taken
  obtain ⟨pc, user, -⟩ := stands.jobFrame (Dev.issuer_spec hi).1
    (n.jobFrame_stripeDispatched (addrSide (fieldAt l 8 4)) slot (n.newStripe t eng l)) (Nat.zero_le 2)
  have small : s.dev.esn.toNat + slot * 2 ^ 48 < 2 ^ 63 := by have := s.dev.esn.isLt; omega
  refine gives_dispatch_of_taken (k := 1) (run := fun t d l => d.dispStripe t l) hi region rfl tcm aligned fresh vendor hl small taken
    pc user fun d moved => ?_
  have stored : d.stripeJob (addrSide (fieldAt l 8 4)) slot = some (n.newStripe t eng l) := by
    rw [Dev.stripeJob_congr (moved.det.trans (Dev.det_markStarted ..)), Dev.stripeJob_stripeDispatched]
  rw [stored, Option.any_some]
  simp [Dev.newStripe, issued.esn]

theorem gives_dispBandWrite_of_bad (bad : bandDescOk l = false) :
    Gives (.dispBandWrite i rd rs1) s t rd (BitVec.ofNat 64 (2 ^ 63 + 3)) fun d => d.det = s.dev.det ∧ d.wp = s.dev.wp :=
  gives_dispatch_of_refused (k := 2) (run := fun t d l => d.dispBand t l) hi region rfl tcm aligned fresh vendor
    (by decide) (by rw [hl]; exact Dev.dispBand_of_bad _ t l bad)

theorem gives_dispBandWrite_of_ok (ok : bandDescOk l = true) (served : s.dev.headServed (addrSide (fieldAt l 8 4)) = true)
    (enabled : s.dev.bit (Fld.WP_CTRL_ENABLE (addrSide (fieldAt l 8 4))) = true)
    (room : (s.dev.wps (addrSide (fieldAt l 8 4))).queue.length < 4) :
    Gives (.dispBandWrite i rd rs1) s t rd (s.dev.esn.zeroExtend 64) fun d =>
      s.dev.bandRefused (addrSide (fieldAt l 8 4)) (fieldAt l 8 4) (BitVec.ofNat 64 (fieldAt l 12 8)) = false →
      s.dev.bandLate (addrSide (fieldAt l 8 4)) (fieldAt l 8 4) = false →
      (d.wps (addrSide (fieldAt l 8 4))).queue.length = (s.dev.wps (addrSide (fieldAt l 8 4))).queue.length + 1 := by
  have issued := s.dev.issueFrame_countIssue i.proc.val
  have stands := taskStands_issued hi vendor
  have ht := (Dev.issuer_spec hi).1
  set n := s.dev.countIssue i.proc.val with hn
  have hh := addrSide_lt (fieldAt l 8 4)
  have wp : n.wp = s.dev.wp := by rw [issued.only]
  have taken := n.dispBand_of_ok t l ok ((issued.headServed i.proc.isLt _).trans served)
    ((issued.bit i.proc.isLt (.inl (by simp only [Fld.WP_CTRL_ENABLE, Adr.WP_CTRL]; omega))).trans enabled)
    (by rw [Dev.wps, wp]; exact room)
  generalize addrSide (fieldAt l 8 4) = h at *
  rw [issued.esn] at taken
  set j := n.newBand t l with hj
  set m := n.eventFor j.rcpt .bandAccept h 0 [j.addr, j.mask.toNat] with hm
  have logged : JobFrame 0 n m := (JobFrame.refl 0 n).eventFor ..
  have only : m = { n with regs := m.regs, locus := m.locus, log := m.log } := n.eventFor_only ..
  obtain ⟨pc, user, -⟩ := ((stands.jobFrame ht logged).bandJudged h j ht) (Nat.zero_le 2)
  rw [← ofNat_esn]
  refine gives_dispatch_of_taken (k := 2) (run := fun t d l => d.dispBand t l) hi region rfl tcm aligned fresh vendor hl (esn_lt _) taken
    pc user fun d moved refused late => ?_
  have rpm : m.rpm = s.dev.rpm := (Dev.fld_of_reg_eq (logged.regs _ (by decide))).trans (issued.fld i.proc.isLt (.inl (by decide)))
  have refused' : m.bandRefused h j.addr j.mask = false :=
    (Dev.bandRefused_congr h (by rw [only, issued.only]) (by rw [only, issued.only]) _ _).trans refused
  have late' : m.bandLate h j.addr = false := (Dev.bandLate_congr h (by rw [only, issued.only]) rpm _).trans late
  have queue : (d.wps h).queue = (m.wps h).queue ++ [j] := by
    rw [← Dev.wps_bandJudged h j refused' late', Dev.wps, moved.wp, Dev.wp_markStarted]
    rfl
  have before : m.wps h = s.dev.wps h := by
    rw [Dev.wps, Dev.wps, only, ← wp]
  rw [queue, before, List.length_append]
  rfl

end

end Sys2Proof.Machine

/-! PROOFS. Effects of the Span tasks, continued: DMA launches (O48). -/

namespace Sys2Proof.Machine

/-- The transfer that a descriptor of a task launches. -/
def Dev.newDma (d : Dev) (t : Nat) (l : List Byte) : DmaOp :=
  { task := t, tag := (d.task t).tag, kind := fieldAt l 0 1, notify := (fieldAt l 1 1).testBit 0
    order := (fieldAt l 1 1).testBit 1 || fieldAt l 0 1 == dmaCplKind
    queue := fieldAt l 2 2, length := fieldAt l 4 4, src := fieldAt l 8 8, dst := fieldAt l 16 8, rcpt := BitVec.ofNat 48 (fieldAt l 24 6)
    start := fieldAt l 30 2, esn := if fieldAt l 0 1 == dmaCplKind then 0 else d.esn
    entry := if fieldAt l 0 1 = dmaCplKind then d.tcmRead (d.taskProc t) (fieldAt l 8 8) 32 else [] }

/-- Its birth: a CPL draws a free value, any other is logged. -/
def Dev.dmaBorn (d : Dev) (t : Nat) (l : List Byte) : Dev :=
  if fieldAt l 0 1 == dmaCplKind then d.drew
  else d.eventFor (BitVec.ofNat 48 (fieldAt l 24 6)) .dma t (fieldAt l 0 1) [(d.task t).tag]

/-- The block with that transfer in flight. -/
def Dev.dmaFlies (d : Dev) (t : Nat) (l : List Byte) : Dev :=
  let m := (d.dmaBorn t l).onTask t fun x => { x with tag := (x.tag + 1) % 65536 }
  ({ m with span := { m.span with dmas := m.span.dmas ++ [d.newDma t l] } }).markStarted (BitVec.ofNat 48 (fieldAt l 24 6))

section
variable {d : Dev} {t : Nat} {l : List Byte}

theorem Dev.dmaLaunch_of_bad (bad : d.dmaDescOk l = false) : d.dmaLaunch t l = (refuse reasonBadDesc, d) := by
  unfold Dev.dmaLaunch
  rw [bad]
  rfl

theorem Dev.dmaAllowed_of_vendor (vendor : d.taskUser t = false) : d.dmaAllowed t l = true := by
  unfold Dev.dmaAllowed
  dsimp only
  rw [vendor, Bool.not_false, Bool.true_or, Bool.true_or]

variable (ok : d.dmaDescOk l = true) (vendor : d.taskUser t = false)
include ok vendor

theorem Dev.dmaLaunch_of_full (full : 16 ≤ (d.span.dmas.filter fun y => y.task == t).length) :
    d.dmaLaunch t l = (refuse reasonFull, d) := by
  unfold Dev.dmaLaunch
  rw [ok, Dev.dmaAllowed_of_vendor vendor, if_pos full]
  rfl

theorem Dev.dmaLaunch_of_room (room : (d.span.dmas.filter fun y => y.task == t).length < 16) : d.dmaLaunch t l =
    ((if fieldAt l 0 1 == dmaCplKind then d.freeBits 48 else (d.newDma t l).esn.toNat) + 2 ^ 48 * (d.task t).tag, d.dmaFlies t l) := by
  unfold Dev.dmaLaunch
  rw [ok, Dev.dmaAllowed_of_vendor vendor, if_neg (Nat.not_le.2 room)]
  rfl

end

section
variable (d : Dev) (t : Nat) (l : List Byte)

/-- The birth of a transfer leaves the tasks, their registers and the transfers in flight. -/
theorem Dev.dmaBorn_keeps : (d.dmaBorn t l).span = d.span ∧ SameRegs d (d.dmaBorn t l) [Adr.LOCUS_STATUS] := by
  unfold Dev.dmaBorn
  split
  · exact ⟨rfl, .of_regs_eq rfl⟩
  · exact ⟨by rw [Dev.eventFor_only], d.sameRegs_issue.trans (.of_regs_eq rfl)⟩

theorem Dev.dmas_dmaFlies : (d.dmaFlies t l).span.dmas = d.span.dmas ++ [d.newDma t l] := by
  show (d.dmaBorn t l).span.dmas ++ _ = _
  rw [(d.dmaBorn_keeps t l).1]

theorem Dev.pc_dmaFlies : ((d.dmaFlies t l).task t).pc = (d.task t).pc := by
  show (((d.dmaBorn t l).onTask t fun x => { x with tag := (x.tag + 1) % 65536 }).task t).pc = _
  rw [Dev.task_onTask_self, Dev.task, (d.dmaBorn_keeps t l).1]
  rfl

theorem Dev.taskUser_dmaFlies (ht : t < 96) : (d.dmaFlies t l).taskUser t = d.taskUser t := by
  refine (d.dmaBorn_keeps t l).2.bit ?_
  simp only [Fld.SPP_TASK_USER, Adr.SPP_TASK, Adr.LOCUS_STATUS, List.mem_singleton]
  omega

/-- A CPL is logged later, and draws one free value. -/
theorem Dev.dmaFlies_of_cpl (cpl : fieldAt l 0 1 = dmaCplKind) :
    (d.dmaFlies t l).log = d.log ∧ (d.dmaFlies t l).locus = d.locus ∧ (d.dmaFlies t l).free = d.free + 1 := by
  have drawn : d.dmaBorn t l = d.drew := if_pos (by rw [cpl]; rfl)
  unfold Dev.dmaFlies
  rw [drawn]
  exact ⟨rfl, rfl, rfl⟩

end

/-! ## The instruction -/

/-- What a DMA instruction of task t does. -/
def Dev.dmaEffect (d : Dev) (t : Nat) (rd rs1 : SpanReg) : Dev :=
  let a := d.sreg t rs1.val
  if !inTcm a then d.trap t causeAddr
  else if a.toNat % 32 ≠ 0 then d.trap t causeAlign
  else
    let l := d.tcmRead (d.taskProc t) a.toNat 32
    d.effect t effDma rd.val (l.map (·.toNat)) fun d => (BitVec.ofNat 64 (d.dmaLaunch t l).1, (d.dmaLaunch t l).2)

/-- The rows of a DMA are one instruction, whose descriptor says what it does. -/
theorem exec_dma {s : State} {i : SpanIssue} {rd rs1 : SpanReg} {c : Instr}
    (hc : c ∈ [.dmaCopy i rd rs1, .dmaFill i rd rs1, .dmaHostIn i rd rs1, .dmaHostOut i rd rs1, .dmaCpl i rd rs1]) :
    exec c s = s.on fun d => d.span1 i fun d t => d.dmaEffect t rd rs1 := by
  simp only [List.mem_cons, List.not_mem_nil, or_false] at hc
  rcases hc with rfl | rfl | rfl | rfl | rfl
  · rfl
  · rfl
  · rfl
  · rfl
  · rfl

section
variable {s : State} {i : SpanIssue} {t : Nat} {rd rs1 : SpanReg} {c : Instr} (hi : s.dev.issuer i = some t)
  (region : s.dev.inRegion t ((s.dev.task t).pc + 4) = true)
  (hc : c ∈ [.dmaCopy i rd rs1, .dmaFill i rd rs1, .dmaHostIn i rd rs1, .dmaHostOut i rd rs1, .dmaCpl i rd rs1])
  (tcm : inTcm (s.dev.sreg t rs1) = true) (aligned : (s.dev.sreg t rs1).toNat % 32 = 0) (fresh : (s.dev.task t).fresh)
  (vendor : s.dev.taskUser t = false) {l : List Byte} (hl : s.dev.tcmRead (s.dev.taskProc t) (s.dev.sreg t rs1).toNat 32 = l)
include hi region hc tcm aligned fresh hl

/-- A DMA gives what its launch gives. -/
theorem gives_of_launch {v : Nat} {m : Dev} {P : Dev → Prop} (hr : (s.dev.countIssue i.proc.val).dmaLaunch t l = (v, m))
    (pc : (m.task t).pc = (s.dev.task t).pc) (user : m.taskUser t = s.dev.taskUser t) (hP : ∀ d, TaskMoved t m d → P d) :
    Gives c s t rd (BitVec.ofNat 64 v) P := by
  have issued := s.dev.issueFrame_countIssue i.proc.val
  have effect : (s.dev.countIssue i.proc.val).dmaEffect t rd rs1 =
      (s.dev.countIssue i.proc.val).effect t effDma rd.val (l.map (·.toNat)) fun d =>
        (BitVec.ofNat 64 (d.dmaLaunch t l).1, (d.dmaLaunch t l).2) := by
    unfold Dev.dmaEffect
    dsimp only
    rw [issued.sreg, tcm, if_neg (not_not.2 aligned), issued.taskProc i.proc.isLt, issued.tcmRead, hl]
    rfl
  refine gives_of_effect hi region (exec_dma hc) fresh effect ?_ ?_ ?_ fun d moved _ => hP d ?_
  · rw [hr]
  · rw [hr, pc]
  · rw [hr, user]
  · rwa [hr] at moved

/-- One that is refused leaves the transfers in flight. -/
theorem gives_dma_of_refused {v : Nat} (hr : (s.dev.countIssue i.proc.val).dmaLaunch t l = (v, s.dev.countIssue i.proc.val)) :
    Gives c s t rd (BitVec.ofNat 64 v) fun d => d.span.dmas = s.dev.span.dmas := by
  have issued := s.dev.issueFrame_countIssue i.proc.val
  refine gives_of_launch hi region hc tcm aligned fresh hl hr (by rw [issued.task]) (issued.taskUser i.proc.isLt t) fun d moved => ?_
  rw [moved.dmas, issued.only]

omit hi region hc tcm aligned fresh hl in
theorem IssueFrame.dmaDescOk {p : Nat} {d n : Dev} (h : IssueFrame p d n) (hp : p < 12) (l : List Byte) : n.dmaDescOk l = d.dmaDescOk l := by
  unfold Dev.dmaDescOk
  rw [h.fld hp (f := Fld.MEM_SIZE_PAGES) (.inr (by decide))]

theorem gives_dma_of_bad (bad : s.dev.dmaDescOk l = false) :
    Gives c s t rd (BitVec.ofNat 64 (2 ^ 63 + 3)) fun d => d.span.dmas = s.dev.span.dmas :=
  gives_dma_of_refused hi region hc tcm aligned fresh hl
    (Dev.dmaLaunch_of_bad (((s.dev.issueFrame_countIssue _).dmaDescOk i.proc.isLt l).trans bad))

variable (ok : s.dev.dmaDescOk l = true)
include vendor ok

theorem gives_dma_of_full (full : 16 ≤ (s.dev.span.dmas.filter fun y => y.task == t).length) :
    Gives c s t rd (BitVec.ofNat 64 (2 ^ 63 + 1)) fun d => d.span.dmas = s.dev.span.dmas := by
  have issued := s.dev.issueFrame_countIssue i.proc.val
  have dmas : (s.dev.countIssue i.proc.val).span.dmas = s.dev.span.dmas := by rw [issued.only]
  exact gives_dma_of_refused hi region hc tcm aligned fresh hl
    (Dev.dmaLaunch_of_full ((issued.dmaDescOk i.proc.isLt l).trans ok) ((issued.taskUser i.proc.isLt t).trans vendor)
      (by rw [dmas]; exact full))

variable (room : (s.dev.span.dmas.filter fun y => y.task == t).length < 16)
include room

/-- A DMA that is taken is in flight, with its task's tag. -/
theorem gives_dma_of_room {P : Dev → Prop} (hP : ∀ d, TaskMoved t ((s.dev.countIssue i.proc.val).dmaFlies t l) d → P d) :
    Gives c s t rd (BitVec.ofNat 64 ((if fieldAt l 0 1 == dmaCplKind then s.dev.freeBits 48 else
        ((s.dev.countIssue i.proc.val).newDma t l).esn.toNat) + 2 ^ 48 * (s.dev.task t).tag)) fun d =>
      (d.span.dmas.length = s.dev.span.dmas.length + 1 ∧ d.span.dmas.getLast?.any (fun y =>
        y.task == t && y.tag == (s.dev.task t).tag && y.length == fieldAt l 4 4 && !y.ended) = true) ∧ P d := by
  have issued := s.dev.issueFrame_countIssue i.proc.val
  have task := issued.task t
  set n := s.dev.countIssue i.proc.val with hn
  have dmas : n.span.dmas = s.dev.span.dmas := by rw [issued.only]
  have free : n.freeBits 48 = s.dev.freeBits 48 := by rw [issued.only]; rfl
  have taken := Dev.dmaLaunch_of_room ((issued.dmaDescOk i.proc.isLt l).trans ok) ((issued.taskUser i.proc.isLt t).trans vendor)
    (by rw [dmas]; exact room)
  rw [task, free] at taken
  refine gives_of_launch hi region hc tcm aligned fresh hl taken (by rw [Dev.pc_dmaFlies, task])
    ((n.taskUser_dmaFlies t l (Dev.issuer_spec hi).1).trans (issued.taskUser i.proc.isLt t)) fun d moved => ⟨?_, hP d moved⟩
  rw [moved.dmas, Dev.dmas_dmaFlies, dmas, List.length_append, List.getLast?_concat, Option.any_some]
  refine ⟨rfl, ?_⟩
  simp [Dev.newDma, task]

theorem gives_dma_of_transfer (other : fieldAt l 0 1 ≠ dmaCplKind) :
    Gives c s t rd (BitVec.ofNat 64 (s.dev.esn.toNat + 2 ^ 48 * (s.dev.task t).tag)) fun d =>
      d.span.dmas.length = s.dev.span.dmas.length + 1 ∧ d.span.dmas.getLast?.any (fun y =>
        y.task == t && y.tag == (s.dev.task t).tag && y.length == fieldAt l 4 4 && !y.ended) = true := by
  have kind : (fieldAt l 0 1 == dmaCplKind) = false := by simpa using other
  have given := gives_dma_of_room hi region hc tcm aligned fresh vendor hl ok room (P := fun _ => True) fun _ _ => trivial
  have esn : ((s.dev.countIssue i.proc.val).newDma t l).esn = s.dev.esn := by
    unfold Dev.newDma
    dsimp only
    rw [kind, if_neg Bool.false_ne_true, (s.dev.issueFrame_countIssue _).esn]
  rw [kind, if_neg Bool.false_ne_true, esn] at given
  obtain ⟨d, run, value, pc, flies, -⟩ := given
  exact ⟨d, run, value, pc, flies⟩

theorem gives_dma_of_cpl (cpl : fieldAt l 0 1 = dmaCplKind) :
    Gives c s t rd (BitVec.ofNat 64 (s.dev.freeBits 48 + 2 ^ 48 * (s.dev.task t).tag)) fun d =>
      (d.span.dmas.length = s.dev.span.dmas.length + 1 ∧ d.span.dmas.getLast?.any (fun y =>
        y.task == t && y.tag == (s.dev.task t).tag && y.length == fieldAt l 4 4 && !y.ended) = true) ∧
      d.log = s.dev.log ∧ d.esn = s.dev.esn ∧ d.free = s.dev.free + 1 := by
  have kind : (fieldAt l 0 1 == dmaCplKind) = true := by simpa using cpl
  have issued := s.dev.issueFrame_countIssue i.proc.val
  obtain ⟨log, locus, free⟩ := (s.dev.countIssue i.proc.val).dmaFlies_of_cpl t l cpl
  have given := gives_dma_of_room hi region hc tcm aligned fresh vendor hl ok room
    (P := fun d => d.log = s.dev.log ∧ d.esn = s.dev.esn ∧ d.free = s.dev.free + 1) fun d moved => by
      refine ⟨?_, ?_, ?_⟩
      · rw [moved.log, log, issued.only]
      · rw [Dev.esn, moved.locus, locus, issued.only]
        rfl
      · rw [moved.free, free, issued.only]
  rwa [if_pos kind] at given

end

end Sys2Proof.Machine

/-! PROOFS. The shared cache as an access of one sub-block meets it, no upset waiting in its set: it moves frames and counts, and the
bytes reach the buffer (O48 rests on this for the AMO). -/

namespace Sys2Proof.Machine

/-- d' differs from d in the cache and its registers, and no upset has come in. -/
structure CacheMoved (d d' : Dev) : Prop where
  only : d' = { d with regs := d'.regs, cache := d'.cache }
  regs : SameRegs d d' cacheRegs
  struck : ∀ k ∈ d'.cache.struck, k ∈ d.cache.struck

/-- No upset waits in a frame of a set. -/
def Dev.calmIn (d : Dev) (set : Nat) : Prop := ∀ k ∈ d.cache.struck, k / 16 ≠ set

section
variable {d d' : Dev}

theorem CacheMoved.trans {d'' : Dev} (h : CacheMoved d d') (h' : CacheMoved d' d'') : CacheMoved d d'' := by
  obtain ⟨only, regs, struck⟩ := h
  obtain ⟨only', regs', struck'⟩ := h'
  refine ⟨?_, regs.trans regs', fun k hk => struck k (struck' k hk)⟩
  rw [only] at only'
  exact only'

theorem CacheMoved.refl (d : Dev) : CacheMoved d d := ⟨rfl, .refl d _, fun _ hk => hk⟩

theorem CacheMoved.setReg (h : CacheMoved d d') {a : Nat} {v : Word} (ha : a ∈ cacheRegs) : CacheMoved d (d'.setReg a v) :=
  h.trans ⟨rfl, (SameRegs.refl d' _).setReg ha, fun _ hk => hk⟩

theorem mem_cacheRegs {k : Nat} (hk : k < 8) : Adr.CACHE_CNT k ∈ cacheRegs :=
  List.mem_cons_of_mem _ (List.mem_map.2 ⟨k, List.mem_range.2 hk, rfl⟩)

theorem CacheMoved.countBy (h : CacheMoved d d') {k : Nat} (hk : k < 8) (n : Nat) : CacheMoved d (d'.countBy (Adr.CACHE_CNT k) n) :=
  h.setReg (mem_cacheRegs hk)

/-- The cache's state changes, and no upset comes in. -/
theorem CacheMoved.onCache (h : CacheMoved d d') {f : CacheSt → CacheSt} (hf : ∀ k ∈ (f d'.cache).struck, k ∈ d'.cache.struck) :
    CacheMoved d (d'.onCache f) := h.trans ⟨rfl, .of_regs_eq rfl, hf⟩

theorem CacheMoved.setFrame (h : CacheMoved d d') (k : Nat) (f : CacheFrame) : CacheMoved d (d'.setFrame k f) :=
  h.onCache fun _ hk => hk

theorem CacheMoved.unstruck (h : CacheMoved d d') (k : Nat) : CacheMoved d (d'.unstruck k) :=
  h.onCache fun _ hk => List.mem_of_mem_filter hk

theorem CacheMoved.dirtyLines (h : CacheMoved d d') (up : Bool) : CacheMoved d (d'.dirtyLines up) :=
  h.setReg (by simp [cacheRegs, Fld.CACHE_STATUS_DIRTY_LINES])

/-- A change made where a condition holds. -/
theorem CacheMoved.when (h : CacheMoved d d') {c : Bool} {f : Dev → Dev} (hf : CacheMoved d' (f d')) : CacheMoved d (d'.when c f) := by
  cases c with
  | true => exact h.trans hf
  | false => exact h

theorem CacheMoved.calm (h : CacheMoved d d') {set : Nat} (hc : d.calmIn set) : d'.calmIn set := fun k hk => hc k (h.struck k hk)

end

section
variable (d : Dev)

theorem Dev.cacheMoved_setDirty (k : Nat) (l : CacheLine) (dirty : BitVec 4) : CacheMoved d (d.setDirty k l dirty) := by
  have set := (CacheMoved.refl d).setFrame k { d.frame k with line := some { l with dirty := dirty } }
  unfold Dev.setDirty
  dsimp only
  split
  · exact ((set.setFrame _ _).unstruck _).dirtyLines _
  · split
    · exact ((set.setFrame _ _).unstruck _).dirtyLines _
    · exact set

theorem Dev.cacheMoved_writeOut (k : Nat) : CacheMoved d (d.writeOut k) := by
  unfold Dev.writeOut
  split
  · split
    · exact .refl d
    · exact ((CacheMoved.refl d).countBy (by decide) _).trans (Dev.cacheMoved_setDirty _ _ _ _)
  · exact .refl d

theorem Dev.cacheMoved_dropFrame (k : Nat) : CacheMoved d (d.dropFrame k) :=
  ((d.cacheMoved_writeOut _).setFrame _ _).unstruck _

theorem Dev.cacheMoved_touchWay (set way : Nat) : CacheMoved d (d.touchWay set way) := (CacheMoved.refl d).onCache fun _ hk => hk

theorem Dev.cacheMoved_countHit : CacheMoved d d.countHit := by
  unfold Dev.countHit
  dsimp only
  refine CacheMoved.when ?_ ?_
  · exact (CacheMoved.refl d).onCache fun _ hk => hk
  · exact (CacheMoved.refl _).countBy (by decide) 1

theorem Dev.cacheMoved_countMiss : CacheMoved d d.countMiss := by
  unfold Dev.countMiss
  dsimp only
  refine CacheMoved.when ?_ ?_
  · exact (CacheMoved.refl d).onCache fun _ hk => hk
  · exact (CacheMoved.refl _).countBy (by decide) 1

theorem Dev.cacheMoved_refetched (line way : Nat) : CacheMoved d (d.refetched line way) :=
  (CacheMoved.refl d).when (((CacheMoved.refl d).onCache fun _ hk => hk).when ((CacheMoved.refl _).countBy (by decide) 1))

/-- Nothing is found wrong where no word has failed. -/
theorem Dev.parityError_nil (k s : Nat) (twinBad : List Nat) : d.parityError k s [] twinBad = d := by
  unfold Dev.parityError
  dsimp only
  split
  · rfl
  · simp

variable {d} {set : Nat} (calm : d.calmIn set)
include calm

/-- In a calm set no word has failed. -/
theorem Dev.struckWords_of_calm {k : Nat} (hk : k / 16 = set) (words : List Nat) : d.struckWords k words = [] := by
  unfold Dev.struckWords
  refine if_neg fun held => calm k ?_ hk
  simpa using held

theorem Dev.checkWay_of_calm (p : CachePiece) (hp : lineSet p.line = set) {w : Nat} (hw : w < 16) : d.checkWay p w = d := by
  unfold Dev.checkWay
  dsimp only
  rw [Dev.struckWords_of_calm calm (by omega), Dev.parityError_nil]

theorem Dev.cacheMoved_writeBack {k : Nat} (hk : k / 16 = set) : CacheMoved d (d.writeBack k) := by
  unfold Dev.writeBack
  dsimp only
  have read (dirty : List Nat) : (d.each dirty fun d s =>
      d.parityError k s (d.struckWords k (List.range 8)) (d.struckWords (partnerKey k) (List.range 8))) = d :=
    Dev.each_induction (· = d) _ (fun n s hn => by rw [hn, Dev.struckWords_of_calm calm hk, Dev.parityError_nil]) _ _ rfl
  rw [read]
  exact d.cacheMoved_writeOut k

theorem Dev.cacheMoved_emptyFrame {k : Nat} (hk : k / 16 = set) : CacheMoved d (d.emptyFrame k) := by
  have home : d.lineFrame k / 16 = set := by
    unfold Dev.lineFrame partnerKey
    split
    · split <;> omega
    · exact hk
  exact (Dev.cacheMoved_writeBack calm home).trans (Dev.cacheMoved_dropFrame _ k)

theorem Dev.cacheMoved_fillSub (p : CachePiece) (hp : lineSet p.line = set) {w : Nat} (hw : w < 16) : CacheMoved d (d.fillSub p w) := by
  have emptied := Dev.cacheMoved_emptyFrame calm (k := 16 * lineSet p.line + w) (by omega)
  unfold Dev.fillSub
  dsimp only
  split
  · split
    · exact (CacheMoved.refl d).setFrame _ _
    · exact (emptied.setFrame _ _).trans (Dev.cacheMoved_refetched _ _ _)
  · exact (emptied.setFrame _ _).trans (Dev.cacheMoved_refetched _ _ _)

end

/-! ## Ways -/

theorem plruPick_lt (tree : Nat) (ok : Nat → Bool) : ∀ (n lo node w : Nat), plruPick tree ok n lo node = some w → w < lo + 2 ^ n
  | 0, lo, node, w, h => by
    unfold plruPick at h
    split at h
    · have := Option.some.inj h; omega
    · exact absurd h (by simp)
  | n + 1, lo, node, w, h => by
    have left := plruPick_lt tree ok n lo (2 * node) w
    have right := plruPick_lt tree ok n (lo + 2 ^ n) (2 * node + 1) w
    have double : 2 ^ (n + 1) = 2 ^ n + 2 ^ n := by ring
    have pos : 0 < 2 ^ n := by positivity
    rw [double]
    unfold plruPick at h
    dsimp only at h
    split at h
    · rcases (Option.orElse_eq_some _ _ _).1 h with h | ⟨-, h⟩
      · have := right h; omega
      · have := left h; omega
    · rcases (Option.orElse_eq_some _ _ _).1 h with h | ⟨-, h⟩
      · have := left h; omega
      · have := right h; omega

section
variable {d : Dev} {w : Nat}

theorem Dev.lineWay_lt {set tag : Nat} (h : d.lineWay set tag = some w) : w < 16 := List.mem_range.1 (List.mem_of_find?_eq_some h)

theorem Dev.hitWay_lt {p : CachePiece} (h : d.hitWay p = some w) : w < 16 := Dev.lineWay_lt (Option.filter_eq_some_iff.1 h).1

theorem Dev.pickWay_lt {set : Nat} {ok : Nat → Bool} (h : d.pickWay set ok = some w) : w < 16 := by
  unfold Dev.pickWay at h
  split at h
  next v found => exact Option.some.inj h ▸ List.mem_range.1 (List.mem_of_find?_eq_some found)
  · have := plruPick_lt _ _ _ _ _ _ h; omega

theorem Dev.fillWay_lt {r : Nat} {p : CachePiece} (h : d.fillWay r p = some w) : w < 16 := by
  unfold Dev.fillWay at h
  split at h
  · exact absurd h (by simp)
  · split at h
    next v found =>
      split at h
      · exact Option.some.inj h ▸ Dev.lineWay_lt found
      · exact absurd h (by simp)
    · unfold Dev.victim at h
      rcases (Option.orElse_eq_some _ _ _).1 h with h | ⟨-, h⟩
      · exact Dev.pickWay_lt h
      · exact Dev.pickWay_lt h

end

/-! ## Pieces -/

section
variable (d : Dev) (p : CachePiece)

theorem Dev.cacheMoved_dirtySub (r : CacheReq) (w : Nat) : CacheMoved d (d.dirtySub r p w) := by
  unfold Dev.dirtySub
  dsimp only
  split
  · exact .refl d
  · split
    · exact .refl d
    · exact d.cacheMoved_setDirty _ _ _

theorem Dev.cacheMoved_dropSub : CacheMoved d (d.dropSub p) := by
  unfold Dev.dropSub
  split
  · exact .refl d
  · dsimp only
    split
    · exact .refl d
    · exact ((d.cacheMoved_setDirty _ _ _).setFrame _ _).when ((CacheMoved.refl _).onCache fun _ hk => hk)

theorem Dev.pieceData_of_load (h : p.store = none) : d.pieceData p = d := by
  unfold Dev.pieceData
  rw [h]

/-- One piece past the cache: what is held of it is dropped where it is stored, and its bytes reach the buffer. -/
theorem Dev.throughPiece_spec : ∃ m, CacheMoved d m ∧ d.throughPiece p = m.pieceData p := by
  unfold Dev.throughPiece
  split
  · exact ⟨_, d.cacheMoved_dropSub p, rfl⟩
  next load => exact ⟨d, .refl d, (d.pieceData_of_load p load).symm⟩

variable {d p} {set : Nat} (calm : d.calmIn set) (hp : lineSet p.line = set) (r : CacheReq)
include calm hp

/-- A hit of a store. -/
theorem Dev.cacheMoved_storeHit {w : Nat} (hw : w < 16) :
    CacheMoved d ((((d.countHit).touchWay (lineSet p.line) w).checkWay p w).dirtySub r p w) := by
  have touched := d.cacheMoved_countHit.trans (Dev.cacheMoved_touchWay _ (lineSet p.line) w)
  rw [Dev.checkWay_of_calm (touched.calm calm) p hp hw]
  exact touched.trans (Dev.cacheMoved_dirtySub _ p r w)

/-- A miss that fills. -/
theorem Dev.cacheMoved_fill {w : Nat} (hw : w < 16) : CacheMoved d ((d.countMiss.fillSub p w).touchWay (lineSet p.line) w) :=
  (d.cacheMoved_countMiss.trans (Dev.cacheMoved_fillSub (d.cacheMoved_countMiss.calm calm) p hp hw)).trans (Dev.cacheMoved_touchWay ..)

/-- One piece while the cache serves: frames move, and its bytes reach the buffer. -/
theorem Dev.cachePiece_spec : ∃ m, CacheMoved d m ∧ d.cachePiece r p = m.pieceData p := by
  unfold Dev.cachePiece
  dsimp only
  split
  next load =>
    have done (m : Dev) (hm : CacheMoved d m) : ∃ m', CacheMoved d m' ∧ m = m'.pieceData p :=
      ⟨m, hm, (m.pieceData_of_load p load).symm⟩
    split
    next w hit =>
      have touched := d.cacheMoved_countHit.trans (Dev.cacheMoved_touchWay _ (lineSet p.line) w)
      rw [Dev.checkWay_of_calm (touched.calm calm) p hp (Dev.hitWay_lt hit)]
      exact done _ touched
    · split
      · exact done _ d.cacheMoved_countMiss
      · split
        next w fills => exact done _ (Dev.cacheMoved_fill calm hp (Dev.fillWay_lt fills))
        · exact done _ d.cacheMoved_countMiss
  · split
    · split
      next w hit => exact ⟨_, Dev.cacheMoved_storeHit calm hp r (Dev.hitWay_lt hit), rfl⟩
      · split
        next w fills => exact ⟨_, (Dev.cacheMoved_fill calm hp (Dev.fillWay_lt fills)).trans (Dev.cacheMoved_dirtySub _ p r w), rfl⟩
        · exact ⟨_, d.cacheMoved_countMiss.trans (Dev.cacheMoved_dropSub _ p), rfl⟩
    · split
      · exact ⟨_, d.cacheMoved_dropSub p, rfl⟩
      · split
        next w hit => exact ⟨_, Dev.cacheMoved_storeHit calm hp r (Dev.hitWay_lt hit), rfl⟩
        · exact ⟨_, d.cacheMoved_countMiss, rfl⟩

end

/-- An access of one piece in a calm set: frames move, and its bytes reach the buffer. -/
theorem Dev.cacheServe_spec {d : Dev} {r : CacheReq} {p : CachePiece} (one : cachePieces r = [p]) (calm : d.calmIn (lineSet p.line)) :
    ∃ m, CacheMoved d m ∧ d.cacheServe r = m.pieceData p := by
  unfold Dev.cacheServe
  rw [one]
  dsimp only
  split
  · have counted : CacheMoved d (d.rangeSnoops r [p]) := by
      unfold Dev.rangeSnoops
      dsimp only
      split
      · exact .refl d
      · exact (CacheMoved.refl d).countBy (by decide) _
    obtain ⟨m, moved, eq⟩ := Dev.cachePiece_spec (counted.calm calm) rfl r
    exact ⟨m, counted.trans moved, eq⟩
  · exact d.throughPiece_spec p

end Sys2Proof.Machine

/-! PROOFS. Atomics of the Span tasks (O48): the word that an AMO reaches, and what its access leaves. -/

namespace Sys2Proof.Machine

/-! ## Words as bytes -/

theorem length_leBytes (n v : Nat) : (leBytes n v).length = n := by
  induction n generalizing v with
  | zero => rfl
  | succ n ih => rw [leBytes, List.length_cons, ih]

theorem leValue_lt (l : List Byte) : leValue l < 256 ^ l.length := by
  induction l with
  | nil => exact Nat.one_pos
  | cons b l ih =>
    have := b.isLt
    rw [leValue, List.length_cons, Nat.pow_succ]
    omega

theorem leBytes_leValue (l : List Byte) : leBytes l.length (leValue l) = l := by
  induction l with
  | nil => rfl
  | cons b l ih =>
    have lt := b.isLt
    have low : BitVec.ofNat 8 (b.toNat + 256 * leValue l) = b :=
      BitVec.eq_of_toNat_eq (by rw [BitVec.toNat_ofNat]; omega)
    have high : (b.toNat + 256 * leValue l) / 256 = leValue l := by omega
    rw [List.length_cons, leValue, leBytes, low, high, ih]

/-- The bytes of a word of 8 read as a number are those bytes. -/
theorem leBytes_ofNat_leValue {l : List Byte} (h : l.length = 8) : leBytes 8 (BitVec.ofNat 64 (leValue l)).toNat = l := by
  have lt : leValue l < 2 ^ 64 := by
    have := leValue_lt l
    rw [h] at this
    omega
  have whole := leBytes_leValue l
  rwa [h, ← Nat.mod_eq_of_lt lt, ← BitVec.toNat_ofNat] at whole

/-! ## The access (R35, R275) -/

/-- The bytes of an access. -/
def cacheSize (r : CacheReq) : Nat := match r.store with
  | some l => l.length
  | none => r.len

theorem cacheSize_of_stored {r : CacheReq} {n : Nat} (len : r.len = n) (stored : ∀ l, r.store = some l → l.length = n) :
    cacheSize r = n := by
  unfold cacheSize
  split
  next l hs => exact stored l hs
  · exact len

theorem cachePieces_eq (r : CacheReq) : cachePieces r =
    (List.range (ceilDiv (r.addr.toNat + cacheSize r) 64 - r.addr.toNat / 64)).map fun i =>
      let lo := max r.addr.toNat (64 * (r.addr.toNat / 64 + i))
      let hi := min (r.addr.toNat + cacheSize r) (64 * (r.addr.toNat / 64 + i) + 64)
      ⟨(r.addr.toNat / 64 + i) / 4, (r.addr.toNat / 64 + i) % 4, lo - 64 * (r.addr.toNat / 64 + i), hi - lo,
        r.store.map fun l => bytesAt l (lo - r.addr.toNat) (hi - lo)⟩ := rfl

/-- An access to one word is one piece. -/
theorem cachePieces_word {r : CacheReq} {a : Nat} (addr : r.addr.toNat = a) (aligned : a % 8 = 0) (len : r.len = 8)
    (stored : ∀ l, r.store = some l → l.length = 8) :
    cachePieces r = [⟨a / 64 / 4, a / 64 % 4, a - 64 * (a / 64), 8, r.store⟩] := by
  have one : ceilDiv (a + 8) 64 - a / 64 = 1 := by unfold ceilDiv; omega
  have low : max a (64 * (a / 64)) = a := by omega
  have high : min (a + 8) (64 * (a / 64) + 64) = a + 8 := by omega
  have whole : (r.store.map fun l => bytesAt l 0 8) = r.store := by
    cases hs : r.store with
    | none => rfl
    | some l => exact congrArg some ((congrArg (bytesAt l 0) (stored l hs).symm).trans (bytesAt_zero_length l))
  rw [cachePieces_eq, cacheSize_of_stored len stored, addr, one, List.range_one, List.map_singleton, Nat.add_zero]
  dsimp only
  rw [low, high, Nat.add_sub_cancel_left, Nat.sub_self, whole]

/-- The block after an access of one word, the cache moved to m first: its bytes reach the buffer. -/
def Dev.wordStored (m : Dev) (a : Nat) : Option (List Byte) → Dev
  | some l => m.bufWrite a l
  | none => m

section
variable {d : Dev} (e : Dev) {t a : Nat} {store : Option (List Byte)} (inside : a < 2 ^ 34) (aligned : a % 8 = 0)
  (stored : ∀ l, store = some l → l.length = 8) (calm : d.calmIn (lineSet (a / 256)))
include inside aligned stored calm

/-- An access of a task to one word of the buffer, in a calm set. -/
theorem Dev.cacheServe_word : ∃ m, CacheMoved d m ∧ d.cacheServe (e.spanReq t a 8 store) = m.wordStored a store := by
  have addr : (e.spanReq t a 8 store).addr.toNat = a := (BitVec.toNat_ofNat ..).trans (Nat.mod_eq_of_lt inside)
  have one := cachePieces_word addr aligned rfl stored
  obtain ⟨m, moved, served⟩ := Dev.cacheServe_spec one (by
    show d.calmIn (lineSet (a / 64 / 4))
    rwa [Nat.div_div_eq_div_mul])
  refine ⟨m, moved, served.trans ?_⟩
  have place : 256 * (a / 64 / 4) + 64 * (a / 64 % 4) + (a - 64 * (a / 64)) = a := by omega
  unfold Dev.pieceData CachePiece.addr
  dsimp only
  rw [place]
  cases hs : store with
  | none => rfl
  | some l =>
    have wide : ¬(l.length < 8 ∧ m.anyPoison a l.length = true) := fun h => absurd (stored l hs) (by omega)
    exact if_neg wide

end

theorem CacheMoved.mem {d m : Dev} (h : CacheMoved d m) : m.mem = d.mem := by rw [h.only]

theorem CacheMoved.task {d m : Dev} (h : CacheMoved d m) (t : Nat) : m.task t = d.task t := by rw [h.only]; rfl

theorem CacheMoved.taskUser {d m : Dev} (h : CacheMoved d m) {t : Nat} (ht : t < 96) : m.taskUser t = d.taskUser t := by
  refine h.regs.bit ?_
  simp only [cacheRegs, Fld.SPP_TASK_USER, Adr.SPP_TASK, Adr.CACHE_STATUS, Adr.CACHE_CNT, List.mem_cons, List.mem_map, List.mem_range,
    not_or, not_exists, not_and]
  exact ⟨by omega, fun k hk => by omega⟩

section
variable (m : Dev) (a : Nat) (store : Option (List Byte))

theorem Dev.wordStored_only : m.wordStored a store = { m with mem := (m.wordStored a store).mem } := by cases store <;> rfl

theorem Dev.bufRead_wordStored_self {l : List Byte} (aligned : a % 8 = 0) (h : l.length = 8) :
    (m.wordStored a (some l)).bufRead a 8 = l := by
  have read := m.bufRead_bufWrite_self (l := l) aligned (by rw [h])
  rwa [h] at read

theorem Dev.bufRead_wordStored_other {y : Nat} (aligned : a % 8 = 0) (stored : ∀ l, store = some l → l.length = 8)
    (apart : y < a ∨ a + 8 ≤ y) : (m.wordStored a store).bufRead y 1 = m.bufRead y 1 := by
  cases store with
  | none => rfl
  | some l =>
    have h := stored l rfl
    exact m.bufRead_bufWrite_other aligned (by rw [h]) (by rw [h]; omega)

end

/-! ## The instruction (R267) -/

/-- What an AMO stores in a word that holds old: a CAS that does not match stores nothing. -/
def amoStore (op : AmoOp) (old b c : DWord) : Option (List Byte) :=
  if op = .cas ∧ old ≠ c then none else some (leBytes 8 (amoValue op old b c).toNat)

theorem amoStore_cas_of_ne {old b c : DWord} (h : old ≠ c) : amoStore .cas old b c = none := if_pos ⟨rfl, h⟩

theorem length_of_amoStore {op : AmoOp} {old b c : DWord} {l : List Byte} (h : amoStore op old b c = some l) : l.length = 8 := by
  unfold amoStore at h
  split at h
  · exact absurd h (by simp)
  · rw [← Option.some.inj h, length_leBytes]

/-- The word of the buffer at an address. -/
def Dev.wordAt (d : Dev) (a : Nat) : DWord := BitVec.ofNat 64 (leValue (d.bufRead a 8))

theorem Dev.leBytes_wordAt (d : Dev) (a : Nat) : leBytes 8 (d.wordAt a).toNat = d.bufRead a 8 :=
  leBytes_ofNat_leValue (d.length_bufRead a 8)

theorem Dev.bufRead_congr {d d' : Dev} (h : d'.mem = d.mem) (a k : Nat) : d'.bufRead a k = d.bufRead a k := by
  unfold Dev.bufRead
  rw [h]

/-- What an AMO does as its effect is performed. -/
def Dev.amoDone (d : Dev) (t a : Nat) (op : AmoOp) (b c : DWord) : DWord × Dev :=
  (d.wordAt a, (d.noteVirgin a 8).cacheServe (d.spanReq t a 8 (amoStore op (d.wordAt a) b c)))

/-- An AMO of task t. -/
def Dev.amoInstr (d : Dev) (t : Nat) (op : AmoOp) (rd : Nat) (a b c : DWord) : Dev :=
  match (if a.toNat / 2 ^ 60 = 0 then d.bufFault t a 8 else some causeAddr) with
  | some cause => d.trap t cause
  | none =>
    if d.poisoned (a.toNat / 8) then d.trap t causePoison
    else d.effect t effAmo rd [amoCode op, a.toNat, b.toNat, if op = .cas then c.toNat else 0] fun d => d.amoDone t a.toNat op b c

theorem exec_spanAmo {s : State} {i : SpanIssue} {op : AmoOp} {rd rs1 rs2 : SpanReg} : exec (.spanAmo i op rd rs1 rs2) s =
    s.on fun d => d.span1 i fun d t => d.amoInstr t op rd.val (d.sreg t rs1.val) (d.sreg t rs2.val) (d.sreg t rd.val) := rfl

/-- A word without a fault lies in the buffer's address space, aligned. -/
theorem Dev.bufFault_none {d : Dev} {t n : Nat} {a : DWord} (h : d.bufFault t a n = none) : a.toNat + n ≤ 2 ^ 34 ∧ a.toNat % n = 0 := by
  have pages : d.fld Fld.MEM_SIZE_PAGES < 2 ^ 22 := fieldOf_lt _ 0 22
  unfold Dev.bufFault pageBytes at h
  dsimp only at h
  split at h
  · exact absurd h (by simp)
  · split at h
    · exact absurd h (by simp)
    · split at h
      · exact absurd h (by simp)
      next aligned => exact ⟨by omega, not_not.1 aligned⟩

theorem IssueFrame.bufFault {p : Nat} {d n : Dev} (h : IssueFrame p d n) (hp : p < 12) (t : Nat) (a : DWord) (k : Nat) :
    n.bufFault t a k = d.bufFault t a k := by
  unfold Dev.bufFault
  rw [h.fld hp (f := Fld.MEM_SIZE_PAGES) (.inr (by decide)), h.fld hp (f := Fld.SPP_USER_WIN_BASE_VALUE) (.inr (by decide)),
    h.fld hp (f := Fld.SPP_USER_WIN_PAGES_VALUE) (.inr (by decide)), h.taskUser hp]

theorem Dev.taskUser_noteVirgin (d : Dev) {t : Nat} (ht : t < 96) (a n : Nat) : (d.noteVirgin a n).taskUser t = d.taskUser t := by
  refine (d.bufFrame_noteVirgin a n).regs.bit ?_
  simp only [virginRegs, Fld.SPP_TASK_USER, Adr.SPP_TASK, Adr.MEM_STATUS, Adr.MEM_ERR_ADDR, Adr.MEM_ERR_KIND, List.mem_cons,
    List.not_mem_nil, or_false]
  omega

theorem Dev.task_noteVirgin (d : Dev) (a n t : Nat) : (d.noteVirgin a n).task t = d.task t := by
  rw [(d.bufFrame_noteVirgin a n).only]
  rfl

theorem Dev.cache_noteVirgin (d : Dev) (a n : Nat) : (d.noteVirgin a n).cache = d.cache := by
  rw [(d.bufFrame_noteVirgin a n).only]

/-- The access of an AMO gives the old word, and its bytes reach the buffer; the task stands. -/
theorem Dev.amoDone_spec (d : Dev) {t a : Nat} (ht : t < 96) (op : AmoOp) (b c : DWord) (inside : a < 2 ^ 34) (aligned : a % 8 = 0)
    (calm : d.calmIn (lineSet (a / 256))) : ∃ m : Dev, m.mem = d.mem ∧ m.task t = d.task t ∧ m.taskUser t = d.taskUser t ∧
      (d.amoDone t a op b c).2 = m.wordStored a (amoStore op (d.wordAt a) b c) := by
  have quiet : (d.noteVirgin a 8).calmIn (lineSet (a / 256)) := by rw [Dev.calmIn, Dev.cache_noteVirgin]; exact calm
  unfold Dev.amoDone
  generalize hs : amoStore op (d.wordAt a) b c = store
  obtain ⟨m, moved, served⟩ := Dev.cacheServe_word d (t := t) inside aligned (fun _ h => length_of_amoStore (hs.trans h)) quiet
  exact ⟨m, moved.mem.trans (d.noteVirgin_mem a 8), (moved.task t).trans (d.task_noteVirgin a 8 t),
    (moved.taskUser ht).trans (d.taskUser_noteVirgin ht a 8), served⟩

/-- The word then holds the operation's function of the old one. -/
theorem Dev.bufRead_amoStore (m : Dev) {a : Nat} (aligned : a % 8 = 0) (op : AmoOp) {old : DWord} (b c : DWord)
    (held : m.bufRead a 8 = leBytes 8 old.toNat) :
    (m.wordStored a (amoStore op old b c)).bufRead a 8 = leBytes 8 (amoValue op old b c).toNat := by
  by_cases idle : op = .cas ∧ old ≠ c
  · obtain ⟨rfl, differ⟩ := idle
    have kept : amoValue .cas old b c = old := if_neg differ
    rw [amoStore_cas_of_ne differ, kept]
    exact held
  · rw [amoStore, if_neg idle]
    exact m.bufRead_wordStored_self a aligned (length_leBytes ..)

section
variable {s : State} {i : SpanIssue} {t : Nat} {op : AmoOp} {rd rs1 rs2 : SpanReg}

theorem gives_spanAmo (hi : s.dev.issuer i = some t) (region : s.dev.inRegion t ((s.dev.task t).pc + 4) = true)
    (space : (s.dev.sreg t rs1).toNat / 2 ^ 60 = 0) (clear : s.dev.bufFault t (s.dev.sreg t rs1) 8 = none)
    (sound : s.dev.poisoned ((s.dev.sreg t rs1).toNat / 8) = false) (calm : s.dev.calmSet (s.dev.sreg t rs1))
    (fresh : (s.dev.task t).fresh) : Gives (.spanAmo i op rd rs1 rs2) s t rd (s.dev.wordAt (s.dev.sreg t rs1).toNat) fun d =>
      d.bufRead (s.dev.sreg t rs1).toNat 8 =
        leBytes 8 (amoValue op (s.dev.wordAt (s.dev.sreg t rs1).toNat) (s.dev.sreg t rs2) (s.dev.sreg t rd)).toNat ∧
      (∀ y, y < (s.dev.sreg t rs1).toNat ∨ (s.dev.sreg t rs1).toNat + 8 ≤ y → d.bufRead y 1 = s.dev.bufRead y 1) ∧
      (op = .cas → s.dev.wordAt (s.dev.sreg t rs1).toNat ≠ s.dev.sreg t rd → d.mem = s.dev.mem) := by
  have issued := s.dev.issueFrame_countIssue i.proc.val
  set n := s.dev.countIssue i.proc.val with hn
  set a := s.dev.sreg t rs1 with ha
  obtain ⟨inside, aligned⟩ := Dev.bufFault_none clear
  have mem : n.mem = s.dev.mem := by rw [issued.only]
  have cache : n.cache = s.dev.cache := by rw [issued.only]
  have old : n.wordAt a.toNat = s.dev.wordAt a.toNat := by unfold Dev.wordAt; rw [issued.bufRead]
  obtain ⟨m, mem', task, user, done⟩ := n.amoDone_spec (Dev.issuer_spec hi).1 op (s.dev.sreg t rs2) (s.dev.sreg t rd)
    (a := a.toNat) (by omega) aligned (by rw [Dev.calmIn, cache]; exact calm)
  have buffer : m.mem = s.dev.mem := mem'.trans mem
  rw [old] at done
  have runs : n.amoInstr t op rd (n.sreg t rs1.val) (n.sreg t rs2.val) (n.sreg t rd.val) = n.effect t effAmo rd
      [amoCode op, a.toNat, (s.dev.sreg t rs2).toNat, if op = .cas then (s.dev.sreg t rd).toNat else 0] fun d =>
        d.amoDone t a.toNat op (s.dev.sreg t rs2) (s.dev.sreg t rd) := by
    have whole : n.poisoned (a.toNat / 8) = false := by unfold Dev.poisoned; rw [mem]; exact sound
    rw [issued.sreg, issued.sreg, issued.sreg, ← ha, Dev.amoInstr, if_pos space, issued.bufFault i.proc.isLt, clear]
    dsimp only
    rw [whole, if_neg Bool.false_ne_true]
  refine gives_of_effect hi region exec_spanAmo fresh runs old ?_ ?_ fun d moved _ => ?_
  · rw [← hn, done, Dev.wordStored_only]
    exact congrArg TaskSt.pc (task.trans (issued.task t))
  · rw [← hn, done, Dev.wordStored_only]
    exact user.trans (issued.taskUser i.proc.isLt t)
  · rw [← hn, done] at moved
    have held : m.bufRead a.toNat 8 = leBytes 8 (s.dev.wordAt a.toNat).toNat := by
      rw [Dev.leBytes_wordAt, Dev.bufRead_congr buffer]
    refine ⟨?_, fun y apart => ?_, fun cas differ => ?_⟩
    · rw [Dev.bufRead_congr moved.mem, m.bufRead_amoStore aligned op _ _ held]
    · rw [Dev.bufRead_congr moved.mem, m.bufRead_wordStored_other _ _ aligned (fun _ => length_of_amoStore) apart,
        Dev.bufRead_congr buffer]
    · rw [moved.mem, cas, amoStore_cas_of_ne differ]
      exact buffer

end

end Sys2Proof.Machine

/-! PROOFS. The queues and effects of the Span tasks, with their replay (O48), put together. -/

namespace Sys2Proof.Machine

theorem Gives.imp {c : Instr} {s : State} {t : Nat} {rd : SpanReg} {v : DWord} {P Q : Dev → Prop} (h : Gives c s t rd v P)
    (hPQ : ∀ d, P d → Q d) : Gives c s t rd v Q := by
  obtain ⟨d, run, value, pc, hP⟩ := h
  exact ⟨d, run, value, pc, hPQ d hP⟩

section
variable {s : State} {i : SpanIssue} {t : Nat} {rd rs1 : SpanReg} (hi : s.dev.issuer i = some t)
  (region : s.dev.inRegion t ((s.dev.task t).pc + 4) = true) (tcm : inTcm (s.dev.sreg t rs1) = true)
  (aligned : (s.dev.sreg t rs1).toNat % 32 = 0) (fresh : (s.dev.task t).fresh)
include hi region tcm aligned fresh

/-- The reserved kind of DISP is refused: to a user task as every dispatch, to another for its descriptor. -/
theorem gives_spanIllegalOpcode_of_disp {w : Word} (listed : spanListed w = true) (opcode : w.toNat / 2 ^ 26 = 0x23)
    (kind : w.toNat % 2048 = 3) (hrd : w.toNat / 2 ^ 21 % 32 = rd.val) (hrs : w.toNat / 2 ^ 16 % 32 = rs1.val) :
    Gives (.spanIllegalOpcode i w) s t rd (BitVec.ofNat 64 (2 ^ 63 + (if s.dev.taskUser t then 2 else 3))) fun d =>
      d.det = s.dev.det ∧ d.wp = s.dev.wp := by
  have run : exec (.spanIllegalOpcode i w) s = s.on fun d => d.span1 i fun d t =>
      d.dispInstr t 3 rd.val (d.sreg t rs1.val) fun d _ => (refuse reasonBadDesc, d) :=
    exec_spanIllegalOpcode_of_disp listed opcode kind hrd hrs
  by_cases user : s.dev.taskUser t = true
  · rw [if_pos user]
    exact gives_dispatch_of_user (run := fun _ d _ => (refuse reasonBadDesc, d)) hi region run tcm aligned fresh user
  · rw [if_neg user]
    exact gives_dispatch_of_refused (run := fun _ d _ => (refuse reasonBadDesc, d)) hi region run tcm aligned fresh
      (Bool.eq_false_iff.2 user) (by decide) rfl

/-- The dispatches of a user task are refused. -/
theorem gives_dispatches_of_user (user : s.dev.taskUser t = true) :
    Gives (.dispFrameJob i rd rs1) s t rd (BitVec.ofNat 64 (2 ^ 63 + 2)) (fun d => d.det = s.dev.det) ∧
    Gives (.dispStripeJob i rd rs1) s t rd (BitVec.ofNat 64 (2 ^ 63 + 2)) (fun d => d.det = s.dev.det) ∧
    Gives (.dispBandWrite i rd rs1) s t rd (BitVec.ofNat 64 (2 ^ 63 + 2)) (fun d => d.wp = s.dev.wp) := by
  refine ⟨?_, ?_, ?_⟩
  · exact (gives_dispatch_of_user (k := 0) (run := fun _ d l => d.dispFrame l) hi region rfl tcm aligned fresh user).imp fun _ => And.left
  · exact (gives_dispatch_of_user (k := 1) (run := fun t d l => d.dispStripe t l) hi region rfl tcm aligned fresh user).imp fun _ => And.left
  · exact (gives_dispatch_of_user (k := 2) (run := fun t d l => d.dispBand t l) hi region rfl tcm aligned fresh user).imp fun _ => And.right

end

/-- Settles O48: each effect is performed as its row says on the block as the issue leaves it, its result logged and given; a logged one
gives its result, and a full log begins a checkpoint. -/
theorem spanEffectsReplayTheirLog : Obligations.SpanEffectsReplayTheirLog := by
  unfold Obligations.SpanEffectsReplayTheirLog
  intro s i t rd rs1 rs2 q k op dma w hi region hdma x a b p user fresh l h u gives
  refine ⟨?_, ?_, ?_, ?_, ?_, ?_, ?_, ?_, ?_, ?_, ?_, ?_, ?_, ?_⟩
  · exact spanTraps_spanPop hi
  · exact fun vendor tcm hq empty kept => gives_spanPop_of_empty hi region vendor tcm hq kept empty
  · exact fun vendor tcm hq filled kept => gives_spanPop_of_entry hi region vendor tcm hq kept filled
  · exact spanTraps_spanPush hi
  · exact fun vendor h64 h96 h127 tcm new => ⟨gives_spanPush_of_full hi region vendor tcm h64 h96 h127 new,
    gives_spanPush_of_room hi region vendor tcm h64 h96 h127 new⟩
  · exact fun tcm aligned new listed opcode kind hrd hrs =>
    gives_spanIllegalOpcode_of_disp hi region tcm aligned new listed opcode kind hrd hrs
  · exact fun tcm aligned new => gives_dispatches_of_user hi region tcm aligned new
  · intro tcm aligned new vendor
    refine ⟨?_, ?_, ?_, ?_, ?_, ?_, ?_, ?_, ?_⟩
    · exact fun bad => (gives_dispFrameJob_of_bad hi region tcm aligned new vendor rfl bad).imp fun _ => And.left
    · exact gives_dispFrameJob_of_ok hi region tcm aligned new vendor rfl
    · exact fun bad => (gives_dispStripeJob_of_bad hi region tcm aligned new vendor rfl bad).imp fun _ => And.left
    · exact fun _ _ => gives_dispStripeJob_of_ok hi region tcm aligned new vendor rfl
    · exact fun bad => (gives_dispBandWrite_of_bad hi region tcm aligned new vendor rfl bad).imp fun _ => And.right
    · exact gives_dispBandWrite_of_ok hi region tcm aligned new vendor rfl
    · exact gives_dma_of_bad hi region hdma tcm aligned new rfl
    · exact gives_dma_of_full hi region hdma tcm aligned new vendor rfl
    · exact fun ok room => ⟨gives_dma_of_transfer hi region hdma tcm aligned new vendor rfl ok room,
      gives_dma_of_cpl hi region hdma tcm aligned new vendor rfl ok room⟩
  · exact gives_spanStamp_of_fresh hi region
  · exact fun _ => gives_spanStamp_of_logged hi region
  · exact completes_spanStamp_of_full hi
  · exact fun space clear sound calm new => gives_spanAmo hi region space clear sound calm new
  · exact spanTraps_spanSignal hi
  · exact completes_spanSignal hi region

end Sys2Proof.Machine

/-! PROOFS. Heads (O29): a jump that lands while the head's OPC run writes gives back the levels that the run keeps, for whatever beam numbers. -/

namespace Sys2Proof.Machine

/-! ## The OPC run of a head that comes onto another band (R146) -/

/-- A head without a band write comes onto a band (R118). -/
theorem Dev.onBand_of_idle {d : Dev} {h : Nat} (idle : (d.wps h).run = none) (band : Nat) :
    d.onBand h band = ((d.onHead h fun s => { s with band := band }).passEnds h).opcBand h band := by
  have stays : d.bandBreak h = d := by rw [Dev.bandBreak, idle]; rfl
  rw [Dev.onBand, stays]

section
variable {d : Dev} {h b v band : Nat} {o : OpcRun} (opc : (d.wps h).opc = some o)
include opc

/-- Past bands 0 and 1, in which an OPC run lies, its steps are over. -/
theorem Dev.opcBand_of_writing (writing : o.phase = .writing) (past : 1 < band) : d.opcBand h band = d.opcRelease h := by
  have at_ : (d.wps h).opcAt = some .writing := by rw [WpSt.opcAt, opc, Option.map_some, writing]
  have runs : d.fld (Fld.WP_OPC_CFG_BAND h) < 2 := fieldOf_lt _ 22 1
  have off : (band == d.fld (Fld.WP_OPC_CFG_BAND h)) = false := beq_false_of_ne (by omega)
  rw [Dev.opcBand, at_, off]
  rfl

variable (level : o.levels = [(b, v)]) (lit : (d.wps h).trip = false) (unstuck : (d.wps h).stuck = [])
include level lit unstuck

/-- Where a run keeps one level, that goes back to DAC A of the beam number that the run names with it. -/
theorem Dev.regs_opcRelease_of_level : (d.opcRelease h).regs = (d.put (Fld.WP_LVL_LEVEL_A h b) v).regs := by
  simp [Dev.opcRelease, opc, level, lit, unstuck, Dev.each]

theorem Dev.regs_onBand_of_writing (idle : (d.wps h).run = none) (writing : o.phase = .writing) (past : 1 < band) :
    (d.onBand h band).regs = (d.put (Fld.WP_LVL_LEVEL_A h b) v).regs := by
  rw [Dev.onBand_of_idle idle, Dev.opcBand_of_writing (o := o) (by exact opc) writing past]
  exact Dev.regs_opcRelease_of_level (d := (d.onHead h fun s => { s with band := band }).passEnds h) opc level lit unstuck

end

/-! ## Jumps (R165) -/

/-- The block as a jump of a head has been counted. -/
def Dev.jumpCounted (d : Dev) (h : Nat) : Dev :=
  let d := (d.restoreBeams h).setSa h
  (d.when (!(d.wps h).focus) fun d => (d.inhibit h inhFocus (d.mapBeams h) (some 3)).offtrack h).count (Adr.SRV_CNT h 4)

/-- The band on which a jump to a layer lands (R483). -/
def Dev.jumpBand (d : Dev) (h dest : Nat) : Nat :=
  if 17876 ≤ (d.head h).band then (if dest % 2 = 1 then leadBand else 17876) else (d.head h).band

/-- A head lands on a layer and a band. -/
def Dev.jumpLands (d : Dev) (h dest band : Nat) : Dev :=
  ((((d.onHead h fun s => { s with layer := dest, seek := none }).onBand h band).coldSlices h).onLoop h fun s =>
    { s with focus := { s.focus with fresh := true } }).trackCapture h

/-- A jump upward that lands is counted first, and then the head comes onto its new layer and band. -/
theorem exec_layerJump_landed {s : State} {h : Head} {layer : Nat} (present : s.dev.hasHead h = true)
    (captured : (s.dev.head h.ix).captured = true) (at_ : (s.dev.head h.ix).layer = layer) (inner : layer < 7) :
    exec (.layerJump h true true) s = s.on fun d =>
      (d.jumpCounted h.ix).jumpLands h.ix (layer + 1) (d.jumpBand h.ix (layer + 1)) := by
  show execLayerJump h true true s = _
  simp [execLayerJump, State.on_eq, present, captured, at_, inner.ne]
  rfl

theorem Dev.regs_coldSlices (d : Dev) (h : Nat) : (d.coldSlices h).regs = d.regs := by
  unfold Dev.coldSlices
  exact Dev.each_induction (fun n => n.regs = d.regs) (fun n k => n.onSlice k _) (fun _ _ same => same) _ d rfl

/-- Of what landing does, only the new band writes registers. -/
theorem Dev.regs_jumpLands (d : Dev) (h dest band : Nat) : (d.jumpLands h dest band).regs =
    ((d.onHead h fun s => { s with layer := dest, seek := none }).onBand h band).regs := by
  simp only [Dev.jumpLands, Dev.trackCapture, Dev.presetLoops, Dev.onLoop, Dev.onHead_regs, Dev.regs_coldSlices]

/-! ## The counterexample -/

/-- A number past the ten beams', for which WP_LVL, continued beyond its ten registers, would be the count of head A's jumps. -/
def strayBeam : Nat := 90148

theorem adr_level_strayBeam : (Fld.WP_LVL_LEVEL_A 0 strayBeam).adr = Adr.SRV_CNT 0 4 := rfl

/-- Head A lies captured on band 2 of layer 0, its focus guard holding the gates closed, while its OPC run for band 0 writes and keeps a
level of 1 for the stray number. OPC itself keeps levels of mapped beams alone (R146), but the statement speaks of every state. -/
def strayRun : Dev :=
  { heads := [(0, { captured := true, band := 2 })]
    wp := [(0, { focus := true, opc := some { phase := .writing, levels := [(strayBeam, 1)] } })] }

theorem jumpCounted_strayRun : strayRun.jumpCounted 0 = (strayRun.setSa 0).count (Adr.SRV_CNT 0 4) := rfl

/-- The jump is counted, from 0 to 1. -/
theorem reg_jumpCounted_strayRun : (strayRun.jumpCounted 0).reg (Adr.SRV_CNT 0 4) = 1 := by
  have stands : (strayRun.setSa 0).reg (Adr.SRV_CNT 0 4) = 0 := Dev.reg_setReg_ne strayRun _ (by decide)
  rw [jumpCounted_strayRun, Dev.count, Dev.reg_countBy, if_pos rfl, stands]
  rfl

/-- Landing on band 2 then ends the steps of the run, and the level that it keeps falls on that count. -/
theorem reg_jumpLands_strayRun : ((strayRun.jumpCounted 0).jumpLands 0 1 2).reg (Adr.SRV_CNT 0 4) = 0x10001 := by
  have regs : ((strayRun.jumpCounted 0).jumpLands 0 1 2).regs =
      ((strayRun.jumpCounted 0).put (Fld.WP_LVL_LEVEL_A 0 strayBeam) 1).regs := by
    rw [Dev.regs_jumpLands]
    exact Dev.regs_onBand_of_writing rfl rfl rfl rfl rfl rfl (by decide)
  calc ((strayRun.jumpCounted 0).jumpLands 0 1 2).reg (Adr.SRV_CNT 0 4)
      = ((strayRun.jumpCounted 0).put (Fld.WP_LVL_LEVEL_A 0 strayBeam) 1).reg (Adr.SRV_CNT 0 4) := congrArg (Tab.get regReset · _) regs
    _ = withField ((strayRun.jumpCounted 0).reg (Adr.SRV_CNT 0 4)) 16 12 1 := by
      rw [Dev.reg_put, if_pos adr_level_strayBeam.symm, adr_level_strayBeam]
      rfl
    _ = 0x10001 := by rw [reg_jumpCounted_strayRun]; rfl

/-- Refutes O29: a jump that lands need not leave its count one higher. Where the head's OPC run writes and keeps a level for beam number
90,148, which OPC never sets but the statement, made of every state, admits, the landing ends the run's steps, and the level goes where WP_LVL of
that number would lie: to the count of jumps itself, which then reads 0x10001 where 1 is due. -/
theorem not_headsCaptureJumpAndSeek : ¬ Obligations.HeadsCaptureJumpAndSeek := by
  unfold Obligations.HeadsCaptureJumpAndSeek
  intro holds
  obtain ⟨-, -, -, -, -, -, jump, -⟩ := holds { dev := strayRun } .a 0 ⟨0, 0, false, 0, 0, [], none⟩ true true 0 () rfl
  obtain ⟨d, run, counted, -⟩ := jump rfl (by decide) (by decide)
  have landed : d = (strayRun.jumpCounted 0).jumpLands 0 1 2 := by
    rw [exec_layerJump_landed (layer := 0) rfl rfl rfl (by decide)] at run
    cases run
    rfl
  have due : strayRun.counted (Adr.SRV_CNT 0 4) 1 = 1 := by decide
  have left : (1 : Word) = 0x10001 := by
    rw [← due, ← reg_jumpLands_strayRun, ← landed]
    exact counted.symm
  exact absurd left (by decide)

end Sys2Proof.Machine

/-! PROOFS. Arc instructions: issue, the writes of an engine and what they leave (O37, O38, O39, O40). -/

namespace Sys2Proof.Machine

/-! ## The state of one engine -/

theorem Dev.arcEng_onEng_self (d : Dev) (e : Nat) (g : ArcSt → ArcSt) : (d.onEng e g).arcEng e = g (d.arcEng e) :=
  Tab.get_set_self d.arc.eng e _

theorem Dev.arcEng_onEng_ne (d : Dev) {e o : Nat} (g : ArcSt → ArcSt) (h : o ≠ e) : (d.onEng e g).arcEng o = d.arcEng o :=
  Tab.get_set_ne d.arc.eng _ h

/-- d' differs from d in the state of engine e and, of the registers, in its status. -/
def ArcOnly (d d' : Dev) (e : Nat) : Prop :=
  (∀ o, o ≠ e → d'.arcEng o = d.arcEng o) ∧ d'.arc = { d.arc with eng := d'.arc.eng } ∧
    d' = { d with regs := d'.regs, arc := d'.arc } ∧ SameRegs d d' [Adr.ARC_STATUS e]

theorem ArcOnly.refl (d : Dev) (e : Nat) : ArcOnly d d e := ⟨fun _ _ => rfl, rfl, rfl, SameRegs.refl d _⟩

theorem ArcOnly.onEng {d d' : Dev} {e : Nat} (h : ArcOnly d d' e) (g : ArcSt → ArcSt) : ArcOnly d (d'.onEng e g) e := by
  obtain ⟨others, arc, only, regs⟩ := h
  refine ⟨fun o ho => (Dev.arcEng_onEng_ne d' g ho).trans (others o ho), ?_, ?_, regs.trans (SameRegs.of_regs_eq rfl)⟩
  · unfold Dev.onEng; rw [arc]
  · rw [only]; rfl

/-- A change of an engine's status alone. -/
theorem ArcOnly.regFrame {d d' d'' : Dev} {e : Nat} (h : ArcOnly d d' e) (h' : RegFrame d' d'' [Adr.ARC_STATUS e]) :
    ArcOnly d d'' e := by
  obtain ⟨others, arc, only, regs⟩ := h
  obtain ⟨only', regs'⟩ := h'
  have arc' : d''.arc = d'.arc := by rw [only']
  refine ⟨fun o ho => ?_, arc'.trans (by rw [arc'] ; exact arc), ?_, regs.trans regs'⟩
  · unfold Dev.arcEng; rw [arc']; exact others o ho
  · rw [only', only]

/-! ## Flags (R182, R184) -/

theorem Dev.regFrame_arcRaise (d : Dev) (e : Nat) (r : Raised) : RegFrame d (d.arcRaise e r) [Adr.ARC_STATUS e] := by
  have raised (n : Dev) (b : Bool) (f : Field) (hf : f.adr = Adr.ARC_STATUS e) :
      RegFrame n (n.when b fun n => n.putBit f true) [Adr.ARC_STATUS e] :=
    (RegFrame.refl n _).when ((RegFrame.refl n _).putBit (by simp [hf]))
  unfold Dev.arcRaise
  exact (((raised _ _ _ rfl).trans (raised _ _ _ rfl)).trans (raised _ _ _ rfl)).trans (raised _ _ _ rfl)

@[simp] theorem Dev.arcEng_arcRaise (d : Dev) (e : Nat) (r : Raised) (o : Nat) : (d.arcRaise e r).arcEng o = d.arcEng o := by
  obtain ⟨only, _⟩ := d.regFrame_arcRaise e r
  unfold Dev.arcEng; rw [only]

/-- A bit of a register after another, or the same, was raised where a condition holds. -/
theorem Dev.bit_when_putBit (d : Dev) (adr : Nat) {k : Nat} (j : Nat) (b : Bool) (hk : k < 32) :
    (d.when b fun d => d.putBit ⟨adr, k, 1⟩ true).bit ⟨adr, j, 1⟩ = (d.bit ⟨adr, j, 1⟩ || (b && j == k)) := by
  cases b with
  | false => simp [Dev.when_false]
  | true =>
    rw [Dev.when_true, Bool.true_and]
    by_cases h : j = k
    · subst h
      rw [Dev.bit_putBit_self d ⟨adr, j, 1⟩ true rfl (by simpa using hk), beq_self_eq_true, Bool.or_true]
    · rw [Dev.bit_putBit_ne d ⟨adr, k, 1⟩ ⟨adr, j, 1⟩ true (.inr (by simp only; omega)) (by simpa using hk), beq_false_of_ne h,
        Bool.or_false]

/-- Flags that are raised stand beside those of a block with the same registers. -/
theorem ArcFlags.arcRaise {d d' : Dev} (e : ArcEng) (r : Raised) (h : d'.regs = d.regs) : ArcFlags d (d'.arcRaise e r) e r := by
  have same (f : Field) : d.bit f = d'.bit f := Dev.bit_of_reg_eq (by unfold Dev.reg; rw [h])
  unfold ArcFlags Dev.arcRaise
  simp only [same, Fld.ARC_STATUS_SAT, Fld.ARC_STATUS_OVF, Fld.ARC_STATUS_NAN, Fld.ARC_STATUS_DIV]
  simp [Dev.bit_when_putBit]

/-! ## Issue (R179, R180, R185) -/

/-- The block as an instruction's effect finds it: slot 0 has fixed what its bundle reads. -/
def Dev.arcFetched (d : Dev) (i : ArcIssue) : Dev :=
  if i.slot = 0 then d.onEng i.eng (fun a => { a.settle i.cycle with snap := (a.settle i.cycle).ctx }) else d

theorem Dev.arcEng_arcFetched (d : Dev) (i : ArcIssue) :
    (d.arcFetched i).arcEng i.eng = { d.arcNow i with snap := d.arcSees i } := by
  unfold Dev.arcFetched Dev.arcSees Dev.arcNow
  by_cases h : i.slot = 0
  · simp only [if_pos h]
    exact Dev.arcEng_onEng_self d i.eng _
  · simp only [if_neg h]

/-- An issue: the operands are fixed, and the effect takes place where the predicate lets it. -/
theorem Dev.arcIssue_eq (d : Dev) (i : ArcIssue) (f : ArcCtx → Dev → Dev) :
    d.arcIssue i f = (d.arcFetched i).when (d.arcActs i) (f (d.arcSees i)) := by
  have fetched : (d.when (i.slot == 0) fun d => d.onEng i.eng fun a => let a := a.settle i.cycle
      { a with snap := a.ctx }) = d.arcFetched i := by
    simp only [Dev.when, Dev.arcFetched, beq_iff_eq]
  have snap : ((d.arcFetched i).arcEng i.eng).snap = d.arcSees i := by rw [Dev.arcEng_arcFetched]
  simp only [Dev.arcIssue, fetched, snap]
  rfl

theorem Dev.arcIssue_of_acts {d : Dev} {i : ArcIssue} (h : d.arcActs i = true) (f : ArcCtx → Dev → Dev) :
    d.arcIssue i f = f (d.arcSees i) (d.arcFetched i) := by
  rw [Dev.arcIssue_eq, h, Dev.when_true]

@[simp] theorem Dev.regs_arcFetched (d : Dev) (i : ArcIssue) : (d.arcFetched i).regs = d.regs := by
  unfold Dev.arcFetched; split <;> rfl

theorem Dev.arcOnly_arcFetched (d : Dev) (i : ArcIssue) : ArcOnly d (d.arcFetched i) i.eng := by
  unfold Dev.arcFetched
  split
  · exact (ArcOnly.refl d _).onEng _
  · exact ArcOnly.refl d _

/-- A row of the Arc instruction set: an issue with an effect of its own. -/
def ArcRow (c : Instr) (i : ArcIssue) : Prop :=
  ∃ f : ArcCtx → Dev → Dev, ∀ s, exec c s = s.on fun d => d.arcIssue i f

/-- A row whose predicate does not let it act fixes the operands of its bundle, and does nothing else. -/
theorem ArcRow.exec_of_not_acts {c : Instr} {i : ArcIssue} (h : ArcRow c i) {s : State} (ha : s.dev.arcActs i = false) :
    exec c s = .next { s with dev := s.dev.arcFetched i } := by
  obtain ⟨f, hf⟩ := h
  rw [hf, State.on_eq, Dev.arcIssue_eq, ha, Dev.when_false]

/-- Settles O37: every row is an issue. -/
theorem arcPredicateStopsEffects : Obligations.ArcPredicateStopsEffects := by
  intro s i rd rs1 rs2 imm im q cl b cf qf mf x sh sc ff cb sb cw sw port c hc ha
  suffices row : ArcRow c i by
    rw [row.exec_of_not_acts ha]
    unfold Dev.arcFetched
    rfl
  revert c
  simp only [List.forall_mem_cons, List.not_mem_nil, false_implies, implies_true, and_true]
  repeat' constructor
  all_goals exact fun _ => rfl

/-! ## What a write of an engine leaves -/

/-- What an instruction leaves of its own engine: registers and state words outside two lists, the rest of the context but the bits, and
everything else but the snapshot, the signature and the filters that it adds. -/
def ArcKept (a a' : ArcSt) (regs words : List Nat) (late : List (Nat × Nat × Word)) : Prop :=
  (∀ r : ArcReg, r.val ∉ regs → a'.ctx.reg r = a.ctx.reg r) ∧ (∀ w, w ∉ words → a'.ctx.word w = a.ctx.word w) ∧
    a'.due = a.due ++ late ∧
    a'.ctx = { a.ctx with
      regs := a'.ctx.regs, preds := a'.ctx.preds, clamp := a'.ctx.clamp, arm := a'.ctx.arm, mem := a'.ctx.mem } ∧
    a' = { a with ctx := a'.ctx, snap := a'.snap, due := a'.due, sig := a'.sig }

section
variable {d d' : Dev} {i : ArcIssue} {rs ws : List Nat} {late late' : List (Nat × Nat × Word)}

theorem arcFrame_iff : ArcFrame d d' i rs ws late ↔
    ArcKept (d.arcNow i) (d'.arcEng i.eng) rs ws late ∧ ArcOnly d d' i.eng := by
  simp only [ArcFrame, ArcKept, ArcOnly, and_assoc]

/-- The fetch of a bundle writes nothing. -/
theorem ArcFrame.arcFetched (d : Dev) (i : ArcIssue) (rs ws : List Nat) : ArcFrame d (d.arcFetched i) i rs ws := by
  refine arcFrame_iff.mpr ⟨?_, d.arcOnly_arcFetched i⟩
  rw [Dev.arcEng_arcFetched]
  exact ⟨fun _ _ => rfl, fun _ _ => rfl, (List.append_nil _).symm, rfl, rfl⟩

theorem ArcFrame.onEng {g : ArcSt → ArcSt} (h : ArcFrame d d' i rs ws late)
    (hg : ∀ a, ArcKept (d.arcNow i) a rs ws late → ArcKept (d.arcNow i) (g a) rs ws late') :
    ArcFrame d (d'.onEng i.eng g) i rs ws late' := by
  obtain ⟨kept, only⟩ := arcFrame_iff.mp h
  refine arcFrame_iff.mpr ⟨?_, only.onEng g⟩
  rw [Dev.arcEng_onEng_self]
  exact hg _ kept

theorem ArcFrame.arcPut (h : ArcFrame d d' i rs ws late) {r : Nat} (hr : r ∈ rs) (v : Word) :
    ArcFrame d (d'.arcPut i.eng r v) i rs ws late := by
  refine h.onEng fun a ⟨regs, words, due, ctx, rest⟩ => ⟨fun o ho => ?_, words, due, ?_, ?_⟩
  · have ne : o.val ≠ r := fun he => ho (he ▸ hr)
    exact (Tab.get_set_ne a.ctx.regs v ne).trans (regs o ho)
  · rw [ctx]
  · rw [rest]

theorem ArcFrame.arcPutWord (h : ArcFrame d d' i rs ws late) {w : Nat} (hw : w ∈ ws) (v : Word) :
    ArcFrame d (d'.arcPutWord i.eng w v) i rs ws late := by
  refine h.onEng fun a ⟨regs, words, due, ctx, rest⟩ => ⟨regs, fun o ho => ?_, due, ?_, ?_⟩
  · have ne : o ≠ w := fun he => ho (he ▸ hw)
    exact (Tab.get_set_ne a.ctx.mem v ne).trans (words o ho)
  · rw [ctx]
  · rw [rest]

theorem ArcFrame.arcPutLater (h : ArcFrame d d' i rs ws late) (t w : Nat) (v : Word) :
    ArcFrame d (d'.arcPutLater i.eng t w v) i rs ws (late ++ [(t, w, v)]) := by
  refine h.onEng fun a ⟨regs, words, due, ctx, rest⟩ => ⟨regs, words, ?_, ctx, ?_⟩
  · rw [← List.append_assoc, ← due]
  · rw [rest]

/-- A write of predicates, clamp or arm bits. -/
theorem ArcFrame.onBits (h : ArcFrame d d' i rs ws late) (preds clamp arm : ArcSt → BitVec 8) (sig : ArcSt → List (Nat × Nat × Nat)) :
    ArcFrame d (d'.onEng i.eng fun a => { a with
      ctx := { a.ctx with preds := preds a, clamp := clamp a, arm := arm a }, sig := sig a }) i rs ws late := by
  refine h.onEng fun a ⟨regs, words, due, ctx, rest⟩ => ⟨regs, words, due, ?_, ?_⟩
  · rw [ctx]
  · rw [rest]

theorem ArcFrame.arcPutPred (h : ArcFrame d d' i rs ws late) (p : Nat) (b : Bool) :
    ArcFrame d (d'.arcPutPred i.eng p b) i rs ws late := by
  unfold Dev.arcPutPred
  split
  · exact h
  · exact h.onBits (fun a => setBit8 a.ctx.preds p b) (fun a => a.ctx.clamp) (fun a => a.ctx.arm) fun a => (1, p, b.toNat) :: a.sig

theorem ArcFrame.arcPutClamp (h : ArcFrame d d' i rs ws late) (c : Nat) (b : Bool) :
    ArcFrame d (d'.arcPutClamp i.eng c b) i rs ws late :=
  h.onBits (fun a => a.ctx.preds) (fun a => setBit8 a.ctx.clamp c b) (fun a => a.ctx.arm) fun a => (2, c, b.toNat) :: a.sig

theorem ArcFrame.arcRaise (h : ArcFrame d d' i rs ws late) (r : Raised) : ArcFrame d (d'.arcRaise i.eng r) i rs ws late := by
  obtain ⟨kept, only⟩ := arcFrame_iff.mp h
  refine arcFrame_iff.mpr ⟨?_, only.regFrame (d'.regFrame_arcRaise i.eng r)⟩
  rwa [Dev.arcEng_arcRaise]

end

/-! ## Bits of an engine that stand -/

section
variable {d d' : Dev} {e : ArcEng}

theorem ArcBitsStand.arcFetched (d : Dev) (i : ArcIssue) : ArcBitsStand d (d.arcFetched i) i.eng := by
  unfold ArcBitsStand
  rw [Dev.arcEng_arcFetched]
  unfold Dev.arcNow
  split <;> exact ⟨rfl, rfl, rfl⟩

theorem ArcBitsStand.onEng {g : ArcSt → ArcSt} (h : ArcBitsStand d d' e)
    (hg : ∀ a, (g a).ctx.preds = a.ctx.preds ∧ (g a).ctx.clamp = a.ctx.clamp ∧ (g a).ctx.arm = a.ctx.arm) :
    ArcBitsStand d (d'.onEng e g) e := by
  obtain ⟨preds, clamp, arm⟩ := h
  obtain ⟨preds', clamp', arm'⟩ := hg (d'.arcEng e)
  unfold ArcBitsStand
  rw [Dev.arcEng_onEng_self]
  exact ⟨preds'.trans preds, clamp'.trans clamp, arm'.trans arm⟩

theorem ArcBitsStand.arcPut (h : ArcBitsStand d d' e) (r : Nat) (v : Word) : ArcBitsStand d (d'.arcPut e r v) e :=
  h.onEng fun _ => ⟨rfl, rfl, rfl⟩

theorem ArcBitsStand.arcPutWord (h : ArcBitsStand d d' e) (w : Nat) (v : Word) : ArcBitsStand d (d'.arcPutWord e w v) e :=
  h.onEng fun _ => ⟨rfl, rfl, rfl⟩

theorem ArcBitsStand.arcPutLater (h : ArcBitsStand d d' e) (t w : Nat) (v : Word) : ArcBitsStand d (d'.arcPutLater e t w v) e :=
  h.onEng fun _ => ⟨rfl, rfl, rfl⟩

theorem ArcBitsStand.arcRaise (h : ArcBitsStand d d' e) (r : Raised) : ArcBitsStand d (d'.arcRaise e r) e := by
  unfold ArcBitsStand
  rwa [Dev.arcEng_arcRaise]

end

/-! ## Reads after writes -/

@[simp] theorem Dev.reg_arcPut_self (d : Dev) (e : Nat) (r : ArcReg) (v : Word) : ((d.arcPut e r v).arcEng e).ctx.reg r = v := by
  unfold Dev.arcPut
  rw [Dev.arcEng_onEng_self]
  exact Tab.get_set_self _ _ _

@[simp] theorem Dev.word_arcPutWord_self (d : Dev) (e w : Nat) (v : Word) : ((d.arcPutWord e w v).arcEng e).ctx.word w = v := by
  unfold Dev.arcPutWord
  rw [Dev.arcEng_onEng_self]
  exact Tab.get_set_self _ _ _

/-- A bit of a byte after one of its bits was written. -/
theorem getLsbD_setBit8 (v : BitVec 8) {k : Nat} (b : Bool) {j : Nat} (hj : j < 8) :
    (setBit8 v k b).getLsbD j = if j = k then b else v.getLsbD j := by
  have bit : (BitVec.ofNat 8 (2 ^ k)).getLsbD j = decide (j = k) := by
    rw [BitVec.getLsbD_ofNat, Nat.testBit_two_pow]
    simp [hj, eq_comm]
  unfold setBit8
  cases b with
  | true =>
    simp only [if_true, BitVec.getLsbD_or, bit]
    by_cases h : j = k <;> simp [h]
  | false =>
    simp only [Bool.false_eq_true, if_false, BitVec.getLsbD_and, BitVec.getLsbD_not, bit]
    by_cases h : j = k <;> simp [h, hj]

/-- A predicate written: p2 to p7 hold what was written, p0 and p1 hold no written value. -/
theorem Dev.arcPutPred_facts (d : Dev) (e : Nat) (p : Fin 8) (b : Bool) :
    (d.arcPutPred e p b).regs = d.regs ∧
    (∀ o < 8, ((d.arcPutPred e p b).arcEng e).ctx.preds.getLsbD o = if 2 ≤ p.val ∧ o = p.val then b else (d.arcEng e).ctx.preds.getLsbD o) ∧
    ((d.arcPutPred e p b).arcEng e).ctx.clamp = (d.arcEng e).ctx.clamp ∧ ((d.arcPutPred e p b).arcEng e).ctx.arm = (d.arcEng e).ctx.arm := by
  unfold Dev.arcPutPred
  by_cases h : p.val < 2
  · simp only [if_pos h]
    exact ⟨trivial, fun o _ => by rw [if_neg (by omega)], trivial, trivial⟩
  · simp only [if_neg h, Dev.arcEng_onEng_self]
    refine ⟨rfl, fun o ho => ?_, trivial, trivial⟩
    rw [getLsbD_setBit8 _ _ ho]
    simp [show 2 ≤ p.val by omega]

/-! ## What is stored stands while a bundle is fetched -/

/-- The coefficients that an instruction reads (R182). -/
theorem Dev.arcCoef_arcFetched (d : Dev) (i : ArcIssue) (c : ArcCtx) (w : Nat) :
    (d.arcFetched i).arcCoef i.eng c w = Tab.get zeroWord (d.arcEng i.eng).coef (2048 * c.bank.val + w) := by
  unfold Dev.arcCoef
  rw [Dev.arcEng_arcFetched]
  unfold Dev.arcNow
  split <;> rfl

theorem Dev.swapped_arcFetched (d : Dev) (i : ArcIssue) : ((d.arcFetched i).arcEng i.eng).swapped = (d.arcEng i.eng).swapped := by
  rw [Dev.arcEng_arcFetched]
  unfold Dev.arcNow
  split <;> rfl

theorem Dev.arcPair_arcFetched (d : Dev) (i : ArcIssue) (p : Nat) : (d.arcFetched i).arcPair p = d.arcPair p := by
  unfold Dev.arcFetched; split <;> rfl

theorem Dev.runsFor_arcFetched (d : Dev) (i : ArcIssue) (e : Nat) : (d.arcFetched i).runsFor e = d.runsFor e := by
  unfold Dev.arcFetched; split <;> rfl

/-! ## Rows that write one register -/

section
variable {c : Instr} {s : State} {i : ArcIssue} {rd : ArcReg}

/-- A row whose effect is one write of a register. -/
theorem ArcTakes.of_arcPut {f : ArcCtx → Dev → Word} {v : Word} (ha : s.dev.arcActs i = true)
    (h : exec c s = s.on fun d => d.arcIssue i fun c d => d.arcPut i.eng rd (f c d))
    (hv : f (s.dev.arcSees i) (s.dev.arcFetched i) = v) : ArcTakes c s i rd v := by
  refine Completes.of_on _ h ?_
  rw [Dev.arcIssue_of_acts ha, hv]
  refine ⟨Dev.reg_arcPut_self _ _ _ _, (ArcFrame.arcFetched s.dev i [rd.val] []).arcPut (by simp) v,
    (ArcBitsStand.arcFetched s.dev i).arcPut _ v, ?_⟩
  exact Dev.regs_arcFetched s.dev i

/-- A row that gives a result with its flags. -/
theorem ArcGives.of_arcIssue {f : ArcCtx → Dev → Dev} {v : Word × Raised} (ha : s.dev.arcActs i = true)
    (h : exec c s = s.on fun d => d.arcIssue i f)
    (hf : f (s.dev.arcSees i) (s.dev.arcFetched i) = (s.dev.arcFetched i).arcRes i.eng rd v) : ArcGives c s i rd v := by
  refine Completes.of_on _ h ?_
  rw [Dev.arcIssue_of_acts ha, hf]
  refine ⟨?_, ((ArcFrame.arcFetched s.dev i [rd.val] []).arcPut (by simp) v.1).arcRaise v.2,
    ((ArcBitsStand.arcFetched s.dev i).arcPut _ v.1).arcRaise v.2, ArcFlags.arcRaise i.eng v.2 (Dev.regs_arcFetched s.dev i)⟩
  simp [Dev.arcRes]

/-- A row whose effect is always a result with its flags. -/
theorem ArcGives.of_arcRes {f : ArcCtx → Dev → Word × Raised} {v : Word × Raised} (ha : s.dev.arcActs i = true)
    (h : exec c s = s.on fun d => d.arcIssue i fun c d => d.arcRes i.eng rd (f c d))
    (hv : f (s.dev.arcSees i) (s.dev.arcFetched i) = v) : ArcGives c s i rd v :=
  .of_arcIssue ha h (by rw [hv])

/-- A row that acts and has no effect. -/
theorem completes_of_arcIssue_nothing {f : ArcCtx → Dev → Dev} (ha : s.dev.arcActs i = true)
    (h : exec c s = s.on fun d => d.arcIssue i f) (hf : f (s.dev.arcSees i) (s.dev.arcFetched i) = s.dev.arcFetched i) :
    Completes c s fun d => ArcFrame s.dev d i [] [] ∧ ArcBitsStand s.dev d i.eng ∧ d.regs = s.dev.regs := by
  refine Completes.of_on _ h ?_
  rw [Dev.arcIssue_of_acts ha, hf]
  exact ⟨ArcFrame.arcFetched s.dev i [] [], ArcBitsStand.arcFetched s.dev i, Dev.regs_arcFetched s.dev i⟩

/-- A row that stores one state word. -/
theorem completes_of_arcPutWord {f : ArcCtx → Word} {w : ArcCtx → Nat} (ha : s.dev.arcActs i = true)
    (h : exec c s = s.on fun d => d.arcIssue i fun c d => d.arcPutWord i.eng (w c) (f c)) :
    Completes c s fun d => (d.arcEng i.eng).ctx.word (w (s.dev.arcSees i)) = f (s.dev.arcSees i) ∧
      ArcFrame s.dev d i [] [w (s.dev.arcSees i)] ∧ ArcBitsStand s.dev d i.eng ∧ d.regs = s.dev.regs := by
  refine Completes.of_on _ h ?_
  rw [Dev.arcIssue_of_acts ha]
  exact ⟨Dev.word_arcPutWord_self _ _ _ _, (ArcFrame.arcFetched s.dev i [] _).arcPutWord (by simp) _,
    (ArcBitsStand.arcFetched s.dev i).arcPutWord _ _, Dev.regs_arcFetched s.dev i⟩

end

/-! ## Moves, integers and memories (R182) -/

theorem zeroExtend_shiftLeft_16 (im : BitVec 16) : (zext 32 im <<< 16 : Word) = im ++ 0#16 := by
  unfold zext
  apply BitVec.eq_of_getLsbD_eq
  intro j hj
  simp only [BitVec.zeroExtend_eq_setWidth, BitVec.getLsbD_shiftLeft, BitVec.getLsbD_setWidth, BitVec.getLsbD_append, BitVec.getLsbD_zero]
  by_cases h : j < 16
  · simp [h]
  · have : j - 16 < 32 := by omega
    simp [h, hj, this]

/-- An integer comparison, by its function code. -/
theorem arcCompare_int (cf : Fin 6) (a b : Word) : arcCompare cf (a.slt b) (a == b) (b.slt a) =
    [a == b, a != b, a.slt b, a.sle b, b.slt a, b.sle a].getD cf.val false := by
  have le (x y : Word) : x.sle y = (x.slt y || x == y) := by
    rw [Bool.eq_iff_iff]
    simp only [BitVec.sle_eq_decide, BitVec.slt_eq_decide, Bool.or_eq_true, decide_eq_true_eq, beq_iff_eq, ← BitVec.toInt_inj]
    omega
  rw [le a b, le b a, Bool.beq_comm (a := b)]
  fin_cases cf <;> rfl

theorem completes_arcCmp_int {s : State} {i : ArcIssue} (ha : s.dev.arcActs i = true) (cf : Fin 6) (p : Fin 8) (rs1 rs2 : ArcReg) :
    let a := (s.dev.arcSees i).reg rs1
    let b := (s.dev.arcSees i).reg rs2
    Completes (.arcCmp i false cf p rs1 rs2) s fun d => ArcFrame s.dev d i [] [] ∧ d.regs = s.dev.regs ∧
      (2 ≤ p.val → (d.arcEng i.eng).ctx.preds.getLsbD p =
        [a == b, a != b, a.slt b, a.sle b, b.slt a, b.sle a].getD cf.val false) ∧
      (∀ o < 8, o ≠ p.val ∨ o < 2 → (d.arcEng i.eng).ctx.preds.getLsbD o = (s.dev.arcEng i.eng).ctx.preds.getLsbD o) ∧
      (d.arcEng i.eng).ctx.clamp = (s.dev.arcEng i.eng).ctx.clamp ∧ (d.arcEng i.eng).ctx.arm = (s.dev.arcEng i.eng).ctx.arm := by
  intro a b
  obtain ⟨preds, clamp, arm⟩ := ArcBitsStand.arcFetched s.dev i
  refine Completes.of_on (fun d => d.arcIssue i fun c d =>
    d.arcPutPred i.eng p (arcCompare cf ((c.reg rs1).slt (c.reg rs2)) (c.reg rs1 == c.reg rs2) ((c.reg rs2).slt (c.reg rs1)))) rfl ?_
  rw [Dev.arcIssue_of_acts ha, arcCompare_int]
  obtain ⟨regs, preds', clamp', arm'⟩ := Dev.arcPutPred_facts (s.dev.arcFetched i) i.eng p
    ([a == b, a != b, a.slt b, a.sle b, b.slt a, b.sle a].getD cf.val false)
  refine ⟨(ArcFrame.arcFetched s.dev i [] []).arcPutPred p _, regs.trans (Dev.regs_arcFetched s.dev i), ?_, ?_, clamp'.trans clamp,
    arm'.trans arm⟩
  · intro h
    rw [preds' p (by omega), if_pos ⟨h, rfl⟩]
  · intro o ho h
    rw [preds' o ho, if_neg (by omega), preds]

/-- Settles O38, row by row. -/
theorem arcMovesWriteOneRegister : Obligations.ArcMovesWriteOneRegister := by
  intro s i rd rs1 rs2 imm im q cf p cw sw port ha c a b coef stores
  have coefs (w : Nat) : (s.dev.arcFetched i).arcCoef i.eng c w = coef w := Dev.arcCoef_arcFetched s.dev i c w
  have alu (fn : Fin 8) : ArcTakes (.arcAlu i fn rd rs1 rs2) s i rd (arcAlu fn a b) := ArcTakes.of_arcPut ha rfl rfl
  refine ⟨completes_of_arcIssue_nothing ha (rfl : _ = s.on fun d => d.arcIssue i fun _ d => d) rfl, .of_arcPut ha rfl rfl, .of_arcPut ha rfl rfl,
    .of_arcPut ha rfl (zeroExtend_shiftLeft_16 im), .of_arcPut ha rfl ?sel, alu 0, alu 1, alu 2, alu 3, alu 4, alu 5, alu 6, alu 7,
    .of_arcPut ha rfl rfl, .of_arcPut ha rfl (coefs _), .of_arcPut ha rfl rfl, .of_arcPut ha rfl (coefs _), .of_arcPut ha rfl rfl,
    completes_of_arcPutWord (w := fun _ => sw.toNat) (f := fun c => c.reg rd) ha rfl,
    completes_of_arcPutWord (w := fun c => (c.reg rs1).toNat % 1024) (f := fun c => c.reg rs2) ha rfl, .of_arcPut ha rfl rfl, .of_arcPut ha rfl rfl,
    .of_arcPut ha rfl rfl, .of_arcPut ha rfl ?swapped, .of_arcPut ha rfl ?sample, completes_arcCmp_int ha cf p rs1 rs2⟩
  case sel =>
    show (if c.pred (q.toNat % 8) != q.getLsbD 3 then a else b) = _
    cases c.pred (q.toNat % 8) <;> cases q.getLsbD 3 <;> rfl
  case swapped =>
    show BitVec.ofNat 32 ((s.dev.arcFetched i).arcEng i.eng).swapped.toNat = _
    rw [Dev.swapped_arcFetched]
    cases (s.dev.arcEng i.eng).swapped <;> rfl
  case sample =>
    simp only [Dev.arcPair_arcFetched, Dev.runsFor_arcFetched]

end Sys2Proof.Machine

/-! PROOFS. Arc arithmetic (O39): saturation, accumulators, and the comparison of FP32 values. -/

namespace Sys2Proof.Machine

/-! ## Saturation (R183) -/

/-- A saturating 32-bit result is the nearest number, with SAT where that is not the exact one. -/
theorem sat32_eq_qNear (v : Int) : qval (sat32 v).1 = (qNear v).1 ∧ (sat32 v).2 = { sat := (qNear v).2 } := by
  unfold sat32 qNear qval
  by_cases low : v < -2147483648
  · rw [if_pos low, decide_eq_true (.inl low), show ((0x80000000 : Word)).toInt = -2147483648 from rfl]
    exact ⟨by omega, rfl⟩
  by_cases high : 2147483647 < v
  · rw [if_neg low, if_pos high, decide_eq_true (.inr high), show ((0x7fffffff : Word)).toInt = 2147483647 from rfl]
    exact ⟨by omega, rfl⟩
  · rw [if_neg low, if_neg high, decide_eq_false (by omega), BitVec.toInt_ofInt_eq_self (by decide) (by omega) (by omega)]
    exact ⟨by omega, rfl⟩

/-- A saturating accumulator result is the nearest 64-bit number, with SAT where that is not the exact one. -/
theorem sat64_eq (v : Int) : (sat64 v).1.toInt = max (-2 ^ 63) (min (2 ^ 63 - 1) v) ∧
    (sat64 v).2 = { sat := decide (v < -2 ^ 63 ∨ 2 ^ 63 ≤ v) } := by
  unfold sat64
  by_cases low : v < -9223372036854775808
  · rw [if_pos low, decide_eq_true (by omega), show ((0x8000000000000000 : DWord)).toInt = -9223372036854775808 from rfl]
    exact ⟨by omega, rfl⟩
  by_cases high : 9223372036854775807 < v
  · rw [if_neg low, if_pos high, decide_eq_true (by omega),
      show ((0x7fffffffffffffff : DWord)).toInt = 9223372036854775807 from rfl]
    exact ⟨by omega, rfl⟩
  · rw [if_neg low, if_neg high, decide_eq_false (by omega), BitVec.toInt_ofInt_eq_self (by decide) (by omega) (by omega)]
    exact ⟨by omega, rfl⟩

/-- A row that gives a saturating result gives the number nearest to the exact one. -/
theorem ArcGives.nearest {c : Instr} {s : State} {i : ArcIssue} {rd : ArcReg} {v : Int} (h : ArcGives c s i rd (sat32 v)) :
    Completes c s fun d => qval ((d.arcEng i.eng).ctx.reg rd) = (qNear v).1 ∧
      ArcFrame s.dev d i [rd] [] ∧ ArcBitsStand s.dev d i.eng ∧ ArcFlags s.dev d i.eng { sat := (qNear v).2 } := by
  obtain ⟨d, run, value, frame, bits, flags⟩ := h
  obtain ⟨near, sat⟩ := sat32_eq_qNear v
  rw [sat] at flags
  exact ⟨d, run, by rw [value, near], frame, bits, flags⟩

/-- QSCL to the left. -/
theorem arcQscl_of_nonneg {sc : BitVec 5} (h : 0 ≤ sc.toInt) (a : Word) : arcQscl sc a = sat32 (qval a * 2 ^ sc.toInt.toNat) :=
  if_neg (by omega)

/-- QSCL to the right rounds half up. -/
theorem arcQscl_of_neg {sc : BitVec 5} (h : sc.toInt < 0) (a : Word) :
    arcQscl sc a = sat32 ((qval a + 2 ^ ((-sc.toInt).toNat - 1)) / 2 ^ (-sc.toInt).toNat) := by
  have shifts : ¬(-sc.toInt).toNat = 0 := by omega
  unfold arcQscl roundShift
  rw [if_pos h, if_neg shifts]

/-! ## Accumulators (R182) -/

theorem ArcCtx.acc_arcPut_pair (d : Dev) (e : Nat) (x : Fin 16) (v : DWord) :
    ((((d.arcPut e (accPair x).1 (v.setWidth 32)).arcPut e (accPair x).2 ((v >>> 32).setWidth 32))).arcEng e).ctx.acc x = v.toInt := by
  have joined : ((v >>> 32).setWidth 32 ++ v.setWidth 32 : BitVec 64) = v := by
    apply BitVec.eq_of_getLsbD_eq
    intro j hj
    simp only [BitVec.getLsbD_append, BitVec.getLsbD_setWidth, BitVec.getLsbD_ushiftRight]
    by_cases h : j < 32
    · simp [h]
    · simp [h, show j - 32 < 32 by omega, show 32 + (j - 32) = j by omega]
  unfold Dev.arcPut
  rw [Dev.arcEng_onEng_self, Dev.arcEng_onEng_self]
  unfold ArcCtx.acc accOf
  rw [Tab.get_set_self, Tab.get_set_ne _ _ (by simp [accPair]), Tab.get_set_self, joined]

/-- QMAC, by its function: the accumulator takes the nearest 64-bit number. -/
theorem completes_arcQmac {s : State} {i : ArcIssue} (ha : s.dev.arcActs i = true) (fn : Fin 3) (x : Fin 16) (rs1 rs2 : ArcReg) {v : Int}
    (hv : arcQmac fn ((s.dev.arcSees i).acc x) ((s.dev.arcSees i).reg rs1) ((s.dev.arcSees i).reg rs2) = sat64 v) :
    Completes (.arcQmac i fn x rs1 rs2) s fun d =>
      (d.arcEng i.eng).ctx.acc x = max (-2 ^ 63) (min (2 ^ 63 - 1) v) ∧ ArcFrame s.dev d i [2 * x.val, 2 * x.val + 1] [] ∧
      ArcBitsStand s.dev d i.eng ∧ ArcFlags s.dev d i.eng { sat := decide (v < -2 ^ 63 ∨ 2 ^ 63 ≤ v) } := by
  obtain ⟨near, sat⟩ := sat64_eq v
  refine ⟨_, (rfl : exec (.arcQmac i fn x rs1 rs2) s = _), ?_⟩
  simp only [Dev.arcIssue_of_acts ha, hv]
  refine ⟨?_, (((ArcFrame.arcFetched s.dev i _ []).arcPut (by simp [accPair]) _).arcPut (by simp [accPair]) _).arcRaise _,
    (((ArcBitsStand.arcFetched s.dev i).arcPut _ _).arcPut _ _).arcRaise _, ?_⟩
  · rw [Dev.arcEng_arcRaise, ArcCtx.acc_arcPut_pair, near]
  · rw [sat]
    exact ArcFlags.arcRaise i.eng _ (Dev.regs_arcFetched s.dev i)

/-! ## Comparison of FP32 values (R184) -/

theorem completes_arcCmp_float {s : State} {i : ArcIssue} (ha : s.dev.arcActs i = true) (cf : Fin 6) (p : Fin 8) (rs1 rs2 : ArcReg)
    (hp : 2 ≤ p.val) :
    let a := (s.dev.arcSees i).reg rs1
    let b := (s.dev.arcSees i).reg rs2
    Completes (.arcCmp i true cf p rs1 rs2) s fun d => ArcFrame s.dev d i [] [] ∧
      (d.arcEng i.eng).ctx.preds.getLsbD p = [(fltOf a).eqv (fltOf b), !(fltOf a).eqv (fltOf b), (fltOf a).lt (fltOf b),
        (fltOf a).lt (fltOf b) || (fltOf a).eqv (fltOf b), (fltOf b).lt (fltOf a),
        (fltOf b).lt (fltOf a) || (fltOf a).eqv (fltOf b)].getD cf.val false ∧
      ArcFlags s.dev d i.eng { nan := isNan a || isNan b } := by
  intro a b
  have compared (lt eq gt : Bool) : arcCompare cf lt eq gt = [eq, !eq, lt, lt || eq, gt, gt || eq].getD cf.val false := by
    fin_cases cf <;> rfl
  have nan : nanOf [a, b] = { nan := isNan a || isNan b } := by simp [nanOf]
  refine ⟨_, (rfl : exec (.arcCmp i true cf p rs1 rs2) s = _), ?_⟩
  simp only [Dev.arcIssue_of_acts ha, if_true, compared]
  refine ⟨((ArcFrame.arcFetched s.dev i [] []).arcPutPred p _).arcRaise _, ?_, ?_⟩
  · obtain ⟨_, preds, _, _⟩ := Dev.arcPutPred_facts (s.dev.arcFetched i) i.eng p (_ : Bool)
    rw [Dev.arcEng_arcRaise, preds p p.isLt, if_pos ⟨hp, rfl⟩]
  · obtain ⟨regs, _⟩ := Dev.arcPutPred_facts (s.dev.arcFetched i) i.eng p (_ : Bool)
    rw [nan]
    exact ArcFlags.arcRaise i.eng _ (regs.trans (Dev.regs_arcFetched s.dev i))

/-- Settles O39, row by row. -/
theorem arcArithmeticSaturatesAndFlags : Obligations.ArcArithmeticSaturatesAndFlags := by
  intro s i rd rs1 rs2 x sh sc cf p ch ha c a b q acc prod
  have qalu (fn : Fin 4) : ArcGives (.arcQalu i fn rd rs1 rs2) s i rd (arcQalu fn a b) := .of_arcRes ha rfl rfl
  have qscl : ArcGives (.arcQscl i sc rd rs1) s i rd (arcQscl sc a) := .of_arcRes ha rfl rfl
  have falu (fn : Fin 7) : ArcGives (.arcFalu i fn rd rs1 rs2) s i rd (arcFalu fn a b) := .of_arcRes ha rfl rfl
  have fmac (minus : Bool) : ArcGives (.arcFmac i minus rd rs1 rs2) s i rd (ffma minus a b (c.reg rd)) := .of_arcRes ha rfl rfl
  have fcvt (fn : Fin 4) : ArcGives (.arcFcvt i fn rd rs1) s i rd (arcFcvt fn a) := .of_arcRes ha rfl rfl
  refine ⟨(qalu 0).nearest, (qalu 1).nearest, (qalu 2).nearest, (qalu 3).nearest, ?qmul, ?qrnd, ?left, ?right,
    completes_arcQmac ha 0 x rs1 rs2 rfl, completes_arcQmac ha 1 x rs1 rs2 rfl, completes_arcQmac ha 2 x rs1 rs2 rfl,
    falu 0, falu 1, falu 2, falu 3, falu 4, falu 5, falu 6, fmac false, fmac true, .of_arcRes ha rfl rfl,
    fcvt 0, fcvt 1, fcvt 2, fcvt 3, .of_arcRes ha rfl rfl, .of_arcRes ha rfl ?ffa, completes_arcCmp_float ha cf p rs1 rs2⟩
  case qmul => exact (ArcGives.of_arcRes ha rfl rfl : ArcGives _ s i rd (sat32 (roundShift (qval a * qval b) 31))).nearest
  case qrnd => exact (ArcGives.of_arcRes ha rfl rfl : ArcGives _ s i rd (sat32 (roundShift (c.acc x * 2 ^ sh.toNat) 29))).nearest
  case left =>
    intro h
    rw [arcQscl_of_nonneg h] at qscl
    exact qscl.nearest
  case right =>
    intro h
    rw [arcQscl_of_neg h] at qscl
    exact qscl.nearest
  case ffa => simp only [Dev.arcPair_arcFetched, Dev.runsFor_arcFetched]; rfl

end Sys2Proof.Machine

/-! PROOFS. Arc filters and control laws (O40). -/

namespace Sys2Proof.Machine

/-! ## Filters (R182, R185) -/

section
variable {s : State} {i : ArcIssue}

/-- BIQ: rd by its equation, and both states 8 cycles on. -/
theorem completes_arcBiq (ha : s.dev.arcActs i = true) (rd : ArcReg) (cb sb : BitVec 8) {k : Nat → Word}
    (hk : ∀ j, (s.dev.arcFetched i).arcCoef i.eng (s.dev.arcSees i) (8 * cb.toNat + j) = k j) :
    let c := s.dev.arcSees i
    let r := biquad (k 0) (k 1) (k 2) (k 3) (k 4) (c.word (4 * sb.toNat)) (c.word (4 * sb.toNat + 1)) (c.reg rd)
    Completes (.arcBiq i rd cb sb) s fun d => (d.arcEng i.eng).ctx.reg rd = r.1.1 ∧
      ArcFrame s.dev d i [rd] [] [(i.cycle + 8, 4 * sb.toNat, r.1.2.1), (i.cycle + 8, 4 * sb.toNat + 1, r.1.2.2)] ∧
      ArcBitsStand s.dev d i.eng := by
  intro c r
  refine ⟨_, (rfl : exec (.arcBiq i rd cb sb) s = _), ?_⟩
  simp only [Dev.arcIssue_of_acts ha, hk]
  refine ⟨?_, ((((ArcFrame.arcFetched s.dev i [rd.val] []).arcPutLater _ _ _).arcPutLater _ _ _).arcPut (by simp) _).arcRaise _,
    ((((ArcBitsStand.arcFetched s.dev i).arcPutLater _ _ _).arcPutLater _ _ _).arcPut _ _).arcRaise _⟩
  rw [Dev.arcEng_arcRaise, Dev.reg_arcPut_self]

/-- LL: rd by its equation, and the state 6 cycles on. -/
theorem completes_arcLl (ha : s.dev.arcActs i = true) (rd : ArcReg) (cb sb : BitVec 8) {k : Nat → Word}
    (hk : ∀ j, (s.dev.arcFetched i).arcCoef i.eng (s.dev.arcSees i) (8 * cb.toNat + j) = k j) :
    let c := s.dev.arcSees i
    let r := leadLag (k 0) (k 1) (k 2) (c.word (4 * sb.toNat)) (c.reg rd)
    Completes (.arcLl i rd cb sb) s fun d => (d.arcEng i.eng).ctx.reg rd = r.1.1 ∧
      ArcFrame s.dev d i [rd] [] [(i.cycle + 6, 4 * sb.toNat, r.1.2)] ∧ ArcBitsStand s.dev d i.eng := by
  intro c r
  refine ⟨_, (rfl : exec (.arcLl i rd cb sb) s = _), ?_⟩
  simp only [Dev.arcIssue_of_acts ha, hk]
  refine ⟨?_, (((ArcFrame.arcFetched s.dev i [rd.val] []).arcPutLater _ _ _).arcPut (by simp) _).arcRaise _,
    (((ArcBitsStand.arcFetched s.dev i).arcPutLater _ _ _).arcPut _ _).arcRaise _⟩
  rw [Dev.arcEng_arcRaise, Dev.reg_arcPut_self]

/-! ## Clamps (R182, R184) -/

/-- An integer clamp whose limits are in order. -/
theorem arcClamp_int {x lo hi : Word} (h : lo.sle hi = true) :
    arcClamp true x lo hi = (if x.slt lo then lo else if hi.slt x then hi else x, x.slt lo || hi.slt x) := by
  rw [BitVec.sle_iff_toInt_le] at h
  simp only [arcClamp, if_true]
  by_cases above : hi.slt x = true
  · have high := BitVec.slt_iff_toInt_lt.mp above
    have within : x.slt lo = false := by rw [BitVec.slt_eq_decide, decide_eq_false (by omega)]
    have ordered : hi.slt lo = false := by rw [BitVec.slt_eq_decide, decide_eq_false (by omega)]
    simp [above, within, ordered]
  · simp [Bool.not_eq_true _ ▸ above]

/-- A clamp bit written: it holds what was written, and the others what they held. -/
theorem Dev.clamp_arcPutClamp (d : Dev) (e : Nat) (cl : Nat) (b : Bool) {o : Nat} (ho : o < 8) :
    ((d.arcPutClamp e cl b).arcEng e).ctx.clamp.getLsbD o = if o = cl then b else (d.arcEng e).ctx.clamp.getLsbD o := by
  unfold Dev.arcPutClamp
  rw [Dev.arcEng_onEng_self]
  exact getLsbD_setBit8 _ _ ho

/-- The value and the clamp bit that a CLAMP leaves. -/
theorem Dev.clamped_facts (d : Dev) (e : Nat) (rd : ArcReg) (cl : Fin 8) (r : Word × Bool) :
    let d' := (d.arcPut e rd r.1).arcPutClamp e cl r.2
    (d'.arcEng e).ctx.reg rd = r.1 ∧ (d'.arcEng e).ctx.clamp.getLsbD cl = r.2 ∧
      (∀ o < 8, o ≠ cl.val → (d'.arcEng e).ctx.clamp.getLsbD o = (d.arcEng e).ctx.clamp.getLsbD o) ∧ d'.regs = d.regs := by
  intro d'
  refine ⟨?_, ?_, fun o ho ne => ?_, rfl⟩
  · have stands : (d'.arcEng e).ctx.reg rd = ((d.arcPut e rd r.1).arcEng e).ctx.reg rd := by
      simp only [d', Dev.arcPutClamp, Dev.arcEng_onEng_self]
      rfl
    rw [stands, Dev.reg_arcPut_self]
  · rw [Dev.clamp_arcPutClamp _ _ _ _ cl.isLt, if_pos rfl]
  · rw [Dev.clamp_arcPutClamp _ _ _ _ ho, if_neg ne]
    unfold Dev.arcPut
    rw [Dev.arcEng_onEng_self]

theorem completes_arcClamp_int (ha : s.dev.arcActs i = true) (cl : Fin 8) {rd rs1 rs2 : ArcReg} {r : Word × Bool}
    (hr : arcClamp true ((s.dev.arcSees i).reg rd) ((s.dev.arcSees i).reg rs1) ((s.dev.arcSees i).reg rs2) = r) :
    Completes (.arcClamp i true cl rd rs1 rs2) s fun d =>
      (d.arcEng i.eng).ctx.reg rd = r.1 ∧ (d.arcEng i.eng).ctx.clamp.getLsbD cl = r.2 ∧
      (∀ o < 8, o ≠ cl.val → (d.arcEng i.eng).ctx.clamp.getLsbD o = (s.dev.arcEng i.eng).ctx.clamp.getLsbD o) ∧
      ArcFrame s.dev d i [rd] [] ∧ d.regs = s.dev.regs := by
  refine ⟨_, (rfl : exec (.arcClamp i true cl rd rs1 rs2) s = _), ?_⟩
  simp only [Dev.arcIssue_of_acts ha, hr, Bool.not_true, Dev.when_false]
  obtain ⟨value, bit, others, regs⟩ := (s.dev.arcFetched i).clamped_facts i.eng rd cl r
  obtain ⟨_, clamp, _⟩ := ArcBitsStand.arcFetched s.dev i
  refine ⟨value, bit, fun o ho ne => ?_, ((ArcFrame.arcFetched s.dev i [rd.val] []).arcPut (by simp) _).arcPutClamp _ _,
    regs.trans (Dev.regs_arcFetched s.dev i)⟩
  rw [← clamp]
  exact others o ho ne

theorem completes_arcClamp_float (ha : s.dev.arcActs i = true) (cl : Fin 8) (rd rs1 rs2 : ArcReg) :
    let x := (s.dev.arcSees i).reg rd
    let a := (s.dev.arcSees i).reg rs1
    let b := (s.dev.arcSees i).reg rs2
    Completes (.arcClamp i false cl rd rs1 rs2) s fun d =>
      (d.arcEng i.eng).ctx.reg rd = (arcClamp false x a b).1 ∧
      (d.arcEng i.eng).ctx.clamp.getLsbD cl = (arcClamp false x a b).2 ∧ ArcFrame s.dev d i [rd] [] ∧
      ArcFlags s.dev d i.eng { nan := isNan x || isNan a || isNan b } := by
  intro x a b
  have nan : nanOf [x, a, b] = { nan := isNan x || isNan a || isNan b } := by simp [nanOf, Bool.or_assoc]
  refine ⟨_, (rfl : exec (.arcClamp i false cl rd rs1 rs2) s = _), ?_⟩
  simp only [Dev.arcIssue_of_acts ha, Bool.not_false, Dev.when_true, Dev.arcEng_arcRaise]
  obtain ⟨value, bit, _, regs⟩ := (s.dev.arcFetched i).clamped_facts i.eng rd cl (arcClamp false x a b)
  refine ⟨value, bit, (((ArcFrame.arcFetched s.dev i [rd.val] []).arcPut (by simp) _).arcPutClamp _ _).arcRaise _, ?_⟩
  rw [nan]
  exact ArcFlags.arcRaise i.eng _ (regs.trans (Dev.regs_arcFetched s.dev i))

/-! ## INTEG and PRESET (R186, R187) -/

theorem arcGives_arcInteg (ha : s.dev.arcActs i = true) {cl : Fin 8} (rd rs1 rs2 : ArcReg)
    (h : (s.dev.arcSees i).clamp.getLsbD cl = false) :
    ArcGives (.arcInteg i cl rd rs1 rs2) s i rd
      (ffma false ((s.dev.arcSees i).reg rs1) ((s.dev.arcSees i).reg rs2) ((s.dev.arcSees i).reg rd)) :=
  .of_arcIssue ha rfl (by rw [h]; rfl)

/-- The bumpless form of PRESET that takes effect. -/
theorem completes_arcPreset_bumpless (ha : s.dev.arcActs i = true) {cl : Fin 8} (rd rs1 rs2 : ArcReg)
    (harm : (s.dev.arcSees i).arm.getLsbD cl = true) (hclamp : (s.dev.arcSees i).clamp.getLsbD cl = false) :
    let r := fsub ((s.dev.arcSees i).reg rs1) ((s.dev.arcSees i).reg rs2)
    Completes (.arcPreset i true cl rd rs1 rs2) s fun d =>
      (d.arcEng i.eng).ctx.reg rd = r.1 ∧ (d.arcEng i.eng).ctx.arm.getLsbD cl = false ∧
      ArcFrame s.dev d i [rd] [] ∧ ArcFlags s.dev d i.eng r.2 := by
  intro r
  refine ⟨_, (rfl : exec (.arcPreset i true cl rd rs1 rs2) s = _), ?_⟩
  simp only [Dev.arcIssue_of_acts ha, Bool.not_true, Bool.false_eq_true, if_false, harm, hclamp, Bool.not_false, Bool.and_self, if_true]
  refine ⟨?_, ?_, (((ArcFrame.arcFetched s.dev i [rd.val] []).arcPut (by simp) _).arcRaise _).onBits
    (fun a => a.ctx.preds) (fun a => a.ctx.clamp) (fun a => setBit8 a.ctx.arm cl false) (fun a => a.sig), 
    ArcFlags.arcRaise i.eng _ (Dev.regs_arcFetched s.dev i)⟩
  · rw [Dev.arcEng_onEng_self]
    show ((((s.dev.arcFetched i).arcPut i.eng rd r.1).arcRaise i.eng r.2).arcEng i.eng).ctx.reg rd = r.1
    rw [Dev.arcEng_arcRaise, Dev.reg_arcPut_self]
  · rw [Dev.arcEng_onEng_self, getLsbD_setBit8 _ _ cl.isLt, if_pos rfl]

end

/-- Settles O40, law by law. -/
theorem arcControlLawsFreezeAndPreset : Obligations.ArcControlLawsFreezeAndPreset := by
  intro s i rd rs1 rs2 cl cb sb ha c a b x k w y quiet
  have coefs (j : Nat) : (s.dev.arcFetched i).arcCoef i.eng c (8 * cb.toNat + j) = k j := by
    rw [Dev.arcCoef_arcFetched, ← Nat.add_assoc]
  refine ⟨completes_arcBiq ha rd cb sb coefs, completes_arcLl ha rd cb sb coefs, arcGives_arcInteg ha rd rs1 rs2, ?frozen, ?int,
    completes_arcClamp_float ha cl rd rs1 rs2, .of_arcRes ha rfl rfl, completes_arcPreset_bumpless ha rd rs1 rs2, ?idle⟩
  case frozen => 
    intro h
    exact completes_of_arcIssue_nothing ha rfl (if_pos h)
  case int =>
    intro h
    exact completes_arcClamp_int ha cl (arcClamp_int h)
  case idle =>
    intro h
    have idle : ¬(c.arm.getLsbD cl && !c.clamp.getLsbD cl) = true := by
      rw [Bool.and_eq_true, Bool.not_eq_true']
      rintro ⟨arm, clamp⟩
      rcases h with h | h
      · exact Bool.false_ne_true (h.symm.trans arm)
      · exact Bool.false_ne_true (clamp.symm.trans h)
    exact completes_of_arcIssue_nothing ha rfl (if_neg idle)

end Sys2Proof.Machine

/-! PROOFS. Arc pairs: what the compare unit, the ports and the events leave of engines, pairs and their registers (O41, O42). -/

namespace Sys2Proof.Machine

/-! ## Engines and pairs among the block's parts -/

section
variable (d : Dev) (e p : Nat) (g : ArcSt → ArcSt) (h : ArcPairSt → ArcPairSt)

@[simp] theorem Dev.arcEng_onPair (o : Nat) : (d.onPair p h).arcEng o = d.arcEng o := rfl
@[simp] theorem Dev.bit_onPair (f : Field) : (d.onPair p h).bit f = d.bit f := rfl
@[simp] theorem Dev.pairEngines_onPair (q : Nat) : (d.onPair p h).pairEngines q = d.pairEngines q := rfl

@[simp] theorem Dev.regs_onPair : (d.onPair p h).regs = d.regs := rfl
@[simp] theorem Dev.ports_onPair : (d.onPair p h).arc.ports = d.arc.ports := rfl
@[simp] theorem Dev.eng_onPair : (d.onPair p h).arc.eng = d.arc.eng := rfl

@[simp] theorem Dev.arcPair_onPair_self : (d.onPair p h).arcPair p = h (d.arcPair p) := Tab.get_set_self d.arc.pair p _

theorem Dev.arcPair_onPair_ne {q : Nat} (hq : q ≠ p) : (d.onPair p h).arcPair q = d.arcPair q :=
  Tab.get_set_ne d.arc.pair _ hq

end

/-! ## The engines of a pair -/

/-- A pair's engines are read from the roles and pairs of the engines' control registers. -/
theorem Dev.pairEngines_congr {d d' : Dev} (h : ∀ e < 8, d'.reg (Adr.ARC_CTRL e) = d.reg (Adr.ARC_CTRL e)) (p : Nat) :
    d'.pairEngines p = d.pairEngines p := by
  have pairs : (List.range 8).filter (fun e => d'.pairOf e == p) = (List.range 8).filter fun e => d.pairOf e == p :=
    List.filter_congr fun e he => by
      rw [Dev.pairOf, Dev.pairOf, Dev.fld_of_reg_eq (h e (List.mem_range.mp he))]
  have roles (r : Nat) : ((List.range 8).filter fun e => d.pairOf e == p).filter (fun e => d'.fld (Fld.ARC_CTRL_ROLE e) == r) =
      ((List.range 8).filter fun e => d.pairOf e == p).filter fun e => d.fld (Fld.ARC_CTRL_ROLE e) == r :=
    List.filter_congr fun e he => by
      rw [Dev.fld_of_reg_eq (h e (List.mem_range.mp (List.mem_filter.mp he).1))]
  simp only [Dev.pairEngines, pairs, roles]

theorem Dev.mem_pairEngines {d : Dev} {p e : Nat} : e ∈ d.pairEngines p ↔
    e < 8 ∧ d.pairOf e = p ∧ (d.fld (Fld.ARC_CTRL_ROLE e) = roleLead ∨ d.fld (Fld.ARC_CTRL_ROLE e) = roleCheck) := by
  simp only [Dev.pairEngines, List.mem_append, List.mem_filter, List.mem_range, beq_iff_eq]
  tauto

theorem Dev.pairEngines_lt {d : Dev} {p e : Nat} (h : e ∈ d.pairEngines p) : e < 8 := (Dev.mem_pairEngines.mp h).1

/-- No engine is in a pair twice. -/
theorem Dev.pairEngines_nodup (d : Dev) (p : Nat) : (d.pairEngines p).Nodup := by
  have range := (List.nodup_range (n := 8)).filter fun e => d.pairOf e == p
  refine List.Nodup.append (range.filter _) (range.filter _) fun e lead check => ?_
  have one := beq_iff_eq.mp (List.mem_filter.mp lead).2
  have two := beq_iff_eq.mp (List.mem_filter.mp check).2
  exact absurd (one.symm.trans two) (by decide)

/-! ## A change for every engine of a list -/

/-- A field put for every engine of a list holds the value in each. -/
theorem Dev.bit_each_putBit_self {f : Nat → Field} {b : Bool} {o : Nat} (hw : (f o).width = 1) (hf : (f o).lo + (f o).width ≤ 32) :
    ∀ (xs : List Nat) (d : Dev), o ∈ xs → (∀ x ∈ xs, x ≠ o → (f x).adr ≠ (f o).adr) →
      (d.each xs fun d x => d.putBit (f x) b).bit (f o) = b
  | [], _, ho, _ => absurd ho List.not_mem_nil
  | x :: xs, d, ho, apart => by
    by_cases hx : o ∈ xs
    · exact Dev.bit_each_putBit_self hw hf xs _ hx fun y hy => apart y (List.mem_cons_of_mem _ hy)
    · have head : o = x := (List.mem_cons.mp ho).resolve_right hx
      have first : (d.putBit (f x) b).bit (f o) = b := by rw [← head]; exact Dev.bit_putBit_self d _ b hw hf
      have rest : SameRegs (d.putBit (f x) b) ((d.putBit (f x) b).each xs fun d x => d.putBit (f x) b) (xs.map fun x => (f x).adr) :=
        SameRegs.each xs (fun n y hy => (SameRegs.refl n _).putBit (List.mem_map_of_mem (f := fun x => (f x).adr) hy)) _
      refine (rest.bit fun hm => ?_).trans first
      obtain ⟨y, hy, same⟩ := List.mem_map.mp hm
      exact apart y (List.mem_cons_of_mem _ hy) (fun he => hx (he ▸ hy)) same

/-- A counter of every engine of a list, none twice, counts once in each. -/
theorem Dev.reg_each_count_self {f : Nat → Nat} {o : Nat} : ∀ (xs : List Nat) (d : Dev), xs.Nodup → o ∈ xs →
    (∀ x ∈ xs, x ≠ o → f x ≠ f o) → (d.each xs fun d x => d.count (f x)).reg (f o) = d.counted (f o) 1
  | [], _, _, ho, _ => absurd ho List.not_mem_nil
  | x :: xs, d, nodup, ho, apart => by
    obtain ⟨fresh, nodup⟩ := List.nodup_cons.mp nodup
    by_cases hx : o ∈ xs
    · have ne : x ≠ o := fun he => fresh (he ▸ hx)
      refine (Dev.reg_each_count_self xs _ nodup hx fun y hy => apart y (List.mem_cons_of_mem _ hy)).trans ?_
      have stands : (d.count (f x)).reg (f o) = d.reg (f o) :=
        Dev.reg_setReg_ne d _ fun he => apart x List.mem_cons_self ne he.symm
      rw [Dev.counted, Dev.counted, stands]
    · have head : o = x := (List.mem_cons.mp ho).resolve_right hx
      have rest : SameRegs (d.count (f x)) ((d.count (f x)).each xs fun d x => d.count (f x)) (xs.map f) :=
        SameRegs.each xs (fun n y hy => (SameRegs.refl n _).count (List.mem_map_of_mem hy)) _
      refine (rest _ fun hm => ?_).trans ?_
      · obtain ⟨y, hy, same⟩ := List.mem_map.mp hm
        exact apart y (List.mem_cons_of_mem _ hy) (fun he => hx (he ▸ hy)) same
      · rw [head]
        exact Dev.reg_setReg_self d _ _

/-! ## What ports and events leave -/

/-- A register outside the Arc engines and their loader. -/
def OutsideArc (a : Nat) : Prop := a < 0x80000 ∨ 0xa0000 ≤ a

/-- d' differs from d in nothing of the engines, in the event FIFO and its loss of the pairs, in EVT_LOST and the event counters of the engines'
registers, in no unit, and in whatever lies outside the Arc engines. -/
structure ArcStands (d d' : Dev) : Prop where
  eng : d'.arc.eng = d.arc.eng
  loading : d'.arc.loading = d.arc.loading
  pair : ∀ p, d'.arcPair p = { d.arcPair p with fifo := (d'.arcPair p).fifo, lost := (d'.arcPair p).lost }
  units : d'.units = d.units
  status : ∀ e lo w, e < 8 → lo + w ≤ 13 ∨ 14 ≤ lo →
    fieldOf (d'.reg (Adr.ARC_STATUS e)) lo w = fieldOf (d.reg (Adr.ARC_STATUS e)) lo w
  regs : ∀ a, ¬OutsideArc a → (∀ e < 8, a ≠ Adr.ARC_STATUS e) → (∀ e < 8, ∀ k, 6 ≤ k → k < 8 → a ≠ Adr.ARC_CNT e k) →
    d'.reg a = d.reg a

namespace ArcStands
variable {d d' : Dev}

theorem refl (d : Dev) : ArcStands d d :=
  ⟨rfl, rfl, fun _ => rfl, rfl, fun _ _ _ _ _ => rfl, fun _ _ _ _ => rfl⟩

theorem trans {d'' : Dev} (h : ArcStands d d') (h' : ArcStands d' d'') : ArcStands d d'' where
  eng := h'.eng.trans h.eng
  loading := h'.loading.trans h.loading
  pair p := by rw [h'.pair p, h.pair p]
  units := h'.units.trans h.units
  status e lo w he hb := (h'.status e lo w he hb).trans (h.status e lo w he hb)
  regs a ha hs hc := (h'.regs a ha hs hc).trans (h.regs a ha hs hc)

/-- A change outside the Arc engines but of their ports. -/
theorem other (h : ArcStands d d') {d'' : Dev} (arc : d''.arc = { d'.arc with ports := d''.arc.ports } := by rfl)
    (units : d''.units = d'.units := by rfl) (regs : d''.regs = d'.regs := by rfl) : ArcStands d d'' := by
  refine h.trans ⟨by rw [arc], by rw [arc], fun p => ?_, units, fun _ _ _ _ _ => ?_, fun _ _ _ _ => ?_⟩
  · unfold Dev.arcPair; rw [arc]
  all_goals unfold Dev.reg; rw [regs]

/-- A register outside the Arc engines. -/
theorem setReg (h : ArcStands d d') {a : Nat} {v : Word} (ha : OutsideArc a) : ArcStands d (d'.setReg a v) := by
  have inside (e : Nat) (he : e < 8) : Adr.ARC_STATUS e ≠ a := by
    unfold Adr.ARC_STATUS; rcases ha with ha | ha <;> omega
  refine h.trans ⟨rfl, rfl, fun _ => rfl, rfl, fun e lo w he _ => ?_, fun b hb _ _ => ?_⟩
  · rw [Dev.reg_setReg_ne _ _ (inside e he)]
  · exact Dev.reg_setReg_ne _ _ fun he => hb (he ▸ ha)

theorem put (h : ArcStands d d') {f : Field} {v : Nat} (ha : OutsideArc f.adr) : ArcStands d (d'.put f v) := h.setReg ha

theorem putBit (h : ArcStands d d') {f : Field} {b : Bool} (ha : OutsideArc f.adr) : ArcStands d (d'.putBit f b) := h.setReg ha

theorem countBy (h : ArcStands d d') {a n : Nat} (ha : OutsideArc a) : ArcStands d (d'.countBy a n) := h.setReg ha

theorem count (h : ArcStands d d') {a : Nat} (ha : OutsideArc a) : ArcStands d (d'.count a) := h.setReg ha

/-- A change of registers outside the Arc engines. -/
theorem regFrame (h : ArcStands d d') {d'' : Dev} {l : List Nat} (hr : RegFrame d' d'' l) (hl : ∀ a ∈ l, OutsideArc a) :
    ArcStands d d'' := by
  obtain ⟨only, same⟩ := hr
  have outside (a : Nat) (ha : ¬OutsideArc a) : d''.reg a = d'.reg a := same a fun hm => ha (hl a hm)
  refine h.trans ⟨by rw [only], by rw [only], fun p => ?_, by rw [only], fun e lo w he _ => ?_, fun a ha _ _ => outside a ha⟩
  · have arc : d''.arc = d'.arc := by rw [only]
    unfold Dev.arcPair; rw [arc]
  · rw [outside _ (by unfold OutsideArc Adr.ARC_STATUS; omega)]

/-- A change made where a condition holds. -/
theorem when (h : ArcStands d d') {c : Bool} {f : Dev → Dev} (hf : ArcStands d' (f d')) : ArcStands d (d'.when c f) := by
  cases c with
  | true => exact h.trans hf
  | false => exact h

/-- A change made for every element of a list. -/
theorem each (h : ArcStands d d') {α : Type} {f : Dev → α → Dev} (xs : List α) (hf : ∀ n, ∀ x ∈ xs, ArcStands n (f n x)) :
    ArcStands d (d'.each xs f) := by
  induction xs generalizing d' with
  | nil => exact h
  | cons x xs ih => exact ih (h.trans (hf d' x List.mem_cons_self)) fun n y hy => hf n y (List.mem_cons_of_mem _ hy)

theorem event (h : ArcStands d d') {kind : EventKind} {unit code : Nat} {detail : List Nat} :
    ArcStands d (d'.event kind unit code detail) := by
  have same := d'.sameRegs_event kind unit code detail
  have only := d'.event_only kind unit code detail
  generalize d'.event kind unit code detail = n at same only
  have regs := (ArcStands.refl d').regFrame (d'' := { d' with regs := n.regs }) (l := [Adr.LOCUS_STATUS]) ⟨rfl, same⟩
    (by simp [OutsideArc, Adr.LOCUS_STATUS])
  rw [only]
  exact (h.trans regs).other

/-- Fields of an engine's status other than EVT_LOST. -/
theorem bit_status (h : ArcStands d d') {f : Field} {e : Nat} (he : e < 8) (ha : f.adr = Adr.ARC_STATUS e)
    (hf : f.lo + f.width ≤ 13 ∨ 14 ≤ f.lo) : d'.bit f = d.bit f := by
  refine Dev.bit_of_fld_eq ?_
  unfold Dev.fld
  rw [ha]
  exact h.status e _ _ he hf

theorem arcEng (h : ArcStands d d') (o : Nat) : d'.arcEng o = d.arcEng o := by unfold Dev.arcEng; rw [h.eng]

end ArcStands

end Sys2Proof.Machine

/-! PROOFS. Arc pairs: what event records, guards and output ports leave of the engines and pairs (O41, O42). -/

namespace Sys2Proof.Machine

/-! ## Records (R205, R207) -/

namespace ArcStands
variable {d d' : Dev}

/-- A pair's event FIFO and its loss. -/
theorem onPair (h : ArcStands d d') (p : Nat) (fifo : ArcPairSt → List ArcRecord) (lost : ArcPairSt → Bool) :
    ArcStands d (d'.onPair p fun s => { s with fifo := fifo s, lost := lost s }) := by
  refine h.trans ⟨rfl, rfl, fun q => ?_, rfl, fun _ _ _ _ _ => rfl, fun _ _ _ _ => rfl⟩
  by_cases hq : q = p
  · subst hq; rw [Dev.arcPair_onPair_self]
  · rw [Dev.arcPair_onPair_ne _ _ _ hq]

/-- The event counters of an engine. -/
theorem arcCount (h : ArcStands d d') {e k : Nat} (he : e < 8) (lo : 6 ≤ k) (hi : k < 8) :
    ArcStands d (d'.count (Adr.ARC_CNT e k)) := by
  have apart (o : Nat) : Adr.ARC_STATUS o ≠ Adr.ARC_CNT e k := by unfold Adr.ARC_STATUS Adr.ARC_CNT; omega
  refine h.trans ⟨rfl, rfl, fun _ => rfl, rfl, fun o _ _ _ _ => ?_, fun a _ _ hc => ?_⟩
  · rw [Dev.count, Dev.countBy, Dev.reg_setReg_ne _ _ (apart o)]
  · exact Dev.reg_setReg_ne _ _ (hc e he k lo hi)

/-- EVT_LOST of an engine. -/
theorem evtLost (h : ArcStands d d') {e : Nat} (he : e < 8) (b : Bool) :
    ArcStands d (d'.putBit (Fld.ARC_STATUS_EVT_LOST e) b) := by
  refine h.trans ⟨rfl, rfl, fun _ => rfl, rfl, fun o lo w _ hb => ?_, fun a _ hs _ => ?_⟩
  · have disjoint := Dev.fld_put_ne d' (Fld.ARC_STATUS_EVT_LOST e) ⟨Adr.ARC_STATUS o, lo, w⟩ (if b then 1 else 0)
      (Nat.le_of_ble_eq_true rfl) (.inr (by simp only [Fld.ARC_STATUS_EVT_LOST]; omega))
    exact disjoint
  · exact Dev.reg_setReg_ne _ _ (hs e he)

end ArcStands

theorem Dev.lead_lt (d : Dev) (p : Nat) : (d.pairEngines p).headD 0 < 8 := by
  cases hp : d.pairEngines p with
  | nil => decide
  | cons e es => exact Dev.pairEngines_lt (p := p) (by rw [hp]; exact List.mem_cons_self)

theorem Dev.arcStands_arcRecord (d : Dev) (p code : Nat) (v : Word) : ArcStands d (d.arcRecord p code v) := by
  unfold Dev.arcRecord
  split
  · exact (((ArcStands.refl d).event).onPair p _ fun s => s.lost).arcCount (d.lead_lt p) (by decide) (by decide)
  · have lost : ArcStands d (d.eachEngine p Fld.ARC_STATUS_EVT_LOST true) :=
      (ArcStands.refl d).each _ fun n e he => (ArcStands.refl n).evtLost (Dev.pairEngines_lt he) true
    exact (lost.onPair p (fun s => s.fifo) fun _ => true).arcCount (d.lead_lt p) (by decide) (by decide)

/-- A bit of every engine of a pair changes their registers alone. -/
theorem Dev.regFrame_eachEngine (d : Dev) (p : Nat) (f : Nat → Field) (b : Bool) :
    RegFrame d (d.eachEngine p f b) ((List.range 8).map fun e => (f e).adr) :=
  RegFrame.each _ (fun n _ he => (RegFrame.refl n _).putBit
    (List.mem_map_of_mem (f := fun e => (f e).adr) (List.mem_range.mpr (Dev.pairEngines_lt he)))) d

/-- A record leaves the ports. -/
theorem Dev.ports_arcRecord (d : Dev) (p code : Nat) (v : Word) : (d.arcRecord p code v).arc.ports = d.arc.ports := by
  have stands (n : Dev) (g : ArcPairSt → ArcPairSt) (a : Nat) : ((n.onPair p g).count a).arc.ports = n.arc.ports := rfl
  unfold Dev.arcRecord
  split
  · rw [stands, Dev.event_only]
  · rw [stands, (d.regFrame_eachEngine p Fld.ARC_STATUS_EVT_LOST true).1]

/-- A record that finds room joins the FIFO with its ESN. -/
theorem Dev.fifo_arcRecord (d : Dev) (p code : Nat) (v : Word) (h : (d.arcPair p).fifo.length < arcFifoDepth) :
    ((d.arcRecord p code v).arcPair p).fifo = (d.arcPair p).fifo ++ [⟨d.esn, (d.pairEngines p).headD 0, code, v⟩] := by
  have arc : (d.event .arcRecord p code [(d.pairEngines p).headD 0, v.toNat]).arcPair p = d.arcPair p := by
    unfold Dev.arcPair; rw [Dev.event_only]
  have counted (n : Dev) (a : Nat) : (n.count a).arcPair p = n.arcPair p := rfl
  unfold Dev.arcRecord
  rw [if_pos h, counted, Dev.arcPair_onPair_self, arc]

/-! ## Events (R205, R206) -/

/-- The field of a status write lies outside the Arc engines. -/
theorem outsideArc_statusField {t b : Nat} {f : Field} (h : statusField t b = some f) : OutsideArc f.adr := by
  have reg (k : Nat) : OutsideArc (Adr.SRV_REG k b) := .inr (by unfold Adr.SRV_REG; omega)
  unfold statusField at h
  split_ifs at h
  · exact Option.some.inj h ▸ .inr (by decide)
  · exact Option.some.inj h ▸ .inr (by decide)
  · exact Option.some.inj h ▸ reg 0
  · exact Option.some.inj h ▸ reg 1
  · exact Option.some.inj h ▸ .inr (by decide : 0xa0000 ≤ Adr.MOT_STATUS)

theorem Dev.arcStands_arcEvent (d : Dev) (p code : Nat) (v : Word) : ArcStands d (d.arcEvent p code v) := by
  have counter (k : Nat) : OutsideArc (Adr.SRV_CNT k 7) := .inr (by unfold Adr.SRV_CNT; omega)
  unfold Dev.arcEvent
  by_cases record : code < 0x600
  · rw [if_pos record]
    exact d.arcStands_arcRecord p code v
  rw [if_neg record]
  cases hf : statusField (code / 32 % 8) (code % 32) with
  | none => exact .refl d
  | some f =>
    simp only
    split
    · exact .refl d
    · exact (((ArcStands.refl d).putBit (outsideArc_statusField hf)).when ((ArcStands.refl _).count (counter _))).trans
        (Dev.arcStands_arcRecord _ p code v)

/-! ## Guards (R147, R148) -/

section
variable {d d' : Dev} {h : Nat}

theorem outsideArc_wpCnt {c : Nat} (hh : h < 2) (hc : c < 8) : OutsideArc (Adr.WP_CNT h c) :=
  .inl (by unfold Adr.WP_CNT; omega)

theorem ArcStands.onWp (s : ArcStands d d') (h : Nat) (g : WpSt → WpSt) : ArcStands d (d'.onWp h g) := s.other

theorem ArcStands.showWp (s : ArcStands d d') (hh : h < 2) : ArcStands d (d'.showWp h) :=
  s.regFrame (d'.regFrame_showWp h) (by
    intro a ha
    rw [List.mem_singleton.mp ha]
    exact .inl (by unfold Adr.WP_STATUS; omega))

theorem ArcStands.opcInvalid (s : ArcStands d d') (beams : List Nat) : ArcStands d (d'.opcInvalid h beams) := by
  unfold Dev.opcInvalid
  split
  · split
    · exact s.onWp _ _
    · exact s
  · exact s

theorem ArcStands.inhibitPost (s : ArcStands d d') (hh : h < 2) (code : Nat) (beams : List Nat) {c : Nat} (hc : c < 8) :
    ArcStands d (d'.inhibitPost h code beams (some c)) := by
  unfold Dev.inhibitPost
  exact (s.event.count (outsideArc_wpCnt hh hc)).opcInvalid beams

theorem ArcStands.holdShut (s : ArcStands d d') (ps : List Nat) (bit : Nat) : ArcStands d (d'.holdShut h ps bit) := by
  unfold Dev.holdShut
  split
  · exact s
  · exact s.onWp _ _

theorem ArcStands.shutFrom (s : ArcStands d d') (hh : h < 2) (ps : List Nat) (bit : Nat) : ArcStands d (d'.shutFrom h ps bit) := by
  unfold Dev.shutFrom
  split
  · exact s.onWp _ _
  · exact ((s.holdShut _ _).onWp _ _).countBy (outsideArc_wpCnt hh (by decide))

theorem ArcStands.inhibit (s : ArcStands d d') (hh : h < 2) (code : Nat) (beams : List Nat) {c : Nat} (hc : c < 8) :
    ArcStands d (d'.inhibit h code beams (some c)) :=
  s.when (((ArcStands.refl d').inhibitPost hh code beams hc).shutFrom hh _ _)

theorem ArcStands.inhibitWedge (s : ArcStands d d') (hh : h < 2) (code : Nat) (beams : List Nat) {c : Nat} (hc : c < 8) :
    ArcStands d (d'.inhibitWedge h code beams (some c)) := by
  refine s.when ?_
  refine ArcStands.each ?_ _ fun n b _ => (ArcStands.refl n).shutFrom hh _ _
  exact ((ArcStands.refl d').inhibitPost hh code beams hc).when ((ArcStands.refl _).shutFrom hh _ _)

theorem ArcStands.offtrack (s : ArcStands d d') (hh : h < 2) : ArcStands d (d'.offtrack h) :=
  s.when ((ArcStands.refl d').putBit (.inl (by unfold Fld.WP_STATUS_OFFTRACK Adr.WP_STATUS; simp only; omega)))

theorem ArcStands.guardTrack (s : ArcStands d d') (hh : h < 2) (v : Int) : ArcStands d (d'.guardTrack h v) :=
  ((s.onWp h _).when (((ArcStands.refl _).inhibit hh _ _ (by decide)).offtrack hh)).showWp hh

theorem ArcStands.guardFocus (s : ArcStands d d') (hh : h < 2) (v : Int) : ArcStands d (d'.guardFocus h v) :=
  ((s.onWp h _).when (((ArcStands.refl _).inhibit hh _ _ (by decide)).offtrack hh)).showWp hh

theorem ArcStands.guardReg (s : ArcStands d d') (hh : h < 2) (b : Nat) (v : Int) : ArcStands d (d'.guardReg h b v) := by
  unfold Dev.guardReg
  split
  · exact s
  · exact ((s.onWp h _).when ((ArcStands.refl _).inhibitWedge hh _ _ (by decide))).showWp hh

/-! ## Ports (R193, R208, R213) -/

theorem ArcStands.setPort (s : ArcStands d d') (q : Nat) (v : Int) : ArcStands d (d'.setPort q v) := s.other

theorem ArcStands.setDrive (s : ArcStands d d') (q : Nat) (v : Int) : ArcStands d (d'.setDrive q v) :=
  (s.setPort q v).each _ fun n _ _ => (ArcStands.refl n).other

theorem outsideArc_wpLvl {b : Nat} (hh : h < 2) (hb : b < 10) : OutsideArc (Adr.WP_LVL h b) :=
  .inl (by unfold Adr.WP_LVL; omega)

theorem ArcStands.setLevel (s : ArcStands d d') (hh : h < 2) {b : Nat} (hb : b < 10) (second : Bool) (v : Int) :
    ArcStands d (d'.setLevel h b second v) := by
  have level := outsideArc_wpLvl hh hb
  unfold Dev.setLevel
  split
  · exact s
  · split
    · exact s.put level
    · split
      · split
        · exact s.onWp _ _
        · exact s.put level
      · exact s.put level

/-- A value at an output port stays among the ports, the guards and what lies outside the Arc engines. -/
theorem Dev.arcStands_portWrite (d : Dev) (port : Nat) (w : Word) : ArcStands d (d.portWrite port w) := by
  have self := ArcStands.refl d
  unfold Dev.portWrite
  refine iteInduction (fun head => ?_) fun _ => ?_
  · dsimp only
    have hh : port / 0x80 < 2 := by omega
    have reg (k : Nat) : OutsideArc (Adr.SRV_REG (port / 0x80) k) := .inr (by unfold Adr.SRV_REG; omega)
    refine iteInduction (fun _ => self.setPort _ _) fun _ => ?_
    refine iteInduction (fun _ => self.setPort _ _) fun _ => ?_
    refine iteInduction (fun _ => self.when (self.setPort _ _)) fun _ => ?_
    refine iteInduction (fun _ => (self.setPort _ _).setLevel hh (by omega) _ _) fun _ => ?_
    refine iteInduction (fun _ => (self.setPort _ _).setLevel hh (by omega) _ _) fun _ => ?_
    refine iteInduction (fun _ => (self.setPort _ _).guardTrack hh _) fun _ => ?_
    refine iteInduction (fun _ => (self.setPort _ _).guardFocus hh _) fun _ => ?_
    refine iteInduction (fun _ => (((self.setPort _ _).put (reg _)).putBit (reg _)).guardReg hh _ _) fun _ => ?_
    refine iteInduction (fun _ => (self.setPort _ _).put (reg _)) fun _ => ?_
    exact iteInduction (fun _ => self.setPort _ _) fun _ => self
  · refine iteInduction (fun _ => self.when (self.setDrive _ _)) fun _ => ?_
    refine iteInduction (fun _ => self.when (self.setDrive _ _)) fun _ => ?_
    refine iteInduction (fun _ => self.when (self.setDrive _ _)) fun _ => ?_
    exact iteInduction (fun _ => self.when (self.setDrive _ _)) fun _ => self

end

end Sys2Proof.Machine

/-! PROOFS. The compare unit of Arc pairs (O41): mismatches, what is forwarded, checkpoints and the event stream. -/

namespace Sys2Proof.Machine

/-! ## A flag of a pair, counted and recorded (R196, R202, R207) -/

/-- The status registers of the engines. -/
def arcStatusRegs : List Nat := (List.range 8).map Adr.ARC_STATUS

/-- A counter of the engines. -/
def arcCntRegs (k : Nat) : List Nat := (List.range 8).map fun e => Adr.ARC_CNT e k

theorem Adr.arcCnt_ne_arcStatus (o e : Nat) {k : Nat} (hk : k < 8) : Adr.ARC_CNT o k ≠ Adr.ARC_STATUS e := by
  unfold Adr.ARC_CNT Adr.ARC_STATUS; omega

theorem Adr.arcCnt_ne (o e : Nat) {k j : Nat} (hk : k < 8) (hj : j < 8) (h : k ≠ j) : Adr.ARC_CNT o k ≠ Adr.ARC_CNT e j := by
  unfold Adr.ARC_CNT; omega

theorem Adr.arcCtrl_ne_arcStatus (o e : Nat) : Adr.ARC_CTRL o ≠ Adr.ARC_STATUS e := by
  unfold Adr.ARC_CTRL Adr.ARC_STATUS; omega

theorem Adr.arcCtrl_ne_arcCnt (o e : Nat) {k : Nat} (hk : k < 8) : Adr.ARC_CTRL o ≠ Adr.ARC_CNT e k := by
  unfold Adr.ARC_CTRL Adr.ARC_CNT; omega

theorem Adr.arcPeriod_ne_arcStatus (o e : Nat) : Adr.ARC_PERIOD o ≠ Adr.ARC_STATUS e := by
  unfold Adr.ARC_PERIOD Adr.ARC_STATUS; omega

theorem Adr.arcPeriod_ne_arcCnt (o e : Nat) {k : Nat} (hk : k < 8) : Adr.ARC_PERIOD o ≠ Adr.ARC_CNT e k := by
  unfold Adr.ARC_PERIOD Adr.ARC_CNT; omega

theorem not_mem_arcStatusRegs {a : Nat} (h : ∀ e, a ≠ Adr.ARC_STATUS e) : a ∉ arcStatusRegs := fun hm => by
  obtain ⟨e, _, he⟩ := List.mem_map.mp hm
  exact h e he.symm

theorem not_mem_arcCntRegs {a k : Nat} (h : ∀ e, a ≠ Adr.ARC_CNT e k) : a ∉ arcCntRegs k := fun hm => by
  obtain ⟨e, _, he⟩ := List.mem_map.mp hm
  exact h e he.symm

/-- A status bit of every engine of a pair. -/
theorem Dev.regFrame_eachStatus (d : Dev) (p : Nat) {f : Nat → Field} (hf : ∀ e, (f e).adr = Adr.ARC_STATUS e) (b : Bool) :
    RegFrame d (d.eachEngine p f b) arcStatusRegs := by
  have frame := d.regFrame_eachEngine p f b
  rwa [show ((List.range 8).map fun e => (f e).adr) = arcStatusRegs from List.map_congr_left fun e _ => hf e] at frame

theorem Dev.regFrame_countEngines (d : Dev) (p k : Nat) : RegFrame d (d.countEngines p k) (arcCntRegs k) :=
  RegFrame.each _ (fun n _ he => (RegFrame.refl n _).count
    (List.mem_map_of_mem (f := fun e => Adr.ARC_CNT e k) (List.mem_range.mpr (Dev.pairEngines_lt he)))) d

/-- The registers that say which engines a pair has stand. -/
theorem Dev.pairEngines_of_regFrame {d d' : Dev} {l : List Nat} (h : RegFrame d d' l) (hl : ∀ e < 8, Adr.ARC_CTRL e ∉ l) (p : Nat) :
    d'.pairEngines p = d.pairEngines p := Dev.pairEngines_congr (fun e he => h.2 _ (hl e he)) p

/-- A status bit of every engine of a pair set, and a counter counted. -/
def Dev.flag (d : Dev) (p : Nat) (f : Nat → Field) (k : Nat) : Dev := (d.eachEngine p f true).countEngines p k

theorem Dev.regFrame_flag (d : Dev) (p : Nat) {f : Nat → Field} (hf : ∀ e, (f e).adr = Adr.ARC_STATUS e) (k : Nat) :
    RegFrame d (d.flag p f k) (arcStatusRegs ++ arcCntRegs k) :=
  ((d.regFrame_eachStatus p hf true).mono (List.subset_append_left _ _)).trans
    ((Dev.regFrame_countEngines _ p k).mono (List.subset_append_right _ _))

theorem Dev.bit_flag (d : Dev) (p : Nat) {f : Nat → Field} (hf : ∀ e, (f e).adr = Adr.ARC_STATUS e) {k : Nat} (hk : k < 8) {o : Nat}
    (ho : o ∈ d.pairEngines p) (hw : (f o).width = 1) (hlo : (f o).lo + (f o).width ≤ 32) : (d.flag p f k).bit (f o) = true := by
  refine ((Dev.regFrame_countEngines _ p k).2.bit ?_).trans (Dev.bit_each_putBit_self hw hlo _ d ho fun x _ hx => ?_)
  · rw [hf]
    exact not_mem_arcCntRegs fun e => (Adr.arcCnt_ne_arcStatus e o hk).symm
  · rw [hf, hf]
    unfold Adr.ARC_STATUS; omega

theorem Dev.reg_flag_cnt (d : Dev) (p : Nat) {f : Nat → Field} (hf : ∀ e, (f e).adr = Adr.ARC_STATUS e) {k : Nat} (hk : k < 8) {o : Nat}
    (ho : o ∈ d.pairEngines p) : (d.flag p f k).reg (Adr.ARC_CNT o k) = d.counted (Adr.ARC_CNT o k) 1 := by
  have bits := d.regFrame_eachStatus p hf true
  have engines := Dev.pairEngines_of_regFrame bits (fun e _ => not_mem_arcStatusRegs (Adr.arcCtrl_ne_arcStatus e)) p
  have stands := bits.2 (Adr.ARC_CNT o k) (not_mem_arcStatusRegs fun e => Adr.arcCnt_ne_arcStatus o e hk)
  refine (Dev.reg_each_count_self (f := fun e => Adr.ARC_CNT e k) _ _ (Dev.pairEngines_nodup _ p) (by rwa [engines])
    fun x _ hx => ?_).trans ?_
  · unfold Adr.ARC_CNT; omega
  · rw [Dev.counted, Dev.counted, stands]

/-- A flag of a pair, counted and recorded: it shows in every engine, and engines, ports and pairs stand but for the record. -/
theorem Dev.flagged_spec (d : Dev) (p : Nat) {f : Nat → Field} (hf : ∀ e, (f e).adr = Adr.ARC_STATUS e) {k : Nat} (hk : k < 6)
    (hw : ∀ e, (f e).width = 1) (hlo : ∀ e, (f e).lo + (f e).width ≤ 13) (code : Nat) :
    let m := (d.flag p f k).arcRecord p code 0
    m.arc.eng = d.arc.eng ∧ m.arc.ports = d.arc.ports ∧
    (∀ q, m.arcPair q = { d.arcPair q with fifo := (m.arcPair q).fifo, lost := (m.arcPair q).lost }) ∧
    (∀ o ∈ d.pairEngines p, m.bit (f o) = true ∧ m.reg (Adr.ARC_CNT o k) = d.counted (Adr.ARC_CNT o k) 1) ∧
    ∀ o < 8, m.reg (Adr.ARC_PERIOD o) = d.reg (Adr.ARC_PERIOD o) := by
  intro m
  obtain ⟨only, regs⟩ := d.regFrame_flag p hf k
  have arc : (d.flag p f k).arc = d.arc := by rw [only]
  have record : ArcStands (d.flag p f k) m := Dev.arcStands_arcRecord _ p code 0
  refine ⟨record.eng.trans (congrArg ArcDev.eng arc), (Dev.ports_arcRecord _ p code 0).trans (congrArg ArcDev.ports arc), fun q => ?_,
    fun o ho => ⟨?_, ?_⟩, fun o ho => ?_⟩
  · have pair : (d.flag p f k).arcPair q = d.arcPair q := by unfold Dev.arcPair; rw [arc]
    rw [record.pair q, pair]
  · have small := Dev.pairEngines_lt ho
    rw [record.bit_status small (hf o) (.inl (hlo o))]
    exact d.bit_flag p hf (by omega) ho (hw o) (le_trans (hlo o) (by decide))
  · have small := Dev.pairEngines_lt ho
    rw [record.regs (Adr.ARC_CNT o k) (by unfold OutsideArc Adr.ARC_CNT; omega) (fun e _ => Adr.arcCnt_ne_arcStatus o e (by omega))
      fun e _ j lo hi => Adr.arcCnt_ne o e (by omega) hi (by omega)]
    exact d.reg_flag_cnt p hf (by omega) ho
  · rw [record.regs (Adr.ARC_PERIOD o) (by unfold OutsideArc Adr.ARC_PERIOD; omega) (fun e _ => Adr.arcPeriod_ne_arcStatus o e)
      fun e _ j _ hi => Adr.arcPeriod_ne_arcCnt o e hi]
    refine regs _ fun hm => ?_
    rcases List.mem_append.mp hm with hm | hm
    · exact not_mem_arcStatusRegs (Adr.arcPeriod_ne_arcStatus o) hm
    · exact not_mem_arcCntRegs (fun e => Adr.arcPeriod_ne_arcCnt o e (by omega)) hm

/-- A mismatch that is found shows in every engine of the pair (R202). -/
def Dev.ShowsMismatch (d d' : Dev) (p : Nat) : Prop := ∀ o ∈ d.pairEngines p,
  d'.bit (Fld.ARC_STATUS_MISMATCH o) = true ∧ d'.reg (Adr.ARC_CNT o 2) = d.counted (Adr.ARC_CNT o 2) 1

theorem Dev.ShowsMismatch.of_regs {d n d' : Dev} {p : Nat} (h : n.ShowsMismatch d' p) (hr : n.regs = d.regs) : d.ShowsMismatch d' p := by
  have reg (a : Nat) : n.reg a = d.reg a := by unfold Dev.reg; rw [hr]
  have engines := Dev.pairEngines_congr (fun e _ => reg (Adr.ARC_CTRL e)) p
  intro o ho
  obtain ⟨bit, count⟩ := h o (by rwa [engines])
  exact ⟨bit, by rw [count, Dev.counted, Dev.counted, reg]⟩

theorem Dev.ShowsMismatch.onPair {d d' : Dev} {p : Nat} (h : d.ShowsMismatch d' p) (q : Nat) (g : ArcPairSt → ArcPairSt) :
    d.ShowsMismatch (d'.onPair q g) p := fun o ho => h o ho

theorem Dev.mismatchFound_spec (d : Dev) (p : Nat) :
    let m := d.mismatchFound p
    m.arc.eng = d.arc.eng ∧ m.arc.ports = d.arc.ports ∧
    (∀ q, m.arcPair q = { d.arcPair q with fifo := (m.arcPair q).fifo, lost := (m.arcPair q).lost }) ∧ d.ShowsMismatch m p := by
  obtain ⟨eng, ports, pair, shows, _⟩ := d.flagged_spec p (f := Fld.ARC_STATUS_MISMATCH) (k := 2) (fun _ => rfl) (by decide)
    (fun _ => rfl) (fun _ => Nat.le_of_ble_eq_true rfl) 0x5f0
  exact ⟨eng, ports, pair, shows⟩

/-! ## Mismatches (R199 to R204) -/

/-- A pair that the compare unit compares: it runs, has not failed, and is full. -/
def Dev.Compared (d : Dev) (p : Nat) : Prop := d.pairRuns p = true ∧ d.pairFailed p = false ∧ 2 ≤ (d.pairEngines p).length

theorem Dev.arcMismatch_of_not_compared {d : Dev} {p : Nat} (report : List Nat)
    (h : d.pairRuns p = false ∨ d.pairFailed p = true ∨ (d.pairEngines p).length < 2) : d.arcMismatch p report = d := by
  unfold Dev.arcMismatch
  rw [if_pos]
  rcases h with h | h | h <;> simp [h]

/-- The engines of a pair and its spare that report an error are noted (R203). -/
def Dev.noteReports (d : Dev) (p : Nat) (report : List Nat) : Dev :=
  d.each (report.filter fun e => (d.pairEngines p).contains e || d.arcSpareFor p e) fun d e =>
    d.onEng e fun a => { a with reported := true }

theorem Dev.noteReports_only (d : Dev) (p : Nat) (report : List Nat) :
    d.noteReports p report = { d with arc := { d.arc with eng := (d.noteReports p report).arc.eng } } :=
  Dev.each_induction (fun n => n = { d with arc := { d.arc with eng := n.arc.eng } }) _ (fun n e hn => by rw [hn]; rfl) _ d rfl

/-- Noting reports leaves pairs, ports and registers. -/
theorem Dev.noteReports_facts (d : Dev) (p : Nat) (report : List Nat) :
    (∀ q, (d.noteReports p report).arcPair q = d.arcPair q) ∧ (d.noteReports p report).arc.ports = d.arc.ports ∧
      (d.noteReports p report).regs = d.regs ∧ (d.noteReports p report).arcSpare = d.arcSpare := by
  rw [d.noteReports_only p report]
  exact ⟨fun _ => rfl, rfl, rfl, rfl⟩

theorem Dev.arcMismatch_of_compared {d : Dev} {p : Nat} (report : List Nat) (h : d.Compared p) :
    d.arcMismatch p report = match (d.arcPair p).takeover with
      | some t => (d.noteReports p report).furtherMismatch p t
      | none => ((d.noteReports p report).mismatchFound p).onPair p fun s =>
          { s with quiet := true, takeover := some { spare := d.arcSpare } } := by
  obtain ⟨runs, sound, full⟩ := h
  have compared : ¬(!d.pairRuns p || d.pairFailed p || decide ((d.pairEngines p).length < 2)) = true := by
    rw [runs, sound, decide_eq_false (by omega)]
    decide
  obtain ⟨pair, _, _, spare⟩ := d.noteReports_facts p report
  unfold Dev.arcMismatch
  rw [if_neg compared, ← pair, ← spare]
  rfl

section
variable (d : Dev) (p : Nat)

/-- A first detection: the period goes silent, and a takeover with the first spare begins. -/
theorem Dev.arcMismatch_first {report : List Nat} (h : d.Compared p) (ht : (d.arcPair p).takeover = none) :
    let m := d.arcMismatch p report
    m.arc.ports = d.arc.ports ∧ (m.arcPair p).quiet = true ∧ (m.arcPair p).takeover = some { spare := d.arcSpare } ∧
      d.ShowsMismatch m p := by
  obtain ⟨_, ports', regs, _⟩ := d.noteReports_facts p report
  obtain ⟨_, ports, _, shows⟩ := (d.noteReports p report).mismatchFound_spec p
  simp only [Dev.arcMismatch_of_compared report h, ht, Dev.arcPair_onPair_self, Dev.ports_onPair]
  exact ⟨ports.trans ports', trivial, trivial, (shows.of_regs regs).onPair p _⟩

/-- A mismatch of a takeover whose voting period has not begun is part of it. -/
theorem Dev.arcMismatch_held {report : List Nat} (h : d.Compared p) {t : ArcTakeover} (ht : (d.arcPair p).takeover = some t)
    (hv : t.voting = false) : d.arcMismatch p report = d.noteReports p report := by
  rw [Dev.arcMismatch_of_compared report h, ht]
  simp only [Dev.furtherMismatch, hv, Bool.not_false, if_true]

/-- A mismatch of a voting period shows in its takeover, and is found only as the first of a hand-over. -/
theorem Dev.arcMismatch_voting {report : List Nat} (h : d.Compared p) {t : ArcTakeover} (ht : (d.arcPair p).takeover = some t)
    (hv : t.voting = true) :
    let m := d.arcMismatch p report
    m.arc.ports = d.arc.ports ∧ (m.arcPair p).takeover = some { t with again := true } ∧
      (m.arcPair p).quiet = ((d.arcPair p).quiet || t.spare.isNone) ∧ (m.arcPair p).fwd = (d.arcPair p).fwd ∧
      (t.handover = true → t.again = false → d.ShowsMismatch m p) ∧ (t.handover = false ∨ t.again = true → m.regs = d.regs) := by
  obtain ⟨pair', ports', regs, _⟩ := d.noteReports_facts p report
  obtain ⟨_, ports, pair, shows⟩ := (d.noteReports p report).mismatchFound_spec p
  simp only [Dev.arcMismatch_of_compared report h, ht, Dev.furtherMismatch, hv, Bool.not_true, Bool.false_eq_true, if_false,
    Dev.arcPair_onPair_self, Dev.ports_onPair, Dev.regs_onPair]
  cases hc : (t.handover && !t.again) with
  | true =>
    rw [Dev.when_true]
    refine ⟨ports.trans ports', trivial, by rw [pair p, pair'], by rw [pair p, pair'],
      fun _ _ => (shows.of_regs regs).onPair p _, fun hn => ?_⟩
    · simp only [Bool.and_eq_true, Bool.not_eq_true'] at hc
      simp [hc.1, hc.2] at hn
  | false =>
    rw [Dev.when_false]
    refine ⟨ports', trivial, by rw [pair'], by rw [pair'], fun ho ha => ?_, fun _ => regs⟩
    simp [ho, ha] at hc

/-- A mismatch without reports leaves the engines. -/
theorem Dev.eng_arcMismatch_nil : (d.arcMismatch p []).arc.eng = d.arc.eng := by
  have noted : d.noteReports p [] = d := rfl
  obtain ⟨eng, _⟩ := d.mismatchFound_spec p
  by_cases h : d.Compared p
  · rw [Dev.arcMismatch_of_compared [] h, noted]
    split
    next t _ =>
      unfold Dev.furtherMismatch
      cases t.voting with
      | false => rfl
      | true =>
        simp only [Bool.not_true, Bool.false_eq_true, if_false, Dev.eng_onPair]
        cases t.handover && !t.again with
        | true => rw [Dev.when_true, eng]
        | false => rfl
    next => rw [Dev.eng_onPair, eng]
  · rw [Dev.arcMismatch_of_not_compared]
    simp only [Dev.Compared, not_and_or, Bool.not_eq_true, Bool.not_eq_false, not_le] at h
    exact h

end

/-- The command of a mismatch, of a pair that is compared. -/
theorem completes_arcMismatch (s : State) (p : ArcPair) (report : List ArcEng) (h : s.dev.Compared p) :
    Completes (.arcMismatch p report) s fun d => d.arc.ports = s.dev.arc.ports ∧
      ((s.dev.arcPair p).takeover = none → (d.arcPair p).quiet = true ∧
        (d.arcPair p).takeover = some { spare := s.dev.arcSpare } ∧ s.dev.ShowsMismatch d p) ∧
      (∀ t, (s.dev.arcPair p).takeover = some t → t.voting = false → d.arcPair p = s.dev.arcPair p ∧ d.regs = s.dev.regs) ∧
      (∀ t, (s.dev.arcPair p).takeover = some t → t.voting = true →
        (d.arcPair p).takeover = some { t with again := true } ∧
        (d.arcPair p).quiet = ((s.dev.arcPair p).quiet || t.spare.isNone) ∧
        (t.handover = true → t.again = false → s.dev.ShowsMismatch d p) ∧
        (t.handover = false ∨ t.again = true → d.regs = s.dev.regs)) := by
  refine ⟨s.dev.arcMismatch p (report.map (·.val)), rfl, ?_⟩
  cases ht : (s.dev.arcPair p).takeover with
  | none =>
    obtain ⟨ports, first⟩ := s.dev.arcMismatch_first p (report := report.map (·.val)) h ht
    exact ⟨ports, fun _ => first, nofun, nofun⟩
  | some t =>
    cases hv : t.voting with
    | false =>
      have held := s.dev.arcMismatch_held p (report := report.map (·.val)) h ht hv
      obtain ⟨pair, ports, regs, _⟩ := s.dev.noteReports_facts p (report.map (·.val))
      rw [held]
      refine ⟨ports, nofun, fun t' _ _ => ⟨pair p, regs⟩, fun t' he hv' => ?_⟩
      cases he; simp [hv] at hv'
    | true =>
      obtain ⟨ports, takeover, quiet, _, shows, regs⟩ := s.dev.arcMismatch_voting p (report := report.map (·.val)) h ht hv
      refine ⟨ports, nofun, fun t' he hv' => ?_, fun t' he _ => ?_⟩
      · cases he; simp [hv] at hv'
      · cases he; exact ⟨takeover, quiet, shows, regs⟩

end Sys2Proof.Machine

/-! PROOFS. The compare unit of Arc pairs, continued: what is presented and forwarded, exchanges asked for, the ends of periods, the
checkpoint and the event stream (O41). -/

namespace Sys2Proof.Machine

/-! ## What goes out (R193, R199, R205) -/

/-- Forwarding leaves the engines. -/
theorem Dev.eng_forward (d : Dev) (p i : Nat) (x : ArcPost) : (d.forward p i x).arc.eng = d.arc.eng := by
  cases x with
  | emit port v => exact (Dev.arcStands_portWrite _ _ _).eng
  | event code v => exact (Dev.arcStands_arcEvent _ _ _ _).eng

/-- What is forwarded is counted at its place. -/
theorem Dev.fwd_forward (d : Dev) (p i : Nat) (x : ArcPost) : ((d.forward p i x).arcPair p).fwd = i + 1 := by
  have counted : ((d.onPair p fun s => { s with fwd := i + 1 }).arcPair p).fwd = i + 1 := by rw [Dev.arcPair_onPair_self]
  cases x with
  | emit port v =>
    have stands := Dev.arcStands_portWrite (d.onPair p fun s => { s with fwd := i + 1 }) port.toNat v
    exact (congrArg ArcPairSt.fwd (stands.pair p)).trans counted
  | event code v =>
    have stands := Dev.arcStands_arcEvent (d.onPair p fun s => { s with fwd := i + 1 }) p code.toNat v
    exact (congrArg ArcPairSt.fwd (stands.pair p)).trans counted

/-- A drive port of a head holds the value within its range (R193, R213). -/
theorem Dev.outPort_portWrite (d : Dev) {port : Nat} (v : Word) (head : port < 0x100) (drive : port % 0x80 ≤ 1) :
    (d.portWrite port v).outPort port = portInt v (-32767) 32767 := by
  unfold Dev.portWrite
  rw [if_pos head]
  simp only [if_pos drive]
  exact Tab.get_set_self d.arc.ports port _

theorem Dev.outPort_forward (d : Dev) (p i : Nat) (port : BitVec 9) (v : Word) (head : port.toNat < 0x100)
    (drive : port.toNat % 0x80 ≤ 1) : (d.forward p i (.emit port v)).outPort port.toNat = portInt v (-32767) 32767 :=
  Dev.outPort_portWrite _ v head drive

/-- A record that is forwarded joins the FIFO that has room (R205). -/
theorem Dev.fifo_forward (d : Dev) (p i : Nat) (code : BitVec 11) (v : Word) (record : code.toNat < 0x600)
    (room : (d.arcPair p).fifo.length < 32) : ((d.forward p i (.event code v)).arcPair p).fifo =
      (d.arcPair p).fifo ++ [⟨d.esn, (d.pairEngines p).headD 0, code.toNat, v⟩] := by
  have same : ((d.onPair p fun s => { s with fwd := i + 1 }).arcPair p).fifo = (d.arcPair p).fifo := by rw [Dev.arcPair_onPair_self]
  show (((d.onPair p fun s => { s with fwd := i + 1 }).arcEvent p code.toNat v).arcPair p).fifo = _
  rw [Dev.arcEvent, if_pos record, Dev.fifo_arcRecord _ p _ v (by rwa [same]), same]
  rfl

/-! ## What an engine presents (R199) -/

/-- What an engine presents joins its posts of the period. -/
def Dev.posted (d : Dev) (e : Nat) (x : ArcPost) : Dev := d.onEng e fun a => { a with posts := a.posts ++ [x] }

/-- What an engine presents is compared: its pair is not silent, has not failed, and takes its vote. -/
def PostLive (d : Dev) (e : Nat) : Prop :=
  (d.arcPair (d.runsFor e)).quiet = false ∧ d.pairFailed (d.runsFor e) = false ∧ e ∈ d.voters (d.runsFor e)

/-- Another voter has presented x at the place at which e presents. -/
def PostSame (d : Dev) (posts : Nat → List ArcPost) (e : Nat) (x : ArcPost) : Prop :=
  ∃ o ∈ d.voters (d.runsFor e), o ≠ e ∧ (posts o)[(posts e).length]? = some x

/-- Another voter has presented something else there. -/
def PostOther (d : Dev) (posts : Nat → List ArcPost) (e : Nat) (x : ArcPost) : Prop :=
  ∃ o ∈ d.voters (d.runsFor e), o ≠ e ∧ ∃ y, (posts o)[(posts e).length]? = some y ∧ y ≠ x

section
variable (d : Dev) (e : Nat) (x : ArcPost)

/-- The posts of the engines, e's own with what it presents. -/
theorem Dev.posts_posted {o : Nat} (h : o ≠ e) : ((d.posted e x).arcEng o).posts = (d.arcEng o).posts := by
  rw [Dev.posted, Dev.arcEng_onEng_ne d _ h]

theorem Dev.posts_posted_self : ((d.posted e x).arcEng e).posts = (d.arcEng e).posts ++ [x] := by
  rw [Dev.posted, Dev.arcEng_onEng_self]

/-- A voter's post that is compared with x. -/
theorem Dev.postAt_posted {o : Nat} (i : Nat) (h : o ≠ e) :
    ((d.posted e x).arcEng o).posts[i]? = (d.arcEng o).posts[i]? := by rw [d.posts_posted e x h]

/-- The compare unit finds x at another voter's place. -/
def Dev.findsSame : Bool := (d.voters (d.runsFor e)).any fun o =>
  o != e && ((d.posted e x).arcEng o).posts[(d.arcEng e).posts.length]? == some x

/-- The compare unit finds something other than x at another voter's place. -/
def Dev.findsOther : Bool := (d.voters (d.runsFor e)).any fun o =>
  o != e && (((d.posted e x).arcEng o).posts[(d.arcEng e).posts.length]?).isSome &&
    ((d.posted e x).arcEng o).posts[(d.arcEng e).posts.length]? != some x

theorem Dev.findsSame_iff : d.findsSame e x = true ↔ PostSame d (fun o => (d.arcEng o).posts) e x := by
  simp only [Dev.findsSame, List.any_eq_true, Bool.and_eq_true, bne_iff_ne, ne_eq, beq_iff_eq, PostSame]
  refine exists_congr fun o => and_congr_right fun _ => and_congr_right fun ne => ?_
  rw [d.postAt_posted e x _ ne]

theorem Dev.findsOther_iff : d.findsOther e x = true ↔ PostOther d (fun o => (d.arcEng o).posts) e x := by
  simp only [Dev.findsOther, List.any_eq_true, Bool.and_eq_true, bne_iff_ne, ne_eq, PostOther, and_assoc]
  refine exists_congr fun o => and_congr_right fun _ => and_congr_right fun ne => ?_
  rw [d.postAt_posted e x _ ne]
  cases (d.arcEng o).posts[(d.arcEng e).posts.length]? <;> simp

/-- What is not compared joins the engine's posts alone. -/
theorem Dev.present_of_not_live (h : ¬PostLive d e) : d.present e x = d.posted e x := by
  have dead : ((d.arcPair (d.runsFor e)).quiet || d.pairFailed (d.runsFor e) || !(d.voters (d.runsFor e)).contains e) = true := by
    by_contra hn
    simp only [Bool.not_eq_true, Bool.or_eq_false_iff, Bool.not_eq_false', List.contains_iff_mem] at hn
    exact h ⟨hn.1.1, hn.1.2, hn.2⟩
  exact if_pos dead

theorem not_dead_of_postLive (h : PostLive d e) :
    ¬((d.arcPair (d.runsFor e)).quiet || d.pairFailed (d.runsFor e) || !(d.voters (d.runsFor e)).contains e) = true := by
  obtain ⟨quiet, failed, votes⟩ := h
  simp [quiet, failed, votes]

/-- An engine that votes alone has its posts forwarded. -/
theorem Dev.present_alone (h : PostLive d e) (alone : (d.voters (d.runsFor e)).length = 1) :
    d.present e x = (d.posted e x).forward (d.runsFor e) (d.arcEng e).posts.length x :=
  (if_neg (not_dead_of_postLive d e h)).trans (if_pos alone)

/-- A post among several voters: what contradicts it is a mismatch, and where the pair is not silent it is forwarded with its match. -/
theorem Dev.present_compared (h : PostLive d e) (more : (d.voters (d.runsFor e)).length ≠ 1) :
    d.present e x =
      let m := (d.posted e x).when (d.findsOther e x) fun n => n.arcMismatch (d.runsFor e) []
      m.when (!(m.arcPair (d.runsFor e)).quiet && decide ((d.arcPair (d.runsFor e)).fwd ≤ (d.arcEng e).posts.length) && d.findsSame e x)
        fun m => m.forward (d.runsFor e) (d.arcEng e).posts.length x :=
  (if_neg (not_dead_of_postLive d e h)).trans (if_neg more)

/-- A post that another voter has shown, and none has contradicted, is forwarded. -/
theorem Dev.present_agreed (h : PostLive d e) (more : (d.voters (d.runsFor e)).length ≠ 1)
    (place : (d.arcPair (d.runsFor e)).fwd ≤ (d.arcEng e).posts.length)
    (same : PostSame d (fun o => (d.arcEng o).posts) e x) (other : ¬PostOther d (fun o => (d.arcEng o).posts) e x) :
    d.present e x = (d.posted e x).forward (d.runsFor e) (d.arcEng e).posts.length x := by
  have agrees : d.findsOther e x = false := Bool.eq_false_iff.mpr ((not_congr (d.findsOther_iff e x)).mpr other)
  have quiet : ((d.posted e x).arcPair (d.runsFor e)).quiet = false := h.1
  simp only [d.present_compared e x h more, agrees, Dev.when_false, quiet, place, (d.findsSame_iff e x).mpr same]
  rfl

/-- A post that another voter contradicts is a mismatch, after which it goes out only where the pair is not silent. -/
theorem Dev.present_contradicted (h : PostLive d e) (more : (d.voters (d.runsFor e)).length ≠ 1)
    (other : PostOther d (fun o => (d.arcEng o).posts) e x) :
    let m := (d.posted e x).arcMismatch (d.runsFor e) []
    ((m.arcPair (d.runsFor e)).quiet = true → d.present e x = m) ∧
    ((m.arcPair (d.runsFor e)).quiet = false → (d.arcPair (d.runsFor e)).fwd ≤ (d.arcEng e).posts.length →
      PostSame d (fun o => (d.arcEng o).posts) e x → d.present e x = m.forward (d.runsFor e) (d.arcEng e).posts.length x) := by
  simp only [d.present_compared e x h more, (d.findsOther_iff e x).mpr other, Dev.when_true]
  refine ⟨fun quiet => ?_, fun quiet place same => ?_⟩
  · rw [quiet]
    rfl
  · rw [quiet, (d.findsSame_iff e x).mpr same, decide_eq_true place]
    rfl

/-- Presenting leaves the engines but for the post. -/
theorem Dev.eng_present : (d.present e x).arc.eng = (d.posted e x).arc.eng := by
  have mismatch := (d.posted e x).eng_arcMismatch_nil (d.runsFor e)
  by_cases live : PostLive d e
  · by_cases alone : (d.voters (d.runsFor e)).length = 1
    · rw [d.present_alone e x live alone, Dev.eng_forward]
    · rw [d.present_compared e x live alone]
      simp only
      have forwarded (m : Dev) (c : Bool) (i : Nat) : (m.when c fun m => m.forward (d.runsFor e) i x).arc.eng = m.arc.eng := by
        cases c with
        | true => exact m.eng_forward _ _ _
        | false => rfl
      rw [forwarded]
      cases d.findsOther e x with
      | true => exact mismatch
      | false => rfl
  · rw [d.present_of_not_live e x live]

theorem Dev.posts_present : ((d.present e x).arcEng e).posts = (d.arcEng e).posts ++ [x] := by
  rw [← d.posts_posted_self e x]
  unfold Dev.arcEng
  rw [d.eng_present]

/-! ## The cases of R199, R202 and R204 -/

/-- Another voter has presented the same and none something else, or the engine votes alone. -/
def PostGoes (posts : Nat → List ArcPost) : Prop :=
  d.voters (d.runsFor e) = [e] ∨ (d.arcPair (d.runsFor e)).fwd ≤ (posts e).length ∧ PostSame d posts e x ∧
    ∀ o ∈ d.voters (d.runsFor e), o ≠ e → ∀ y, (posts o)[(posts e).length]? = some y → y = x

/-- In a voting period with a third voter, another voter has presented the same. -/
def PostWins (posts : Nat → List ArcPost) : Prop :=
  (d.arcPair (d.runsFor e)).fwd ≤ (posts e).length ∧ PostSame d posts e x ∧
    ∃ t, (d.arcPair (d.runsFor e)).takeover = some t ∧ t.voting = true ∧ t.spare.isSome = true

/-- The other of two voters has presented something else, outside a held period. -/
def PostDiffers (posts : Nat → List ArcPost) : Prop :=
  (d.voters (d.runsFor e)).length = 2 ∧ (∀ t, (d.arcPair (d.runsFor e)).takeover = some t → t.voting = true) ∧
    PostOther d posts e x

/-- Two voters are not one. -/
theorem voters_length_ne_one {e : Nat} {posts : Nat → List ArcPost} (h : PostLive d e)
    (ho : PostSame d posts e x ∨ PostOther d posts e x) : (d.voters (d.runsFor e)).length ≠ 1 := by
  obtain ⟨o, hv, ne⟩ : ∃ o ∈ d.voters (d.runsFor e), o ≠ e := by
    rcases ho with ⟨o, hv, ne, _⟩ | ⟨o, hv, ne, _⟩ <;> exact ⟨o, hv, ne⟩
  intro alone
  obtain ⟨v, hs⟩ := List.length_eq_one_iff.mp alone
  have own := h.2.2
  rw [hs, List.mem_singleton] at own hv
  exact ne (hv.trans own.symm)

theorem Dev.present_of_goes (live : PostLive d e) (goes : PostGoes d e x fun o => (d.arcEng o).posts) :
    d.present e x = (d.posted e x).forward (d.runsFor e) (d.arcEng e).posts.length x := by
  rcases goes with alone | ⟨place, same, agree⟩
  · exact d.present_alone e x live (by rw [alone]; rfl)
  · refine d.present_agreed e x live (voters_length_ne_one d x live (.inl same)) place same ?_
    rintro ⟨o, hv, ne, y, hy, differs⟩
    exact differs (agree o hv ne y hy)

/-- The majority of a voting period goes out, after the mismatch that a contradiction is. -/
theorem Dev.present_of_wins (live : PostLive d e) (wins : PostWins d e x fun o => (d.arcEng o).posts) :
    ∃ m : Dev, d.present e x = m.forward (d.runsFor e) (d.arcEng e).posts.length x := by
  obtain ⟨place, same, t, takeover, voting, spare⟩ := wins
  have more := voters_length_ne_one d x live (.inl same)
  by_cases other : PostOther d (fun o => (d.arcEng o).posts) e x
  · have quiet : (((d.posted e x).arcMismatch (d.runsFor e) []).arcPair (d.runsFor e)).quiet = false := by
      by_cases compared : (d.posted e x).Compared (d.runsFor e)
      · obtain ⟨_, _, quiet, _⟩ := (d.posted e x).arcMismatch_voting (d.runsFor e) (report := []) compared (t := t) takeover voting
        rw [quiet, show ((d.posted e x).arcPair (d.runsFor e)).quiet = false from live.1, Option.isNone_eq_false_iff.mpr spare]
        rfl
      · rw [Dev.arcMismatch_of_not_compared]
        · exact live.1
        · simp only [Dev.Compared, not_and_or, Bool.not_eq_true, Bool.not_eq_false, not_le] at compared
          exact compared
    exact ⟨_, (d.present_contradicted e x live more other).2 quiet place same⟩
  · exact ⟨_, d.present_agreed e x live more place same other⟩

/-- A post that the other of two contradicts: the pair is silent, and a takeover in progress. -/
theorem Dev.present_of_differs (live : PostLive d e) (differs : PostDiffers d e x fun o => (d.arcEng o).posts)
    (runs : d.pairRuns (d.runsFor e) = true) (full : 2 ≤ (d.pairEngines (d.runsFor e)).length) :
    ((d.present e x).arcPair (d.runsFor e)).quiet = true ∧ ((d.present e x).arcPair (d.runsFor e)).takeover.isSome = true ∧
      (d.present e x).arc.ports = d.arc.ports := by
  obtain ⟨two, votes, other⟩ := differs
  have more := voters_length_ne_one d x live (.inr other)
  have compared : (d.posted e x).Compared (d.runsFor e) := ⟨runs, live.2.1, full⟩
  suffices silent : (((d.posted e x).arcMismatch (d.runsFor e) []).arcPair (d.runsFor e)).quiet = true ∧
      (((d.posted e x).arcMismatch (d.runsFor e) []).arcPair (d.runsFor e)).takeover.isSome = true ∧
      ((d.posted e x).arcMismatch (d.runsFor e) []).arc.ports = d.arc.ports by
    rw [(d.present_contradicted e x live more other).1 silent.1]
    exact silent
  cases ht : (d.arcPair (d.runsFor e)).takeover with
  | none =>
    obtain ⟨ports, quiet, takeover, _⟩ := (d.posted e x).arcMismatch_first (d.runsFor e) (report := []) compared ht
    exact ⟨quiet, by rw [takeover]; rfl, ports⟩
  | some t =>
    have voting := votes t ht
    have alone : t.spare = none := by
      unfold Dev.voters at two
      rw [ht] at two
      simp only [voting, if_true, List.length_append] at two
      cases hs : t.spare with
      | none => rfl
      | some k =>
        rw [hs, Option.toList_some, List.length_singleton] at two
        omega
    obtain ⟨ports, takeover, quiet, _⟩ := (d.posted e x).arcMismatch_voting (d.runsFor e) (report := []) compared (t := t) ht voting
    refine ⟨?_, by rw [takeover]; rfl, ports⟩
    rw [quiet, alone]
    exact Bool.or_true _

end

end Sys2Proof.Machine

/-! PROOFS. The rows of the compare unit (O41): EMIT, EVENT, SWAP, WAITTICK, the checkpoint and the event stream. -/

namespace Sys2Proof.Machine

/-! ## A block that differs in its engines and the time of the motor outputs -/

/-- The block with other engines, and another time of the motor outputs. -/
def Dev.withEngines (d : Dev) (eng : Tab ArcSt) (now : Nat) : Dev :=
  { d with arc := { d.arc with eng := eng }, mot := { d.mot with now := now } }

section
variable (d : Dev) (eng : Tab ArcSt) (now : Nat)

@[simp] theorem Dev.arcPair_withEngines (p : Nat) : (d.withEngines eng now).arcPair p = d.arcPair p := rfl
@[simp] theorem Dev.runsFor_withEngines (e : Nat) : (d.withEngines eng now).runsFor e = d.runsFor e := rfl
@[simp] theorem Dev.voters_withEngines (p : Nat) : (d.withEngines eng now).voters p = d.voters p := rfl
@[simp] theorem Dev.pairFailed_withEngines (p : Nat) : (d.withEngines eng now).pairFailed p = d.pairFailed p := rfl
@[simp] theorem Dev.pairRuns_withEngines (p : Nat) : (d.withEngines eng now).pairRuns p = d.pairRuns p := rfl
@[simp] theorem Dev.pairEngines_withEngines (p : Nat) : (d.withEngines eng now).pairEngines p = d.pairEngines p := rfl
@[simp] theorem Dev.ports_withEngines : (d.withEngines eng now).arc.ports = d.arc.ports := rfl

theorem postLive_withEngines (e : Nat) : PostLive (d.withEngines eng now) e = PostLive d e := by
  simp only [PostLive, Dev.arcPair_withEngines, Dev.runsFor_withEngines, Dev.voters_withEngines, Dev.pairFailed_withEngines]

theorem postGoes_withEngines (e : Nat) (x : ArcPost) (posts : Nat → List ArcPost) :
    PostGoes (d.withEngines eng now) e x posts = PostGoes d e x posts := by
  simp only [PostGoes, PostSame, Dev.arcPair_withEngines, Dev.runsFor_withEngines, Dev.voters_withEngines]

theorem postWins_withEngines (e : Nat) (x : ArcPost) (posts : Nat → List ArcPost) :
    PostWins (d.withEngines eng now) e x posts = PostWins d e x posts := by
  simp only [PostWins, PostSame, Dev.arcPair_withEngines, Dev.runsFor_withEngines, Dev.voters_withEngines]

theorem postDiffers_withEngines (e : Nat) (x : ArcPost) (posts : Nat → List ArcPost) :
    PostDiffers (d.withEngines eng now) e x posts = PostDiffers d e x posts := by
  simp only [PostDiffers, PostOther, Dev.arcPair_withEngines, Dev.runsFor_withEngines, Dev.voters_withEngines]

end

/-- A fetch of a bundle changes the engines, and none of their posts. -/
theorem Dev.arcFetched_eq (d : Dev) (i : ArcIssue) : ∃ eng, d.arcFetched i = d.withEngines eng d.mot.now ∧
    ∀ o, ((d.withEngines eng d.mot.now).arcEng o).posts = (d.arcEng o).posts := by
  have only : d.arcFetched i = d.withEngines (d.arcFetched i).arc.eng d.mot.now := by unfold Dev.arcFetched; split <;> rfl
  refine ⟨(d.arcFetched i).arc.eng, only, fun o => ?_⟩
  rw [← only]
  by_cases ho : o = i.eng
  · subst ho
    rw [Dev.arcEng_arcFetched]
    unfold Dev.arcNow
    split <;> rfl
  · rw [(d.arcOnly_arcFetched i).1 o ho]

/-- The block as EMIT presents its value: its cycle is the time of the motor outputs where the program has them (R208). -/
def Dev.emitFrom (d : Dev) (i : ArcIssue) : Dev :=
  (d.arcFetched i).when ((d.arcFetched i).drivesMotor ((d.arcFetched i).runsFor i.eng)) fun d =>
    { d with mot := { d.mot with now := d.mot.periodAt + i.cycle + 2 } }

theorem Dev.emitFrom_eq (d : Dev) (i : ArcIssue) : ∃ eng now, d.emitFrom i = d.withEngines eng now ∧
    ∀ o, ((d.withEngines eng now).arcEng o).posts = (d.arcEng o).posts := by
  obtain ⟨eng, fetched, posts⟩ := d.arcFetched_eq i
  unfold Dev.emitFrom
  rw [fetched]
  cases (d.withEngines eng d.mot.now).drivesMotor ((d.withEngines eng d.mot.now).runsFor i.eng) with
  | true => exact ⟨eng, d.mot.periodAt + i.cycle + 2, rfl, posts⟩
  | false => exact ⟨eng, d.mot.now, rfl, posts⟩

/-! ## EMIT and EVENT (R193, R199, R205) -/

section
variable {s : State} {i : ArcIssue}

/-- What presenting a post does, as the block before the instruction shows it. -/
theorem Dev.present_withEngines (d : Dev) {eng : Tab ArcSt} {now : Nat}
    (hp : ∀ o, ((d.withEngines eng now).arcEng o).posts = (d.arcEng o).posts) (e : Nat) (x : ArcPost) :
    let n := (d.arcEng e).posts.length
    let p := d.runsFor e
    let r := (d.withEngines eng now).present e x
    (r.arcEng e).posts = (d.arcEng e).posts ++ [x] ∧
    (PostLive d e → PostGoes d e x (fun o => (d.arcEng o).posts) →
      r = ((d.withEngines eng now).posted e x).forward p n x) ∧
    (PostLive d e → PostWins d e x (fun o => (d.arcEng o).posts) → ∃ m : Dev, r = m.forward p n x) ∧
    (PostLive d e → PostDiffers d e x (fun o => (d.arcEng o).posts) → d.pairRuns p = true → 2 ≤ (d.pairEngines p).length →
      (r.arcPair p).quiet = true ∧ (r.arcPair p).takeover.isSome = true ∧ r.arc.ports = d.arc.ports) ∧
    (¬PostLive d e → r = (d.withEngines eng now).posted e x) := by
  have posts : (fun o => ((d.withEngines eng now).arcEng o).posts) = fun o => (d.arcEng o).posts := funext hp
  have joined := Dev.posts_present (d.withEngines eng now) e x
  have goes := Dev.present_of_goes (d.withEngines eng now) e x
  have wins := Dev.present_of_wins (d.withEngines eng now) e x
  have differs := Dev.present_of_differs (d.withEngines eng now) e x
  have dead := Dev.present_of_not_live (d.withEngines eng now) e x
  simp only [posts, hp e, postLive_withEngines, postGoes_withEngines, postWins_withEngines, postDiffers_withEngines,
    Dev.runsFor_withEngines, Dev.pairRuns_withEngines, Dev.pairEngines_withEngines, Dev.ports_withEngines] at joined goes wins differs dead
  exact ⟨joined, goes, wins, differs, dead⟩

theorem exec_arcEmit (ha : s.dev.arcActs i = true) (rd : ArcReg) (port : BitVec 9) : exec (.arcEmit i rd port) s =
    .next { s with dev := (s.dev.emitFrom i).present i.eng (.emit port ((s.dev.arcSees i).reg rd)) } := by
  show execArcEmit i rd port s = _
  unfold execArcEmit
  rw [State.on_eq, Dev.arcIssue_of_acts ha]
  rfl

theorem exec_arcEvent (ha : s.dev.arcActs i = true) (rd : ArcReg) (code : BitVec 11) : exec (.arcEvent i rd code) s =
    .next { s with dev := (s.dev.arcFetched i).present i.eng (.event code ((s.dev.arcSees i).reg rd)) } := by
  show execArcEvent i rd code s = _
  unfold execArcEvent
  rw [State.on_eq, Dev.arcIssue_of_acts ha]

/-- EMIT: the post goes out, is a mismatch, or joins the engine's posts alone. -/
theorem completes_arcEmit (ha : s.dev.arcActs i = true) (rd : ArcReg) (port : BitVec 9) :
    let e := i.eng.val
    let own := s.dev.runsFor e
    let n := (s.dev.arcEng e).posts.length
    let v := (s.dev.arcSees i).reg rd
    let posts := fun o => (s.dev.arcEng o).posts
    let sent (d : Dev) : Prop := (d.arcPair own).fwd = n + 1 ∧
      (port.toNat < 0x100 → port.toNat % 0x80 ≤ 1 → d.outPort port.toNat = portInt v (-32767) 32767)
    Completes (.arcEmit i rd port) s fun d => (d.arcEng e).posts = (s.dev.arcEng e).posts ++ [.emit port v] ∧
      (PostLive s.dev e → PostGoes s.dev e (.emit port v) posts → sent d) ∧
      (PostLive s.dev e → PostWins s.dev e (.emit port v) posts → sent d) ∧
      (PostLive s.dev e → PostDiffers s.dev e (.emit port v) posts →
        s.dev.pairRuns own = true ∧ 2 ≤ (s.dev.pairEngines own).length →
        (d.arcPair own).quiet = true ∧ (d.arcPair own).takeover.isSome = true ∧ d.arc.ports = s.dev.arc.ports) ∧
      (¬PostLive s.dev e → d = { s.dev with
        arc := { s.dev.arc with eng := d.arc.eng }, mot := { s.dev.mot with now := d.mot.now } }) := by
  intro e own n v posts sent
  have forwarded (m : Dev) : sent (m.forward own n (.emit port v)) :=
    ⟨m.fwd_forward own n _, fun head drive => m.outPort_forward own n port v head drive⟩
  refine ⟨_, exec_arcEmit ha rd port, ?_⟩
  obtain ⟨eng, now, from_, hp⟩ := s.dev.emitFrom_eq i
  rw [from_]
  obtain ⟨joined, goes, wins, differs, alone⟩ := s.dev.present_withEngines hp e (.emit port v)
  refine ⟨joined, fun live hg => ?_, fun live hw => ?_, fun live hd upset => differs live hd upset.1 upset.2, fun dead => ?_⟩
  · rw [goes live hg]
    exact forwarded _
  · obtain ⟨m, hm⟩ := wins live hw
    rw [hm]
    exact forwarded m
  · rw [alone dead]
    rfl

/-- EVENT: the post goes out, is a mismatch, or joins the engine's posts alone. -/
theorem completes_arcEvent (ha : s.dev.arcActs i = true) (rd : ArcReg) (code : BitVec 11) :
    let e := i.eng.val
    let own := s.dev.runsFor e
    let n := (s.dev.arcEng e).posts.length
    let v := (s.dev.arcSees i).reg rd
    let posts := fun o => (s.dev.arcEng o).posts
    Completes (.arcEvent i rd code) s fun d => (d.arcEng e).posts = (s.dev.arcEng e).posts ++ [.event code v] ∧
      (PostLive s.dev e → PostGoes s.dev e (.event code v) posts → (d.arcPair own).fwd = n + 1 ∧
        (code.toNat < 0x600 → (s.dev.arcPair own).fifo.length < 32 → (d.arcPair own).fifo =
          (s.dev.arcPair own).fifo ++ [⟨s.dev.esn, (s.dev.pairEngines own).headD 0, code.toNat, v⟩])) ∧
      (PostLive s.dev e → PostDiffers s.dev e (.event code v) posts →
        s.dev.pairRuns own = true ∧ 2 ≤ (s.dev.pairEngines own).length →
        (d.arcPair own).quiet = true ∧ (d.arcPair own).takeover.isSome = true) ∧
      (¬PostLive s.dev e → d = { s.dev with arc := { s.dev.arc with eng := d.arc.eng } }) := by
  intro e own n v posts
  refine ⟨_, exec_arcEvent ha rd code, ?_⟩
  obtain ⟨eng, fetched, hp⟩ := s.dev.arcFetched_eq i
  rw [fetched]
  obtain ⟨joined, goes, _, differs, alone⟩ := s.dev.present_withEngines hp e (.event code v)
  refine ⟨joined, fun live hg => ?_, fun live hd upset => ?_, fun dead => ?_⟩
  · rw [goes live hg]
    exact ⟨Dev.fwd_forward _ own n _, fun record room => Dev.fifo_forward _ own n code v record room⟩
  · obtain ⟨quiet, takeover, _⟩ := differs live hd upset.1 upset.2
    exact ⟨quiet, takeover⟩
  · rw [alone dead]
    rfl

/-! ## SWAP and WAITTICK (R177, R188) -/

/-- A change of registers after one of the Arc part. -/
theorem RegFrame.regs_arc {d n m : Dev} {l : List Nat} (h : RegFrame n m l) (hn : n = { d with arc := n.arc }) :
    m = { d with regs := m.regs, arc := m.arc } := by
  obtain ⟨only, _⟩ := h
  rw [hn] at only
  rw [only]

theorem Dev.requestSwap_spec (d : Dev) (p : Nat) :
    let m := d.requestSwap p
    (m.arcPair p).swapDue = true ∧ (∀ o ∈ d.pairEngines p, m.bit (Fld.ARC_STATUS_SWAP_PENDING o) = true) ∧
      m = { d with regs := m.regs, arc := m.arc } := by
  intro m
  have frame := (d.onPair p fun s => { s with swapDue := true }).regFrame_eachStatus p (f := Fld.ARC_STATUS_SWAP_PENDING)
    (fun _ => rfl) true
  refine ⟨?_, fun o ho => ?_, frame.regs_arc rfl⟩
  · have pair : m.arcPair p = (d.onPair p fun s => { s with swapDue := true }).arcPair p := by
      unfold Dev.arcPair
      exact congrArg (Tab.get (fun _ => {}) ·.arc.pair p) frame.1
    rw [pair, Dev.arcPair_onPair_self]
  · exact Dev.bit_each_putBit_self (f := Fld.ARC_STATUS_SWAP_PENDING) rfl (Nat.le_of_ble_eq_true rfl) _ _ ho fun x _ hx => by
      simp only [Fld.ARC_STATUS_SWAP_PENDING, Adr.ARC_STATUS]; omega

theorem completes_arcSwap (ha : s.dev.arcActs i = true) :
    let e := i.eng.val
    let own := s.dev.runsFor e
    Completes (.arcSwap i) s fun d =>
      ((s.dev.arcPair own).quiet = false → e ∈ s.dev.voters own → (d.arcPair own).swapDue = true ∧
        ∀ o ∈ s.dev.pairEngines own, d.bit (Fld.ARC_STATUS_SWAP_PENDING o) = true) ∧
      ((s.dev.arcPair own).quiet = true ∨ e ∉ s.dev.voters own → d = { s.dev with arc := { s.dev.arc with eng := d.arc.eng } }) := by
  intro e own
  have row : exec (.arcSwap i) s = execArcSwap i s := rfl
  unfold execArcSwap at row
  refine .of_on _ row ?_
  rw [Dev.arcIssue_of_acts ha]
  obtain ⟨eng, fetched, _⟩ := s.dev.arcFetched_eq i
  rw [fetched]
  dsimp only
  refine ⟨fun loud votes => ?_, fun silent => ?_⟩
  · rw [if_neg (by simpa using ⟨loud, votes⟩)]
    obtain ⟨due, pending, _⟩ := (s.dev.withEngines eng s.dev.mot.now).requestSwap_spec own
    exact ⟨due, pending⟩
  · rw [if_pos (by simpa using silent)]
    rfl

theorem completes_arcWaittick (ha : s.dev.arcActs i = true) :
    Completes (.arcWaittick i) s fun d => (d.arcEng i.eng).idle = true := by
  have row : exec (.arcWaittick i) s = execArcWaittick i s := rfl
  unfold execArcWaittick at row
  refine .of_on _ row ?_
  rw [Dev.arcIssue_of_acts ha]
  set n := (s.dev.arcFetched i).onEng i.eng fun a => { a.settled with idle := true } with hn
  have waits : (n.arcEng i.eng).idle = true := by rw [hn, Dev.arcEng_onEng_self]
  unfold Dev.arcEng at waits ⊢
  dsimp only
  unfold Dev.when
  split
  · rw [Dev.eng_arcMismatch_nil]
    exact waits
  · exact waits

end

/-! ## The checkpoint (R200, R201) -/

/-- What a load of the checkpoint of pair p into engines leaves, and what those engines hold. -/
theorem Dev.each_loadCheckpoint (p : Nat) (es : List Nat) (d : Dev) :
    let m := d.each es fun d e => d.loadCheckpoint p e
    m = { d with arc := { d.arc with eng := m.arc.eng } } ∧ ∀ o ∈ es, (m.arcEng o).ctx = (d.arcPair p).ckpt := by
  refine List.reverseRecOn es ⟨rfl, fun o ho => absurd ho List.not_mem_nil⟩ fun es e ih => ?_
  obtain ⟨only, loaded⟩ := ih
  intro m
  set n := d.each es fun d e => d.loadCheckpoint p e with hn
  have last : m = n.loadCheckpoint p e := List.foldl_concat ..
  have pair : (n.arcPair p).ckpt = (d.arcPair p).ckpt := by rw [only]; rfl
  refine ⟨?_, fun o ho => ?_⟩
  · rw [last]
    unfold Dev.loadCheckpoint Dev.onEng
    rw [only]
  · rw [last]
    unfold Dev.loadCheckpoint
    by_cases h : o = e
    · rw [h, Dev.arcEng_onEng_self, pair]
    · rw [Dev.arcEng_onEng_ne _ _ h]
      exact loaded o (by simpa [h] using ho)

theorem exec_arcCheckpointLoaded (s : State) (p : ArcPair)
    (h : ∀ t, (s.dev.arcPair p).takeover = some t → t.loaded = true) : exec (.arcCheckpointLoaded p) s = .next s := by
  have row : exec (.arcCheckpointLoaded p) s = execArcCheckpointLoaded p s := rfl
  unfold execArcCheckpointLoaded at row
  rw [row]
  refine State.on_of_eq_self ?_
  split
  next => rfl
  next t ht => rw [if_pos (h t ht)]

theorem completes_arcCheckpointLoaded (s : State) (p : ArcPair) {t : ArcTakeover}
    (ht : (s.dev.arcPair p).takeover = some t) (hl : t.loaded = false) : Completes (.arcCheckpointLoaded p) s fun d =>
      (∀ o ∈ s.dev.pairEngines p, (d.arcEng o).ctx = (s.dev.arcPair p).ckpt) ∧
      (d.arcPair p).takeover = some { t with loaded := true } ∧ d = { s.dev with arc := d.arc } ∧ d.arc.ports = s.dev.arc.ports := by
  have row : exec (.arcCheckpointLoaded p) s = execArcCheckpointLoaded p s := rfl
  unfold execArcCheckpointLoaded at row
  refine .of_on _ row ?_
  rw [ht]
  dsimp only
  rw [if_neg (by simp [hl])]
  obtain ⟨only, loaded⟩ := Dev.each_loadCheckpoint p (s.dev.pairEngines p ++ t.spare.toList) s.dev
  refine ⟨fun o ho => ?_, ?_, ?_, ?_⟩
  · rw [Dev.arcEng_onPair]
    exact loaded o (List.mem_append_left _ ho)
  · rw [Dev.arcPair_onPair_self]
  · unfold Dev.onPair
    rw [only]
  · rw [Dev.ports_onPair, only]

/-! ## The servo event stream (R205) -/

theorem exec_arcEventDrain (s : State) (p : ArcPair) (h : s.dev.queueFull servoQueue = true ∨ (s.dev.arcPair p).fifo = []) :
    exec (.arcEventDrain p) s = .next s := by
  have row : exec (.arcEventDrain p) s = execArcEventDrain p s := rfl
  unfold execArcEventDrain at row
  rw [row]
  refine State.on_of_eq_self ?_
  dsimp only
  split
  next => rfl
  next full =>
    rw [h.resolve_left full]

theorem completes_arcEventDrain (s : State) (p : ArcPair) {r : ArcRecord} {rest : List ArcRecord}
    (room : s.dev.queueFull servoQueue = false) (hf : (s.dev.arcPair p).fifo = r :: rest) (hl : (s.dev.arcPair p).lost = false) :
    Completes (.arcEventDrain p) s fun d => (d.arcPair p).fifo = rest ∧ d.fld (Fld.SPP_Q_PTR_TAIL servoQueue) =
      (s.dev.fld (Fld.SPP_Q_PTR_TAIL servoQueue) + 1) % (2 * s.dev.queueSize servoQueue) % 2 ^ (Fld.SPP_Q_PTR_TAIL 96).width := by
  have row : exec (.arcEventDrain p) s = execArcEventDrain p s := rfl
  unfold execArcEventDrain at row
  refine .of_on _ row ?_
  dsimp only
  rw [if_neg (by simp [room]), hf]
  dsimp only
  set n := s.dev.onPair p fun q => { q with fifo := rest }
  have pair (a : Nat) (l : List Byte) (f : Field) (v : Nat) : ((n.bufWrite a l).put f v).arcPair p = n.arcPair p := rfl
  unfold Dev.queuePush
  rw [pair, Dev.arcPair_onPair_self]
  dsimp only
  rw [hl, Dev.when_false, pair, Dev.arcPair_onPair_self]
  exact ⟨rfl, Dev.fld_put_self _ _ _ (Nat.le_of_ble_eq_true rfl)⟩

theorem exec_arcMismatch_of_not_compared (s : State) (p : ArcPair) (report : List ArcEng)
    (h : s.dev.pairRuns p = false ∨ s.dev.pairFailed p = true ∨ (s.dev.pairEngines p).length < 2) :
    exec (.arcMismatch p report) s = .next s := by
  have row : exec (.arcMismatch p report) s = execArcMismatch p report s := rfl
  unfold execArcMismatch at row
  rw [row]
  exact State.on_of_eq_self (f := fun d => d.arcMismatch p (report.map (·.val))) (Dev.arcMismatch_of_not_compared _ h)

/-- Settles O41: what an engine presents by what presenting a post does, the other rows by their branches. -/
theorem pairsForwardWhatAgrees : Obligations.PairsForwardWhatAgrees := by
  intro s i rd port code p report
  refine ⟨fun ha => ⟨?_, ?_, completes_arcSwap ha, completes_arcWaittick ha⟩, fun h => ?_, fun runs sound full => ?_,
    exec_arcCheckpointLoaded s p, fun t => completes_arcCheckpointLoaded s p, exec_arcEventDrain s p,
    fun r rest => completes_arcEventDrain s p⟩
  · exact completes_arcEmit ha rd port
  · exact completes_arcEvent ha rd code
  · exact exec_arcMismatch_of_not_compared s p report h
  · exact completes_arcMismatch s p report ⟨runs, sound, full⟩

end Sys2Proof.Machine

/-! PROOFS. What the vendor programs of a pair leave of the engines and pairs in a period (O42). -/

namespace Sys2Proof.Machine

/-! ## Loops of a head (R158 to R163, R166, R170) -/

section
variable {d d' : Dev}

theorem ArcStands.onHead (s : ArcStands d d') (h : Nat) (g : HeadSt → HeadSt) : ArcStands d (d'.onHead h g) := s.other

theorem ArcStands.onLoop (s : ArcStands d d') (h : Nat) (g : LoopSt → LoopSt) : ArcStands d (d'.onLoop h g) := s.onHead h _

theorem ArcStands.portWrite (s : ArcStands d d') (port : Nat) (w : Word) : ArcStands d (d'.portWrite port w) :=
  s.trans (d'.arcStands_portWrite port w)

theorem ArcStands.loopOut (s : ArcStands d d') (h q : Nat) (v : Int) : ArcStands d (d'.loopOut h q v) := s.portWrite _ _

theorem ArcStands.arcEvent (s : ArcStands d d') (p code : Nat) (v : Word) : ArcStands d (d'.arcEvent p code v) :=
  s.trans (d'.arcStands_arcEvent p code v)

theorem ArcStands.startSteps (s : ArcStands d d') (h : Nat) : ArcStands d (d'.startSteps h) := by
  unfold Dev.startSteps
  exact s.onLoop h _

theorem ArcStands.seekCrossings (s : ArcStands d d') (h : Nat) : ArcStands d (d'.seekCrossings h) := by
  unfold Dev.seekCrossings
  split
  · exact s
  · exact s.onHead h _

theorem ArcStands.deflPeriod (s : ArcStands d d') (h b : Nat) : ArcStands d (d'.deflPeriod h b) := (s.onLoop h _).portWrite _ _

theorem ArcStands.regBeam (s : ArcStands d d') (h b n t : Nat) : ArcStands d (d'.regBeam h b n t) :=
  ((s.onLoop h _).loopOut h _ _).loopOut h _ _

theorem ArcStands.regPeriod (s : ArcStands d d') (h p : Nat) : ArcStands d (d'.regPeriod h p) := by
  refine s.each _ fun n b _ => ?_
  split
  · exact ((ArcStands.refl n).regBeam h b _ _).when ((ArcStands.refl _).arcEvent p _ _)
  · exact .refl n

theorem ArcStands.focusPeriod (s : ArcStands d d') (h p : Nat) : ArcStands d (d'.focusPeriod h p) :=
  (((s.onLoop h _).when ((ArcStands.refl _).arcEvent p _ _)).loopOut h _ _).loopOut h _ _

theorem ArcStands.lensPeriod (s : ArcStands d d') (h p : Nat) : ArcStands d (d'.lensPeriod h p) :=
  ((s.onLoop h _).loopOut h _ _).loopOut h _ _

theorem ArcStands.tiltPeriod (s : ArcStands d d') (h : Nat) : ArcStands d (d'.tiltPeriod h) := (s.onLoop h _).loopOut h _ _

theorem ArcStands.sledPeriod (s : ArcStands d d') (h : Nat) : ArcStands d (d'.sledPeriod h) := (s.onLoop h _).portWrite _ _

/-- The sections of a head's bundle. -/
theorem ArcStands.bundlePeriod (s : ArcStands d d') (h p : Nat) : ArcStands d (d'.bundlePeriod h p) := by
  unfold Dev.bundlePeriod
  refine iteInduction (fun _ => s) fun _ => ?_
  refine (s.when ?_).when ?_
  · exact ((((ArcStands.refl _).startSteps h).seekCrossings h).each _ fun n b _ => (ArcStands.refl n).deflPeriod h b).regPeriod h p
  · exact ((((ArcStands.refl _).focusPeriod h p).lensPeriod h p).when ((ArcStands.refl _).tiltPeriod h)).sledPeriod h

/-! ## Motors and lasers (R145, R213, R222, R223, R239) -/

theorem ArcStands.onSpn (s : ArcStands d d') (g : SpindleSt → SpindleSt) : ArcStands d (d'.onSpn g) := s.other

theorem ArcStands.sledLoop (s : ArcStands d d') (h p : Nat) : ArcStands d (d'.sledLoop h p) := by
  refine s.each _ fun n q _ => ArcStands.portWrite ?_ _ _
  exact (ArcStands.refl n).other

theorem ArcStands.spinLaw (s : ArcStands d d') (k : Nat) (e lo hi : Int) : ArcStands d (d'.spinLaw k e lo hi).1 := by
  unfold Dev.spinLaw
  dsimp only
  exact s.onSpn _

theorem ArcStands.stepLoop (s : ArcStands d d') (p : Nat) : ArcStands d (d'.stepLoop p) :=
  ((s.spinLaw _ _ _ _).portWrite _ _).portWrite _ _

theorem ArcStands.fieldWeakening (s : ArcStands d d') (p : Nat) : ArcStands d (d'.fieldWeakening p) := by
  unfold Dev.fieldWeakening
  refine (s.onSpn _).when ?_
  exact (ArcStands.refl _).arcEvent p _ _

theorem ArcStands.focLoop (s : ArcStands d d') (p : Nat) : ArcStands d (d'.focLoop p) := by
  unfold Dev.focLoop
  extract_lets i c sn ia ib id iq w ramp we n idRef most regen a lim b q vd vq m bus fed
  have weakened : ArcStands d n := s.fieldWeakening p
  have speed : ArcStands d a.1 := weakened.spinLaw _ _ _ _
  have direct : ArcStands d b.1 := speed.spinLaw _ _ _ _
  have quadrature : ArcStands d q.1 := direct.spinLaw _ _ _ _
  have driven : ArcStands d m := quadrature.onSpn _
  split
  · exact (driven.portWrite _ _).portWrite _ _
  · exact (driven.portWrite _ _).each _ fun n x _ => (ArcStands.refl n).portWrite _ _

theorem ArcStands.motorPeriod (s : ArcStands d d') (p : Nat) : ArcStands d (d'.motorPeriod p) := by
  unfold Dev.motorPeriod
  refine ((s.when ((ArcStands.refl _).sledLoop 0 p)).when ((ArcStands.refl _).sledLoop 1 p)).when ?_
  exact iteInduction (fun _ => (ArcStands.refl _).stepLoop p) fun _ => (ArcStands.refl _).focLoop p

theorem ArcStands.apcStep (s : ArcStands d d') (h b : Nat) (second : Bool) (sample : Nat × Bool) (target : Nat) :
    ArcStands d (d'.apcStep h b second sample target) := by
  unfold Dev.apcStep
  exact iteInduction (fun _ => s) fun _ => (s.onLoop h _).loopOut h _ _

theorem ArcStands.apcPeriod (s : ArcStands d d') (h : Nat) : ArcStands d (d'.apcPeriod h) :=
  s.each _ fun n b _ => ((ArcStands.refl n).apcStep h b _ _ _).apcStep h b _ _ _

/-- The vendor programs of a period leave the engines and pairs, but their events. -/
theorem Dev.arcStands_vendorPeriod (d : Dev) (p : Nat) : ArcStands d (d.vendorPeriod p) := by
  unfold Dev.vendorPeriod
  refine (((ArcStands.refl d).each _ fun n h _ => ?_).when ?_).when ?_
  · exact (ArcStands.refl n).when ((ArcStands.refl n).bundlePeriod h p)
  · exact (ArcStands.refl _).motorPeriod p
  · exact (ArcStands.refl _).each _ fun n h _ => (ArcStands.refl n).when ((ArcStands.refl n).apcPeriod h)

end

end Sys2Proof.Machine

/-! PROOFS. What the steps of a period boundary do to the roles, engines and pairs (O42). -/

namespace Sys2Proof.Machine

/-! ## Registers that a change leaves in the Arc part -/

section
variable (d : Dev) (f : Field) (a v o : Nat) (w : Word) (b : Bool)

@[simp] theorem Dev.arcEng_setReg : (d.setReg a w).arcEng o = d.arcEng o := rfl
@[simp] theorem Dev.arcEng_put : (d.put f v).arcEng o = d.arcEng o := rfl
@[simp] theorem Dev.arcEng_putBit : (d.putBit f b).arcEng o = d.arcEng o := rfl
@[simp] theorem Dev.arcEng_count : (d.count a).arcEng o = d.arcEng o := rfl

end

/-! ## Changes of every engine of a list -/

/-- What each element's change leaves is left at the end. -/
theorem Dev.each_keeps {α β : Type} (view : Dev → β) {f : Dev → α → Dev} (h : ∀ d x, view (f d x) = view d) (xs : List α) (d : Dev) :
    view (d.each xs f) = view d :=
  Dev.each_induction (fun n => view n = view d) f (fun n x hn => (h n x).trans hn) xs d rfl

/-- What the change of an element reaches, and none undoes, holds at the end. -/
theorem Dev.each_reaches {α : Type} {f : Dev → α → Dev} {Q : Dev → Prop} {o : α} (hit : ∀ d, Q (f d o))
    (keep : ∀ d x, x ≠ o → Q d → Q (f d x)) : ∀ (xs : List α) (d : Dev), o ∈ xs → Q (d.each xs f)
  | [], _, ho => absurd ho List.not_mem_nil
  | x :: xs, d, ho => by
    by_cases hx : o ∈ xs
    · exact Dev.each_reaches hit keep xs _ hx
    · obtain rfl := (List.mem_cons.mp ho).resolve_right hx
      refine Dev.each_induction Q f (fun n y hn => ?_) xs _ (hit d)
      by_cases hy : y = o
      · exact hy ▸ hit n
      · exact keep n y hy hn

/-- Each engine of a list, none twice, changes once. -/
theorem Dev.arcEng_each {f : Dev → Nat → Dev} {P : ArcSt → ArcSt → Prop} {o : Nat}
    (own : ∀ d, P (d.arcEng o) ((f d o).arcEng o)) (others : ∀ d e, o ≠ e → (f d e).arcEng o = d.arcEng o) :
    ∀ (xs : List Nat) (d : Dev), xs.Nodup → o ∈ xs → P (d.arcEng o) ((d.each xs f).arcEng o)
  | [], _, _, ho => absurd ho List.not_mem_nil
  | x :: xs, d, nodup, ho => by
    obtain ⟨fresh, nodup⟩ := List.nodup_cons.mp nodup
    by_cases hx : o ∈ xs
    · have ne : o ≠ x := fun he => fresh (he ▸ hx)
      have rest := Dev.arcEng_each own others xs (f d x) nodup hx
      rwa [others d x ne] at rest
    · obtain rfl := (List.mem_cons.mp ho).resolve_right hx
      have stands (n : Dev) : ∀ ys : List Nat, o ∉ ys → (n.each ys f).arcEng o = n.arcEng o := fun ys => by
        induction ys generalizing n with
        | nil => exact fun _ => rfl
        | cons y ys ih =>
          intro hy
          exact (ih (f n y) (List.not_mem_of_not_mem_cons hy)).trans (others n y (List.ne_of_not_mem_cons hy))
      rw [show d.each (o :: xs) f = (f d o).each xs f from rfl, stands _ xs hx]
      exact own d

/-! ## Roles, and the engines that run -/

/-- d' has the engines of d in the same roles, running and idle as there, with the same images named in their registers. -/
structure RolesStand (d d' : Dev) : Prop where
  pairOf : ∀ e < 8, d'.fld (Fld.ARC_CTRL_PAIR e) = d.fld (Fld.ARC_CTRL_PAIR e)
  role : ∀ e < 8, d'.fld (Fld.ARC_CTRL_ROLE e) = d.fld (Fld.ARC_CTRL_ROLE e)
  running : ∀ e < 8, d'.fld (Fld.ARC_STATUS_RUNNING e) = d.fld (Fld.ARC_STATUS_RUNNING e)
  image : ∀ e < 8, d'.reg (Adr.ARC_IMAGE e) = d.reg (Adr.ARC_IMAGE e)

namespace RolesStand
variable {d d' : Dev}

theorem of_regs (h : d'.regs = d.regs) : RolesStand d d' := by
  have reg (a : Nat) : d'.reg a = d.reg a := by unfold Dev.reg; rw [h]
  exact ⟨fun _ _ => Dev.fld_of_reg_eq (reg _), fun _ _ => Dev.fld_of_reg_eq (reg _), fun _ _ => Dev.fld_of_reg_eq (reg _),
    fun _ _ => reg _⟩

theorem refl (d : Dev) : RolesStand d d := of_regs rfl

theorem trans {d'' : Dev} (h : RolesStand d d') (h' : RolesStand d' d'') : RolesStand d d'' where
  pairOf e he := (h'.pairOf e he).trans (h.pairOf e he)
  role e he := (h'.role e he).trans (h.role e he)
  running e he := (h'.running e he).trans (h.running e he)
  image e he := (h'.image e he).trans (h.image e he)

/-- Changes outside the registers. -/
theorem onEng (h : RolesStand d d') (e : Nat) (g : ArcSt → ArcSt) : RolesStand d (d'.onEng e g) := h.trans (of_regs rfl)

theorem onPair (h : RolesStand d d') (p : Nat) (g : ArcPairSt → ArcPairSt) : RolesStand d (d'.onPair p g) := h.trans (of_regs rfl)

/-- A register that is none of an engine's first two, nor names its image. -/
theorem setReg (h : RolesStand d d') {a : Nat} {v : Word}
    (ha : ∀ e, a ≠ Adr.ARC_CTRL e ∧ a ≠ Adr.ARC_STATUS e ∧ a ≠ Adr.ARC_IMAGE e) : RolesStand d (d'.setReg a v) :=
  h.trans
    { pairOf := fun e _ => Dev.fld_setReg_ne d' a v _ (ha e).1.symm
      role := fun e _ => Dev.fld_setReg_ne d' a v _ (ha e).1.symm
      running := fun e _ => Dev.fld_setReg_ne d' a v _ (ha e).2.1.symm
      image := fun e _ => Dev.reg_setReg_ne d' _ (ha e).2.2.symm }

/-- A field of an engine's status other than RUNNING. -/
theorem status (h : RolesStand d d') {f : Field} {e v : Nat} (ha : f.adr = Adr.ARC_STATUS e := by rfl)
    (lo : 1 ≤ f.lo := by exact Nat.le_of_ble_eq_true rfl) (hi : f.lo + f.width ≤ 32 := by exact Nat.le_of_ble_eq_true rfl) :
    RolesStand d (d'.put f v) := by
  have ctrl (o : Nat) : Adr.ARC_CTRL o ≠ f.adr := by rw [ha]; exact Adr.arcCtrl_ne_arcStatus o e
  refine h.trans
    { pairOf := fun o _ => Dev.fld_put_ne d' f _ v hi (.inl (ctrl o))
      role := fun o _ => Dev.fld_put_ne d' f _ v hi (.inl (ctrl o))
      running := fun o _ => Dev.fld_put_ne d' f _ v hi (.inr (.inl lo))
      image := fun o _ => Dev.reg_setReg_ne d' _ ?_ }
  rw [ha]
  unfold Adr.ARC_IMAGE Adr.ARC_STATUS; omega

theorem statusBit (h : RolesStand d d') {f : Field} {e : Nat} {b : Bool} (ha : f.adr = Adr.ARC_STATUS e := by rfl)
    (lo : 1 ≤ f.lo := by exact Nat.le_of_ble_eq_true rfl) (hi : f.lo + f.width ≤ 32 := by exact Nat.le_of_ble_eq_true rfl) :
    RolesStand d (d'.putBit f b) := h.status ha lo hi

/-- A field of an engine's control other than its role and pair. -/
theorem ctrlBit (h : RolesStand d d') {f : Field} {e : Nat} {b : Bool} (ha : f.adr = Adr.ARC_CTRL e := by rfl)
    (hi : f.lo + f.width ≤ 10 := by exact Nat.le_of_ble_eq_true rfl) : RolesStand d (d'.putBit f b) := by
  have status (o : Nat) : Adr.ARC_STATUS o ≠ f.adr := by rw [ha]; exact (Adr.arcCtrl_ne_arcStatus e o).symm
  have in32 : f.lo + f.width ≤ 32 := le_trans hi (by decide)
  refine h.trans
    { pairOf := fun o _ => Dev.fld_put_ne d' f _ _ in32 (.inr (.inr hi))
      role := fun o _ => Dev.fld_put_ne d' f _ _ in32 (.inr (.inr (le_trans hi (by decide : 10 ≤ 14))))
      running := fun o _ => Dev.fld_put_ne d' f _ _ in32 (.inl (status o))
      image := fun o _ => Dev.reg_setReg_ne d' _ ?_ }
  rw [ha]
  unfold Adr.ARC_IMAGE Adr.ARC_CTRL; omega

/-- A counter of an engine. -/
theorem count (h : RolesStand d d') (e : Nat) {k : Nat} (hk : k < 8) : RolesStand d (d'.count (Adr.ARC_CNT e k)) :=
  h.setReg fun o => by unfold Adr.ARC_CNT Adr.ARC_CTRL Adr.ARC_STATUS Adr.ARC_IMAGE; omega

theorem when (h : RolesStand d d') {c : Bool} {f : Dev → Dev} (hf : RolesStand d' (f d')) : RolesStand d (d'.when c f) := by
  cases c with
  | true => exact h.trans hf
  | false => exact h

theorem each (h : RolesStand d d') {α : Type} {f : Dev → α → Dev} (xs : List α) (hf : ∀ n x, RolesStand n (f n x)) :
    RolesStand d (d'.each xs f) :=
  Dev.each_induction (RolesStand d) f (fun n x hn => hn.trans (hf n x)) xs d' h

theorem of_arcStands (h : ArcStands d d') : RolesStand d d' := by
  have ctrl (e : Nat) : d'.reg (Adr.ARC_CTRL e) = d.reg (Adr.ARC_CTRL e) ∨ 8 ≤ e := by
    refine or_iff_not_imp_right.mpr fun he => h.regs _ (by unfold OutsideArc Adr.ARC_CTRL; omega)
      (fun o _ => Adr.arcCtrl_ne_arcStatus e o) fun o _ k _ hk => Adr.arcCtrl_ne_arcCnt e o hk
  refine ⟨fun e he => ?_, fun e he => ?_, fun e he => h.status e 0 1 he (.inl (by decide)), fun e he => ?_⟩
  · exact Dev.fld_of_reg_eq ((ctrl e).resolve_right (by omega))
  · exact Dev.fld_of_reg_eq ((ctrl e).resolve_right (by omega))
  · refine h.regs _ (by unfold OutsideArc Adr.ARC_IMAGE; omega) (fun o _ => ?_) fun o _ k _ hk => ?_
    · unfold Adr.ARC_IMAGE Adr.ARC_STATUS; omega
    · unfold Adr.ARC_IMAGE Adr.ARC_CNT; omega

/-- The same engines hold roles in a pair. -/
theorem pairEngines (h : RolesStand d d') (p : Nat) : d'.pairEngines p = d.pairEngines p := by
  have pairs : (List.range 8).filter (fun e => d'.pairOf e == p) = (List.range 8).filter fun e => d.pairOf e == p :=
    List.filter_congr fun e he => by rw [Dev.pairOf, Dev.pairOf, h.pairOf e (List.mem_range.mp he)]
  have roles (r : Nat) : ((List.range 8).filter fun e => d.pairOf e == p).filter (fun e => d'.fld (Fld.ARC_CTRL_ROLE e) == r) =
      ((List.range 8).filter fun e => d.pairOf e == p).filter fun e => d.fld (Fld.ARC_CTRL_ROLE e) == r :=
    List.filter_congr fun e he => by rw [h.role e (List.mem_range.mp (List.mem_filter.mp he).1)]
  simp only [Dev.pairEngines, pairs, roles]

theorem bit_running (h : RolesStand d d') {e : Nat} (he : e < 8) :
    d'.bit (Fld.ARC_STATUS_RUNNING e) = d.bit (Fld.ARC_STATUS_RUNNING e) := Dev.bit_of_fld_eq (h.running e he)

end RolesStand

end Sys2Proof.Machine

/-! PROOFS. The stages of a period boundary: exchange, advance, checkpoint, hand-over, begin (O42). -/

namespace Sys2Proof.Machine

section
variable (d : Dev) (p : Nat)

/-! ## The period change (R196) -/

theorem Dev.boundaryPeriod_spec :
    let m := d.boundaryPeriod p
    m.arc.eng = d.arc.eng ∧ m.arc.ports = d.arc.ports ∧ m.arcPair p = { d.arcPair p with periodNext := none } ∧ RolesStand d m := by
  have period (o e : Nat) : Adr.ARC_PERIOD o ≠ Adr.ARC_CTRL e ∧ Adr.ARC_PERIOD o ≠ Adr.ARC_STATUS e ∧ Adr.ARC_PERIOD o ≠ Adr.ARC_IMAGE e := by
    unfold Adr.ARC_PERIOD Adr.ARC_CTRL Adr.ARC_STATUS Adr.ARC_IMAGE; omega
  intro m
  cases hp : (d.arcPair p).periodNext with
  | none =>
    have same : m = d := by
      show d.boundaryPeriod p = d
      unfold Dev.boundaryPeriod
      rw [hp]
    rw [same]
    refine ⟨rfl, rfl, ?_, .refl d⟩
    rw [← hp]
  | some v =>
    set n := d.each (d.pairEngines p) fun d e => d.setReg (Adr.ARC_PERIOD e) v with hn
    have known : m = n.onPair p fun s => { s with periodNext := none } := by
      show d.boundaryPeriod p = _
      unfold Dev.boundaryPeriod
      rw [hp]
    have arc : n.arc = d.arc := Dev.each_keeps (fun d => d.arc) (fun _ _ => by rfl) _ d
    have pair : n.arcPair p = d.arcPair p := by unfold Dev.arcPair; rw [arc]
    rw [known, Dev.eng_onPair, Dev.ports_onPair, Dev.arcPair_onPair_self, pair, arc]
    exact ⟨rfl, rfl, rfl, ((RolesStand.refl d).each _ fun x e => (RolesStand.refl x).setReg (period e)).onPair p _⟩

/-! ## The exchange (R188, R200) -/

/-- An exchange of an engine. -/
theorem Dev.exchange_spec (e : Nat) (b : Bool) :
    let m := d.exchange e b
    m.arcEng e = { d.arcEng e with swapped := true, ctx := (d.arcEng e).ctx.exchanged b } ∧
    (∀ o, o ≠ e → m.arcEng o = d.arcEng o) ∧ m.arc.pair = d.arc.pair ∧ m.arc.ports = d.arc.ports ∧ RolesStand d m := by
  refine ⟨?_, fun o ho => ?_, rfl, rfl, ?_⟩
  · simp only [Dev.exchange, Dev.arcEng_count, Dev.arcEng_putBit, Dev.arcEng_put, Dev.arcEng_onEng_self]
  · simp only [Dev.exchange, Dev.arcEng_count, Dev.arcEng_putBit, Dev.arcEng_put, Dev.arcEng_onEng_ne d _ ho]
  · exact (((((RolesStand.refl d).onEng e _).status).statusBit).ctrlBit).count e (by decide)

/-- The engines of a pair, none of them swapped. -/
def Dev.unswapped : Dev := d.each (d.loadedEngines p) fun d e => d.onEng e fun a => { a with swapped := false }

theorem Dev.unswapped_spec :
    let n := d.unswapped p
    n.arc.ports = d.arc.ports ∧ n.arcPair p = d.arcPair p ∧ RolesStand d n :=
  ⟨Dev.each_keeps (fun d => d.arc.ports) (fun _ _ => by rfl) _ d, Dev.each_keeps (fun d => d.arcPair p) (fun _ _ => by rfl) _ d,
    (RolesStand.refl d).each _ fun x e => (RolesStand.refl x).onEng e _⟩

/-- The exchange of a pair, as its image is BUMPLESS or not. -/
def Dev.exchangePair (b : Bool) : Dev :=
  ((d.unswapped p).each (d.loadedEngines p) fun d e => d.exchange e b).onPair p fun s =>
    { s with swapDue := false, ckpt := s.ckpt.exchanged b }

theorem Dev.boundaryExchange_eq : d.boundaryExchange p =
    if (d.arcPair p).swapDue then d.exchangePair p ((d.arcPair p).image.any (·.bumpless)) else d.unswapped p := by
  obtain ⟨_, pair, _⟩ := d.unswapped_spec p
  unfold Dev.boundaryExchange
  dsimp only
  rw [show (d.each (d.loadedEngines p) fun d e => d.onEng e fun a => { a with swapped := false }) = d.unswapped p from rfl, pair]
  cases (d.arcPair p).image <;> rfl

/-- What a boundary's exchange changes but the engines. -/
theorem Dev.boundaryExchange_spec :
    let m := d.boundaryExchange p
    m.arc.ports = d.arc.ports ∧ m.arcPair p = { d.arcPair p with swapDue := false, ckpt := (m.arcPair p).ckpt } ∧ RolesStand d m := by
  obtain ⟨ports, pair, roles⟩ := d.unswapped_spec p
  rw [Dev.boundaryExchange_eq]
  cases due : (d.arcPair p).swapDue with
  | false =>
    rw [if_neg Bool.false_ne_true]
    refine ⟨ports, ?_, roles⟩
    rw [pair, ← due]
  | true =>
    rw [if_pos rfl]
    unfold Dev.exchangePair
    generalize (d.arcPair p).image.any (·.bumpless) = b
    generalize d.unswapped p = n at ports pair roles
    have ports' := Dev.each_keeps (fun d => d.arc.ports) (fun x e => (x.exchange_spec e b).2.2.2.1) (d.loadedEngines p) n
    have pair' : (n.each (d.loadedEngines p) fun d e => d.exchange e b).arcPair p = n.arcPair p :=
      Dev.each_keeps (fun d => d.arcPair p) (fun _ _ => by rfl) _ n
    refine ⟨?_, ?_, (roles.each _ fun x e => (x.exchange_spec e b).2.2.2.2).onPair p _⟩
    · rw [Dev.ports_onPair, ports', ports]
    · rw [Dev.arcPair_onPair_self, pair', pair]

/-- The banks of a pair's engines after a boundary, as an exchange was due or not. -/
theorem Dev.arcEng_boundaryExchange (ht : (d.arcPair p).takeover = none) {o : Nat} (ho : o ∈ d.pairEngines p) :
    ((d.arcPair p).swapDue = false → (d.boundaryExchange p).arcEng o = { d.arcEng o with swapped := false }) ∧
    ((d.arcPair p).swapDue = true → (d.boundaryExchange p).arcEng o = { d.arcEng o with
      swapped := true, ctx := (d.arcEng o).ctx.exchanged ((d.arcPair p).image.any (·.bumpless)) }) := by
  have loaded : d.loadedEngines p = d.pairEngines p := by
    unfold Dev.loadedEngines
    rw [ht, List.append_nil]
  have first : (d.unswapped p).arcEng o = { d.arcEng o with swapped := false } := by
    unfold Dev.unswapped
    rw [loaded]
    exact Dev.arcEng_each (P := fun a a' => a' = { a with swapped := false }) (fun x => x.arcEng_onEng_self o _)
      (fun x e he => x.arcEng_onEng_ne _ he) _ d (d.pairEngines_nodup p) ho
  rw [Dev.boundaryExchange_eq]
  constructor
  · intro due
    rw [if_neg (by simp [due]), first]
  · intro due
    rw [if_pos due]
    unfold Dev.exchangePair
    generalize (d.arcPair p).image.any (·.bumpless) = b
    have second := Dev.arcEng_each (P := fun a a' => a' = { a with swapped := true, ctx := a.ctx.exchanged b })
      (fun x => (x.exchange_spec o b).1) (fun x e he => (x.exchange_spec e b).2.1 o he) _ (d.unswapped p) (d.pairEngines_nodup p) ho
    rw [Dev.arcEng_onPair, loaded, second, first]

/-! ## The advance of the period (R178) -/

/-- What an advance changes of an engine: the period count and PHASE. -/
def ArcSt.Advanced (first : Bool) (a a' : ArcSt) : Prop :=
  ∃ phase, a' = { a with ctx := { a.ctx with pcnt := if first then a.ctx.pcnt else (a.ctx.pcnt + 1) % 2 ^ 32, phase := phase } }

/-- The advance of one engine, PHASE from the start where it follows the spindle tick. -/
def Dev.advanceEngine (first reset : Bool) (e : Nat) : Dev :=
  let n := max 1 (d.fld (Fld.ARC_PERIOD_PHASE_N e))
  let d := d.onEng e fun a => { a with ctx := { a.ctx with
    pcnt := if first then a.ctx.pcnt else (a.ctx.pcnt + 1) % 2 ^ 32
    phase := if reset then 0 else if first then a.ctx.phase else (a.ctx.phase + 1) % n } }
  d.setReg (Adr.ARC_PCNT e) (BitVec.ofNat 32 (d.arcEng e).ctx.pcnt)

theorem Dev.advancePeriod_eq (first onSpindle : Bool) : d.advancePeriod p first onSpindle =
    d.each (d.loadedEngines p) fun n e => n.advanceEngine first ((d.arcPair p).image.any (·.phaseSync) && onSpindle) e := by
  unfold Dev.advancePeriod
  cases (d.arcPair p).image <;> rfl

theorem Dev.advanceEngine_spec (first reset : Bool) (e : Nat) :
    let m := d.advanceEngine first reset e
    ArcSt.Advanced first (d.arcEng e) (m.arcEng e) ∧ (∀ o, o ≠ e → m.arcEng o = d.arcEng o) ∧ RolesStand d m := by
  have pcnt (o : Nat) : Adr.ARC_PCNT e ≠ Adr.ARC_CTRL o ∧ Adr.ARC_PCNT e ≠ Adr.ARC_STATUS o ∧ Adr.ARC_PCNT e ≠ Adr.ARC_IMAGE o := by
    unfold Adr.ARC_PCNT Adr.ARC_CTRL Adr.ARC_STATUS Adr.ARC_IMAGE; omega
  unfold Dev.advanceEngine
  refine ⟨?_, fun o ho => ?_, ((RolesStand.refl d).onEng e _).setReg pcnt⟩
  · rw [Dev.arcEng_setReg, Dev.arcEng_onEng_self]
    exact ⟨_, rfl⟩
  · rw [Dev.arcEng_setReg, Dev.arcEng_onEng_ne d _ ho]

theorem Dev.advancePeriod_spec (first onSpindle : Bool) :
    let m := d.advancePeriod p first onSpindle
    m.arcPair p = d.arcPair p ∧ RolesStand d m ∧
    ((d.loadedEngines p).Nodup → ∀ o ∈ d.loadedEngines p, ArcSt.Advanced first (d.arcEng o) (m.arcEng o)) ∧
    ∀ Q : ArcSt → Prop, (∀ a a', ArcSt.Advanced first a a' → Q a → Q a') → ∀ o, Q (d.arcEng o) → Q (m.arcEng o) := by
  rw [Dev.advancePeriod_eq]
  generalize ((d.arcPair p).image.any (·.phaseSync) && onSpindle) = reset
  refine ⟨?_, ?_, fun nodup o ho => ?_, fun Q keeps o hQ => ?_⟩
  · exact Dev.each_keeps (fun d => d.arcPair p) (fun _ _ => by rfl) _ d
  · exact (RolesStand.refl d).each _ fun x e => (x.advanceEngine_spec first reset e).2.2
  · exact Dev.arcEng_each (P := ArcSt.Advanced first) (fun x => (x.advanceEngine_spec first reset o).1)
      (fun x e he => (x.advanceEngine_spec first reset e).2.1 o he) _ d nodup ho
  · refine Dev.each_induction (fun x => Q (x.arcEng o)) _ (fun x e hx => ?_) _ d hQ
    by_cases he : o = e
    · subst he
      exact keeps _ _ (x.advanceEngine_spec first reset o).1 hx
    · rw [(x.advanceEngine_spec first reset e).2.1 o he]
      exact hx

end

end Sys2Proof.Machine

/-! PROOFS. The start of a program, and what follows it at a boundary (O42). -/

namespace Sys2Proof.Machine

section
variable (d : Dev) (p : Nat)

/-! ## Roles of a pair's engines (R486) -/

/-- An engine takes a role in a pair. -/
def Dev.seat (a r : Nat) : Dev := (d.put (Fld.ARC_CTRL_PAIR a) p).put (Fld.ARC_CTRL_ROLE a) r

theorem Dev.fillPair_eq (a b : Nat) : d.fillPair p a b = (d.seat p a roleLead).seat p b roleCheck := rfl

theorem Dev.fld_seat (a r e : Nat) :
    (d.seat p a r).fld (Fld.ARC_CTRL_PAIR e) = (if e = a then p % 4 else d.fld (Fld.ARC_CTRL_PAIR e)) ∧
    (d.seat p a r).fld (Fld.ARC_CTRL_ROLE e) = if e = a then r % 4 else d.fld (Fld.ARC_CTRL_ROLE e) := by
  unfold Dev.seat
  have in32 (f : Field) : f = Fld.ARC_CTRL_PAIR a ∨ f = Fld.ARC_CTRL_ROLE a → f.lo + f.width ≤ 32 := by
    rintro (rfl | rfl) <;> exact Nat.le_of_ble_eq_true rfl
  by_cases h : e = a
  · subst h
    rw [if_pos rfl, if_pos rfl, Dev.fld_put_self _ _ _ (in32 _ (.inr rfl)),
      Dev.fld_put_ne _ _ _ _ (in32 _ (.inr rfl)) (.inr (.inl (Nat.le_of_ble_eq_true rfl))), Dev.fld_put_self _ _ _ (in32 _ (.inl rfl))]
    exact ⟨rfl, rfl⟩
  · have apart : Adr.ARC_CTRL e ≠ Adr.ARC_CTRL a := by unfold Adr.ARC_CTRL; omega
    rw [if_neg h, if_neg h, Dev.fld_put_ne _ _ _ _ (in32 _ (.inr rfl)) (.inl apart), Dev.fld_put_ne _ _ _ _ (in32 _ (.inr rfl)) (.inl apart),
      Dev.fld_put_ne _ _ _ _ (in32 _ (.inl rfl)) (.inl apart), Dev.fld_put_ne _ _ _ _ (in32 _ (.inl rfl)) (.inl apart)]
    exact ⟨rfl, rfl⟩

/-- An engine that takes a role in a pair moves none out of it. -/
theorem Dev.mem_pairEngines_seat (hp : p < 4) {a r e : Nat} (hr : r = roleLead ∨ r = roleCheck) (he : e ∈ d.pairEngines p) :
    e ∈ (d.seat p a r).pairEngines p := by
  obtain ⟨small, own, role⟩ := Dev.mem_pairEngines.mp he
  obtain ⟨pair, role'⟩ := d.fld_seat p a r e
  refine Dev.mem_pairEngines.mpr ⟨small, ?_, ?_⟩
  · rw [Dev.pairOf, pair]
    split
    · exact Nat.mod_eq_of_lt hp
    · exact own
  · rw [role']
    split
    · rcases hr with rfl | rfl
      · exact .inl rfl
      · exact .inr rfl
    · exact role

/-- The engines on which a program starts, in their roles. -/
def Dev.seated : Dev :=
  match d.loadEngines p with
  | a :: b :: _ => d.fillPair p a b
  | _ => d

theorem Dev.seated_spec (hp : p < 4) :
    (d.seated p).arc = d.arc ∧ ∀ e ∈ d.pairEngines p, e ∈ (d.seated p).pairEngines p := by
  unfold Dev.seated
  split
  · rw [Dev.fillPair_eq]
    exact ⟨rfl, fun e he => Dev.mem_pairEngines_seat _ p hp (.inr rfl) (Dev.mem_pairEngines_seat _ p hp (.inl rfl) he)⟩
  · exact ⟨rfl, fun _ he => he⟩

/-! ## The start of a program (R188, R198) -/

/-- A program starts on an engine with a context. -/
def Dev.startEngine (im : ArcImage) (ctx : ArcCtx) (e : Nat) : Dev :=
  let d := d.onEng e fun a => { a with ctx := ctx, due := [], coef := im.coef, reported := false }
  let d := (d.put (Fld.ARC_PERIOD_PHASE_N e) im.phaseN).put (Fld.ARC_PERIOD_MULT e) im.mult
  let d := (d.put (Fld.ARC_PERIOD_SRC e) im.src).put (Fld.ARC_BOUND_BOUND e) im.bound
  let d := (d.put (Fld.ARC_BOUND_PROLOGUE e) im.prologue).setReg (Adr.ARC_IMAGE e) im.crc
  let d := (d.putBit (Fld.ARC_STATUS_RUNNING e) true).putBit (Fld.ARC_CTRL_RUN e) true
  let d := ((d.put (Fld.ARC_STATUS_BANK e) 0).setReg (Adr.ARC_PCNT e) 0).putBit (Fld.ARC_CTRL_ZONE_ARM e) false
  (d.putBit (Fld.ARC_STATUS_PAIR_FAILED e) false).putBit (Fld.ARC_STATUS_UNCHECKED e) false

/-- The context with which a program starts. -/
def ArcImage.context (im : ArcImage) (old : Option ArcCtx) : ArcCtx :=
  match im.keepState, old with
  | true, some c => { c with pcnt := 0, phase := 0, bank := 0 }
  | _, _ => { regs := im.regs, mem := im.mem }

/-- The state that the old program leaves. -/
def Dev.oldContext : Option ArcCtx :=
  ((d.pairEngines p).find? fun e => d.bit (Fld.ARC_STATUS_RUNNING e)).map fun e => (d.arcEng e).settled.ctx

theorem Dev.startProgram_eq (im : ArcImage) : d.startProgram p im =
    ((d.seated p).each ((d.seated p).pairEngines p) fun n e => n.startEngine im (im.context (d.oldContext p)) e).onPair p fun s =>
      { s with image := some im, next := none, quiet := false, periodNext := none } := rfl

/-- What an engine and its registers show of the program that runs on it from its start. -/
structure Dev.RunsAfresh (im : ArcImage) (o : Nat) : Prop where
  running : d.bit (Fld.ARC_STATUS_RUNNING o) = true
  image : d.reg (Adr.ARC_IMAGE o) = im.crc
  regs : (d.arcEng o).ctx.regs = im.regs
  bank : (d.arcEng o).ctx.bank = 0
  coef : (d.arcEng o).coef = im.coef

namespace Dev.RunsAfresh
variable {d d' : Dev} {im : ArcImage} {o : Nat}

/-- It goes on while the registers of its role and image stand, and the engine's program and bank. -/
theorem of_roles (h : d.RunsAfresh im o) (ho : o < 8) (roles : RolesStand d d') (regs : (d'.arcEng o).ctx.regs = im.regs)
    (bank : (d'.arcEng o).ctx.bank = 0) (coef : (d'.arcEng o).coef = im.coef) : d'.RunsAfresh im o :=
  ⟨(roles.bit_running ho).trans h.running, (roles.image o ho).trans h.image, regs, bank, coef⟩

theorem of_eng (h : d.RunsAfresh im o) (ho : o < 8) (roles : RolesStand d d') (eng : d'.arcEng o = d.arcEng o) : d'.RunsAfresh im o :=
  h.of_roles ho roles (by rw [eng, h.regs]) (by rw [eng, h.bank]) (by rw [eng, h.coef])

end Dev.RunsAfresh

/-- A program starts on an engine: its registers before RUNNING, those of RUNNING and the image, and those after. -/
theorem Dev.startEngine_stages (im : ArcImage) (ctx : ArcCtx) (e : Nat) : ∃ n m : Dev,
    m = (n.setReg (Adr.ARC_IMAGE e) im.crc).putBit (Fld.ARC_STATUS_RUNNING e) true ∧ RolesStand d n ∧ RolesStand m (d.startEngine im ctx e) := by
  have period (o : Nat) : Adr.ARC_PERIOD e ≠ Adr.ARC_CTRL o ∧ Adr.ARC_PERIOD e ≠ Adr.ARC_STATUS o ∧ Adr.ARC_PERIOD e ≠ Adr.ARC_IMAGE o := by
    unfold Adr.ARC_PERIOD Adr.ARC_CTRL Adr.ARC_STATUS Adr.ARC_IMAGE; omega
  have bound (o : Nat) : Adr.ARC_BOUND e ≠ Adr.ARC_CTRL o ∧ Adr.ARC_BOUND e ≠ Adr.ARC_STATUS o ∧ Adr.ARC_BOUND e ≠ Adr.ARC_IMAGE o := by
    unfold Adr.ARC_BOUND Adr.ARC_CTRL Adr.ARC_STATUS Adr.ARC_IMAGE; omega
  have pcnt (o : Nat) : Adr.ARC_PCNT e ≠ Adr.ARC_CTRL o ∧ Adr.ARC_PCNT e ≠ Adr.ARC_STATUS o ∧ Adr.ARC_PCNT e ≠ Adr.ARC_IMAGE o := by
    unfold Adr.ARC_PCNT Adr.ARC_CTRL Adr.ARC_STATUS Adr.ARC_IMAGE; omega
  unfold Dev.startEngine
  extract_lets d1 d2 d3 d4 d5 d6
  have before : RolesStand d d3 := ((((RolesStand.refl d).onEng e _).setReg period).setReg period).setReg period |>.setReg bound
  refine ⟨d3.put (Fld.ARC_BOUND_PROLOGUE e) im.prologue, _, rfl, before.setReg bound, ?_⟩
  exact ((((((RolesStand.refl _).ctrlBit).status).setReg pcnt).ctrlBit).statusBit).statusBit

/-- An engine shows that it runs an image; roles and the other engines stand. -/
theorem Dev.mark_running (w : Word) (e : Nat) :
    let m := (d.setReg (Adr.ARC_IMAGE e) w).putBit (Fld.ARC_STATUS_RUNNING e) true
    (∀ o, m.reg (Adr.ARC_CTRL o) = d.reg (Adr.ARC_CTRL o)) ∧ m.bit (Fld.ARC_STATUS_RUNNING e) = true ∧ m.reg (Adr.ARC_IMAGE e) = w ∧
    ∀ o, o ≠ e → m.bit (Fld.ARC_STATUS_RUNNING o) = d.bit (Fld.ARC_STATUS_RUNNING o) ∧ m.reg (Adr.ARC_IMAGE o) = d.reg (Adr.ARC_IMAGE o) := by
  have image (o : Nat) : Adr.ARC_IMAGE o ≠ Adr.ARC_STATUS e := by unfold Adr.ARC_IMAGE Adr.ARC_STATUS; omega
  have ctrl (o : Nat) : Adr.ARC_CTRL o ≠ Adr.ARC_IMAGE e := by unfold Adr.ARC_CTRL Adr.ARC_IMAGE; omega
  have status (m : Dev) (a : Nat) (h : a ≠ Adr.ARC_STATUS e) : (m.putBit (Fld.ARC_STATUS_RUNNING e) true).reg a = m.reg a :=
    Dev.reg_setReg_ne m _ h
  refine ⟨fun o => ?_, Dev.bit_putBit_self _ _ true, ?_, fun o ho => ⟨?_, ?_⟩⟩
  · rw [status _ _ (Adr.arcCtrl_ne_arcStatus o e), Dev.reg_setReg_ne _ _ (ctrl o)]
  · rw [status _ _ (image e), Dev.reg_setReg_self]
  · refine Dev.bit_of_reg_eq ((status _ _ ?_).trans (Dev.reg_setReg_ne _ _ ?_))
    · show Adr.ARC_STATUS o ≠ Adr.ARC_STATUS e
      unfold Adr.ARC_STATUS; omega
    · show Adr.ARC_STATUS o ≠ Adr.ARC_IMAGE e
      unfold Adr.ARC_STATUS Adr.ARC_IMAGE; omega
  · rw [status _ _ (image o), Dev.reg_setReg_ne _ _ (by unfold Adr.ARC_IMAGE; omega)]

theorem Dev.arcEng_startEngine (im : ArcImage) (ctx : ArcCtx) (e : Nat) :
    let m := d.startEngine im ctx e
    m.arcEng e = { d.arcEng e with ctx := ctx, due := [], coef := im.coef, reported := false } ∧ ∀ o, o ≠ e → m.arcEng o = d.arcEng o := by
  refine ⟨?_, fun o ho => ?_⟩
  · simp only [Dev.startEngine, Dev.arcEng_putBit, Dev.arcEng_put, Dev.arcEng_setReg, Dev.arcEng_onEng_self]
  · simp only [Dev.startEngine, Dev.arcEng_putBit, Dev.arcEng_put, Dev.arcEng_setReg, Dev.arcEng_onEng_ne d _ ho]

/-- The start of an engine moves none in or out of a pair. -/
theorem Dev.pairEngines_startEngine (im : ArcImage) (ctx : ArcCtx) (e : Nat) : (d.startEngine im ctx e).pairEngines p = d.pairEngines p := by
  obtain ⟨n, m, hm, before, after⟩ := d.startEngine_stages im ctx e
  obtain ⟨ctrl, _⟩ := n.mark_running im.crc e
  rw [after.pairEngines, hm, Dev.pairEngines_congr (fun o _ => ctrl o), before.pairEngines]

/-- An engine started runs the image afresh, and the others stand. -/
theorem Dev.runsAfresh_startEngine (im : ArcImage) {ctx : ArcCtx} (e : Nat) (regs : ctx.regs = im.regs) (bank : ctx.bank = 0) :
    let m := d.startEngine im ctx e
    (e < 8 → m.RunsAfresh im e) ∧ ∀ o < 8, o ≠ e → d.RunsAfresh im o → m.RunsAfresh im o := by
  obtain ⟨n, m, hm, before, after⟩ := d.startEngine_stages im ctx e
  obtain ⟨_, running, image, others⟩ := n.mark_running im.crc e
  obtain ⟨own, else_⟩ := d.arcEng_startEngine im ctx e
  rw [← hm] at running image others
  refine ⟨fun he => ⟨?_, ?_, ?_, ?_, ?_⟩, fun o ho ne h => ⟨?_, ?_, ?_, ?_, ?_⟩⟩
  · rw [after.bit_running he, running]
  · rw [after.image e he, image]
  · rw [own, regs]
  · rw [own, bank]
  · rw [own]
  · rw [after.bit_running ho, (others o ne).1, before.bit_running ho, h.running]
  · rw [after.image o ho, (others o ne).2, before.image o ho, h.image]
  · rw [else_ o ne, h.regs]
  · rw [else_ o ne, h.bank]
  · rw [else_ o ne, h.coef]

/-- What the pair holds of a program that has started. -/
theorem Dev.arcPair_startProgram (hp : p < 4) (im : ArcImage) : (d.startProgram p im).arcPair p =
    { d.arcPair p with image := some im, next := none, quiet := false, periodNext := none } := by
  have seated : (d.seated p).arcPair p = d.arcPair p := by unfold Dev.arcPair; rw [(d.seated_spec p hp).1]
  have pair := Dev.each_keeps (fun d => d.arcPair p) (f := fun n e => n.startEngine im (im.context (d.oldContext p)) e)
    (fun _ _ => by rfl) ((d.seated p).pairEngines p) (d.seated p)
  rw [Dev.startProgram_eq, Dev.arcPair_onPair_self, pair, seated]

/-- A program that starts in a pair that ran nothing runs afresh on every engine of it, those that were in it among them. -/
theorem Dev.startProgram_spec (hp : p < 4) (im : ArcImage) (idle : d.pairRuns p = false) :
    let m := d.startProgram p im
    (∀ o ∈ d.pairEngines p, o ∈ m.pairEngines p) ∧ ∀ o ∈ m.pairEngines p, m.RunsAfresh im o := by
  have old : d.oldContext p = none := by
    unfold Dev.oldContext
    have none_runs (e : Nat) (he : e ∈ d.pairEngines p) : ¬d.bit (Fld.ARC_STATUS_RUNNING e) = true :=
      List.any_eq_false.mp idle e he
    rw [List.find?_eq_none.mpr none_runs, Option.map_none]
  have fresh : im.context none = { regs := im.regs, mem := im.mem } := by
    unfold ArcImage.context
    cases im.keepState <;> rfl
  have engines := Dev.each_keeps (fun d => d.pairEngines p) (fun x e => x.pairEngines_startEngine p im (im.context none) e)
    ((d.seated p).pairEngines p) (d.seated p)
  rw [Dev.startProgram_eq, old]
  intro m
  rw [Dev.pairEngines_onPair, engines]
  refine ⟨(d.seated_spec p hp).2, fun o ho => ?_⟩
  have small := Dev.pairEngines_lt ho
  have start (x : Dev) (e : Nat) := x.runsAfresh_startEngine im e (ctx := im.context none) (by rw [fresh]) (by rw [fresh])
  have runs := Dev.each_reaches (Q := fun x => x.RunsAfresh im o) (fun x => (start x o).1 small)
    (fun x e ne h => (start x e).2 o small ne.symm h) _ (d.seated p) ho
  exact runs.of_eng small (.of_regs rfl) rfl

/-! ## The checkpoint, the hand-over and the begin (R176, R199, R200, R204) -/

theorem Dev.takeCheckpoint_spec :
    let m := d.takeCheckpoint p
    m.arc.eng = d.arc.eng ∧ m.arcPair p = { d.arcPair p with ckpt := (m.arcPair p).ckpt } ∧ m.regs = d.regs ∧
    ∀ l, (d.pairEngines p).head? = some l → (m.arcPair p).ckpt = (d.arcEng l).ctx := by
  unfold Dev.takeCheckpoint
  cases (d.pairEngines p).head? with
  | none => exact ⟨rfl, rfl, rfl, fun l hl => by cases hl⟩
  | some l =>
    refine ⟨rfl, ?_, rfl, fun l' hl => ?_⟩
    · rw [Dev.arcPair_onPair_self]
    · rw [Dev.arcPair_onPair_self, Option.some.inj hl]

/-- The loader's end leaves engines, pairs and roles. -/
theorem Dev.loaderEnds_spec (r : Nat) :
    let m := d.loaderEnds r
    m.arc.eng = d.arc.eng ∧ m.arc.pair = d.arc.pair ∧ m.arc.loading = none ∧ RolesStand d m := by
  have apart (e : Nat) : Adr.ARC_LDR_STATUS ≠ Adr.ARC_CTRL e ∧ Adr.ARC_LDR_STATUS ≠ Adr.ARC_STATUS e ∧ Adr.ARC_LDR_STATUS ≠ Adr.ARC_IMAGE e := by
    unfold Adr.ARC_LDR_STATUS Adr.ARC_CTRL Adr.ARC_STATUS Adr.ARC_IMAGE; omega
  refine ⟨rfl, rfl, rfl, ?_⟩
  unfold Dev.loaderEnds Dev.loaderDone
  exact ((((RolesStand.of_regs rfl : RolesStand d { d with arc := { d.arc with loading := none } }).setReg apart).setReg apart).setReg apart)

end

end Sys2Proof.Machine

/-! PROOFS. The hand-over's step and the begin of a period, and the boundary as a whole (O42). -/

namespace Sys2Proof.Machine

theorem Dev.arcPair_congr {d d' : Dev} (h : d'.arc.pair = d.arc.pair) (p : Nat) : d'.arcPair p = d.arcPair p := by
  unfold Dev.arcPair; rw [h]

section
variable (d : Dev) (p : Nat)

/-! ## The hand-over's step (R204) -/

theorem Dev.loadCheckpoint_spec (e : Nat) :
    let m := d.loadCheckpoint p e
    (m.arcEng e).ctx = (d.arcPair p).ckpt ∧ (m.arcEng e).coef = ((d.arcPair p).image.map (·.coef)).getD [] ∧
    (∀ o, o ≠ e → m.arcEng o = d.arcEng o) ∧ m.arc.pair = d.arc.pair ∧ m.regs = d.regs := by
  unfold Dev.loadCheckpoint
  refine ⟨?_, ?_, fun o ho => Dev.arcEng_onEng_ne d _ ho, rfl, rfl⟩
  · rw [Dev.arcEng_onEng_self]
  · rw [Dev.arcEng_onEng_self]
    cases (d.arcPair p).image <;> rfl

/-- The checkpoint of a pair has reached an engine. -/
def Dev.Loaded (n : Dev) (o : Nat) : Prop :=
  (n.arcEng o).ctx = (d.arcPair p).ckpt ∧ (n.arcEng o).coef = ((d.arcPair p).image.map (·.coef)).getD []

theorem Dev.handoverStep_of_none (h : (d.arcPair p).handover = none) : d.handoverStep p = d := by
  unfold Dev.handoverStep
  rw [h]

/-- A hand-over's step changes no program of the pair and no role, and engines only by the checkpoint. -/
structure Dev.HandoverStepped (n : Dev) : Prop where
  image : (n.arcPair p).image = (d.arcPair p).image
  next : (n.arcPair p).next = (d.arcPair p).next
  roles : RolesStand d n
  engines : ∀ o, n.arcEng o = d.arcEng o ∨ d.Loaded p n o

theorem Dev.handoverStep_spec : d.HandoverStepped p (d.handoverStep p) := by
  have ends (r : Nat) : d.HandoverStepped p ((d.onPair p fun s => { s with handover := none }).loaderEnds r) := by
    obtain ⟨eng, pair, _, roles⟩ := (d.onPair p fun s => { s with handover := none }).loaderEnds_spec r
    refine ⟨?_, ?_, ((RolesStand.refl d).onPair p _).trans roles, fun o => .inl ?_⟩
    · rw [Dev.arcPair_congr pair, Dev.arcPair_onPair_self]
    · rw [Dev.arcPair_congr pair, Dev.arcPair_onPair_self]
    · unfold Dev.arcEng
      rw [eng]
      rfl
  unfold Dev.handoverStep
  split
  case h_1 out inn _ =>
    refine iteInduction (fun _ => ends 10) fun _ => ⟨?_, ?_, (RolesStand.refl d).onPair p _, fun o => .inl rfl⟩
    all_goals rw [Dev.arcPair_onPair_self]
  case h_2 out inn _ =>
    refine iteInduction (fun _ => ends 10) fun _ => ?_
    obtain ⟨ctx, coef, others, pair, regs⟩ := d.loadCheckpoint_spec p inn
    dsimp only
    generalize d.loadCheckpoint p inn = n at ctx coef others pair regs
    have same : n.arcPair p = d.arcPair p := by unfold Dev.arcPair; rw [pair]
    set x := n.onPair p fun s => { s with
      handover := some (out, inn, 2), takeover := some { spare := some inn, loaded := true, voting := true, handover := true } } with hx
    have arcOf : (x.each (x.voters p) fun d e => d.putBit (Fld.ARC_STATUS_VOTING e) true).arc = x.arc :=
      Dev.each_keeps (fun d => d.arc) (fun _ _ => by rfl) _ x
    have roles : RolesStand x (x.each (x.voters p) fun d e => d.putBit (Fld.ARC_STATUS_VOTING e) true) :=
      (RolesStand.refl x).each _ fun y e => (RolesStand.refl y).statusBit
    generalize (x.each (x.voters p) fun d e => d.putBit (Fld.ARC_STATUS_VOTING e) true) = y at arcOf roles
    have pairOf : y.arcPair p = x.arcPair p := by unfold Dev.arcPair; rw [arcOf]
    have engOf (o : Nat) : y.arcEng o = n.arcEng o := by unfold Dev.arcEng; rw [arcOf]; rfl
    refine ⟨?_, ?_, ((RolesStand.of_regs regs).onPair p _).trans roles, fun o => ?_⟩
    · rw [pairOf, hx, Dev.arcPair_onPair_self, same]
    · rw [pairOf, hx, Dev.arcPair_onPair_self, same]
    · unfold Dev.Loaded
      rw [engOf]
      by_cases ho : o = inn
      · exact .inr (ho ▸ ⟨ctx, coef⟩)
      · exact .inl (others o ho)
  case h_3 => exact ⟨rfl, rfl, .refl d, fun o => .inl rfl⟩

/-! ## The begin of a period (R176, R199, R212, R222) -/

theorem Dev.arcStands_driveBoundary : ArcStands d d.driveBoundary.handoverBoundary := by
  have outside : OutsideArc (Fld.MOT_STATUS_SPN_STATE).adr := .inr (by decide)
  have drive : ArcStands d d.driveBoundary := by
    unfold Dev.driveBoundary
    refine iteInduction (fun _ => ?_) fun _ => iteInduction (fun _ => ?_) fun _ => .refl d
    · exact ((ArcStands.refl d).put outside).onSpn _
    · exact ((ArcStands.refl d).put outside).onSpn _
  unfold Dev.handoverBoundary
  exact drive.onSpn _

/-- The engines that vote start with fresh posts and signatures. -/
def Dev.freshPosts : Dev := d.each (d.voters p) fun d e =>
  (d.onEng e fun a => { a with sig := [], posts := [], idle := false }).count (Adr.ARC_CNT e 0)

theorem Dev.freshPosts_spec :
    let m := d.freshPosts p
    m.arcPair p = d.arcPair p ∧ RolesStand d m ∧
    ((d.voters p).Nodup → ∀ o ∈ d.voters p, m.arcEng o = { d.arcEng o with sig := [], posts := [], idle := false }) ∧
    ∀ o, (m.arcEng o).ctx = (d.arcEng o).ctx ∧ (m.arcEng o).coef = (d.arcEng o).coef := by
  have own (x : Dev) (o : Nat) : ((x.onEng o fun a => { a with sig := [], posts := [], idle := false }).count (Adr.ARC_CNT o 0)).arcEng o =
      { x.arcEng o with sig := [], posts := [], idle := false } := by
    rw [Dev.arcEng_count, Dev.arcEng_onEng_self]
  have others (x : Dev) (e o : Nat) (ho : o ≠ e) :
      ((x.onEng e fun a => { a with sig := [], posts := [], idle := false }).count (Adr.ARC_CNT e 0)).arcEng o = x.arcEng o := by
    rw [Dev.arcEng_count, Dev.arcEng_onEng_ne x _ ho]
  unfold Dev.freshPosts
  refine ⟨?_, ?_, fun nodup o ho => ?_, fun o => ?_⟩
  · exact Dev.each_keeps (fun d => d.arcPair p) (fun _ _ => by rfl) _ d
  · exact (RolesStand.refl d).each _ fun x e => ((RolesStand.refl x).onEng e _).count e (by decide)
  · exact Dev.arcEng_each (P := fun a a' => a' = { a with sig := [], posts := [], idle := false }) (fun x => own x o)
      (fun x e he => others x e o he) _ d nodup ho
  · refine Dev.each_induction (fun x => (x.arcEng o).ctx = (d.arcEng o).ctx ∧ (x.arcEng o).coef = (d.arcEng o).coef) _
      (fun x e hx => ?_) _ d ⟨rfl, rfl⟩
    by_cases he : o = e
    · subst he
      rw [own]
      exact hx
    · rw [others x e o he]
      exact hx

/-- A period begins: its posts are fresh, and the pair forwards again. -/
theorem Dev.beginPeriod_spec :
    let m := d.beginPeriod p
    (m.arcPair p).quiet = false ∧ (m.arcPair p).fwd = 0 ∧ (m.arcPair p).takeover = (d.arcPair p).takeover ∧
    (m.arcPair p).image = (d.arcPair p).image ∧ (m.arcPair p).next = (d.arcPair p).next ∧
    RolesStand d m ∧ ∀ o, m.arcEng o = (d.freshPosts p).arcEng o := by
  obtain ⟨pair, roles, _⟩ := d.freshPosts_spec p
  have same : d.beginPeriod p = Dev.latchPorts (((d.freshPosts p).onPair p fun s => { s with quiet := false, fwd := 0 }).when
    (((d.freshPosts p).onPair p fun s => { s with quiet := false, fwd := 0 }).drivesMotor p) fun d =>
      d.driveBoundary.handoverBoundary) p := rfl
  rw [same]
  generalize d.freshPosts p = n at pair roles
  set x := n.onPair p fun s => { s with quiet := false, fwd := 0 } with hx
  have drive : ArcStands x (x.when (x.drivesMotor p) fun d => d.driveBoundary.handoverBoundary) :=
    (ArcStands.refl x).when x.arcStands_driveBoundary
  generalize (x.when (x.drivesMotor p) fun d => d.driveBoundary.handoverBoundary) = y at drive
  have after : x.arcPair p = { d.arcPair p with quiet := false, fwd := 0 } := by rw [hx, Dev.arcPair_onPair_self, pair]
  unfold Dev.latchPorts
  dsimp only
  rw [Dev.arcPair_onPair_self, drive.pair, after]
  refine ⟨rfl, rfl, rfl, rfl, rfl, ((roles.onPair p _).trans (.of_arcStands drive)).onPair p _, fun o => ?_⟩
  rw [Dev.arcEng_onPair, drive.arcEng]
  rfl

end

end Sys2Proof.Machine

/-! PROOFS. The boundary as a whole, and the command of a period tick (O42). -/

namespace Sys2Proof.Machine

section
variable (d : Dev) (p : Nat) (onSpindle : Bool)

/-! ## A boundary (R176, R178, R188, R196, R198) -/

/-- What is due at a boundary from before: the period change and the exchange. -/
def Dev.dueAtBoundary : Dev := (d.boundaryPeriod p).boundaryExchange p

theorem Dev.dueAtBoundary_spec :
    let m := d.dueAtBoundary p
    m.arc.ports = d.arc.ports ∧
    m.arcPair p = { d.arcPair p with periodNext := none, swapDue := false, ckpt := (m.arcPair p).ckpt } ∧ RolesStand d m := by
  obtain ⟨_, ports, pair, roles⟩ := d.boundaryPeriod_spec p
  obtain ⟨ports', pair', roles'⟩ := (d.boundaryPeriod p).boundaryExchange_spec p
  exact ⟨ports'.trans ports, by rw [pair] at pair'; exact pair', roles.trans roles'⟩

theorem Dev.boundary_of_none (h : (d.arcPair p).next = none) : d.boundary p onSpindle =
    ((((d.dueAtBoundary p).advancePeriod p false onSpindle).takeCheckpoint p).handoverStep p).beginPeriod p := by
  unfold Dev.boundary
  rw [h]
  rfl

theorem Dev.boundary_of_some {im : ArcImage} (h : (d.arcPair p).next = some im) : d.boundary p onSpindle =
    (((((d.dueAtBoundary p).startProgram p im).advancePeriod p true onSpindle).takeCheckpoint p).handoverStep p).beginPeriod p := by
  unfold Dev.boundary
  rw [h]
  rfl

/-- What a boundary without takeover, hand-over and new program leaves of an engine of the pair. -/
structure ArcSt.NextPeriod (ps : ArcPairSt) (a a' : ArcSt) : Prop where
  pcnt : a'.ctx.pcnt = (a.ctx.pcnt + 1) % 2 ^ 32
  regs : a'.ctx.regs = a.ctx.regs
  mem : a'.ctx.mem = a.ctx.mem
  preds : a'.ctx.preds = a.ctx.preds
  clamp : a'.ctx.clamp = a.ctx.clamp
  posts : a'.posts = []
  idle : a'.idle = false
  exchanged : ps.swapDue = true → a'.ctx.bank = a.ctx.bank + 1 ∧ a'.swapped = true ∧
    (ps.image.any (·.bumpless) = true → a'.ctx.arm = a.ctx.arm ||| a.ctx.clamp) ∧
    (ps.image.any (·.bumpless) = false → a'.ctx.arm = a.ctx.arm)
  stands : ps.swapDue = false → a'.ctx.bank = a.ctx.bank ∧ a'.swapped = false ∧ a'.ctx.arm = a.ctx.arm

theorem ArcSt.NextPeriod.of_stages {ps : ArcPairSt} {a b c : ArcSt}
    (exchange : (ps.swapDue = false → b = { a with swapped := false }) ∧
      (ps.swapDue = true → b = { a with swapped := true, ctx := a.ctx.exchanged (ps.image.any (·.bumpless)) }))
    (advance : ArcSt.Advanced false b c) : ArcSt.NextPeriod ps a { c with sig := [], posts := [], idle := false } := by
  obtain ⟨stand, swap⟩ := exchange
  obtain ⟨phase, rfl⟩ := advance
  cases due : ps.swapDue with
  | false =>
    rw [stand due]
    exact ⟨rfl, rfl, rfl, rfl, rfl, rfl, rfl, fun h => absurd (due.symm.trans h) Bool.false_ne_true, fun _ => ⟨rfl, rfl, rfl⟩⟩
  | true =>
    rw [swap due]
    refine ⟨rfl, rfl, rfl, rfl, rfl, rfl, rfl, fun _ => ⟨rfl, rfl, fun h => ?_, fun h => ?_⟩, fun h => absurd (h.symm.trans due) Bool.false_ne_true⟩
    · exact if_pos h
    · exact if_neg (by rw [h]; decide)

/-- A normal boundary. -/
theorem Dev.boundary_normal (hn : (d.arcPair p).next = none) (ht : (d.arcPair p).takeover = none) (hh : (d.arcPair p).handover = none) :
    let m := d.boundary p onSpindle
    (m.arcPair p).quiet = false ∧ (m.arcPair p).fwd = 0 ∧
      ∀ o ∈ d.pairEngines p, ArcSt.NextPeriod (d.arcPair p) (d.arcEng o) (m.arcEng o) := by
  rw [Dev.boundary_of_none d p onSpindle hn]
  obtain ⟨engs1, _, pair1, roles1⟩ := d.boundaryPeriod_spec p
  have engines (o : Nat) (ho : o ∈ d.pairEngines p) := (d.boundaryPeriod p).arcEng_boundaryExchange p (by rw [pair1]; exact ht)
    (o := o) (by rwa [roles1.pairEngines])
  rw [pair1] at engines
  obtain ⟨_, pair2, roles2⟩ := d.dueAtBoundary_spec p
  change ∀ o ∈ d.pairEngines p, (_ → (d.dueAtBoundary p).arcEng o = _) ∧ (_ → (d.dueAtBoundary p).arcEng o = _) at engines
  have eng1 (o : Nat) : (d.boundaryPeriod p).arcEng o = d.arcEng o := by unfold Dev.arcEng; rw [engs1]
  simp only [eng1] at engines
  generalize d.dueAtBoundary p = n2 at pair2 roles2 engines
  obtain ⟨pair3, roles3, advance, _⟩ := n2.advancePeriod_spec p false onSpindle
  have loaded : n2.loadedEngines p = d.pairEngines p := by
    unfold Dev.loadedEngines
    rw [pair2, ht, roles2.pairEngines, List.append_nil]
  rw [loaded] at advance
  generalize n2.advancePeriod p false onSpindle = n3 at pair3 roles3 advance
  obtain ⟨eng4, pair4, regs4, _⟩ := n3.takeCheckpoint_spec p
  generalize n3.takeCheckpoint p = n4 at eng4 pair4 regs4
  rw [n4.handoverStep_of_none p (by rw [pair4, pair3, pair2]; exact hh)]
  obtain ⟨quiet, fwd, _, _, _, _, begun⟩ := n4.beginPeriod_spec p
  obtain ⟨_, _, fresh, _⟩ := n4.freshPosts_spec p
  have voters : n4.voters p = d.pairEngines p := by
    have takeover : (n4.arcPair p).takeover = none := by rw [pair4, pair3, pair2]; exact ht
    unfold Dev.voters
    rw [takeover, List.append_nil, (RolesStand.of_regs regs4).pairEngines, roles3.pairEngines, roles2.pairEngines]
  rw [voters] at fresh
  refine ⟨quiet, fwd, fun o ho => ?_⟩
  have eng4' : n4.arcEng o = n3.arcEng o := by unfold Dev.arcEng; rw [eng4]
  rw [begun, fresh (d.pairEngines_nodup p) o ho, eng4']
  exact .of_stages (engines o ho) (advance (d.pairEngines_nodup p) o ho)

/-- An engine's registers, bank and coefficients are those of an image from its start. -/
def ArcSt.From (im : ArcImage) (a : ArcSt) : Prop := a.ctx.regs = im.regs ∧ a.ctx.bank = 0 ∧ a.coef = im.coef

theorem ArcSt.From.advanced {im : ArcImage} {first : Bool} {a a' : ArcSt} (h : ArcSt.Advanced first a a') (ha : ArcSt.From im a) :
    ArcSt.From im a' := by
  obtain ⟨phase, rfl⟩ := h
  exact ha

/-- A boundary at which an admitted program starts. -/
theorem Dev.boundary_starts (hp : p < 4) {im : ArcImage} (hn : (d.arcPair p).next = some im) :
    let m := d.boundary p onSpindle
    (m.arcPair p).image = some im ∧ (m.arcPair p).next = none ∧
    ((d.arcPair p).takeover = none → (d.arcPair p).handover = none → (m.arcPair p).takeover = none) ∧
    (d.pairRuns p = false → ∀ o ∈ d.pairEngines p, m.RunsAfresh im o) := by
  rw [Dev.boundary_of_some d p onSpindle hn]
  obtain ⟨_, pair2, roles2⟩ := d.dueAtBoundary_spec p
  generalize d.dueAtBoundary p = n2 at pair2 roles2
  have pair3 := n2.arcPair_startProgram p hp im
  have started := n2.startProgram_spec p hp im
  generalize n2.startProgram p im = n3 at pair3 started
  obtain ⟨pair4, roles4, _, keeps⟩ := n3.advancePeriod_spec p true onSpindle
  generalize n3.advancePeriod p true onSpindle = n4 at pair4 roles4 keeps
  obtain ⟨eng5, pair5, regs5, ckpt5⟩ := n4.takeCheckpoint_spec p
  generalize n4.takeCheckpoint p = n5 at eng5 pair5 regs5 ckpt5
  obtain ⟨image6, next6, roles6, engines6⟩ := n5.handoverStep_spec p
  have still := n5.handoverStep_of_none p
  generalize n5.handoverStep p = n6 at image6 next6 roles6 engines6 still
  obtain ⟨_, _, takeover7, image7, next7, roles7, begun⟩ := n6.beginPeriod_spec p
  obtain ⟨_, _, _, contexts⟩ := n6.freshPosts_spec p
  have known : (n5.arcPair p).image = some im ∧ (n5.arcPair p).next = none := by rw [pair5, pair4, pair3]; exact ⟨rfl, rfl⟩
  refine ⟨by rw [image7, image6, known.1], by rw [next7, next6, known.2], fun ht hh => ?_, fun idle o ho => ?_⟩
  · rw [takeover7, still (by rw [pair5, pair4, pair3, pair2]; exact hh), pair5, pair4, pair3, pair2]
    exact ht
  · have idle2 : n2.pairRuns p = false := by
      unfold Dev.pairRuns
      rw [roles2.pairEngines]
      refine List.any_eq_false.mpr fun e he => ?_
      rw [roles2.bit_running (Dev.pairEngines_lt he)]
      exact List.any_eq_false.mp idle e he
    obtain ⟨stay, runs⟩ := started idle2
    have in3 : o ∈ n3.pairEngines p := stay o (by rwa [roles2.pairEngines])
    have small := Dev.pairEngines_lt in3
    have from5 (l : Nat) (hl : l ∈ n3.pairEngines p) : ArcSt.From im (n5.arcEng l) := by
      obtain ⟨_, _, regs, bank, coef⟩ := runs l hl
      have advanced := keeps (ArcSt.From im) (fun _ _ h => .advanced h) l ⟨regs, bank, coef⟩
      unfold Dev.arcEng at advanced ⊢
      rwa [eng5]
    have from6 : ArcSt.From im (n6.arcEng o) := by
      rcases engines6 o with same | ⟨ctx, coef⟩
      · rw [same]
        exact from5 o in3
      · cases hl : n3.pairEngines p with
        | nil => rw [hl] at in3; cases in3
        | cons l rest =>
          have lead := from5 l (by rw [hl]; exact List.mem_cons_self)
          have ckpt := ckpt5 l (by rw [roles4.pairEngines, hl]; rfl)
          have same : n5.arcEng l = n4.arcEng l := by unfold Dev.arcEng; rw [eng5]
          rw [same] at lead
          obtain ⟨regs, bank, _⟩ := lead
          refine ⟨by rw [ctx, ckpt, regs], by rw [ctx, ckpt, bank], ?_⟩
          rw [coef, known.1]
          rfl
    obtain ⟨regs, bank, coef⟩ := from6
    have roles := ((roles4.trans (.of_regs regs5)).trans roles6).trans roles7
    obtain ⟨ctx, coef'⟩ := contexts o
    exact (runs o in3).of_roles small roles (by rw [begun, ctx, regs]) (by rw [begun, ctx, bank]) (by rw [begun, coef', coef])

end

end Sys2Proof.Machine

/-! PROOFS. The command of a period tick (O42). -/

namespace Sys2Proof.Machine

section
variable {d d' : Dev}

theorem ArcStands.image (h : ArcStands d d') (p : Nat) : (d'.arcPair p).image = (d.arcPair p).image := by rw [h.pair p]
theorem ArcStands.next (h : ArcStands d d') (p : Nat) : (d'.arcPair p).next = (d.arcPair p).next := by rw [h.pair p]
theorem ArcStands.quiet (h : ArcStands d d') (p : Nat) : (d'.arcPair p).quiet = (d.arcPair p).quiet := by rw [h.pair p]
theorem ArcStands.fwd (h : ArcStands d d') (p : Nat) : (d'.arcPair p).fwd = (d.arcPair p).fwd := by rw [h.pair p]
theorem ArcStands.takeover (h : ArcStands d d') (p : Nat) : (d'.arcPair p).takeover = (d.arcPair p).takeover := by rw [h.pair p]

end

/-! ## The block at another time of the motor outputs (R175, R208) -/

/-- The block whose motor program's period began at another time. -/
def Dev.atTime (d : Dev) (began now : Nat) : Dev := { d with mot := { d.mot with periodAt := began, now := now } }

section
variable (d : Dev) (began now p : Nat)

@[simp] theorem Dev.arcPair_atTime : (d.atTime began now).arcPair p = d.arcPair p := rfl
@[simp] theorem Dev.arcEng_atTime (o : Nat) : (d.atTime began now).arcEng o = d.arcEng o := rfl
@[simp] theorem Dev.pairEngines_atTime : (d.atTime began now).pairEngines p = d.pairEngines p := rfl
@[simp] theorem Dev.pairRuns_atTime : (d.atTime began now).pairRuns p = d.pairRuns p := rfl
@[simp] theorem Dev.ports_atTime : (d.atTime began now).arc.ports = d.arc.ports := rfl

theorem Dev.periodPlace_eq (onSpindle : Bool) : ∃ began now, d.periodPlace p onSpindle = d.atTime began now ∧
    (d.drivesMotor p = false → d.atTime began now = d) := by
  unfold Dev.periodPlace
  cases hm : d.drivesMotor p with
  | true => exact ⟨_, _, rfl, fun h => absurd h.symm Bool.false_ne_true⟩
  | false => exact ⟨d.mot.periodAt, d.mot.now, rfl, fun _ => rfl⟩

end

/-! ## The work of a tick (R158, R176, R200) -/

section
variable (d : Dev) (p : Nat) (onSpindle : Bool)

/-- The work of a pair in a held period: what waits takes force, and the voting period begins where the checkpoint is loaded. -/
def Dev.heldTick (t : ArcTakeover) : Dev :=
  let d := d.dueAtBoundary p
  if t.loaded then
    let d := d.onPair p fun s => { s with takeover := some { t with voting := true } }
    let d := d.each (d.voters p) fun d e => d.putBit (Fld.ARC_STATUS_VOTING e) true
    ((d.advancePeriod p true onSpindle).beginPeriod p).vendorPeriod p
  else d

/-- The work of a tick of a pair that runs, as its takeover stands. -/
def Dev.runningTick : Dev :=
  match (d.arcPair p).takeover with
  | none => (d.boundary p onSpindle).vendorPeriod p
  | some t =>
    if t.voting then
      let d := d.votingEnds p t
      if d.pairFailed p then d else (d.boundary p onSpindle).vendorPeriod p
    else if (d.arcPair p).next.isSome then ((d.endTakeover p).boundary p onSpindle).vendorPeriod p
    else d.heldTick p onSpindle t

/-- A WAITTICK is missing at a tick. -/
def Dev.tickIsLate : Bool :=
  (d.voters p).length == 2 && (d.arcPair p).takeover.isNone && !(d.voters p).all fun e => (d.arcEng e).idle

/-- The work of a tick of a pair. -/
def Dev.tickPair : Dev :=
  if !d.pairRuns p then (if (d.arcPair p).next.isSome then (d.boundary p onSpindle).vendorPeriod p else d)
  else (d.when (d.tickIsLate p) fun d => d.arcMismatch p []).runningTick p onSpindle

theorem exec_arcPeriodTick (s : State) (p : ArcPair) : exec (.arcPeriodTick p onSpindle) s =
    .next { s with dev := (s.dev.periodPlace p onSpindle).tickPair p onSpindle } := rfl

theorem Dev.tickPair_idle (hr : d.pairRuns p = false) (hn : (d.arcPair p).next = none) : d.tickPair p onSpindle = d := by
  unfold Dev.tickPair
  rw [hr, hn]
  rfl

theorem Dev.tickPair_start (hr : d.pairRuns p = false) {im : ArcImage} (hn : (d.arcPair p).next = some im) :
    d.tickPair p onSpindle = (d.boundary p onSpindle).vendorPeriod p := by
  unfold Dev.tickPair
  rw [hr, hn]
  rfl

theorem Dev.tickPair_running (hr : d.pairRuns p = true) (hl : d.tickIsLate p = false) :
    d.tickPair p onSpindle = d.runningTick p onSpindle := by
  unfold Dev.tickPair
  rw [hr, hl, if_neg (by decide), Dev.when_false]

theorem Dev.tickPair_normal (hr : d.pairRuns p = true) (ht : (d.arcPair p).takeover = none)
    (idle : ∀ o ∈ d.pairEngines p, (d.arcEng o).idle = true) :
    d.tickPair p onSpindle = (d.boundary p onSpindle).vendorPeriod p := by
  have late : d.tickIsLate p = false := by
    have rest : (d.voters p).all (fun e => (d.arcEng e).idle) = true := by
      unfold Dev.voters
      rw [ht, List.append_nil]
      exact List.all_eq_true.mpr idle
    unfold Dev.tickIsLate
    rw [rest, Bool.not_true, Bool.and_false]
  rw [Dev.tickPair_running d p onSpindle hr late]
  unfold Dev.runningTick
  rw [ht]

theorem Dev.tickPair_held (hr : d.pairRuns p = true) {t : ArcTakeover} (ht : (d.arcPair p).takeover = some t) (hv : t.voting = false) :
    d.tickPair p onSpindle = if (d.arcPair p).next.isSome then ((d.endTakeover p).boundary p onSpindle).vendorPeriod p
      else d.heldTick p onSpindle t := by
  have late : d.tickIsLate p = false := by
    unfold Dev.tickIsLate
    rw [ht, Option.isNone_some, Bool.and_false, Bool.false_and]
  rw [Dev.tickPair_running d p onSpindle hr late]
  unfold Dev.runningTick
  rw [ht]
  dsimp only
  rw [hv, if_neg Bool.false_ne_true]

/-! ## The takeover that an admitted program ends (R200, R202; log 162) -/

theorem Dev.endTakeover_spec :
    let m := d.endTakeover p
    (m.arcPair p).takeover = none ∧ (m.arcPair p).next = (d.arcPair p).next ∧
    ((d.arcPair p).handover = none → (m.arcPair p).handover = none) := by
  have pair (es : List Nat) : (d.each es fun d e =>
      (d.onEng e fun a => { a with reported := false }).putBit (Fld.ARC_STATUS_VOTING e) false).arcPair p = d.arcPair p :=
    Dev.each_keeps (fun d => d.arcPair p) (fun _ _ => by rfl) es d
  unfold Dev.endTakeover
  dsimp only
  rw [Dev.arcPair_onPair_self, pair]
  refine ⟨rfl, rfl, fun h => ?_⟩
  dsimp only
  rw [h, ite_self]

/-- A held period whose checkpoint is loaded leads to the voting period. -/
theorem Dev.heldTick_loaded {t : ArcTakeover} (hl : t.loaded = true) :
    let m := d.heldTick p onSpindle t
    (m.arcPair p).takeover = some { t with voting := true } ∧ (m.arcPair p).fwd = 0 := by
  unfold Dev.heldTick
  dsimp only
  rw [if_pos hl]
  set n := (d.dueAtBoundary p).onPair p fun s => { s with takeover := some { t with voting := true } } with hn
  have voting : (n.each (n.voters p) fun d e => d.putBit (Fld.ARC_STATUS_VOTING e) true).arcPair p = n.arcPair p :=
    Dev.each_keeps (fun d => d.arcPair p) (fun _ _ => by rfl) _ n
  generalize (n.each (n.voters p) fun d e => d.putBit (Fld.ARC_STATUS_VOTING e) true) = x at voting
  obtain ⟨advanced, _⟩ := x.advancePeriod_spec p true onSpindle
  generalize x.advancePeriod p true onSpindle = y at advanced
  obtain ⟨_, fwd, takeover, _⟩ := y.beginPeriod_spec p
  have vendor := (y.beginPeriod p).arcStands_vendorPeriod p
  refine ⟨?_, by rw [vendor.fwd, fwd]⟩
  rw [vendor.takeover, takeover, advanced, voting, hn, Dev.arcPair_onPair_self]

end

/-! ## The command -/

section
variable {s : State} {p : ArcPair} (onSpindle : Bool)

theorem completes_arcPeriodTick_idle (hr : s.dev.pairRuns p = false) (hn : (s.dev.arcPair p).next = none) :
    Completes (.arcPeriodTick p onSpindle) s fun d =>
      d = { s.dev with mot := { s.dev.mot with periodAt := d.mot.periodAt, now := d.mot.now } } ∧
      (s.dev.drivesMotor p = false → d = s.dev) := by
  obtain ⟨began, now, place, still⟩ := s.dev.periodPlace_eq p onSpindle
  refine ⟨s.dev.atTime began now, ?_, rfl, still⟩
  rw [exec_arcPeriodTick, place, Dev.tickPair_idle (s.dev.atTime began now) _ _ hr hn]

theorem completes_arcPeriodTick_start {im : ArcImage} (hr : s.dev.pairRuns p = false) (hn : (s.dev.arcPair p).next = some im) :
    Completes (.arcPeriodTick p onSpindle) s fun d => (d.arcPair p).image = some im ∧ (d.arcPair p).next = none ∧
      ∀ o ∈ s.dev.pairEngines p, d.RunsAfresh im o := by
  obtain ⟨began, now, place, _⟩ := s.dev.periodPlace_eq p onSpindle
  refine ⟨_, by rw [exec_arcPeriodTick, place, Dev.tickPair_start (s.dev.atTime began now) _ _ hr hn], ?_⟩
  obtain ⟨image, next, _, runs⟩ := (s.dev.atTime began now).boundary_starts p onSpindle (by omega) hn
  simp only [Dev.pairRuns_atTime, Dev.pairEngines_atTime] at runs
  generalize (s.dev.atTime began now).boundary p onSpindle = n at image next runs
  have vendor := n.arcStands_vendorPeriod p
  refine ⟨by rw [vendor.image, image], by rw [vendor.next, next], fun o ho => ?_⟩
  exact (runs hr o ho).of_eng (Dev.pairEngines_lt ho) (.of_arcStands vendor) (vendor.arcEng o)

theorem completes_arcPeriodTick_normal (hr : s.dev.pairRuns p = true) (hn : (s.dev.arcPair p).next = none)
    (ht : (s.dev.arcPair p).takeover = none) (hh : (s.dev.arcPair p).handover = none)
    (idle : ∀ o ∈ s.dev.pairEngines p, (s.dev.arcEng o).idle = true) :
    Completes (.arcPeriodTick p onSpindle) s fun d => (d.arcPair p).quiet = false ∧ (d.arcPair p).fwd = 0 ∧
      ∀ o ∈ s.dev.pairEngines p, ArcSt.NextPeriod (s.dev.arcPair p) (s.dev.arcEng o) (d.arcEng o) := by
  obtain ⟨began, now, place, _⟩ := s.dev.periodPlace_eq p onSpindle
  refine ⟨_, by rw [exec_arcPeriodTick, place, Dev.tickPair_normal (s.dev.atTime began now) _ _ hr ht idle], ?_⟩
  obtain ⟨quiet, fwd, engines⟩ := (s.dev.atTime began now).boundary_normal p onSpindle hn ht hh
  simp only [Dev.arcPair_atTime, Dev.arcEng_atTime, Dev.pairEngines_atTime] at engines
  generalize (s.dev.atTime began now).boundary p onSpindle = n at quiet fwd engines
  have vendor := n.arcStands_vendorPeriod p
  refine ⟨by rw [vendor.quiet, quiet], by rw [vendor.fwd, fwd], fun o ho => ?_⟩
  rw [vendor.arcEng o]
  exact engines o ho

/-- A held period: what waits takes force, the voting period begins, or an admitted program ends the takeover. -/
theorem completes_arcPeriodTick_held {t : ArcTakeover} (hr : s.dev.pairRuns p = true) (ht : (s.dev.arcPair p).takeover = some t)
    (hv : t.voting = false) :
    ((s.dev.arcPair p).next = none → t.loaded = false → Completes (.arcPeriodTick p onSpindle) s fun d =>
      d.arc.ports = s.dev.arc.ports ∧ (d.arcPair p).takeover = some t) ∧
    ((s.dev.arcPair p).next = none → t.loaded = true → Completes (.arcPeriodTick p onSpindle) s fun d =>
      (d.arcPair p).takeover = some { t with voting := true } ∧ (d.arcPair p).fwd = 0) ∧
    (∀ im, (s.dev.arcPair p).next = some im → (s.dev.arcPair p).handover = none → Completes (.arcPeriodTick p onSpindle) s fun d =>
      (d.arcPair p).takeover = none ∧ (d.arcPair p).image = some im ∧ (d.arcPair p).next = none) := by
  obtain ⟨began, now, place, _⟩ := s.dev.periodPlace_eq p onSpindle
  have row := exec_arcPeriodTick onSpindle s p
  rw [place, Dev.tickPair_held (s.dev.atTime began now) _ _ hr ht hv] at row
  refine ⟨fun hn hl => ⟨_, row, ?_⟩, fun hn hl => ⟨_, row, ?_⟩, fun im hn hh => ⟨_, row, ?_⟩⟩
  · rw [Dev.arcPair_atTime, hn, if_neg (by decide)]
    obtain ⟨ports, pair, _⟩ := (s.dev.atTime began now).dueAtBoundary_spec p
    simp only [Dev.arcPair_atTime, Dev.ports_atTime] at ports pair
    unfold Dev.heldTick
    dsimp only
    rw [if_neg (by rw [hl]; decide), pair]
    exact ⟨ports, ht⟩
  · rw [Dev.arcPair_atTime, hn, if_neg (by decide)]
    exact Dev.heldTick_loaded _ p onSpindle hl
  · rw [Dev.arcPair_atTime, hn, if_pos Option.isSome_some]
    obtain ⟨ended, next, handover⟩ := (s.dev.atTime began now).endTakeover_spec p
    rw [Dev.arcPair_atTime] at next handover
    generalize (s.dev.atTime began now).endTakeover p = n at ended next handover
    obtain ⟨image, next', takeover, _⟩ := n.boundary_starts p onSpindle (by omega) (next.trans hn)
    have vendor := (n.boundary p onSpindle).arcStands_vendorPeriod p
    exact ⟨by rw [vendor.takeover, takeover ended (handover hh)], by rw [vendor.image, image], by rw [vendor.next, next']⟩

end

end Sys2Proof.Machine

/-! PROOFS. Requests to a pair and the loader (O42). -/

namespace Sys2Proof.Machine

section
variable {s : State} {e : ArcEng} {v : Word}

/-! ## Requests (R188, R196, R207) -/

theorem completes_arcSwapReq :
    let own := s.dev.pairOf e
    Completes (.arcSwapReq e) s fun d => (d.arcPair own).swapDue = true ∧
      (∀ o ∈ s.dev.pairEngines own, d.bit (Fld.ARC_STATUS_SWAP_PENDING o) = true) ∧ d = { s.dev with regs := d.regs, arc := d.arc } :=
  .of_on (fun d => d.requestSwap (d.pairOf e)) rfl (s.dev.requestSwap_spec _)

/-- The fields of a period register that a write sets. -/
abbrev periodOf (v : Word) : Word := v &&& 0x00ff7f03

/-- A period out of range. -/
abbrev PeriodBad (pv : Word) : Prop := fieldOf pv 0 2 = 3 ∨ fieldOf pv 8 7 = 0 ∨ 64 < fieldOf pv 8 7 ∨ fieldOf pv 16 8 = 0

theorem exec_arcPeriodWrite (s : State) (e : ArcEng) (v : Word) :
    exec (.arcPeriodWrite e v) s = .next { s with dev := s.dev.periodWrite e v } := rfl

theorem exec_arcPeriodWrite_of_bad (h : PeriodBad (periodOf v)) : exec (.arcPeriodWrite e v) s = .next s := by
  rw [exec_arcPeriodWrite]
  unfold Dev.periodWrite
  rw [if_pos h]

theorem completes_arcPeriodWrite (h : ¬PeriodBad (periodOf v)) :
    let own := s.dev.pairOf e
    let pv := periodOf v
    let fits := boundFits (s.dev.fld (Fld.ARC_BOUND_BOUND e)) (arcBudget pv)
    (s.dev.pairRuns own = false → Completes (.arcPeriodWrite e v) s fun d => d.reg (Adr.ARC_PERIOD e) = pv ∧
      d = { s.dev with regs := d.regs } ∧ SameRegs s.dev d [Adr.ARC_PERIOD e]) ∧
    (s.dev.pairRuns own = true → fits = true → Completes (.arcPeriodWrite e v) s fun d =>
      (d.arcPair own).periodNext = some pv ∧ d = { s.dev with arc := d.arc }) ∧
    (s.dev.pairRuns own = true → fits = false → Completes (.arcPeriodWrite e v) s fun d =>
      (∀ o ∈ s.dev.pairEngines own, d.bit (Fld.ARC_STATUS_PERIOD_REFUSED o) = true ∧
        d.reg (Adr.ARC_PERIOD o) = s.dev.reg (Adr.ARC_PERIOD o)) ∧
      (d.arcPair own).periodNext = (s.dev.arcPair own).periodNext) := by
  intro own pv fits
  have row := exec_arcPeriodWrite s e v
  unfold Dev.periodWrite at row
  dsimp only at row
  rw [if_neg h] at row
  refine ⟨fun idle => ?_, fun runs fit => ?_, fun runs fit => ?_⟩
  · rw [idle, if_pos (by decide)] at row
    exact ⟨_, row, Dev.reg_setReg_self _ _ _, rfl, (SameRegs.refl _ _).setReg (List.mem_singleton.mpr rfl)⟩
  · rw [runs, if_neg (by decide), if_pos fit] at row
    refine ⟨_, row, ?_, rfl⟩
    rw [Dev.arcPair_onPair_self]
  · rw [runs, if_neg (by decide), if_neg (by rw [show boundFits _ _ = false from fit]; decide)] at row
    obtain ⟨_, _, pair, shows, period⟩ := s.dev.flagged_spec own (f := Fld.ARC_STATUS_PERIOD_REFUSED) (k := 5) (fun _ => rfl) (by decide)
      (fun _ => rfl) (fun _ => Nat.le_of_ble_eq_true rfl) 0x5f5
    refine ⟨_, row, fun o ho => ⟨(shows o ho).1, period o (Dev.pairEngines_lt ho)⟩, ?_⟩
    show (((s.dev.flag own Fld.ARC_STATUS_PERIOD_REFUSED 5).arcRecord own 0x5f5 0).arcPair own).periodNext = _
    rw [pair own]

theorem completes_arcCntClr : Completes (.arcCntClr e) s fun d => (∀ k < 8, d.reg (Adr.ARC_CNT e k) = 0) ∧
    d = { s.dev with regs := d.regs } ∧ SameRegs s.dev d ((List.range 8).map (Adr.ARC_CNT e)) := by
  obtain ⟨only, same⟩ := s.dev.regFrame_clearCounters (Adr.ARC_CNT e)
  exact ⟨_, rfl, fun k hk => Dev.reg_clearCounters_self _ _ hk, only, same⟩

/-! ## The loader (R195, R198, R204) -/

/-- The loader's operation has started. -/
def Dev.loaderStarted (d : Dev) (op : Nat) (v : Word) : Dev :=
  let d := (d.put Fld.ARC_LDR_CTRL_OUT (fieldOf v 12 3)).put Fld.ARC_LDR_CTRL_IN (fieldOf v 8 3)
  let d := (d.put Fld.ARC_LDR_CTRL_PAIR (fieldOf v 4 2)).put Fld.ARC_LDR_CTRL_OP op
  let d := { d with arc := { d.arc with loading := some op } }
  d.putBit Fld.ARC_LDR_STATUS_BUSY true

theorem Dev.loaderStarted_spec (d : Dev) (op : Nat) (v : Word) :
    let m := d.loaderStarted op v
    m.arc = { d.arc with loading := some op } ∧ m.bit Fld.ARC_LDR_STATUS_BUSY = true ∧ m.fld Fld.ARC_LDR_CTRL_PAIR = fieldOf v 4 2 ∧
    SameRegs d m [Adr.ARC_LDR_CTRL, Adr.ARC_LDR_STATUS] := by
  have ctrl : Adr.ARC_LDR_CTRL ∈ [Adr.ARC_LDR_CTRL, Adr.ARC_LDR_STATUS] := by decide
  set n := ((d.put Fld.ARC_LDR_CTRL_OUT (fieldOf v 12 3)).put Fld.ARC_LDR_CTRL_IN (fieldOf v 8 3)).put Fld.ARC_LDR_CTRL_PAIR (fieldOf v 4 2)
    with hn
  have pair : n.fld Fld.ARC_LDR_CTRL_PAIR = fieldOf v 4 2 := by
    rw [hn, Dev.fld_put_self _ _ _ (by decide)]
    exact Nat.mod_eq_of_lt (fieldOf_lt v 4 2)
  have stored : SameRegs d n [Adr.ARC_LDR_CTRL, Adr.ARC_LDR_STATUS] := (((SameRegs.refl d _).put ctrl).put ctrl).put ctrl
  have arc : n.arc = d.arc := rfl
  have started : d.loaderStarted op v =
      Dev.putBit { n.put Fld.ARC_LDR_CTRL_OP op with arc := { n.arc with loading := some op } } Fld.ARC_LDR_STATUS_BUSY true := rfl
  rw [started]
  clear_value n
  refine ⟨by rw [← arc]; rfl, Dev.bit_putBit_self _ _ true, ?_, ?_⟩
  · have status (m : Dev) : (m.putBit Fld.ARC_LDR_STATUS_BUSY true).fld Fld.ARC_LDR_CTRL_PAIR = m.fld Fld.ARC_LDR_CTRL_PAIR :=
      Dev.fld_setReg_ne m _ _ _ (by decide)
    rw [status, ← pair]
    exact Dev.fld_put_ne n _ _ _ (by decide) (by decide)
  · exact ((stored.put ctrl).trans (.of_regs_eq rfl)).putBit (by decide)

theorem exec_arcLoad_of_busy (h : s.dev.bit Fld.ARC_LDR_STATUS_BUSY = true) : exec (.arcLoad v) s = .next s := by
  have row : exec (.arcLoad v) s = .next { s with dev := s.dev.loaderGo 0 v } := rfl
  rw [row]
  unfold Dev.loaderGo
  rw [if_pos h]

theorem exec_arcHandover_of_busy (h : s.dev.bit Fld.ARC_LDR_STATUS_BUSY = true) : exec (.arcHandover v) s = .next s := by
  have row : exec (.arcHandover v) s = execArcHandover v s := rfl
  rw [row]
  unfold execArcHandover
  rw [State.on_eq, if_pos h]

theorem Dev.loaderGo_of_not_busy {d : Dev} (op : Nat) (v : Word) (h : d.bit Fld.ARC_LDR_STATUS_BUSY = false) :
    d.loaderGo op v = d.loaderStarted op v := by
  unfold Dev.loaderGo
  rw [if_neg (by rw [h]; decide)]
  rfl

theorem completes_arcLoad (h : s.dev.bit Fld.ARC_LDR_STATUS_BUSY = false) :
    Completes (.arcLoad v) s fun d => d.arc.loading = some 0 ∧ d.bit Fld.ARC_LDR_STATUS_BUSY = true ∧
      d.fld Fld.ARC_LDR_CTRL_PAIR = fieldOf v 4 2 ∧ d.arc.pair = s.dev.arc.pair := by
  have row : exec (.arcLoad v) s = .next { s with dev := s.dev.loaderGo 0 v } := rfl
  rw [Dev.loaderGo_of_not_busy 0 v h] at row
  obtain ⟨arc, busy, pair, _⟩ := s.dev.loaderStarted_spec 0 v
  exact ⟨_, row, by rw [arc], busy, pair, by rw [arc]⟩

/-- The loader's end shows its result. -/
theorem Dev.loaderEnds_shows (d : Dev) {r : Nat} (hr : r < 16) :
    let m := d.loaderEnds r
    m.fld Fld.ARC_LDR_STATUS_RESULT = r ∧ m.bit Fld.ARC_LDR_STATUS_DONE = true ∧ m.bit Fld.ARC_LDR_STATUS_BUSY = false := by
  unfold Dev.loaderEnds Dev.loaderDone Dev.putBit
  dsimp only
  refine ⟨?_, ?_, Dev.bit_putBit_self _ _ false⟩
  · rw [Dev.fld_put_ne _ _ _ _ (by decide) (by decide), Dev.fld_put_ne _ _ _ _ (by decide) (by decide), Dev.fld_put_self _ _ _ (by decide)]
    exact Nat.mod_eq_of_lt hr
  · refine (Dev.bit_of_fld_eq (Dev.fld_put_ne _ _ _ _ (by decide) (by decide))).trans ?_
    exact Dev.bit_putBit_self _ _ true

/-- What makes a hand-over possible is not read from the loader's registers. -/
theorem Dev.handoverOk_congr {d d' : Dev} (arc : d'.arc.pair = d.arc.pair) (regs : SameRegs d d' [Adr.ARC_LDR_CTRL, Adr.ARC_LDR_STATUS])
    (out inn : Nat) : d'.pairOf out = d.pairOf out ∧ ∀ p, d'.handoverOk p out inn = d.handoverOk p out inn := by
  have ctrl (e : Nat) : d'.reg (Adr.ARC_CTRL e) = d.reg (Adr.ARC_CTRL e) := regs _ (by
    simp only [List.mem_cons, List.not_mem_nil, or_false, Adr.ARC_CTRL, Adr.ARC_LDR_CTRL, Adr.ARC_LDR_STATUS]; omega)
  have status (e : Nat) : d'.reg (Adr.ARC_STATUS e) = d.reg (Adr.ARC_STATUS e) := regs _ (by
    simp only [List.mem_cons, List.not_mem_nil, or_false, Adr.ARC_STATUS, Adr.ARC_LDR_CTRL, Adr.ARC_LDR_STATUS]; omega)
  have up : d'.arcUp inn = d.arcUp inn := regs.maskBit inn (by decide)
  have role (e : Nat) : d'.fld (Fld.ARC_CTRL_ROLE e) = d.fld (Fld.ARC_CTRL_ROLE e) := Dev.fld_of_reg_eq (ctrl e)
  have runs (e : Nat) : d'.bit (Fld.ARC_STATUS_RUNNING e) = d.bit (Fld.ARC_STATUS_RUNNING e) := Dev.bit_of_reg_eq (status e)
  have pair (p : Nat) : d'.arcPair p = d.arcPair p := Dev.arcPair_congr arc p
  have engines (p : Nat) : d'.pairEngines p = d.pairEngines p := Dev.pairEngines_congr (fun e _ => ctrl e) p
  have spareFor (p e : Nat) : d'.arcSpareFor p e = d.arcSpareFor p e := by unfold Dev.arcSpareFor; rw [pair]
  have busy : d'.spareBusy inn = d.spareBusy inn := by simp only [Dev.spareBusy, spareFor, pair]
  refine ⟨Dev.fld_of_reg_eq (ctrl out), fun p => ?_⟩
  simp only [Dev.handoverOk, Dev.pairRuns, Dev.spareFree, engines, runs, pair, up, role, busy]

theorem completes_arcHandover (h : s.dev.bit Fld.ARC_LDR_STATUS_BUSY = false) :
    let out := fieldOf v 12 3
    let inn := fieldOf v 8 3
    (s.dev.handoverOk (s.dev.pairOf out) out inn = true → Completes (.arcHandover v) s fun d =>
      (d.arcPair (s.dev.pairOf out)).handover = some (out, inn, 0) ∧ d.bit Fld.ARC_LDR_STATUS_BUSY = true) ∧
    (s.dev.handoverOk (s.dev.pairOf out) out inn = false → Completes (.arcHandover v) s fun d =>
      d.arc.pair = s.dev.arc.pair ∧ d.fld Fld.ARC_LDR_STATUS_RESULT = 10 ∧ d.bit Fld.ARC_LDR_STATUS_DONE = true ∧
      d.bit Fld.ARC_LDR_STATUS_BUSY = false) := by
  intro out inn
  have row : exec (.arcHandover v) s = execArcHandover v s := rfl
  unfold execArcHandover at row
  rw [State.on_eq, if_neg (by rw [h]; decide), Dev.loaderGo_of_not_busy 1 v h] at row
  obtain ⟨arc, busy, _, regs⟩ := s.dev.loaderStarted_spec 1 v
  have pairs : (s.dev.loaderStarted 1 v).arc.pair = s.dev.arc.pair := by rw [arc]
  obtain ⟨own, possible⟩ := Dev.handoverOk_congr pairs regs out inn
  generalize s.dev.loaderStarted 1 v = n at row busy pairs own possible
  unfold Dev.startHandover at row
  dsimp only at row
  rw [own, possible] at row
  refine ⟨fun ok => ⟨_, row, ?_⟩, fun ok => ⟨_, row, ?_⟩⟩
  · rw [if_pos ok]
    dsimp only
    rw [Dev.arcPair_onPair_self, Dev.bit_onPair]
    exact ⟨rfl, busy⟩
  · rw [if_neg (by rw [ok]; decide)]
    obtain ⟨_, pair, _⟩ := n.loaderEnds_spec 10
    obtain ⟨result, done, idle⟩ := n.loaderEnds_shows (r := 10) (by decide)
    exact ⟨pair.trans pairs, result, done, idle⟩

/-! ### The end of a load -/

theorem admission_lt (variantS : Bool) (im : ArcImage) (prologueEnd : Nat) : admission variantS im prologueEnd < 10 := by
  unfold admission
  dsimp only
  iterate 8 refine iteInduction (motive := (· < 10)) (fun _ => by decide) fun _ => ?_
  decide

theorem Dev.loadResult_lt (d : Dev) (p : Nat) (l : List Byte) : d.loadResult p l < 16 := by
  have checks := admission_lt d.variantS (parseImage l) (fieldAt l 16 2)
  unfold Dev.loadResult
  refine iteInduction (motive := (· < 16)) (fun _ => by decide) fun _ => ?_
  refine iteInduction (motive := (· < 16)) (fun _ => by omega) fun _ => ?_
  exact iteInduction (motive := (· < 16)) (fun _ => by decide) fun _ => by decide

theorem exec_arcLoadDone_of_none (h : s.dev.arc.loading ≠ some 0) : exec .arcLoadDone s = .next s := by
  have row : exec .arcLoadDone s = execArcLoadDone s := rfl
  unfold execArcLoadDone at row
  rw [row, State.on_eq, if_pos (by simpa using h)]

theorem completes_arcLoadDone (h : s.dev.arc.loading = some 0) :
    let lp := s.dev.fld Fld.ARC_LDR_CTRL_PAIR
    let r := s.dev.loadResult lp s.dev.imageBytes
    Completes .arcLoadDone s fun d => d.fld Fld.ARC_LDR_STATUS_RESULT = r ∧
      d.bit Fld.ARC_LDR_STATUS_DONE = true ∧ d.bit Fld.ARC_LDR_STATUS_BUSY = false ∧ d.arc.loading = none ∧
      (r = 0 → (d.arcPair lp).next = some (parseImage s.dev.imageBytes)) ∧ (r ≠ 0 → d.arc.pair = s.dev.arc.pair) := by
  intro lp r
  have row : exec .arcLoadDone s = execArcLoadDone s := rfl
  unfold execArcLoadDone at row
  rw [State.on_eq, if_neg (by rw [h]; decide)] at row
  have arc (a n : Nat) : (s.dev.noteVirgin a n).arc = s.dev.arc := by rw [(s.dev.bufFrame_noteVirgin a n).only]
  refine ⟨_, row, ?_⟩
  dsimp only
  generalize hn : s.dev.noteVirgin _ _ = n
  have pairs : n.arc.pair = s.dev.arc.pair := by rw [← hn, arc]
  set x := n.when (r == 0) fun d => d.takeIn lp (parseImage s.dev.imageBytes) with hx
  obtain ⟨result, done, idle⟩ := x.loaderEnds_shows (r := r) (s.dev.loadResult_lt _ _)
  obtain ⟨_, pair, loading, _⟩ := x.loaderEnds_spec r
  refine ⟨result, done, idle, loading, fun admitted => ?_, fun refused => ?_⟩
  · rw [Dev.arcPair_congr pair, hx, beq_iff_eq.mpr admitted, Dev.when_true]
    unfold Dev.takeIn
    rw [Dev.arcPair_onPair_self]
  · rw [pair, hx, beq_eq_false_iff_ne.mpr refused, Dev.when_false, pairs]

end

end Sys2Proof.Machine

/-! PROOFS. What the services that a failed pair's recovery starts again leave of the engines and pairs (O42). -/

namespace Sys2Proof.Machine

section
variable {d d' : Dev}

/-! ## Events, sparing and records of the medium -/

theorem ArcStands.issue (s : ArcStands d d') : ArcStands d d'.issue := by
  have same := d'.sameRegs_issue
  have only := d'.issue_only
  generalize d'.issue = n at same only
  have regs := (ArcStands.refl d').regFrame (d'' := { d' with regs := n.regs }) (l := [Adr.LOCUS_STATUS]) ⟨rfl, same⟩
    (by simp [OutsideArc, Adr.LOCUS_STATUS])
  rw [only]
  exact (s.trans regs).other

theorem ArcStands.eventFor (s : ArcStands d d') (rcpt : Esn) (kind : EventKind) (unit code : Nat) (detail : List Nat) :
    ArcStands d (d'.eventFor rcpt kind unit code detail) := s.issue.other

theorem ArcStands.putMask (s : ArcStands d d') {f : Field} {k : Nat} {b : Bool} (ha : OutsideArc f.adr) : ArcStands d (d'.putMask f k b) :=
  s.setReg ha

theorem ArcStands.sparingEvent (s : ArcStands d d') (code c left entered : Nat) (cause : Esn) (st : Nat) :
    ArcStands d (d'.sparingEvent code c left entered cause st) := s.event

theorem ArcStands.raise (s : ArcStands d d') (v : Nat) : ArcStands d (d'.raise v) := by
  unfold Dev.raise
  exact iteInduction (fun _ => s.other) fun _ => s.other

/-- The class of the spare slots is judged. -/
theorem ArcStands.judgeSlots (s : ArcStands d d') : ArcStands d (d'.judge 13) := by
  have class_ : OutsideArc (Adr.SPR_CLASS_CNT (13 - 1)) := .inr (by decide)
  have status : OutsideArc Adr.SPR_STATUS := .inr (by decide)
  have events : OutsideArc Adr.SPR_EVENTS := .inr (by decide)
  have counter : OutsideArc (Adr.SPR_CNT 7) := .inr (by decide)
  have self (n : Dev) : ArcStands n n := .refl n
  unfold Dev.judge
  refine ((((((s.put class_).put class_).putMask status).when ?_).when ?_).putMask status).when ?_
  · exact ((((self _).putMask events).count counter).sparingEvent _ _ _ _ _ _).raise 64
  · exact (self _).sparingEvent _ _ _ _ _ _
  · exact (((self _).putMask events).sparingEvent _ _ _ _ _ _).raise 64

theorem ArcStands.slotDone (s : ArcStands d d') (a : Nat) : ArcStands d (d'.slotDone a) := s.other

theorem ArcStands.setLayer (s : ArcStands d d') (side layer : Nat) (r : LayerRec) : ArcStands d (d'.setLayer side layer r) := s.other

theorem ArcStands.stripeWrite (s : ArcStands d d') (a : Nat) (frames : List (List Byte)) : ArcStands d (d'.stripeWrite a frames) :=
  (s.issue.slotDone a).other

theorem ArcStands.writeRecord (s : ArcStands d d') (side layer : Nat) : ArcStands d (d'.writeRecord side layer) := by
  unfold Dev.writeRecord
  dsimp only
  refine ArcStands.each ?_ _ fun n k _ => (ArcStands.refl n).stripeWrite _ _
  exact s.other

theorem ArcStands.retireSlot (s : ArcStands d d') (a reason : Nat) : ArcStands d (d'.retireSlot a reason) := by
  unfold Dev.retireSlot
  dsimp only
  split
  · exact s
  · exact iteInduction (fun _ => s) fun _ => ((s.event.setLayer _ _ _).writeRecord _ _).judgeSlots

theorem ArcStands.slotFault (s : ArcStands d d') (a : Nat) : ArcStands d (d'.slotFault a) := by
  unfold Dev.slotFault
  refine ArcStands.when s.other ?_
  exact ((ArcStands.refl _).slotDone a).retireSlot a 2

/-! ## Band writes (R133, R138, R262) -/

theorem ArcStands.setMail (s : ArcStands d d') (t : Nat) (m : MailSt) : ArcStands d (d'.setMail t m) := s.other

theorem ArcStands.bufWrite (s : ArcStands d d') (a : Nat) (l : List Byte) : ArcStands d (d'.bufWrite a l) := s.other

theorem ArcStands.postMail (s : ArcStands d d') (t : Nat) (r : List Byte) : ArcStands d (d'.postMail t r) := by
  have counter (n : Nat) : OutsideArc (Adr.SPP_CNT n 7) := .inr (by unfold Adr.SPP_CNT; omega)
  unfold Dev.postMail Dev.postMailWith
  refine iteInduction (fun _ => ?_) fun _ => ?_
  · exact (s.bufWrite _ _).setMail t _
  · exact (s.setMail t _).count (counter _)

theorem ArcStands.bandResult (s : ArcStands d d') (h : Nat) (j : BandJob) (status inhibited uncovered fault : Nat) :
    ArcStands d (d'.bandResult h j status inhibited uncovered fault) := (s.eventFor _ _ _ _ _).postMail _ _

theorem ArcStands.showStripes (s : ArcStands d d') : ArcStands d d'.showStripes := by
  refine s.each _ fun n e he => ?_
  have outside : OutsideArc (Adr.STR_STATUS e) := .inl (by
    have := List.mem_range.mp he
    unfold Adr.STR_STATUS; omega)
  exact ((ArcStands.refl n).put outside).putBit outside

theorem ArcStands.setStripe (s : ArcStands d d') (h slot : Nat) (j : Option StripeJob) : ArcStands d (d'.setStripe h slot j) := s.other

theorem ArcStands.layRows (s : ArcStands d d') (h : Nat) : ArcStands d (d'.layRows h) := by
  unfold Dev.layRows
  refine ArcStands.each (s.onWp h _) _ fun n p _ => ?_
  dsimp only
  exact iteInduction (fun _ => .refl n) fun _ => (ArcStands.refl n).other

theorem ArcStands.bandEnd {h : Nat} (hh : h < 2) (s : ArcStands d d') : ArcStands d (d'.bandEnd h) := by
  have counter {c : Nat} (hc : c < 8) := outsideArc_wpCnt hh hc
  unfold Dev.bandEnd
  split
  · exact s
  · dsimp only
    refine ArcStands.showWp ?_ hh
    refine ArcStands.showStripes (ArcStands.bandResult ?_ _ _ _ _ _ _)
    refine ArcStands.count (ArcStands.onWp ?_ _ _) (counter (by decide))
    refine ArcStands.each ((s.countBy (counter (by decide))).countBy (counter (by decide))) _ fun n x _ => ?_
    split
    · exact .refl n
    · refine iteInduction (fun _ => ?_) fun _ => ?_
      · exact ArcStands.slotFault (ArcStands.refl n).other _
      · exact (ArcStands.slotDone (ArcStands.refl n).other _).setStripe _ _ _

theorem ArcStands.bandBreak {h : Nat} (hh : h < 2) (s : ArcStands d d') : ArcStands d (d'.bandBreak h) := by
  refine s.when (ArcStands.bandEnd hh (ArcStands.layRows ?_ h))
  dsimp only
  have shut := (((ArcStands.refl d').shutFrom hh (List.range 8) (d'.guardBit h))).each
    (((slotsBegun ((d'.shutFrom h (List.range 8) (d'.guardBit h)).headZone h) ((d'.shutFrom h (List.range 8) (d'.guardBit h)).head h).wedge).map
      (· * slotBits)).filter (d'.guardBit h < ·)) fun n b _ => (ArcStands.refl n).holdShut (h := h) (List.range 8) b
  split
  · exact shut
  · exact (shut.onWp h _).countBy (outsideArc_wpCnt hh (by decide))

theorem ArcStands.headOff {h : Nat} (hh : h < 2) (s : ArcStands d d') : ArcStands d (d'.headOff h) := by
  have broken := s.bandBreak hh
  unfold Dev.headOff
  generalize d'.bandBreak h = n at broken
  exact broken.other

theorem ArcStands.loseFocus {h : Nat} (hh : h < 2) (s : ArcStands d d') : ArcStands d (d'.loseFocus h) :=
  (s.headOff hh).count (.inr (by unfold Adr.SRV_CNT; omega))

/-! ## Motor events, the spindle and the sleds (R214, R236, R243, R247) -/

theorem ArcStands.motorEvent (s : ArcStands d d') (code : Nat) (v : Word) : ArcStands d (d'.motorEvent code v) := by
  have tail : OutsideArc (Adr.SPP_Q_PTR servoQueue) := .inr (by decide)
  unfold Dev.motorEvent
  refine ArcStands.when s.event ?_
  unfold Dev.queuePush
  exact ((ArcStands.refl _).bufWrite _ _).put tail

theorem outsideArc_motStatus : OutsideArc Adr.MOT_STATUS := .inr (by decide)

theorem ArcStands.spnSwitchesOff (s : ArcStands d d') : ArcStands d d'.spnSwitchesOff := by
  unfold Dev.spnSwitchesOff
  exact ArcStands.onSpn s.other _

theorem ArcStands.startSpindle (s : ArcStands d d') : ArcStands d d'.startSpindle := by
  unfold Dev.startSpindle
  refine iteInduction (fun _ => ?_) fun _ => s.onSpn _
  exact (s.spnSwitchesOff.put outsideArc_motStatus).onSpn _

/-- A spindle that coasts, with a TARGET, starts again. -/
theorem Dev.arcStands_applyTarget (target : (d.fld Fld.SPN_TARGET_TARGET != 0) = true) (coasts : (d.spnState == spnCoast) = true) :
    ArcStands d d.applyTarget := by
  have away : d.spnState ≠ spnOff := by rw [beq_iff_eq.mp coasts]; decide
  unfold Dev.applyTarget
  rw [if_neg (bne_iff_ne.mp target)]
  unfold Dev.runSpindle
  dsimp only
  rw [if_neg away, if_pos (beq_iff_eq.mp coasts)]
  exact iteInduction (fun _ => .refl d) fun _ => (ArcStands.refl d).startSpindle

theorem ArcStands.onSled (s : ArcStands d d') (h : Nat) (g : SledSt → SledSt) : ArcStands d (d'.onSled h g) := s.other

theorem ArcStands.homeSled (s : ArcStands d d') (h : Nat) : ArcStands d (d'.homeSled h) := by
  have status : OutsideArc (Adr.SLD_STATUS h) := .inr (by unfold Adr.SLD_STATUS; omega)
  have goes (n : Dev) : ArcStands n (n.sledGo h sledHome 0) := by
    unfold Dev.sledGo
    exact (((ArcStands.refl n).put status).putBit status).onSled h _
  unfold Dev.homeSled
  refine iteInduction (fun _ => ?_) fun _ => iteInduction (fun _ => s.putBit status) fun _ => ?_
  · exact (s.putBit status).motorEvent _ _
  · exact ((s.trans (goes _)).putBit status).onSled h _

/-- What a failed pair served starts again, and leaves the engines and pairs. -/
theorem Dev.arcStands_serveAgain (d : Dev) (im : ArcImage) : ArcStands d (d.serveAgain im) := by
  have heads (h : Nat) (hm : h ∈ im.heads) : h < 2 := by
    have := (List.mem_filter.mp hm).1
    simp only [List.mem_cons, List.not_mem_nil, or_false] at this
    omega
  have spindle (n : Dev) : ArcStands n (n.when (n.fld Fld.SPN_TARGET_TARGET != 0 && n.spnState == spnCoast) Dev.applyTarget) := by
    cases hc : (n.fld Fld.SPN_TARGET_TARGET != 0 && n.spnState == spnCoast) with
    | false => exact .refl n
    | true =>
      obtain ⟨target, coasts⟩ := (Bool.and_eq_true _ _).mp hc
      exact Dev.arcStands_applyTarget target coasts
  unfold Dev.serveAgain
  refine ArcStands.when ((ArcStands.refl d).each _ fun n h hm => ?_) ?_
  · exact (ArcStands.refl n).when ((ArcStands.refl n).loseFocus (heads h hm))
  · exact (spindle _).each _ fun n h _ => (ArcStands.refl n).when ((ArcStands.refl n).homeSled h)

end

end Sys2Proof.Machine

/-! PROOFS. The recovery of a failed pair, and O42. -/

namespace Sys2Proof.Machine

/-! ## Masks -/

/-- A bit of a mask that is cleared leaves the others. -/
theorem testBit_sub_bit (v k j : Nat) (h : j ≠ k) : (v - v / 2 ^ k % 2 * 2 ^ k).testBit j = v.testBit j := by
  have pos : 0 < 2 ^ k := by positivity
  have parts : v - v / 2 ^ k % 2 * 2 ^ k = 2 ^ (k + 1) * (v / 2 ^ (k + 1)) + v % 2 ^ k := by
    have high : v / 2 ^ (k + 1) = v / 2 ^ k / 2 := by rw [pow_succ, Nat.div_div_eq_div_mul]
    have whole := Nat.div_add_mod v (2 ^ k)
    have half := Nat.div_add_mod (v / 2 ^ k) 2
    have mul : 2 ^ k * (v / 2 ^ k) = 2 ^ (k + 1) * (v / 2 ^ (k + 1)) + v / 2 ^ k % 2 * 2 ^ k := by
      rw [high, pow_succ]
      conv_lhs => rw [← half]
      ring
    omega
  rcases Nat.lt_or_gt_of_ne h with low | high
  · have same : (v - v / 2 ^ k % 2 * 2 ^ k) % 2 ^ k = v % 2 ^ k := by
      rw [parts, pow_succ, Nat.mul_assoc, Nat.mul_add_mod, Nat.mod_mod]
    have bits := congrArg (Nat.testBit · j) same
    simpa only [Nat.testBit_mod_two_pow, low, decide_true, Bool.true_and] using bits
  · have same : (v - v / 2 ^ k % 2 * 2 ^ k) / 2 ^ (k + 1) = v / 2 ^ (k + 1) := by
      have small : v % 2 ^ k < 2 ^ (k + 1) := lt_trans (Nat.mod_lt _ pos) (Nat.pow_lt_pow_right (by decide) (Nat.lt_succ_self k))
      rw [parts, Nat.mul_add_div (by positivity), Nat.div_eq_of_lt small, Nat.add_zero]
    have bits := congrArg (Nat.testBit · (j - (k + 1))) same
    simpa only [Nat.testBit_div_two_pow, show j - (k + 1) + (k + 1) = j by omega] using bits

/-- A cleared bit of a mask leaves the others. -/
theorem Dev.maskBit_putMask_false_ne (d : Dev) (f : Field) {k j : Nat} (h : j ≠ k) (hj : j < f.width) (hf : f.lo + f.width ≤ 32) :
    (d.putMask f k false).maskBit f j = d.maskBit f j := by
  unfold Dev.maskBit Dev.putMask
  rw [Dev.fld_put_self _ _ _ hf, Nat.testBit_mod_two_pow, decide_eq_true hj, Bool.true_and, if_neg Bool.false_ne_true, Nat.add_zero,
    testBit_sub_bit _ _ _ h]

/-! ## Engines that retire (R202, R487) -/

/-- An engine does no work and is out of service. -/
def Dev.ArcOut (d : Dev) (o : Nat) : Prop := d.dead arcClass o = true ∧ d.arcUp o = false

theorem Dev.ArcOut.congr {d d' : Dev} {o : Nat} (h : d.ArcOut o) (units : d'.units = d.units)
    (service : d'.reg Adr.ARC_INSERVICE = d.reg Adr.ARC_INSERVICE) : d'.ArcOut o := by
  obtain ⟨dead, out⟩ := h
  refine ⟨?_, (Dev.maskBit_of_reg_eq o service).trans out⟩
  rwa [Dev.dead_congr units]

theorem Dev.ArcOut.of_arcStands {d d' : Dev} {o : Nat} (h : d.ArcOut o) (stands : ArcStands d d') : d'.ArcOut o := by
  refine h.congr stands.units (stands.regs _ (by unfold OutsideArc Adr.ARC_INSERVICE; omega) (fun e _ => ?_) fun e _ k _ hk => ?_)
  · unfold Adr.ARC_INSERVICE Adr.ARC_STATUS; omega
  · unfold Adr.ARC_INSERVICE Adr.ARC_CNT; omega

theorem arcInservice_notMem_retireRegs : ∀ e < 8, Adr.ARC_INSERVICE ∉ retireRegs arcClass e := by decide

/-- A retired engine is out; the others are out as they were, and the pairs stand. -/
theorem Dev.arcRetire_spec (d : Dev) {e : Nat} (he : e < 8) :
    let m := d.arcRetire e
    m.arc = d.arc ∧ m.ArcOut e ∧ ∀ o < 8, o ≠ e → d.ArcOut o → m.ArcOut o := by
  set x := d.putMask Fld.ARC_INSERVICE_MASK e false with hx
  set n := ((((x.putMask Fld.ARC_FAULT_MASK e true).putBit (Fld.ARC_STATUS_FAULT e) true).putBit (Fld.ARC_STATUS_RUNNING e) false).put
    (Fld.ARC_CTRL_ROLE e) roleOff).putBit (Fld.ARC_CTRL_RUN e) false with hn
  have known : d.arcRetire e = n.retireUnit arcClass e d.esn := rfl
  have arc : n.arc = d.arc := rfl
  have units : n.units = d.units := rfl
  have cleared : x.arcUp e = false := Dev.maskBit_putMask_self d _ false he (Nat.le_of_ble_eq_true rfl)
  have other (o : Nat) (ho : o < 8) (ne : o ≠ e) : x.arcUp o = d.arcUp o :=
    Dev.maskBit_putMask_false_ne d Fld.ARC_INSERVICE_MASK ne ho (Nat.le_of_ble_eq_true rfl)
  clear_value x
  have same : SameRegs x n [Adr.ARC_FAULT, Adr.ARC_STATUS e, Adr.ARC_CTRL e] := by
    have fault : Adr.ARC_FAULT ∈ [Adr.ARC_FAULT, Adr.ARC_STATUS e, Adr.ARC_CTRL e] := by simp
    have status : Adr.ARC_STATUS e ∈ [Adr.ARC_FAULT, Adr.ARC_STATUS e, Adr.ARC_CTRL e] := by simp
    have ctrl : Adr.ARC_CTRL e ∈ [Adr.ARC_FAULT, Adr.ARC_STATUS e, Adr.ARC_CTRL e] := by simp
    exact (((((SameRegs.refl x _).put (f := Fld.ARC_FAULT_MASK) fault).putBit status).putBit status).put ctrl).putBit ctrl
  have service : n.reg Adr.ARC_INSERVICE = x.reg Adr.ARC_INSERVICE := same _ (by
    simp only [List.mem_cons, List.not_mem_nil, or_false, Adr.ARC_INSERVICE, Adr.ARC_FAULT, Adr.ARC_STATUS, Adr.ARC_CTRL]
    omega)
  rw [known]
  clear_value n
  obtain ⟨⟨only, regs, dead⟩, own⟩ := n.retireUnit_spec arcClass e d.esn
  have mask (o : Nat) : (n.retireUnit arcClass e d.esn).arcUp o = x.arcUp o :=
    Dev.maskBit_of_reg_eq o ((regs _ (arcInservice_notMem_retireRegs e he)).trans service)
  refine ⟨by rw [only]; exact arc, ⟨own, by rw [mask, cleared]⟩, fun o ho ne out => ⟨dead _ _ ?_, ?_⟩⟩
  · rw [Dev.dead_congr units]
    exact out.1
  · rw [mask, other o ho ne]
    exact out.2

/-- The engines of a list retire. -/
theorem Dev.each_arcRetire (bad : List Nat) (d : Dev) (small : ∀ e ∈ bad, e < 8) :
    let m := d.each bad fun d e => d.arcRetire e
    m.arc = d.arc ∧ ∀ o < 8, o ∈ bad ∨ d.ArcOut o → m.ArcOut o := by
  induction bad generalizing d with
  | nil => exact ⟨rfl, fun _ _ h => h.resolve_left List.not_mem_nil⟩
  | cons e bad ih =>
    obtain ⟨arc, own, others⟩ := d.arcRetire_spec (small e List.mem_cons_self)
    have step : (d.each (e :: bad) fun d e => d.arcRetire e) = (d.arcRetire e).each bad fun d e => d.arcRetire e := rfl
    rw [step]
    generalize d.arcRetire e = x at arc own others
    obtain ⟨rest, out⟩ := ih x fun y hy => small y (List.mem_cons_of_mem _ hy)
    refine ⟨rest.trans arc, fun o ho h => out o ho ?_⟩
    by_cases he : o = e
    · exact .inr (he ▸ own)
    · exact h.imp (fun hm => (List.mem_cons.mp hm).resolve_left he) fun was => others o ho he was

/-! ## The recovery (R486, R487) -/

section
variable (d : Dev) (p : Nat)

/-- A failed pair whose engines that failed their test have retired. -/
def Dev.testEnded (bad : List Nat) : Dev :=
  ((d.each (d.pairEngines p) fun d e => d.putBit (Fld.ARC_STATUS_PAIR_FAILED e) false).each bad fun d e => d.arcRetire e).onPair p fun s =>
    { s with tested := [] }

theorem Dev.testEnded_spec (bad : List Nat) (small : ∀ e ∈ bad, e < 8) :
    let m := d.testEnded p bad
    (m.arcPair p).image = (d.arcPair p).image ∧ ∀ o ∈ bad, m.ArcOut o := by
  set n := d.each (d.pairEngines p) fun d e => d.putBit (Fld.ARC_STATUS_PAIR_FAILED e) false with hn
  have arc : n.arc = d.arc := Dev.each_keeps (fun d => d.arc) (fun _ _ => by rfl) _ d
  obtain ⟨arc', out⟩ := Dev.each_arcRetire bad n small
  have known : d.testEnded p bad = (n.each bad fun d e => d.arcRetire e).onPair p fun s => { s with tested := [] } := rfl
  generalize (n.each bad fun d e => d.arcRetire e) = x at known arc' out
  have pair : x.arcPair p = d.arcPair p := Dev.arcPair_congr (by rw [arc', arc]) p
  rw [known]
  refine ⟨?_, fun o ho => (out o (small o ho) (.inl ho)).congr rfl rfl⟩
  rw [Dev.arcPair_onPair_self, pair]

/-- The program of a failed pair waits on two engines, or leaves the pair. -/
def Dev.refill (kept engines : List Nat) (im : Option ArcImage) : Dev :=
  match engines, im with
  | a :: b :: _, some im =>
    (((d.fillPair p a b).onPair p fun s => { s with next := some { im with keepState := false }, quiet := false })).serveAgain im
  | _, _ =>
    let d := d.each kept fun d e => d.put (Fld.ARC_CTRL_ROLE e) roleOff
    d.onPair p fun s => { s with image := none, next := none }

/-- A pair that its program leaves. -/
def Dev.Emptied (n : Dev) : Prop :=
  (n.arcPair p).image = none ∧ (n.arcPair p).next = none ∧ ∀ o, d.ArcOut o → n.ArcOut o

theorem Dev.emptied (kept : List Nat) : d.Emptied p ((d.each kept fun d e => d.put (Fld.ARC_CTRL_ROLE e) roleOff).onPair p fun s =>
    { s with image := none, next := none }) := by
  have service (e : Nat) : Adr.ARC_INSERVICE ≠ Adr.ARC_CTRL e := by unfold Adr.ARC_INSERVICE Adr.ARC_CTRL; omega
  refine ⟨?_, ?_, fun o out => ?_⟩
  · rw [Dev.arcPair_onPair_self]
  · rw [Dev.arcPair_onPair_self]
  · refine Dev.ArcOut.congr ?_ rfl rfl
    exact Dev.each_induction (fun n => n.ArcOut o) (fun n e => n.put (Fld.ARC_CTRL_ROLE e) roleOff)
      (fun n e hn => hn.congr rfl (Dev.reg_put_ne n _ _ (service e))) kept d out

theorem Dev.refill_spec (kept engines : List Nat) (im : Option ArcImage) :
    let m := d.refill p kept engines im
    (∀ o, d.ArcOut o → m.ArcOut o) ∧ (im = none → (m.arcPair p).image = none ∧ (m.arcPair p).next = none) ∧
    ∀ i, im = some i → (m.arcPair p).next = some { i with keepState := false } ∨ (m.arcPair p).image = none := by
  have service (n : Dev) (a r : Nat) (q : Nat) : (n.seat q a r).reg Adr.ARC_INSERVICE = n.reg Adr.ARC_INSERVICE := by
    have apart : Adr.ARC_INSERVICE ≠ Adr.ARC_CTRL a := by unfold Adr.ARC_INSERVICE Adr.ARC_CTRL; omega
    exact (Dev.reg_put_ne _ (Fld.ARC_CTRL_ROLE a) r apart).trans (Dev.reg_put_ne n (Fld.ARC_CTRL_PAIR a) q apart)
  unfold Dev.refill
  split
  case h_1 a b _ i =>
    set x := (d.fillPair p a b).onPair p fun s => { s with next := some { i with keepState := false }, quiet := false } with hx
    have stands := x.arcStands_serveAgain i
    refine ⟨fun o out => (out.congr (d' := x) rfl ?_).of_arcStands stands, fun h => (by cases h), fun j hj => .inl ?_⟩
    · show (d.fillPair p a b).reg Adr.ARC_INSERVICE = _
      rw [Dev.fillPair_eq, service, service]
    · rw [stands.next, hx, Dev.arcPair_onPair_self, Option.some.inj hj]
  case h_2 =>
    obtain ⟨image, next, out⟩ := d.emptied p kept
    exact ⟨out, fun _ => ⟨image, next⟩, fun _ _ => .inr image⟩

end

section
variable {s : State} {p : ArcPair} (failed : List ArcEng)

theorem exec_pairFailedRecovery_of_sound (h : s.dev.pairFailed p = false) : exec (.pairFailedRecovery p failed) s = .next s := by
  have row : exec (.pairFailedRecovery p failed) s = execPairFailedRecovery p failed s := rfl
  unfold execPairFailedRecovery at row
  rw [row, State.on_eq, if_pos (by rw [h]; rfl)]

/-- The engines of a failed takeover that failed their test. -/
def Dev.testFailed (d : Dev) (p : Nat) : List Nat :=
  (failed.map (·.val)).filter fun e => (d.pairEngines p).contains e || (d.arcPair p).tested.contains e

theorem exec_pairFailedRecovery (h : s.dev.pairFailed p = true) : ∃ kept engines, exec (.pairFailedRecovery p failed) s =
    .next { s with dev := (s.dev.testEnded p (s.dev.testFailed failed p)).refill p kept engines (s.dev.arcPair p).image } := by
  have row : exec (.pairFailedRecovery p failed) s = execPairFailedRecovery p failed s := rfl
  unfold execPairFailedRecovery at row
  rw [State.on_eq, if_neg (by rw [h]; decide)] at row
  exact ⟨_, _, row⟩

theorem completes_pairFailedRecovery (h : s.dev.pairFailed p = true) :
    Completes (.pairFailedRecovery p failed) s fun d =>
      (∀ o ∈ failed, o.val ∈ s.dev.pairEngines p ∨ o.val ∈ (s.dev.arcPair p).tested → d.ArcOut o) ∧
      ((s.dev.arcPair p).image = none → (d.arcPair p).image = none ∧ (d.arcPair p).next = none) ∧
      ∀ im, (s.dev.arcPair p).image = some im → (d.arcPair p).next = some { im with keepState := false } ∨ (d.arcPair p).image = none := by
  obtain ⟨kept, engines, row⟩ := exec_pairFailedRecovery failed h
  have small : ∀ e ∈ s.dev.testFailed failed p, e < 8 := fun e he => by
    obtain ⟨o, _, rfl⟩ := List.mem_map.mp (List.mem_filter.mp he).1
    exact o.isLt
  obtain ⟨_, retired⟩ := s.dev.testEnded_spec p (s.dev.testFailed failed p) small
  obtain ⟨out, empty, waits⟩ := (s.dev.testEnded p (s.dev.testFailed failed p)).refill_spec p kept engines (s.dev.arcPair p).image
  refine ⟨_, row, fun o ho took => out o (retired o ?_), empty, waits⟩
  refine List.mem_filter.mpr ⟨List.mem_map_of_mem ho, ?_⟩
  simpa using took

end

/-- Settles O42: a tick by the stages of its boundary, the loader and the requests by their branches, the recovery by what it leaves of engines
that are out. -/
theorem pairsStepAtBoundaries : Obligations.PairsStepAtBoundaries := by
  intro s p b e v failed
  refine ⟨fun hr hn => completes_arcPeriodTick_idle b hr hn, fun im hr hn => ?_, fun hr hn ht hh idle => ?_,
    fun t hr ht hv => completes_arcPeriodTick_held b hr ht hv, completes_arcSwapReq, exec_arcPeriodWrite_of_bad,
    fun fine => (completes_arcPeriodWrite fine).1, fun fine => (completes_arcPeriodWrite fine).2.1, fun fine => (completes_arcPeriodWrite fine).2.2,
    fun busy => ⟨exec_arcLoad_of_busy busy, exec_arcHandover_of_busy busy⟩, completes_arcLoad, completes_arcHandover,
    exec_arcLoadDone_of_none, completes_arcLoadDone, completes_arcCntClr, exec_pairFailedRecovery_of_sound failed,
    completes_pairFailedRecovery failed⟩
  · obtain ⟨d, row, image, next, runs⟩ := completes_arcPeriodTick_start b hr hn
    refine ⟨d, row, image, next, fun o ho => ?_⟩
    obtain ⟨running, named, regs, bank, coef⟩ := runs o ho
    exact ⟨running, named, regs, bank, coef⟩
  · obtain ⟨d, row, quiet, fwd, engines⟩ := completes_arcPeriodTick_normal b hr hn ht hh idle
    refine ⟨d, row, quiet, fwd, fun o ho => ?_⟩
    obtain ⟨pcnt, regs, mem, preds, clamp, posts, begun, exchanged, stands⟩ := engines o ho
    exact ⟨pcnt, regs, mem, preds, clamp, posts, begun, exchanged, stands⟩

end Sys2Proof.Machine

/-! PROOFS. Fields that stand, motor events, and what the operations on the spindle leave: the layer on which the statements about the spindle, the
motor tick and the sleds rest (O43, O44, O45). -/

namespace Sys2Proof.Machine

/-! ## Fields that stand -/

/-- Two fields share no bit. -/
abbrev Field.Apart (g f : Field) : Prop := g.adr ≠ f.adr ∨ g.lo + g.width ≤ f.lo ∨ f.lo + f.width ≤ g.lo

/-- A field lies outside the registers of a list and shares no bit with the fields of another. -/
abbrev Field.Outside (g : Field) (as : List Nat) (fs : List Field) : Prop := g.adr ∉ as ∧ ∀ f ∈ fs, g.Apart f

/-- A register as one field. -/
abbrev wholeReg (a : Nat) : Field := ⟨a, 0, 32⟩

theorem Dev.reg_of_fld_whole {d d' : Dev} {a : Nat} (h : d'.fld (wholeReg a) = d.fld (wholeReg a)) : d'.reg a = d.reg a := by
  have whole (v : Word) : fieldOf v 0 32 = v.toNat := by
    unfold fieldOf
    rw [Nat.pow_zero, Nat.div_one, Nat.mod_eq_of_lt v.isLt]
  have same : fieldOf (d'.reg a) 0 32 = fieldOf (d.reg a) 0 32 := h
  rw [whole, whole] at same
  exact BitVec.eq_of_toNat_eq same

/-- Fields outside registers and fields of two lists read as before. -/
def SameFields (d d' : Dev) (as : List Nat) (fs : List Field) : Prop := ∀ g : Field, g.Outside as fs → d'.fld g = d.fld g

section
variable {d d' : Dev} {as : List Nat} {fs : List Field}

theorem SameFields.refl (d : Dev) (as : List Nat) (fs : List Field) : SameFields d d as fs := fun _ _ => rfl

theorem SameFields.of_regs_eq (h : d'.regs = d.regs) : SameFields d d' as fs := fun g _ => by unfold Dev.fld Dev.reg; rw [h]

theorem SameFields.of_sameRegs (h : SameRegs d d' as) : SameFields d d' as fs := fun _ hg => h.fld hg.1

theorem SameFields.trans {d'' : Dev} (h : SameFields d d' as fs) (h' : SameFields d' d'' as fs) : SameFields d d'' as fs :=
  fun g hg => (h' g hg).trans (h g hg)

theorem SameFields.mono {as' : List Nat} {fs' : List Field} (h : SameFields d d' as fs) (ha : as ⊆ as') (hf : fs ⊆ fs') :
    SameFields d d' as' fs' :=
  fun g hg => h g ⟨fun hm => hg.1 (ha hm), fun f hm => hg.2 f (hf hm)⟩

/-- The registers of the fields that change, taken whole. -/
theorem SameFields.widen {as' : List Nat} {fs' : List Field} (h : SameFields d d' as fs) (ha : as ⊆ as') (hf : fs.map Field.adr ⊆ as') :
    SameFields d d' as' fs' :=
  fun g hg => h g ⟨fun hm => hg.1 (ha hm), fun f hm => .inl fun he => hg.1 (hf (List.mem_map.mpr ⟨f, hm, he.symm⟩))⟩

theorem SameFields.put (h : SameFields d d' as fs) {f : Field} (v : Nat) (hf : f ∈ fs)
    (hw : f.lo + f.width ≤ 32 := by exact Nat.le_of_ble_eq_true rfl) : SameFields d (d'.put f v) as fs :=
  fun g hg => (Dev.fld_put_ne d' f g v hw (hg.2 f hf)).trans (h g hg)

theorem SameFields.putBit (h : SameFields d d' as fs) {f : Field} (b : Bool) (hf : f ∈ fs)
    (hw : f.lo + f.width ≤ 32 := by exact Nat.le_of_ble_eq_true rfl) : SameFields d (d'.putBit f b) as fs := h.put _ hf hw

theorem SameFields.setReg (h : SameFields d d' as fs) {a : Nat} (v : Word) (ha : a ∈ as) : SameFields d (d'.setReg a v) as fs :=
  fun g hg => (Dev.fld_setReg_ne d' a v g fun he => hg.1 (by rw [he]; exact ha)).trans (h g hg)

theorem SameFields.count (h : SameFields d d' as fs) {a : Nat} (ha : a ∈ as) : SameFields d (d'.count a) as fs := h.setReg _ ha

theorem SameFields.when (h : SameFields d d' as fs) {c : Bool} {f : Dev → Dev} (hf : SameFields d' (f d') as fs) :
    SameFields d (d'.when c f) as fs := by
  cases c with
  | true => exact h.trans hf
  | false => exact h

theorem SameFields.bit (h : SameFields d d' as fs) {g : Field} (hg : g.Outside as fs) : d'.bit g = d.bit g := Dev.bit_of_fld_eq (h g hg)

theorem SameFields.reg (h : SameFields d d' as fs) {a : Nat} (ha : (wholeReg a).Outside as fs) : d'.reg a = d.reg a :=
  Dev.reg_of_fld_whole (h _ ha)

theorem SameFields.sameRegs (h : SameFields d d' as []) : SameRegs d d' as := fun _ ha => h.reg ⟨ha, fun _ hm => absurd hm List.not_mem_nil⟩

end

/-! ## Counters -/

section
variable {d d' : Dev} {a : Nat}

theorem Dev.reg_count_counted (h : d'.reg a = d.reg a) : (d'.count a).reg a = d.counted a 1 := by
  refine (Dev.reg_setReg_self _ _ _).trans ?_
  rw [h]
  rfl

/-- A counter leaves the fields of other registers. -/
theorem Dev.fld_count {f : Field} (h : f.adr ≠ a) : (d.count a).fld f = d.fld f := Dev.fld_setReg_ne _ _ _ _ h

end

/-! ## Motor events (R247) -/

/-- The registers that a motor event writes: the sequencer's status and the tail of the servo event stream. -/
def motorEventRegs : List Nat := [Adr.LOCUS_STATUS, Adr.SPP_Q_PTR servoQueue]

section
variable (d : Dev) (code : Nat) (v : Word)

theorem Dev.motorEvent_only : d.motorEvent code v = { d with
    regs := (d.motorEvent code v).regs, locus := (d.motorEvent code v).locus
    log := (d.motorEvent code v).log, mem := (d.motorEvent code v).mem } := by
  unfold Dev.motorEvent
  have event := d.event_only .motorRecord 0x80 code [v.toNat]
  generalize d.event .motorRecord 0x80 code [v.toNat] = n at event
  dsimp only
  generalize (!n.queueFull servoQueue) = room
  cases room with
  | true => rw [Dev.when_true, event]; rfl
  | false => rw [Dev.when_false, event]

theorem Dev.sameRegs_motorEvent : SameRegs d (d.motorEvent code v) motorEventRegs := by
  have event := (d.sameRegs_event .motorRecord 0x80 code [v.toNat]).mono (l' := motorEventRegs) (by simp [motorEventRegs])
  exact event.when ((SameRegs.of_regs_eq rfl).put (by decide))

@[simp] theorem Dev.motorEvent_mot : (d.motorEvent code v).mot = d.mot := by rw [Dev.motorEvent_only]

@[simp] theorem Dev.motorEvent_arc : (d.motorEvent code v).arc = d.arc := by rw [Dev.motorEvent_only]

/-- The motor block's registers lie below those that an event writes. -/
theorem notMem_motorEventRegs {a : Nat} (h : a < 0xd0000) : a ∉ motorEventRegs := by
  simp only [motorEventRegs, Adr.LOCUS_STATUS, Adr.SPP_Q_PTR, servoQueue, List.mem_cons, List.not_mem_nil, or_false]
  omega

@[simp] theorem Dev.reg_motorEvent {a : Nat} (h : a < 0xd0000) : (d.motorEvent code v).reg a = d.reg a :=
  d.sameRegs_motorEvent code v a (notMem_motorEventRegs h)

@[simp] theorem Dev.fld_motorEvent {f : Field} (h : f.adr < 0xd0000) : (d.motorEvent code v).fld f = d.fld f :=
  (d.sameRegs_motorEvent code v).fld (notMem_motorEventRegs h)

@[simp] theorem Dev.bit_motorEvent {f : Field} (h : f.adr < 0xd0000) : (d.motorEvent code v).bit f = d.bit f :=
  Dev.bit_of_fld_eq (d.fld_motorEvent code v h)

end

section
variable {d d' : Dev} {fs : List Field} {as : List Nat}

theorem SameFields.motorEvent (h : SameFields d d' as fs) (code : Nat) (v : Word) (ha : motorEventRegs ⊆ as) :
    SameFields d (d'.motorEvent code v) as fs :=
  h.trans (SameFields.of_sameRegs ((d'.sameRegs_motorEvent code v).mono ha))

end

/-! ## The spindle's state and switches (R211, R214, R480) -/

section
variable (d : Dev) (g : SpindleSt → SpindleSt) (f : Field) (a st : Nat)

@[simp] theorem Dev.onSpn_spn : (d.onSpn g).mot.spn = g d.mot.spn := rfl
@[simp] theorem Dev.fld_onSpn : (d.onSpn g).fld f = d.fld f := rfl
@[simp] theorem Dev.bit_onSpn : (d.onSpn g).bit f = d.bit f := rfl
@[simp] theorem Dev.reg_onSpn : (d.onSpn g).reg a = d.reg a := rfl
@[simp] theorem Dev.spnState_onSpn : (d.onSpn g).spnState = d.spnState := rfl
@[simp] theorem Dev.outPort_onSpn : (d.onSpn g).outPort a = d.outPort a := rfl

@[simp] theorem Dev.spnState_setSpn (h : st < 16) : (d.setSpn st).spnState = st :=
  (Dev.fld_put_self d _ st (Nat.le_of_ble_eq_true rfl)).trans (Nat.mod_eq_of_lt h)

@[simp] theorem Dev.fld_setSpn (h : f.Apart Fld.MOT_STATUS_SPN_STATE) : (d.setSpn st).fld f = d.fld f :=
  Dev.fld_put_ne d _ f st (Nat.le_of_ble_eq_true rfl) h

@[simp] theorem Dev.bit_setSpn (h : f.Apart Fld.MOT_STATUS_SPN_STATE) : (d.setSpn st).bit f = d.bit f :=
  Dev.bit_of_fld_eq (d.fld_setSpn f st h)

@[simp] theorem Dev.reg_setSpn (h : a ≠ Adr.MOT_STATUS) : (d.setSpn st).reg a = d.reg a := Dev.reg_put_ne d _ st h

@[simp] theorem Dev.setSpn_mot : (d.setSpn st).mot = d.mot := rfl
@[simp] theorem Dev.outPort_setSpn : (d.setSpn st).outPort a = d.outPort a := rfl

@[simp] theorem Dev.fld_spnSwitchesOff : d.spnSwitchesOff.fld f = d.fld f := rfl
@[simp] theorem Dev.bit_spnSwitchesOff : d.spnSwitchesOff.bit f = d.bit f := rfl
@[simp] theorem Dev.reg_spnSwitchesOff : d.spnSwitchesOff.reg a = d.reg a := rfl
@[simp] theorem Dev.spnState_spnSwitchesOff : d.spnSwitchesOff.spnState = d.spnState := rfl

@[simp] theorem Dev.spnSwitchesOff_spn : d.spnSwitchesOff.mot.spn = { d.mot.spn with
    short := false, synced := false, floated := 0, handover := false, handoverNext := false, commute := none } := rfl

/-- The ports of the spindle's duties and its drive mode. -/
abbrev spindlePorts : List Nat := [0x100, 0x101, 0x102, 0x103]

/-- With its switches off, the spindle's ports are 0. -/
theorem Dev.outPort_spnSwitchesOff {q : Nat} (hq : q ∈ spindlePorts) : d.spnSwitchesOff.outPort q = 0 := by
  have zero (l : List Nat) (t : Tab Int) (h : q ∈ l ∨ Tab.get (fun _ => 0) t q = 0) :
      Tab.get (fun _ => 0) (l.foldl (fun t q => Tab.set (fun _ => 0) t q 0) t) q = 0 := by
    induction l generalizing t with
    | nil => exact h.resolve_left List.not_mem_nil
    | cons p l ih =>
      refine ih _ (or_iff_not_imp_left.mpr fun hl => ?_)
      rw [Tab.get_set]
      split
      · rfl
      · exact h.resolve_left fun hm => (List.mem_cons.mp hm).elim ‹_› hl
  exact zero _ _ (.inl hq)

end

/-! ## What the operations on the spindle leave -/

/-- What an operation on the spindle leaves: fields outside two lists, the sleds, the profiler channels but that of the spindle, and what is known of
the bus. -/
structure SpindleStands (as : List Nat) (fs : List Field) (d d' : Dev) : Prop where
  fields : SameFields d d' as fs
  sleds : d'.mot.sleds = d.mot.sleds
  prf : ∀ c ≠ 6, d'.prf c = d.prf c
  chopper : d'.mot.spn.chopper = d.mot.spn.chopper
  busLow : d'.mot.spn.busLow = d.mot.spn.busLow

namespace SpindleStands

variable {d d' : Dev} {as : List Nat} {fs : List Field}

theorem refl (d : Dev) : SpindleStands as fs d d := ⟨.refl d as fs, rfl, fun _ _ => rfl, rfl, rfl⟩

theorem trans {d'' : Dev} (h : SpindleStands as fs d d') (h' : SpindleStands as fs d' d'') : SpindleStands as fs d d'' :=
  ⟨h.fields.trans h'.fields, h'.sleds.trans h.sleds, fun c hc => (h'.prf c hc).trans (h.prf c hc), h'.chopper.trans h.chopper,
    h'.busLow.trans h.busLow⟩

theorem mono {as' : List Nat} {fs' : List Field} (h : SpindleStands as fs d d') (ha : as ⊆ as') (hf : fs ⊆ fs') : SpindleStands as' fs' d d' :=
  { h with fields := h.fields.mono ha hf }

theorem put (h : SpindleStands as fs d d') {f : Field} (v : Nat) (hf : f ∈ fs)
    (hw : f.lo + f.width ≤ 32 := by exact Nat.le_of_ble_eq_true rfl) : SpindleStands as fs d (d'.put f v) :=
  { h with fields := h.fields.put v hf hw }

theorem putBit (h : SpindleStands as fs d d') {f : Field} (b : Bool) (hf : f ∈ fs)
    (hw : f.lo + f.width ≤ 32 := by exact Nat.le_of_ble_eq_true rfl) : SpindleStands as fs d (d'.putBit f b) := h.put _ hf hw

theorem setReg (h : SpindleStands as fs d d') {a : Nat} (v : Word) (ha : a ∈ as) : SpindleStands as fs d (d'.setReg a v) :=
  { h with fields := h.fields.setReg v ha }

theorem onSpn (h : SpindleStands as fs d d') (g : SpindleSt → SpindleSt) (hc : ∀ x, (g x).chopper = x.chopper := by exact fun _ => rfl)
    (hb : ∀ x, (g x).busLow = x.busLow := by exact fun _ => rfl) : SpindleStands as fs d (d'.onSpn g) :=
  ⟨h.fields.trans (.of_regs_eq rfl), h.sleds, h.prf, (hc _).trans h.chopper, (hb _).trans h.busLow⟩

theorem presetRamp (h : SpindleStands as fs d d') (rpm : Nat) : SpindleStands as fs d (d'.presetRamp rpm) :=
  { h with
    fields := h.fields.trans (.of_regs_eq rfl)
    prf := fun c hc => (Tab.get_set_ne _ _ hc).trans (h.prf c hc) }

theorem spnSwitchesOff (h : SpindleStands as fs d d') : SpindleStands as fs d d'.spnSwitchesOff :=
  h.trans ⟨.of_regs_eq rfl, rfl, fun _ _ => rfl, rfl, rfl⟩

theorem motorEvent (h : SpindleStands as fs d d') (code : Nat) (v : Word) (ha : motorEventRegs ⊆ as) :
    SpindleStands as fs d (d'.motorEvent code v) :=
  have same : (d'.motorEvent code v).mot = d'.mot := d'.motorEvent_mot code v
  h.trans ⟨(SameFields.refl d' as fs).motorEvent code v ha, by rw [same], fun c _ => by unfold Dev.prf; rw [same], by rw [same], by rw [same]⟩

theorem when (h : SpindleStands as fs d d') {c : Bool} {f : Dev → Dev} (hf : SpindleStands as fs d' (f d')) : SpindleStands as fs d (d'.when c f) := by
  cases c with
  | true => exact h.trans hf
  | false => exact h

theorem stopCheck (h : SpindleStands as fs d d') : SpindleStands as fs d d'.stopCheck :=
  h.when (((refl d').spnSwitchesOff.onSpn _).onSpn _)

end SpindleStands

namespace SpindleStands

variable {d d' : Dev} {as : List Nat} {fs : List Field} (hs : Fld.MOT_STATUS_SPN_STATE ∈ fs)
include hs

theorem setSpn (h : SpindleStands as fs d d') (st : Nat) : SpindleStands as fs d (d'.setSpn st) := h.put st hs

theorem enterMeasure (h : SpindleStands as fs d d') : SpindleStands as fs d d'.enterMeasure := (h.spnSwitchesOff.setSpn hs _).onSpn _

theorem startSpindle (h : SpindleStands as fs d d') : SpindleStands as fs d d'.startSpindle := by
  unfold Dev.startSpindle
  exact iteInduction (fun _ => h.enterMeasure hs) fun _ => h.onSpn _

theorem heldStart (h : SpindleStands as fs d d') : SpindleStands as fs d d'.heldStart := h.when ((refl d').enterMeasure hs)

theorem enterOff (h : SpindleStands as fs d d') : SpindleStands as fs d d'.enterOff := (h.spnSwitchesOff.setSpn hs _).heldStart hs

theorem stopSpindle (h : SpindleStands as fs d d') : SpindleStands as fs d d'.stopSpindle := by
  have n := h.onSpn fun s => { s with held := false }
  unfold Dev.stopSpindle
  refine iteInduction (fun _ => iteInduction (fun _ => n.enterOff hs) fun _ => n) fun _ => ?_
  refine iteInduction (fun _ => (n.setSpn hs _).stopCheck) fun _ => iteInduction (fun _ => ?_) fun _ => n
  exact (n.spnSwitchesOff.setSpn hs _).onSpn _

theorem runSpindle (h : SpindleStands as fs d d') : SpindleStands as fs d d'.runSpindle := by
  unfold Dev.runSpindle
  refine iteInduction (fun _ => h.startSpindle hs) fun _ => iteInduction (fun _ => ?_) fun _ => iteInduction (fun _ => h.onSpn _) fun _ => ?_
  · exact iteInduction (fun _ => h) fun _ => h.startSpindle hs
  · refine iteInduction (fun _ => iteInduction (fun _ => h.onSpn _) fun _ => ?_) fun _ => h
    exact (h.setSpn hs _).presetRamp _

theorem applyTarget (h : SpindleStands as fs d d') : SpindleStands as fs d d'.applyTarget :=
  iteInduction (fun _ => h.stopSpindle hs) fun _ => h.runSpindle hs

end SpindleStands

section
variable (d : Dev)

/-- The fields that a write of SPN_TARGET changes. -/
abbrev targetFields : List Field := [Fld.MOT_STATUS_SPN_STATE, Fld.MOT_STATUS_AT_SPEED, Fld.MOT_STATUS_SPEED_REFUSED]

theorem Dev.stands_targetWrite (v : Word) : SpindleStands [Adr.SPN_TARGET] targetFields d (d.targetWrite v) := by
  have self (n : Dev) : SpindleStands [Adr.SPN_TARGET] targetFields n n := .refl n
  unfold Dev.targetWrite
  refine iteInduction (fun _ => (self d).putBit _ (by decide)) fun _ => SpindleStands.applyTarget (by decide) ?_
  exact ((self d).setReg v List.mem_cons_self).when (((self _).putBit _ (by decide)).onSpn _)

/-- The fields that a measured speed changes. -/
abbrev speedFields : List Field := [Fld.SPN_SPEED_RPM, Fld.SPN_SPEED_SRC, Fld.SPN_SPEED_REVERSE, Fld.MOT_STATUS_AT_SPEED]

variable (src num den : Nat) (reverse : Bool)

theorem Dev.stands_judgeSpeed : SpindleStands motorEventRegs speedFields d (d.judgeSpeed num den) := by
  have self (n : Dev) : SpindleStands motorEventRegs speedFields n n := .refl n
  unfold Dev.judgeSpeed
  refine iteInduction (fun _ => ?_) fun _ => ((self d).onSpn _).when ((self _).putBit _ (by decide))
  exact (((self d).onSpn _).putBit _ (by decide)).motorEvent _ _ (List.Subset.refl _)

theorem Dev.stands_measureSpeed : SpindleStands motorEventRegs speedFields d (d.measureSpeed src num den reverse) := by
  have self : SpindleStands motorEventRegs speedFields d d := .refl d
  unfold Dev.measureSpeed
  refine iteInduction (fun _ => self) fun _ => SpindleStands.trans ?_ (Dev.stands_judgeSpeed _ _ _)
  exact (((self.put _ (by decide)).put _ (by decide)).putBit _ (by decide)).onSpn _

/-- Of the spindle's state, its speed and its run of measurements at TARGET alone may differ. -/
def SameButSpeed (d d' : Dev) : Prop := d'.mot.spn = { d.mot.spn with atRun := d'.mot.spn.atRun, speed := d'.mot.spn.speed }

theorem Dev.sameButSpeed_judgeSpeed : SameButSpeed d (d.judgeSpeed num den) := by
  unfold Dev.judgeSpeed
  refine iteInduction (fun _ => ?_) fun _ => iteInduction (fun _ => rfl) fun _ => rfl
  unfold SameButSpeed Dev.spnEvent
  rw [Dev.motorEvent_mot]
  rfl

theorem Dev.sameButSpeed_measureSpeed : SameButSpeed d (d.measureSpeed src num den reverse) := by
  unfold Dev.measureSpeed
  refine iteInduction (fun _ => rfl) fun _ => (Dev.sameButSpeed_judgeSpeed _ _ _).trans ?_
  rfl

end

end Sys2Proof.Machine

/-! PROOFS. The spindle starts, synchronises and stops (O43). -/

namespace Sys2Proof.Machine

/-! ## The TARGET in force and the stage (R214, R226, R480) -/

section
variable (d : Dev) (v : Word)

theorem Dev.spnState_enterMeasure : d.enterMeasure.spnState = spnMeasure := Dev.spnState_setSpn _ _ (by decide)

theorem Dev.startSpindle_of_enabled (h : d.bit Fld.MOT_CTRL_SPN_EN = true) : d.startSpindle = d.enterMeasure := if_pos h

theorem Dev.startSpindle_of_disabled (h : d.bit Fld.MOT_CTRL_SPN_EN = false) : d.startSpindle = d.onSpn fun s => { s with held := true } :=
  if_neg (by rw [h]; decide)

/-- SPN_TARGET with a new value, before it acts. -/
def Dev.targetStored : Dev :=
  (d.setReg Adr.SPN_TARGET v).when (fieldOf v 0 16 != d.fld Fld.SPN_TARGET_TARGET) fun d =>
    (d.putBit Fld.MOT_STATUS_AT_SPEED false).onSpn fun s => { s with atRun := 0 }

theorem Dev.targetWrite_of_allowed {d : Dev} {v : Word} (h : fieldOf v 0 16 ≤ d.fld Fld.SPN_LIMIT_SPN_MAX) :
    d.targetWrite v = (d.targetStored v).applyTarget := if_neg (Nat.not_lt.mpr h)

theorem Dev.stands_targetStored : SpindleStands [Adr.SPN_TARGET] [Fld.MOT_STATUS_AT_SPEED] d (d.targetStored v) :=
  (SpindleStands.setReg (.refl d) v List.mem_cons_self).when (((SpindleStands.refl _).putBit _ List.mem_cons_self).onSpn _)

theorem Dev.reg_targetStored : (d.targetStored v).reg Adr.SPN_TARGET = v := by
  unfold Dev.targetStored Dev.when
  split
  · exact (Dev.reg_put_ne _ _ _ (by decide)).trans (Dev.reg_setReg_self _ _ _)
  · exact Dev.reg_setReg_self _ _ _

theorem Dev.fld_targetStored : (d.targetStored v).fld Fld.SPN_TARGET_TARGET = fieldOf v 0 16 := by
  show fieldOf ((d.targetStored v).reg Adr.SPN_TARGET) 0 16 = _
  rw [Dev.reg_targetStored]

end

section
variable {s : State} {v : Word}

theorem completes_spnTargetWrite_of_above (h : s.dev.fld Fld.SPN_LIMIT_SPN_MAX < fieldOf v 0 16) : Completes (.spnTargetWrite v) s fun d =>
    d.bit Fld.MOT_STATUS_SPEED_REFUSED = true ∧ d = { s.dev with regs := d.regs } ∧ SameRegs s.dev d [Adr.MOT_STATUS] := by
  have refuses : s.dev.targetWrite v = s.dev.putBit Fld.MOT_STATUS_SPEED_REFUSED true := if_pos h
  refine ⟨s.dev.targetWrite v, rfl, ?_⟩
  rw [refuses]
  exact ⟨Dev.bit_putBit_self _ _ _, (RegFrame.refl s.dev _).putBit List.mem_cons_self⟩

theorem completes_spnTargetWrite (h : fieldOf v 0 16 ≤ s.dev.fld Fld.SPN_LIMIT_SPN_MAX) : Completes (.spnTargetWrite v) s fun d =>
    d.reg Adr.SPN_TARGET = v ∧
    (fieldOf v 0 16 ≠ 0 → s.dev.spnState = spnOff → (s.dev.bit Fld.MOT_CTRL_SPN_EN = true → d.spnState = spnMeasure) ∧
      (s.dev.bit Fld.MOT_CTRL_SPN_EN = false → d.spnState = spnOff ∧ d.mot.spn.held = true)) ∧
    (fieldOf v 0 16 = 0 → s.dev.spnState ∈ [spnMeasure, spnRevBrake, spnProbe, spnKick] → d.spnState = spnStopping ∧
      d.mot.spn.short = true) := by
  refine ⟨s.dev.targetWrite v, rfl, ?_⟩
  rw [Dev.targetWrite_of_allowed h]
  have stands := s.dev.stands_targetStored v
  have target := s.dev.fld_targetStored v
  have stored := s.dev.reg_targetStored v
  generalize s.dev.targetStored v = n at stands target stored
  have state : n.spnState = s.dev.spnState := stands.fields _ (by decide)
  have enabled : n.bit Fld.MOT_CTRL_SPN_EN = s.dev.bit Fld.MOT_CTRL_SPN_EN := stands.fields.bit (by decide)
  have acts : SpindleStands [] [Fld.MOT_STATUS_SPN_STATE] n n.applyTarget := (SpindleStands.refl n).applyTarget List.mem_cons_self
  refine ⟨(acts.fields.reg (by decide)).trans stored, fun hv off => ?_, fun hv starting => ?_⟩
  · have starts : n.applyTarget = n.startSpindle := by
      unfold Dev.applyTarget Dev.runSpindle
      rw [if_neg (by rw [target]; exact hv), state, if_pos off]
    rw [starts]
    refine ⟨fun on => ?_, fun on => ?_⟩
    · rw [n.startSpindle_of_enabled (enabled.trans on), Dev.spnState_enterMeasure]
    · rw [n.startSpindle_of_disabled (enabled.trans on)]
      exact ⟨state.trans off, rfl⟩
  · have stops : n.applyTarget = (((n.onSpn fun s => { s with held := false }).spnSwitchesOff.setSpn spnStopping).windingShort) := by
      unfold Dev.applyTarget Dev.stopSpindle
      simp only [target, hv, Dev.spnState_onSpn, state, if_true]
      simp only [List.mem_cons, List.not_mem_nil, or_false] at starting
      rcases starting with st | st | st | st <;> rw [st] <;> rfl
    rw [stops]
    exact ⟨Dev.spnState_setSpn _ _ (by decide), rfl⟩

theorem completes_spnEnWrite_false : Completes (.spnEnWrite false) s fun d => d.bit Fld.MOT_CTRL_SPN_EN = false ∧
    d.spnState = (if s.dev.spnState = spnOff then spnOff else spnCoast) ∧ ∀ q ∈ spindlePorts, d.outPort q = 0 := by
  set n := s.dev.putBit Fld.MOT_CTRL_SPN_EN false with hn
  have off : n.bit Fld.MOT_CTRL_SPN_EN = false := Dev.bit_putBit_self _ _ _
  have state : n.spnState = s.dev.spnState := Dev.fld_put_ne _ _ _ _ (by decide) (by decide)
  refine ⟨s.dev.spnEnable false, rfl, ?_⟩
  have known : s.dev.spnEnable false = if n.spnState = spnOff then n.spnSwitchesOff else n.spnCoasts := rfl
  rw [known, state]
  split
  · exact ⟨off, state.trans ‹_›, fun q hq => n.outPort_spnSwitchesOff hq⟩
  · refine ⟨(Dev.bit_setSpn _ _ _ (by decide)).trans off, Dev.spnState_setSpn _ _ (by decide), fun q hq => n.outPort_spnSwitchesOff hq⟩

theorem completes_spnEnWrite_true : Completes (.spnEnWrite true) s fun d => d.bit Fld.MOT_CTRL_SPN_EN = true ∧
    (s.dev.spnState = spnOff → s.dev.mot.spn.held = true → d.spnState = spnMeasure) ∧
    (s.dev.spnState = spnOff → s.dev.mot.spn.held = false → d.spnState = spnOff) := by
  set n := s.dev.putBit Fld.MOT_CTRL_SPN_EN true with hn
  have on : n.bit Fld.MOT_CTRL_SPN_EN = true := Dev.bit_putBit_self _ _ _
  have state : n.spnState = s.dev.spnState := Dev.fld_put_ne _ _ _ _ (by decide) (by decide)
  refine ⟨s.dev.spnEnable true, rfl, ?_⟩
  have known : s.dev.spnEnable true =
      if n.spnState = spnCoast then (if n.bit Fld.MOT_STATUS_OV2 then n else n.applyTarget) else n.heldStart := rfl
  have self : SpindleStands [] [Fld.MOT_STATUS_SPN_STATE] n n := .refl n
  have stands : SpindleStands [] [Fld.MOT_STATUS_SPN_STATE] n (s.dev.spnEnable true) := by
    rw [known]
    exact iteInduction (fun _ => iteInduction (fun _ => self) fun _ => self.applyTarget List.mem_cons_self) fun _ =>
      self.heldStart List.mem_cons_self
  have waits (off : s.dev.spnState = spnOff) : s.dev.spnEnable true = n.when s.dev.mot.spn.held Dev.enterMeasure := by
    rw [known, state, if_neg (by rw [off]; decide), Dev.heldStart, on, state, off, beq_self_eq_true, Bool.and_true, Bool.and_true]
    rfl
  refine ⟨(stands.fields.bit (by decide)).trans on, fun off held => ?_, fun off held => ?_⟩
  · rw [waits off, held, Dev.when_true, Dev.spnState_enterMeasure]
  · rw [waits off, held, Dev.when_false, state, off]

end


/-! ## The end of MEASURE (R215 to R217) -/

section
variable (d : Dev) (st rpm : Nat)

theorem Dev.spnState_startDone (h : st < 16) :
    (d.startDone st rpm).spnState = if d.fld Fld.SPN_TARGET_TARGET = 0 then spnStopping else st := by
  have counted (n : Dev) : (n.count (Adr.MOT_CNT 0)).spnState = n.spnState := Dev.fld_count (by decide)
  refine (counted _).trans (Dev.spnState_setSpn _ _ ?_)
  split
  · decide
  · exact h

theorem Dev.handoverNext_startDone : (d.startDone st rpm).mot.spn.handoverNext = true := rfl

theorem Dev.stands_startDone : SpindleStands [Adr.MOT_CNT 0] [Fld.MOT_STATUS_SPN_STATE] d (d.startDone st rpm) :=
  ((((SpindleStands.refl d).setSpn List.mem_cons_self _).setReg _ List.mem_cons_self).onSpn _).presetRamp _

theorem Dev.driveState_foc_or_step6 : d.driveState rpm = spnFoc ∨ d.driveState rpm = spnStep6 := by
  unfold Dev.driveState
  split
  · exact .inl rfl
  · exact .inr rfl

end

/-- The mean interval of recorded crossings, 0 where there are fewer than two. -/
def meanInterval (cr : List Crossing) : Nat :=
  if cr.length ≤ 1 then 0 else ((cr.getLast?.map (·.time)).getD 0 - (cr.head?.map (·.time)).getD 0) / (cr.length - 1)

/-- The crossings show a motion above STOP_RPM. -/
def Dev.seesMotion (d : Dev) (cr : List Crossing) : Bool :=
  let r := d.speedOfT60 (meanInterval cr)
  4 ≤ cr.length && meanInterval cr != 0 && d.fld Fld.SPN_LIMIT_STOP_RPM * r.2 < r.1

theorem Dev.seesMotion_iff (d : Dev) (cr : List Crossing) : d.seesMotion cr = true ↔ 4 ≤ cr.length ∧ meanInterval cr ≠ 0 ∧
    d.fld Fld.SPN_LIMIT_STOP_RPM * (d.speedOfT60 (meanInterval cr)).2 < (d.speedOfT60 (meanInterval cr)).1 := by
  simp only [Dev.seesMotion, Bool.and_eq_true, decide_eq_true_eq, bne_iff_ne, and_assoc]

/-- A motion forward is taken up by the program. -/
def Dev.takenUp (d : Dev) (cr : List Crossing) : Dev :=
  let r := d.speedOfT60 (meanInterval cr)
  let rpm := if r.2 = 0 then 0 else r.1 / r.2
  let d := d.onSpn fun s => { s with theta := crossedAngle cr, t60 := meanInterval cr, intervals := [meanInterval cr] }
  let d := d.measureSpeed 0 r.1 r.2 false
  ((d.startDone (d.driveState rpm) rpm).count (Adr.MOT_CNT 1)).spnEvent 0x58c

/-- A motion backward is braked. -/
def Dev.brakedBack (d : Dev) (cr : List Crossing) : Dev :=
  let r := d.speedOfT60 (meanInterval cr)
  let d := d.measureSpeed 0 r.1 r.2 true
  ((d.setSpn spnRevBrake).windingShort.count (Adr.MOT_CNT 2)).spnEvent 0x58d

/-- The end of MEASURE by what the crossings show. -/
def Dev.measured (d : Dev) (cr : List Crossing) : Dev :=
  if d.seesMotion cr && ordered (fun a b => b == nextPhase a) cr then d.takenUp cr
  else if d.seesMotion cr && ordered (fun a b => a == nextPhase b) cr then d.brakedBack cr
  else (d.when (cr.length < 4) Dev.atRest).setSpn spnProbe

section
variable {s : State} {cr : List Crossing}

theorem exec_measureEnd (h : s.dev.spnState = spnMeasure) : exec (.measureEnd cr) s = .next { s with dev := s.dev.measured cr } := by
  have row : exec (.measureEnd cr) s = execMeasureEnd cr s := rfl
  unfold execMeasureEnd at row
  rw [row, State.on_eq, if_neg (by rw [h]; decide)]
  rfl

theorem exec_measureEnd_of_other (h : s.dev.spnState ≠ spnMeasure) : exec (.measureEnd cr) s = .next s := by
  have row : exec (.measureEnd cr) s = execMeasureEnd cr s := rfl
  exact row.trans (State.on_of_eq_self (if_pos (bne_iff_ne.mpr h)))

theorem completes_measureEnd_forward (h : s.dev.spnState = spnMeasure) (fast : s.dev.seesMotion cr = true)
    (forward : ordered (fun a b => b == nextPhase a) cr = true) : Completes (.measureEnd cr) s fun d =>
      ((s.dev.fld Fld.SPN_TARGET_TARGET == 0) = false → d.spnState = spnFoc ∨ d.spnState = spnStep6) ∧
      ((s.dev.fld Fld.SPN_TARGET_TARGET == 0) = true → d.spnState = spnStopping) ∧ d.mot.spn.handoverNext = true ∧
      d.reg (Adr.MOT_CNT 1) = s.dev.counted (Adr.MOT_CNT 1) 1 := by
  refine ⟨_, exec_measureEnd h, ?_⟩
  have known : s.dev.measured cr = s.dev.takenUp cr := if_pos (by rw [fast, forward]; rfl)
  rw [known]
  unfold Dev.takenUp Dev.spnEvent
  extract_lets r rpm n m
  have measured : SpindleStands motorEventRegs speedFields n m := n.stands_measureSpeed _ _ _ _
  have target : m.fld Fld.SPN_TARGET_TARGET = s.dev.fld Fld.SPN_TARGET_TARGET := measured.fields _ (by decide)
  have counter : m.reg (Adr.MOT_CNT 1) = s.dev.reg (Adr.MOT_CNT 1) := measured.fields.reg (by decide)
  have drive := m.driveState_foc_or_step6 rpm
  have small : m.driveState rpm < 16 := by rcases drive with h | h <;> rw [h] <;> decide
  have state := m.spnState_startDone (m.driveState rpm) rpm small
  have done := m.stands_startDone (m.driveState rpm) rpm
  have handover := m.handoverNext_startDone (m.driveState rpm) rpm
  generalize m.startDone (m.driveState rpm) rpm = x at state done handover
  have shown (c : Nat) (w : Word) : ((x.count (Adr.MOT_CNT 1)).motorEvent c w).spnState = x.spnState :=
    (Dev.fld_motorEvent _ _ _ (by decide)).trans (Dev.fld_count (by decide))
  refine ⟨fun goes => ?_, fun stops => ?_, ?_, ?_⟩
  · rw [shown, state, target, if_neg (beq_eq_false_iff_ne.mp goes)]
    exact drive
  · rw [shown, state, target, if_pos (beq_iff_eq.mp stops)]
  · rw [Dev.motorEvent_mot]
    exact handover
  · rw [Dev.reg_motorEvent _ _ _ (by decide)]
    exact Dev.reg_count_counted ((done.fields.reg (by decide)).trans counter)

theorem completes_measureEnd_backward (h : s.dev.spnState = spnMeasure) (fast : s.dev.seesMotion cr = true)
    (forward : ordered (fun a b => b == nextPhase a) cr = false) (backward : ordered (fun a b => a == nextPhase b) cr = true) :
    Completes (.measureEnd cr) s fun d => d.spnState = spnRevBrake ∧ d.mot.spn.short = true ∧
      d.reg (Adr.MOT_CNT 2) = s.dev.counted (Adr.MOT_CNT 2) 1 := by
  refine ⟨_, exec_measureEnd h, ?_⟩
  have known : s.dev.measured cr = s.dev.brakedBack cr :=
    (if_neg (by rw [fast, forward]; decide)).trans (if_pos (by rw [fast, backward]; rfl))
  rw [known]
  unfold Dev.brakedBack Dev.spnEvent
  extract_lets r m
  have measured : SpindleStands motorEventRegs speedFields s.dev m := s.dev.stands_measureSpeed _ _ _ _
  have counter : m.reg (Adr.MOT_CNT 2) = s.dev.reg (Adr.MOT_CNT 2) := measured.fields.reg (by decide)
  refine ⟨?_, ?_, ?_⟩
  · refine (Dev.fld_motorEvent _ _ _ (by decide)).trans ((Dev.fld_count (by decide)).trans ?_)
    exact Dev.spnState_setSpn _ _ (by decide)
  · rw [Dev.motorEvent_mot]
    rfl
  · rw [Dev.reg_motorEvent _ _ _ (by decide)]
    exact Dev.reg_count_counted ((Dev.reg_setSpn m _ _ (by decide)).trans counter)

theorem completes_measureEnd_slow (h : s.dev.spnState = spnMeasure) (slow : ¬s.dev.seesMotion cr = true) : Completes (.measureEnd cr) s fun d =>
    d.spnState = spnProbe := by
  refine ⟨_, exec_measureEnd h, ?_⟩
  have known : s.dev.measured cr = (s.dev.when (cr.length < 4) Dev.atRest).setSpn spnProbe := by
    unfold Dev.measured
    rw [Bool.eq_false_iff.mpr slow]
    rfl
  rw [known]
  exact Dev.spnState_setSpn _ _ (by decide)

end


/-! ## Braking, probe and kick (R217 to R219, R481) -/

section
variable (d : Dev)

theorem Dev.spnState_startSpindle_of_off (h : d.spnState = spnOff) : d.startSpindle.spnState = spnOff ∨ d.startSpindle.spnState = spnMeasure := by
  unfold Dev.startSpindle
  split
  · exact .inr d.spnState_enterMeasure
  · exact .inl h

/-- A failed start: START_FAIL, and the spindle is off, or in MEASURE by the firmware's further start. -/
theorem Dev.startFail_spec : d.startFail.bit Fld.MOT_STATUS_START_FAIL = true ∧
    (d.startFail.spnState = spnOff ∨ d.startFail.spnState = spnMeasure) := by
  unfold Dev.startFail
  extract_lets n
  have shown : n.bit Fld.MOT_STATUS_START_FAIL = true :=
    (Dev.bit_setSpn _ _ _ (by decide)).trans ((Dev.bit_motorEvent _ _ _ (by decide)).trans (Dev.bit_putBit_self _ _ _))
  have off : n.spnState = spnOff := Dev.spnState_setSpn _ _ (by decide)
  have further (m : Dev) (c : Bool) (shown : m.bit Fld.MOT_STATUS_START_FAIL = true) (off : m.spnState = spnOff) :
      (m.when c Dev.startSpindle).bit Fld.MOT_STATUS_START_FAIL = true ∧
        ((m.when c Dev.startSpindle).spnState = spnOff ∨ (m.when c Dev.startSpindle).spnState = spnMeasure) := by
    have starts : SpindleStands [] [Fld.MOT_STATUS_SPN_STATE] m m.startSpindle := (SpindleStands.refl m).startSpindle List.mem_cons_self
    cases c with
    | true => exact ⟨(starts.fields.bit (by decide)).trans shown, m.spnState_startSpindle_of_off off⟩
    | false => exact ⟨shown, .inl off⟩
  split
  · exact ⟨shown, .inl off⟩
  · exact further (n.onSpn fun s => { s with further := true }) _ shown off

theorem Dev.spnState_enterProbe : d.enterProbe.spnState = spnProbe := Dev.spnState_setSpn _ _ (by decide)

theorem Dev.enterKick_spec (degrees : Nat) (h : degrees < 2 ^ Fld.SPN_PROBE_ANGLE.width) : (d.enterKick degrees).spnState = spnKick ∧
    (d.enterKick degrees).mot.spn.kicks = d.mot.spn.kicks + 1 ∧ (d.enterKick degrees).fld Fld.SPN_PROBE_ANGLE = degrees := by
  unfold Dev.enterKick
  rw [Dev.spnState_onSpn, Dev.fld_onSpn, Dev.onSpn_spn, Dev.spnState_setSpn _ _ (by decide), Dev.fld_setSpn _ _ _ (by decide),
    Dev.fld_put_self _ _ _ (by decide), Nat.mod_eq_of_lt h]
  exact ⟨rfl, rfl, rfl⟩

end

section
variable {s : State}

theorem exec_revBrake_of_other (h : s.dev.spnState ≠ spnRevBrake) :
    exec .revBrakeQuiet s = .next s ∧ exec .revBrakeTimeout s = .next s := by
  have quiet : exec .revBrakeQuiet s = s.on fun d => if d.spnState = spnRevBrake then d.enterProbe else d := rfl
  have timeout : exec .revBrakeTimeout s = s.on fun d => if d.spnState = spnRevBrake then d.startFail else d := rfl
  exact ⟨quiet.trans (State.on_of_eq_self (if_neg h)), timeout.trans (State.on_of_eq_self (if_neg h))⟩

theorem completes_revBrakeQuiet (h : s.dev.spnState = spnRevBrake) : Completes .revBrakeQuiet s fun d =>
    d.spnState = spnProbe ∧ d.mot.spn.short = false := by
  refine ⟨if s.dev.spnState = spnRevBrake then s.dev.enterProbe else s.dev, rfl, ?_⟩
  rw [if_pos h]
  exact ⟨Dev.spnState_enterProbe _, rfl⟩

theorem completes_revBrakeTimeout (h : s.dev.spnState = spnRevBrake) : Completes .revBrakeTimeout s fun d =>
    d.bit Fld.MOT_STATUS_START_FAIL = true ∧ (d.spnState = spnOff ∨ d.spnState = spnMeasure) := by
  refine ⟨if s.dev.spnState = spnRevBrake then s.dev.startFail else s.dev, rfl, ?_⟩
  rw [if_pos h]
  exact s.dev.startFail_spec

variable {cur : List Nat}

theorem exec_probeDone_of_other (h : s.dev.spnState ≠ spnProbe ∨ s.dev.mot.spn.zeroVector = true) : exec (.probeDone cur) s = .next s := by
  have row : exec (.probeDone cur) s = execProbeDone cur s := rfl
  refine row.trans (State.on_of_eq_self (if_pos ?_))
  rcases h with h | h
  · rw [bne_iff_ne.mpr h, Bool.true_or]
  · rw [h, Bool.or_true]

/-- What a probe shows: its greatest difference and its pulses. -/
def Dev.probeShown (d : Dev) (cur : List Nat) : Dev :=
  (d.put Fld.SPN_PROBE_DIFF (min 4095 (greatestAt (probeDiffs cur)).2.natAbs)).put Fld.SPN_PROBE_PULSES (min 15 cur.length)

/-- The rotor angle that a probe finds. -/
def probeAngle (cur : List Nat) : Nat :=
  let g := greatestAt (probeDiffs cur)
  ((if 0 < g.2 then 60 * g.1 else 60 * g.1 + 180) + (if cur[7]?.getD 0 < cur[6]?.getD 0 then 15 else 345)) % 360

/-- The end of a probe by its greatest difference. -/
def Dev.probed (d : Dev) (cur : List Nat) : Dev :=
  let n := d.probeShown cur
  if (greatestAt (probeDiffs cur)).2.natAbs < n.fld Fld.SPN_START_CFG2_PROBE_MIN then
    if n.mot.spn.doubled then n.onSpn fun s => { s with zeroVector := true } else n.onSpn fun s => { s with doubled := true }
  else n.enterKick (probeAngle cur)

theorem Dev.fld_probeShown (d : Dev) (f : Field) (h : f.adr ≠ Adr.SPN_PROBE) : (d.probeShown cur).fld f = d.fld f :=
  (Dev.fld_put_ne _ _ _ _ (by decide) (.inl h)).trans (Dev.fld_put_ne _ _ _ _ (by decide) (.inl h))

theorem exec_probeDone (h : s.dev.spnState = spnProbe) (probing : s.dev.mot.spn.zeroVector = false) :
    exec (.probeDone cur) s = .next { s with dev := s.dev.probed cur } := by
  have row : exec (.probeDone cur) s = execProbeDone cur s := rfl
  unfold execProbeDone at row
  rw [row, State.on_eq, if_neg (by rw [h, probing]; decide)]
  rfl

theorem completes_probeDone_found (h : s.dev.spnState = spnProbe) (probing : s.dev.mot.spn.zeroVector = false)
    (found : s.dev.fld Fld.SPN_START_CFG2_PROBE_MIN ≤ (greatestAt (probeDiffs cur)).2.natAbs) : Completes (.probeDone cur) s fun d =>
      d.spnState = spnKick ∧ d.mot.spn.kicks = s.dev.mot.spn.kicks + 1 ∧ d.fld Fld.SPN_PROBE_ANGLE = probeAngle cur := by
  refine ⟨_, exec_probeDone h probing, ?_⟩
  have kicks : s.dev.probed cur = (s.dev.probeShown cur).enterKick (probeAngle cur) :=
    if_neg (by rw [Dev.fld_probeShown _ _ (by decide)]; exact Nat.not_lt.mpr found)
  rw [kicks]
  exact Dev.enterKick_spec _ _ (lt_of_lt_of_le (Nat.mod_lt _ (by decide)) (by decide))

theorem completes_probeDone_unclear (h : s.dev.spnState = spnProbe) (probing : s.dev.mot.spn.zeroVector = false)
    (unclear : (greatestAt (probeDiffs cur)).2.natAbs < s.dev.fld Fld.SPN_START_CFG2_PROBE_MIN) : Completes (.probeDone cur) s fun d =>
      d.spnState = spnProbe ∧ (s.dev.mot.spn.doubled = false → d.mot.spn.doubled = true ∧ d.mot.spn.zeroVector = false) ∧
      (s.dev.mot.spn.doubled = true → d.mot.spn.zeroVector = true) := by
  refine ⟨_, exec_probeDone h probing, ?_⟩
  have again : s.dev.probed cur = if s.dev.mot.spn.doubled then (s.dev.probeShown cur).onSpn fun s => { s with zeroVector := true }
      else (s.dev.probeShown cur).onSpn fun s => { s with doubled := true } :=
    if_pos (by rw [Dev.fld_probeShown _ _ (by decide)]; exact unclear)
  have state : (s.dev.probeShown cur).spnState = spnProbe := (Dev.fld_probeShown _ _ (by decide)).trans h
  rw [again]
  cases hd : s.dev.mot.spn.doubled with
  | true => exact ⟨state, fun h => (by cases h), fun _ => rfl⟩
  | false => exact ⟨state, fun _ => ⟨rfl, probing⟩, fun h => (by cases h)⟩

theorem exec_zeroDegreeVectorEnd : exec .zeroDegreeVectorEnd s =
    s.on fun d => if d.spnState = spnProbe && d.mot.spn.zeroVector then d.enterKick 0 else d := rfl

theorem completes_zeroDegreeVectorEnd (h : s.dev.spnState = spnProbe) (driven : s.dev.mot.spn.zeroVector = true) :
    Completes .zeroDegreeVectorEnd s fun d =>
      d.spnState = spnKick ∧ d.fld Fld.SPN_PROBE_ANGLE = 0 ∧ d.mot.spn.kicks = s.dev.mot.spn.kicks + 1 := by
  refine ⟨s.dev.enterKick 0, ?_, ?_⟩
  · rw [exec_zeroDegreeVectorEnd, State.on_eq, if_pos (by rw [h, driven]; rfl)]
  · obtain ⟨state, kicks, angle⟩ := s.dev.enterKick_spec 0 (by decide)
    exact ⟨state, angle, kicks⟩

theorem exec_zeroDegreeVectorEnd_of_other (h : s.dev.spnState ≠ spnProbe ∨ s.dev.mot.spn.zeroVector = false) :
    exec .zeroDegreeVectorEnd s = .next s := by
  refine exec_zeroDegreeVectorEnd.trans (State.on_of_eq_self (if_neg ?_))
  rw [Bool.and_eq_true, decide_eq_true_eq, not_and_or, Bool.not_eq_true]
  exact h

theorem exec_kickTimeout : exec .kickTimeout s = s.on fun d =>
    if d.spnState != spnKick then d
    else if d.fld Fld.SPN_START_CFG_KICKS ≤ d.mot.spn.kicks then d.startFail else d.enterProbe := rfl

theorem completes_kickTimeout (h : s.dev.spnState = spnKick) : Completes .kickTimeout s fun d =>
    (s.dev.mot.spn.kicks < s.dev.fld Fld.SPN_START_CFG_KICKS → d.spnState = spnProbe) ∧
    (s.dev.fld Fld.SPN_START_CFG_KICKS ≤ s.dev.mot.spn.kicks → d.bit Fld.MOT_STATUS_START_FAIL = true) := by
  refine ⟨if s.dev.fld Fld.SPN_START_CFG_KICKS ≤ s.dev.mot.spn.kicks then s.dev.startFail else s.dev.enterProbe, ?_, fun few => ?_, fun all => ?_⟩
  · rw [exec_kickTimeout, State.on_eq, if_neg (by rw [h]; decide)]
  · rw [if_neg (Nat.not_le.mpr few), Dev.spnState_enterProbe]
  · rw [if_pos all]
    exact s.dev.startFail_spec.1

theorem exec_kickTimeout_of_other (h : s.dev.spnState ≠ spnKick) : exec .kickTimeout s = .next s :=
  exec_kickTimeout.trans (State.on_of_eq_self (if_pos (bne_iff_ne.mpr h)))

end


/-! ## Crossings (R219 to R223) -/

section
variable (d : Dev)

/-- Synchronisation that is lost shows, is counted, and MEASURE follows. -/
theorem Dev.syncLost_spec : d.syncLost.bit Fld.MOT_STATUS_SYNC_LOST = true ∧ d.syncLost.spnState = spnMeasure ∧
    d.syncLost.reg (Adr.MOT_CNT 6) = d.counted (Adr.MOT_CNT 6) 1 := by
  set n := (d.putBit Fld.MOT_STATUS_SYNC_LOST true).count (Adr.MOT_CNT 6) with hn
  have known : d.syncLost = (n.spnEvent 0x584).enterMeasure := rfl
  have stands : SpindleStands [] [Fld.MOT_STATUS_SPN_STATE] (n.spnEvent 0x584) d.syncLost := by
    rw [known]
    exact (SpindleStands.refl _).enterMeasure List.mem_cons_self
  refine ⟨?_, ?_, ?_⟩
  · refine (stands.fields.bit (by decide)).trans ((Dev.bit_motorEvent _ _ _ (by decide)).trans ?_)
    exact (Dev.bit_of_fld_eq (Dev.fld_count (by decide))).trans (Dev.bit_putBit_self _ _ _)
  · rw [known]
    exact Dev.spnState_enterMeasure _
  · refine (stands.fields.reg (by decide)).trans ((Dev.reg_motorEvent _ _ _ (by decide)).trans ?_)
    exact Dev.reg_count_counted (Dev.reg_put_ne _ _ _ (by decide))

/-- The check for STOP_RPM leaves a spindle that is not STOPPING. -/
theorem Dev.stopCheck_of_other (h : d.spnState ≠ spnStopping) : d.stopCheck = d := by
  unfold Dev.stopCheck
  rw [beq_eq_false_iff_ne.mpr h]
  rfl

/-- The check for STOP_RPM leaves the counts of crossings and the sector. -/
theorem Dev.stopCheck_spn : d.stopCheck.mot.spn.missed = d.mot.spn.missed ∧ d.stopCheck.mot.spn.wrong = d.mot.spn.wrong ∧
    d.stopCheck.mot.spn.sector = d.mot.spn.sector := by
  unfold Dev.stopCheck Dev.when
  split <;> exact ⟨rfl, rfl, rfl⟩

variable (z : ZeroCross)

/-- A qualified crossing clears the counts of missed windows and wrong crossings; in STEP6 it sets the next commutation. -/
theorem Dev.qualified_spec : let n := d.qualified z
    n.spnState = d.spnState ∧ n.mot.spn.missed = 0 ∧ n.mot.spn.wrong = 0 ∧ n.mot.spn.sector = d.mot.spn.sector ∧
    (d.spnState = spnStep6 → n.mot.spn.commute =
      some (meanOf ((z.interval :: d.mot.spn.intervals).take (6 * d.fld Fld.SPN_CFG_POLE_PAIRS)) / 2)) := by
  unfold Dev.qualified
  extract_lets keep l next m r
  have state : (m.measureSpeed 0 r.1 r.2 false).spnState = m.spnState := (m.stands_measureSpeed _ _ _ _).fields _ (by decide)
  have spn : SameButSpeed m (m.measureSpeed 0 r.1 r.2 false) := m.sameButSpeed_measureSpeed _ _ _ _
  unfold SameButSpeed at spn
  rw [spn]
  exact ⟨state, rfl, rfl, rfl, fun step6 => if_pos step6⟩

/-- The first good crossing of a kick. -/
def Dev.kickSynced : Dev :=
  let r := d.speedOfT60 z.interval
  let d := d.onSpn fun s => { s with intervals := [z.interval], t60 := z.interval, theta := correctedAngle s.theta z }
  let d := (d.measureSpeed 0 r.1 r.2 false).startDone spnStep6 (r.1 / r.2)
  d.onSpn fun s => { s with sector := kickState (d.fld Fld.SPN_PROBE_ANGLE), commute := some (z.interval / 2) }

theorem Dev.kickSynced_spec : (d.kickSynced z).spnState = (if d.fld Fld.SPN_TARGET_TARGET = 0 then spnStopping else spnStep6) ∧
    (d.kickSynced z).mot.spn.handoverNext = true := by
  unfold Dev.kickSynced
  extract_lets r m n
  have target : (m.measureSpeed 0 r.1 r.2 false).fld Fld.SPN_TARGET_TARGET = m.fld Fld.SPN_TARGET_TARGET :=
    (m.stands_measureSpeed _ _ _ _).fields _ (by decide)
  rw [Dev.spnState_onSpn, Dev.onSpn_spn]
  refine ⟨(Dev.spnState_startDone _ _ _ (by decide)).trans ?_, (m.measureSpeed 0 r.1 r.2 false).handoverNext_startDone spnStep6 (r.1 / r.2)⟩
  rw [target]
  rfl

end

/-- A crossing of wrong polarity: the second in a row costs synchronisation (R223). -/
def Dev.wrongCrossing (d : Dev) : Dev := (d.onSpn fun s => { s with wrong := s.wrong + 1 }).when (2 ≤ d.mot.spn.wrong + 1) Dev.syncLost

/-- A missed window: the sixth in a row costs synchronisation (R223). -/
def Dev.windowMissed (d : Dev) : Dev :=
  (d.onSpn fun s => { s with missed := s.missed + 1, floated := 0 }).when (6 ≤ d.mot.spn.missed + 1) Dev.syncLost

section
variable {s : State} {z : ZeroCross}

/-- A crossing while the program governs. -/
theorem exec_zeroCrossing_of_governs (h : s.dev.programGoverns = true) : exec (.zeroCrossing z) s = s.on fun d =>
    if !z.inWindow || d.blanked z then d
    else if z.polarity then (d.qualified z).stopCheck else d.wrongCrossing := by
  have row : exec (.zeroCrossing z) s = execZeroCrossing z s := rfl
  unfold execZeroCrossing at row
  rw [row, State.on_eq, State.on_eq]
  exact congrArg (fun n => Host.Outcome.next { s with dev := n }) (if_pos h)

theorem exec_zeroCrossing_of_unqualified (h : s.dev.programGoverns = true) (out : z.inWindow = false ∨ s.dev.blanked z = true) :
    exec (.zeroCrossing z) s = .next s := by
  refine (exec_zeroCrossing_of_governs h).trans (State.on_of_eq_self (if_pos ?_))
  rcases out with out | out
  · rw [out]; rfl
  · rw [out, Bool.or_true]

theorem completes_zeroCrossing_good (h : s.dev.programGoverns = true) (window : z.inWindow = true) (free : s.dev.blanked z = false)
    (good : z.polarity = true) : Completes (.zeroCrossing z) s fun d =>
      d.mot.spn.missed = 0 ∧ d.mot.spn.wrong = 0 ∧ d.mot.spn.sector = s.dev.mot.spn.sector ∧
      (s.dev.spnState = spnStep6 → d.mot.spn.commute =
        some (meanOf ((z.interval :: s.dev.mot.spn.intervals).take (6 * s.dev.fld Fld.SPN_CFG_POLE_PAIRS)) / 2)) := by
  refine ⟨(s.dev.qualified z).stopCheck, ?_, ?_⟩
  · rw [exec_zeroCrossing_of_governs h, State.on_eq, window, free, good]
    rfl
  · obtain ⟨state, missed, wrong, sector, commute⟩ := s.dev.qualified_spec z
    obtain ⟨missed', wrong', sector'⟩ := (s.dev.qualified z).stopCheck_spn
    refine ⟨missed'.trans missed, wrong'.trans wrong, sector'.trans sector, fun step6 => ?_⟩
    rw [Dev.stopCheck_of_other _ (by rw [state, step6]; decide)]
    exact commute step6

/-- A crossing of wrong polarity, the first or a further one in a row. -/
theorem exec_zeroCrossing_wrong (h : s.dev.programGoverns = true) (window : z.inWindow = true) (free : s.dev.blanked z = false)
    (bad : z.polarity = false) : exec (.zeroCrossing z) s = .next { s with dev := s.dev.wrongCrossing } := by
  rw [exec_zeroCrossing_of_governs h, State.on_eq, window, free, bad]
  rfl

/-- The block after synchronisation is lost. -/
def SyncLost (d d' : Dev) : Prop :=
  d'.bit Fld.MOT_STATUS_SYNC_LOST = true ∧ d'.spnState = spnMeasure ∧ d'.reg (Adr.MOT_CNT 6) = d.counted (Adr.MOT_CNT 6) 1

theorem completes_zeroCrossing_wrong (h : s.dev.programGoverns = true) (window : z.inWindow = true) (free : s.dev.blanked z = false)
    (bad : z.polarity = false) :
    (s.dev.mot.spn.wrong = 0 → Completes (.zeroCrossing z) s fun d => d.mot.spn.wrong = 1 ∧ d.spnState = s.dev.spnState) ∧
    (1 ≤ s.dev.mot.spn.wrong → Completes (.zeroCrossing z) s (SyncLost s.dev)) := by
  have row := exec_zeroCrossing_wrong h window free bad
  refine ⟨fun first => ⟨_, row, ?_⟩, fun further => ⟨_, row, ?_⟩⟩
  · unfold Dev.wrongCrossing
    rw [decide_eq_false (by omega)]
    exact ⟨congrArg (· + 1) first, rfl⟩
  · unfold Dev.wrongCrossing
    rw [decide_eq_true (Nat.succ_le_succ further)]
    exact Dev.syncLost_spec _

theorem completes_zeroCrossing_kick (h : s.dev.spnState = spnKick) (window : z.inWindow = true) (good : z.polarity = true)
    (timed : z.interval ≠ 0) : Completes (.zeroCrossing z) s fun d =>
      d.spnState = (if s.dev.fld Fld.SPN_TARGET_TARGET == 0 then spnStopping else spnStep6) ∧ d.mot.spn.handoverNext = true := by
  refine ⟨s.dev.kickSynced z, ?_, ?_⟩
  · have row : exec (.zeroCrossing z) s = execZeroCrossing z s := rfl
    have idle : s.dev.programGoverns = false := by unfold Dev.programGoverns; rw [h]; rfl
    have goes : (z.inWindow && z.polarity && z.interval != 0) = true := by rw [window, good, bne_iff_ne.mpr timed]; rfl
    unfold execZeroCrossing at row
    rw [row, State.on_eq]
    exact congrArg (fun n => Host.Outcome.next { s with dev := n })
      ((if_neg (Bool.eq_false_iff.mp idle)).trans ((if_pos h).trans (if_pos goes)))
  · obtain ⟨state, handover⟩ := s.dev.kickSynced_spec z
    refine ⟨state.trans ?_, handover⟩
    simp only [beq_iff_eq]

/-! ## Missed windows, and rest (R221, R223, R226) -/

theorem exec_zcWindowClose : exec .zcWindowClose s = s.on fun d => if !d.programGoverns then d else d.windowMissed := rfl

theorem exec_zcWindowClose_of_idle (h : s.dev.programGoverns = false) : exec .zcWindowClose s = .next s :=
  exec_zcWindowClose.trans (State.on_of_eq_self (if_pos (by rw [h]; rfl)))

theorem exec_zcWindowClose_of_governs (h : s.dev.programGoverns = true) : exec .zcWindowClose s = .next { s with dev := s.dev.windowMissed } := by
  rw [exec_zcWindowClose, State.on_eq, if_neg (by rw [h]; decide)]

theorem completes_zcWindowClose_few (h : s.dev.programGoverns = true) (few : s.dev.mot.spn.missed < 5) : Completes .zcWindowClose s fun d =>
    d.mot.spn.missed = s.dev.mot.spn.missed + 1 ∧ d = { s.dev with mot := d.mot } := by
  refine ⟨_, exec_zcWindowClose_of_governs h, ?_⟩
  unfold Dev.windowMissed
  rw [decide_eq_false (by omega)]
  exact ⟨rfl, rfl⟩

theorem completes_zcWindowClose_sixth (h : s.dev.programGoverns = true) (sixth : 5 ≤ s.dev.mot.spn.missed) :
    Completes .zcWindowClose s (SyncLost s.dev) := by
  refine ⟨_, exec_zcWindowClose_of_governs h, ?_⟩
  unfold Dev.windowMissed
  rw [decide_eq_true (Nat.succ_le_succ sixth)]
  exact Dev.syncLost_spec _

end

section
variable (d : Dev)

/-- A spindle that comes to rest is off, or begins a held start whose stage is enabled. -/
theorem Dev.spnState_enterOff : d.enterOff.spnState = if d.mot.spn.held = true ∧ d.bit Fld.MOT_CTRL_SPN_EN = true then spnMeasure else spnOff := by
  have off : (d.spnSwitchesOff.setSpn spnOff).spnState = spnOff := Dev.spnState_setSpn _ _ (by decide)
  have enabled : (d.spnSwitchesOff.setSpn spnOff).bit Fld.MOT_CTRL_SPN_EN = d.bit Fld.MOT_CTRL_SPN_EN := Dev.bit_setSpn _ _ _ (by decide)
  have held : (d.spnSwitchesOff.setSpn spnOff).mot.spn.held = d.mot.spn.held := rfl
  unfold Dev.enterOff Dev.heldStart Dev.when
  rw [off, enabled, held, beq_self_eq_true, Bool.and_true]
  simp only [Bool.and_eq_true]
  split
  · exact Dev.spnState_enterMeasure _
  · exact off

/-- The stage that the firmware disables leaves the spindle's state and its speed. -/
theorem Dev.stageOff_spec : d.stageOff.spnState = d.spnState ∧ d.stageOff.fld Fld.SPN_SPEED_RPM = d.fld Fld.SPN_SPEED_RPM := by
  unfold Dev.stageOff
  cases hc : (decide (3 ≤ d.fld Fld.HQ_STATUS_PS) && d.spnState == spnOff) with
  | false => exact ⟨rfl, rfl⟩
  | true =>
    obtain ⟨_, off⟩ := (Bool.and_eq_true _ _).mp hc
    have state : (d.putBit Fld.MOT_CTRL_SPN_EN false).spnState = d.spnState := Dev.fld_put_ne _ _ _ _ (by decide) (by decide)
    have disabled : d.spnEnable false = (d.putBit Fld.MOT_CTRL_SPN_EN false).spnSwitchesOff := if_pos (state.trans (beq_iff_eq.mp off))
    rw [Dev.when_true, disabled]
    exact ⟨state, Dev.fld_put_ne _ _ _ _ (by decide) (by decide)⟩

end

section
variable {s : State}

theorem exec_shortQuietTimeout : exec .shortQuietTimeout s =
    s.on fun d => if d.spnState = spnStopping && d.mot.spn.short then d.atRest.enterOff.stageOff else d := rfl

theorem completes_shortQuietTimeout (h : s.dev.spnState = spnStopping) (short : s.dev.mot.spn.short = true) :
    Completes .shortQuietTimeout s fun d => d.fld Fld.SPN_SPEED_RPM = 0 ∧
      d.spnState = (if s.dev.mot.spn.held = true ∧ s.dev.bit Fld.MOT_CTRL_SPN_EN = true then spnMeasure else spnOff) := by
  refine ⟨s.dev.atRest.enterOff.stageOff, ?_, ?_⟩
  · rw [exec_shortQuietTimeout, State.on_eq, if_pos (by rw [h, short]; rfl)]
  have enabled : s.dev.atRest.bit Fld.MOT_CTRL_SPN_EN = s.dev.bit Fld.MOT_CTRL_SPN_EN :=
    (Dev.bit_putBit_ne _ _ _ _ (by decide)).trans (Dev.bit_put_ne _ _ _ _ (by decide))
  have rest : s.dev.atRest.fld Fld.SPN_SPEED_RPM = 0 :=
    (Dev.fld_put_ne _ _ _ _ (by decide) (by decide)).trans (Dev.fld_put_self _ _ _ (by decide))
  have stands : SpindleStands [] [Fld.MOT_STATUS_SPN_STATE] s.dev.atRest s.dev.atRest.enterOff :=
    (SpindleStands.refl _).enterOff List.mem_cons_self
  obtain ⟨state, speed⟩ := s.dev.atRest.enterOff.stageOff_spec
  refine ⟨speed.trans ((stands.fields _ (by decide)).trans rest), state.trans ?_⟩
  rw [Dev.spnState_enterOff, enabled]
  rfl

theorem exec_shortQuietTimeout_of_other (h : s.dev.spnState ≠ spnStopping ∨ s.dev.mot.spn.short = false) :
    exec .shortQuietTimeout s = .next s := by
  refine exec_shortQuietTimeout.trans (State.on_of_eq_self (if_neg ?_))
  rw [Bool.and_eq_true, decide_eq_true_eq, not_and_or, Bool.not_eq_true]
  exact h

end

/-- Settles O43: each command by the branch of its state, the speeds measured on the way by what a measurement leaves. -/
theorem spindleStartsAndStops : Obligations.SpindleStartsAndStops := by
  intro s v cr z cur
  have motion := s.dev.seesMotion_iff cr
  exact ⟨completes_spnTargetWrite_of_above, completes_spnTargetWrite, completes_spnEnWrite_false, completes_spnEnWrite_true,
    exec_measureEnd_of_other, fun h fast => completes_measureEnd_forward h (motion.mpr fast),
    fun h fast => completes_measureEnd_backward h (motion.mpr fast), fun h slow => completes_measureEnd_slow h (slow ∘ motion.mp),
    exec_revBrake_of_other, fun h => ⟨completes_revBrakeQuiet h, completes_revBrakeTimeout h⟩, exec_probeDone_of_other,
    fun h probing => ⟨completes_probeDone_found h probing, completes_probeDone_unclear h probing⟩, completes_zeroDegreeVectorEnd,
    exec_zeroDegreeVectorEnd_of_other, exec_kickTimeout_of_other, completes_kickTimeout, exec_zeroCrossing_of_unqualified,
    completes_zeroCrossing_good, completes_zeroCrossing_wrong, completes_zeroCrossing_kick, exec_zcWindowClose_of_idle,
    completes_zcWindowClose_few, completes_zcWindowClose_sixth, completes_shortQuietTimeout, exec_shortQuietTimeout_of_other⟩

end Sys2Proof.Machine

/-! PROOFS. What the operations on the sleds and the profiler leave, and the trips of the motor supply (O44). -/

namespace Sys2Proof.Machine

/-! ## Sleds and profiler channels among the block's parts -/

section
variable (d : Dev) (h c : Nat)

@[simp] theorem Dev.prf_setPrf_self (x : PrfSt) : (d.setPrf c x).prf c = x := Tab.get_set_self _ _ _

theorem Dev.prf_setPrf_ne {c' : Nat} (x : PrfSt) (hc : c' ≠ c) : (d.setPrf c x).prf c' = d.prf c' := Tab.get_set_ne _ _ hc

@[simp] theorem Dev.sled_onSled_self (g : SledSt → SledSt) : (d.onSled h g).sled h = g (d.sled h) := Tab.get_set_self _ _ _

@[simp] theorem Dev.prf_onSled (g : SledSt → SledSt) : (d.onSled h g).prf c = d.prf c := rfl

@[simp] theorem Dev.sled_setPrf (x : PrfSt) : (d.setPrf c x).sled h = d.sled h := rfl

@[simp] theorem Dev.prf_motorEvent (code : Nat) (v : Word) : (d.motorEvent code v).prf c = d.prf c := by
  unfold Dev.prf
  rw [Dev.motorEvent_mot]

@[simp] theorem Dev.sled_motorEvent (code : Nat) (v : Word) : (d.motorEvent code v).sled h = d.sled h := by
  unfold Dev.sled
  rw [Dev.motorEvent_mot]

end

section
variable {d d' : Dev} {as : List Nat} {fs : List Field}

theorem SameFields.setPrf (h : SameFields d d' as fs) (c : Nat) (x : PrfSt) : SameFields d (d'.setPrf c x) as fs := h.trans (.of_regs_eq rfl)

theorem SameFields.onSled (h : SameFields d d' as fs) (n : Nat) (g : SledSt → SledSt) : SameFields d (d'.onSled n g) as fs :=
  h.trans (.of_regs_eq rfl)

end

/-! ## What commands of a sled leave (R236, R242, R245) -/

/-- The fields of SLD_STATUS that a sled's motion and its refused commands change. -/
def sledFields (h : Nat) : List Field :=
  [Fld.SLD_STATUS_MODE h, Fld.SLD_STATUS_BUSY h, Fld.SLD_STATUS_CMD_REFUSED h, Fld.SLD_STATUS_VLIM_REFUSED h]

/-- The registers beside it that they write. -/
def sledRegs (h : Nat) : List Nat := Adr.PRF_STATUS h :: motorEventRegs

/-- What a command of a sled leaves: fields but those of its status, of its channel's and of events; the Arc engines with their ports; and every
other channel. -/
structure SledStands (h : Nat) (d d' : Dev) : Prop where
  fields : SameFields d d' (sledRegs h) (sledFields h)
  arc : d'.arc = d.arc
  prf : ∀ c ≠ h, d'.prf c = d.prf c

namespace SledStands

variable {h : Nat} {d d' : Dev}

theorem refl (d : Dev) : SledStands h d d := ⟨.refl _ _ _, rfl, fun _ _ => rfl⟩

theorem trans {d'' : Dev} (s : SledStands h d d') (s' : SledStands h d' d'') : SledStands h d d'' :=
  ⟨s.fields.trans s'.fields, s'.arc.trans s.arc, fun c hc => (s'.prf c hc).trans (s.prf c hc)⟩

theorem put (s : SledStands h d d') {f : Field} (v : Nat) (hf : f ∈ sledFields h)
    (hw : f.lo + f.width ≤ 32 := by exact Nat.le_of_ble_eq_true rfl) : SledStands h d (d'.put f v) :=
  { s with fields := s.fields.put v hf hw }

theorem putBit (s : SledStands h d d') {f : Field} (b : Bool) (hf : f ∈ sledFields h)
    (hw : f.lo + f.width ≤ 32 := by exact Nat.le_of_ble_eq_true rfl) : SledStands h d (d'.putBit f b) := s.put _ hf hw

theorem channelStatus (s : SledStands h d d') (v : Word) : SledStands h d (d'.setReg (Adr.PRF_STATUS h) v) :=
  { s with fields := s.fields.setReg v List.mem_cons_self }

theorem onSled (s : SledStands h d d') (g : SledSt → SledSt) : SledStands h d (d'.onSled h g) :=
  { s with fields := s.fields.onSled h g }

theorem setPrf (s : SledStands h d d') (x : PrfSt) : SledStands h d (d'.setPrf h x) :=
  ⟨s.fields.setPrf h x, s.arc, fun c hc => (Dev.prf_setPrf_ne d' h x hc).trans (s.prf c hc)⟩

theorem when (s : SledStands h d d') {c : Bool} {f : Dev → Dev} (hf : SledStands h d' (f d')) : SledStands h d (d'.when c f) := by
  cases c with
  | true => exact s.trans hf
  | false => exact s

theorem motorEvent (s : SledStands h d d') (code : Nat) (v : Word) : SledStands h d (d'.motorEvent code v) :=
  ⟨s.fields.motorEvent code v (List.subset_cons_self _ _), (d'.motorEvent_arc code v).trans s.arc,
    fun c hc => (d'.prf_motorEvent c code v).trans (s.prf c hc)⟩

theorem sledRest (s : SledStands h d d') : SledStands h d (d'.sledRest h) :=
  (((s.put _ (by simp [sledFields])).putBit _ (by simp [sledFields])).onSled _).setPrf _

theorem sledGo (s : SledStands h d d') (mode : Nat) (goal : Int) : SledStands h d (d'.sledGo h mode goal) := by
  unfold Dev.sledGo
  exact ((s.put _ (by simp [sledFields])).putBit _ (by simp [sledFields])).onSled _

theorem sledRefused (s : SledStands h d d') : SledStands h d (d'.sledRefused h) :=
  (s.putBit _ (by simp [sledFields])).motorEvent _ _

theorem stopSled (s : SledStands h d d') : SledStands h d (d'.stopSled h) := by
  have stopped (n : Dev) : SledStands h n (n.when (n.sledMode h == sledTable) fun d =>
      (d.setPrf h { d.prf h with segs := [] }).putBit (Fld.PRF_STATUS_BUSY h) false) :=
    (refl n).when (((refl n).setPrf _).channelStatus _)
  unfold Dev.stopSled
  exact iteInduction (fun _ => (s.trans (stopped d')).sledRest) fun _ => (s.trans (stopped d')).sledGo _ _

theorem moveSled (s : SledStands h d d') (mode : Nat) (goal : Int) : SledStands h d (d'.moveSled h mode goal) := by
  unfold Dev.moveSled
  refine iteInduction (fun _ => s.sledRefused) fun _ => iteInduction (fun _ => ?_) fun _ => ?_
  · exact (s.putBit _ (by simp [sledFields])).sledRefused
  · exact iteInduction (fun _ => s.sledRefused) fun _ => s.sledGo _ _

theorem parkSled (s : SledStands h d d') : SledStands h d (d'.parkSled h) := by
  unfold Dev.parkSled
  exact iteInduction (fun _ => s.moveSled _ _) fun _ => s.stopSled

end SledStands

/-- What the changes for both sleds in turn do, where each leaves it to the next. -/
theorem Dev.each_sleds {P : Dev → Dev → Prop} (trans : ∀ {a b c}, P a b → P b c → P a c) {f : Dev → Nat → Dev}
    (step : ∀ n, ∀ h < 2, P n (f n h)) (d : Dev) : P d (d.each [0, 1] f) := trans (step d 0 (by decide)) (step _ 1 (by decide))

/-- The spindle's status and the counter of its trips lie outside what commands of a sled change. -/
theorem spindle_outside_sled : ∀ h < 2, ∀ a ∈ [Adr.MOT_STATUS, Adr.MOT_CNT 5], (wholeReg a).Outside (sledRegs h) (sledFields h) := by decide

/-- The spindle's status, the counter of its trips, and the Arc engines with their ports stand. -/
def TripStands (d d' : Dev) : Prop := d'.arc = d.arc ∧ ∀ a ∈ [Adr.MOT_STATUS, Adr.MOT_CNT 5], d'.reg a = d.reg a

theorem SledStands.tripStands {h : Nat} (hh : h < 2) {d d' : Dev} (s : SledStands h d d') : TripStands d d' :=
  ⟨s.arc, fun a ha => s.fields.reg (spindle_outside_sled h hh a ha)⟩

theorem Dev.tripStands_parkSleds (d : Dev) : TripStands d d.parkSleds := by
  refine Dev.each_sleds (fun s s' => ⟨s'.1.trans s.1, fun a ha => (s'.2 a ha).trans (s.2 a ha)⟩)
    (fun n h hh => SledStands.tripStands hh ((SledStands.refl n).when ?_)) d
  exact ((SledStands.refl n).when (SledStands.refl n).stopSled).when (SledStands.refl _).parkSled


/-! ## Trips (R211, R229, R459) -/

/-- An OV2 trip shows, is counted, and leaves the spindle in COAST with its ports at 0, through the parking of the sleds. -/
theorem Dev.ov2Trip_spec (d : Dev) : d.ov2Trip.bit Fld.MOT_STATUS_OV2 = true ∧ d.ov2Trip.spnState = spnCoast ∧
    (∀ q ∈ spindlePorts, d.ov2Trip.outPort q = 0) ∧ d.ov2Trip.reg (Adr.MOT_CNT 5) = d.counted (Adr.MOT_CNT 5) 1 := by
  unfold Dev.ov2Trip
  extract_lets again x y
  obtain ⟨arc, regs⟩ := Dev.tripStands_parkSleds (y.onSpn fun s => { s with
    ov2Last := some y.locus.micros, noRestart := again, noMedium := s.noMedium || again, held := false })
  have status := regs Adr.MOT_STATUS (by decide)
  refine ⟨?_, ?_, fun q hq => ?_, ?_⟩
  · refine (Dev.bit_of_reg_eq status).trans ((Dev.bit_motorEvent _ _ _ (by decide)).trans ?_)
    exact (Dev.bit_of_fld_eq (Dev.fld_count (by decide))).trans (Dev.bit_putBit_self _ _ _)
  · refine (Dev.fld_of_reg_eq (f := Fld.MOT_STATUS_SPN_STATE) status).trans ((Dev.fld_motorEvent _ _ _ (by decide)).trans ?_)
    exact (Dev.fld_count (by decide)).trans ((Dev.fld_put_ne _ _ _ _ (by decide) (by decide)).trans (Dev.spnState_setSpn _ _ (by decide)))
  · unfold Dev.outPort
    rw [arc]
    have coasts : y.arc = d.spnSwitchesOff.arc := Dev.motorEvent_arc _ _ _
    show Tab.get (fun _ => 0) y.arc.ports q = 0
    rw [coasts]
    exact d.outPort_spnSwitchesOff hq
  · refine (regs _ (by decide)).trans ((Dev.reg_motorEvent _ _ _ (by decide)).trans ?_)
    exact Dev.reg_count_counted ((Dev.reg_put_ne _ _ _ (by decide)).trans (Dev.reg_setSpn _ _ _ (by decide)))

section
variable {s : State}

theorem completes_trip {trip : Instr} (h : trip ∈ [Instr.ov2, .motFlt]) : Completes trip s fun d =>
    d.bit Fld.MOT_STATUS_OV2 = true ∧ d.spnState = spnCoast ∧ (∀ q ∈ spindlePorts, d.outPort q = 0) ∧
    d.reg (Adr.MOT_CNT 5) = s.dev.counted (Adr.MOT_CNT 5) 1 := by
  simp only [List.mem_cons, List.not_mem_nil, or_false] at h
  rcases h with rfl | rfl
  · exact ⟨(s.dev.onSpn fun s => { s with busLow := false, chopper := true }).ov2Trip, rfl, Dev.ov2Trip_spec _⟩
  · exact ⟨(s.dev.onSpn fun s => { s with faultLow := true }).ov2Trip, rfl, Dev.ov2Trip_spec _⟩

theorem completes_ov2Clear (h : s.dev.mot.spn.busLow = true) : Completes .ov2Clear s fun d =>
    d.bit Fld.MOT_STATUS_OV2 = false ∧ d = { s.dev with regs := d.regs } ∧ SameRegs s.dev d [Adr.MOT_STATUS] := by
  have clears : s.dev.ov2Clear = s.dev.putBit Fld.MOT_STATUS_OV2 false := if_pos h
  refine ⟨s.dev.ov2Clear, rfl, ?_⟩
  rw [clears]
  exact ⟨Dev.bit_putBit_self _ _ _, (RegFrame.refl s.dev _).putBit List.mem_cons_self⟩

theorem exec_ov2Clear_of_high (h : s.dev.mot.spn.busLow = false) : exec .ov2Clear s = .next s := by
  have row : exec .ov2Clear s = s.on Dev.ov2Clear := rfl
  exact row.trans (State.on_of_eq_self (if_neg (Bool.eq_false_iff.mp h)))

/-! ## The current limit and the chopper (R210, R227, R228) -/

theorem mem_setMember_self (l : List Nat) (b : Nat) : b ∈ setMember l b true := by
  unfold setMember
  rw [if_pos rfl]
  split
  · exact List.contains_iff_mem.mp ‹_›
  · exact List.mem_append_right _ List.mem_cons_self

/-- A phase that is over its current: OC, and its pulse is cut until the next tick. -/
def Dev.phaseCut (d : Dev) (ph : Phase) : Dev :=
  ((d.putBit Fld.MOT_STATUS_OC true).cutPulse (phaseIx ph)).onSpn fun s => { s with
    cut := setMember s.cut (phaseIx ph) true, overcurrents := s.overcurrents + 1 }

/-- The event of the current limit, which is posted once in 1 ms. -/
def Dev.overcurrentPosted (d : Dev) : Dev := (d.onSpn fun s => { s with ocLast := some d.locus.micros }).spnEvent 0x583

theorem exec_spindleOvercurrent (ph : Phase) : ∃ first, exec (.spindleOvercurrent ph) s =
    .next { s with dev := (s.dev.phaseCut ph).when first Dev.overcurrentPosted } := ⟨_, rfl⟩

theorem completes_spindleOvercurrent (ph : Phase) : Completes (.spindleOvercurrent ph) s fun d =>
    d.bit Fld.MOT_STATUS_OC = true ∧ phaseIx ph ∈ d.mot.spn.cut := by
  obtain ⟨first, row⟩ := exec_spindleOvercurrent (s := s) ph
  refine ⟨_, row, ?_⟩
  have shown : (s.dev.phaseCut ph).bit Fld.MOT_STATUS_OC = true := Dev.bit_putBit_self s.dev _ true
  have cut : phaseIx ph ∈ (s.dev.phaseCut ph).mot.spn.cut := mem_setMember_self _ _
  cases first with
  | true =>
    refine ⟨(Dev.bit_motorEvent _ _ _ (by decide)).trans shown, ?_⟩
    rw [Dev.when_true, Dev.overcurrentPosted, Dev.spnEvent, Dev.motorEvent_mot]
    exact cut
  | false => exact ⟨shown, cut⟩

theorem completes_chopperThreshold (above : Bool) : Completes (.chopperThreshold above) s fun d =>
    d.mot.spn.chopper = above ∧ d.mot.spn.busLow = !above ∧ d = { s.dev with mot := d.mot } := ⟨_, rfl, rfl, rfl, rfl⟩

theorem completes_ov1 : Completes .ov1 s fun d => d.bit Fld.MOT_STATUS_OV1 = true ∧ d.mot.spn.chopCheck = true ∧
    d.reg (Adr.MOT_CNT 3) = s.dev.counted (Adr.MOT_CNT 3) 1 := by
  refine ⟨_, rfl, ?_, rfl, ?_⟩
  · refine (Dev.bit_onSpn _ _ _).trans ((Dev.bit_motorEvent _ _ _ (by decide)).trans ?_)
    exact (Dev.bit_of_fld_eq (Dev.fld_count (by decide))).trans (Dev.bit_putBit_self _ _ _)
  · refine (Dev.reg_onSpn _ _ _).trans ((Dev.reg_motorEvent _ _ _ (by decide)).trans ?_)
    exact Dev.reg_count_counted (Dev.reg_put_ne _ _ _ (by decide))

/-- The check after OV1 fails: CHOP_FAULT and REGEN_INHIBIT are set, and the failure is counted. -/
def Dev.chopFailed (d : Dev) : Dev :=
  ((((d.onSpn fun s => { s with chopCheck := false }).putBit Fld.MOT_STATUS_CHOP_FAULT true).putBit Fld.MOT_CTRL_REGEN_INHIBIT true).count
    (Adr.MOT_CNT 4)).spnEvent 0x581

theorem Dev.chopFailed_spec (d : Dev) : d.chopFailed.bit Fld.MOT_STATUS_CHOP_FAULT = true ∧
    d.chopFailed.bit Fld.MOT_CTRL_REGEN_INHIBIT = true ∧ d.chopFailed.reg (Adr.MOT_CNT 4) = d.counted (Adr.MOT_CNT 4) 1 ∧
    d.chopFailed.bit Fld.MOT_CTRL_SPN_EN = d.bit Fld.MOT_CTRL_SPN_EN ∧ d.chopFailed.bit Fld.MOT_STATUS_OV2 = d.bit Fld.MOT_STATUS_OV2 ∧
    d.chopFailed.spnState = d.spnState := by
  set n := (d.onSpn fun s => { s with chopCheck := false }).putBit Fld.MOT_STATUS_CHOP_FAULT true with hn
  have behind (f : Field) (below : f.adr < 0xd0000) (counter : f.adr ≠ Adr.MOT_CNT 4) :
      d.chopFailed.fld f = (n.putBit Fld.MOT_CTRL_REGEN_INHIBIT true).fld f :=
    (Dev.fld_motorEvent _ _ _ below).trans (Dev.fld_count counter)
  refine ⟨?_, ?_, ?_, ?_, ?_, ?_⟩
  · refine (Dev.bit_of_fld_eq (behind _ (by decide) (by decide))).trans ((Dev.bit_putBit_ne _ _ _ _ (by decide)).trans ?_)
    exact Dev.bit_putBit_self _ _ _
  · exact (Dev.bit_of_fld_eq (behind _ (by decide) (by decide))).trans (Dev.bit_putBit_self _ _ _)
  · refine (Dev.reg_motorEvent _ _ _ (by decide)).trans (Dev.reg_count_counted ?_)
    exact (Dev.reg_put_ne _ _ _ (by decide)).trans (Dev.reg_put_ne _ _ _ (by decide))
  · refine (Dev.bit_of_fld_eq (behind _ (by decide) (by decide))).trans ((Dev.bit_putBit_ne _ _ _ _ (by decide)).trans ?_)
    exact Dev.bit_putBit_ne _ _ _ _ (by decide)
  · refine (Dev.bit_of_fld_eq (behind _ (by decide) (by decide))).trans ((Dev.bit_putBit_ne _ _ _ _ (by decide)).trans ?_)
    exact Dev.bit_putBit_ne _ _ _ _ (by decide)
  · refine (behind Fld.MOT_STATUS_SPN_STATE (by decide) (by decide)).trans ((Dev.fld_put_ne _ _ _ _ (by decide) (by decide)).trans ?_)
    exact Dev.fld_put_ne _ _ _ _ (by decide) (by decide)

/-- A stage that stays off though the check fails: it is disabled, or has tripped (R211, R480). -/
def Dev.stageStaysOff (d : Dev) : Bool := !d.bit Fld.MOT_CTRL_SPN_EN || (d.bit Fld.MOT_STATUS_OV2 && d.spnState == spnCoast)

theorem exec_chopCheckTimeout : exec .chopCheckTimeout s = s.on fun d => if !d.mot.spn.chopCheck then d
    else if d.chopFailed.stageStaysOff then d.chopFailed else (d.chopFailed.spnSwitchesOff.setSpn spnShort).windingShort := rfl

theorem exec_chopCheckTimeout_of_none (h : s.dev.mot.spn.chopCheck = false) : exec .chopCheckTimeout s = .next s :=
  exec_chopCheckTimeout.trans (State.on_of_eq_self (if_pos (by rw [h]; rfl)))

theorem completes_chopCheckTimeout (h : s.dev.mot.spn.chopCheck = true) : Completes .chopCheckTimeout s fun d =>
    d.bit Fld.MOT_STATUS_CHOP_FAULT = true ∧ d.bit Fld.MOT_CTRL_REGEN_INHIBIT = true ∧
    d.reg (Adr.MOT_CNT 4) = s.dev.counted (Adr.MOT_CNT 4) 1 ∧
    (s.dev.stageStaysOff = false → d.spnState = spnShort ∧ d.mot.spn.short = true) ∧
    (s.dev.stageStaysOff = true → d.spnState = s.dev.spnState) := by
  obtain ⟨fault, inhibit, counter, enabled, ov2, state⟩ := s.dev.chopFailed_spec
  have off : s.dev.chopFailed.stageStaysOff = s.dev.stageStaysOff := by unfold Dev.stageStaysOff; rw [enabled, ov2, state]
  refine ⟨if s.dev.stageStaysOff then s.dev.chopFailed else (s.dev.chopFailed.spnSwitchesOff.setSpn spnShort).windingShort, ?_, ?_⟩
  · rw [exec_chopCheckTimeout, State.on_eq, if_neg (by rw [h]; decide), off]
  · cases s.dev.stageStaysOff with
    | true => exact ⟨fault, inhibit, counter, fun no => (by cases no), fun _ => state⟩
    | false =>
      exact ⟨(Dev.bit_setSpn _ _ _ (by decide)).trans fault, (Dev.bit_setSpn _ _ _ (by decide)).trans inhibit,
        (Dev.reg_setSpn _ _ _ (by decide)).trans counter, fun _ => ⟨Dev.spnState_setSpn _ _ (by decide), rfl⟩, fun yes => (by cases yes)⟩

/-- The bus below BRK_OFF, as the chopper takes it. -/
def Dev.busFallen (d : Dev) : Dev := d.onSpn fun s => { s with busLow := true, chopper := false }

/-- The end of SHORT, by the TARGET and the stage (R228). -/
def Dev.shortEnded (d : Dev) : Dev :=
  if d.fld Fld.SPN_TARGET_TARGET = 0 then d.setSpn spnStopping
  else if d.bit Fld.MOT_CTRL_SPN_EN then d.enterMeasure else d.spnCoasts

theorem exec_busBelowBrkOff : exec .busBelowBrkOff s = .next { s with dev :=
    if s.dev.spnState = spnShort then s.dev.busFallen.shortEnded else s.dev.busFallen.restartAfterOv2 } := rfl

theorem SpindleStands.shortEnded {d d' : Dev} (h : SpindleStands [] [Fld.MOT_STATUS_SPN_STATE] d d') :
    SpindleStands [] [Fld.MOT_STATUS_SPN_STATE] d d'.shortEnded := by
  refine iteInduction (fun _ => h.setSpn List.mem_cons_self _) fun _ => iteInduction (fun _ => h.enterMeasure List.mem_cons_self) fun _ => ?_
  exact h.spnSwitchesOff.setSpn List.mem_cons_self _

/-- A restart after OV2 changes of all fields OV2 and the spindle's state. -/
theorem Dev.stands_restartAfterOv2 (d : Dev) :
    SpindleStands [] [Fld.MOT_STATUS_SPN_STATE, Fld.MOT_STATUS_OV2] d d.restartAfterOv2 :=
  (SpindleStands.refl d).when (((SpindleStands.refl d).putBit _ (by decide)).applyTarget (by decide))

theorem completes_busBelowBrkOff : Completes .busBelowBrkOff s fun d => d.mot.spn.busLow = true ∧ d.mot.spn.chopper = false ∧
    (s.dev.spnState = spnShort → s.dev.fld Fld.SPN_TARGET_TARGET = 0 → d.spnState = spnStopping) ∧
    (s.dev.spnState = spnShort → s.dev.fld Fld.SPN_TARGET_TARGET ≠ 0 → d.spnState =
      if s.dev.bit Fld.MOT_CTRL_SPN_EN then spnMeasure else spnCoast) := by
  refine ⟨_, exec_busBelowBrkOff, ?_⟩
  split
  · have stands := (SpindleStands.refl s.dev.busFallen).shortEnded
    refine ⟨stands.busLow, stands.chopper, fun _ stops => ?_, fun _ goes => ?_⟩
    · have ends : s.dev.busFallen.shortEnded = s.dev.busFallen.setSpn spnStopping := if_pos stops
      rw [ends]
      exact Dev.spnState_setSpn _ _ (by decide)
    · have ends : s.dev.busFallen.shortEnded = if s.dev.bit Fld.MOT_CTRL_SPN_EN then s.dev.busFallen.enterMeasure else s.dev.busFallen.spnCoasts :=
        if_neg goes
      rw [ends]
      split
      · exact Dev.spnState_enterMeasure _
      · exact Dev.spnState_setSpn _ _ (by decide)
  · have stands := s.dev.busFallen.stands_restartAfterOv2
    exact ⟨stands.busLow, stands.chopper, fun short => absurd short ‹_›, fun short => absurd short ‹_›⟩

theorem completes_motCntClr : Completes .motCntClr s fun d => (∀ k < 8, d.reg (Adr.MOT_CNT k) = 0) ∧ d = { s.dev with regs := d.regs } ∧
    SameRegs s.dev d ((List.range 8).map Adr.MOT_CNT) :=
  ⟨_, rfl, fun _ hk => Dev.reg_clearCounters_self _ _ hk, s.dev.regFrame_clearCounters Adr.MOT_CNT⟩

end

end Sys2Proof.Machine

/-! PROOFS. The spindle current tick (O44): the tables of the profiler, the sleds and their limits, and the stages of a tick. -/

namespace Sys2Proof.Machine

/-! ## What stands for one profiler channel -/

/-- A profiler channel stands, and registers outside a list. -/
structure ChannelStands (c : Nat) (as : List Nat) (d d' : Dev) : Prop where
  regs : SameRegs d d' as
  prf : d'.prf c = d.prf c

namespace ChannelStands

variable {c : Nat} {as : List Nat} {d d' : Dev}

theorem refl (d : Dev) : ChannelStands c as d d := ⟨.refl d as, rfl⟩

theorem trans {d'' : Dev} (s : ChannelStands c as d d') (s' : ChannelStands c as d' d'') : ChannelStands c as d d'' :=
  ⟨s.regs.trans s'.regs, s'.prf.trans s.prf⟩

theorem mono {as' : List Nat} (s : ChannelStands c as d d') (ha : as ⊆ as') : ChannelStands c as' d d' := ⟨s.regs.mono ha, s.prf⟩

theorem setReg (s : ChannelStands c as d d') {a : Nat} (v : Word) (ha : a ∈ as) : ChannelStands c as d (d'.setReg a v) :=
  ⟨s.regs.setReg ha, s.prf⟩

theorem setPrf (s : ChannelStands c as d d') {k : Nat} (x : PrfSt) (hk : c ≠ k) : ChannelStands c as d (d'.setPrf k x) :=
  ⟨s.regs.trans (.of_regs_eq rfl), (Dev.prf_setPrf_ne d' k x hk).trans s.prf⟩

/-- A change of parts other than the registers and the channels. -/
theorem other (s : ChannelStands c as d d') {d'' : Dev} (regs : d''.regs = d'.regs := by rfl) (prf : d''.prf c = d'.prf c := by rfl) :
    ChannelStands c as d d'' := ⟨s.regs.trans (.of_regs_eq regs), prf.trans s.prf⟩

theorem motorEvent (s : ChannelStands c as d d') (code : Nat) (v : Word) (ha : motorEventRegs ⊆ as) :
    ChannelStands c as d (d'.motorEvent code v) :=
  ⟨s.regs.trans ((d'.sameRegs_motorEvent code v).mono ha), (d'.prf_motorEvent c code v).trans s.prf⟩

theorem when (s : ChannelStands c as d d') {b : Bool} {f : Dev → Dev} (hf : ChannelStands c as d' (f d')) : ChannelStands c as d (d'.when b f) := by
  cases b with
  | true => exact s.trans hf
  | false => exact s

theorem each {α : Type} {f : Dev → α → Dev} (xs : List α) (hf : ∀ n, ∀ x ∈ xs, ChannelStands c as n (f n x)) : ChannelStands c as d (d.each xs f) := by
  induction xs generalizing d with
  | nil => exact refl d
  | cons x xs ih => exact (hf d x List.mem_cons_self).trans (ih fun n y hy => hf n y (List.mem_cons_of_mem x hy))

theorem spindle (s : ChannelStands c as d d') {ws : List Nat} {fs : List Field} {d'' : Dev} (h : SpindleStands ws fs d' d'') (hc : c ≠ 6)
    (hw : ws ⊆ as) (hf : fs.map Field.adr ⊆ as) : ChannelStands c as d d'' :=
  ⟨s.regs.trans (h.fields.widen hw hf).sameRegs, (h.prf c hc).trans s.prf⟩

end ChannelStands

/-! ## Tables (R231, R233) -/

/-- The place of a running table on its cubic. -/
def PrfSt.onCubic (x : PrfSt) (g : Segment) : Int := (hermite x.p0 x.v0 (g.pos * 65536) (g.vel * 256) g.dur (x.k + 1)).1

/-- What a tick makes of a channel x that runs a table: a step along the cubic, or the exact end of the segment, and with the last one the end of
the table. -/
def TableStepped (c : Nat) (x : PrfSt) (d : Dev) : Prop := ∀ g rest, x.segs = g :: rest →
  (x.k + 1 < g.dur → (d.prf c).k = x.k + 1 ∧ (d.prf c).segs = x.segs ∧ (d.prf c).p = x.onCubic g) ∧
  (g.dur ≤ x.k + 1 → (d.prf c).p = g.pos * 65536 ∧ (d.prf c).v = g.vel * 256 ∧ (d.prf c).segs = rest ∧
    (rest = [] → d.bit (Fld.PRF_STATUS_DONE c) = true ∧ d.bit (Fld.PRF_STATUS_BUSY c) = false))

theorem TableStepped.congr {c : Nat} {x : PrfSt} {as : List Nat} {d d' : Dev} (h : TableStepped c x d) (s : ChannelStands c as d d')
    (outside : Adr.PRF_STATUS c ∉ as) : TableStepped c x d' := by
  intro g rest hx
  have done : d'.bit (Fld.PRF_STATUS_DONE c) = d.bit (Fld.PRF_STATUS_DONE c) := s.regs.bit outside
  have busy : d'.bit (Fld.PRF_STATUS_BUSY c) = d.bit (Fld.PRF_STATUS_BUSY c) := s.regs.bit outside
  rw [s.prf, done, busy]
  exact h g rest hx

section
variable (d : Dev) (c : Nat)

theorem Dev.bit_endTable_done : (d.endTable c).bit (Fld.PRF_STATUS_DONE c) = true := Dev.bit_putBit_self _ _ _

theorem Dev.bit_endTable_busy : (d.endTable c).bit (Fld.PRF_STATUS_BUSY c) = false :=
  (Dev.bit_putBit_ne _ _ _ _ (.inr (.inl (Nat.le_of_ble_eq_true rfl)))).trans (Dev.bit_putBit_self _ _ _)

theorem Dev.prf_endTable : (d.endTable c).prf c = { d.prf c with segs := [], k := 0, acc := 0 } := Dev.prf_setPrf_self _ _ _

theorem Dev.tableStepped_tableTick : TableStepped c (d.prf c) (d.tableTick c) := by
  intro g rest hx
  refine ⟨fun within => ?_, fun ends => ?_⟩
  · simp only [Dev.tableTick, hx, if_pos within, Dev.prf_setPrf_self]
    exact ⟨trivial, trivial, rfl⟩
  · simp only [Dev.tableTick, hx, if_neg (Nat.not_lt.mpr ends)]
    cases rest with
    | nil =>
      rw [if_pos List.isEmpty_nil, Dev.prf_endTable, Dev.prf_setPrf_self]
      exact ⟨rfl, rfl, rfl, fun _ => ⟨Dev.bit_endTable_done _ _, Dev.bit_endTable_busy _ _⟩⟩
    | cons t ts =>
      have shown (n : Dev) (f : Field) (w : Nat) : (n.put f w).prf c = n.prf c := rfl
      rw [if_neg (by simp), shown, Dev.prf_setPrf_self]
      exact ⟨rfl, rfl, rfl, fun no => (by cases no)⟩

theorem Dev.stands_tableTick {c' : Nat} (hc : c' ≠ c) : ChannelStands c' [Adr.PRF_STATUS c] d (d.tableTick c) := by
  have status : Adr.PRF_STATUS c ∈ [Adr.PRF_STATUS c] := List.mem_cons_self
  have ends (n : Dev) : ChannelStands c' [Adr.PRF_STATUS c] n (n.endTable c) :=
    (((ChannelStands.refl n).setPrf _ hc).setReg _ status).setReg _ status
  unfold Dev.tableTick
  dsimp only
  split
  · exact .refl d
  · refine iteInduction (fun _ => (ChannelStands.refl d).setPrf _ hc) fun _ => iteInduction (fun _ => ?_) fun _ => ?_
    · exact ((ChannelStands.refl d).setPrf _ hc).trans (ends _)
    · exact ((ChannelStands.refl d).setPrf _ hc).setReg _ status

/-- Each running table of a list of channels steps. -/
theorem Dev.tableStepped_each (l : List Nat) (nodup : l.Nodup) (mem : c ∈ l) :
    TableStepped c (d.prf c) (d.each l fun d c => d.tableTick c) := by
  induction l generalizing d with
  | nil => exact absurd mem List.not_mem_nil
  | cons k l ih =>
    obtain ⟨fresh, nodup⟩ := List.nodup_cons.mp nodup
    show TableStepped c (d.prf c) ((d.tableTick k).each l fun d c => d.tableTick c)
    rcases List.mem_cons.mp mem with rfl | mem
    · have rest : ChannelStands c (l.map Adr.PRF_STATUS) (d.tableTick c) ((d.tableTick c).each l fun d c => d.tableTick c) :=
        ChannelStands.each l fun n x hx => (n.stands_tableTick x (c' := c) fun e => fresh (e ▸ hx)).mono
          (List.cons_subset.mpr ⟨List.mem_map_of_mem hx, List.nil_subset _⟩)
      refine (d.tableStepped_tableTick c).congr rest fun hm => ?_
      obtain ⟨j, hj, same⟩ := List.mem_map.mp hm
      have : j = c := by unfold Adr.PRF_STATUS at same; omega
      exact fresh (this ▸ hj)
    · have before := (d.stands_tableTick k (c' := c) fun e => fresh (e ▸ mem)).prf
      rw [← before]
      exact ih _ nodup mem

end

/-! ## The sleds (R236, R237, R360) -/

section
variable (d : Dev) (h : Nat)

/-- The firmware of KD mode follows a sled with the spindle's TARGET. -/
theorem Dev.stands_kdFollow : SpindleStands [Adr.SPN_TARGET] targetFields d d.kdFollow := by
  refine (SpindleStands.refl d).when ?_
  unfold Dev.kdSpin
  refine iteInduction (fun _ => .refl d) fun _ => SpindleStands.trans ?_ (Dev.stands_targetWrite _ _)
  exact ⟨.of_regs_eq rfl, rfl, fun _ _ => rfl, rfl, rfl⟩

/-- TRACK renews its goal, and the spindle follows. -/
theorem Dev.tracked_spec (b : Bool) : let n := d.when b fun d => (d.trackTick h).kdFollow
    SameFields d n [Adr.SPN_TARGET, Adr.MOT_STATUS] [Fld.SLD_STATUS_VLIM_REFUSED h] ∧ ∀ c ≠ 6, n.prf c = d.prf c := by
  have refused (b : Bool) : SameFields d (d.when b fun d => d.putBit (Fld.SLD_STATUS_VLIM_REFUSED h) true) [Adr.SPN_TARGET, Adr.MOT_STATUS]
      [Fld.SLD_STATUS_VLIM_REFUSED h] := (SameFields.refl d _ _).when ((SameFields.refl d _ _).putBit _ List.mem_cons_self)
  have goal : SameFields d (d.trackTick h) [Adr.SPN_TARGET, Adr.MOT_STATUS] [Fld.SLD_STATUS_VLIM_REFUSED h] :=
    (refused _).trans (.of_regs_eq rfl)
  have prf (c : Nat) : (d.trackTick h).prf c = d.prf c := by
    unfold Dev.trackTick Dev.when
    dsimp only
    split <;> rfl
  have follows := (d.trackTick h).stands_kdFollow
  cases b with
  | false => exact ⟨.refl d _ _, fun _ _ => rfl⟩
  | true => exact ⟨goal.trans (follows.fields.widen (by decide) (by decide)), fun c hc => (follows.prf c hc).trans (prf c)⟩

end


/-! ## A tick of a sled (R231, R236, R237, R239) -/

/-- The registers that a sled's tick writes. -/
def sledTickRegs (h : Nat) : List Nat :=
  Adr.SLD_STATUS h :: Adr.SLD_POS h :: Adr.PRF_STATUS h :: Adr.SPN_TARGET :: Adr.MOT_STATUS :: motorEventRegs

theorem motorEventRegs_subset_sledTickRegs (h : Nat) : motorEventRegs ⊆ sledTickRegs h := fun _ hm => by simp [sledTickRegs, hm]

section
variable {c h : Nat} {d d' : Dev}

theorem ChannelStands.sled (s : ChannelStands c (sledTickRegs h) d d') {d'' : Dev} (t : SledStands h d' d'') (hc : c ≠ h) :
    ChannelStands c (sledTickRegs h) d d'' :=
  have status : (sledFields h).map Field.adr = List.replicate 4 (Adr.SLD_STATUS h) := rfl
  have regs : sledRegs h ⊆ sledTickRegs h :=
    List.cons_subset.mpr ⟨by simp [sledTickRegs], motorEventRegs_subset_sledTickRegs h⟩
  ⟨s.regs.trans (t.fields.widen (fs' := []) regs (by rw [status]; simp [sledTickRegs])).sameRegs, (t.prf c hc).trans s.prf⟩

theorem ChannelStands.sledStatus (s : ChannelStands c (sledTickRegs h) d d') (v : Word) :
    ChannelStands c (sledTickRegs h) d (d'.setReg (Adr.SLD_STATUS h) v) := s.setReg v (by simp [sledTickRegs])

theorem ChannelStands.homeFails (s : ChannelStands c (sledTickRegs h) d d') : ChannelStands c (sledTickRegs h) d (d'.homeFails h) :=
  (s.sledStatus _).other

theorem ChannelStands.homeRest (s : ChannelStands c (sledTickRegs h) d d') (hc : c ≠ h) : ChannelStands c (sledTickRegs h) d (d'.homeRest h) := by
  have rests := s.sled (SledStands.refl d').sledRest hc
  unfold Dev.homeRest
  split
  · exact (rests.sledStatus _).motorEvent _ _ (motorEventRegs_subset_sledTickRegs h)
  · exact rests
  · exact s.other
  · exact s

/-- A sled's tick leaves the other channels, but that of the spindle. -/
theorem Dev.stands_sledTick (d : Dev) (hc : c ≠ h) (h6 : c ≠ 6) : ChannelStands c (sledTickRegs h) d (d.sledTick h) := by
  unfold Dev.sledTick
  extract_lets mode n s x m y tabled homing stopping vmax v' r l p v a b far e moved z rested pos shown
  obtain ⟨fields, prf⟩ := d.tracked_spec h (mode == sledTrack)
  have status : [Fld.SLD_STATUS_VLIM_REFUSED h].map Field.adr = [Adr.SLD_STATUS h] := rfl
  have tracked : ChannelStands c (sledTickRegs h) d n :=
    ⟨(fields.widen (fs' := []) (by simp [sledTickRegs]) (by rw [status]; simp [sledTickRegs])).sameRegs, prf c h6⟩
  have table : ChannelStands c (sledTickRegs h) d tabled :=
    (tracked.trans ((n.stands_tableTick h hc).mono (by simp [sledTickRegs]))).setPrf _ hc
  have goes : ChannelStands c (sledTickRegs h) d b := (tracked.setPrf _ hc).other
  have judged : ChannelStands c (sledTickRegs h) d e := goes.when (ChannelStands.refl b).homeFails
  have ends : ChannelStands c (sledTickRegs h) d moved := by
    refine iteInduction (fun _ => tracked) fun _ => iteInduction (fun _ => ?_) fun _ => iteInduction (fun _ => judged) fun _ => ?_
    · exact table.when ((ChannelStands.refl _).sled (SledStands.refl _).sledRest hc)
    · refine iteInduction (fun _ => judged.homeRest hc) fun _ => iteInduction (fun _ => judged.other) fun _ => ?_
      exact judged.sled (SledStands.refl e).sledRest hc
  have showing : ChannelStands c (sledTickRegs h) d rested := ends.when (ChannelStands.refl moved).other
  exact (showing.setReg (a := Adr.SLD_POS h) _ (by simp [sledTickRegs])).other

/-- A sled's reference lies within limits. -/
def Dev.Within (d : Dev) (h : Nat) (l : Int × Int) : Prop := l.1 ≤ (d.prf h).p ∧ (d.prf h).p ≤ l.2

theorem Dev.Within.ite {l : Int × Int} {b : Prop} [Decidable b] {m n : Dev} (yes : b → m.Within h l) (no : ¬b → n.Within h l) :
    (if b then m else n).Within h l := iteInduction (motive := fun d : Dev => d.Within h l) yes no

/-- From within the limits no motion of a homed sled leaves them (R237). -/
theorem Dev.limited_within (d : Dev) {p : Int} (homed : d.bit (Fld.SLD_STATUS_HOMED h) = true) (lo : (d.vlim h).1 ≤ p) (hi : p ≤ (d.vlim h).2)
    (q : Int) : (d.vlim h).1 ≤ d.limited h p q ∧ d.limited h p q ≤ (d.vlim h).2 := by
  unfold Dev.limited
  dsimp only
  rw [if_pos homed, min_eq_left lo, max_eq_left hi]
  unfold clampInt
  split_ifs <;> omega

theorem Dev.prf_sledRest (d : Dev) (h : Nat) : ((d.sledRest h).prf h).p = (d.prf h).p := by
  unfold Dev.sledRest
  rw [Dev.prf_setPrf_self]
  rfl

/-- HOMED and the limits lie outside what TRACK and a table change. -/
theorem limits_outside_tick : ∀ h < 2, ∀ g ∈ [Fld.SLD_STATUS_HOMED h, wholeReg (Adr.SLD_VLIM_LO h), wholeReg (Adr.SLD_VLIM_HI h)],
    g.Outside [Adr.SPN_TARGET, Adr.MOT_STATUS] [Fld.SLD_STATUS_VLIM_REFUSED h] ∧ g.adr ∉ [Adr.PRF_STATUS h] := by decide

theorem Dev.vlim_congr (lo : d'.reg (Adr.SLD_VLIM_LO h) = d.reg (Adr.SLD_VLIM_LO h)) (hi : d'.reg (Adr.SLD_VLIM_HI h) = d.reg (Adr.SLD_VLIM_HI h)) :
    d'.vlim h = d.vlim h := by
  unfold Dev.vlim
  rw [lo, hi]

/-- A tick leaves a homed sled that runs no HOME within its limits (R237). -/
theorem Dev.within_sledTick (d : Dev) (hh : h < 2) (homed : d.bit (Fld.SLD_STATUS_HOMED h) = true) (away : d.sledMode h ≠ sledHome)
    (within : d.Within h (d.vlim h)) : (d.sledTick h).Within h (d.vlim h) := by
  unfold Dev.sledTick
  extract_lets mode n s x m y tabled homing stopping vmax v' r l p v a b far e moved z rested pos shown
  obtain ⟨fields, prf⟩ := d.tracked_spec h (mode == sledTrack)
  have outside := limits_outside_tick h hh
  have ticks : SameRegs n m [Adr.PRF_STATUS h] := (n.stands_tableTick h (c' := h + 1) (by omega)).regs
  have limits : n.vlim h = d.vlim h := Dev.vlim_congr (fields.reg (outside _ (by simp)).1) (fields.reg (outside _ (by simp)).1)
  have limits' : m.vlim h = d.vlim h :=
    (Dev.vlim_congr (ticks _ (outside (wholeReg (Adr.SLD_VLIM_LO h)) (by simp)).2)
      (ticks _ (outside (wholeReg (Adr.SLD_VLIM_HI h)) (by simp)).2)).trans limits
  have homed' : n.bit (Fld.SLD_STATUS_HOMED h) = true := (fields.bit (outside _ (by simp)).1).trans homed
  have homed'' : m.bit (Fld.SLD_STATUS_HOMED h) = true := (ticks.bit (outside (Fld.SLD_STATUS_HOMED h) (by simp)).2).trans homed'
  have begins : n.Within h (d.vlim h) := by
    unfold Dev.Within
    rw [prf h (by omega)]
    exact within
  obtain ⟨lo, hi⟩ := begins
  have ends : moved.Within h (d.vlim h) := by
    refine Dev.Within.ite (fun _ => ⟨lo, hi⟩) fun _ => Dev.Within.ite (fun _ => ?_) fun _ => ?_
    · have kept : tabled.Within h (d.vlim h) := by
        unfold Dev.Within
        rw [Dev.prf_setPrf_self, ← limits']
        exact m.limited_within homed'' (limits' ▸ lo) (limits' ▸ hi) _
      refine Dev.Within.ite (fun _ => ?_) fun _ => kept
      unfold Dev.Within
      rw [Dev.prf_sledRest]
      exact kept
    · have kept : e.Within h (d.vlim h) := by
        have place : e.prf h = a.prf h := by
          cases hf : far <;> (show (b.when far _).prf h = _; rw [hf]; rfl)
        unfold Dev.Within
        rw [place, Dev.prf_setPrf_self, ← limits]
        exact n.limited_within homed' (limits ▸ lo) (limits ▸ hi) _
      refine Dev.Within.ite (fun _ => kept) fun _ => Dev.Within.ite (fun homing => absurd homing away) fun _ => Dev.Within.ite (fun _ => kept)
        fun _ => ?_
      unfold Dev.Within
      rw [Dev.prf_sledRest]
      exact kept
  have place : rested.prf h = moved.prf h := by
    show (moved.when (z.v != 0) _).prf h = _
    cases z.v != 0 <;> rfl
  have final (w : Word) (g : SledSt → SledSt) : ((rested.setReg (Adr.SLD_POS h) w).onSled h g).prf h = moved.prf h := place
  unfold Dev.Within
  rw [final]
  exact ends

end

end Sys2Proof.Machine

/-! PROOFS. The stages of a spindle current tick, and O44. -/

namespace Sys2Proof.Machine

/-! ## The stages of a tick (R209, R220, R222, R231) -/

section
variable (d : Dev) (m : MotorSamples)

/-- A tick's conversions. -/
def Dev.converted : Dev :=
  let d := d.copyDisagrees copiesMotor m.copy
  let d := { d with mot := { d.mot with conv := convTab m } }
  let d := (d.put Fld.MOT_BUS_MON_VBUS m.bus.toNat).put Fld.MOT_BUS_MON_CHOP_I m.chopper.toNat
  d.onSpn fun s => { s with cut := [], chopCheck := s.chopCheck && !chopperFired m.chopper.toNat, faultLow := m.faultLow }

/-- A tick of a sled that is there, and of both. -/
def Dev.sledTicked (h : Nat) : Dev := d.when (d.hasSled h) fun d => d.sledTick h

def Dev.sledsTicked : Dev := (d.sledTicked 0).sledTicked 1

/-- A tick of the channels that run tables by themselves. -/
def Dev.tablesTicked : Dev := d.each [2, 3, 4, 5] fun d c => d.tableTick c

/-- The channels show their positions. -/
def Dev.positionsShown : Dev := d.each [0, 1, 2, 3, 4, 5] fun d c => d.setReg (Adr.PRF_POS c) (fltRatio (d.prf c).p 65536)

/-- The spindle's part of a tick. -/
def Dev.spindleTicked : Dev :=
  let d := (((d.rampTick.thetaTick).commutate).stopCheck).restartAfterOv2
  (d.onSpn fun s => { s with floated := d.floatPhase }).pwmTick

theorem exec_spindleCurrentTick (s : State) : exec (.spindleCurrentTick m) s =
    .next { s with dev := (s.dev.converted m).sledsTicked.tablesTicked.positionsShown.spindleTicked } := rfl

/-- A disagreement of copies leaves the registers and the motor block. -/
theorem Dev.copyDisagrees_spec (unit : Nat) (copy : Option (Fin 2)) :
    (d.copyDisagrees unit copy).regs = d.regs ∧ (d.copyDisagrees unit copy).mot = d.mot := by
  unfold Dev.copyDisagrees
  split
  · exact ⟨rfl, rfl⟩
  · split <;> exact ⟨rfl, rfl⟩

theorem Dev.stands_converted (c : Nat) : ChannelStands c [Adr.MOT_BUS_MON] d (d.converted m) := by
  obtain ⟨regs, mot⟩ := d.copyDisagrees_spec copiesMotor m.copy
  have begun : ChannelStands c [Adr.MOT_BUS_MON] d (d.copyDisagrees copiesMotor m.copy) :=
    ⟨.of_regs_eq regs, by unfold Dev.prf; rw [mot]⟩
  exact ((begun.other.setReg _ List.mem_cons_self).setReg _ List.mem_cons_self).other

theorem Dev.fld_converted : (d.converted m).fld Fld.MOT_BUS_MON_VBUS = m.bus.toNat ∧
    (d.converted m).fld Fld.MOT_BUS_MON_CHOP_I = m.chopper.toNat := by
  unfold Dev.converted
  rw [Dev.fld_onSpn, Dev.fld_onSpn, Dev.fld_put_ne _ _ _ _ (by decide) (by decide), Dev.fld_put_self _ _ _ (by decide),
    Dev.fld_put_self _ _ _ (by decide)]
  exact ⟨Nat.mod_eq_of_lt m.bus.isLt, Nat.mod_eq_of_lt m.chopper.isLt⟩

theorem Dev.stands_sledTicked {c h : Nat} (hc : c ≠ h) (h6 : c ≠ 6) : ChannelStands c (sledTickRegs h) d (d.sledTicked h) :=
  (ChannelStands.refl d).when (d.stands_sledTick hc h6)

theorem Dev.stands_sledsTicked {c : Nat} (h2 : 2 ≤ c) (h6 : c ≠ 6) :
    ChannelStands c (sledTickRegs 0 ++ sledTickRegs 1) d d.sledsTicked :=
  ((d.stands_sledTicked (by omega) h6).mono (List.subset_append_left _ _)).trans
    ((Dev.stands_sledTicked _ (by omega) h6).mono (List.subset_append_right _ _))

theorem Dev.stands_tablesTicked {c : Nat} (hc : c ∉ [2, 3, 4, 5]) :
    ChannelStands c ([2, 3, 4, 5].map Adr.PRF_STATUS) d d.tablesTicked :=
  ChannelStands.each _ fun n k hk => (n.stands_tableTick k (c' := c) fun e => hc (e ▸ hk)).mono
    (List.cons_subset.mpr ⟨List.mem_map_of_mem hk, List.nil_subset _⟩)

theorem Dev.stands_positionsShown (c : Nat) : ChannelStands c ([0, 1, 2, 3, 4, 5].map Adr.PRF_POS) d d.positionsShown :=
  ChannelStands.each _ fun n _ hk => (ChannelStands.refl n).setReg _ (List.mem_map_of_mem hk)

theorem Dev.stands_spindleTicked {c : Nat} (h6 : c ≠ 6) : ChannelStands c [Adr.MOT_STATUS] d d.spindleTicked := by
  have self (n : Dev) : ChannelStands c [Adr.MOT_STATUS] n n := .refl n
  have ramp : ChannelStands c [Adr.MOT_STATUS] d d.rampTick :=
    iteInduction (fun _ => (self d).when ((self d).setPrf _ h6)) fun _ => (self d).setPrf _ h6
  have theta (n : Dev) : ChannelStands c [Adr.MOT_STATUS] n n.thetaTick := iteInduction (fun _ => (self n).other) fun _ => self n
  have commuted (n : Dev) : ChannelStands c [Adr.MOT_STATUS] n n.commutate := by
    unfold Dev.commutate
    split
    · exact iteInduction (fun _ => (self n).other) fun _ => (self n).other
    · exact self n
  have turned (n : Dev) : ChannelStands c [Adr.MOT_STATUS] n n.pwmTick := by
    unfold Dev.pwmTick
    exact iteInduction (fun _ => (self n).other) fun _ => (self n).other
  have spindle := (ramp.trans (theta _)).trans (commuted _)
  have stopped := spindle.spindle (SpindleStands.stopCheck (.refl (as := []) (fs := []) _)) h6 (List.nil_subset _) (List.nil_subset _)
  have restarted := stopped.spindle (Dev.stands_restartAfterOv2 _) h6 (List.nil_subset _) (by decide)
  exact restarted.other.trans (turned _)

/-- What follows the sleds in a tick. -/
theorem Dev.stands_afterTables {c : Nat} (h6 : c ≠ 6) :
    ChannelStands c ([0, 1, 2, 3, 4, 5].map Adr.PRF_POS ++ [Adr.MOT_STATUS]) d d.positionsShown.spindleTicked :=
  ((d.stands_positionsShown c).mono (List.subset_append_left _ _)).trans
    ((Dev.stands_spindleTicked _ h6).mono (List.subset_append_right _ _))

/-- The registers that a tick writes behind its conversions. -/
def tickRegs : List Nat :=
  sledTickRegs 0 ++ sledTickRegs 1 ++ [2, 3, 4, 5].map Adr.PRF_STATUS ++ ([0, 1, 2, 3, 4, 5].map Adr.PRF_POS ++ [Adr.MOT_STATUS])

theorem Dev.sameRegs_ticked : SameRegs d d.sledsTicked.tablesTicked.positionsShown.spindleTicked tickRegs := by
  have sleds := (d.stands_sledsTicked (c := 7) (by decide) (by decide)).mono (as' := tickRegs) (by decide)
  have tables := (d.sledsTicked.stands_tablesTicked (c := 7) (by decide)).mono (as' := tickRegs) (by decide)
  have rest := (d.sledsTicked.tablesTicked.stands_afterTables (c := 7) (by decide)).mono (as' := tickRegs) (by decide)
  exact ((sleds.trans tables).trans rest).regs

end

/-! ## The limits through a tick (R237) -/

/-- A sled that is there and homed, and runs no HOME, lies within its limits, as they stand in d. -/
structure Dev.Kept (d n : Dev) (h : Nat) : Prop where
  has : n.hasSled h = true
  homed : n.bit (Fld.SLD_STATUS_HOMED h) = true
  away : n.sledMode h ≠ sledHome
  limits : n.vlim h = d.vlim h
  within : n.Within h (d.vlim h)

section
variable {d n n' : Dev} {h : Nat}

theorem Dev.Within.congr {l : Int × Int} (w : n.Within h l) {as : List Nat} (s : ChannelStands h as n n') : n'.Within h l := by
  unfold Dev.Within
  rw [s.prf]
  exact w

theorem Dev.Kept.congr (k : d.Kept n h) {as : List Nat} (s : ChannelStands h as n n')
    (outside : ∀ a ∈ [Adr.ID_DEVICE, Adr.SLD_STATUS h, Adr.SLD_VLIM_LO h, Adr.SLD_VLIM_HI h], a ∉ as) : d.Kept n' h where
  has := by
    have variant : n'.variantS = n.variantS := by
      unfold Dev.variantS
      rw [s.regs.fld (f := Fld.ID_DEVICE_VARIANT) (outside _ (by simp [Fld.ID_DEVICE_VARIANT]))]
    unfold Dev.hasSled
    rw [variant]
    exact k.has
  homed := (s.regs.bit (f := Fld.SLD_STATUS_HOMED h) (outside _ (by simp [Fld.SLD_STATUS_HOMED]))).trans k.homed
  away := fun home => k.away ((s.regs.fld (f := Fld.SLD_STATUS_MODE h) (outside _ (by simp [Fld.SLD_STATUS_MODE]))).symm.trans home)
  limits := (Dev.vlim_congr (s.regs _ (outside _ (by simp))) (s.regs _ (outside _ (by simp)))).trans k.limits
  within := k.within.congr s

theorem Dev.Kept.ticked (k : d.Kept n h) (hh : h < 2) : (n.sledTicked h).Within h (d.vlim h) := by
  obtain ⟨has, homed, away, limits, within⟩ := k
  unfold Dev.sledTicked
  rw [has, ← limits]
  exact n.within_sledTick hh homed away (limits ▸ within)

/-- Both sleds tick, and each that is kept stays within its limits. -/
theorem Dev.Kept.sledsTicked {h : Head} (k : d.Kept n h.ix) : n.sledsTicked.Within h.ix (d.vlim h.ix) := by
  cases h with
  | a => exact (k.ticked (by decide)).congr (Dev.stands_sledTicked _ (by decide) (by decide))
  | b => exact (k.congr (n.stands_sledTicked (h := 0) (by decide) (by decide)) (by decide)).ticked (by decide)

end

section
variable {s : State} (m : MotorSamples)

theorem completes_spindleCurrentTick (c : Fin 6) (h : Head) : Completes (.spindleCurrentTick m) s fun d =>
    d.fld Fld.MOT_BUS_MON_VBUS = m.bus.toNat ∧ d.fld Fld.MOT_BUS_MON_CHOP_I = m.chopper.toNat ∧
    (2 ≤ c.val → TableStepped c (s.dev.prf c) d) ∧ (s.dev.Kept s.dev h.ix → d.Within h.ix (s.dev.vlim h.ix)) := by
  refine ⟨_, exec_spindleCurrentTick m s, ?_⟩
  have conversions (c : Nat) := s.dev.stands_converted m c
  obtain ⟨bus, chopper⟩ := s.dev.fld_converted m
  generalize s.dev.converted m = n at conversions bus chopper
  have monitor := n.sameRegs_ticked
  refine ⟨(monitor.fld (by decide)).trans bus, (monitor.fld (by decide)).trans chopper, fun h2 => ?_, fun kept => ?_⟩
  · have outside : ∀ c < 6, Adr.PRF_STATUS c ∉ [0, 1, 2, 3, 4, 5].map Adr.PRF_POS ++ [Adr.MOT_STATUS] := by decide
    have listed : ∀ c < 6, 2 ≤ c → c ∈ [2, 3, 4, 5] := by decide
    have before : n.sledsTicked.prf c = s.dev.prf c := (n.stands_sledsTicked h2 (by omega)).prf.trans (conversions c).prf
    rw [← before]
    exact (n.sledsTicked.tableStepped_each c [2, 3, 4, 5] (by decide) (listed c c.isLt h2)).congr
      (Dev.stands_afterTables _ (by omega)) (outside c c.isLt)
  · have begins : s.dev.Kept n h.ix := kept.congr (conversions h.ix) (by cases h <;> decide)
    exact (begins.sledsTicked.congr (Dev.stands_tablesTicked _ (by cases h <;> decide))).congr
      (Dev.stands_afterTables _ (by cases h <;> decide))

end

/-- Settles O44: the supply's commands by their branches; the tick by its stages, through which a homed sled is kept within its limits. -/
theorem motorTicksAndTrips : Obligations.MotorTicksAndTrips := by
  intro s m ph above c h trip known
  refine ⟨completes_spindleOvercurrent ph, completes_chopperThreshold above, completes_ov1, exec_chopCheckTimeout_of_none,
    completes_chopCheckTimeout, completes_busBelowBrkOff, completes_trip known, completes_ov2Clear, exec_ov2Clear_of_high, ?_, completes_motCntClr⟩
  obtain ⟨d, row, bus, chopper, tables, limits⟩ := completes_spindleCurrentTick (s := s) m c h
  refine ⟨d, row, bus, chopper, fun g rest h2 => tables h2 g rest, fun has homed away lo hi => limits ⟨has, homed, away, rfl, lo, hi⟩⟩

end Sys2Proof.Machine

/-! PROOFS. The profiler's commands, and the commands of a sled (O45). -/

namespace Sys2Proof.Machine

/-! ## Commands that are not taken (R246) -/

section
variable {s : State} {h : Head} (f : Dev → Dev)

/-- A change that leaves the block as n. -/
theorem State.on_of_eq {f : Dev → Dev} {n : Dev} (h : f s.dev = n) : s.on f = .next { s with dev := n } := by rw [State.on_eq, h]

theorem State.on_sledCommand_of_not (no : s.dev.sledTakes h.ix = false) : (s.on fun d => d.sledCommand h f) = .next s :=
  State.on_of_eq_self (if_neg (Bool.eq_false_iff.mp no))

theorem State.on_sledCommand (takes : s.dev.sledTakes h.ix = true) : (s.on fun d => d.sledCommand h f) = .next { s with dev := f s.dev } :=
  State.on_of_eq (if_pos takes)

theorem State.on_atSled_of_not (no : s.dev.hasSled h.ix = false) : (s.on fun d => d.atSled h f) = .next s :=
  State.on_of_eq_self (if_neg (Bool.eq_false_iff.mp no))

theorem State.on_atSled (has : s.dev.hasSled h.ix = true) : (s.on fun d => d.atSled h f) = .next { s with dev := f s.dev } :=
  State.on_of_eq (if_pos has)

theorem exec_sledCommand_of_not (no : s.dev.sledTakes h.ix = false) :
    ∀ cmd ∈ [Instr.sledHome h, .sledMove h, .sledTable h, .sledTrack h, .sledStop h, .sledPark h], exec cmd s = .next s := by
  simp only [List.forall_mem_cons]
  exact ⟨State.on_sledCommand_of_not _ no, State.on_sledCommand_of_not _ no, State.on_sledCommand_of_not _ no, State.on_sledCommand_of_not _ no,
    State.on_sledCommand_of_not _ no, State.on_sledCommand_of_not _ no, fun _ hm => absurd hm List.not_mem_nil⟩

theorem exec_sled_of_absent (v : Word) (far level : Bool) (no : s.dev.hasSled h.ix = false) :
    ∀ cmd ∈ [Instr.sledHome h, .sledMove h, .sledTable h, .sledTrack h, .sledStop h, .sledPark h, .sledDecWrite h v, .limitEdge h far,
      .sledHoldTimer h, .limitRawTransition h far level], exec cmd s = .next s := by
  have takes : s.dev.sledTakes h.ix = false := by
    unfold Dev.sledTakes
    rw [no, Bool.false_and]
  refine List.forall_mem_append.mpr ⟨exec_sledCommand_of_not takes, ?_⟩
  simp only [List.forall_mem_cons]
  exact ⟨State.on_atSled_of_not _ no, State.on_atSled_of_not _ no, State.on_atSled_of_not _ no, State.on_atSled_of_not _ no,
    fun _ hm => absurd hm List.not_mem_nil⟩

end

/-! ## The profiler (R234) -/

section
variable (d : Dev) {c : Nat}

theorem prfCtrl_ne_prfStatus (c k : Nat) : Adr.PRF_CTRL c ≠ Adr.PRF_STATUS k := by unfold Adr.PRF_CTRL Adr.PRF_STATUS; omega

theorem prf_below_events (hc : c < 6) : Adr.PRF_CTRL c < 0xd0000 ∧ Adr.PRF_STATUS c < 0xd0000 := by
  unfold Adr.PRF_CTRL Adr.PRF_STATUS; omega

/-- A table that starts on a channel leaves its position and its index, and no register but the channel's status. -/
theorem Dev.startTable_spec (c : Nat) (t : List Segment) : let n := d.startTable c t
    n.bit (Fld.PRF_STATUS_BUSY c) = true ∧ (n.prf c).segs = t ∧ (n.prf c).k = 0 ∧ (n.prf c).p = (d.prf c).p ∧
    SameRegs d n [Adr.PRF_STATUS c] := by
  have prf : (d.startTable c t).prf c =
      { d.prf c with segs := t, k := 0, p0 := (d.prf c).p, v0 := (d.prf c).v, seg := d.fld (Fld.PRF_CTRL_START c) } := Dev.prf_setPrf_self _ _ _
  refine ⟨?_, by rw [prf], by rw [prf], by rw [prf], ?_⟩
  · exact (Dev.bit_put_ne _ _ _ _ (.inr (.inl (Nat.le_of_ble_eq_true rfl)))).trans (Dev.bit_putBit_self _ _ _)
  · unfold Dev.startTable
    exact SameRegs.put (f := Fld.PRF_STATUS_SEG c) (SameRegs.putBit (f := Fld.PRF_STATUS_BUSY c) (SameRegs.of_regs_eq rfl) List.mem_cons_self)
      List.mem_cons_self

/-- A command of the profiler that is refused (R234, R247). -/
def Dev.profileRefused (d : Dev) (c : Nat) : Dev :=
  (d.putBit (Fld.PRF_STATUS_REFUSED c) true).motorEvent 0x58a (BitVec.ofInt 32 ((d.prf c).p / 65536))

theorem Dev.profileRefused_spec (hc : c < 6) : let n := d.profileRefused c
    n.bit (Fld.PRF_STATUS_REFUSED c) = true ∧ n.mot = d.mot ∧ n.fld (Fld.PRF_CTRL_START c) = d.fld (Fld.PRF_CTRL_START c) := by
  obtain ⟨ctrl, status⟩ := prf_below_events hc
  refine ⟨(Dev.bit_motorEvent _ _ _ status).trans (Dev.bit_putBit_self _ _ _), Dev.motorEvent_mot _ _ _, ?_⟩
  exact (Dev.fld_motorEvent _ _ _ ctrl).trans (Dev.fld_setReg_ne _ _ _ _ (prfCtrl_ne_prfStatus c c))

end

/-- GO on a channel whose START is stored. -/
def Dev.goes (d : Dev) (c : Nat) : Dev :=
  if c < 2 || !d.profileTakes c then d
  else
    match (if d.bit (Fld.PRF_STATUS_BUSY c) then none else d.checkTable c) with
    | some l => d.startTable c l
    | none => d.profileRefused c

section
variable {d : Dev} {c : Nat}

theorem Dev.goes_of_stored (h : c < 2 ∨ d.profileTakes c = false) : d.goes c = d :=
  if_pos (by rw [Bool.or_eq_true, decide_eq_true_eq, Bool.not_eq_true']; exact h)

theorem Dev.goes_of_table (h2 : 2 ≤ c) (takes : d.profileTakes c = true) : d.goes c =
    match (if d.bit (Fld.PRF_STATUS_BUSY c) then none else d.checkTable c) with
    | some l => d.startTable c l
    | none => d.profileRefused c :=
  if_neg (by rw [takes, Bool.or_eq_true, decide_eq_true_eq]; exact fun h => h.elim (Nat.not_lt.mpr h2) (by decide))

theorem Dev.goes_of_refused (h2 : 2 ≤ c) (takes : d.profileTakes c = true)
    (h : d.bit (Fld.PRF_STATUS_BUSY c) = true ∨ d.checkTable c = none) : d.goes c = d.profileRefused c := by
  have none : (if d.bit (Fld.PRF_STATUS_BUSY c) then none else d.checkTable c) = none := by
    rcases h with h | h
    · rw [h]; rfl
    · rw [h, ite_self]
  rw [Dev.goes_of_table h2 takes, none]

theorem Dev.goes_of_valid (h2 : 2 ≤ c) (takes : d.profileTakes c = true) (idle : d.bit (Fld.PRF_STATUS_BUSY c) = false) {t : List Segment}
    (ht : d.checkTable c = some t) : d.goes c = d.startTable c t := by
  rw [Dev.goes_of_table h2 takes, idle, ht]
  rfl

/-- GO leaves START as it was stored. -/
theorem Dev.fld_goes (hc : c < 6) : (d.goes c).fld (Fld.PRF_CTRL_START c) = d.fld (Fld.PRF_CTRL_START c) := by
  unfold Dev.goes
  split
  · rfl
  · split
    · obtain ⟨_, _, _, _, regs⟩ := d.startTable_spec c _
      exact regs.fld (by simpa [Fld.PRF_CTRL_START] using prfCtrl_ne_prfStatus c c)
    · exact (d.profileRefused_spec hc).2.2

theorem Dev.mode_congr {d' : Dev} (h : d'.reg Adr.ID_DEVICE = d.reg Adr.ID_DEVICE) : d'.mode = d.mode := Dev.fld_of_reg_eq h

end

/-- A table that ends by STOP. -/
def Dev.profileEnded (d : Dev) (c : Nat) : Dev := (d.endTable c).setPrf c { (d.endTable c).prf c with v := 0 }

section
variable {s : State} {c : Fin 6} {start : BitVec 10}

theorem exec_prfGo_of_absent (no : s.dev.hasChannel c = false) : exec (.prfGo c start) s = .next s := by
  have row : exec (.prfGo c start) s = s.on fun d => d.profileGo c start.toNat := rfl
  exact row.trans (State.on_of_eq_self (if_pos (by rw [no]; rfl)))

theorem exec_prfGo (has : s.dev.hasChannel c = true) :
    exec (.prfGo c start) s = .next { s with dev := (s.dev.put (Fld.PRF_CTRL_START c) start.toNat).goes c } := by
  have row : exec (.prfGo c start) s = s.on fun d => d.profileGo c start.toNat := rfl
  exact row.trans (State.on_of_eq (if_neg (by rw [has]; decide)))

theorem completes_prfGo (has : s.dev.hasChannel c = true) : let table := (s.dev.put (Fld.PRF_CTRL_START c) start.toNat).checkTable c
    Completes (.prfGo c start) s fun d => d.fld (Fld.PRF_CTRL_START c) = start.toNat ∧
      (c.val < 2 ∨ s.dev.profileTakes c = false → d = { s.dev with regs := d.regs }) ∧
      (2 ≤ c.val → s.dev.profileTakes c = true → s.dev.bit (Fld.PRF_STATUS_BUSY c) = true ∨ table = none →
        d.bit (Fld.PRF_STATUS_REFUSED c) = true ∧ d.mot = s.dev.mot) ∧
      (∀ t, 2 ≤ c.val → s.dev.profileTakes c = true → s.dev.bit (Fld.PRF_STATUS_BUSY c) = false → table = some t →
        d.bit (Fld.PRF_STATUS_BUSY c) = true ∧ (d.prf c).segs = t ∧ (d.prf c).k = 0 ∧ (d.prf c).p = (s.dev.prf c).p) := by
  intro table
  refine ⟨_, exec_prfGo has, ?_⟩
  set n := s.dev.put (Fld.PRF_CTRL_START c) start.toNat with hn
  have stored : n.fld (Fld.PRF_CTRL_START c) = start.toNat :=
    (Dev.fld_put_self _ _ _ (Nat.le_of_ble_eq_true rfl)).trans (Nat.mod_eq_of_lt start.isLt)
  have busy : n.bit (Fld.PRF_STATUS_BUSY c) = s.dev.bit (Fld.PRF_STATUS_BUSY c) :=
    Dev.bit_put_ne _ _ _ _ (.inl (prfCtrl_ne_prfStatus c c).symm)
  have takes : n.profileTakes c = s.dev.profileTakes c := by
    have mode : n.mode = s.dev.mode := Dev.mode_congr (Dev.reg_put_ne _ _ _ (by
      show Adr.ID_DEVICE ≠ Adr.PRF_CTRL c
      unfold Adr.ID_DEVICE Adr.PRF_CTRL; omega))
    unfold Dev.profileTakes
    rw [mode]
  refine ⟨(Dev.fld_goes c.isLt).trans stored, fun waits => ?_, fun h2 on no => ?_, fun t h2 on idle valid => ?_⟩
  · rw [Dev.goes_of_stored (takes ▸ waits)]
    rfl
  · rw [Dev.goes_of_refused h2 (takes.trans on) (busy ▸ no)]
    obtain ⟨refused, mot, _⟩ := n.profileRefused_spec c.isLt
    exact ⟨refused, mot⟩
  · rw [Dev.goes_of_valid h2 (takes.trans on) (busy.trans idle) valid]
    obtain ⟨runs, segs, k, p, _⟩ := n.startTable_spec c t
    exact ⟨runs, segs, k, p⟩

theorem exec_prfStop_of_idle (h : c.val < 2 ∨ s.dev.profileTakes c = false ∨ s.dev.bit (Fld.PRF_STATUS_BUSY c) = false) :
    exec (.prfStop c) s = .next s := by
  have row : exec (.prfStop c) s = s.on fun d => d.profileStop c := rfl
  refine row.trans (State.on_of_eq_self (if_pos ?_))
  rw [Bool.or_eq_true, Bool.or_eq_true, decide_eq_true_eq, Bool.not_eq_true', Bool.not_eq_true', or_assoc]
  exact h

theorem completes_prfStop (h2 : 2 ≤ c.val) (takes : s.dev.profileTakes c = true) (busy : s.dev.bit (Fld.PRF_STATUS_BUSY c) = true) :
    Completes (.prfStop c) s fun d => d.bit (Fld.PRF_STATUS_BUSY c) = false ∧ d.bit (Fld.PRF_STATUS_DONE c) = true ∧ (d.prf c).segs = [] ∧
      (d.prf c).v = 0 ∧ (d.prf c).p = (s.dev.prf c).p := by
  have row : exec (.prfStop c) s = s.on fun d => d.profileStop c := rfl
  refine ⟨s.dev.profileEnded c, row.trans (State.on_of_eq (if_neg ?_)), ?_⟩
  · simp only [takes, busy, Bool.not_true, Bool.or_false, decide_eq_true_eq]
    omega
  · have prf : (s.dev.profileEnded c).prf c = { (s.dev.endTable c).prf c with v := 0 } := Dev.prf_setPrf_self _ _ _
    rw [Dev.prf_endTable] at prf
    exact ⟨Dev.bit_endTable_busy _ _, Dev.bit_endTable_done _ _, by rw [prf], by rw [prf], by rw [prf]⟩

end


/-! ## Commands of a sled (R236, R242, R243, R245) -/

theorem sldStatus_below_events {n : Nat} (hn : n < 2) : Adr.SLD_STATUS n < 0xd0000 := by unfold Adr.SLD_STATUS; omega

section
variable (d : Dev) {n : Nat}

/-- A refused command shows CMD_REFUSED, and leaves the motor block and what shares no bit with that. -/
theorem Dev.sledRefused_spec (hn : n < 2) : (d.sledRefused n).bit (Fld.SLD_STATUS_CMD_REFUSED n) = true ∧ (d.sledRefused n).mot = d.mot ∧
    ∀ f : Field, f.adr = Adr.SLD_STATUS n → f.Apart (Fld.SLD_STATUS_CMD_REFUSED n) → (d.sledRefused n).fld f = d.fld f := by
  have below := sldStatus_below_events hn
  refine ⟨(Dev.bit_motorEvent _ _ _ below).trans (Dev.bit_putBit_self _ _ _), Dev.motorEvent_mot _ _ _, fun f hf apart => ?_⟩
  exact (Dev.fld_motorEvent _ _ _ (hf ▸ below)).trans (Dev.fld_put_ne _ _ _ _ (Nat.le_of_ble_eq_true rfl) apart)

theorem Dev.sledMode_sledRefused (hn : n < 2) : (d.sledRefused n).sledMode n = d.sledMode n :=
  (d.sledRefused_spec hn).2.2 (Fld.SLD_STATUS_MODE n) rfl (.inr (.inl (Nat.le_of_ble_eq_true rfl)))

/-- A sled takes a mode and a goal, and nothing but its state and its status changes. -/
structure SledGoes (n mode : Nat) (goal : Int) (d d' : Dev) : Prop where
  mode : d'.sledMode n = mode
  busy : d'.bit (Fld.SLD_STATUS_BUSY n) = true
  goal : (d'.sled n).goal = goal
  only : d' = { d with regs := d'.regs, mot := d'.mot }
  regs : SameRegs d d' [Adr.SLD_STATUS n]

theorem Dev.goes_sledGo (mode : Nat) (goal : Int) (hm : mode < 16) : SledGoes n mode goal d (d.sledGo n mode goal) where
  mode := (Dev.fld_put_ne _ _ _ _ (Nat.le_of_ble_eq_true rfl) (.inr (.inl (Nat.le_of_ble_eq_true rfl)))).trans
    ((Dev.fld_put_self d (Fld.SLD_STATUS_MODE n) mode (Nat.le_of_ble_eq_true rfl)).trans (Nat.mod_eq_of_lt hm))
  busy := Dev.bit_putBit_self _ _ _
  goal := by
    unfold Dev.sledGo
    rw [Dev.sled_onSled_self]
  only := rfl
  regs := by
    have mode := (SameRegs.refl d [Adr.SLD_STATUS n]).put (f := Fld.SLD_STATUS_MODE n) (v := mode) List.mem_cons_self
    exact (mode.putBit (f := Fld.SLD_STATUS_BUSY n) (b := true) List.mem_cons_self).trans (.of_regs_eq rfl)

/-- A sled that stops ends its table, and keeps its speed. -/
theorem Dev.stopSled_spec : (d.stopSled n).sledMode n = (if (d.prf n).v = 0 then sledIdle else sledStop) ∧
    ((d.stopSled n).prf n).v = (d.prf n).v := by
  have stopped (b : Bool) : ((d.when b fun d => (d.setPrf n { d.prf n with segs := [] }).putBit (Fld.PRF_STATUS_BUSY n) false).prf n).v =
      (d.prf n).v := by
    cases b with
    | true =>
      show ((d.setPrf n _).prf n).v = _
      rw [Dev.prf_setPrf_self]
    | false => rfl
  unfold Dev.stopSled
  extract_lets m
  have v : (m.prf n).v = (d.prf n).v := stopped _
  rw [v]
  split
  · refine ⟨?_, ?_⟩
    · exact (Dev.fld_put_ne _ _ _ _ (Nat.le_of_ble_eq_true rfl) (.inr (.inl (Nat.le_of_ble_eq_true rfl)))).trans
        (Dev.fld_put_self _ (Fld.SLD_STATUS_MODE n) _ (Nat.le_of_ble_eq_true rfl))
    · unfold Dev.sledRest
      rw [Dev.prf_setPrf_self, ‹(d.prf n).v = 0›]
  · exact ⟨(m.goes_sledGo sledStop _ (by decide)).mode, v⟩

end

section
variable {d : Dev} {n mode : Nat} {goal : Int}

theorem Dev.moveSled_of_refused (h : d.sledBusy n = true ∨ d.bit (Fld.SLD_STATUS_HOMED n) = false) : d.moveSled n mode goal = d.sledRefused n :=
  if_pos (by rw [Bool.or_eq_true, Bool.not_eq_true']; exact h)

theorem Dev.moveSled_of_free (free : d.sledBusy n = false) (homed : d.bit (Fld.SLD_STATUS_HOMED n) = true) : d.moveSled n mode goal =
    if goal < (d.vlim n).1 ∨ (d.vlim n).2 < goal then (d.putBit (Fld.SLD_STATUS_VLIM_REFUSED n) true).sledRefused n
    else if d.towardLimit n goal goal then d.sledRefused n else d.sledGo n mode goal :=
  if_neg (by rw [free, homed]; decide)

theorem Dev.moveSled_of_beyond (free : d.sledBusy n = false) (homed : d.bit (Fld.SLD_STATUS_HOMED n) = true)
    (beyond : goal < (d.vlim n).1 ∨ (d.vlim n).2 < goal) :
    d.moveSled n mode goal = (d.putBit (Fld.SLD_STATUS_VLIM_REFUSED n) true).sledRefused n := by
  rw [Dev.moveSled_of_free free homed, if_pos beyond]

theorem Dev.moveSled_of_within (free : d.sledBusy n = false) (homed : d.bit (Fld.SLD_STATUS_HOMED n) = true) (lo : (d.vlim n).1 ≤ goal)
    (hi : goal ≤ (d.vlim n).2) (clear : d.towardLimit n goal goal = false) : d.moveSled n mode goal = d.sledGo n mode goal := by
  rw [Dev.moveSled_of_free free homed, if_neg (by omega), clear]
  rfl

theorem Dev.trackSled_of_refused (h : d.sledBusy n = true ∨ d.bit (Fld.SLD_STATUS_HOMED n) = false) : d.trackSled n = d.sledRefused n :=
  if_pos (by rw [Bool.or_eq_true, Bool.or_eq_true, Bool.not_eq_true']; exact .inl h)

theorem Dev.tableSled_of_refused (h : d.sledBusy n = true ∨ d.bit (Fld.SLD_STATUS_HOMED n) = false) : d.tableSled n = d.sledRefused n :=
  if_pos (by rw [Bool.or_eq_true, Bool.not_eq_true']; exact h)

/-- A table whose extremes lie within the limits starts on a sled whose switches are not active. -/
theorem Dev.tableSled_of_valid {t : List Segment} (free : d.sledBusy n = false) (homed : d.bit (Fld.SLD_STATUS_HOMED n) = true)
    (valid : d.checkTable n = some t)
    (within : (tableExtremes (d.prf n).p (d.prf n).v t).all (fun p => decide ((d.vlim n).1 ≤ p) && decide (p ≤ (d.vlim n).2)) = true)
    (home : d.bit (Fld.SLD_STATUS_LIM_HOME n) = false) (far : d.bit (Fld.SLD_STATUS_LIM_FAR n) = false) :
    d.tableSled n = (d.sledGo n sledTable (d.prf n).p).startTable n t := by
  have inside : ((tableExtremes (d.prf n).p (d.prf n).v t).any fun p => decide (p < (d.vlim n).1) || decide ((d.vlim n).2 < p)) = false := by
    rw [List.any_eq_false]
    intro p hp
    have := List.all_eq_true.mp within p hp
    simp only [Bool.and_eq_true, decide_eq_true_eq] at this
    simp only [Bool.or_eq_true, decide_eq_true_eq]
    omega
  have clear (lo hi : Int) : d.towardLimit n lo hi = false := by
    simp only [Dev.towardLimit, home, far, Bool.and_false, Bool.or_false]
  unfold Dev.tableSled
  rw [free, homed, valid]
  dsimp only
  rw [inside, clear]
  rfl

end

/-- HOME begins: the sled is no longer homed, and leaves an active switch first. -/
theorem Dev.homeSled_spec (d : Dev) {n : Nat} (free : d.sledBusy n = false) (far : d.bit (Fld.SLD_STATUS_LIM_FAR n) = false) :
    (d.homeSled n).sledMode n = sledHome ∧ (d.homeSled n).bit (Fld.SLD_STATUS_HOMED n) = false ∧
    ((d.homeSled n).sled n).home = if d.bit (Fld.SLD_STATUS_LIM_HOME n) then .leave else .inward := by
  have known : d.homeSled n = _ := (if_neg (Bool.eq_false_iff.mp free)).trans (if_neg (Bool.eq_false_iff.mp far))
  rw [known]
  extract_lets m out
  have switch : out = d.bit (Fld.SLD_STATUS_LIM_HOME n) := by
    refine (Dev.bit_putBit_ne _ _ _ _ (.inr (.inr (Nat.le_of_ble_eq_true rfl)))).trans ?_
    exact (Dev.bit_putBit_ne _ _ _ _ (.inr (.inr (Nat.le_of_ble_eq_true rfl)))).trans
      (Dev.bit_put_ne _ _ _ _ (.inr (.inr (Nat.le_of_ble_eq_true rfl))))
  refine ⟨?_, Dev.bit_putBit_self _ _ _, ?_⟩
  · refine (Dev.fld_put_ne _ _ _ _ (Nat.le_of_ble_eq_true rfl) (.inr (.inl (Nat.le_of_ble_eq_true rfl)))).trans ?_
    exact (d.goes_sledGo sledHome 0 (by decide)).mode
  · rw [Dev.sled_onSled_self, switch]

section
variable {s : State} {h : Head}

/-- A refused command of a sled. -/
def SledRefuses (s : State) (h : Head) (cmd : Instr) : Prop := Completes cmd s fun d =>
  d.bit (Fld.SLD_STATUS_CMD_REFUSED h.ix) = true ∧ d.sledMode h.ix = s.dev.sledMode h.ix ∧ d.mot = s.dev.mot

/-- A command that sends a sled toward a goal. -/
def SledTakes (s : State) (h : Head) (cmd : Instr) (mode : Nat) (goal : Int) : Prop := Completes cmd s fun d =>
  d.sledMode h.ix = mode ∧ d.bit (Fld.SLD_STATUS_BUSY h.ix) = true ∧ (d.sled h.ix).goal = goal ∧
  d = { s.dev with regs := d.regs, mot := d.mot } ∧ SameRegs s.dev d [Adr.SLD_STATUS h.ix]

theorem SledRefuses.of_row {cmd : Instr} (row : exec cmd s = .next { s with dev := s.dev.sledRefused h.ix }) : SledRefuses s h cmd := by
  obtain ⟨refused, mot, _⟩ := s.dev.sledRefused_spec (headIx_lt h)
  exact ⟨_, row, refused, s.dev.sledMode_sledRefused (headIx_lt h), mot⟩

theorem SledTakes.of_goes {cmd : Instr} {mode : Nat} {goal : Int} {d : Dev} (row : exec cmd s = .next { s with dev := d })
    (g : SledGoes h.ix mode goal s.dev d) : SledTakes s h cmd mode goal := ⟨d, row, g.mode, g.busy, g.goal, g.only, g.regs⟩

variable (takes : s.dev.sledTakes h.ix = true)
include takes

/-- A command of a sled that takes commands leaves what its change f makes of the block. -/
theorem exec_of_sledCommand {cmd : Instr} (f : Dev → Dev) {d : Dev} (leaves : f s.dev = d)
    (row : exec cmd s = s.on fun d => d.sledCommand h f := by rfl) : exec cmd s = .next { s with dev := d } :=
  leaves ▸ row.trans (State.on_sledCommand f takes)

theorem sledRefuses_of_busy (no : s.dev.sledBusy h.ix = true ∨ s.dev.bit (Fld.SLD_STATUS_HOMED h.ix) = false) :
    SledRefuses s h (.sledMove h) ∧ SledRefuses s h (.sledTrack h) ∧ SledRefuses s h (.sledTable h) :=
  ⟨.of_row (exec_of_sledCommand takes (fun d => d.moveSled h.ix sledMove ((d.reg (Adr.SLD_TARGET h.ix)).toInt * 65536)) (Dev.moveSled_of_refused no)), .of_row (exec_of_sledCommand takes (fun d => d.trackSled h.ix) (Dev.trackSled_of_refused no)),
    .of_row (exec_of_sledCommand takes (fun d => d.tableSled h.ix) (Dev.tableSled_of_refused no))⟩

theorem completes_sledMove_beyond (free : s.dev.sledBusy h.ix = false) (homed : s.dev.bit (Fld.SLD_STATUS_HOMED h.ix) = true)
    (beyond : (s.dev.reg (Adr.SLD_TARGET h.ix)).toInt * 65536 < (s.dev.vlim h.ix).1 ∨
      (s.dev.vlim h.ix).2 < (s.dev.reg (Adr.SLD_TARGET h.ix)).toInt * 65536) : Completes (.sledMove h) s fun d =>
        d.bit (Fld.SLD_STATUS_VLIM_REFUSED h.ix) = true ∧ d.bit (Fld.SLD_STATUS_CMD_REFUSED h.ix) = true ∧ d.mot = s.dev.mot := by
  refine ⟨_, exec_of_sledCommand takes (fun d => d.moveSled h.ix sledMove ((d.reg (Adr.SLD_TARGET h.ix)).toInt * 65536)) (Dev.moveSled_of_beyond free homed beyond), ?_⟩
  obtain ⟨refused, mot, fields⟩ := (s.dev.putBit (Fld.SLD_STATUS_VLIM_REFUSED h.ix) true).sledRefused_spec (headIx_lt h)
  refine ⟨?_, refused, mot⟩
  exact (Dev.bit_of_fld_eq (fields _ rfl (.inr (.inl (Nat.le_of_ble_eq_true rfl))))).trans (Dev.bit_putBit_self _ _ _)

theorem sledTakes_move (free : s.dev.sledBusy h.ix = false) (homed : s.dev.bit (Fld.SLD_STATUS_HOMED h.ix) = true)
    (lo : (s.dev.vlim h.ix).1 ≤ (s.dev.reg (Adr.SLD_TARGET h.ix)).toInt * 65536)
    (hi : (s.dev.reg (Adr.SLD_TARGET h.ix)).toInt * 65536 ≤ (s.dev.vlim h.ix).2)
    (clear : s.dev.towardLimit h.ix ((s.dev.reg (Adr.SLD_TARGET h.ix)).toInt * 65536)
      ((s.dev.reg (Adr.SLD_TARGET h.ix)).toInt * 65536) = false) :
    SledTakes s h (.sledMove h) sledMove ((s.dev.reg (Adr.SLD_TARGET h.ix)).toInt * 65536) :=
  .of_goes (exec_of_sledCommand takes (fun d => d.moveSled h.ix sledMove ((d.reg (Adr.SLD_TARGET h.ix)).toInt * 65536)) (Dev.moveSled_of_within free homed lo hi clear)) (s.dev.goes_sledGo _ _ (by decide))

theorem sledTakes_park (free : s.dev.sledBusy h.ix = false) (homed : s.dev.bit (Fld.SLD_STATUS_HOMED h.ix) = true)
    (lo : (s.dev.vlim h.ix).1 ≤ (s.dev.reg (Adr.SLD_PARK_POS h.ix)).toInt * 65536)
    (hi : (s.dev.reg (Adr.SLD_PARK_POS h.ix)).toInt * 65536 ≤ (s.dev.vlim h.ix).2)
    (clear : s.dev.towardLimit h.ix ((s.dev.reg (Adr.SLD_PARK_POS h.ix)).toInt * 65536)
      ((s.dev.reg (Adr.SLD_PARK_POS h.ix)).toInt * 65536) = false) :
    SledTakes s h (.sledPark h) sledPark ((s.dev.reg (Adr.SLD_PARK_POS h.ix)).toInt * 65536) :=
  .of_goes (exec_of_sledCommand takes (fun d => d.parkSled h.ix) ((if_pos homed).trans (Dev.moveSled_of_within free homed lo hi clear))) (s.dev.goes_sledGo _ _ (by decide))

theorem sledTakes_track (free : s.dev.sledBusy h.ix = false) (homed : s.dev.bit (Fld.SLD_STATUS_HOMED h.ix) = true)
    (clear : s.dev.towardLimit h.ix (clampInt (s.dev.vlim h.ix).1 (s.dev.vlim h.ix).2 (s.dev.trackGoal h.ix))
      (clampInt (s.dev.vlim h.ix).1 (s.dev.vlim h.ix).2 (s.dev.trackGoal h.ix)) = false) :
    SledTakes s h (.sledTrack h) sledTrack (clampInt (s.dev.vlim h.ix).1 (s.dev.vlim h.ix).2 (s.dev.trackGoal h.ix)) := by
  set goal := clampInt (s.dev.vlim h.ix).1 (s.dev.vlim h.ix).2 (s.dev.trackGoal h.ix) with hg
  have tracks : s.dev.trackSled h.ix = (s.dev.sledGo h.ix sledTrack goal).onSled h.ix fun s => { s with outside := false } :=
    if_neg (by rw [free, homed, ← hg, clear]; decide)
  have goes := s.dev.goes_sledGo (n := h.ix) sledTrack goal (by decide)
  refine .of_goes (exec_of_sledCommand takes (fun d => d.trackSled h.ix) tracks) ⟨goes.mode, goes.busy, ?_, rfl, goes.regs.trans (.of_regs_eq rfl)⟩
  rw [Dev.sled_onSled_self]
  exact goes.goal

theorem completes_sledTable {t : List Segment} (free : s.dev.sledBusy h.ix = false) (homed : s.dev.bit (Fld.SLD_STATUS_HOMED h.ix) = true)
    (valid : s.dev.checkTable h.ix = some t)
    (within : (tableExtremes (s.dev.prf h.ix).p (s.dev.prf h.ix).v t).all
      (fun p => decide ((s.dev.vlim h.ix).1 ≤ p) && decide (p ≤ (s.dev.vlim h.ix).2)) = true)
    (home : s.dev.bit (Fld.SLD_STATUS_LIM_HOME h.ix) = false) (far : s.dev.bit (Fld.SLD_STATUS_LIM_FAR h.ix) = false) :
    Completes (.sledTable h) s fun d => d.sledMode h.ix = sledTable ∧ (d.prf h.ix).segs = t ∧ d.bit (Fld.PRF_STATUS_BUSY h.ix) = true := by
  refine ⟨_, exec_of_sledCommand takes (fun d => d.tableSled h.ix) (Dev.tableSled_of_valid free homed valid within home far), ?_⟩
  obtain ⟨runs, segs, _, _, regs⟩ := (s.dev.sledGo h.ix sledTable (s.dev.prf h.ix).p).startTable_spec h.ix t
  have apart : Adr.SLD_STATUS h.ix ∉ [Adr.PRF_STATUS h.ix] := by cases h <;> decide
  exact ⟨(regs.fld (f := Fld.SLD_STATUS_MODE h.ix) apart).trans (s.dev.goes_sledGo _ _ (by decide)).mode, segs, runs⟩

theorem sledRefuses_home (busy : s.dev.sledBusy h.ix = true) : SledRefuses s h (.sledHome h) := .of_row (exec_of_sledCommand takes (fun d => d.homeSled h.ix) (if_pos busy))

theorem completes_sledHome_far (free : s.dev.sledBusy h.ix = false) (far : s.dev.bit (Fld.SLD_STATUS_LIM_FAR h.ix) = true) :
    Completes (.sledHome h) s fun d => d.bit (Fld.SLD_STATUS_HOME_FAIL h.ix) = true ∧ d = { s.dev with regs := d.regs } ∧
      d.sledMode h.ix = s.dev.sledMode h.ix := by
  refine ⟨_, exec_of_sledCommand takes (fun d => d.homeSled h.ix) ((if_neg (Bool.eq_false_iff.mp free)).trans (if_pos far)), Dev.bit_putBit_self _ _ _, rfl, ?_⟩
  exact Dev.fld_put_ne _ _ _ _ (Nat.le_of_ble_eq_true rfl) (.inr (.inl (Nat.le_of_ble_eq_true rfl)))

theorem completes_sledHome (free : s.dev.sledBusy h.ix = false) (far : s.dev.bit (Fld.SLD_STATUS_LIM_FAR h.ix) = false) :
    Completes (.sledHome h) s fun d => d.sledMode h.ix = sledHome ∧ d.bit (Fld.SLD_STATUS_HOMED h.ix) = false ∧
      (d.sled h.ix).home = if s.dev.bit (Fld.SLD_STATUS_LIM_HOME h.ix) then .leave else .inward :=
  ⟨_, exec_of_sledCommand takes (fun d => d.homeSled h.ix) rfl, s.dev.homeSled_spec free far⟩

theorem completes_sledStop : Completes (.sledStop h) s fun d =>
    d.sledMode h.ix = (if (s.dev.prf h.ix).v = 0 then sledIdle else sledStop) ∧ (d.prf h.ix).v = (s.dev.prf h.ix).v :=
  ⟨_, exec_of_sledCommand takes (fun d => d.stopSled h.ix) rfl, s.dev.stopSled_spec⟩

end

end Sys2Proof.Machine

/-! PROOFS. DEC, the hold timer and the limit switches of a sled, and O45. -/

namespace Sys2Proof.Machine

/-! ## DEC and hold current (R238, R239) -/

section
variable (d : Dev) {n : Nat} (v : Word)

/-- DEC is stored, and acts at once on a sled that does not brake. -/
theorem Dev.decWrite_spec (hn : n < 2) : (d.decWrite n v).reg (Adr.SLD_DEC n) = v ∧
    ((d.sled n).brakeFrom = 0 → d.sledMode n ≠ sledStop → ((d.decWrite n v).sled n).dec = v.toNat) := by
  have below : Adr.SLD_DEC n < 0xd0000 := by unfold Adr.SLD_DEC; omega
  have apart : Adr.SLD_DEC n ≠ Adr.SLD_STATUS n := by unfold Adr.SLD_DEC Adr.SLD_STATUS; omega
  unfold Dev.decWrite
  extract_lets x s m planned brakes reach stop l short
  have stored : m.reg (Adr.SLD_DEC n) = v := Dev.reg_setReg_self _ _ _
  have mode : m.sledMode n = d.sledMode n := Dev.fld_setReg_ne _ _ _ _ apart.symm
  constructor
  · split
    · exact stored
    · split
      · exact stored
      · exact (Dev.reg_motorEvent _ _ _ below).trans ((Dev.reg_put_ne _ _ _ apart).trans stored)
  · intro idle away
    have free : brakes = false := by
      show (planned && s.brakeFrom != 0 || m.sledMode n == sledStop && x.v != 0) = false
      rw [mode, beq_eq_false_iff_ne.mpr away, show (s.brakeFrom != 0) = false from by rw [bne, show s.brakeFrom = 0 from idle]; rfl,
        Bool.and_false, Bool.false_and]
      rfl
    rw [free, if_pos (by rfl), Dev.sled_onSled_self]

end

section
variable {s : State} {h : Head} (has : s.dev.hasSled h.ix = true)
include has

/-- What happens at a sled that is there leaves what the change f makes of the block. -/
theorem exec_of_atSled {cmd : Instr} (f : Dev → Dev) {d : Dev} (leaves : f s.dev = d)
    (row : exec cmd s = s.on fun d => d.atSled h f := by rfl) : exec cmd s = .next { s with dev := d } :=
  leaves ▸ row.trans (State.on_atSled f has)

theorem completes_sledDecWrite (v : Word) : Completes (.sledDecWrite h v) s fun d => d.reg (Adr.SLD_DEC h.ix) = v ∧
    ((s.dev.sled h.ix).brakeFrom = 0 → s.dev.sledMode h.ix ≠ sledStop → (d.sled h.ix).dec = v.toNat) :=
  ⟨_, exec_of_atSled has (fun d => d.decWrite h.ix v) rfl, s.dev.decWrite_spec v (headIx_lt h)⟩

theorem completes_sledHoldTimer (rest : (s.dev.prf h.ix).v = 0) : Completes (.sledHoldTimer h) s fun d =>
    (d.sled h.ix).hold = true ∧ d = { s.dev with mot := d.mot } := by
  refine ⟨_, exec_of_atSled has (fun d => d.when ((d.prf h.ix).v == 0) fun d => d.onSled h.ix fun s => { s with hold := true })
    (if_pos (beq_iff_eq.mpr rest)), ?_, rfl⟩
  rw [Dev.sled_onSled_self]

theorem exec_sledHoldTimer_of_moving (moves : (s.dev.prf h.ix).v ≠ 0) : exec (.sledHoldTimer h) s = .next s :=
  exec_of_atSled has (fun d => d.when ((d.prf h.ix).v == 0) fun d => d.onSled h.ix fun s => { s with hold := true })
    (if_neg (mt beq_iff_eq.mp moves))

/-! ## Limit switches (R241, R242) -/

theorem completes_limitRawTransition (far level : Bool) : Completes (.limitRawTransition h far level) s fun d => d = { s.dev with mot := d.mot } ∧
    let act := level == s.dev.bit (if far then Fld.SLD_LIM_CFG_POL_FAR h.ix else Fld.SLD_LIM_CFG_POL_HOME h.ix)
    (if far then (d.sled h.ix).rawFar else (d.sled h.ix).rawHome) =
      if act = s.dev.bit (if far then Fld.SLD_STATUS_LIM_FAR h.ix else Fld.SLD_STATUS_LIM_HOME h.ix) then none
      else some (act, (s.dev.prf h.ix).p) := by
  have row : exec (.limitRawTransition h far level) s = execLimitRawTransition h far level s := rfl
  unfold execLimitRawTransition at row
  rw [State.on_atSled _ has] at row
  refine ⟨_, row, rfl, ?_⟩
  intro act
  rw [Dev.sled_onSled_self]
  cases far <;> simp only [act, reduceIte, Bool.false_eq_true, beq_iff_eq]

end

/-- The field that shows a switch's level, and the one that latches its edge. -/
def limLevel (n : Nat) (far : Bool) : Field := if far then Fld.SLD_STATUS_LIM_FAR n else Fld.SLD_STATUS_LIM_HOME n

def limLatch (n : Nat) (far : Bool) : Field := if far then Fld.SLD_STATUS_LIMIT_FAR n else Fld.SLD_STATUS_LIMIT_HOME n

/-- A transition of a switch that waits for its qualification. -/
def SledSt.raw (x : SledSt) (far : Bool) : Option (Bool × Int) := if far then x.rawFar else x.rawHome

/-- The fields and registers that an active edge changes. -/
def limitFields (n : Nat) : List Field :=
  sledFields n ++ [Fld.SLD_STATUS_HOMED n, Fld.SLD_STATUS_HOME_FAIL n, Fld.SLD_STATUS_LIMIT_FAR n, Fld.SLD_STATUS_LIMIT_HOME n]

def limitRegs (n : Nat) : List Nat := Adr.MOT_CNT 7 :: sledRegs n

theorem limLevel_one_bit (n : Nat) (far : Bool) : (limLevel n far).width = 1 ∧ (limLevel n far).lo + (limLevel n far).width ≤ 32 := by
  cases far <;> exact ⟨rfl, Nat.le_of_ble_eq_true rfl⟩

theorem limLatch_one_bit (n : Nat) (far : Bool) : (limLatch n far).width = 1 ∧ (limLatch n far).lo + (limLatch n far).width ≤ 32 := by
  cases far <;> exact ⟨rfl, Nat.le_of_ble_eq_true rfl⟩

theorem limLevel_outside_edge : ∀ n < 2, ∀ far : Bool, (limLevel n far).Outside (limitRegs n) (limitFields n) := by decide

/-- What an active edge sets lies outside what the stop that follows changes. -/
theorem edge_outside_stop : ∀ n < 2, ∀ far : Bool, ∀ g ∈ [limLatch n far, Fld.SLD_STATUS_HOMED n, wholeReg (Adr.MOT_CNT 7)],
    g.Outside (sledRegs n) (sledFields n) := by decide

/-- No transition waits at the switch. -/
def SledSt.forgetRaw (s : SledSt) (far : Bool) : SledSt := if far then { s with rawFar := none } else { s with rawHome := none }

section
variable (d : Dev) {n : Nat}

/-- The qualified level is shown, and no transition waits. -/
def Dev.edgeShown (n : Nat) (far act : Bool) : Dev :=
  (d.onSled n fun s => s.forgetRaw far).putBit (limLevel n far) act

theorem Dev.ignore_edgeShown (far act : Bool) : ((d.edgeShown n far act).sled n).ignore = (d.sled n).ignore := by
  have cell : (d.edgeShown n far act).sled n = (d.sled n).forgetRaw far := Dev.sled_onSled_self d n fun s => s.forgetRaw far
  rw [cell]
  cases far <;> rfl

/-- What an edge brings about. -/
def Dev.edgeActs (n : Nat) (far act : Bool) (pos : Int) : Dev :=
  if d.sledMode n = sledIdle then d
  else if act then (if (d.sled n).ignore then d else d.limitActs n far pos)
  else d.when (!far && d.sledMode n == sledHome && (d.sled n).home == .leave) fun d =>
    d.onSled n fun s => { s with home := .backoff, goal := (d.prf n).p + d.backoff n }

theorem SameFields.homeFails {d d' : Dev} {as : List Nat} {fs : List Field} (s : SameFields d d' as fs)
    (hf : Fld.SLD_STATUS_HOME_FAIL n ∈ fs) : SameFields d (d'.homeFails n) as fs := by
  unfold Dev.homeFails
  exact (s.putBit _ hf).onSled _ _

/-- An active edge leaves what shares no bit with its fields. -/
theorem Dev.sameFields_limitActs (far : Bool) (pos : Int) : SameFields d (d.limitActs n far pos) (limitRegs n) (limitFields n) := by
  have own (f : Field) (hf : f ∈ [Fld.SLD_STATUS_HOMED n, Fld.SLD_STATUS_HOME_FAIL n, Fld.SLD_STATUS_LIMIT_FAR n, Fld.SLD_STATUS_LIMIT_HOME n]) :
      f ∈ limitFields n := List.mem_append_right _ hf
  have events : motorEventRegs ⊆ limitRegs n := fun a ha => List.mem_cons_of_mem _ (List.mem_cons_of_mem _ ha)
  have latch : limLatch n far ∈ limitFields n := own _ (by cases far <;> simp [limLatch])
  unfold Dev.limitActs
  extract_lets x y homing delta z placed w
  have latched : SameFields d y (limitRegs n) (limitFields n) :=
    ((SameFields.refl d _ _).putBit (f := limLatch n far) true latch (limLatch_one_bit n far).2).onSled _ _
  split
  · split
    · exact (latched.setPrf _ _).onSled _ _
    · exact latched
  · have unhomed : SameFields d w (limitRegs n) (limitFields n) := (latched.putBit (f := Fld.SLD_STATUS_HOMED n) _ (own _ (by simp))).motorEvent _ _ events
    clear_value w
    split
    · exact unhomed.homeFails (own _ (by simp))
    · exact (unhomed.count List.mem_cons_self).trans
        ((SledStands.refl _).stopSled.fields.mono (List.subset_cons_self _ _) (List.subset_append_left _ _))

/-- An active edge of a sled that runs no HOME latches, clears HOMED and is counted. -/
theorem Dev.limitActs_spec (hn : n < 2) (far : Bool) (pos : Int) (away : d.sledMode n ≠ sledHome) :
    (d.limitActs n far pos).bit (limLatch n far) = true ∧ (d.limitActs n far pos).bit (Fld.SLD_STATUS_HOMED n) = false ∧
    (d.limitActs n far pos).reg (Adr.MOT_CNT 7) = d.counted (Adr.MOT_CNT 7) 1 := by
  have outside := edge_outside_stop n hn far
  have below := sldStatus_below_events hn
  unfold Dev.limitActs
  extract_lets x y homing delta z placed w
  have latched : y.bit (limLatch n far) = true := Dev.bit_putBit_self d (limLatch n far) true (limLatch_one_bit n far).1 (limLatch_one_bit n far).2
  have mode : y.sledMode n = d.sledMode n := by
    refine Dev.fld_put_ne _ _ _ _ (limLatch_one_bit n far).2 (.inr (.inl ?_))
    cases far <;> exact Nat.le_of_ble_eq_true rfl
  have apart : Adr.MOT_CNT 7 ≠ Adr.SLD_STATUS n := by unfold Adr.SLD_STATUS Adr.MOT_CNT; omega
  have counter : y.reg (Adr.MOT_CNT 7) = d.reg (Adr.MOT_CNT 7) := Dev.reg_put_ne d (limLatch n far) _ (by cases far <;> exact apart)
  have moves : homing = false := beq_eq_false_iff_ne.mpr (mode ▸ away)
  rw [moves, Bool.false_and, if_neg Bool.false_ne_true, if_neg Bool.false_ne_true]
  clear_value y
  have stops := (SledStands.refl (h := n) (w.count (Adr.MOT_CNT 7))).stopSled.fields
  have behind (f : Field) (hf : f.adr = Adr.SLD_STATUS n) : (w.count (Adr.MOT_CNT 7)).bit f = (y.putBit (Fld.SLD_STATUS_HOMED n) false).bit f :=
    (Dev.bit_of_fld_eq (Dev.fld_count (hf ▸ apart.symm))).trans (Dev.bit_motorEvent _ _ _ (hf ▸ below))
  have uncounted : w.reg (Adr.MOT_CNT 7) = y.reg (Adr.MOT_CNT 7) := (Dev.reg_motorEvent _ _ _ (by decide)).trans (Dev.reg_put_ne _ _ _ apart)
  clear_value w
  refine ⟨?_, ?_, ?_⟩
  · refine (stops.bit (outside _ (by simp))).trans ((behind _ (by cases far <;> rfl)).trans ?_)
    refine (Dev.bit_putBit_ne _ _ _ _ (.inr (.inr ?_))).trans latched
    cases far <;> exact Nat.le_of_ble_eq_true rfl
  · exact (stops.bit (outside _ (by simp))).trans ((behind _ rfl).trans (Dev.bit_putBit_self _ _ _))
  · exact (stops.reg (outside (wholeReg (Adr.MOT_CNT 7)) (by simp))).trans (Dev.reg_count_counted (uncounted.trans counter))

/-- What an edge brings about leaves the level that it shows. -/
theorem Dev.level_edgeActs (hn : n < 2) (far act : Bool) (pos : Int) :
    (d.edgeActs n far act pos).bit (limLevel n far) = d.bit (limLevel n far) := by
  have same : SameFields d (d.edgeActs n far act pos) (limitRegs n) (limitFields n) := by
    have self := SameFields.refl d (limitRegs n) (limitFields n)
    unfold Dev.edgeActs
    split
    · exact self
    · split
      · split
        · exact self
        · exact d.sameFields_limitActs far pos
      · exact self.when (self.onSled _ _)
  exact same.bit (limLevel_outside_edge n hn far)

end

section
variable {s : State} {h : Head} (has : s.dev.hasSled h.ix = true)
include has

/-- A transition that waits acts by its edge. -/
def Dev.edged (d : Dev) (n : Nat) (far : Bool) : Dev :=
  match (d.sled n).raw far with
  | none => d
  | some (act, pos) => (d.edgeShown n far act).edgeActs n far act pos

theorem exec_limitEdge (far : Bool) : exec (.limitEdge h far) s = .next { s with dev := s.dev.edged h.ix far } := by
  have row : exec (.limitEdge h far) s = execLimitEdge h far s := rfl
  unfold execLimitEdge at row
  rw [State.on_atSled _ has] at row
  exact row

theorem exec_limitEdge_of_none {far : Bool} (none : (s.dev.sled h.ix).raw far = none) : exec (.limitEdge h far) s = .next s := by
  rw [exec_limitEdge has, Dev.edged, none]

/-- The modes in which a sled moves by command. -/
abbrev movingModes : List Nat := [sledMove, sledTable, sledTrack, sledPark]

theorem completes_limitEdge {far act : Bool} {pos : Int} (raw : (s.dev.sled h.ix).raw far = some (act, pos)) :
    Completes (.limitEdge h far) s fun d => d.bit (limLevel h.ix far) = act ∧
      (act = true → s.dev.sledMode h.ix ∈ movingModes → (s.dev.sled h.ix).ignore = false → d.bit (limLatch h.ix far) = true ∧
        d.bit (Fld.SLD_STATUS_HOMED h.ix) = false ∧ d.reg (Adr.MOT_CNT 7) = s.dev.counted (Adr.MOT_CNT 7) 1) := by
  refine ⟨(s.dev.edgeShown h.ix far act).edgeActs h.ix far act pos, by rw [exec_limitEdge has, Dev.edged, raw], ?_, fun active moving fresh => ?_⟩
  · refine (Dev.level_edgeActs _ (headIx_lt h) far act pos).trans ?_
    exact Dev.bit_putBit_self _ _ _ (limLevel_one_bit _ _).1 (limLevel_one_bit _ _).2
  · have mode : (s.dev.edgeShown h.ix far act).sledMode h.ix = s.dev.sledMode h.ix := by
      refine Dev.fld_put_ne _ _ _ _ (limLevel_one_bit _ _).2 (.inr (.inl ?_))
      cases far <;> exact Nat.le_of_ble_eq_true rfl
    have ignore : ((s.dev.edgeShown h.ix far act).sled h.ix).ignore = false := (s.dev.ignore_edgeShown far act).trans fresh
    have away : ∀ m ∈ movingModes, m ≠ sledIdle ∧ m ≠ sledHome := by decide
    obtain ⟨notIdle, notHome⟩ := away _ moving
    have acts : (s.dev.edgeShown h.ix far act).edgeActs h.ix far act pos = (s.dev.edgeShown h.ix far act).limitActs h.ix far pos := by
      unfold Dev.edgeActs
      rw [if_neg (mode ▸ notIdle), if_pos active, ignore]
      rfl
    have counter : (s.dev.edgeShown h.ix far act).reg (Adr.MOT_CNT 7) = s.dev.reg (Adr.MOT_CNT 7) := by
      have apart : Adr.MOT_CNT 7 ≠ Adr.SLD_STATUS h.ix := by unfold Adr.SLD_STATUS Adr.MOT_CNT; omega
      exact Dev.reg_put_ne _ (limLevel h.ix far) _ (by cases far <;> exact apart)
    obtain ⟨latch, homed, count⟩ := (s.dev.edgeShown h.ix far act).limitActs_spec (headIx_lt h) far pos (mode ▸ notHome)
    rw [acts]
    exact ⟨latch, homed, count.trans (by rw [Dev.counted, Dev.counted, counter])⟩

end

/-- Settles O45: each command is refused or taken by what its sled or channel shows, and a switch acts through its edge. -/
theorem sledsObeyLimits : Obligations.SledsObeyLimits := by
  intro s h c start v far level
  refine ⟨exec_sled_of_absent v far level, exec_sledCommand_of_not, exec_prfGo_of_absent, completes_prfGo, exec_prfStop_of_idle,
    completes_prfStop, fun takes => ?commands, fun has => ?switches⟩
  case commands =>
    exact ⟨sledRefuses_of_busy takes, completes_sledMove_beyond takes, sledTakes_move takes, sledTakes_park takes,
      sledTakes_track takes, fun t => completes_sledTable takes, sledRefuses_home takes, completes_sledHome_far takes,
      completes_sledHome takes, completes_sledStop takes⟩
  case switches =>
    exact ⟨completes_sledDecWrite has v, completes_sledHoldTimer has, exec_sledHoldTimer_of_moving has,
      completes_limitRawTransition has far level, exec_limitEdge_of_none has, fun act pos => completes_limitEdge has⟩

end Sys2Proof.Machine
